-- ==== Sys2Proof/Word.lean ====
section
/-! DEFINITION. The words of the block: register words, bytes, and the shape of a sparse table. -/

namespace Sys2Proof

/-- A register word: 32 bits, bit 0 the least significant (00 R7). -/
abbrev Word := BitVec 32

/-- One byte. -/
abbrev Byte := BitVec 8

/-- A byte string, the byte of the lowest offset first (00 R8). -/
abbrev Bytes := List Byte

/-- A sparse table: key and value pairs, keys strictly rising (`Machine/Tables.lean` reads and writes it). -/
abbrev Tbl (α : Type) := List (Nat × α)

end Sys2Proof
end

