-- ==== Sys2Proof/Config.lean ====
section
/-! DEFINITION. What the spec names without giving its content: the cryptographic algorithms, the constants of
the boot ROM, and the free values. Every constant here is opaque: nothing proved can rest on a value of it. -/

namespace Sys2Proof.Config

/-- AES-256 on one block: key, plaintext block. Named, not given (06 R187, 08 R265). DESIGN CHOICE (log 6). -/
opaque aes256 : BitVec 256 → BitVec 128 → BitVec 128

/-- KMAC256 of NIST SP 800-185 with S = "TVD": key bytes, X, and L in bytes (04 R118); its L bytes as
one number. DESIGN CHOICE (log 6). -/
opaque kmac256 : Bytes → Bytes → (n : Nat) → BitVec (8 * n)

/-- SHA3-384 (05 R142, 13 R434), as one number. DESIGN CHOICE (log 6). -/
opaque sha3 : Bytes → BitVec 384

/-- ML-DSA-87 key generation (FIPS 204, named by 05 R139): byte `i` of the public key of a 32-byte seed ξ.
DESIGN CHOICE (log 6). -/
opaque mldsaPub : Bytes → Nat → Byte

/-- ML-DSA-87 signing (named by 05 R145, R151): seed, message, the signing's own randomness as a number, byte `i` of the
signature. DESIGN CHOICE (log 6). -/
opaque mldsaSig : Bytes → Bytes → Nat → Nat → Byte

/-- The fixed 512-bit test root of the boot ROM (04, "The test root"). DESIGN CHOICE (log 6). -/
opaque testRoot : BitVec 512

/-- SHA3-384 of the boot ROM (05 R154 index 1). DESIGN CHOICE (log 6). -/
opaque romDigest : BitVec 384

/-- Byte `i` of the DRBG's draw `n` (04 R109). A free value. DESIGN CHOICE (log 1). -/
opaque drbg : Nat → Nat → Byte

/-- The free number drawn at counter `n`: a value the spec leaves open. DESIGN CHOICE (log 1). -/
opaque freeNat : Nat → Nat

/-- The free byte `i` drawn at counter `n`: data the spec leaves open. DESIGN CHOICE (log 1). -/
opaque freeByte : Nat → Nat → Byte

/-- The hash of an address that spreads the block's own memory traffic over the core-side ports; the spec gives no formula
(02 R42; log 4). -/
opaque portHash : Nat → Nat

/-- The transaction ID of the `n`th access of the block (02 R42; log 4). -/
opaque accessTid : Nat → Nat

/-- The known hash of SPRAY 0 (06 R210): from stream, source and destination to a number.
The spec does not give it. DESIGN CHOICE (log 9). -/
opaque laneHash : Nat → Nat → Nat → Nat

end Sys2Proof.Config
end

