-- ==== Sys2Proof/Syntax.lean ====
section
/-! DEFINITION. The commands of the block: one constructor per row of the table of operations, with the row's
operands. What an outside party decides (an answer of memory, a verdict of a signature, a measurement) is an operand. -/

namespace Sys2Proof

/-- The clocks the aon monitor measures (02 R57). -/
inductive Clk where
  | eng | hub | lane (n : Nat) | cs | reg | mir
  deriving DecidableEq, Repr

/-- What the monitor finds of a clock (02 R60, 12 R388). -/
inductive ClkFault where
  | above | below | stopped
  deriving DecidableEq, Repr

/-- Who makes a register access (02 R44): tvd_reg_req_priv and tvd_reg_req_pasid. -/
structure Requester where
  priv : Bool
  pasid : Nat
  deriving DecidableEq, Repr

/-- How an access to package memory or the store ended (02 R43, R48). -/
inductive Access where
  | ok | err | poison
  deriving DecidableEq, Repr

/-- What the persistent store answers to reads: sealed records of 64 bytes by record index (02 R48). A read of a record not
listed delivers nothing that opens. -/
abbrev Flash := Tbl Bytes

/-- What boot finds outside the block: the records of the store (12 R405), and the fuse write of a
resumed transition that fails, if one does (04 R134). -/
structure BootEnv where
  flash : Flash
  failAt : Option Nat
  deriving DecidableEq, Repr

/-- Verdicts of the public-key engine on an image (03 R76 items 3 and 4). -/
structure FwVerdict where
  keys : Bool
  mldsa : Bool
  ecdsa : Bool
  deriving DecidableEq, Repr

/-- What the firmware start finds (04 R110, R111; 05 R140-R144): how many draws the DRBG refused, the fuse write
that fails, the records of the store, the digest of the stored chain's root, and the verdict on the DeviceID keys. -/
structure StartEnv where
  refused : Nat
  failAt : Option Nat
  flash : Flash
  rootDigest : Bytes
  keysMatch : Bool
  deriving DecidableEq, Repr

/-- What the sensors and clocks show (11 R379): at the time of asking, and with the power of the last whole 10 ms and the sensors as they
stood at the last 10 ms boundary of the timestamp. -/
structure Meas where
  engKHz : Nat
  csKHz : Nat
  hubKHz : Nat
  regKHz : Nat
  hot : Word
  cool : Word
  powerMw : Nat
  limitMw : Nat
  hot10 : Word
  cool10 : Word
  power10 : Nat
  deriving DecidableEq, Repr

/-- The interface that a TDISP request names: the mailbox's partition, and the Requester ID in the request (05 R159). -/
structure Tdi where
  part : Nat
  rid : Nat
  deriving DecidableEq, Repr

/-- An SPDM connection: a mailbox source, or a peer on the fabric (05 R146). -/
inductive Conn where
  | mbox (src : Nat)
  | peer (vertex : Nat)
  deriving DecidableEq, Repr

/-- A requester's leaf as FINISH shows it (05 R149, 13 R434): SHA3-384 of its keys, whether its chain roots in
LICENSEE_ROOT_DIGEST, and what the session's secrets are, which no rule of the spec computes: TH2 and the export master
secret. -/
structure SpdmFinish where
  ok : Bool
  mutualAuth : Bool
  leaf : Bytes
  rooted : Bool
  th2 : Bytes
  ems : Bytes
  deriving DecidableEq, Repr

/-- An SPDM or TDISP request that has no row of its own (05 R149, R159). `own` has a row of its own in the table. -/
inductive SpdmReq where
  | getVersion | getCapabilities
  /-- NEGOTIATE_ALGORITHMS: whether the requester offers the algorithms of the table (05 R148). -/
  | negotiate (offered : Bool)
  | getDigests | getCertificate
  | challenge
  | finish (f : SpdmFinish)
  | encapsulated
  | heartbeat | keyUpdate
  | chunk
  | respondIfReady
  /-- GET_TDISP_VERSION, GET_TDISP_CAPABILITIES or GET_DEVICE_INTERFACE_STATE, for the interface of a Requester ID. -/
  | tdispInfo (rid : Nat)
  /-- P2P stream binding, MMIO attribute setting or a TDISP VDM (05 R159). -/
  | tdispOther
  | own
  | unsupported
  deriving DecidableEq, Repr

/-- What the peer of a session shows of itself in its chain and measurements (05 R154, R162): a block of life-cycle
state PROD, its flags, its versions, BODY_DIGEST and root digest, and whether it reports that it is a member. -/
structure PeerShown where
  prod : Bool
  testRoot : Bool
  invasive : Bool
  ipVersion : Nat
  svn : Nat
  digest : Bytes
  root : Bytes
  member : Bool
  deriving DecidableEq, Repr

/-- A key of an IDE stream (05 R155): stream, direction, substream, key set. -/
structure IdeKey where
  stream : Nat
  dir : Nat
  sub : Nat
  set : Nat
  deriving DecidableEq, Repr

/-- A whole target request on a core-side port (02 R38): `beats` is the number of beats, `be` the byte enables and
`data` the bytes of all of them; `steady` says that no attribute changed between beats (02 R34). -/
structure CsTarget where
  tid : Nat
  op : Nat
  aop : Nat
  addr : Nat
  beats : Nat
  be : List Bool
  data : Bytes
  kid : Nat
  pasid : Nat
  steady : Bool
  deriving DecidableEq, Repr

/-- A part of the repair map (12 R404). `rx` is the receive direction of an AES pipeline. -/
inductive Part where
  | aes (port : Nat) (rx : Bool) (pipe : Nat)
  | adder (port lane : Nat)
  | msPipe (n : Nat)
  | sramRow (mac row : Nat)
  | sramCol (mac col : Nat)
  | core (c : Nat)
  deriving DecidableEq, Repr

/-- An L2 of a port, and the parts that the known-answer tests of its units find to fail (12 R398). -/
structure PortTest where
  port : Nat
  fails : List Part
  deriving DecidableEq, Repr

/-- What the self-test of BCP_SELFTEST finds to fail (12 R407): Hub cores, engines, and the parts of the AES pipelines, the
adder lanes and the SRAM macros. -/
structure SelfFails where
  cores : List Nat
  mac : Bool
  pk : Bool
  drbg : Bool
  parts : List Part
  deriving DecidableEq, Repr

/-! Records of State that travel over the mirror (12 R409). They belong to State and stand here because a command carries
them. -/

namespace Machine

/-- An alarm record (12 R383). -/
structure AlarmRec where
  cls : Nat
  alarm : Bool
  gap : Bool
  count : Nat
  seq : Nat
  ts : Nat
  unit : Nat
  port : Nat
  lane : Nat
  status : Nat
  cause : Nat
  vertex : Nat
  kid : Nat
  part : Nat
  addr : Nat
  deriving DecidableEq, Repr

/-- A key store slot (04 R112). STATE: 0 free, 1 valid, 2 orphaned, 3 retired. -/
structure Slot where
  key : BitVec 256
  typ : Nat
  uses : BitVec 16
  parent : Nat
  state : Nat
  depth : Nat
  parentGen : Nat
  gen : Nat
  useCount : Nat
  useLimit : Nat
  ownerKid : Nat
  deriving DecidableEq, Repr

/-- A cleared slot. -/
def Slot.zero : Slot :=
  { key := 0, typ := 0, uses := 0, parent := 0, state := 0, depth := 0, parentGen := 0, gen := 0,
    useCount := 0, useLimit := 0, ownerKid := 0 }

/-- A domain policy in force (05 R161): the fields and the digest of the whole. -/
structure Policy where
  domainId : Nat
  serial : Nat
  flags : Nat
  leadSet : List Nat
  minIp : Nat
  minSvn : Nat
  fw : List Bytes
  roots : List Bytes
  opKey : Bytes
  manager : Nat
  bitmap : Bytes
  digest : Bytes
  deriving DecidableEq, Repr

/-- A link record (05 R164): the peer, TK and the send count, the link ID of its nonces, and the 64 sealed bytes of the record. -/
structure Link where
  peer : Nat
  id : Nat
  tk : BitVec 256
  sends : Nat
  sealed : Bytes := []
  deriving DecidableEq, Repr

/-- A child of this block in the tree: its link, how its enrolment and the rekey's phases stand; `below` counts
the committed vertices beneath it, `via` lists the vertices that were reported through it. -/
structure Child where
  link : Link
  committed : Bool
  below : Nat
  via : List Nat
  dist : Option Nat
  switched : Option Nat
  drained : Option Nat
  deriving DecidableEq, Repr

/-- An enrolment in progress (05 R164-R168). -/
structure Enrol where
  src : Nat
  tag : Word
  reparent : Bool
  parent : Nat
  start : Nat
  accepted : Bool
  joined : Bool
  committed : Bool
  deriving DecidableEq, Repr

/-- Phases of a rekey (05 R174). -/
inductive RekeyPhase where
  | distribute | switching | draining
  deriving DecidableEq, Repr

/-- A rekey in progress (05 R174-R176). The pending key stands in slot 6. -/
structure Rekey where
  phase : RekeyPhase
  target : Nat
  src : Option Nat
  distSent : Bool
  distAt : Nat
  switchAt : Nat
  ownDrained : Bool
  drainSent : Bool
  deriving DecidableEq, Repr

/-- Domain membership (05 R161-R176, R469). `role`: 0 none, 1 member, 2 Lead. `held`: vertices whose commit is withheld
during a rekey; `asked`: the child that reported a vertex last, whose answer is still due (05 R166); `leaving`: the membership ends once its last messages have left; `chordWin`: an open window of
BCP_CHORD_REKEY with its source, its local advances and the ACKs so far. -/
structure Domain where
  policy : Option Policy
  vertex : Option Nat
  member : Bool
  role : Nat
  parent : Option Link
  children : Tbl Child
  opening : List Nat
  gen : Nat
  enrolled : List Nat
  allMarked : Bool
  held : List Nat
  asked : Tbl Nat
  enrol : Option Enrol
  rekey : Option Rekey
  leaving : Bool
  chordWin : Option (Nat × Nat × Nat)
  deriving DecidableEq, Repr

/-- A chord cache entry (06 R190-R192): generation, frames sealed under it, key, and the handle of its slot. -/
structure Chord where
  gen : Nat
  count : Nat
  key : BitVec 256
  slot : Nat
  slotGen : Nat
  deriving DecidableEq, Repr

/-- An egress stream context (06 R200, R203, R205). `closing`: it waits to send a GAP (07 R234); `gap`: the GAP's
tag; `jump`: it takes NEXT_SEQ from SEQ_LIMIT at first use (06 R205). -/
structure Egress where
  next : Nat
  limit : Nat
  outstanding : Nat
  resident : Bool
  closing : Bool
  gap : Option Nat
  jump : Bool
  deriving DecidableEq, Repr

/-- An ingress stream context: LOW and its ranges, each (offset from LOW, length) (06 R200, R204). -/
structure Ingress where
  low : Nat
  ranges : List (Nat × Nat)
  resident : Bool
  deriving DecidableEq, Repr

/-- Who waits for a stored frame (07 R227 ORIGIN, spelled out). Descriptors are named by their number in
`parts.desc`, module operations by their number in `mem.ops`. -/
inductive Origin where
  /-- Segment of a core-side request: port, transaction ID, segment. -/
  | core (port tid seg : Nat)
  /-- Chunk of a copy: engine, chunk. -/
  | copy (eng chunk : Nat)
  /-- A WD_SIGNAL. -/
  | signal (desc : Nat)
  /-- A home's RSP, or a management message. -/
  | own
  /-- A reset notice (12 R401). -/
  | notice
  /-- A reply fragment of the TC0 stream (03 R95). -/
  | reply
  /-- A GAP of an egress stream. -/
  | gap
  /-- A frame of a reduction stage. -/
  | reduce (desc : Nat)
  /-- A dump frame of a descriptor, and whether it is the LAST (13 R438). -/
  | dump (desc : Nat) (last : Bool)
  /-- A module request of an operation of the memory seal engine: operation, part. -/
  | module (opId part : Nat)
  deriving DecidableEq, Repr

/-- A tag table entry that is not free, with the stored frame it stands for (07 R227-R232). `rpos` counts the records
its ring had taken before it (07 R230). `recs`: the write of its
retransmit records is outstanding (0), done (1) or failed (2). `ord` is the order of issue; `move`: a Derailleur
move waits for the records (07 R231). -/
structure TagEnt where
  state : Nat
  gen : Nat
  dst : Nat
  stream : Nat
  par : Bool
  tc : Nat
  op : Nat
  kind : Nat
  nfl : Nat
  ctx : Nat
  fepoch : Nat
  cover : Bool
  sends : Nat
  deadline : Nat
  origin : Origin
  content : Bytes
  seq : Nat
  recs : Nat
  move : Bool
  port : Nat
  lane : Nat
  ord : Nat
  kid : Nat
  addr : Nat
  nlines : Nat
  epoch : Nat
  beats : Nat
  owner : Nat
  retx : Nat
  rpos : Nat
  deriving DecidableEq, Repr

/-- A queue of a context (11 R358). -/
structure Queue where
  ring : Nat
  cmpl : Nat
  log2 : Nat
  prio : Nat
  enabled : Bool
  head : Nat
  tail : Nat
  deriving DecidableEq, Repr

/-- A queue before it is configured. -/
def Queue.off : Queue := { ring := 0, cmpl := 0, log2 := 4, prio := 0, enabled := false, head := 0, tail := 0 }

/-- A context that exists (11 R353 to R357); a FREE context has no entry. `stopped`: a teardown or reset runs; `tearing`: a
teardown. -/
structure Ctx where
  part : Nat
  pasid : Nat
  slot : Option Nat
  faulted : Bool
  fStatus : Nat
  fQueue : Nat
  fIndex : Nat
  own : Tbl Nat
  queues : Tbl Queue
  stopped : Bool
  tearing : Bool
  deriving DecidableEq, Repr

/-- Where a descriptor stands (11 R360, R367, R368): fetched; running; squashed by a fault of its context, its record
still owed; its final status fixed; its record written. -/
inductive DescPhase where
  | fetched | running | squashed | done | recorded
  deriving DecidableEq, Repr

/-- A descriptor from its fetch on (11 R359 to R368). `checked`: a WD_UPDATE that has passed its checks and waits
(10 R330). `mark`: the dump mark it bears (13 R437). `quiet`: a SHARED signal of a context torn down (11 R370). `recAddr` and
`pasid` say where its completion record goes. -/
structure Desc where
  ctx : Nat
  queue : Nat
  index : Nat
  opcode : Nat
  user : Nat
  irq : Bool
  ordered : Bool
  shared : Bool
  raw : Bytes
  phase : DescPhase
  status : Nat
  result : Nat
  checked : Bool
  mark : Option (Nat × Nat)
  quiet : Bool
  recAddr : Nat
  pasid : Nat
  deriving DecidableEq, Repr

/-- A dirty-page log (11 R374). `filter` holds the pages logged most recently, newest first; `due` the pages written
and not yet logged, each with its PASID index, `out` the one whose entry is being written; `ending`: the log stops once no page is
due. -/
structure DirtyLog where
  active : Bool
  ending : Bool
  out : Option (Nat × Nat)
  base : Nat
  pages : Nat
  count : Nat
  overflow : Bool
  filter : List (Nat × Nat)
  due : List (Nat × Nat)
  deriving DecidableEq, Repr

/-- A partition number (11 R348 to R380). The record stays, with EXISTS false, after destruction. Tags of its OWNER that
were issued before `drainOrd` are detached (R372); `stopping`: a STOP_INTERFACE waits for the reset (05 R160). -/
structure PartRec where
  live : Bool
  gen : Nat
  kidBase : Nat
  kidCount : Nat
  scLimit : Nat
  slots : List Nat
  ways : List Nat
  ports : Nat
  replay : Nat
  retx : Nat
  budgets : List Nat
  pasids : List Nat
  tdisp : Nat
  fwinBase : Nat
  fwinPages : Nat
  owinBase : Nat
  owinPages : Nat
  winErr : Bool
  freezing : Bool
  frozen : Bool
  saved : Bool
  resetting : Bool
  drainOrd : Nat
  destroying : Bool
  stopping : Bool
  log : DirtyLog
  bw : List Nat
  cBw : List Nat
  ideStream : Option Nat
  deriving DecidableEq, Repr

/-- A region (08 R258 to R292). `keys` maps a key generation to the slot that holds its key and that slot's GEN;
`lost`: its root counter is gone (R275) or a dirty node of it is (12 R389); `treeRo`: a tree counter is exhausted
(R278); `handleGen`: GEN of slot 5 at its creation (04 R121); `gen0`: the key generation at its creation (R268);
`wFail`: the status of a failed write to the next bank, 0 when none (R283); `serial` tells it from every region before it
(01 R21). -/
structure Region where
  kind : Nat
  part : Nat
  authority : Bool
  home : Nat
  base : Nat
  size : Nat
  meta_ : Nat
  moduleId : Nat
  levels : Nat
  handleGen : Nat
  gen0 : Nat
  keyGen : Nat
  epoch : Nat
  readOnly : Bool
  treeRo : Bool
  sweep : Option Nat
  root : Nat
  lost : Bool
  invalid : Bool
  keys : Tbl (Nat × Nat)
  wFail : Nat
  serial : Nat
  deriving DecidableEq, Repr

end Machine

/-- A mirror record (12 R409), by the state it carries. How its slots lay that state out is not in the spec (log 24). `ask` and
`sync` are synchronisation control: a standby's wish for a failover, and the protocol of the sender, which fits the receiver's
or not. HANDOVER arrives in a row of its own. -/
inductive Mirror where
  | heartbeat
  | key (n : Nat) (k : Machine.Slot)
  | chord (key : Nat) (c : Option Machine.Chord)
  | egress (key : Nat) (e : Machine.Egress)
  | ingress (key : Nat) (e : Machine.Ingress)
  | tag (t : Nat) (e : Machine.TagEnt)
  | stored (ts : List Nat)
  | retired (ts : List Nat)
  | node (kid level idx : Nat) (data : Bytes)
  | root (kid v : Nat)
  | hot (kid line : Nat) (data : Bytes)
  | region (kid : Nat) (r : Option Machine.Region)
  | part (p : Nat) (r : Machine.PartRec)
  | ctx (c : Nat) (x : Option Machine.Ctx)
  | desc (d : Nat) (x : Option Machine.Desc)
  | pgd (p g : Nat) (data : Bytes)
  | membership (d : Machine.Domain)
  | alarm (r : Machine.AlarmRec) (window : List Nat)
  | sync (fits : Bool)
  | ask
  | confirm (n : Nat)
  | handover (cause : Nat)
  deriving DecidableEq, Repr

/-- The SRAM that holds a word with an uncorrectable error (12 R389), and which entry of it. `keySlot`: any slot; `vital`: tag table, stream contexts, chord cache or region table; `cached`: PGD cache or descriptor prefetch. -/
inductive Sram where
  | replay (port lane fseq : Nat)
  | hold (desc : Nat)
  | hotLine (kid line : Nat)
  | counter (kid level idx : Nat)
  | keySlot (n : Nat)
  | vital
  | hubRam
  | cached
  deriving DecidableEq, Repr

/-- A command: one constructor per row of the table of operations; the rule that states it stands before it. -/
inductive Instr where
  /-- COLD_RESET (R62): tvd_por_n rises after being held low; the block runs boot stages from 0x1 onward, and a
  fall of tvd_por_n aborts every domain. -/
  | coldReset (rise : Bool) (tandemEn : Bool) (tandemId : Bool) (env : BootEnv)
  /-- BOOT_IMAGE_CHECK (R76): Once the image named by the pointer, or the factory-form image, has been read from
  the store, the boot ROM checks it in order and either proceeds or enters stage 0xF. -/
  | bootImageCheck (a : Bytes) (b : Bytes) (img : Flash) (v : FwVerdict)
  /-- FIRMWARE_START (R110): Boot stage 0x5 selects or generates the root, rebuilds the key lattice, checks the
  identity, raises the OTP minimum SVN and then raises tvd_ready. -/
  | firmwareStart (env : StartEnv)
  /-- WARM_RESET (R64): tvd_rst_n is released after being held low; every domain except the always-on state
  resets and boot restarts at stage 0x2. -/
  | warmReset (env : BootEnv)
  /-- CLK_STOP_REQUEST (R66): A sampled tvd_clk_stop_req starts the quiesce: ready signals fall, engines finish
  their current work and lanes are disabled. -/
  | clkStopRequest
  /-- CLK_STOP_ACK (R66): Once every pipeline, crossing FIFO and initiator response has drained, the block
  raises tvd_clk_stop_ack. -/
  | clkStopAck
  /-- CLK_STOP_WITHDRAW (R66): A sampled fall of tvd_clk_stop_req lowers the acknowledge and resumes work in
  reverse quiesce order, or resumes at once if the acknowledge never rose. -/
  | clkStopWithdraw
  /-- CLK_STOP_QUIESCE_TIMEOUT (R67): When quiesce has not finished 100 µs after the request, the block resumes,
  sets CLK_STOP_FAIL and places a CLOCK_STOP event. -/
  | clkStopQuiesceTimeout
  /-- FREEZE_TRIGGER (R430): A change of the freeze trigger (tvd_freeze or PMU_CTRL.FREEZE) stops or resumes
  every counter and moves tvd_frozen. -/
  | freezeTrigger (bit : Bool) (on : Bool)
  /-- SCAN_ENABLE (R51): A rise of tvd_scan_en latches the test root, clears key store, chord cache and stream
  contexts, and raises a security alarm unless scan was authorized. -/
  | scanEnable
  /-- CLOCK_FAULT (R388): The aon clock monitor finds a clock stopped without a grant or out of range, raises a
  CLOCK alarm and starts the consequence for that clock. -/
  | clockFault (clk : Clk) (f : ClkFault)
  /-- LANE_UP_FALL (R197): tvd_lp_lane_up falls on a lane; a started lane is fenced with cause 1 and its frames
  move to the Derailleur. -/
  | laneUpFall (port : Nat) (lane : Nat)
  /-- LANE_UP_RISE (R197): tvd_lp_lane_up rises on a lane; a cause-1 lane returns, and a lane may start. -/
  | laneUpRise (port : Nat) (lane : Nat)
  /-- LANE_START (R198): Once tvd_ready, lane up and LANE_ALLOW are all 1, the block raises tvd_lp_lane_en on
  the lane and begins sending INIT. -/
  | laneStart (port : Nat) (lane : Nat)
  /-- INIT_SEND_TIMER (R198): Every 1 µs on a started lane not yet in service, the block sends an INIT control
  flit. -/
  | initSendTimer (port : Nat) (lane : Nat)
  /-- INIT_TIMEOUT (R197): When no INIT arrives within 100 µs of a lane's start, the lane is fenced with cause
  3. -/
  | initTimeout (port : Nat) (lane : Nat)
  /-- FLIT_RX (R195): A complete flit arrives on a lane; it is classified by its CRC and accepted in order,
  discarded or answered with NAK. -/
  | flitRx (port : Nat) (lane : Nat) (data : Bytes)
  /-- INIT_RX (R198): An INIT control flit puts the lane into service, or, on a lane in service, restarts both
  counts and hands unacknowledged frames to the Derailleur. -/
  | initRx (port : Nat) (lane : Nat)
  /-- ACK_RX (R196): An ACK control flit frees the replay buffer up to its FSEQ. -/
  | ackRx (port : Nat) (lane : Nat) (fseq : Nat)
  /-- NAK_RX (R196): A NAK control flit makes the transmitter send REPLAY and resend from the following flit,
  after 200 ns when BUSY is set. -/
  | nakRx (port : Nat) (lane : Nat) (busy : Bool) (fseq : Nat)
  /-- REPLAY_RX (R195): A REPLAY control flit renumbers the following data flits and leaves discard state at
  flit E, or fences the lane with cause 6 when F exceeds E. -/
  | replayRx (port : Nat) (lane : Nat) (fseq : Nat)
  /-- NAK_BUSY_WAIT_END (R196): 200 ns after a NAK with BUSY, the transmitter sends REPLAY and resends. -/
  | nakBusyWaitEnd (port : Nat) (lane : Nat)
  /-- ACK_TIMER (R195): Within 500 ns of accepting an unacknowledged flit, or after 128 accepted flits, the
  receiver sends ACK. -/
  | ackTimer (port : Nat) (lane : Nat)
  /-- HOP_REPLAY_TIMEOUT (R196): When the oldest flit in the replay buffer has waited 4 µs with no ACK progress,
  the transmitter sends REPLAY and resends from it. -/
  | hopReplayTimeout (port : Nat) (lane : Nat)
  /-- FRAME_RX (R206): At the last flit of a frame, the receiving Spoke checks header, destination, source,
  window, key and tag in order, then updates the window and releases the content. -/
  | frameRx (port : Nat) (lane : Nat)
  /-- GAP_RX (R205): A verified GAP frame moves LOW to g + 1 and clears the ranges, or is treated as a
  duplicate. -/
  | gapRx (port : Nat) (lane : Nat)
  /-- BOOT_FRAME_RX (R207): A generation-0 frame carrying SPDM is accepted only from an admitted source, without
  context, window or acknowledgement. -/
  | bootFrameRx (port : Nat) (lane : Nat) (msg : Option SpdmReq) (sid : Option Nat)
  /-- COMBINED_RX (R240): The home applies the records of a COMBINED frame one by one in order and answers with
  one COMBINED response. -/
  | combinedRx (port : Nat) (lane : Nat)
  /-- CHORD_MISS_FILL (R192): A chord cache miss is filled by a derivation in the Seal MAC engine at miss
  priority, evicting the least recently used free entry. -/
  | chordMissFill (key : Nat)
  /-- STREAM_CONTEXT_MISS_FILL (R202): A stream context miss is filled from the backing area by one package-
  memory read, evicting the least recently used unused context. -/
  | streamContextMissFill (key : Nat) (acc : Access)
  /-- CS_TARGET_REQUEST (R217): A whole target request arrives on a core-side port and is checked, routed by key
  ID and vertex, split into segments, and looped back, sent or refused. -/
  | csTargetRequest (port : Nat) (req : CsTarget)
  /-- PARK_RELEASE (R229): When a partition frees tags or ring space, parked requests leave in order and take
  their tags. -/
  | parkRelease (part : Nat)
  /-- TARGET_RESPONSE (R41): Once every segment of a target request has retired, the block returns its single
  response with the lowest-addressed failing status. -/
  | targetResponse (port : Nat) (tid : Nat)
  /-- FRAME_EGRESS_SEAL (R190): A frame takes a tag, sequence and Chord, is sealed by a Spoke and sent on a lane
  chosen by the Derailleur while its records are written to the retransmit area. -/
  | frameEgressSeal (pick : Nat)
  /-- RETX_RECORD_WRITE_DONE (R231): The write responses for all of a frame's retransmit records return, so the
  frame may now be sent again or moved. -/
  | retxRecordWriteDone (tag : Nat) (ok : Bool)
  /-- HOME_REQUEST (R222): The home receives a REQ frame, checks its layout and scope, applies the load, store,
  atomic or copy chunk, and answers with a RSP or an EACK record. -/
  | homeRequest
  /-- RSP_RX (R223): A RSP frame retires its tag with its status and data, or is counted stale, and is
  acknowledged in either case. -/
  | rspRx
  /-- EACK_RX (R233): An EACK frame's records retire tags with their status, or put REQ tags into STATE 3 on
  DUP. -/
  | eackRx
  /-- EACK_FLUSH (R224): Records gathered for one peer and class are sent in an EACK frame after at most 200 ns.
  -/
  | eackFlush (peer : Nat) (tc : Nat)
  /-- ACK_STREAM_GAP (R226): An acknowledgement stream sends a GAP 10 µs after its last EACK, or after every 512
  EACK frames. -/
  | ackStreamGap (peer : Nat) (tc : Nat)
  /-- E2E_TIMER_EXPIRY (R232): A stored frame's timer expires; it is resent and SENDS rises, or it gives up with
  ST_TIMEOUT when SENDS equals E2E_RETRIES. -/
  | e2eTimerExpiry (tag : Nat)
  /-- STREAM_GAP_SEND (R234): Once every other outstanding frame of a stream that gave up has retired, the
  stream sends a GAP at NEXT_SEQ and resumes when it is acknowledged. -/
  | streamGapSend (key : Nat)
  /-- INITIATOR_RESPONSE (R43): A response to a block's own package-memory access arrives, delivering data,
  marking poison or failing the issuing operation with ST_INTERNAL. -/
  | initiatorResponse (id : Nat) (err : Bool) (poison : Nat) (data : Bytes) (pick : Nat)
  /-- HOTLINE_IDLE_WRITEBACK (R253): A pinned line with no write for 10 µs is written back sealed. -/
  | hotlineIdleWriteback (kid : Nat) (line : Nat)
  /-- MDATA_RX (R269): A module read response verifies the line tags, decrypts and returns the lines, or settles
  a tag failure or module fault. -/
  | mdataRx
  /-- MDONE_RX (R270): A module write completion retires its MWRITE and, with both MDONEs in, acknowledges the
  pool write, or marks the line poison on a fault. -/
  | mdoneRx
  /-- COUNTER_CACHE_FILL (R273): Once a missing metadata node and its ancestors arrive, they are verified top-
  down and cached, or fail with ST_SEAL_FAULT. -/
  | counterCacheFill (id : Nat) (victim : Nat)
  /-- PAGE_REENCRYPT_DONE (R276): A page re-encryption completes its reads, verification and writes under the
  new counters, releasing waiting requests. -/
  | pageReencryptDone (id : Nat)
  /-- RESEAL_SWEEP (R279): The background re-seal sweep re-seals each page of a rekeyed PRIVATE region under the
  new key and frees the old slot at its end. -/
  | resealSweep (kid : Nat)
  /-- REGION_KEY_MISS (R117): The memory seal engine derives a missing region key into a free or least recently
  used REGION slot. -/
  | regionKeyMiss (kid : Nat)
  /-- ORPHAN_SWEEP (R123): The background sweeper reclaims orphaned key slots within 1 ms of marking. -/
  | orphanSweep
  /-- ENTROPY_HEALTH_FAIL (R109): An entropy health test fails; the DRBG refuses requests until start-up tests
  pass again and an ENTROPY event is placed. -/
  | entropyHealthFail
  /-- HUB_LOCKSTEP_MISMATCH (R70): The lockstep pair disagrees; both cores stop within one cycle and the known-
  answer self-test starts. -/
  | hubLockstepMismatch
  /-- HUB_SELFTEST_DONE (R71): The core self-test ends; a failed core or repeated mismatch swaps in the spare,
  or the block halts when none remains, and firmware re-runs in-progress commands. -/
  | hubSelftestDone (fails : List Nat)
  /-- HEARTBEAT_TIMEOUT (R73): No firmware heartbeat for 10 ms is handled as a mismatch with no failing core. -/
  | heartbeatTimeout
  /-- MBX_IN_DATA (R83): A write appends one word to a mailbox's input buffer and binds the mailbox, or is
  ignored and sets DROPPED. -/
  | mbxInData (m : Nat) (w : Word) (who : Requester)
  /-- MBX_CLEAR (R83): CLEAR discards the words written since the last GO and abandons any open fragment blob.
  -/
  | mbxClear (m : Nat) (who : Requester)
  /-- MBX_OUT_DATA_READ (R82): A read of MBX_OUT_DATA returns the next reply word and advances, or returns 0 and
  sets UNDERRUN. -/
  | mbxOutDataRead (m : Nat) (who : Requester)
  /-- MBX_DONE (R89): DONE releases the present reply fragment, bringing the next one or freeing the mailbox. -/
  | mbxDone (m : Nat) (who : Requester)
  /-- MBX_STREAM_PACKET (R95): A complete packet of the TC0 mailbox stream arrives and is admitted as source 17.
  -/
  | mbxStreamPacket
  /-- BACKGROUND_COMMAND_DONE (R94): A background command finishes waiting on engines, fabric or store, releases
  its holds and posts its reply. -/
  | backgroundCommandDone (src : Nat)
  /-- BCP_GET_INFO (R98): Returns identity, version, life-cycle, firmware and domain information. -/
  | bcpGetInfo (src : Nat)
  /-- BCP_QUERY (R379): Returns clocks, temperatures, power and tunable limits, coarsened for partition
  mailboxes. -/
  | bcpQuery (src : Nat) (meas : Meas)
  /-- BCP_DEBUG_AUTH (R434): Issues a debug challenge nonce, grants levels on a verified response, or revokes
  levels. -/
  | bcpDebugAuth (src : Nat) (sigs : Bool)
  /-- BCP_KEY_DERIVE (R116): Derives a CHECK or GENERIC key into a slot after the ordered checks. -/
  | bcpKeyDerive (src : Nat)
  /-- BCP_KEY_INVALIDATE (R121): Raises a slot's generation, zeroes it, marks its subtree orphaned and flushes
  derived entries. -/
  | bcpKeyInvalidate (src : Nat)
  /-- BCP_KEY_INFO (R99): Reports a key slot's fields without its key. -/
  | bcpKeyInfo (src : Nat)
  /-- BCP_SPDM (R146): Carries one SPDM message, or a fragment of one, to the source's SPDM connection and
  returns the response. -/
  | bcpSpdm (src : Nat) (req : SpdmReq) (sid : Option Nat)
  /-- BCP_DOMAIN_ENROL (R164): Makes the block the Lead of a new domain, or enrols or re-parents it as a member
  under the signed policy. -/
  | bcpDomainEnrol (src : Nat) (sigs : Bool)
  /-- BCP_DOMAIN_REKEY (R174): At the Lead, distributes a new DOMAIN_LINK down the tree, switches every member
  and later retires the old key. -/
  | bcpDomainRekey (src : Nat)
  /-- BCP_CHORD_REKEY (R172): Advances egress Chords toward a peer or all peers and asks peers to advance
  theirs. -/
  | bcpChordRekey (src : Nat)
  /-- BCP_REGION_CREATE (R259): Creates a PRIVATE or SHARED_READ region for a key ID after checking parameters
  and the module identity line. -/
  | bcpRegionCreate (src : Nat)
  /-- BCP_REGION_DESTROY (R280): Invalidates a region's key ID, waits for its module writes and discards its
  cached state. -/
  | bcpRegionDestroy (src : Nat)
  /-- BCP_REGION_REKEY (R279): Raises a region's key generation and starts a re-seal sweep, or resets a
  SHARED_READ region to epoch 0. -/
  | bcpRegionRekey (src : Nat)
  /-- BCP_PGD_WRITE (R327): Checks and stores a parameter group descriptor, writing it through to the PGD area.
  -/
  | bcpPgdWrite (src : Nat)
  /-- BCP_PGD_READ (R101): Returns a parameter group descriptor. -/
  | bcpPgdRead (src : Nat)
  /-- BCP_PARTITION_CREATE (R348): Creates a partition with its PASIDs and resource grant after the ordered
  checks. -/
  | bcpPartitionCreate (src : Nat)
  /-- BCP_PARTITION_DESTROY (R373): Resets a partition, destroys its regions and contexts, unbinds its PASIDs
  and returns its grant. -/
  | bcpPartitionDestroy (src : Nat)
  /-- BCP_CONTEXT_TEARDOWN (R371): Squashes a context's work, completes its SHARED descriptors, revokes its
  owned key IDs and frees it. -/
  | bcpContextTeardown (src : Nat)
  /-- BCP_CONTEXT_RESET (R369): Performs an L0 reset of a context, squashing its work and clearing its fault. -/
  | bcpContextReset (src : Nat)
  /-- BCP_MIG_LOG_START (R374): Starts or stops a partition's dirty-page log. -/
  | bcpMigLogStart (src : Nat)
  /-- BCP_MIG_FREEZE (R375): Freezes a partition for migration, or thaws it. -/
  | bcpMigFreeze (src : Nat)
  /-- BCP_MIG_SAVE (R376): Seals a frozen partition into a migration blob under a new MIGRATION key. -/
  | bcpMigSave (src : Nat)
  /-- BCP_MIG_RESTORE (R378): Checks a migration blob and creates the partition from it, frozen. -/
  | bcpMigRestore (src : Nat)
  /-- BCP_PMU_CONFIG (R423): Configures, zeroes, enables or frees a programmable counter. -/
  | bcpPmuConfig (src : Nat)
  /-- BCP_DUMP_ARM (R436): Arms or disarms a tensor dump slot. -/
  | bcpDumpArm (src : Nat)
  /-- BCP_WATCH_SET (R441): Sets up an address watchpoint on a core-side port. -/
  | bcpWatchSet (src : Nat)
  /-- BCP_REPAIR_STATUS (R104): Reports repair map entries, spares and the repair map digest. -/
  | bcpRepairStatus (src : Nat)
  /-- BCP_SELFTEST (R407): Runs the selected known-answer, rotation and SRAM tests and reports passes and
  failures. -/
  | bcpSelftest (src : Nat) (fails : SelfFails)
  /-- BCP_FW_STAGE (R78): Writes a fragment of a new firmware image into the inactive slot and, on the final
  fragment, checks it and points the pointer at it. -/
  | bcpFwStage (src : Nat) (v : FwVerdict)
  /-- BCP_TANDEM_FAILOVER (R416): Moves lane ownership to the synchronised standby after draining running work.
  -/
  | bcpTandemFailover (src : Nat)
  /-- STORE_RESPONSE (R48): A persistent store response arrives, delivering a record or confirming a durable
  write, or failing the command concerned. -/
  | storeResponse (ok : Bool) (data : Bytes)
  /-- KEY_PORT_ACK (R47): An acknowledge pulse on the key port completes the oldest transfer and its IDE_KM
  exchange. -/
  | keyPortAck (status : Nat)
  /-- KEY_PORT_TIMEOUT (R47): No key port acknowledge within 1 ms fails the operation with ST_TIMEOUT and places
  an IO event. -/
  | keyPortTimeout
  /-- SPDM_KEY_EXCHANGE (R150): Opens an SPDM session with mutual authentication, refused beyond 32 sessions. -/
  | spdmKeyExchange (conn : Conn) (requester : Bool) (fin : Option SpdmFinish)
  /-- SPDM_END_SESSION (R435): Ends an SPDM session, ending the debug grants made under it. -/
  | spdmEndSession (conn : Conn) (sid : Nat) (joined : Bool)
  /-- HYB_KEM (R151): Answers an ML-KEM-1024 encapsulation key with a ciphertext, once per session after FINISH.
  -/
  | hybKem (conn : Conn) (sid : Nat) (ek : Bytes) (ct : Bytes) (kpq : Bytes)
  /-- HYB_SIGN (R152): Exchanges ML-DSA-87 signatures over TH_hyb, makes the session hybrid and derives TK, or
  ends the session on failure. -/
  | hybSign (conn : Conn) (sid : Nat) (ok : Bool) (peer : PeerShown)
  /-- HYB_CHAIN (R151): Returns the hybrid certificate chain. -/
  | hybChain (conn : Conn) (sid : Option Nat)
  /-- HYB_SET_CHAIN (R151): In MANUF, stores a hybrid chain. -/
  | hybSetChain (src : Nat) (sid : Option Nat) (chain : Bytes)
  /-- HYB_GET_KEY (R151): In MANUF, returns the DeviceID ML-DSA-87 public key with its self-signature. -/
  | hybGetKey (conn : Conn) (sid : Option Nat)
  /-- SPDM_GET_CSR (R149): In MANUF, returns a certificate signing request for slot 0. -/
  | spdmGetCsr (conn : Conn) (sid : Option Nat)
  /-- SPDM_SET_CERTIFICATE (R149): In MANUF, stores the X.509 chain for slot 0. -/
  | spdmSetCertificate (src : Nat) (sid : Option Nat) (chain : Bytes)
  /-- SPDM_GET_MEASUREMENTS (R154): Returns the measurement blocks requested, signed outside a session. -/
  | spdmGetMeasurements (conn : Conn) (sid : Option Nat) (index : Nat) (sig : Bool)
  /-- DOMAIN_JOIN (R165): A member unwraps and installs DOMAIN_LINK and DOMAIN_STORE sent by its parent, or
  refuses them. -/
  | domainJoin (sid : Nat) (msg : Bytes)
  /-- ENROL_SESSION_TIMEOUT (R167): When the parent has not accepted the member's session within 10 s, the
  enrolment completes with ST_TIMEOUT. -/
  | enrolSessionTimeout
  /-- ENROL_SESSION_RETRY (R167): Every 1 ms a member whose session has not been accepted repeats its session
  request. -/
  | enrolSessionRetry
  /-- ENROLLED_RX (R166): The Lead marks a reported vertex in its enrolled map and sends a commit, or sends a
  refusal. -/
  | enrolledRx
  /-- COMMIT_RX (R166): A COMMIT makes a member committed, or with result 1 ends membership of it and its
  subtree. -/
  | commitRx
  /-- REKEY_DIST_RX (R174): A member holds the new DOMAIN_LINK pending in slot 6 and forwards it to its
  children. -/
  | rekeyDistRx
  /-- DIST_ACK_RX (R174): A parent gathers its children's distribution counts, and at the Lead the last one
  starts the switch. -/
  | distAckRx
  /-- SWITCH_RX (R174): In one eng cycle a member moves slot 3 to slot 4, installs the pending key, resets Chord
  generations and flushes its chord cache. -/
  | switchRx
  /-- SWITCH_ACK_RX (R174): A parent gathers switch counts, and at the Lead the last one releases the rekey
  reply. -/
  | switchAckRx
  /-- DRAINED_RX (R174): A parent gathers drained reports, and at the Lead the last one sends RETIRE. -/
  | drainedRx
  /-- RETIRE_RX (R174): A member invalidates slot 4, ending old-generation Chords. -/
  | retireRx
  /-- REKEY_DRAIN_DONE (R174): Once the retransmit area holds no old-generation frame and the subtree has
  reported, the block sends DRAINED. -/
  | rekeyDrainDone
  /-- REKEY_RETIRE_TIMEOUT (R174): 10 ms after the switch the Lead sends RETIRE without waiting for every
  DRAINED. -/
  | rekeyRetireTimeout
  /-- REKEY_CHILD_TIMEOUT (R176): A child that has not acknowledged a rekey phase within 5 ms is left out and
  sent COMMIT with result 1. -/
  | rekeyChildTimeout (vertex : Nat)
  /-- REKEY_SWITCH_TIMEOUT (R176): A member holding a pending key with no SWITCH 40 ms after its DIST_ACK ends
  its membership. -/
  | rekeySwitchTimeout
  /-- CHORD_ADVANCE_RX (R172): A member advances its egress Chord toward the sender and replies with ACK, or
  without ACK at an exhausted generation. -/
  | chordAdvanceRx
  /-- CHORD_REKEY_WINDOW_END (R172): 1 ms after GO, BCP_CHORD_REKEY replies with the local advances plus the
  ACKs received. -/
  | chordRekeyWindowEnd
  /-- IDE_KM_QUERY (R156): Answers with PortIndex 0 and a maximum of 16 streams. -/
  | ideKmQuery (sid : Nat) (port : Nat)
  /-- IDE_KM_KEY_PROG (R158): Programs an IDE key through the key port, or acknowledges a repeat, or refuses a
  different key. -/
  | ideKmKeyProg (sid : Nat) (port : Nat) (key : IdeKey) (data : BitVec 256) (iv : Nat)
  /-- IDE_KM_K_SET_GO (R156): Sends GO on the key port and acknowledges when the controller does. -/
  | ideKmKSetGo (sid : Nat) (port : Nat) (key : IdeKey)
  /-- IDE_KM_K_SET_STOP (R156): Sends STOP on the key port and acknowledges when the controller does. -/
  | ideKmKSetStop (sid : Nat) (port : Nat) (key : IdeKey)
  /-- TDISP_LOCK_INTERFACE (R160): Moves a partition to CONFIG_LOCKED while an IDE stream is GO in both
  directions. -/
  | tdispLockInterface (tdi : Tdi) (sid : Option Nat)
  /-- TDISP_START_INTERFACE (R160): Moves a locked partition to RUN, so its doorbells act. -/
  | tdispStartInterface (tdi : Tdi) (sid : Option Nat)
  /-- TDISP_STOP_INTERFACE (R160): Resets the partition and returns it to CONFIG_UNLOCKED. -/
  | tdispStopInterface (tdi : Tdi) (sid : Option Nat)
  /-- TDISP_GET_INTERFACE_REPORT (R159): Returns the partition's MMIO ranges, PASIDs and key IDs. -/
  | tdispGetInterfaceReport (tdi : Tdi) (sid : Option Nat)
  /-- TDISP_ERROR_ENTRY (R160): Destruction, a security alarm charged to the partition or a K_SET_STOP puts it
  in ERROR and squashes its work. -/
  | tdispErrorEntry (part : Nat)
  /-- PIPELINE_ROTATION (R214): Every 2.78 ms a port direction swaps one AES pipeline for a spare, tests it and
  maps it out on failure. -/
  | pipelineRotation (port : Nat) (rx : Bool) (pass : Bool)
  /-- ADDER_ROTATION (R402): About every 11.1 ms one group of 64 adder lanes leaves service for a known-answer
  test and rejoins as spare. -/
  | adderRotation (port : Nat) (fails : List Nat)
  /-- MEMSEAL_PIPE_ROTATION (R402): Every 0.625 ms the memory seal engine takes one pipeline out for test. -/
  | memsealPipeRotation (pass : Bool)
  /-- CREDIT_TICK (R352): Every 10 ns of eng time each partition's per-class bandwidth credit rises by its
  budget. -/
  | creditTick
  /-- DESCRIPTOR_FETCH (R359): The dispatcher fetches descriptors of a rung queue from HEAD toward TAIL. -/
  | descriptorFetch (ctx : Nat) (queue : Nat) (raw : Bytes) (acc : Access)
  /-- DESCRIPTOR_START (R360): The dispatcher starts the next descriptor by round-robin, in ring order. -/
  | descriptorStart (acc : Access)
  /-- COMPLETION_RECORD (R361): A completed descriptor's record is written to its completion ring, raising
  COMPLETION when IRQ is set. -/
  | completionRecord (desc : Nat) (acc : Access)
  /-- WD_COPY_ASYNC (R242): A copy engine reads the source and sends it in chunks to the destination global
  address. -/
  | wdCopyAsync (desc : Nat)
  /-- COPY_CHUNK_SEND (R242): When a chunk's source data has arrived, the copy engine sends it as a COPY
  request. -/
  | copyChunkSend (eng : Nat)
  /-- WD_REDUCE (R296): Checks a reduce descriptor, reserves hold slots and arms a reduction stage. -/
  | wdReduce (desc : Nat)
  /-- WD_UPDATE (R330): Checks an update descriptor and starts the optimizer step for a parameter group. -/
  | wdUpdate (desc : Nat) (acc : Access)
  /-- WD_PUBLISH (R283): At the writer, once the next bank's writes are done, raises the SHARED_READ region's
  epoch. -/
  | wdPublish (desc : Nat)
  /-- WD_INVALIDATE (R285): At a reader, sets the region's current epoch and completes when older reads finish.
  -/
  | wdInvalidate (desc : Nat)
  /-- WD_FENCE (R247): Closes the context's fence epoch and completes when every covered write has retired. -/
  | wdFence (desc : Nat)
  /-- WD_SIGNAL (R246): Sends an open 64-bit ADD to a vertex's counter on TC3. -/
  | wdSignal (desc : Nat)
  /-- WD_WAIT (R245): Arms a wait on a local 64-bit counter reaching a threshold. -/
  | wdWait (desc : Nat)
  /-- WAIT_POLL (R245): Every 5 µs each armed wait checks its counter and completes when it has reached the
  threshold. -/
  | waitPoll (desc : Nat) (acc : Access) (value : Nat)
  /-- WAIT_TIMEOUT (R245): An armed wait whose TIMEOUT has passed completes with ST_TIMEOUT. -/
  | waitTimeout (desc : Nat)
  /-- WD_DUMP_MARK (R437): Marks the next reduce or update of the queue for a tensor dump. -/
  | wdDumpMark (desc : Nat)
  /-- WD_ABORT (R367): Settles an abort against its target: aborted, squashed or too late. -/
  | wdAbort (desc : Nat)
  /-- SHARED_SIGNAL_ABANDON (R370): A torn-down SHARED signal raises its ABANDONED word, then adds VALUE, then
  completes with ST_ABANDONED. -/
  | sharedSignalAbandon (desc : Nat)
  /-- REDUCE_START_RX (R310): A START control record is bound to an armed stage, which answers READY, or waits
  in the park table, or is answered BUSY. -/
  | reduceStartRx
  /-- REDUCE_READY_RX (R310): A READY echoing the START lets the upstream stage send data frames. -/
  | reduceReadyRx
  /-- REDUCE_BUSY_RX (R310): A BUSY record makes the upstream send its START again 10 µs later. -/
  | reduceBusyRx
  /-- REDUCE_START_RETRY (R310): 10 µs after a BUSY, the upstream sends its START again. -/
  | reduceStartRetry (desc : Nat)
  /-- REDUCE_ABORT_RX (R322): An ABORT record ends a running stage with ST_ABORTED and is forwarded to its other
  neighbours. -/
  | reduceAbortRx
  /-- REDUCE_DATA_RX (R307): A REDUCE data frame is placed by its sequence into the stage's input slots, or,
  with no binding, is discarded and answered with ABORT. -/
  | reduceDataRx
  /-- CHUNK_RUN (R318): When a chunk's operands are complete, the adder lanes combine, check and encode it and
  release its results. -/
  | chunkRun (desc : Nat) (u1 : Option (Nat × Nat)) (u2 : Option (Nat × Nat))
  /-- REDUCE_STAGE_COMPLETE (R321): Once every element is released, output frames and memory writes retire and
  the update unit has taken its results, the stage completes. -/
  | reduceStageComplete (desc : Nat)
  /-- REDUCE_IDLE_TIMEOUT (R322): A stage with no progress, START or READY for IDLE_TIMEOUT completes with
  ST_TIMEOUT and sends ABORT. -/
  | reduceIdleTimeout (desc : Nat)
  /-- FUSE_BIND (R337): A WD_REDUCE with UPDATE and a WD_UPDATE with the same FUSE_TAG bind so reduction results
  feed the update. -/
  | fuseBind (desc : Nat)
  /-- FUSE_BIND_TIMEOUT (R337): A fused descriptor that waits for its partner longer than IDLE_TIMEOUT ends with
  ST_TIMEOUT. -/
  | fuseBindTimeout (desc : Nat)
  /-- UPDATE_TILE (R341): When a tile's pages and gradient have arrived, the unit computes, checks and writes
  the tile and its copy. -/
  | updateTile (desc : Nat) (u1 : Option (Nat × Nat)) (u2 : Option (Nat × Nat))
  /-- UPDATE_COMPLETE (R341): Once every write is acknowledged, the unit writes the new PGD, the completion
  record and queues the Cadence record. -/
  | updateComplete (desc : Nat)
  /-- CADENCE_FLUSH (R345): A Cadence frame leaves when it holds 123 records or 20 µs after its first record was
  queued. -/
  | cadenceFlush
  /-- CX_CREATE (R354): Creates a context bound to CX_PASID and loads it into the slot. -/
  | cxCreate (slot : Nat) (who : Requester) (acc : Access)
  /-- CX_LOAD (R354): Loads an IDLE or slotless FAULTED context of the slot's partition into the slot. -/
  | cxLoad (slot : Nat) (ctx : Nat) (who : Requester) (acc : Access)
  /-- CX_UNLOAD (R354): Writes a context back to its record and frees the slot. -/
  | cxUnload (slot : Nat) (who : Requester) (acc : Access)
  /-- CX_DOORBELL (R359): Sets a queue's TAIL so the block fetches new descriptors, or is ignored and sets
  DB_DROPPED. -/
  | cxDoorbell (slot : Nat) (w : Word) (who : Requester)
  /-- CX_QCFG_WRITE (R358): Enables a queue with its ring and completion bases and zeroes HEAD and TAIL, or
  disables an empty idle queue. -/
  | cxQcfgWrite (slot : Nat) (w : Word) (who : Requester)
  /-- CX_OWN_KID_WRITE (R356): Sets an owned key ID entry of the context when it lies in the partition's grant.
  -/
  | cxOwnKidWrite (slot : Nat) (idx : Nat) (w : Word) (who : Requester)
  /-- PT_WIN_COMMIT (R351): Installs both staged windows of a partition together, or fails and sets WIN_ERR. -/
  | ptWinCommit (part : Nat) (who : Requester)
  /-- PT_RESET (R372): Starts a partition reset: resets its contexts and drains its tags. -/
  | ptReset (part : Nat) (who : Requester)
  /-- PARTITION_DRAIN_DONE (R372): When no tag of the partition remains, or after 2 ms with the rest detached,
  the partition reset completes. -/
  | partitionDrainDone (part : Nat)
  /-- MIG_FREEZE_TIMEOUT (R375): When running descriptors have not completed within 10 ms, the freeze replies
  ST_TIMEOUT and the partition thaws. -/
  | migFreezeTimeout (part : Nat)
  /-- DIRTY_PAGE_LOG (R374): A package-memory page written for the partition is appended to the log, or sets
  OVERFLOW when full. -/
  | dirtyPageLog (part : Nat)
  /-- ALM_POP (R385): Removes the oldest alarm record, acknowledging it. -/
  | almPop (who : Requester)
  /-- ALM_HALT (R400): A write of ALM_CTRL.HALT halts the block with cause 6. -/
  | almHalt (who : Requester)
  /-- WATCHDOG_EXPIRY (R393): A unit with pending work makes no progress for WDOG_TIMEOUT; a WATCHDOG event is
  placed and an L1 of the unit starts. -/
  | watchdogExpiry (unit : Nat)
  /-- RST_L1 (R397): An L1 of one unit ends its work, clears it, runs its known-answer test and resumes it. -/
  | rstL1 (unit : Nat) (fails : List Part)
  /-- RST_L2 (R398): An L2 isolates a lane port: fences its lanes, resets its units and sets ISOLATED. -/
  | rstL2 (t : PortTest)
  /-- RST_PORT_RETURN (R398): RST_CMD OP 3 tests an isolated port, ends its isolation and restarts its fenced
  lanes. -/
  | rstPortReturn (port : Nat) (who : Requester) (fails : List Part)
  /-- PORT_AUTO_RETURN (R398): A port isolated after its last lane was fenced returns when one lane returns
  under its own cause. -/
  | portAutoReturn (port : Nat)
  /-- RST_L3 (R399): An L3 sends a reset notice, stops the ports, writes back pinned lines and resets the block
  as a warm reset does. -/
  | rstL3 (env : BootEnv)
  /-- RESET_DEADLINE_MISS (R394): A reset level that misses its deadline places an escalated WATCHDOG event and
  starts the next rung. -/
  | resetDeadlineMiss
  /-- RESET_LEVEL_END (R468): An L1, L2 or L3 ends and places its WATCHDOG record with its result. -/
  | resetLevelEnd
  /-- SRAM_UNCORRECTABLE (R389): An uncorrectable SRAM error places an SRAM event and has the effect listed for
  its SRAM. -/
  | sramUncorrectable (m : Sram)
  /-- TD_SYNC_START (R412): Starts synchronising the standby: protocol check and full copy of mirrored state. -/
  | tdSyncStart (who : Requester)
  /-- TANDEM_SYNCED (R412): Once the standby has applied the copy and every change, SYNCED sets. -/
  | tandemSynced
  /-- MIRROR_HEARTBEAT (R409): Every 100 ns each instance sends a heartbeat record over the mirror. -/
  | mirrorHeartbeat
  /-- MIRROR_RECORD_RX (R409): A mirror record arrives and the standby applies it, or the owner takes a
  confirmation and releases held actions. -/
  | mirrorRecordRx (r : Mirror)
  /-- HANDOVER_RX (R414): A HANDOVER record makes the standby take over at once. -/
  | handoverRx (cause : Nat)
  /-- STANDBY_MIRROR_SILENCE (R413): After 1.00 µs without a mirror beat, a synchronised standby starts a
  takeover. -/
  | standbyMirrorSilence
  /-- STANDBY_TAKEOVER_GIVEUP (R413): When the standby has not raised tvd_fence_out within 1.50 µs of silence,
  it clears SYNCED and places a MIRROR alarm. -/
  | standbyTakeoverGiveup
  /-- OWNER_MIRROR_SILENCE (R413): After 2.00 µs without a mirror beat, the owner places a MIRROR alarm, clears
  SYNCED and stops holding actions. -/
  | ownerMirrorSilence
  /-- TAKEOVER (R414): The standby fences the owner, raises tvd_lane_owner, brings up the lanes, resends stored
  frames and raises core-side ready. -/
  | takeover
  /-- FENCE_IN_CHANGE (R53): A change of tvd_fence_in gates tvd_lane_owner low while it is 1. -/
  | fenceInChange (level : Bool)
  /-- COMPARE_MISMATCH (R417): In lockstep-compare, a mismatch holds every output, pauses both instances and
  starts their known-answer tests. -/
  | compareMismatch
  /-- COMPARE_KAT_DONE (R417): The tests after a compare mismatch end; a failing instance is fenced, or B is
  fenced, or the pair halts with cause 7. -/
  | compareKatDone (failA : Bool) (failB : Bool)
  /-- COARSEN_TICK (R429): At each millisecond boundary of the timestamp, coarsened counter views are refreshed.
  -/
  | coarsenTick
  /-- TS_ADJ_GO (R431): Moves the timestamp forward to the target once per cold reset, or is refused. -/
  | tsAdjGo (who : Requester)
  /-- DUMP_FRAME_RX (R439): At DEST, a DUMP frame is sealed into the next ring record, or discarded and counted.
  -/
  | dumpFrameRx
  /-- DBG_RING_ENABLE (R439): Setting DBG_RING_RECORDS to 2 or more enables the ring, derives the export key and
  writes the wrapped key record. -/
  | dbgRingEnable (w : Word) (who : Requester)
  /-- DP_INVASIVE_WRITE (R442): An admitted write of DP_INVASIVE enables Hub debug and latches the test root. -/
  | dpInvasiveWrite (w : Word)
  /-- DP_SCAN_AUTH_WRITE (R442): An admitted write of DP_SCAN_AUTH authorizes scan and latches the test root. -/
  | dpScanAuthWrite (w : Word)
  /-- DP_HUB_HALT (R443): DP_HUB_CTRL.HALT halts the Hub as at a breakpoint and starts the drain. -/
  | dpHubHalt
  /-- HUB_BREAKPOINT (R443): The lockstep pair reaches an enabled breakpoint; the Hub halts before the
  instruction and the drain starts. -/
  | hubBreakpoint (n : Nat)
  /-- HUB_DRAIN_DONE (R443): When pipelines and crossings are empty, or after 100 µs with DRAIN_LATE, HALTED
  sets. -/
  | hubDrainDone (late : Bool)
  /-- DP_HUB_RESUME (R443): RESUME clears HALTED and releases the dispatcher and then the Hub. -/
  | dpHubResume
  /-- DP_RAM_DATA_ACCESS (R442): While the Hub is halted, reads or writes the Hub RAM word selected by
  DP_RAM_ADDR. -/
  | dpRamDataAccess (wr : Option Word)
  /-- LC_TRANSITION_GO (R133): An accepted life-cycle transition stops the data path and writes intent, token,
  root-bank and completion fuses, or is refused with an ERROR code. -/
  | lcTransitionGo (w : Word) (failAt : Option Nat) (who : Requester)
  /-- OTP_READ (R135): OTP_CMD OP 1 reads the addressed word into OTP_RDATA, or returns 0 and sets DENIED for a
  root bank. -/
  | otpRead (who : Requester)
  /-- OTP_PROGRAM (R107): OTP_CMD OP 2 blows the written bits of a programmable word, or is refused and sets
  DENIED. -/
  | otpProgram (who : Requester)
  /-- OTP_WRITE_DONE (R107): An OTP word write ends with read-back, a single retry, or failure. -/
  | otpWriteDone (blown : Word)
  /-- LP_UNFENCE (R215): Restarts each named lane fenced with cause 2, 3 or 6 whose conditions allow it. -/
  | lpUnfence (port : Nat) (w : Word) (who : Requester)
  /-- LP_CTRL_WRITE (R197): Clearing a LANE_ALLOW bit fences the lane with cause 4, and setting it returns the
  lane. -/
  | lpCtrlWrite (port : Nat) (w : Word) (who : Requester)
  /-- MS_WEAR_SEL_WRITE (R291): Captures the selected wear entry into the MS_WEAR registers. -/
  | msWearSelWrite (w : Word) (who : Requester)
  /-- RC_COUNTER_READ (R455): A read of an RC counter returns its value and clears it. -/
  | rcCounterRead (off : Nat) (who : Requester)
  /-- LO_CAPTURE_READ (R456): A read of a LO register captures its HI partner for the reading identity. -/
  | loCaptureRead (off : Nat) (who : Requester)
  /-- REGISTER_WRITE (R454): A write to a register with no row of its own takes effect in its domain before its
  response. -/
  | registerWrite (off : Nat) (w : Word) (who : Requester)
  /-- MBX_GO (R90): A write of MBX_IN_CTRL.GO submits the words written as one packet, sets BUSY, and runs the
  admission checks, whose failures reply at once with ST_BAD_LENGTH, ST_BAD_OPCODE, a retained reply and the
  like. -/
  | mbxGo (m : Nat) (who : Requester)
  /-- WARM_RESET_ASSERT (R61): tvd_rst_n falls; every domain except the always-on state enters reset
  asynchronously, outputs take their reset values and every link drops without notice. -/
  | warmResetAssert
  /-- CLOCK_RETURN_IN_RANGE (R388): A tvd_eng_clk, tvd_hub_clk, tvd_cs_clk or tvd_reg_clk that stopped without a
  grant or ran below range runs in range again, and the block then starts an L3, or a failover in a synchronised
  mirror-mode Tandem. -/
  | clockReturnInRange (clk : Clk)
  /-- ENTROPY_STARTUP_PASS (R109): The entropy source passes its start-up tests again after a health-test
  failure, and the DRBG accepts requests once more. -/
  | entropyStartupPass
  /-- IDENTITY_LINE_TIMEOUT (R259): When a module's identity line has not arrived within 50 µs of a
  BCP_REGION_CREATE that needs it, the command replies ST_TIMEOUT and nothing changes. -/
  | identityLineTimeout (src : Nat)
  deriving DecidableEq, Repr

end Sys2Proof
end

