-- ==== Sys2Proof/Machine/Tables.lean ====
section
/-! DEFINITION. Reading and writing the sparse tables, bit fields of words, byte strings and numbers. -/

namespace Sys2Proof.Machine

/-- The value at a key, if the table lists it. -/
def tget {α : Type} : Tbl α → Nat → Option α
  | [], _ => none
  | (k, v) :: t, i => if i = k then some v else tget t i

/-- The value at a key, or a default. -/
def tgetD {α : Type} (t : Tbl α) (i : Nat) (d : α) : α := (tget t i).getD d

/-- Write a key, keeping the keys strictly rising. -/
def tset {α : Type} : Tbl α → Nat → α → Tbl α
  | [], i, v => [(i, v)]
  | (k, w) :: t, i, v =>
    if i < k then (i, v) :: (k, w) :: t
    else if i = k then (i, v) :: t
    else (k, w) :: tset t i v

/-- Remove a key. -/
def tdel {α : Type} (t : Tbl α) (i : Nat) : Tbl α := t.filter (fun p => p.1 != i)

/-- Change the value at a key the table lists. -/
def tmod {α : Type} (t : Tbl α) (i : Nat) (f : α → α) : Tbl α :=
  t.map (fun p => if p.1 = i then (p.1, f p.2) else p)

/-- Change every value. -/
def tmapV {α : Type} (t : Tbl α) (f : Nat → α → α) : Tbl α := t.map (fun p => (p.1, f p.1 p.2))

/-- Keep the entries that meet a test. -/
def tkeep {α : Type} (t : Tbl α) (f : Nat → α → Bool) : Tbl α := t.filter (fun p => f p.1 p.2)

/-- The entries that meet a test, in key order. -/
def tfind {α : Type} (t : Tbl α) (f : Nat → α → Bool) : Option (Nat × α) := t.find? (fun p => f p.1 p.2)

/-- How many entries meet a test. -/
def tcount {α : Type} (t : Tbl α) (f : Nat → α → Bool) : Nat := t.countP (fun p => f p.1 p.2)

/-- The keys strictly rise. -/
def tsorted {α : Type} : Tbl α → Bool
  | [] => true
  | [_] => true
  | (k, _) :: (k', v') :: t => decide (k < k') && tsorted ((k', v') :: t)

/-- The lowest number from `i` upward, among the next `fuel`, at which the test holds. -/
def lowestFrom (p : Nat → Bool) : Nat → Nat → Option Nat
  | 0, _ => none
  | fuel + 1, i => if p i then some i else lowestFrom p fuel (i + 1)

/-- Field [hi:lo] of a word as a number. -/
def fld (w : Word) (hi lo : Nat) : Nat := (w.toNat / 2 ^ lo) % 2 ^ (hi + 1 - lo)

/-- Bit `i` of a word. -/
def wbit (w : Word) (i : Nat) : Bool := w.getLsbD i

/-- A word from a number (low 32 bits). -/
def toW (n : Nat) : Word := BitVec.ofNat 32 n

/-- The number 1 or 0 of a flag. -/
def b2n (b : Bool) : Nat := if b then 1 else 0

/-- The word with ones in bits [hi:lo]. -/
def maskW (hi lo : Nat) : Word := toW ((2 ^ (hi + 1 - lo) - 1) * 2 ^ lo)

/-- `n` bytes of a number, least significant first (00 R8). -/
def leBytes : Nat → Nat → Bytes
  | 0, _ => []
  | n + 1, v => BitVec.ofNat 8 v :: leBytes n (v / 256)

/-- The number whose bytes, least significant first, are given. -/
def ofLe : Bytes → Nat
  | [] => 0
  | b :: t => b.toNat + 256 * ofLe t

/-- `n` bytes from position `i`. -/
def slice {α : Type} (l : List α) (i n : Nat) : List α := (l.drop i).take n

/-- The number of the `n` bytes at position `i`, least significant first. -/
def leAt (b : Bytes) (i n : Nat) : Nat := ofLe (slice b i n)

/-- The bytes of words, each least significant byte first. -/
def wordBytes (ws : List Word) : Bytes := ws.flatMap (fun w => leBytes 4 w.toNat)

/-- The words of bytes, zero-padded to a whole word. -/
def bytesWords : Bytes → List Word
  | [] => []
  | [a] => [toW (ofLe [a])]
  | [a, b] => [toW (ofLe [a, b])]
  | [a, b, c] => [toW (ofLe [a, b, c])]
  | a :: b :: c :: d :: t => toW (ofLe [a, b, c, d]) :: bytesWords t

/-- Pad with zero bytes to at least `n`. -/
def padTo (n : Nat) (b : Bytes) : Bytes := b ++ List.replicate (n - b.length) 0

/-- The bytes of an ASCII string. -/
def ascii (s : String) : Bytes := s.toList.map (fun c => BitVec.ofNat 8 c.toNat)

/-- Replace element `i` of a list. -/
def lset {α : Type} (l : List α) (i : Nat) (v : α) : List α := l.set i v

/-- Quotient rounded up. -/
def ceilDiv (a b : Nat) : Nat := (a + b - 1) / b

/-- The number of 1 bits among the low `n` bits of a number. -/
def popcount : Nat → Nat → Nat
  | 0, _ => 0
  | n + 1, v => v % 2 + popcount n (v / 2)

end Sys2Proof.Machine
end

