-- ==== Sys2Proof/Machine/Fp.lean ====
section
/-! DEFINITION. Floating point: IEEE 754-2019 binary32 and binary64, the narrow formats and MX blocks of the
reduce-through and update units (09 R297 to R306, 10 R333). Values are bit patterns as numbers. -/

namespace Sys2Proof.Machine

/-- A format: exponent bits, mantissa bits, bias, and which non-finite encodings it has (09 R297): 0 none,
1 infinities and NaN at the top exponent, 2 the single NaN of E4M3. -/
structure Fmt where
  eb : Nat
  mb : Nat
  bias : Nat
  special : Nat
  deriving DecidableEq, Repr

/-- binary32. -/
abbrev f32 : Fmt := ⟨8, 23, 127, 1⟩
/-- binary64. -/
abbrev f64 : Fmt := ⟨11, 52, 1023, 1⟩
/-- BF16. -/
abbrev bf16 : Fmt := ⟨8, 7, 127, 1⟩
/-- FP16. -/
abbrev f16 : Fmt := ⟨5, 10, 15, 1⟩
/-- FP8 E4M3. -/
abbrev e4m3 : Fmt := ⟨4, 3, 7, 2⟩
/-- FP8 E5M2. -/
abbrev e5m2 : Fmt := ⟨5, 2, 15, 1⟩

/-- Width in bits. -/
def Fmt.width (f : Fmt) : Nat := 1 + f.eb + f.mb
/-- Magnitude bits of infinity where the format has it. -/
def Fmt.inf (f : Fmt) : Nat := (2 ^ f.eb - 1) * 2 ^ f.mb
/-- Magnitude bits of the largest finite value. -/
def Fmt.big (f : Fmt) : Nat :=
  if f.special = 1 then f.inf - 1 else if f.special = 2 then 2 ^ (f.eb + f.mb) - 2 else 2 ^ (f.eb + f.mb) - 1
/-- The NaN the block writes (09 R297). -/
def Fmt.nan (f : Fmt) : Nat :=
  if f.special = 1 then f.inf + 2 ^ (f.mb - 1) else 2 ^ (f.eb + f.mb) - 1
/-- The exponent of the last place of a subnormal. -/
def Fmt.emin (f : Fmt) : Int := 1 - f.bias - f.mb

/-- A decoded value: NaN, an infinity, or (-1)^neg * m * 2^e. -/
inductive Fv where
  | nan
  | inf (neg : Bool)
  | fin (neg : Bool) (m : Nat) (e : Int)
  deriving DecidableEq, Repr

/-- The sign bit. -/
def Fmt.neg (f : Fmt) (x : Nat) : Bool := x / 2 ^ (f.eb + f.mb) % 2 == 1
/-- The magnitude bits. -/
def Fmt.mag (f : Fmt) (x : Nat) : Nat := x % 2 ^ (f.eb + f.mb)
/-- Attach a sign. -/
def Fmt.sgn (f : Fmt) (neg : Bool) (m : Nat) : Nat := b2n neg * 2 ^ (f.eb + f.mb) + m

/-- Decode a bit pattern (09 R297, R299); every NaN encoding is recognised. -/
def Fmt.dec (f : Fmt) (x : Nat) : Fv :=
  let m := f.mag x
  if f.special = 1 ∧ f.inf < m then .nan
  else if f.special = 1 ∧ m = f.inf then .inf (f.neg x)
  else if f.special = 2 ∧ m = f.nan then .nan
  else if m < 2 ^ f.mb then .fin (f.neg x) m f.emin
  else .fin (f.neg x) (2 ^ f.mb + m % 2 ^ f.mb) (f.emin + (m / 2 ^ f.mb : Nat) - 1)

/-- The exponent of the last place at which a format holds m * 2^e. -/
def Fmt.lsb (f : Fmt) (m : Nat) (e : Int) : Int := max (e + Nat.log2 m - f.mb) f.emin

/-- The magnitude bits of q * 2^t, where t is the last place of the value. -/
def Fmt.bits (f : Fmt) (q : Nat) (t : Int) : Nat := (t - f.emin).toNat * 2 ^ f.mb + q

/-- Nearest, ties to even, with no upper limit (09 R300): the magnitude bits of m * 2^e plus, when `sticky`, less
than one more unit of m. -/
def Fmt.nearest (f : Fmt) (m : Nat) (e : Int) (sticky : Bool) : Nat :=
  if m = 0 then 0
  else
    let t := f.lsb m e
    if t ≤ e then f.bits (m * 2 ^ (e - t).toNat) t
    else
      let k := (t - e).toNat
      let q := m / 2 ^ k
      let r := 2 * (m % 2 ^ k)
      let up := decide (2 ^ k < r) || (r == 2 ^ k && (sticky || q % 2 == 1))
      f.bits (if up then q + 1 else q) t

/-- Truncation toward zero, with no upper limit, and F of 09 R306: the magnitude bits of lo and
floor((|x| - |lo|) * 2^32 / (|hi| - |lo|)). -/
def Fmt.toward (f : Fmt) (m : Nat) (e : Int) : Nat × Nat :=
  if m = 0 then (0, 0)
  else
    let t := f.lsb m e
    if t ≤ e then (f.bits (m * 2 ^ (e - t).toNat) t, 0)
    else
      let k := (t - e).toNat
      (f.bits (m / 2 ^ k) t, (m % 2 ^ k) * 2 ^ 32 / 2 ^ k)

/-- A magnitude in the arithmetic of a format with infinities: beyond the largest finite value is infinity. -/
def Fmt.orInf (f : Fmt) (m : Nat) : Nat := min m f.inf

/-- Round an exact value to the format, for the results of arithmetic (09 R302, 10 R333). -/
def Fmt.enc (f : Fmt) (v : Fv) (sticky : Bool) : Nat :=
  match v with
  | .nan => f.nan
  | .inf n => f.sgn n f.inf
  | .fin n m e => f.sgn n (f.orInf (f.nearest m e sticky))

/-- The exact sum of two finite values: x plus y at the smaller exponent. A zero sum is +0 unless both are -0. -/
def addFin (n1 : Bool) (m1 : Nat) (e1 : Int) (n2 : Bool) (m2 : Nat) (e2 : Int) : Fv :=
  let e := min e1 e2
  let a := m1 * 2 ^ (e1 - e).toNat
  let b := m2 * 2 ^ (e2 - e).toNat
  if n1 = n2 then .fin n1 (a + b) e
  else if b < a then .fin n1 (a - b) e
  else if a < b then .fin n2 (b - a) e
  else .fin false 0 e

/-- Addition. -/
def Fmt.add (f : Fmt) (x y : Nat) : Nat :=
  match f.dec x, f.dec y with
  | .nan, _ => f.nan
  | _, .nan => f.nan
  | .inf a, .inf b => if a = b then f.sgn a f.inf else f.nan
  | .inf a, .fin _ _ _ => f.sgn a f.inf
  | .fin _ _ _, .inf b => f.sgn b f.inf
  | .fin a m e, .fin b n g => f.enc (addFin a m e b n g) false

/-- Negation. -/
def Fmt.negate (f : Fmt) (x : Nat) : Nat := f.sgn (!f.neg x) (f.mag x)

/-- Subtraction. -/
def Fmt.sub (f : Fmt) (x y : Nat) : Nat := f.add x (f.negate y)

/-- Multiplication. -/
def Fmt.mul (f : Fmt) (x y : Nat) : Nat :=
  match f.dec x, f.dec y with
  | .nan, _ => f.nan
  | _, .nan => f.nan
  | .inf a, .inf b => f.sgn (a != b) f.inf
  | .inf a, .fin b n _ => if n = 0 then f.nan else f.sgn (a != b) f.inf
  | .fin a m _, .inf b => if m = 0 then f.nan else f.sgn (a != b) f.inf
  | .fin a m e, .fin b n g => f.enc (.fin (a != b) (m * n) (e + g)) false

/-- Division, correctly rounded. -/
def Fmt.div (f : Fmt) (x y : Nat) : Nat :=
  match f.dec x, f.dec y with
  | .nan, _ => f.nan
  | _, .nan => f.nan
  | .inf _, .inf _ => f.nan
  | .inf a, .fin b _ _ => f.sgn (a != b) f.inf
  | .fin a _ _, .inf b => f.sgn (a != b) 0
  | .fin a m e, .fin b n g =>
    if n = 0 then (if m = 0 then f.nan else f.sgn (a != b) f.inf)
    else
      let s := m * 2 ^ 128
      f.enc (.fin (a != b) (s / n) (e - g - 128)) (s % n != 0)

/-- Integer square root, bit by bit from bit `k`. -/
def isqrtFrom (n : Nat) : Nat → Nat → Nat
  | 0, r => r
  | k + 1, r => if (r + 2 ^ k) * (r + 2 ^ k) ≤ n then isqrtFrom n k (r + 2 ^ k) else isqrtFrom n k r

/-- Square root, correctly rounded. -/
def Fmt.sqrt (f : Fmt) (x : Nat) : Nat :=
  match f.dec x with
  | .nan => f.nan
  | .inf a => if a then f.nan else f.inf
  | .fin a m e =>
    if m = 0 then f.sgn a 0
    else if a then f.nan
    else
      let s := if e % 2 = 0 then m * 2 ^ 128 else m * 2 ^ 129
      let g := if e % 2 = 0 then e - 128 else e - 129
      let r := isqrtFrom s 128 0
      f.enc (.fin false r (g / 2)) (r * r != s)

/-- Whether a pattern is NaN. -/
def Fmt.isNan (f : Fmt) (x : Nat) : Bool := f.dec x == .nan
/-- Whether a pattern is neither NaN nor infinite. -/
def Fmt.finite (f : Fmt) (x : Nat) : Bool :=
  match f.dec x with
  | .fin _ _ _ => true
  | _ => false
/-- Whether a pattern is a zero. -/
def Fmt.isZero (f : Fmt) (x : Nat) : Bool := f.mag x == 0

/-- The order key of a pattern that is not NaN: -0 stands below +0. -/
def Fmt.key (f : Fmt) (x : Nat) : Int := if f.neg x then -(f.mag x : Int) - 1 else f.mag x

/-- IEEE 754-2019 minimum: NaN if any operand is NaN, -0 below +0 (09 R302). -/
def Fmt.minOf (f : Fmt) (x y : Nat) : Nat :=
  if f.isNan x || f.isNan y then f.nan else if f.key x ≤ f.key y then x else y
/-- IEEE 754-2019 maximum. -/
def Fmt.maxOf (f : Fmt) (x y : Nat) : Nat :=
  if f.isNan x || f.isNan y then f.nan else if f.key y ≤ f.key x then x else y
/-- Strictly below, as numbers; false with a NaN. -/
def Fmt.lt (f : Fmt) (x y : Nat) : Bool :=
  !f.isNan x && !f.isNan y && !(f.isZero x && f.isZero y) && decide (f.key x < f.key y)

/-- From one format to another, nearest, with infinities beyond range. -/
def Fmt.cvt (f g : Fmt) (x : Nat) : Nat := g.enc (f.dec x) false

/-- Positive powers by squaring, on a mantissa of `2 * 192` bits cut to 192 (10 R333). -/
def trim (m : Nat) (e : Int) : Nat × Int :=
  let k := Nat.log2 m - 191
  (m / 2 ^ k, e + k)

/-- x^s for the low `n` bits of s: the running square and the product so far. -/
def powAux : Nat → Nat → Nat × Int → Nat × Int → Nat × Int
  | 0, _, _, acc => acc
  | n + 1, s, b, acc =>
    let acc := if s % 2 = 1 then trim (acc.1 * b.1) (acc.2 + b.2) else acc
    powAux n (s / 2) (trim (b.1 * b.1) (b.2 + b.2)) acc

/-- BETA^s in binary64, cut below: the value lies between this and the next pattern (10 R333). -/
def powLow (beta s : Nat) : Nat :=
  match f32.dec beta with
  | .fin _ m e =>
    if m = 0 then 0
    else
      let r := powAux 64 s (m, e) (1, 0)
      (f64.toward r.1 r.2).1
  | _ => 0

/-- BETA^s, correct to within one unit in the last place: which neighbour is free (log 1). -/
def powFree (beta s choice : Nat) : Nat := powLow beta s + choice % 2

/-- c = 1 / (1 - BETA^s) in binary64, rounded to binary32 (10 R333). -/
def biasCorr (beta s choice : Nat) : Nat :=
  let one := 0x3FF0000000000000
  f64.cvt f32 (f64.div one (f64.sub one (powFree beta s choice)))

/-! The formats of a reduction (09 R297). -/

/-- Whether a format code is listed. -/
def fmtListed (c : Nat) : Bool := c ≤ 9
/-- Whether a code is an MX format. -/
def fmtMx (c : Nat) : Bool := 5 ≤ c && c ≤ 9
/-- The element format of a code. -/
def fmtElem (c : Nat) : Fmt :=
  match c with
  | 0 => f32
  | 1 => bf16
  | 2 => f16
  | 3 => e4m3
  | 4 => e5m2
  | 5 => ⟨4, 3, 7, 0⟩
  | 6 => ⟨5, 2, 15, 0⟩
  | 7 => ⟨2, 3, 1, 0⟩
  | 8 => ⟨3, 2, 3, 0⟩
  | _ => ⟨2, 1, 1, 0⟩

/-- The largest finite magnitude of an MX element (09 R297): E4M3 448, E5M2 57,344, the others all ones. -/
def mxMax (c : Nat) : Nat :=
  match c with
  | 5 => 0x7E
  | 6 => 0x7B
  | 7 => 0x1F
  | 8 => 0x1F
  | _ => 7

/-- EMAX of an MX element format (09 R301). -/
def mxEmax (c : Nat) : Nat :=
  match c with
  | 5 => 8
  | 6 => 15
  | 7 => 2
  | 8 => 4
  | _ => 2

/-- Bits of an element. -/
def fmtBits (c : Nat) : Nat :=
  match c with
  | 0 => 32
  | 1 | 2 => 16
  | 3 | 4 | 5 | 6 => 8
  | 7 | 8 => 6
  | _ => 4

/-- Bytes of an MX block (09 R298). -/
def mxBytes (c : Nat) : Nat := 1 + 32 * fmtBits c / 8

/-- Elements of a full frame (09 R297). -/
def fmtPerFrame (c : Nat) : Nat :=
  match c with
  | 0 => 996
  | 1 | 2 => 1992
  | 3 | 4 => 3984
  | 5 | 6 => 3840
  | 7 | 8 => 5088
  | _ => 7488

/-- Bytes that hold `n` elements of a format, `n` a whole number of blocks for MX (09 R298). -/
def fmtSize (c n : Nat) : Nat := if fmtMx c then n / 32 * mxBytes c else n * fmtBits c / 8

/-- Widen an element to binary32 (09 R299). -/
def widenElem (c x : Nat) : Nat := f32.enc ((fmtElem c).dec x) false

/-- Widen an MX element with its scale (09 R299). In an MXFP8 element the codes that are NaN or infinite in FP8 alone (0x7F and 0xFF of
E4M3, exponent field 31 of E5M2) are plain numbers: R297 gives the MX formats no infinity and one NaN, the scale 0xFF. DESIGN
CHOICE (log 55). -/
def widenMx (c scale x : Nat) : Nat :=
  if scale = 0xFF then f32.nan
  else match (fmtElem c).dec x with
    | .fin n m e => f32.enc (.fin n m (e + scale - 127)) false
    | _ => f32.nan

/-- Element `j` of `w` bits of packed bytes read as one integer (09 R298). -/
def packedAt (b : Bytes) (w j : Nat) : Nat := ofLe b / 2 ^ (w * j) % 2 ^ w

/-- Decode `n` elements of non-MX format from packed bytes. -/
def unpackPlain (c : Nat) : Nat → Bytes → List Nat
  | 0, _ => []
  | n + 1, b => widenElem c (ofLe (b.take (fmtBits c / 8))) :: unpackPlain c n (b.drop (fmtBits c / 8))

/-- Decode one MX block. -/
def unpackBlock (c : Nat) (b : Bytes) : List Nat :=
  let scale := ofLe (b.take 1)
  let body := (b.drop 1).take (mxBytes c - 1)
  (List.range 32).map (fun j => widenMx c scale (packedAt body (fmtBits c) j))

/-- Decode `n` MX blocks. -/
def unpackBlocks (c : Nat) : Nat → Bytes → List Nat
  | 0, _ => []
  | n + 1, b => unpackBlock c b ++ unpackBlocks c n (b.drop (mxBytes c))

/-- Decode `n` elements of a format to binary32 (09 R298, R299). -/
def unpack (c n : Nat) (b : Bytes) : List Nat :=
  if fmtMx c then (unpackBlocks c (n / 32) b).take n else unpackPlain c n b

/-- The random bits of element `i` (09 R305). -/
def srBits (seed v i : Nat) : Nat :=
  let w := 2 ^ 64
  let z := (seed ^^^ (v * 2 ^ 48 % w)) ^^^ (i * 0x9E3779B97F4A7C15 % w)
  let z := (z ^^^ (z / 2 ^ 30)) * 0xBF58476D1CE4E5B9 % w
  let z := (z ^^^ (z / 2 ^ 27)) * 0x94D049BB133111EB % w
  let z := z ^^^ (z / 2 ^ 31)
  z / 2 ^ 32

/-- The magnitude of a finite value in a format before its range is looked at: nearest, or stochastic with the
random bits (09 R300, R306). -/
def roundMag (f : Fmt) (r : Option Nat) (m : Nat) (e : Int) : Nat :=
  match r with
  | none => f.nearest m e false
  | some r =>
    let t := f.toward m e
    if r < t.2 then t.1 + 1 else t.1

/-- Narrow a binary32 value to a format that is not MX (09 R300, R306). -/
def narrow (c : Nat) (sat : Bool) (r : Option Nat) (x : Nat) : Nat :=
  let f := fmtElem c
  match f32.dec x with
  | .nan => f.nan
  | .inf n => if c = 3 then (if sat then f.sgn n f.big else f.nan) else f.sgn n f.inf
  | .fin n m e =>
    let q := roundMag f r m e
    if q ≤ f.big then f.sgn n q
    else if sat then f.sgn n f.big
    else if c = 3 then f.nan
    else f.sgn n f.inf

/-- floor(log2 |x|) of a finite nonzero value. -/
def expOf (m : Nat) (e : Int) : Int := e + Nat.log2 m

/-- The exponent of a binary32 value for the plausibility checks (09 R319): none for zero, 128 for an infinity. -/
def expo (x : Nat) : Option Int :=
  match f32.dec x with
  | .nan => none
  | .inf _ => some 128
  | .fin _ m e => if m = 0 then none else some (expOf m e)

/-- The larger magnitude of a list. -/
def maxMag (xs : List Nat) : Nat := xs.foldl (fun a x => Nat.max a (f32.mag x)) 0

/-- The shared scale of 32 finite results, not all zero (09 R301 step 3). -/
def mxScale (c : Nat) (xs : List Nat) : Nat :=
  match f32.dec (maxMag xs) with
  | .fin _ m e => (max (expOf m e - mxEmax c) (-127) + 127).toNat
  | _ => 0

/-- One element of an MX block (09 R301 step 4). -/
def mxElem (c scale : Nat) (r : Option Nat) (x : Nat) : Nat :=
  let f := fmtElem c
  match f32.dec x with
  | .fin n m e => f.sgn n (Nat.min (roundMag f r m (e + 127 - scale)) (mxMax c))
  | _ => 0

/-- Pack elements of `w` bits into one integer. -/
def packNat (w : Nat) : List Nat → Nat
  | [] => 0
  | x :: t => x + 2 ^ w * packNat w t

/-- Encode one MX block (09 R301). -/
def packBlock (c : Nat) (xs : List (Nat × Option Nat)) : Bytes :=
  let vs := xs.map (·.1)
  let n := mxBytes c - 1
  if vs.any (fun x => !f32.finite x) then 0xFF#8 :: List.replicate n 0
  else if vs.all f32.isZero then List.replicate (n + 1) 0
  else
    let s := mxScale c vs
    BitVec.ofNat 8 s :: leBytes n (packNat (fmtBits c) (xs.map (fun x => mxElem c s x.2 x.1)))

/-- Encode `n` MX blocks. -/
def packBlocks (c : Nat) : Nat → List (Nat × Option Nat) → Bytes
  | 0, _ => []
  | n + 1, xs => packBlock c (xs.take 32) ++ packBlocks c n (xs.drop 32)

/-- Encode results with their random bits (09 R300, R301, R306). -/
def pack (c : Nat) (sat : Bool) (xs : List (Nat × Option Nat)) : Bytes :=
  if fmtMx c then packBlocks c (ceilDiv xs.length 32) xs
  else xs.flatMap (fun x => leBytes (fmtBits c / 8) (narrow c sat x.2 x.1))

end Sys2Proof.Machine
end

