-- ==== Sys2Proof/Machine/Crypto.lean ====
section
/-! DEFINITION. AES-256-GCM and counter mode over the named block cipher, GHASH, CRC-32C, the derivations of the
key lattice and the seal of store records. -/

namespace Sys2Proof.Machine

/-- A 16-byte block as a 128-bit number, the first byte most significant (SP 800-38D, named by 06 R187). -/
def blockOf (b : Bytes) : BitVec 128 :=
  BitVec.ofNat 128 ((padTo 16 (b.take 16)).foldl (fun a x => a * 256 + x.toNat) 0)

/-- The bytes of a block. -/
def blockBytes (x : BitVec 128) : Bytes := (leBytes 16 x.toNat).reverse

/-- One step of the GHASH product: V times x. -/
def gfShift (v : BitVec 128) : BitVec 128 :=
  if v.getLsbD 0 then (v >>> 1) ^^^ (0xe1 : BitVec 128) <<< 120 else v >>> 1

/-- The product of GF(2^128) in GHASH's bit order. -/
def gfMulAux (x : BitVec 128) : Nat → BitVec 128 → BitVec 128 → BitVec 128
  | 0, _, z => z
  | n + 1, v, z => gfMulAux x n (gfShift v) (if x.getLsbD n then z ^^^ v else z)

/-- X times Y. -/
def gfMul (x y : BitVec 128) : BitVec 128 := gfMulAux x 128 y 0

/-- Split into 16-byte blocks, the last one zero-padded. -/
def blocksAux : Nat → Bytes → List (BitVec 128)
  | 0, _ => []
  | n + 1, b => if b.isEmpty then [] else blockOf b :: blocksAux n (b.drop 16)

/-- The blocks of a byte string. -/
def blocks (b : Bytes) : List (BitVec 128) := blocksAux (ceilDiv b.length 16) b

/-- GHASH over A, C and the lengths block (06 R187). -/
def ghash (h : BitVec 128) (a c : Bytes) : BitVec 128 :=
  let lens := BitVec.ofNat 128 (8 * a.length * 2 ^ 64 + 8 * c.length)
  (blocks a ++ blocks c ++ [lens]).foldl (fun y x => gfMul (y ^^^ x) h) 0

/-- inc32 applied `i` times (06 R187). -/
def inc32 (j : BitVec 128) (i : Nat) : BitVec 128 :=
  BitVec.ofNat 128 (j.toNat / 2 ^ 32 * 2 ^ 32 + (j.toNat % 2 ^ 32 + i) % 2 ^ 32)

/-- Keystream for `n` blocks from counter index `i`. -/
def keystream (k : BitVec 256) (j : BitVec 128) : Nat → Nat → Bytes
  | 0, _ => []
  | n + 1, i => blockBytes (Config.aes256 k (inc32 j i)) ++ keystream k j n (i + 1)

/-- Bytewise exclusive or, as long as the first. -/
def xorBytes : Bytes → Bytes → Bytes
  | [], _ => []
  | a :: s, [] => a :: s
  | a :: s, b :: t => (a ^^^ b) :: xorBytes s t

/-- J0 of a 96-bit IV (06 R187). -/
def j0 (iv : Bytes) : BitVec 128 := blockOf (iv.take 12 ++ [0, 0, 0, 1])

/-- Payload encryption and decryption of GCM (06 R187): counters from inc32(J0). -/
def gcmCrypt (k : BitVec 256) (iv p : Bytes) : Bytes :=
  xorBytes p (keystream k (j0 iv) (ceilDiv p.length 16) 1)

/-- The GCM tag over A and C (06 R187). -/
def gcmTag (k : BitVec 256) (iv a c : Bytes) : Bytes :=
  blockBytes (ghash (Config.aes256 k 0) a c ^^^ Config.aes256 k (j0 iv))

/-- One step of the reflected CRC-32C register. -/
def crcBit (r : Word) : Word := if r.getLsbD 0 then (r >>> 1) ^^^ 0x82F63B78#32 else r >>> 1

/-- Absorb one byte. -/
def crcByte (r : Word) (b : Byte) : Word :=
  crcBit (crcBit (crcBit (crcBit (crcBit (crcBit (crcBit (crcBit (r ^^^ b.setWidth 32))))))))

/-- CRC-32C without the final inversion (06 R179). -/
def crcRaw (b : Bytes) : Word := b.foldl crcByte 0xFFFFFFFF#32

/-- A data flit of 252 content bytes (06 R179). -/
def dataFlit (c : Bytes) : Bytes :=
  let c := padTo 252 (c.take 252)
  c ++ leBytes 4 (crcRaw c ^^^ 0xFFFFFFFF#32).toNat

/-- A control flit (06 R179, R194). -/
def ctlFlit (ctype : Nat) (busy : Bool) (fseq : Nat) : Bytes :=
  let c := padTo 252 (leBytes 1 ctype ++ leBytes 1 (b2n busy) ++ leBytes 2 (fseq % 4096))
  c ++ leBytes 4 (crcRaw c).toNat

/-- What a receiver takes a flit for (06 R180). -/
inductive FlitClass where
  | data | control | failed
  deriving DecidableEq, Repr

/-- Classification by CRC; a partial flit has failed (06 R180, 02 R37). -/
def flitClass (f : Bytes) : FlitClass :=
  if f.length ≠ 256 then .failed
  else
    let r := crcRaw (f.take 252)
    let w := toW (leAt f 252 4)
    if w = r ^^^ 0xFFFFFFFF#32 then .data else if w = r then .control else .failed

/-- A 256-bit key from bytes. -/
def keyOf (b : Bytes) : BitVec 256 := BitVec.ofNat 256 (ofLe (b.take 32))

/-- The bytes of a key. -/
def keyBytes (k : BitVec 256) : Bytes := leBytes 32 k.toNat

/-- KMAC256 with S = "TVD" (04 R118): `n` bytes. -/
def kmac (k x : Bytes) (n : Nat) : Bytes := leBytes n (Config.kmac256 k x n).toNat

/-- SHA3-384: 48 bytes. -/
def sha3 (b : Bytes) : Bytes := leBytes 48 (Config.sha3 b).toNat

/-- X of a derivation: LABEL, zero, CONTEXT (04 R118). -/
def kmacX (label : String) (ctx : Bytes) : Bytes := ascii label ++ (0 :: ctx)

/-- Derive a 256-bit key (04 R118). -/
def deriveKey (k : Bytes) (label : String) (ctx : Bytes) : BitVec 256 :=
  keyOf (kmac k (kmacX label ctx) 32)

/-- A measurement (04 R119): 512 bits under 32 zero bytes. -/
def measure (kind : Nat) (d : Bytes) : Bytes :=
  kmac (List.replicate 32 0) (kmacX "measure" (leBytes 1 kind ++ d)) 64

/-- A token hash (04 R119). -/
def tokenHash (i : Nat) (tok : Bytes) : Bytes :=
  kmac (List.replicate 32 0) (kmacX "lc.token" (leBytes 1 i ++ tok.take 16)) 32

/-- HMAC with SHA3-384 (05 R138), rate 104 bytes (FIPS 202). -/
def hmacSha3 (k m : Bytes) : Bytes :=
  let k := padTo 104 (if 104 < k.length then sha3 k else k)
  sha3 (k.map (· ^^^ 0x5c) ++ sha3 (k.map (· ^^^ 0x36) ++ m))

/-- The 2,592 bytes of the ML-DSA-87 public key of a seed (05 R139). -/
def mldsaPub (seed : Bytes) : Bytes := (List.range 2592).map (Config.mldsaPub seed)

/-- The 4,627 bytes of an ML-DSA-87 signature; `n` numbers the signing (05 R145, R151). -/
def mldsaSig (seed msg : Bytes) (n : Nat) : Bytes := (List.range 4627).map (Config.mldsaSig seed msg n)

/-! AEAD_AES_256_GCM_SIV (02 R49 by name, RFC 8452). -/

/-- A block with its bytes in reverse order. -/
def revBlock (x : BitVec 128) : BitVec 128 := blockOf (blockBytes x).reverse

/-- POLYVAL over A, P and the lengths block, by way of GHASH (RFC 8452 appendix A). -/
def polyval (h : BitVec 128) (a p : Bytes) : BitVec 128 :=
  let lens := blockOf (leBytes 8 (8 * a.length) ++ leBytes 8 (8 * p.length))
  revBlock ((blocks a ++ blocks p ++ [lens]).foldl (fun y x => gfMul (y ^^^ revBlock x) (gfShift (revBlock h))) 0)

/-- Eight bytes of the `i`th block that the key-generating key gives for a nonce of 12 bytes (RFC 8452 section 4). -/
def sivPart (k : BitVec 256) (nonce : Bytes) (i : Nat) : Bytes :=
  (blockBytes (Config.aes256 k (blockOf (leBytes 4 i ++ nonce)))).take 8

/-- The message-authentication key. -/
def sivAuth (k : BitVec 256) (nonce : Bytes) : BitVec 128 := blockOf (sivPart k nonce 0 ++ sivPart k nonce 1)

/-- The message-encryption key. -/
def sivEnc (k : BitVec 256) (nonce : Bytes) : BitVec 256 :=
  keyOf (sivPart k nonce 2 ++ sivPart k nonce 3 ++ sivPart k nonce 4 ++ sivPart k nonce 5)

/-- The tag over A and P. -/
def sivTag (k : BitVec 256) (nonce a p : Bytes) : Bytes :=
  let x := polyval (sivAuth k nonce) a p ^^^ blockOf nonce
  blockBytes (Config.aes256 (sivEnc k nonce) (x &&& ~~~(0x80 : BitVec 128)))

/-- Keystream for `n` blocks from counter index `i`; the counter is the first four bytes of the block, least significant first. -/
def sivStream (k : BitVec 256) (tag : Bytes) : Nat → Nat → Bytes
  | 0, _ => []
  | n + 1, i =>
    let x := blockOf (leBytes 4 (leAt tag 0 4 + i) ++ tag.drop 4) ||| (0x80 : BitVec 128)
    blockBytes (Config.aes256 k x) ++ sivStream k tag n (i + 1)

/-- Encryption, and decryption, under a tag. -/
def sivCrypt (k : BitVec 256) (nonce tag p : Bytes) : Bytes :=
  xorBytes p (sivStream (sivEnc k nonce) tag (ceilDiv p.length 16) 0)

/-- The nonce of a store record: its index and 8 zero bytes (02 R49). -/
def storeNonce (idx : Nat) : Bytes := leBytes 4 idx ++ List.replicate 8 0

/-- The seal of a 64-byte store record (02 R49): 48 bytes of payload and the tag, the record index as additional data. -/
def storeSeal (k : BitVec 256) (idx : Nat) (payload : Bytes) : Bytes :=
  let p := padTo 48 (payload.take 48)
  let t := sivTag k (storeNonce idx) (leBytes 4 idx) p
  sivCrypt k (storeNonce idx) t p ++ t

/-- Open a store record: its payload when the tag is that of the payload (02 R49). -/
def storeOpen (k : BitVec 256) (idx : Nat) (record : Bytes) : Option Bytes :=
  let p := sivCrypt k (storeNonce idx) (record.drop 48) (record.take 48)
  if record.length = 64 ∧ sivTag k (storeNonce idx) (leBytes 4 idx) p = record.drop 48 then some p else none

end Sys2Proof.Machine
end

