-- ==== Sys2Proof/Machine/State.lean ====
section
/-! DEFINITION. The state of the block: plain data, every register, table, buffer, queue, mode and pin the spec
names, the queue of waiting commands, and what the last command presented at the ports. -/

namespace Sys2Proof.Machine

/-- ErrorCode values the spec names (05 R144, R149, R150), and one for a request out of its turn. -/
inductive SpdmErr where
  | unspecified | unsupportedRequest | sessionLimit | unexpected
  deriving DecidableEq, Repr

/-- IDE_KM status values the spec names (05 R155 to R158). -/
inductive KpStatus where
  | ok | unspecified | unsupportedPort | unsupportedValue
  deriving DecidableEq, Repr

/-- A response in the terms of the spec: the content it gives, without the framing of DMTF and PCIe (log 8). -/
inductive SpdmRsp where
  | error (e : SpdmErr)
  | content (body : Bytes)
  | session (id : Nat)
  | ideQuery (port streams : Nat)
  | kpAck (st : KpStatus)
  | goStopAck
  | tdispOk
  | tdispError
  | tdispUnsupported
  deriving DecidableEq, Repr

/-- What a command presents at the ports (02 R34-R52). `st.out` holds what the LAST command presented. -/
inductive Output where
  /-- The flits of a frame on one lane, in order (06 R181, 02 R36). -/
  | flits (port lane : Nat) (data : List Bytes)
  /-- A control flit (06 R194): 1 INIT, 2 ACK, 3 NAK, 4 REPLAY. -/
  | ctl (port lane ctype : Nat) (busy : Bool) (fseq : Nat)
  /-- The response to a core-side target request (02 R41); `poison` marks beats. -/
  | csRsp (port tid : Nat) (data : Bytes) (beats : Nat) (err : Bool) (status : Nat) (poison : Nat)
  /-- An initiator request on a core-side port (02 R42): `addr` is aligned to 128 bytes, `be` are the byte enables of the beats
  of a write; `pasid` none is tvd_cs_mreq_pasid_vld 0. -/
  | mreq (port tid : Nat) (write : Bool) (addr beats : Nat) (data : Bytes) (be : List Bool) (pasid : Option Nat)
  /-- A register response (02 R44). -/
  | regRsp (rdata : Word) (err : Bool)
  /-- A debug port response (02 R50). -/
  | dbgRsp (rdata : Word) (err : Bool)
  /-- A key port transfer (02 R46): 0 PROG, 1 GO, 2 STOP. -/
  | keyReq (op : Nat) (key : IdeKey) (data : BitVec 256) (iv : Nat)
  /-- A store port request (02 R48). -/
  | storeReq (write : Bool) (addr : Nat) (data : Bytes)
  /-- An SPDM response given on a connection, in the terms of the spec (05 R149). -/
  | spdm (conn : Conn) (rsp : SpdmRsp)
  /-- A record on the mirror port (12 R409). -/
  | mirror (r : Mirror)
  deriving DecidableEq, Repr

/-- Life-cycle states (04 R128). -/
inductive LcState where
  | blank | testLocked | testUnlocked | manuf | prod | analysis | scrap
  deriving DecidableEq, Repr

/-- Clock-stop handshake (02 R66, R67). -/
inductive ClkPhase where
  | idle | quiesce | acked | failed
  deriving DecidableEq, Repr

/-- The aon domain: boot, event port, clock stop, timestamp, alarm queue, always-on counters. -/
structure Aon where
  porN : Bool
  rstN : Bool
  stage : Nat
  ready : Bool
  haltReq : Bool
  haltCause : Nat
  testRoot : Bool
  dataStopped : Bool
  freezePin : Bool
  frozen : Bool
  scanEn : Bool
  clkReq : Bool
  clkPhase : ClkPhase
  clkBad : List Clk
  clkStopped : List Clk
  ts : Nat
  adjDone : Bool
  stopCount : Nat
  stopStart : Nat
  stopLen : Nat
  gapAlarm : Bool
  gapDump : Bool
  gapWatch : Bool
  alarms : List AlarmRec
  seq : Nat
  secTimes : List Nat
  cnt : Tbl Nat
  deriving DecidableEq, Repr

/-- An OTP word write in progress (04 R107). -/
structure OtpWrite where
  word : Nat
  val : Word
  retried : Bool
  deriving DecidableEq, Repr

/-- OTP controller and life cycle (04). `fuse` lists the words that are not 0. -/
structure Otp where
  fuse : Tbl Word
  busy : Option OtpWrite
  rdata : Word
  lc : LcState
  phase : Nat
  error : Nat
  resumed : Bool
  wrongTokens : Nat
  token : List Word
  deriving DecidableEq, Repr

/-- The objects a background command holds (03 R94). -/
inductive Hold where
  | part (p : Nat)
  | region (kid : Nat)
  | keySlot (n : Nat)
  | group (p g : Nat)
  | domain
  | fwStore
  deriving DecidableEq, Repr

/-- The fixed opcodes (03 R97). -/
inductive Op where
  | getInfo | query | debugAuth | keyDerive | keyInvalidate | keyInfo | spdm | domainEnrol | domainRekey
  | chordRekey | regionCreate | regionDestroy | regionRekey | pgdWrite | pgdRead | partitionCreate
  | partitionDestroy | contextTeardown | contextReset | migLogStart | migFreeze | migSave | migRestore
  | pmuConfig | dumpArm | watchSet | repairStatus | selftest | fwStage | tandemFailover
  deriving DecidableEq, Repr

/-- An admitted packet: its opcode, tag, parameter words w2 onward, CONT, and for a blob the bytes of this fragment and
those before it. -/
structure Packet where
  op : Op
  tag : Word
  params : List Word
  more : Bool
  blob : Bytes
  deriving DecidableEq, Repr

/-- An open fragment blob (03 R88). -/
structure Blob where
  op : Op
  tag : Word
  fixed : List Word
  data : Bytes
  deriving DecidableEq, Repr

/-- A mailbox identity (03 R84). -/
inductive Ident where
  | priv
  | pasid (n : Nat)
  deriving DecidableEq, Repr

/-- One command source: its packet buffers, binding, tag and replies (03 R81-R93). `replies` are the fragments
not yet released, the present one first; `rd` counts the words read of it; `saving`: the partition whose blob they carry, whose
SAVED waits for the last of them (11 R376). -/
structure Mbox where
  words : List Word
  submitted : Nat
  bound : Option Ident
  busy : Bool
  packet : Option Packet
  blob : Option Blob
  replies : List (List Word)
  rd : Nat
  released : Bool
  retTag : Option Word
  retReply : Option (Op × List Word)
  vertex : Nat
  hbLoss : Nat
  saving : Option Nat := none
  deriving DecidableEq, Repr

/-- A mailbox after reset. -/
def Mbox.empty : Mbox :=
  { words := [], submitted := 0, bound := none, busy := false, packet := none, blob := none, replies := [],
    rd := 0, released := false, retTag := none, retReply := none, vertex := 0, hbLoss := 0 }

/-- A background command waiting on engines, fabric or store (03 R94). -/
structure Bg where
  src : Nat
  op : Op
  holds : List Hold
  deriving DecidableEq, Repr

/-- A store write outstanding or waiting for its turn (02 R48): the record index, the sealed record, and the source
that waits for it. -/
structure StoreReq where
  addr : Nat
  data : Bytes
  src : Option Nat
  deriving DecidableEq, Repr

/-- Hub halt at a breakpoint (13 R443). -/
inductive HubRun where
  | running | draining | halted
  deriving DecidableEq, Repr

/-- The Hub (03): cores, firmware, mailboxes, background commands, DRBG. `ptr` is the image pointer: slot and write count.
`stagedLast`: how the checks of a final fragment ended (0 failed, 1 passed, 2 passed and the pointer is being written) and
its SVN. `store` is in order, the first 16 sent; `image` is a factory-form image until it is sealed again (15 R462); `storeFailed` lists sources one of whose records failed;
`rr` is the source whose packet the Hub took last (03 R94). -/
structure Hub where
  pairA : Nat
  pairB : Nat
  rr : Nat
  lastMismatch : Option Nat
  selfTest : Bool
  run : HubRun
  drainLate : Bool
  bpHit : Nat
  ram : Tbl Word
  svn : Nat
  digest : Bytes
  slot : Nat
  factory : Bool
  stagedPending : Bool
  ptr : Option (Nat × Nat)
  stagedLast : Option (Nat × Nat)
  mbox : Tbl Mbox
  bg : List Bg
  store : List StoreReq
  storeFailed : List Nat
  image : Bytes
  drbgRefuse : Bool
  drbgCount : Nat
  shown : Option (Nat × Word × Word × Nat)
  deriving DecidableEq, Repr

/-- The key store (04 R112), the recency order of its REGION slots, least recent first (04 R117), and the last eight
keys the Seal MAC engine has used, most recent first (04 R120): a root is 64 bytes, any other key 32. -/
structure KeyStore where
  slots : Tbl Slot
  recency : List Nat
  mac : List Bytes
  deriving DecidableEq, Repr

/-- The size of the block (00 R2). -/
inductive Size where
  | tvd16 | tvd32 | tvd64
  deriving DecidableEq, Repr

/-- A reset of the ladder, in progress or waiting (12 R394). `byLast`: the L2 that follows the fence of a port's
last lane. `step`: what an L3 waits for: 0 it has not begun, 1 for the acknowledgement of its notice, 2 for its writebacks (12 R399).
`done`: its work is over and its record is still to be placed (12 R468). -/
structure ResetReq where
  level : Nat
  unit : Nat
  port : Nat
  cause : Nat
  start : Nat
  byLast : Bool
  step : Nat
  done : Bool
  deriving DecidableEq, Repr

/-- Reset ladder, repair map, rotation (12). `late`: contexts under an L0, each with a unit that has not confirmed its squash (12
R396). `field` is the field repair map, kept in the store. -/
structure Ladder where
  queue : List ResetReq
  late : List (Nat × Nat)
  lastLevel : Nat
  lastUnit : Nat
  lastPort : Nat
  escalated : Bool
  l1Times : List (Nat × Nat)
  isolated : List Nat
  isoAuto : List Nat
  mapped : List Part
  factoryCount : Nat
  field : List Word
  fieldFull : Bool
  repDigest : Bytes
  rotAes : Tbl Nat
  rotAdder : Tbl Nat
  rotMs : Nat
  deriving DecidableEq, Repr

/-- A programmable counter (13 R423). OWNER 0x1F is free. `cVal`, `cOvf`, `cSnap` are the coarsened view
taken at the last millisecond boundary (13 R429). -/
structure Counter where
  event : Nat
  owner : Nat
  mode : Nat
  enable : Bool
  part : Nat
  filter : Bool
  val : Nat
  ovf : Bool
  snap : Nat
  cVal : Nat
  cOvf : Bool
  cSnap : Nat
  deriving DecidableEq, Repr

/-- A free counter. -/
def Counter.free : Counter :=
  { event := 0, owner := 31, mode := 0, enable := false, part := 0, filter := false, val := 0, ovf := false,
    snap := 0, cVal := 0, cOvf := false, cSnap := 0 }

/-- Debug grants of one source (13 R433-R435): by the session they rest on, their levels and serial; and an open challenge
with its time. -/
structure Grant where
  made : Tbl (BitVec 5 × Nat)
  nonce : Option (Bytes × Nat)
  deriving DecidableEq, Repr

/-- An armed dump slot (13 R436). -/
structure Arm where
  tag : Nat
  step : Nat
  dest : Nat
  src : Nat
  deriving DecidableEq, Repr

/-- A dump in progress (13 R437, R438): where it goes, its tag, step and kind, the index of the next value, the values
not yet sent, and the frames that have not retired. -/
structure Dump where
  dest : Nat
  tag : Nat
  step : Nat
  kind : Nat
  part : Nat
  next : Nat
  buf : List Nat
  out : Nat
  deriving DecidableEq, Repr

/-- A watchpoint and its last match (13 R441). OWNER 31 is free. -/
structure Watch where
  owner : Nat
  read : Bool
  write : Bool
  enable : Bool
  port : Nat
  base : Nat
  limit : Nat
  mAddr : Nat
  mPasid : Nat
  mPort : Nat
  mWrite : Bool
  mGap : Bool
  mTs : Nat
  deriving DecidableEq, Repr

/-- A free watchpoint. -/
def Watch.free : Watch :=
  { owner := 31, read := false, write := false, enable := false, port := 0, base := 0, limit := 0, mAddr := 0,
    mPasid := 0, mPort := 0, mWrite := false, mGap := false, mTs := 0 }

/-- Counters and debug (13). `dumps` lists dumps by descriptor; `dp` is the debug space's written bits; `ringKey` is the GEN of the
working slot that holds the export key of the enabled ring, whose USE_COUNT counts its records (04 R121, R124). -/
structure Debug where
  cnt : Tbl Counter
  cAon : Tbl Nat
  grants : Tbl Grant
  serial : Nat
  arms : Tbl Arm
  dumps : Tbl Dump
  watch : Tbl Watch
  dp : Tbl Word
  ringKey : Option Nat
  ringSeq : Nat
  ringWr : Nat
  ringGen : Nat
  deriving DecidableEq, Repr

/-- An open SPDM session (05 R150-R152, 13 R434). `transcript` is the HYB_KEM request and response; `leaf` is
SHA3-384 of the requester's leaf keys and `rooted` says its chain roots in LICENSEE_ROOT_DIGEST. `used`: a message has come
since FINISH (05 R151); `updates` counts its KEY_UPDATEs. -/
structure Session where
  conn : Conn
  requester : Bool
  mutualAuth : Bool
  finish : Bool
  used : Bool
  updates : Nat
  th2 : Bytes
  ems : Bytes
  kem : Bool
  transcript : Bytes
  kpq : Bytes
  hybrid : Bool
  thHyb : Bytes
  tk : BitVec 256
  leaf : Bytes
  rooted : Bool
  deriving DecidableEq, Repr

/-- An IDE key programmed or being programmed (05 R157, R158): the handle of its slot, the check value there, and whether GO was
acknowledged. -/
structure IdeEnt where
  key : IdeKey
  slot : Nat
  slotGen : Nat
  check : BitVec 256
  go : Bool
  deriving DecidableEq, Repr

/-- A key port transfer outstanding (02 R46, R47): 0 PROG, 1 GO, 2 STOP. `hold` is the holding register. -/
structure KeyXfer where
  op : Nat
  key : IdeKey
  hold : BitVec 256
  iv : Nat
  fromBlock : Bool
  deriving DecidableEq, Repr

/-- Identity, SPDM and host link (05 R139-R160). `devId`: the seed and the scalar of the DeviceID; `aliasKey` those of this
boot's alias, and `aliasSig` the DeviceID's signature of the alias link (05 R141, R145). `records` are the session records that
are not resident, by session (05 R150), `recCount` how often each session's record has been written. -/
structure Identity where
  devId : Option (Bytes × Bytes)
  aliasKey : Option (Bytes × Bytes)
  aliasSig : Bytes
  avail : Bool
  x509 : Bytes
  hybrid : Bytes
  aliasCert : Bytes
  sessions : Tbl Session
  nextSession : Nat
  records : Tbl Bytes
  recCount : Tbl Nat
  ide : List IdeEnt
  keyQ : List KeyXfer
  acks : List Nat
  deriving DecidableEq, Repr

/-- A flit in a lane's replay buffer (06 R196): its FSEQ, content, the tags of its frame (none for a frame without one,
several for a COMBINED response), when it was sent and how often a REPLAY began at it. -/
structure RepFlit where
  fseq : Nat
  data : Bytes
  tags : List Nat
  at_ : Nat
  replays : Nat
  deriving DecidableEq, Repr

/-- One lane (06 R193-R198, R213). `num` is the number the next data flit takes after a REPLAY; `skip` are the flits still to come of a
frame that has been discarded (12 R397). -/
structure Lane where
  up : Bool
  started : Bool
  startAt : Nat
  inService : Bool
  cause : Nat
  txSeq : Nat
  replay : List RepFlit
  replayTimes : List Nat
  busyWait : Option Nat
  e : Nat
  discard : Bool
  num : Option Nat
  unacked : Nat
  staging : List Bytes
  skip : Nat
  deriving DecidableEq, Repr

/-- A lane after reset. -/
def Lane.down : Lane :=
  { up := false, started := false, startAt := 0, inService := false, cause := 0, txSeq := 0, replay := [],
    replayTimes := [], busyWait := none, e := 0, discard := false, num := none, unacked := 0, staging := [], skip := 0 }

/-- The Spokes (06). Lanes are keyed port * 8 + lane; chords by `chordKey`; contexts by `streamKey`. `lru` lists contexts and chords, least recently used first; `missC`, `missS` are misses open. -/
structure Links where
  lane : Tbl Lane
  chord : Tbl Chord
  chordLru : List Nat
  saved : Tbl (Nat × Nat)
  egress : Tbl Egress
  ingress : Tbl Ingress
  scLru : List Nat
  back : Tbl Nat
  missC : List Nat
  missS : List Nat
  sticky : Tbl Nat
  deriving DecidableEq, Repr

/-- The clear header of a frame (06 R182). -/
structure Hdr where
  dst : Nat
  src : Nat
  tc : Nat
  cclass : Nat
  smode : Nat
  dgen : Bool
  boot : Bool
  mbxs : Bool
  stream : Nat
  seqLo : Nat
  rtag : Nat
  kid : Nat
  plen : Nat
  op : Nat
  cgen : Nat
  addr : Nat
  aop : Nat
  nlines : Nat
  operand : Nat
  epoch : Nat
  deriving DecidableEq, Repr

/-- A frame an engine has issued and that waits for a tag, a sequence and a lane (07 R229, 06 R190). Its payload has
RTAG or OWN_TAG zero until the frame takes its tag; `comb` names its place in a COMBINED response (group, index,
number of records); `under`: the domain key generation it is sealed under, where that is settled at its queueing (05 R176);
`late`: it has found its tag share full (07 R229). -/
structure TxFrame where
  dst : Nat
  owner : Nat
  tc : Nat
  sub : Nat
  cclass : Nat
  smode : Nat
  op : Nat
  boot : Bool
  mbxs : Bool
  kid : Nat
  addr : Nat
  aop : Nat
  nlines : Nat
  operand : Nat
  epoch : Nat
  payload : Bytes
  origin : Origin
  ctx : Nat
  fepoch : Nat
  cover : Bool
  comb : Option (Nat × Nat × Nat)
  under : Option Nat
  late : Bool
  deriving DecidableEq, Repr

/-- A frame released by a Spoke and waiting for its engine (06 R206 step 8). `seqN` is its full sequence, `comb` its
place in the COMBINED response that answers it (07 R240). -/
structure InFrame where
  hdr : Hdr
  payload : Bytes
  port : Nat
  seqN : Nat
  comb : Option (Nat × Nat × Nat)
  deriving DecidableEq, Repr

/-- What one segment of a target request has come back with. -/
structure SegRes where
  status : Option Nat
  data : Bytes
  poison : Nat
  deriving DecidableEq, Repr

/-- A target request awaiting its response (02 R41, 07 R221). -/
structure CsReq where
  op : Nat
  aop : Nat
  beats : Nat
  segs : List SegRes
  segBeats : List Nat
  be : List Bool
  deriving DecidableEq, Repr

/-- A request in a park (07 R229). -/
structure Parked where
  tid : Nat
  frames : List TxFrame
  deriving DecidableEq, Repr

/-- An acknowledgement record (07 R224). -/
structure EackRec where
  rtag : Nat
  status : Nat
  dup : Bool
  deriving DecidableEq, Repr

/-- A copy engine at work (07 R242). `serial` names the region that its handle named (01 R21); `reads` are chunks whose source read is outstanding or arrived with its data;
`bad` the lowest-indexed failed chunk and its status. -/
structure Copy where
  desc : Nat
  src : Nat
  dst : Nat
  vertex : Nat
  len : Nat
  beats : Nat
  kid : Nat
  serial : Nat
  arrival : Nat
  arrivalEn : Bool
  next : Nat
  out : Nat
  bad : Option (Nat × Nat)
  poisoned : Bool
  okN : Nat
  ready : Tbl Bytes
  squash : Bool
  deriving DecidableEq, Repr

/-- An armed wait (07 R245). `expired`: its time is over, and the counter is read for its RESULT (11 R366). -/
structure Wait where
  desc : Nat
  part : Nat
  addr : Nat
  threshold : Nat
  until_ : Option Nat
  expired : Bool
  deriving DecidableEq, Repr

/-- A pending fence (07 R247, R248): its context, the epoch it closed, scope and vertex. -/
structure Fence where
  desc : Nat
  ctx : Nat
  epoch : Nat
  scope : Nat
  vertex : Nat
  deriving DecidableEq, Repr

/-- A covered write that failed: what a fence reports (07 R247). `via` is the module vertex of a pool write of a
local home, else `dst`. -/
structure FailedWrite where
  ctx : Nat
  epoch : Nat
  ord : Nat
  dst : Nat
  via : Nat
  tc : Nat
  status : Nat
  deriving DecidableEq, Repr

/-- A line the hot-line tracker watches (07 R251). -/
structure Track where
  kid : Nat
  line : Nat
  first : Nat
  count : Nat
  deriving DecidableEq, Repr

/-- A pinned line (07 R252). `wb`: its writeback is under way; `again`: a write landed meanwhile. -/
structure HotLine where
  kid : Nat
  line : Nat
  data : Bytes
  last : Nat
  wb : Bool
  again : Bool
  deriving DecidableEq, Repr

/-- Who asked for an operation at the home (07 R217 to R224): a frame of another block, a segment of a core-side
request, a copy chunk or signal of this block to itself, a page of an update, the hot-line buffer, or an operation of the home that waits for lines of a region (`part`). `opn` is the clear
ADDR and AOP of an open atomic, `comb` its place in a COMBINED frame. -/
inductive Who where
  | frame (src tc stream rtag kind beats : Nat) (opn : Option (Nat × Nat)) (comb : Option (Nat × Nat × Nat))
  | core (port tid seg : Nat)
  | chunk (eng chunk : Nat)
  | signal (desc : Nat)
  | tile (upd tile page : Nat)
  | copyLine (upd : Nat)
  | hot (kid line : Nat)
  | part (home : Nat)
  deriving DecidableEq, Repr

/-- An operation of the home on package memory (07 R219, R220). `phase`: 0 waits for its line, 1 reads, 2 writes,
3 reads its arrival counter, 4 writes it, 5 waits for `wait` operations on a region's lines, 6 then waits for the line of its
counter. `base`, `pages` and `pasid` are the window and the PASID of its partition as its lookup found them (01 R21). `mask`
empty: every byte enabled. `cover`, `ctx` and `fepoch` say which fences cover it (07 R247), `tc` its class, 0 for loopback. -/
structure HomeOp where
  who : Who
  part : Nat
  base : Nat
  pages : Nat
  pasid : Nat
  kind : Nat
  aop : Nat
  addr : Nat
  len : Nat
  data : Bytes
  mask : List Bool
  operand : Bytes
  arrival : Option Nat
  phase : Nat
  old : Bytes
  ctx : Nat
  fepoch : Nat
  cover : Bool
  ord : Nat
  tc : Nat
  wait : Nat
  status : Nat
  deriving DecidableEq, Repr

/-- What an initiator request of the block is for (02 R42, R43). -/
inductive PmUse where
  | home (opId : Nat)
  | copyRead (eng chunk : Nat)
  | resend (tag : Nat)
  | localRead (desc slot : Nat)
  | redWrite (desc : Nat)
  | gradRead (desc tile : Nat)
  | copyWrite (desc : Nat)
  | normRead (desc : Nat)
  | normWrite (desc : Nat)
  | waitRead (desc : Nat)
  | logEntry (part : Nat)
  | dbgRing
  deriving DecidableEq, Repr

/-- An initiator request whose response is outstanding. -/
structure Pm where
  use : PmUse
  write : Bool
  addr : Nat
  len : Nat
  pasid : Option Nat
  deriving DecidableEq, Repr

/-- The transaction unit (07). -/
structure Fabric where
  homes : Tbl HomeOp
  nextHome : Nat
  pm : Tbl Pm
  nextPm : Nat
  nextTid : Nat
  txq : List TxFrame
  inbox : List InFrame
  tags : Tbl TagEnt
  tagGen : Tbl Nat
  ring : Tbl Nat
  ord : Nat
  reqs : Tbl CsReq
  parks : Tbl (List Parked)
  eackQ : Tbl (List EackRec)
  ackSince : Tbl Nat
  copies : Tbl Copy
  waits : List Wait
  epochs : Tbl Nat
  fences : List Fence
  failed : List FailedWrite
  tracker : List Track
  hot : List HotLine
  hotDrain : Bool
  credit : Tbl Int
  combOut : Tbl (Tbl Bytes)
  combN : Nat
  rrOwner : Nat
  rrTc : Tbl Nat
  deriving DecidableEq, Repr

/-- What the owner holds until the standby has confirmed a record (12 R410): the first beats of a frame, the release
of an ingress frame, the answer to a write. -/
inductive Held where
  | outs (l : List Output)
  | release (f : InFrame)
  | ans (w : Who) (write : Bool) (status : Nat) (data : Bytes) (poison : Nat)
  deriving DecidableEq, Repr

/-- A held action and the number of the record it waits for (12 R410). -/
structure HeldAct where
  num : Nat
  act : Held
  deriving DecidableEq, Repr

/-- The Tandem (12 R408-R417). `owner` is the flop behind tvd_lane_owner (02 R53). -/
structure Tandem where
  modeActive : Nat
  owner : Bool
  fenceIn : Bool
  fenceOut : Bool
  synced : Bool
  syncing : Bool
  syncErr : Bool
  alive : Bool
  lastCause : Nat
  syncKib : Nat
  failovers : Nat
  sent : Nat
  got : Nat
  confirmed : Nat
  held : List HeldAct
  silent : Bool
  outHeld : Bool
  deriving DecidableEq, Repr

/-- No dirty-page log. -/
def DirtyLog.off : DirtyLog :=
  { active := false, ending := false, out := none, base := 0, pages := 0, count := 0, overflow := false, filter := [], due := [] }

/-- A partition number never created. -/
def PartRec.none : PartRec :=
  { live := false, gen := 0, kidBase := 0, kidCount := 0, scLimit := 0, slots := [], ways := [], ports := 0,
    replay := 0, retx := 0, budgets := List.replicate 8 0, pasids := [], tdisp := 0, fwinBase := 0, fwinPages := 0,
    owinBase := 0, owinPages := 0, winErr := false, freezing := false, frozen := false, saved := false,
    resetting := false, drainOrd := 0, destroying := false, stopping := false, log := DirtyLog.off,
    bw := List.replicate 8 0, cBw := List.replicate 8 0, ideStream := Option.none }

/-- Partitions, contexts, descriptors (11). `cmdStatus` is CX_STATUS.CMD_STATUS per slot; `areas` the area
registers that took an accepted write (R348 order 5); `salts` the salts restored (R378); `rr*` the dispatcher's last
turn, of queues by slot * 4 + priority; `marks` the dump mark waiting in a queue, by context * 256 + queue: tag and step (13 R437); `abandon` the SHARED signals of contexts torn down (R370): descriptor, and whether its ABANDONED word has
retired; `errDue` partitions that must enter TDISP ERROR (05 R160); `faultDue` descriptors whose status faults their
context (12 R390). -/
structure Parts where
  part : Tbl PartRec
  ctx : Tbl Ctx
  desc : Tbl Desc
  nextDesc : Nat
  cmdStatus : Tbl Nat
  areas : List Nat
  salts : List Bytes
  rrPart : Nat
  rrSlot : Tbl Nat
  rrQueue : Tbl Nat
  marks : Tbl (Nat × Nat)
  abandon : List (Nat × Bool)
  errDue : List Nat
  faultDue : List Nat
  deriving DecidableEq, Repr

/-- An entry of the counter cache (08 R273). -/
structure Node where
  data : Bytes
  dirty : Bool
  deriving DecidableEq, Repr

/-- A module request of an operation (08 R262): its offset and lines, the lines written, whether it has been issued
and completed, and what came back. -/
structure ModReq where
  write : Bool
  addr : Nat
  lines : Nat
  data : Bytes
  sent : Bool
  done : Bool
  status : Nat
  poison : Nat
  deriving DecidableEq, Repr

/-- Phases of an operation of the memory seal engine. -/
inductive MemPhase where
  | waiting | reading | writing
  deriving DecidableEq, Repr

/-- An operation of the memory seal engine on the lines of one page or one bank (08 R269 to R271, R281). `prev` is the counter
block before it wrote. `job`: it
re-encrypts its page (R276) or re-seals it (R279) before anything else. -/
structure MemOp where
  who : Who
  kid : Nat
  line : Nat
  lines : Nat
  write : Bool
  atomic : Option (Nat × Nat × Bytes)
  data : Bytes
  mask : List Bool
  epoch : Nat
  phase : MemPhase
  status : Nat
  poison : Nat
  parts : List ModReq
  ctx : Nat
  fepoch : Nat
  cover : Bool
  ord : Nat
  prev : Bytes := []
  deriving DecidableEq, Repr

/-- A page job (08 R276, R277, R279): re-encryption for the operation `op`, or a re-seal. `old` is the counter
block it reads under. -/
structure PageJob where
  kid : Nat
  page : Nat
  reseal : Bool
  op : Option Nat
  old : Bytes
  new : Bytes
  reading : Bool
  started : Bool
  parts : List ModReq
  deriving DecidableEq, Repr

/-- A fill of the counter cache (08 R273): the page and what is read, each with its level and index. -/
structure Fill where
  kid : Nat
  page : Nat
  items : List (Nat × Nat)
  parts : List ModReq
  deriving DecidableEq, Repr

/-- A writeback of evicted metadata or of a hot line's metadata (08 R273). -/
structure WriteBack where
  kid : Nat
  part : ModReq
  deriving DecidableEq, Repr

/-- A wear table entry (08 R290). -/
structure Wear where
  id : Nat
  lines : Nat
  max : Nat
  rated : Nat
  warn : Bool
  vertex : Nat
  deriving DecidableEq, Repr

/-- A WD_PUBLISH or WD_INVALIDATE that waits for operations (08 R283, R285). -/
structure Drain where
  desc : Nat
  kid : Nat
  publish : Bool
  target : Nat
  ops : List Nat
  status : Nat
  deriving DecidableEq, Repr

/-- The memory seal engine (08). `hotLost`: pinned lines lost to an SRAM error whose minor is still to become 0x7F (12 R389). `ctagBad`: pages whose
counter block failed against the cached line of counter tags, which is read again for them (R274). `regGen` is each key ID's generation and lives as long as the membership (R260). -/
structure Mem where
  region : Tbl Region
  regGen : Tbl Nat
  cc : Tbl Node
  next : Nat
  ops : Tbl MemOp
  jobs : Tbl PageJob
  fills : Tbl Fill
  wbs : Tbl WriteBack
  missK : List (Nat × Nat)
  idReq : Tbl Nat
  drains : List Drain
  wear : Tbl Wear
  wearCap : Option Wear
  fKid : Nat
  fKind : Nat
  fAddr : Nat
  fVertex : Nat
  hotLost : List (Nat × Nat) := []
  ctagBad : List (Nat × Nat) := []
  deriving DecidableEq, Repr

/-- One parity's placement of a stream's frames (09 R307, R310): parity, BASE_SEQ and FIRST_FRAME. -/
structure Bind where
  par : Bool
  baseSeq : Nat
  first : Nat
  deriving DecidableEq, Repr

/-- An input of a stage: what its STARTs said and the frames held, by frame number (09 R307, R314). -/
structure StageIn where
  vertex : Nat
  binds : List Bind
  frames : Tbl Bytes
  deriving DecidableEq, Repr

/-- An armed reduction stage (09 R293 to R322). `locals` holds local slots by number, with whether they are poisoned;
`order` says which input completed a chunk when (R303). `outBuf` are encoded results not yet framed. -/
structure Stage where
  ctx : Nat
  part : Nat
  elements : Nat
  op : Nat
  inFmt : Nat
  localFmt : Nat
  outFmt : Nat
  port : Nat
  inSub : Nat
  outSub : Nat
  forward : Bool
  memory : Bool
  update : Bool
  sat : Bool
  localEn : Bool
  inputs : List StageIn
  xfer : Nat
  nfMax : Nat
  outV : Nat
  localAddr : Nat
  outAddr : Nat
  seed : Nat
  locals_ : Tbl (Bytes × Nat)
  localNext : Nat
  localOut : List Nat
  order : List (Nat × Nat)
  next : Nat
  started : Bool
  ready : Bool
  baseSeq : Nat
  firstFrame : Nat
  frame : Nat
  busyWait : Bool
  outBuf : Bytes
  memOut : Nat
  framesOut : Nat
  deriving DecidableEq, Repr

/-- A START waiting in the park table (09 R310). -/
structure ParkedStart where
  src : Nat
  owner : Nat
  sub : Nat
  par : Bool
  rec_ : Bytes
  deriving DecidableEq, Repr

/-- The reduce-through unit (09). `aborted` lists streams with a record of an ABORT this block sent; `answered` when
an unbound stream was last answered (R313). -/
structure Reduce where
  stages : Tbl Stage
  parked : List ParkedStart
  aborted : List (Nat × Nat)
  answered : List (Nat × Nat × Nat)
  fPort : Nat
  fCheck : Nat
  fAgree : Bool
  fFinal : Bool
  fCtx : Nat
  fChunk : Nat
  lastV : Nat
  lastS : Nat
  deriving DecidableEq, Repr

/-- A tile of an update whose inputs arrive (10 R341): pages of w, m and v and the gradient. -/
structure TileIn where
  pages : Tbl Bytes
  grad : Option Bytes
  poisoned : Bool
  deriving DecidableEq, Repr

/-- An update that has passed its checks (10 R330 to R343). `pass` 0 is the read pass of LAMB_EXACT; `r` the trust
ratio in force; the sums are binary64 words. -/
structure Upd where
  ctx : Nat
  part : Nat
  group : Nat
  step : Nat
  phase : Nat
  pgd : Bytes
  found : Nat
  c1 : Nat
  c2 : Nat
  lrScale : Word
  gradScale : Word
  fuse : Nat
  normAddr : Nat
  running : Bool
  bound : Bool
  pass : Nat
  r : Word
  sumW : Nat
  sumU : Nat
  tiles : Tbl TileIn
  issued : Nat
  doneT : Nat
  wOut : Nat
  wrote : Bool
  normOk : Bool
  failed : Option Nat
  tail : Bytes
  deriving DecidableEq, Repr

/-- A fuse binding (10 R337, R338). `discard`: the reduction's results are taken and discarded. -/
structure Fuse where
  part : Nat
  tag : Nat
  red : Option Nat
  upd : Option Nat
  discard : Bool
  deriving DecidableEq, Repr

/-- The update unit (10). `pgd` is the PGD area: 128 bytes by partition * 4096 + group. -/
structure Update where
  pgd : Tbl Bytes
  runs : Tbl Upd
  fuses : List Fuse
  cadence : List Bytes
  cadDue : Tbl Bytes
  skewGroup : Nat
  skewPart : Nat
  deriving DecidableEq, Repr

/-- Why this machine would stop with a fault. No command of this block does: the spec gives the block no fault
that ends a run (INVENTORY.md, Faults). -/
inductive Fault where
  /-- Raised by nobody; the type must have a value. Safe. -/
  | unused
  deriving DecidableEq, Repr

/-- Why a command would have no meaning. -/
inductive Refusal where
  /-- Raised by `exec` for a command whose meaning is not written. Safe. -/
  | notModelled (mnemonic : String)
  deriving DecidableEq, Repr

/-- The whole state. `pending` is the queue of waiting commands, `out` what the last command presented, `fresh` and
`draws` the counters that choose free values and DRBG draws. -/
structure State where
  pending : List Instr
  out : List Output
  fresh : Nat
  draws : Nat
  size : Size
  tandemEn : Bool
  tandemId : Bool
  win : Tbl Word
  cap : Tbl Word
  aon : Aon
  otp : Otp
  hub : Hub
  keys : KeyStore
  ident : Identity
  dom : Domain
  links : Links
  fab : Fabric
  mem : Mem
  red : Reduce
  upd : Update
  parts : Parts
  ladder : Ladder
  td : Tandem
  dbg : Debug
  deriving DecidableEq, Repr

/-- The aon domain in reset. -/
def Aon.reset : Aon :=
  { porN := false, rstN := true, stage := 0, ready := false, haltReq := false, haltCause := 0, testRoot := false,
    dataStopped := false, freezePin := false, frozen := false, scanEn := false, clkReq := false, clkPhase := .idle,
    clkBad := [], clkStopped := [], ts := 0, adjDone := false, stopCount := 0, stopStart := 0, stopLen := 0,
    gapAlarm := false, gapDump := false, gapWatch := false, alarms := [], seq := 0, secTimes := [], cnt := [] }

/-- The OTP controller before any fuse is blown. -/
def Otp.reset : Otp :=
  { fuse := [], busy := none, rdata := 0, lc := .blank, phase := 0, error := 0, resumed := false, wrongTokens := 0,
    token := [0, 0, 0, 0] }

/-- The Hub in reset. -/
def Hub.reset : Hub :=
  { pairA := 0, pairB := 1, rr := 17, lastMismatch := none, selfTest := false, run := .running,
    drainLate := false, bpHit := 0, ram := [], svn := 0, digest := [], slot := 0, factory := false,
    stagedPending := false, ptr := none, stagedLast := none, mbox := [], bg := [], store := [],
    storeFailed := [], image := [], drbgRefuse := false, drbgCount := 0, shown := none }

/-- The key store cleared. -/
def KeyStore.reset : KeyStore := { slots := [], recency := [], mac := [] }

/-- Identity before stage 0x5. -/
def Identity.reset : Identity :=
  { devId := none, aliasKey := none, aliasSig := [], avail := false, x509 := [], hybrid := [], aliasCert := [],
    sessions := [], nextSession := 0, records := [], recCount := [], ide := [], keyQ := [], acks := [] }

/-- No domain. -/
def Domain.reset : Domain :=
  { policy := none, vertex := none, member := false, role := 0, parent := none, children := [], opening := [],
    gen := 0, enrolled := [], allMarked := false, held := [], asked := [], enrol := none, rekey := none, leaving := false,
    chordWin := none }

/-- The Spokes in reset. -/
def Links.reset : Links :=
  { lane := [], chord := [], chordLru := [], saved := [], egress := [], ingress := [], scLru := [],
    back := [], missC := [], missS := [], sticky := [] }

/-- The transaction unit in reset. -/
def Fabric.reset : Fabric :=
  {
    homes := [], nextHome := 0, pm := [], nextPm := 0, nextTid := 0, txq := [], inbox := [],
    tags := [], tagGen := [], ring := [], ord := 0,
    reqs := [], parks := [], eackQ := [],
    ackSince := [], copies := [], waits := [], epochs := [], fences := [], failed := [], tracker := [], hot := [], hotDrain := false,
    credit := [], combOut := [], combN := 0, rrOwner := 0, rrTc := [] }

/-- The memory seal engine in reset. -/
def Mem.reset : Mem :=
  { region := [], regGen := [], cc := [], next := 0, ops := [], jobs := [], fills := [], wbs := [], missK := [],
    idReq := [], drains := [], wear := [], wearCap := none, fKid := 0, fKind := 0, fAddr := 0, fVertex := 0 }

/-- The reduce-through unit in reset. -/
def Reduce.reset : Reduce :=
  { stages := [], parked := [], aborted := [], answered := [], fPort := 0, fCheck := 0, fAgree := false,
    fFinal := false, fCtx := 0, fChunk := 0, lastV := 0, lastS := 0 }

/-- The update unit in reset; the PGD area lists nothing. -/
def Update.reset : Update :=
  { pgd := [], runs := [], fuses := [], cadence := [], cadDue := [], skewGroup := 0, skewPart := 0 }

/-- Partitions and contexts in reset. -/
def Parts.reset : Parts :=
  { part := [], ctx := [], desc := [], nextDesc := 0, cmdStatus := [], areas := [], salts := [], rrPart := 0,
    rrSlot := [], rrQueue := [], marks := [], abandon := [], errDue := [], faultDue := [] }

/-- The reset ladder and repair map in reset. -/
def Ladder.reset : Ladder :=
  { queue := [], late := [], lastLevel := 0, lastUnit := 0, lastPort := 0, escalated := false, l1Times := [], isolated := [],
    isoAuto := [], mapped := [], factoryCount := 0, field := [], fieldFull := false,
    repDigest := [], rotAes := [], rotAdder := [], rotMs := 0 }

/-- The Tandem in reset. -/
def Tandem.reset : Tandem :=
  { modeActive := 0, owner := false, fenceIn := false, fenceOut := false, synced := false, syncing := false,
    syncErr := false, alive := false, lastCause := 0, syncKib := 0, failovers := 0, sent := 0, got := 0, confirmed := 0,
    held := [], silent := false, outHeld := false }

/-- Counters and debug in reset. -/
def Debug.reset : Debug :=
  { cnt := [], cAon := [], grants := [], serial := 0, arms := [], dumps := [], watch := [], dp := [], ringKey := none,
    ringSeq := 0, ringWr := 1, ringGen := 0 }

/-- The machine right after reset: held in reset by tvd_por_n, every register at the value the spec gives for reset
(INVENTORY.md, State; the values the spec does not give are in logs 1, 2 and 3). -/
def State.reset : State :=
  { pending := [], out := [], fresh := 0, draws := 0, size := .tvd64, tandemEn := false, tandemId := false,
    win := [], cap := [], aon := Aon.reset, otp := Otp.reset, hub := Hub.reset, keys := KeyStore.reset,
    ident := Identity.reset, dom := Domain.reset, links := Links.reset, fab := Fabric.reset,
    mem := Mem.reset, red := Reduce.reset, upd := Update.reset, parts := Parts.reset,
    ladder := Ladder.reset, td := Tandem.reset, dbg := Debug.reset }

end Sys2Proof.Machine
end

