-- ==== Sys2Proof/Machine/Ops.lean ====
section
/-! DEFINITION. The named operations every family uses: what a command presents, register storage, counters, free
values, alarm records, and the halt. -/

namespace Sys2Proof.Machine

/-- Present one output (log 4). -/
def emit (s : State) (o : Output) : State := { s with out := s.out ++ [o] }

/-- Present several outputs in order. -/
def emits (s : State) (o : List Output) : State := { s with out := s.out ++ o }

/-! Register storage (14 R458): the bits software writes and hardware counts, by byte offset of the window. -/

/-- Offset of a lane port register (06 R215). -/
def lpOff (port o : Nat) : Nat := 0x10000 + port * 0x1000 + o

/-- Offset of a partition register (11 R380). -/
def ptOff (p o : Nat) : Nat := 0x40000 + p * 0x1000 + o

/-- Offset of a context slot register (11 R381). -/
def cxOff (sl o : Nat) : Nat := 0x50000 + sl * 0x100 + o

/-- Offset of a mailbox register (03 R81). -/
def mbOff (m o : Nat) : Nat := 0x1000 + m * 0x100 + o

/-- The reset value of the stored bits of a register (14 R458). -/
def regReset (off : Nat) : Word :=
  if 0x10000 ≤ off ∧ off < 0x18000 ∧ off % 0x1000 = 0 then 0xFF#32
  else if 0x18000 ≤ off ∧ off < 0x19000 then 0x000100FF#32
  else if off = 0x1A00C then 0x4E20#32
  else if off = 0x1A010 then 7#32
  else if off = 0x1A014 then 0x20#32
  else if off = 0x30000 then 0x2710#32
  else if 0x50000 ≤ off ∧ off < 0x54000 ∧ off % 0x100 = 0x34 then 4#32
  else if off = 0x5004 then 0x10#32
  else if off = 0x5040 then 0xC350#32
  else if off = 0x70020 then 1#32
  else if off = 0xF0000 then 2#32
  else 0#32

/-- The stored bits of a register. -/
def reg (s : State) (off : Nat) : Word := tgetD s.win off (regReset off)

/-- Replace the stored bits of a register. -/
def setReg (s : State) (off : Nat) (w : Word) : State := { s with win := tset s.win off w }

/-- Hardware sets bits of a W1C register (14 R455). -/
def setBits (s : State) (off : Nat) (m : Word) : State := setReg s off (reg s off ||| m)

/-- An RC counter rises, saturating at 0xFFFF_FFFF (06 R215, 14 R455). -/
def bumpBy (s : State) (off n : Nat) : State := setReg s off (toW (min ((reg s off).toNat + n) 0xFFFFFFFF))

/-- An RC counter rises by one. -/
def bump (s : State) (off : Nat) : State := bumpBy s off 1

/-! Sizes (00 R2, R4). -/

/-- Lane ports present (14 R447). -/
def lpCount : Size → Nat
  | .tvd16 => 2
  | .tvd32 => 4
  | .tvd64 => 8

/-- Core-side ports present (14 R447). -/
def csCount : Size → Nat
  | .tvd16 => 4
  | .tvd32 => 8
  | .tvd64 => 16

/-! Free values and random draws (logs 1 and 2). -/

/-- A free number, and the state after it is drawn. -/
def freeN (s : State) : Nat × State := (Config.freeNat s.fresh, { s with fresh := s.fresh + 1 })

/-- `n` free bytes. -/
def freeBytes (s : State) (n : Nat) : Bytes × State :=
  ((List.range n).map (Config.freeByte s.fresh), { s with fresh := s.fresh + 1 })

/-- `n` bytes of the DRBG (04 R109); the requests since the last reseed are counted. -/
def draw (s : State) (n : Nat) : Bytes × State :=
  ((List.range n).map (Config.drbg s.draws),
   { s with draws := s.draws + 1, hub := { s.hub with drbgCount := (s.hub.drbgCount + 1) % 2 ^ 20 } })

/-! Counters (13 R422-R427). -/

/-- A 48-bit counter rises: its value and whether it wrapped (13 R425). -/
def wrap48 (v n : Nat) : Nat × Bool := ((v + n) % 2 ^ 48, decide (2 ^ 48 ≤ v + n))

/-- An event counts in every enabled counter that selects it and whose filter admits the partition charged
(13 R423, R424); while frozen it is discarded (13 R430). -/
def countEv (s : State) (ev : Nat) (part : Option Nat) (n : Nat) : State :=
  if s.aon.frozen then s
  else
    let hit := fun (c : Counter) => c.enable && c.event == ev && (!c.filter || part == some c.part)
    let s1 := { s with dbg := { s.dbg with cnt := tmapV s.dbg.cnt (fun _ c =>
      if hit c then { c with val := (wrap48 c.val n).1, ovf := c.ovf || (wrap48 c.val n).2 } else c) } }
    s.dbg.cnt.foldl (fun t p =>
      if hit p.2 && (wrap48 p.2.val n).2 then setBits t (0x60010 + 4 * (p.1 / 32)) (toW (2 ^ (p.1 % 32))) else t) s1

/-- An always-on counter rises (13 R427). -/
def countAon (s : State) (j n : Nat) : State :=
  if s.aon.frozen then s
  else
    let v := wrap48 (tgetD s.aon.cnt j 0) n
    let s1 := { s with aon := { s.aon with cnt := tset s.aon.cnt j v.1 } }
    if v.2 then setBits s1 0x60020 (toW (2 ^ j)) else s1

/-- Poisoned beats that an engine of the block consumes, by their mask (13 R427 counter 5). DEDUCED (log 28). -/
def poisonEaten (s : State) (mask : Nat) : State := if mask = 0 then s else countAon s 5 (popcount 64 mask)

/-! The alarm queue (12 R383-R385). -/

/-- A record before it is placed: class, unit, port, lane, status, cause, vertex, key ID or context, partition,
address. -/
def mkRec (cls unit port lane status cause vertex kid part addr : Nat) : AlarmRec :=
  { cls := cls, alarm := decide (cls < 0x10), gap := false, count := 1, seq := 0, ts := 0, unit := unit,
    port := port, lane := lane, status := status, cause := cause, vertex := vertex, kid := kid, part := part,
    addr := addr }

/-- Two occurrences fold (12 R385); WATCHDOG records only with equal ADDR (12 R468). -/
def foldsWith (a b : AlarmRec) : Bool :=
  a.cls == b.cls && a.unit == b.unit && a.port == b.port && a.lane == b.lane && a.status == b.status &&
  a.cause == b.cause && (a.cls != 0x13 || a.addr == b.addr)

/-- Place a record in a queue that has room: its sequence number, its time and the GAP flag (12 R383, 13 R432). -/
def placeRec (s : State) (r : AlarmRec) : State :=
  { s with aon := { s.aon with
      alarms := s.aon.alarms ++ [{ r with gap := s.aon.gapAlarm, seq := s.aon.seq, ts := s.aon.ts }],
      seq := (s.aon.seq + 1) % 2 ^ 32, gapAlarm := false } }

/-- The newest record counts one more occurrence (12 R385). -/
def foldRec (s : State) : State :=
  { s with aon := { s.aon with alarms := match s.aon.alarms.getLast? with
      | some l => s.aon.alarms.dropLast ++ [{ l with count := min (l.count + 1) 0xFFFF }]
      | none => [] } }

/-- SECURITY occurrences within the last second (12 R289's window). -/
def secWindow (s : State) : List Nat := s.aon.secTimes.filter (fun t => s.aon.ts < t + 1000000000)

/-! Initiator requests (02 R42). -/

/-- The pieces of a range of package memory: none crosses 4 KiB, so that a request has at most 32 beats. -/
def cutBeats : Nat → Nat → Nat → List (Nat × Nat)
  | 0, _, _ => []
  | n + 1, a, l => if l = 0 then [] else (a, min l (4096 - a % 4096)) :: cutBeats n (a + min l (4096 - a % 4096)) (l - (4096 - a % 4096))

/-- The requests of an access to `len` bytes from `addr` on: whole beats of 128 bytes, with byte enables where it writes; an empty
`mask` enables every byte of the range. Each goes to the port that the hash of its address names (log 4). -/
def mreqOuts (s : State) (write : Bool) (addr len : Nat) (data : Bytes) (mask : List Bool) (pasid : Option Nat) : List Output :=
  (cutBeats (len / 4096 + 2) addr len).zipIdx.map (fun x =>
    let a := x.1.1
    let n := x.1.2
    let lo := a % 128
    let beats := (lo + n + 127) / 128
    let on := if mask.isEmpty then List.replicate n true else (mask.drop (a - addr)).take n
    .mreq (Config.portHash (a - lo) % csCount s.size) (Config.accessTid (s.fab.nextTid + x.2) % 4096) write (a - lo) beats
      (if write then padTo (128 * beats) (List.replicate lo 0 ++ slice data (a - addr) n) else [])
      (if write then List.replicate lo false ++ on ++ List.replicate (128 * beats - lo - n) false else []) pasid)

/-- Make an access. -/
def emitMreq (s : State) (write : Bool) (addr len : Nat) (data : Bytes) (mask : List Bool) (pasid : Option Nat) : State :=
  let o := mreqOuts s write addr len data mask pasid
  emits { s with fab := { s.fab with nextTid := s.fab.nextTid + o.length } } o

/-- tvd_mir_tx_kind of a record (12 R409). -/
def mirrorKind : Mirror → Nat
  | .heartbeat => 0x0
  | .key _ _ => 0x1
  | .chord _ _ => 0x2
  | .egress _ _ => 0x3
  | .tag _ _ => 0x4
  | .stored _ | .retired _ => 0x5
  | .ingress _ _ => 0x6
  | .node _ _ _ _ | .root _ _ => 0x7
  | .hot _ _ _ => 0x8
  | .region _ _ | .part _ _ | .ctx _ _ | .desc _ _ | .pgd _ _ _ | .membership _ => 0x9
  | .alarm _ _ => 0xA
  | .sync _ | .ask => 0xB
  | .confirm _ => 0xC
  | .handover _ => 0xE

/-- An owner in mirror mode whose standby has synchronised, or is doing so, sends it every change (12 R409, R412). -/
def mirrors (s : State) : Bool := s.tandemEn && (s.td.synced || s.td.syncing) && s.td.owner && s.td.modeActive == 0

/-- Send a record over the mirror (12 R409). -/
def mirrorRec (s : State) (r : Mirror) : State :=
  if mirrors s then emit { s with td := { s.td with sent := s.td.sent + 1 } } (.mirror r) else s

/-- Whether this instance is the synchronised owner of a pair in mirror mode (12 R409). -/
def mirrored (s : State) : Bool := s.tandemEn && s.td.synced && s.td.owner && s.td.modeActive == 0

/-- This instance serves traffic: always but in a pair, where the owner does in mirror mode and both instances do in
lockstep-compare (02 R53; 12 R408, R409). -/
def serves (s : State) : Bool := !s.tandemEn || (!s.td.fenceIn && (s.td.owner || s.td.modeActive == 1))

/-- Work goes on: no clock stop is under way (02 R66, R67). -/
def clkRuns (s : State) : Bool := s.aon.clkPhase == .idle || s.aon.clkPhase == .failed

/-- Hold an action until the standby confirms the newest record sent (12 R410). -/
def holdAct (s : State) (h : Held) : State :=
  { s with td := { s.td with held := s.td.held ++ [{ num := s.td.sent, act := h }] } }

/-- Present outputs, or hold them at a synchronised owner (12 R410). -/
def emitsHeld (s : State) (o : List Output) : State := if mirrored s then holdAct s (.outs o) else emits s o

/-- Lane enable falls on every lane and nothing travels on it any more (12 R400 step 1, 02 R66 step 3). -/
def stopLanes (s : State) : State :=
  { s with links := { s.links with lane := tmapV s.links.lane (fun _ l =>
      { Lane.down with up := l.up, cause := l.cause }) } }

end Sys2Proof.Machine
end

