-- ==== Sys2Proof/Machine/Status.lean ====
section
/-! DEFINITION. The status codes (03 R105). -/

namespace Sys2Proof.Machine

/-- Completed. -/
abbrev stOk : Nat := 0x00
/-- Update of a FROZEN group. -/
abbrev stOkFrozen : Nat := 0x01
/-- A fragment was accepted, or more follow; the work has not finished. -/
abbrev stPending : Nat := 0x02
/-- Opcode not listed. -/
abbrev stBadOpcode : Nat := 0x10
/-- Word count does not fit. -/
abbrev stBadLength : Nat := 0x11
/-- Field, flag, encoding or reserved bits invalid, or an absent port. -/
abbrev stBadParam : Nat := 0x12
/-- Outside rights or scope, no installed setup state, or rejected. -/
abbrev stNotPermitted : Nat := 0x13
/-- Not allowed in the life-cycle state. -/
abbrev stLcState : Nat := 0x14
/-- Object held, or source busy. -/
abbrev stBusy : Nat := 0x15
/-- No free slot, key ID, context or grant share. -/
abbrev stNoResource : Nat := 0x16
/-- Object freed, or its key ID invalidated. -/
abbrev stStaleHandle : Nat := 0x20
/-- An ancestor key's generation has changed. -/
abbrev stKeyOrphaned : Nat := 0x21
/-- Usage limit or major counter reached. -/
abbrev stKeyExhausted : Nat := 0x22
/-- Epoch would wrap. -/
abbrev stEpochExhausted : Nat := 0x23
/-- PGD.step is not s - 1. -/
abbrev stStepSkew : Nat := 0x24
/-- Work squashed by an abort. -/
abbrev stAborted : Nat := 0x30
/-- Abort arrived after completion. -/
abbrev stAbortTooLate : Nat := 0x31
/-- Work removed by a context, engine or partition reset. -/
abbrev stContextReset : Nat := 0x32
/-- Fence or signal completed for a torn down context. -/
abbrev stAbandoned : Nat := 0x33
/-- Tag failure or write to a poisoned line. -/
abbrev stSealFault : Nat := 0x40
/-- Consumer read poisoned data. -/
abbrev stPoisoned : Nat := 0x41
/-- Arithmetic check failed twice. -/
abbrev stPlausibility : Nat := 0x42
/-- No acknowledgement or response in time. -/
abbrev stTimeout : Nat := 0x50
/-- Internal failure. -/
abbrev stInternal : Nat := 0x7F

end Sys2Proof.Machine
end

