-- ==== Sys2Proof/Machine/Keys.lean ====
section
/-! DEFINITION. The key store: slots, derivation, generations and orphaning, usage limits (04 R112-R125). -/

namespace Sys2Proof.Machine

/-- The Seal MAC engine absorbs `n` bytes of X under a key (04 R120): the blocks of X with right_encode and padding, and two
more when the key's prefix is not held; the prefixes of the last eight keys are held. -/
def absorb (s : State) (k : Bytes) (n : Nat) : State :=
  let held := s.keys.mac.contains k
  let s := { s with keys := { s.keys with mac := (k :: s.keys.mac.filter (· != k)).take 8 } }
  countEv s 0x0A0 none (ceilDiv (n + 4) 136 + if held then 0 else 2)

/-- A derivation in the Seal MAC engine from the bytes of a key (04 R118, R120). -/
def deriveFrom (s : State) (k : Bytes) (label : String) (ctx : Bytes) : BitVec 256 × State :=
  (deriveKey k label ctx, absorb (countEv s 0x0A1 none 1) k (kmacX label ctx).length)

/-- A derivation from a key of the store. -/
def derive (s : State) (k : BitVec 256) (label : String) (ctx : Bytes) : BitVec 256 × State := deriveFrom s (keyBytes k) label ctx

/-- The Seal MAC engine measures `n` bytes (04 R119, R120): 32 zero bytes are the key, label and kind stand before the data. -/
def absorbZero (s : State) (n : Nat) : State := absorb s (List.replicate 32 0) n

/-- A slot of the key store. -/
def slotAt (s : State) (n : Nat) : Slot := tgetD s.keys.slots n Slot.zero

/-- Replace a slot. -/
def setSlot (s : State) (n : Nat) (k : Slot) : State :=
  { s with keys := { s.keys with slots := tset s.keys.slots n k } }

/-- The largest generation (04 R123). -/
abbrev genMax : Nat := 0xFFFFFFFF

/-- Take a generation away: KEY zeroed, GEN one higher, STATE as given; retired at the last generation (04 R121,
R123). -/
def raiseGen (k : Slot) (state : Nat) : Slot :=
  if k.gen = genMax then { k with key := 0, state := 3 } else { k with key := 0, gen := k.gen + 1, state := state }

/-- The slot an orphaned descendant becomes: its GEN rises; the sweeper zeroes its KEY later (04 R121, R123). -/
def orphanOf (k : Slot) : Slot :=
  if k.gen = genMax then { k with key := 0, state := 3 } else { k with gen := k.gen + 1, state := 2 }

/-- A valid slot whose parent has gone (04 R121 step 2). -/
def parentGone (slots : Tbl Slot) (k : Slot) : Bool :=
  let p := tgetD slots k.parent Slot.zero
  k.state == 1 && (p.state != 1 || p.gen != k.parentGen)

/-- Mark one depth of the subtree (04 R121 step 2). The firmware's slots 0 to 2 descend from the root and are not
marked through slot numbers. -/
def markDepth (slots : Tbl Slot) (d : Nat) : Tbl Slot :=
  tmapV slots (fun n k => if n != 0 && k.depth == d && parentGone slots k then orphanOf k else k)

/-- Mark the depths from `d` on, `fuel` of them. -/
def markFrom : Nat → Nat → Tbl Slot → Tbl Slot
  | 0, _, t => t
  | fuel + 1, d, t => markFrom fuel (d + 1) (markDepth t d)

/-- Flush every chord whose handle no longer matches its slot (04 R121 step 3). -/
def flushChords (s : State) : State :=
  let live := fun (_ : Nat) (c : Chord) => (slotAt s c.slot).state == 1 && (slotAt s c.slot).gen == c.slotGen
  let gone := s.links.chord.filter (fun p => !live p.1 p.2)
  { s with links := { s.links with
      chord := tkeep s.links.chord live
      chordLru := s.links.chordLru.filter (fun k => !gone.any (fun p => p.1 == k)) } }

/-- Invalidate a slot: its generation ends, its subtree is orphaned, derived entries are flushed (04 R121). -/
def invalidateSlot (s : State) (n : Nat) : State :=
  let k := slotAt s n
  if k.state = 0 ∧ n < 16 then s
  else
    let t := tset s.keys.slots n (raiseGen k 0)
    flushChords { s with keys := { s.keys with slots := markFrom (7 - k.depth) (k.depth + 1) t,
                                               recency := s.keys.recency.filter (· != n) } }

/-- Fill a slot with a key under a parent slot; it keeps its own GEN (04 R116). -/
def fillSlot (s : State) (n : Nat) (key : BitVec 256) (typ : Nat) (uses : BitVec 16) (parent limit kid : Nat) :
    State :=
  let p := slotAt s parent
  setSlot s n { key := key, typ := typ, uses := uses, parent := parent, state := 1, depth := p.depth + 1,
                parentGen := p.gen, gen := (slotAt s n).gen, useCount := 0, useLimit := limit, ownerKid := kid }

/-- Slots that a derivation may still take (04 R116 order 7). -/
def slotUsable (s : State) (n : Nat) : Bool :=
  ((slotAt s n).state == 0 && decide ((slotAt s n).gen < genMax)) || ((slotAt s n).state == 1 && (slotAt s n).typ == 6)

/-- A slot that is free and has a generation left. -/
def slotFree (s : State) (n : Nat) : Bool := (slotAt s n).state == 0 && decide ((slotAt s n).gen < genMax)

/-- How many slots from 16 to 2,047 are usable: the slots the table does not list are free (04 R116). -/
def usableCount (s : State) : Nat :=
  2032 - (tcount s.keys.slots (fun n _ => decide (16 ≤ n) && !slotUsable s n))

/-- The lowest free slot from 16 upward (04 R116). -/
def lowestFree (s : State) : Option Nat := lowestFrom (slotFree s) 2032 16

/-- What a use of a key answers: the status, and the state with the use counted (04 R115, R124). -/
def useKey (s : State) (n : Nat) (bit : Nat) : Nat × State :=
  let k := slotAt s n
  if k.state = 2 then (stKeyOrphaned, s)
  else if k.state ≠ 1 then (stStaleHandle, s)
  else if !k.uses.getLsbD bit then (stNotPermitted, s)
  else if k.useLimit ≠ 0 ∧ k.useLimit ≤ k.useCount then (stKeyExhausted, s)
  else (stOk, if k.useLimit = 0 then s else setSlot s n { k with useCount := k.useCount + 1 })

/-- The root bytes the lattice grows from (04 R108, R110, R126): the test root where it applies, else bank A or B. -/
def rootBank (s : State) : Option Nat :=
  let w := fun i => tgetD s.otp.fuse i 0#32
  if w 0xD0 = 0xFFFFFFFF#32 then some 0xC0 else if w 0xE1 = 0xFFFFFFFF#32 then some 0xD1 else none

/-- Whether the lattice grows from the test root (04 R126). -/
def onTestRoot (s : State) : Bool :=
  s.aon.testRoot || s.otp.lc == .testUnlocked || s.otp.lc == .analysis

/-- The 64 bytes of the root in force. -/
def rootBytes (s : State) : Bytes :=
  if onTestRoot s then (leBytes 64 Config.testRoot.toNat)
  else match rootBank s with
    | some b => wordBytes ((List.range 16).map (fun i => tgetD s.otp.fuse (b + i) 0#32))
    | none => List.replicate 64 0

/-- BASE and STORE from a root (04 R119). -/
def baseKey (root : Bytes) : BitVec 256 := deriveKey root "base" []

/-- STORE of a root. -/
def storeKeyOf (root : Bytes) : BitVec 256 := deriveKey (keyBytes (baseKey root)) "store" []

/-- A firmware derivation waits while a miss fill of a Chord or a region key is pending (01 R23). -/
def missPending (s : State) : Bool := !s.links.missC.isEmpty || !s.mem.missK.isEmpty

/-- Rebuild slots 0 to 2 from the root in force and the measured firmware (04 R113, R119). -/
def rebuildLattice (s : State) : State :=
  let base := deriveFrom s (rootBytes s) "base" []
  let s := setSlot base.2 0 { Slot.zero with key := base.1, typ := 1, uses := 1, state := 1, depth := 1,
                                             gen := (slotAt base.2 0).gen }
  let store := derive s base.1 "store" []
  let s := fillSlot store.2 1 store.1 2 0x10#16 0 (2 ^ 40) 0
  let dice := derive s base.1 "dice" s.hub.digest
  fillSlot dice.2 2 dice.1 3 0x101#16 0 0 0

/-! Working slots of the firmware (04 R113, R114). Which slot holds which is the model's: 7 the DEBUG_EXPORT key, 8 the
MIGRATION key, 9 the SESSION key in use. DESIGN CHOICE (log 55). -/

/-- Slot of the DEBUG_EXPORT key. -/
abbrev exportSlot : Nat := 7
/-- Slot of the MIGRATION key. -/
abbrev migSlot : Nat := 8
/-- Slot of the SESSION key. -/
abbrev sessionSlot : Nat := 9

/-- Derive a DEBUG_EXPORT key under DOMAIN_STORE (04 R114, R119; 13 R439). -/
def exportKey (s : State) (ctx : Bytes) : State :=
  let d := derive s (slotAt s 5).key "debug" ctx
  fillSlot d.2 exportSlot d.1 7 0x40#16 5 (2 ^ 32) 0

/-- Derive a MIGRATION key under DOMAIN_STORE (04 R114, R119; 11 R376). -/
def migrationKey (s : State) (ctx : Bytes) : State :=
  let d := derive s (slotAt s 5).key "mig" ctx
  fillSlot d.2 migSlot d.1 9 0x80#16 5 (2 ^ 32) 0

/-- Derive a SESSION key under IDENTITY, for a peer number and a kind of record: 1 a link, 2 a session with a peer, 3 a session
on a mailbox (05 R153). -/
def sessionKey (s : State) (peer kind : Nat) : State :=
  let d := derive s (slotAt s 2).key "session" (leBytes 2 peer ++ leBytes 1 kind)
  fillSlot d.2 sessionSlot d.1 0xB 0x82#16 2 (2 ^ 40) 0

/-- Seal under the key of a working slot, which counts one use of it (04 R124); none when the use is refused. -/
def sealUnder (s : State) (slot bit : Nat) (nonce aad p : Bytes) : Option Bytes × State :=
  let u := useKey s slot bit
  if u.1 ≠ stOk then (none, u.2)
  else
    let k := (slotAt u.2 slot).key
    let c := gcmCrypt k nonce p
    (some (c ++ gcmTag k nonce aad c), u.2)

/-- Zero the key store (04 R127, 12 R400). Generations go with it: a cleared slot is the slot of reset. -/
def clearKeys (s : State) : State := { s with keys := KeyStore.reset }

/-- Zero the chord cache with its saved counts. -/
def clearChords (s : State) : State :=
  { s with links := { s.links with chord := [], chordLru := [], saved := [], missC := [] } }

/-- End every stream context (05 R167, 06 R201). -/
def clearStreams (s : State) : State :=
  { s with links := { s.links with egress := [], ingress := [], scLru := [], back := [], missS := [] } }

/-- The default USE_LIMIT and whether BCP_KEY_DERIVE may create the type (04 R114). -/
def typeListed (t : Nat) : Bool := 1 ≤ t && t ≤ 0xC

/-- Orphaned slots are reclaimed: KEY zeroed, STATE free, GEN kept (04 R123). -/
def sweepOrphans (s : State) : State :=
  { s with keys := { s.keys with slots := tmapV s.keys.slots (fun _ k =>
      if k.state = 2 then { k with key := 0, state := 0 } else k) } }

end Sys2Proof.Machine
end

