-- ==== Sys2Proof/Machine/Halt.lean ====
section
/-! DEFINITION. An occurrence in the alarm queue, with its folding, its halt window and the halt it may cause
(12 R385, R289, R400). -/

namespace Sys2Proof.Machine

/-- A synchronised owner gives the lanes to its standby before an L3 or a halt (12 R395, R414). -/
def handOver (s : State) (cause : Nat) : State :=
  if mirrored s then
    let s := emit s (.mirror (.handover cause))
    let s := stopLanes s
    { s with td := { s.td with owner := false, fenceOut := false, synced := false, alive := true, held := [] } }
  else s

/-- Partitions, contexts and descriptors, engines and buffers that a loss of the engine domain ends. The region table
and the counter cache go with it (08 R275). -/
def clearMem (s : State) : State := { s with mem := { Mem.reset with wear := [], next := s.mem.next } }

/-- Zero the hot-line buffer and the hold buffers (12 R400 step 6). -/
def clearBuffers (s : State) : State :=
  { s with fab := { s.fab with hot := [], tracker := [] }, red := { s.red with stages := [] } }

/-- Lose the domain membership: policy, links and vertex go, and with a membership every debug grant; a BOOT frame that has
not left has no vertex to leave from, and the salts restored since the block joined are forgotten (06 R189, 05 R167, R469,
11 R378, 13 R435). -/
def loseDomain (s : State) : State :=
  { s with
    dom := Domain.reset
    dbg := { s.dbg with grants := if s.dom.member then [] else s.dbg.grants }
    parts := { s.parts with salts := [] }
    fab := { s.fab with txq := s.fab.txq.filter (fun f => !f.boot) } }

/-- The failover cause of a halt cause (12 R421): no Hub spare, clock fault, or halt. -/
def haltHand (cause : Nat) : Nat := if cause = 3 then 4 else if cause = 5 then 6 else 3

/-- The port of a unit; 0 for a unit without one. -/
def unitPort (u : Nat) : Nat := if u < 0x18 then u % 8 else 0

/-- STATUS given to the work a reset of a level covers (12 R397). -/
def resetStatus (level unit : Nat) : Nat :=
  if level = 1 ∧ 0x08 ≤ unit ∧ unit < 0x10 then stTimeout else stContextReset

/-- The WATCHDOG record of a level that ends (12 R468). -/
def levelRec (q : ResetReq) (escalated : Bool) : AlarmRec :=
  mkRec 0x13 (if q.level = 1 then q.unit else 0xFF) (if q.level = 1 then unitPort q.unit else if q.level = 2 then q.port else 0) 0
    (resetStatus q.level q.unit) q.cause 0 0 0 (q.level + 256 * b2n escalated)

/-- A record folds, or is placed while the queue has room. -/
def keepRec (s : State) (r : AlarmRec) : State :=
  if (s.aon.alarms.getLast?).any (fun l => foldsWith l r) then foldRec s
  else if s.aon.alarms.length < 256 then placeRec s r else s

/-- A halt ends the levels that are over, and an L3 under way: each places its record before the HALT record (12 R468). -/
def endLevels (s : State) : State :=
  let ended := fun (q : ResetReq) => q.done || q.step != 0
  (s.ladder.queue.filter ended).foldl (fun s q => keepRec s (levelRec q false))
    { s with ladder := { s.ladder with queue := s.ladder.queue.filter (fun q => !ended q) } }

/-- Halt the block (12 R400): lanes and ready fall, keys and chords are zeroed, the HALT record is placed when the
queue has room, tvd_halt_req rises, and the rest is zeroed. -/
def haltBlock (s : State) (cause : Nat) : State :=
  if s.aon.haltReq then s
  else
    let s := handOver s (haltHand cause)
    let s := endLevels (clearChords (clearKeys (stopLanes s)))
    let s := if s.aon.alarms.length < 256 then placeRec s (mkRec 0x08 0xFF 0 0 0 cause 0 0 0 0) else s
    let s := { s with aon := { s.aon with haltReq := true, haltCause := cause, dataStopped := true } }
    loseDomain (clearMem (clearBuffers (clearStreams s)))

/-- A fault occurs: a SECURITY occurrence counts toward the window, the record folds or is placed, and the block
halts when it can do neither or when the window is exceeded (12 R385, 08 R289). -/
def occur (s : State) (r : AlarmRec) (charge : Option Nat) : State :=
  let sec := r.cls == 0x01
  let s := if sec then { s with aon := { s.aon with secTimes := secWindow s ++ [s.aon.ts] } } else s
  let s := countAon s 6 1
  let s := if sec then countAon s 7 1 else s
  let s := match charge with
    | some p => if sec then { s with parts := { s.parts with errDue := if s.parts.errDue.contains p then s.parts.errDue
        else s.parts.errDue ++ [p] } } else s
    | none => s
  let fold := match s.aon.alarms.getLast? with
    | some l => foldsWith l r
    | none => false
  let excess := sec && decide ((reg s 0x5004).toNat % 256 < s.aon.secTimes.length)
  if fold then
    let s := foldRec s
    if excess then haltBlock s 1 else s
  else if s.aon.alarms.length < 256 then
    let s := placeRec s r
    if excess then haltBlock s 1 else s
  else haltBlock s 2

/-- An IO event (12 R383, R384): unit, port, status, vertex, partition charged, key ID or context, address. -/
def ioEvent (s : State) (unit port status vertex part kid addr : Nat) : State :=
  occur s (mkRec 0x17 unit port 0 status 0 vertex kid part addr) none

end Sys2Proof.Machine
end

