-- ==== Sys2Proof/Machine/Frame.lean ====
section
/-! DEFINITION. Frames: the clear header byte by byte, what makes it well formed, the sealing and opening of a
frame, streams and their numbers (06 R181 to R189, R199). -/

namespace Sys2Proof.Machine

/-! Frame kinds (06 R183). -/

/-- Transaction request. -/
abbrev opReq : Nat := 0x0
/-- Transaction response. -/
abbrev opRsp : Nat := 0x1
/-- End-to-end acknowledgement. -/
abbrev opEack : Nat := 0x2
/-- Management message. -/
abbrev opMgmt : Nat := 0x3
/-- Reduce-through hop. -/
abbrev opReduce : Nat := 0x4
/-- Tensor dump. -/
abbrev opDump : Nat := 0x6
/-- Combined open atomics. -/
abbrev opCombined : Nat := 0x7
/-- Module read. -/
abbrev opMread : Nat := 0x8
/-- Module write. -/
abbrev opMwrite : Nat := 0x9
/-- Module read data. -/
abbrev opMdata : Nat := 0xA
/-- Module write completion. -/
abbrev opMdone : Nat := 0xB
/-- Sequence gap. -/
abbrev opGap : Nat := 0xC

/-- An all-zero header. -/
def Hdr.zero : Hdr :=
  { dst := 0, src := 0, tc := 0, cclass := 0, smode := 0, dgen := false, boot := false, mbxs := false, stream := 0,
    seqLo := 0, rtag := 0, kid := 0, plen := 0, op := 0, cgen := 0, addr := 0, aop := 0, nlines := 0, operand := 0,
    epoch := 0 }

/-- Flits of a frame with this payload length (06 R181). -/
def flitsOf (plen : Nat) : Nat := ceilDiv (plen + 48) 252

/-- The 32 header bytes (06 R182). -/
def Hdr.bytes (h : Hdr) : Bytes :=
  let sealed := h.smode < 2
  let addrOn := decide (h.cclass = 1) || decide (h.smode = 2)
  leBytes 2 h.dst ++ leBytes 2 h.src ++
  leBytes 1 (h.tc + 8 * h.cclass + 32 * h.smode + 128 * b2n h.dgen) ++
  leBytes 1 (flitsOf h.plen - 1 + 16 * b2n h.boot + 32 * b2n h.mbxs) ++
  leBytes 2 (if sealed then h.stream else 0) ++
  leBytes 4 (if sealed then h.seqLo else h.rtag) ++
  leBytes 3 ((if sealed then 0 else h.kid) + 4096 * h.plen) ++
  leBytes 1 (h.op + 16 * (if sealed then h.cgen else 0)) ++
  leBytes 6 (if addrOn then h.addr else 0) ++
  leBytes 1 (if h.cclass = 1 then h.aop else 0) ++
  leBytes 1 (if sealed then 0 else h.nlines) ++
  (if h.cclass = 1 then leBytes 8 h.operand
   else leBytes 4 (if sealed then 0 else h.epoch) ++ [0, 0, 0, 0])

/-- Read a header (06 R182). -/
def Hdr.parse (b : Bytes) : Hdr :=
  let b4 := leAt b 4 1
  let b5 := leAt b 5 1
  let sealed := b4 / 32 % 4 < 2
  let cc1 := b4 / 8 % 4 = 1
  let kp := leAt b 12 3
  { dst := leAt b 0 2, src := leAt b 2 2, tc := b4 % 8, cclass := b4 / 8 % 4, smode := b4 / 32 % 4,
    dgen := b4 / 128 % 2 == 1, boot := b5 / 16 % 2 == 1, mbxs := b5 / 32 % 2 == 1,
    stream := if sealed then leAt b 6 2 else 0,
    seqLo := if sealed then leAt b 8 4 else 0, rtag := if sealed then 0 else leAt b 8 4,
    kid := if sealed then 0 else kp % 4096, plen := kp / 4096, op := leAt b 15 1 % 16,
    cgen := if sealed then leAt b 15 1 / 16 else 0,
    addr := if cc1 ∨ !sealed then leAt b 16 6 else 0, aop := if cc1 then leAt b 22 1 % 16 else 0,
    nlines := if sealed then 0 else leAt b 23 1 % 64,
    operand := if cc1 then leAt b 24 8 else 0, epoch := if sealed then 0 else leAt b 24 4 }

/-- The number of flits a header announces: NFL + 1. -/
def nflOf (b : Bytes) : Nat := leAt b 5 1 % 16 + 1

/-- OP and the class fit SEAL, for the block as receiver (06 R183, R184, R185, 01 R25). -/
def opFits (h : Hdr) : Bool :=
  let ccOk := match h.cclass with
    | 0 => true
    | 1 => h.smode == 0 && (h.tc == 1 || h.tc == 3) && (h.op == opReq || h.op == opRsp || h.op == opCombined)
    | 3 => h.smode == 2 && h.tc == 4 && h.op == opMdata
    | _ => false
  ccOk && h.tc != 7 &&
  match h.smode with
  | 0 => h.op == opReq || h.op == opRsp || h.op == opEack || h.op == opMgmt || h.op == opReduce || h.op == opDump ||
         (h.op == opCombined && h.cclass == 1) || h.op == opGap
  | 1 => (h.tc == 2 || h.tc == 4) && (h.op == opReq || h.op == opRsp)
  | 2 => h.tc == 4 && (h.op == opMdata || h.op == opMdone)
  | _ => false

/-- Check 1 of 06 R206: the header bytes are those of a well-formed header. -/
def hdrOk (raw : Bytes) : Bool :=
  let h := Hdr.parse raw
  decide (h.plen ≤ 3984) && h.bytes == raw && opFits h &&
  ((h.op != opReq && h.op != opRsp) || decide (16 ≤ h.plen)) &&
  !(h.dgen && (h.boot || h.smode == 2)) &&
  (!h.boot || (h.smode == 0 && h.tc == 0 && h.op == opMgmt && h.stream == 0 && h.cgen == 0)) &&
  (h.smode != 2 || h.nlines ≤ 61)

/-- Stream number from its fields (06 R199). -/
def streamNo (owner tc sub : Nat) : Nat := owner * 2048 + tc * 256 + sub

/-- OWNER of a stream. -/
def ownerOf (stream : Nat) : Nat := stream / 2048
/-- SUB of a stream. -/
def subOf (stream : Nat) : Nat := stream % 256

/-- The key of a stream context: peer, stream, parity. -/
def streamKey (peer stream : Nat) (par : Bool) : Nat := (peer * 65536 + stream) * 2 + b2n par

/-- The key of a chord cache entry: peer, direction (0 egress, 1 ingress), parity. -/
def chordKey (peer dir : Nat) (par : Bool) : Nat := peer * 4 + dir * 2 + b2n par

/-- The IV of a frame (06 R187). -/
def frameIv (src stream seqN : Nat) : Bytes := leBytes 2 src ++ leBytes 2 stream ++ leBytes 8 seqN

/-- Content bytes of a frame (06 R181): header, payload as sent, fill, trailer. -/
def frameContent (h : Hdr) (payload trailer : Bytes) : Bytes :=
  let n := flitsOf h.plen
  padTo (252 * n - 16) (h.bytes ++ payload) ++ padTo 16 trailer

/-- Seal a frame under a key (06 R184, R187, R208); SEAL 2 has no key and a zero trailer. -/
def sealFrame (k : BitVec 256) (h : Hdr) (seqN : Nat) (payload : Bytes) : Bytes :=
  let iv := frameIv h.src h.stream seqN
  match h.smode with
  | 0 =>
    let c := gcmCrypt k iv payload
    frameContent h c (gcmTag k iv h.bytes c)
  | 1 => frameContent h payload (gcmTag k iv h.bytes [])
  | _ => frameContent h payload []

/-- Whether a frame's tag verifies and its fill is zero (06 R206 step 6). -/
def tagOk (k : BitVec 256) (h : Hdr) (seqN : Nat) (content : Bytes) : Bool :=
  let raw := content.take 32
  let body := slice content 32 h.plen
  let n := flitsOf h.plen
  let fill := slice content (32 + h.plen) (252 * n - 48 - h.plen)
  let iv := frameIv h.src h.stream seqN
  let c := if h.smode = 0 then body else []
  gcmTag k iv raw c == slice content (252 * n - 16) 16 && fill.all (· == 0)

/-- The payload of a verified frame (06 R187, R208). -/
def openFrame (k : BitVec 256) (h : Hdr) (seqN : Nat) (content : Bytes) : Bytes :=
  let body := slice content 32 h.plen
  if h.smode = 0 then gcmCrypt k (frameIv h.src h.stream seqN) body else body

/-- Cut content bytes into flits' content, 252 bytes each (06 R181). -/
def cutFlits : Nat → Bytes → List Bytes
  | 0, _ => []
  | n + 1, b => b.take 252 :: cutFlits n (b.drop 252)

/-- Rebuild the 64-bit sequence from SEQ_LO and LOW (06 R188). -/
def rebuildSeq (low seqLo : Nat) : Nat :=
  let w := 2 ^ 32
  let base := low / w * w + seqLo
  if base + 2 ^ 31 < low then base + w
  else if low + 2 ^ 31 ≤ base ∧ w ≤ base then base - w
  else base

/-- A management frame header of 16 bytes (05 R170). -/
def mgmtHeader (s : State) (code gen : Nat) : Bytes :=
  let id := match s.dom.policy with
    | some p => p.domainId
    | none => 0
  leBytes 2 code ++ leBytes 2 (s.dom.vertex.getD 0) ++ leBytes 8 id ++ leBytes 4 gen

/-- A frame to be sent, with every field at its quiet value. -/
def TxFrame.blank : TxFrame :=
  { dst := 0, owner := 0, tc := 0, sub := 0, cclass := 0, smode := 0, op := 0, boot := false, mbxs := false, kid := 0,
    addr := 0, aop := 0, nlines := 0, operand := 0, epoch := 0, payload := [], origin := .own, ctx := 0, fepoch := 0,
    cover := false, comb := none, under := none, late := false }

/-- Queue a frame for egress (07 R229: in the order in which frames arose). -/
def pushTx (s : State) (f : TxFrame) : State := { s with fab := { s.fab with txq := s.fab.txq ++ [f] } }

/-- A management message to a vertex on TC0 (05 R170, 06 R183). -/
def pushMgmt (s : State) (dst : Nat) (payload : Bytes) (o : Origin) : State :=
  pushTx s { TxFrame.blank with dst := dst, op := opMgmt, payload := payload, origin := o }

/-- A domain control message (05 R170). -/
def pushCtl (s : State) (dst code gen : Nat) (body : Bytes) : State :=
  pushMgmt s dst (mgmtHeader s code gen ++ body) .own

/-- The block's vertex is a committed member's (05 R166). -/
def isMember (s : State) : Bool := s.dom.member

/-- Whether a vertex may be a committed member: set in MEMBER_BITMAP and not this block's own (06 R206 step 3). The
block knows of no other mark of commitment of a remote vertex. DEDUCED (log 5). -/
def inBitmap (s : State) (v : Nat) : Bool :=
  match s.dom.policy with
  | some p => ((p.bitmap.getD (v / 8) 0#8).toNat / 2 ^ (v % 8)) % 2 == 1
  | none => false

/-- The block's own vertex. -/
def ownVertex (s : State) (v : Nat) : Bool := s.dom.vertex == some v

/-- Another committed member, as this block can tell (05 R469, 07 R217). -/
def otherMember (s : State) (v : Nat) : Bool := isMember s && inBitmap s v && !ownVertex s v

/-- The vertex is the parent of an enrolment that has its keys and waits for its commit: their TC0 frames pass before
membership (05 R164 to R166). DEDUCED (log 19). -/
def ctlPeer (s : State) (v : Nat) : Bool := s.dom.enrol.any (fun e => e.joined && !e.committed && !e.reparent && e.parent == v)

/-- Send a reset notice to the manager, or count its loss (12 R401). -/
def resetNotice (s : State) (level unit port cause status start : Nat) : State :=
  let m := match s.dom.policy with
    | some p => p.manager
    | none => 0xFFFF
  if isMember s && m != 0xFFFF then
    pushMgmt s m (mgmtHeader s 0x11 s.dom.gen ++ leBytes 1 level ++ leBytes 1 unit ++ leBytes 1 port ++
      leBytes 1 cause ++ leBytes 1 status ++ [0, 0, 0] ++ leBytes 8 start) .notice
  else bump s 0x505C

end Sys2Proof.Machine
end

