-- ==== Sys2Proof/Machine/Work.lean ====
section
/-! DEFINITION. Partitions, contexts and descriptors as the engines see them: who a PASID is, requests to package
memory, the end of a descriptor, the end of a reduction stage and of an update, the squash of a descriptor
(11 R348 to R374, R368; 09 R322; 10 R342, R344). -/

namespace Sys2Proof.Machine

/-- A partition record. -/
def partAt (s : State) (p : Nat) : PartRec := tgetD s.parts.part p PartRec.none

/-- Replace a partition record. -/
def setPart (s : State) (p : Nat) (r : PartRec) : State :=
  { s with parts := { s.parts with part := tset s.parts.part p r } }

/-- The partition to which a PASID is bound (11 R350). -/
def partOfPasid (s : State) (pasid : Nat) : Option Nat :=
  (tfind s.parts.part (fun _ r => r.live && r.pasids.contains pasid)).map (·.1)

/-- The lowest PASID bound to a partition (07 R219). -/
def lowestPasid (r : PartRec) : Nat :=
  match r.pasids with
  | [] => 0
  | a :: t => t.foldl min a

/-- A context that exists. -/
def ctxAt (s : State) (c : Nat) : Option Ctx := tget s.parts.ctx c

/-- Replace a context. -/
def setCtx (s : State) (c : Nat) (x : Ctx) : State := { s with parts := { s.parts with ctx := tset s.parts.ctx c x } }

/-- A PASID's core context: the lowest-numbered existing context with it (11 R355). -/
def coreCtx (s : State) (pasid : Nat) : Option Nat :=
  (tfind s.parts.ctx (fun _ x => x.pasid == pasid)).map (·.1)

/-- A queue of a context. -/
def queueAt (x : Ctx) (q : Nat) : Queue := tgetD x.queues q Queue.off

/-- A descriptor. -/
def descAt (s : State) (d : Nat) : Option Desc := tget s.parts.desc d

/-- Replace a descriptor. -/
def setDesc (s : State) (d : Nat) (x : Desc) : State := { s with parts := { s.parts with desc := tset s.parts.desc d x } }

/-- The partition of a context. -/
def ctxPart (s : State) (c : Nat) : Option Nat := (ctxAt s c).map (·.part)

/-- A context's current fence epoch (07 R248). -/
def epochOf (s : State) (c : Nat) : Nat := tgetD s.fab.epochs c 0

/-! Package memory (02 R42, R43). -/

/-- The 4 KiB pages that a range touches. -/
def pagesOf (addr len : Nat) : List Nat :=
  (List.range ((addr + len - 1) / 4096 - addr / 4096 + 1)).map (addr / 4096 + ·)

/-- Pages written for a partition are due for its dirty-page log (11 R374). -/
def noteDirty (s : State) (pasid addr len : Nat) : State :=
  match partOfPasid s pasid with
  | none => s
  | some p =>
    let r := partAt s p
    if r.log.active && !r.log.ending then
      let i := r.pasids.idxOf pasid
      let new := (pagesOf addr len).filter (fun g => !r.log.filter.contains (g, i) && !r.log.due.contains (g, i))
      setPart s p { r with log := { r.log with due := r.log.due ++ new.map (fun g => (g, i)) } }
    else s

/-- Make an initiator request and remember what it is for. -/
def pmReq (s : State) (use : PmUse) (write : Bool) (addr len : Nat) (data : Bytes) (mask : List Bool)
    (pasid : Option Nat) : State :=
  let s := emitMreq s write addr len data mask pasid
  let s := { s with fab := { s.fab with
    pm := tset s.fab.pm s.fab.nextPm { use := use, write := write, addr := addr, len := len, pasid := pasid },
    nextPm := s.fab.nextPm + 1 } }
  match pasid with
  | some a => if write then noteDirty s a addr len else s
  | none => s

/-- Forget the outstanding requests of one use: their responses will find nobody. -/
def pmDrop (s : State) (f : PmUse → Bool) : State :=
  { s with fab := { s.fab with pm := tkeep s.fab.pm (fun _ e => !f e.use) } }

/-! The end of a descriptor (11 R361, R367). -/

/-- The spec states RESULT (11 R366): a copy, publish or invalidate always, fence, dump mark and abort always 0, a
signal when it succeeded, a wait when its counter was read. Elsewhere RESULT is a free value (log 1). -/
def resultStated (opcode status : Nat) : Bool :=
  opcode == 1 || opcode == 4 || opcode == 5 || opcode == 6 || opcode == 9 || opcode == 10 ||
  (opcode == 7 && status == stOk) || (opcode == 8 && (status == stOk || status == stTimeout))

/-- Fix a descriptor's final status and RESULT. A status of ST_POISONED faults its context (12 R390), which happens
when the command settles. -/
def completeDesc (s : State) (d status result : Nat) : State :=
  match descAt s d with
  | none => s
  | some x =>
    if x.phase = .done ∨ x.phase = .recorded then s
    else
      let r := if resultStated x.opcode status then (result, s) else
        let f := freeN s
        (f.1 % 2 ^ 64, f.2)
      let s := setDesc r.2 d { x with phase := .done, status := status, result := r.1 }
      let s := countEv s 0x091 (ctxPart s x.ctx) 1
      if status = stPoisoned then { s with parts := { s.parts with faultDue := s.parts.faultDue ++ [d] } } else s

/-! The end of a reduction stage (09 R308, R322). -/

/-- A control record of 32 bytes (09 R308). -/
def ctlRec (kind fmt op xfer baseSeq first last : Nat) : Bytes :=
  leBytes 1 kind ++ leBytes 1 fmt ++ leBytes 1 op ++ [0] ++ leBytes 4 xfer ++ leBytes 8 baseSeq ++ leBytes 8 first ++
    leBytes 8 last

/-- An ABORT record. -/
def abortRec (xfer status vertex : Nat) : Bytes := ctlRec 3 0 0 xfer 0 0 (status + vertex * 65536)

/-- A REDUCE frame on a stream of a partition. -/
def pushReduce (s : State) (dst part sub : Nat) (payload : Bytes) (o : Origin) : State :=
  pushTx s { TxFrame.blank with dst := dst, owner := part + 1, tc := 3, sub := sub, op := opReduce, payload := payload,
                                origin := o }

/-- Send ABORT to every neighbour a stage names, but `except` (09 R322). -/
def sendAborts (s : State) (g : Stage) (status vertex : Nat) (except : Option (Nat × Bool)) : State :=
  let b := abortRec g.xfer status vertex
  let s := g.inputs.foldl (fun s i =>
    if except = some (i.vertex, true) then s else pushReduce s i.vertex g.part (g.inSub + 0x80) b .own) s
  if g.forward ∧ except ≠ some (g.outV, false) then pushReduce s g.outV g.part (g.outSub + 0x80) b .own else s

/-- The input data streams of a stage: peer and STREAM. -/
def stageStreams (g : Stage) : List (Nat × Nat) :=
  g.inputs.map (fun i => (i.vertex, streamNo (g.part + 1) 3 g.inSub))

/-- Take a stage away: its slots are freed, its data frames that have no tag yet are withdrawn (09 R307), its streams bear a record of
the ABORT (09 R313, R322). -/
def dropStage (s : State) (d : Nat) (g : Stage) : State :=
  let s := { s with fab := { s.fab with txq := s.fab.txq.filter (fun f => f.origin != .reduce d) } }
  let s := pmDrop s (fun u => match u with
    | .localRead e _ => e == d
    | .redWrite e => e == d
    | _ => false)
  { s with
    red := { s.red with
      stages := tdel s.red.stages d
      aborted := (s.red.aborted.filter (fun a => !(stageStreams g).contains a)) ++ stageStreams g }
    dbg := { s.dbg with dumps := tdel s.dbg.dumps d } }

/-! The end of an update (10 R342, R344, R345). -/

/-- The PGD of a group. -/
def pgdAt (s : State) (p g : Nat) : Bytes := tgetD s.upd.pgd (p * 4096 + g) (List.replicate 128 0)

/-- The place of a PGD in the PGD area (10 R325). -/
def pgdAddr (s : State) (p g : Nat) : Nat :=
  (reg s 0x31000).toNat + 2 ^ 32 * (reg s 0x31004).toNat + (p * (reg s 0x31008).toNat + g) * 128

/-- Write a PGD through to the PGD area (10 R325). -/
def setPgd (s : State) (p g : Nat) (b : Bytes) : State :=
  let b := padTo 128 (b.take 128)
  emitMreq { s with upd := { s.upd with pgd := tset s.upd.pgd (p * 4096 + g) b } } true (pgdAddr s p g) 128 b [] none

/-- Replace `n` bytes of a byte string. -/
def patch (b : Bytes) (i n v : Nat) : Bytes := b.take i ++ leBytes n v ++ b.drop (i + n)

/-- RULE of a PGD. -/
def pgdRule (b : Bytes) : Nat := leAt b 0 1 % 16
/-- FROZEN. -/
def pgdFrozen (b : Bytes) : Bool := leAt b 0 1 / 16 % 2 == 1
/-- NF_ZERO. -/
def pgdNfZero (b : Bytes) : Bool := leAt b 0 1 / 32 % 2 == 1
/-- TORN. -/
def pgdTorn (b : Bytes) : Bool := leAt b 0 1 / 64 % 2 == 1
/-- N. -/
def pgdN (b : Bytes) : Nat := leAt b 4 4
/-- STEP. -/
def pgdStep (b : Bytes) : Nat := leAt b 48 8

/-- A Cadence record (10 R344). -/
def cadenceRec (s : State) (p g status flags step found : Nat) : Bytes :=
  leBytes 2 g ++ leBytes 1 p ++ leBytes 1 status ++ leBytes 1 flags ++ [0, 0, 0] ++ leBytes 8 step ++ leBytes 8 found ++
    leBytes 8 s.aon.ts

/-- Queue a Cadence record, or drop it (10 R345). -/
def queueCadence (s : State) (rec_ : Bytes) : State :=
  let named := match s.dom.policy with
    | some q => q.manager != 0xFFFF
    | none => false
  if isMember s && named && decide (s.upd.cadence.length < 4096) then
    { s with upd := { s.upd with cadence := s.upd.cadence ++ [rec_] } }
  else bump (setBits s 0x31010 0x10) 0x31038

/-- Queue the Cadence record of an update (10 R344). -/
def pushCadence (s : State) (p g status : Nat) (flags step found : Nat) : State :=
  queueCadence s (cadenceRec s p g status flags step found)

/-- The Cadence record of an update that has completed with ST_OK is queued after its completion record (10 R341). -/
def cadenceLate (s : State) (d : Nat) : State :=
  match tget s.upd.cadDue d with
  | none => s
  | some b => queueCadence { s with upd := { s.upd with cadDue := tdel s.upd.cadDue d } } b

/-- Flags byte of a Cadence record. -/
def cadenceFlags (pgd : Bytes) (phase : Nat) (torn : Bool) : Nat :=
  pgdRule pgd + 16 * phase + 64 * b2n (pgdFrozen pgd) + 128 * b2n torn

/-- The reduction that feeds an update has nobody to feed any more: its results are taken and discarded (10 R338). -/
def unfuseUpd (s : State) (d : Nat) : State :=
  let off := fun (f : Fuse) => if f.upd = some d then { f with upd := none, discard := true } else f
  { s with upd := { s.upd with fuses := (s.upd.fuses.filter (fun f => f.upd != some d || f.red.isSome)).map off } }

/-- End an update before its completion: torn when it has written state, one Cadence record, its work gone
(10 R342, R344). -/
def tearUpdate (s : State) (d status : Nat) : State :=
  match tget s.upd.runs d with
  | none => s
  | some u =>
    let s := if u.wrote then
        let b := pgdAt s u.part u.group
        let b := patch (patch b 0 1 (leAt b 0 1 % 64 + 64 + leAt b 0 1 / 128 * 128)) 80 8 u.step
        setBits (setPgd s u.part u.group b) 0x31010 2
      else s
    let s := pushCadence s u.part u.group status (cadenceFlags u.pgd u.phase u.wrote) u.step u.found
    let s := pmDrop s (fun x => match x with
      | .gradRead e _ => e == d
      | .copyWrite e => e == d
      | .normRead e => e == d
      | .normWrite e => e == d
      | _ => false)
    let s := unfuseUpd s d
    { s with
      upd := { s.upd with runs := tdel s.upd.runs d }
      dbg := { s.dbg with dumps := tdel s.dbg.dumps d } }

/-- End an update with a status. -/
def failUpdate (s : State) (d status : Nat) : State := completeDesc (tearUpdate s d status) d status 0

/-- The update fed by a stage ends with the stage's status (10 R338). -/
def endFused (s : State) (d status : Nat) : State :=
  match s.upd.fuses.find? (fun f => f.red = some d) with
  | none => s
  | some f =>
    let s := { s with upd := { s.upd with fuses := s.upd.fuses.filter (fun g => g.red != some d) } }
    match f.upd with
    | some u => failUpdate s u status
    | none => s

/-- A stage ends early: ABORT to its neighbours with the originating status and vertex, its slots freed, its fused
update ended (09 R322). -/
def abortStage (s : State) (d status origV origS : Nat) (except : Option (Nat × Bool)) : State :=
  match tget s.red.stages d with
  | none => s
  | some g =>
    let s := sendAborts s g origS origV except
    endFused (dropStage s d g) d status

/-- A stage fails with a status of its own: ABORT carries it and this block's vertex. -/
def failStage (s : State) (d status : Nat) : State :=
  completeDesc (abortStage s d status (s.dom.vertex.getD 0) status none) d status 0

/-! Squash (11 R368). -/

/-- Withdraw the frames of a descriptor that have not taken their tags (11 R368). -/
def dropTx (s : State) (d : Nat) : State :=
  let mine := fun (f : TxFrame) => match f.origin with
    | .signal e => e == d
    | .reduce e => e == d
    | .dump e _ => e == d
    | .copy e _ => (tget s.fab.copies e).any (fun c => c.desc == d)
    | _ => false
  { s with fab := { s.fab with txq := s.fab.txq.filter (fun f => !mine f) } }

/-- The chunks of a copy that are sent and not settled: in a tag, or applied at home (11 R368). -/
def copySent (s : State) (e : Nat) : Nat :=
  tcount s.fab.tags (fun _ t => match t.origin with
    | .copy k _ => k == e
    | _ => false) +
  tcount s.fab.homes (fun _ h => match h.who with
    | .chunk k _ => k == e
    | _ => false) +
  tcount s.mem.ops (fun _ o => match o.who with
    | .chunk k _ => k == e
    | _ => false)

/-- A squashed copy keeps the chunks that are sent; with none, its engine is free. -/
def squashCopies (s : State) (d : Nat) : State :=
  let cs := tmapV s.fab.copies (fun e c =>
    if c.desc = d then { c with squash := true, ready := [], out := copySent s e } else c)
  { s with fab := { s.fab with copies := tkeep cs (fun _ c => !(c.desc == d && c.out == 0)) } }

/-- Stop a descriptor on every unit that holds it; `status` is what neighbours and Cadence are told. -/
def squashUnits (s : State) (d status : Nat) : State :=
  let s := abortStage s d status (s.dom.vertex.getD 0) status none
  let s := tearUpdate s d status
  let s := { s with upd := { s.upd with fuses := s.upd.fuses.filter (fun f => f.upd != some d || f.red.isSome) } }
  let s := pmDrop s (fun u => match u with
    | .copyRead e _ => (tget s.fab.copies e).any (fun c => c.desc == d)
    | _ => false)
  let s := squashCopies (dropTx s d) d
  { s with
    fab := { s.fab with
      waits := s.fab.waits.filter (fun w => w.desc != d)
      fences := s.fab.fences.filter (fun f => f.desc != d) }
    mem := { s.mem with drains := s.mem.drains.filter (fun x => x.desc != d) } }

/-- Squash the running descriptors of a context; each still owes its record (11 R353, R369). -/
def squashRunning (s : State) (c : Nat) : State :=
  s.parts.desc.foldl (fun s p =>
    if p.2.ctx = c ∧ p.2.phase = .running then
      setDesc (squashUnits s p.1 stContextReset) p.1 { p.2 with phase := .squashed }
    else s) s

/-- A context becomes FAULTED: the fault is recorded, its running work squashed (11 R353, 12 R390). -/
def faultCtx (s : State) (c status queue index : Nat) : State :=
  match ctxAt s c with
  | none => s
  | some x =>
    if x.faulted then s
    else
      let s := setCtx s c { x with faulted := true, fStatus := status, fQueue := queue, fIndex := index }
      let s := match x.slot with
        | some sl => setBits s (cxOff sl 0x14) 2
        | none => s
      let s := setBits s (ptOff x.part 0x40) 4
      squashRunning s c

/-- The contexts of descriptors that consumed poison become FAULTED. -/
def settleFaults (s : State) : State :=
  let due := s.parts.faultDue
  let s := { s with parts := { s.parts with faultDue := [] } }
  due.foldl (fun s d => match descAt s d with
    | some x => faultCtx s x.ctx stPoisoned x.queue x.index
    | none => s) s

/-- RESULT of a descriptor that ends before its work is over (11 R366): the chunks of a copy that have retired with ST_OK, the epoch
that a publish or an invalidate finds current. -/
def resultNow (s : State) (d : Nat) (x : Desc) : Nat :=
  if x.opcode = 1 then ((tfind s.fab.copies (fun _ c => c.desc == d)).map (fun c => c.2.okN)).getD 0
  else if x.opcode = 4 ∨ x.opcode = 5 then ((tget s.mem.region (leAt x.raw 8 4 % 4096)).map (·.epoch)).getD 0
  else 0

/-- Squash a descriptor and fix its status (11 R367, R368). -/
def squashDesc (s : State) (d status : Nat) : State :=
  match descAt s d with
  | some x => completeDesc (squashUnits s d status) d status (resultNow s d x)
  | none => s

/-! The dirty-page log (11 R374). -/

/-- Entries that a log of this many pages holds. -/
def logRoom (pages : Nat) : Nat := (pages * 4096 - 64) / 8

/-- Change the log of a partition. -/
def modLog (s : State) (p : Nat) (f : DirtyLog → DirtyLog) : State :=
  let r := partAt s p
  setPart s p { r with log := f r.log }

/-- Write the head of a log: COUNT, OVERFLOW and ACTIVE. -/
def logHead (s : State) (p : Nat) : State :=
  let l := (partAt s p).log
  emitMreq s true l.base 64 (leBytes 8 l.count ++ leBytes 1 (b2n l.overflow + 2 * b2n l.active) ++ List.replicate 55 0) [] none

/-- A log that is to stop stops once no page is due and no entry is being written. -/
def logSettle (s : State) (p : Nat) : State :=
  let l := (partAt s p).log
  if l.active && l.ending && l.due.isEmpty && l.out.isNone then
    logHead (modLog s p (fun l => { l with active := false, ending := false })) p
  else s

/-- Log the first page that is due: its entry is written; a page for which there is no room sets OVERFLOW. -/
def logPage (s : State) (p : Nat) : State :=
  let l := (partAt s p).log
  match l.due with
  | [] => s
  | (g, i) :: rest =>
    if !l.active ∨ l.out.isSome then s
    else if l.count < logRoom l.pages then
      pmReq (modLog s p (fun l => { l with due := rest, out := some (g, i) })) (.logEntry p) true (l.base + 64 + 8 * l.count) 8
        (leBytes 8 (i % 16 + 16 * (g % 2 ^ 52))) [] none
    else if l.overflow then logSettle (modLog s p (fun l => { l with due := rest })) p
    else logSettle (setBits (logHead (modLog s p (fun l => { l with due := rest, overflow := true })) p) (ptOff p 0x40) 2) p

/-- The write of an entry has been answered: COUNT rises, and covers it; one that failed is due again. -/
def logAnswer (s : State) (p : Nat) (err : Bool) (addr : Nat) : State :=
  match (partAt s p).log.out with
  | none => s
  | some x =>
    if err then ioEvent (modLog s p (fun l => { l with out := none, due := x :: l.due })) 0xFF 0 stInternal 0 p 0 addr
    else logSettle (logHead (modLog s p (fun l => { l with out := none, count := l.count + 1, filter := (x :: l.filter).take 1024 })) p) p

/-- STOP: the pages that are due are still logged (11 R373, R374). -/
def logStop (s : State) (p : Nat) : State := logSettle (modLog s p (fun l => { l with ending := l.active })) p

end Sys2Proof.Machine
end

