-- ==== Sys2Proof/Machine/Answer.lean ====
section
/-! DEFINITION. Answers to requests: responses and acknowledgement records, segments of core-side requests, chunks
of copies, signals; and the home's operations on package memory (07 R219 to R224, R238 to R246, R470). -/

namespace Sys2Proof.Machine

/-- KIND of a request (07 R222). -/
abbrev kLoad : Nat := 1
/-- STORE. -/
abbrev kStore : Nat := 2
/-- ATOMIC. -/
abbrev kAtomic : Nat := 3
/-- COPY. -/
abbrev kCopy : Nat := 4

/-! Acknowledgement records (07 R224). -/

/-- Gather a record for a peer and class. -/
def pushEack (s : State) (peer tc rtag status : Nat) (dup : Bool) : State :=
  let k := peer * 8 + tc
  let r := tgetD s.fab.eackQ k []
  { s with fab := { s.fab with eackQ := tset s.fab.eackQ k (r ++ [{ rtag := rtag, status := status, dup := dup }]) } }

/-- Payload of a response (07 R223). -/
def rspPayload (rtag kind status beats poison : Nat) (data : Bytes) : Bytes :=
  leBytes 4 rtag ++ leBytes 1 kind ++ leBytes 1 status ++ leBytes 1 (beats + 32 * b2n (poison != 0)) ++ [0] ++
    [0, 0, 0, 0] ++ leBytes 4 poison ++ data

/-- Queue a response on the request's stream in the reverse direction (07 R223, R225). -/
def pushRsp (s : State) (src tc stream rtag kind beats status poison : Nat) (data : Bytes)
    (opn : Option (Nat × Nat)) (comb : Option (Nat × Nat × Nat)) : State :=
  let ok := status == stOk
  let f := { TxFrame.blank with dst := src, owner := ownerOf stream, tc := tc, sub := subOf stream, op := opRsp,
                                comb := comb }
  match opn with
  | some (a, o) =>
    pushTx s { f with cclass := 1, addr := a, aop := o, operand := if ok then ofLe (data.take 8) else 0,
                      payload := rspPayload rtag kind status 0 0 [] }
  | none =>
    pushTx s { f with payload := if ok then rspPayload rtag kind status beats poison data
                                 else rspPayload rtag kind status 0 0 [] }

/-! Core-side requests (02 R41, 07 R221). -/

/-- The key of a target request: port and transaction ID. -/
def csKey (port tid : Nat) : Nat := port * 4096 + tid

/-- A segment has come back. -/
def setSeg (s : State) (port tid seg status : Nat) (data : Bytes) (poison : Nat) : State :=
  match tget s.fab.reqs (csKey port tid) with
  | none => s
  | some r => { s with fab := { s.fab with
      reqs := tset s.fab.reqs (csKey port tid)
        { r with segs := r.segs.set seg { status := some status, data := data, poison := poison } } } }

/-- Answer a target request that is refused before anything leaves the block (02 R40, R41). -/
def csRefuse (s : State) (port tid op beats status : Nat) : State :=
  emit s (.csRsp port tid [] (if op = 0 then beats else 1) true status 0)

/-! Copies (07 R242, R244). -/

/-- Chunks of a copy. -/
def copyChunks (c : Copy) : Nat := ceilDiv c.len (c.beats * 128)

/-- Bytes of chunk `i`. -/
def chunkLen (c : Copy) (i : Nat) : Nat := min (c.beats * 128) (c.len - i * c.beats * 128)

/-- Issue source reads, at most `n`, while fewer than 512 chunks are outstanding (07 R242). -/
def pumpCopy : Nat → State → Nat → State
  | 0, s, _ => s
  | n + 1, s, e =>
    match tget s.fab.copies e with
    | none => s
    | some c =>
      if c.squash ∨ c.poisoned ∨ 512 ≤ c.out ∨ copyChunks c ≤ c.next then s
      else
        let i := c.next
        let s := { s with fab := { s.fab with copies := tset s.fab.copies e { c with next := i + 1, out := c.out + 1 } } }
        let pasid := ((descAt s c.desc).map (·.pasid)).getD 0
        pumpCopy n (pmReq s (.copyRead e i) false (c.src + i * c.beats * 128) (chunkLen c i) [] [] (some pasid)) e

/-- The copy is over: its descriptor completes, its engine is free (07 R244, 12 R390). -/
def finishCopy (s : State) (e : Nat) : State :=
  match tget s.fab.copies e with
  | none => s
  | some c =>
    if c.out ≠ 0 ∨ (!c.squash && !c.poisoned && decide (c.next < copyChunks c)) then s
    else
      let s := { s with fab := { s.fab with copies := tdel s.fab.copies e } }
      if c.squash then s
      else completeDesc s c.desc (if c.poisoned then stPoisoned else (c.bad.map (·.2)).getD stOk) c.okN

/-- One chunk is settled with a status (07 R244). -/
def chunkDone (s : State) (e chunk status : Nat) : State :=
  match tget s.fab.copies e with
  | none => s
  | some c =>
    let bad := if status = stOk then c.bad
      else match c.bad with
        | some (j, t) => if chunk < j then some (chunk, status) else some (j, t)
        | none => some (chunk, status)
    let c := { c with out := c.out - 1, bad := bad, okN := c.okN + b2n (status == stOk),
                      ready := tdel c.ready chunk }
    let s := { s with fab := { s.fab with copies := tset s.fab.copies e c } }
    finishCopy (pumpCopy 1 s e) e

/-! Signals (07 R246, 11 R370). -/

/-- The response to a signal's ADD has come: an abandoned signal first notes its ABANDONED word; that of a squashed one is discarded
(11 R368). -/
def signalDone (s : State) (d status old : Nat) : State :=
  match s.parts.abandon.find? (fun a => a.1 == d) with
  | some _ => { s with parts := { s.parts with
      abandon := s.parts.abandon.map (fun a => if a.1 = d then (d, true) else a) } }
  | none => match descAt s d with
    | some x => if x.phase = .squashed then s else completeDesc s d (if x.quiet then stAbandoned else status) old
    | none => s

/-- A write that a fence may cover has failed (07 R247). -/
def noteFailed (s : State) (ctx epoch ord dst via tc status : Nat) : State :=
  { s with fab := { s.fab with
    failed := s.fab.failed ++ [{ ctx := ctx, epoch := epoch, ord := ord, dst := dst, via := via, tc := tc, status := status }] } }

/-- A number in the order of issue of writes (07 R247). -/
def takeOrd (s : State) : Nat × State := (s.fab.ord, { s with fab := { s.fab with ord := s.fab.ord + 1 } })

/-! Answering whoever asked. -/

/-- Note the outcome of an update's page: data of a read page, or one write less outstanding (10 R341). -/
def tileDone (s : State) (d tile page : Nat) (write : Bool) (status : Nat) (data : Bytes) (poison : Bool) : State :=
  match tget s.upd.runs d with
  | none => s
  | some u =>
    let u :=
      if write then { u with wOut := u.wOut - 1, failed := if status = stOk then u.failed else some (u.failed.getD status) }
      else
        let t := tgetD u.tiles tile { pages := [], grad := none, poisoned := false }
        let u := { u with tiles := tset u.tiles tile { t with pages := tset t.pages page data,
                                                              poisoned := t.poisoned || poison } }
        if status = stOk then u else { u with failed := some (u.failed.getD status) }
    { s with upd := { s.upd with runs := tset s.upd.runs d u } }

/-- Answer: status, data and poisoned beats of an operation; `write` says whether it wrote. -/
def answer (s : State) (w : Who) (write : Bool) (status : Nat) (data : Bytes) (poison : Nat) : State :=
  match w with
  | .frame src tc stream rtag kind beats opn comb =>
    if kind = kLoad ∨ kind = kAtomic then pushRsp s src tc stream rtag kind beats status poison data opn comb
    else pushEack s src tc rtag status false
  | .core port tid seg => setSeg s port tid seg status data (if status = stPoisoned then 1 else poison)
  | .chunk e i => chunkDone s e i status
  | .signal d => signalDone s d status (ofLe (data.take 8))
  | .tile d t g => tileDone (poisonEaten s poison) d t g write status data (poison != 0)
  | .copyLine d => tileDone s d 0 0 true status [] false
  | .hot _ _ => s
  | .part i => { s with fab := { s.fab with homes := tmod s.fab.homes i (fun o =>
      { o with wait := o.wait - 1, status := if o.status = stOk then status else o.status }) } }

/-! Atomics (02 R39, 07 R238, R239). -/

/-- Operand width of an atomic in bytes. -/
def aopWidth (aop : Nat) : Nat :=
  if aop = 1 ∨ aop = 3 ∨ aop = 6 ∨ aop = 9 ∨ aop = 0xB ∨ aop = 0xD then 8 else 4

/-- Whether an encoding is listed. -/
def aopListed (aop : Nat) : Bool := aop ≤ 0xD && aop != 7

/-- The value an atomic writes (02 R39, 07 R238): old value and the 16 operand bytes. -/
def aopApply (aop old : Nat) (operand : Bytes) : Nat :=
  let w := aopWidth aop
  let m := 2 ^ (8 * w)
  let a := leAt operand 0 w
  let b := leAt operand 8 w
  match aop with
  | 0 | 1 | 8 | 9 => (old + a) % m
  | 2 | 3 => if old = a then b else old
  | 4 => f32.add old a
  | 5 | 6 => a
  | 0xA | 0xB => min old a
  | _ => max old a

/-! The home on package memory (07 R219, R220). -/

/-- Whether a request of OWNER may reach bytes `addr` to `addr + len - 1` of its fabric window, and the open window
for an open atomic (07 R219). -/
def homeScope (s : State) (owner addr len : Nat) (opn : Bool) : Nat :=
  if owner = 0 then stNotPermitted
  else
    let r := partAt s (owner - 1)
    if !r.live then stNotPermitted
    else if r.resetting then stContextReset
    else if r.tdisp = 3 then stNotPermitted
    else if r.freezing ∨ r.frozen then stBusy
    else if r.fwinPages * 4096 < addr + len then stNotPermitted
    else if opn ∧ (addr < r.owinBase * 4096 ∨ (r.owinBase + r.owinPages) * 4096 < addr + len) then stNotPermitted
    else stOk

/-- The lines of package memory that an operation reads or writes: first and last of each run. -/
def homeSpans (o : HomeOp) : List (Nat × Nat) :=
  (if o.len = 0 then [] else [((o.base + o.addr) / 64, (o.base + o.addr + o.len - 1) / 64)]) ++ (match o.arrival with
    | some a => [((o.base + a) / 64, (o.base + a + 7) / 64)]
    | none => [])

/-- Two operations of one partition exclude each other: they meet on a line, and one of them writes (07 R220, R250). One whose
data go to a region's lines meets nothing before it comes to its counter. -/
def homeConflict (a b : HomeOp) : Bool :=
  a.part == b.part && a.phase != 5 && b.phase != 5 && !(a.kind == kLoad && b.kind == kLoad) &&
  (homeSpans a).any (fun x => (homeSpans b).any (fun y => decide (x.1 ≤ y.2) && decide (y.1 ≤ x.2)))

/-- Replace an operation of the home. -/
def homeSet (s : State) (i : Nat) (o : HomeOp) : State := { s with fab := { s.fab with homes := tset s.fab.homes i o } }

/-- Read the arrival counter of an operation. -/
def readArrival (s : State) (i : Nat) (o : HomeOp) : State :=
  pmReq (homeSet s i { o with phase := 3 }) (.home i) false (o.base + (o.arrival.getD 0) / 128 * 128) 128 [] [] (some o.pasid)

/-- Issue an operation's first access. -/
def issueHome (s : State) (i : Nat) (o : HomeOp) : State :=
  let pasid := some o.pasid
  let go := fun (s : State) (ph : Nat) => homeSet s i { o with phase := ph }
  if o.phase = 6 then readArrival s i o
  else if o.kind = kLoad then pmReq (go s 1) (.home i) false (o.base + o.addr) o.len [] [] pasid
  else if o.kind = kAtomic then
    pmReq (go s 1) (.home i) false (o.base + o.addr / 128 * 128) 128 [] [] pasid
  else pmReq (go s 2) (.home i) true (o.base + o.addr) o.len o.data o.mask pasid

/-- Start the operations that wait: none that an earlier one excludes, or one that is at work (07 R250). -/
def pumpHomes (s : State) : State :=
  let busy := fun (s : State) (o : HomeOp) => s.fab.homes.any (fun p => p.2.phase != 0 && p.2.phase != 6 && homeConflict p.2 o)
  (s.fab.homes.foldl (fun (a : State × List HomeOp) p =>
    if (p.2.phase = 0 ∨ p.2.phase = 6) ∧ !a.2.any (homeConflict p.2) ∧ !busy a.1 p.2 then (issueHome a.1 p.1 p.2, a.2 ++ [p.2])
    else (a.1, a.2 ++ [p.2])) (s, [])).1

/-- Take an operation. -/
def startHome (s : State) (o : HomeOp) : State :=
  let s := { s with fab := { s.fab with
    homes := tset s.fab.homes s.fab.nextHome { o with phase := 0 }, nextHome := s.fab.nextHome + 1 } }
  pumpHomes s

/-- An operation is over: answer, and let the next on its line go. -/
def endHome (s : State) (i : Nat) (o : HomeOp) (status : Nat) (data : Bytes) (poison : Nat) : State :=
  let s := { s with fab := { s.fab with homes := tdel s.fab.homes i } }
  let own := s.dom.vertex.getD 0
  let s := if o.cover ∧ status ≠ stOk then noteFailed s o.ctx o.fepoch o.ord own own o.tc status else s
  pumpHomes (answer s o.who (o.kind != kLoad) status data poison)

/-- Operations whose lines of a region have all been written go on: to their arrival counter, in its turn, or to their answer
(07 R243). -/
def settleHomes (s : State) : State :=
  (s.fab.homes.filter (fun p => p.2.phase == 5 && p.2.wait == 0)).foldl (fun s p =>
    let o := p.2
    match o.arrival with
    | none => endHome s p.1 o o.status [] 0
    | some a =>
      if o.status ≠ stOk then endHome s p.1 o o.status [] 0
      else if o.pages * 4096 < a + 8 then endHome s p.1 o stNotPermitted [] 0
      else pumpHomes (homeSet s p.1 { o with phase := 6 })) s

/-! Waits (07 R245; 11 R366). -/

/-- The check of a wait whose counter holds `v`. -/
def waitSees (s : State) (d v : Nat) : State :=
  match s.fab.waits.find? (fun w => w.desc == d) with
  | none => s
  | some w =>
    if w.expired ∨ w.threshold ≤ v then
      completeDesc { s with fab := { s.fab with waits := s.fab.waits.filter (fun w => w.desc != d) } } d
        (if w.expired then stTimeout else stOk) v
    else s

/-- A wait's counter is read, in the address space of the partition's lowest PASID. -/
def readWait (s : State) (w : Wait) : State :=
  let r := partAt s w.part
  pmReq s (.waitRead w.desc) false (r.fwinBase + w.addr) 8 [] [] (some (lowestPasid r))

/-- The waits of a partition whose counter lies in the bytes just written from `addr` of package memory on: one that is wholly
written sees its new value, another is read. -/
def waitsWritten (s : State) (part addr : Nat) (data : Bytes) (mask : List Bool) : State :=
  s.fab.waits.foldl (fun s w =>
    let c := (partAt s part).fwinBase + w.addr
    let i := c - addr
    if w.part ≠ part ∨ addr + data.length ≤ c ∨ c + 8 ≤ addr then s
    else if addr ≤ c ∧ c + 8 ≤ addr + data.length ∧ (mask.isEmpty ∨ (slice mask i 8).all id) then waitSees s w.desc (leAt data i 8)
    else readWait s w) s

/-- A write of an engine has been done: the waits whose counter lies in it are checked. -/
def waitsTouched (s : State) (pasid : Option Nat) (addr len : Nat) : State :=
  match pasid.bind (partOfPasid s) with
  | none => s
  | some p =>
    (s.fab.waits.filter (fun w => w.part == p && decide (addr < (partAt s p).fwinBase + w.addr + 8) &&
      decide ((partAt s p).fwinBase + w.addr < addr + len))).foldl readWait s

/-- A masked copy of bytes over old ones. -/
def overlay : Bytes → Bytes → List Bool → Bytes
  | [], _, _ => []
  | o :: os, [], _ => o :: os
  | _ :: os, d :: ds, [] => d :: overlay os ds []
  | o :: os, d :: ds, m :: ms => (if m then d else o) :: overlay os ds ms

/-- The counter at an offset, read back from the 128-byte beat that holds it, one higher: its beat. -/
def putIn (beat : Bytes) (i n v : Nat) : Bytes := beat.take i ++ leBytes n v ++ beat.drop (i + n)

/-- Byte enables of `n` bytes at position `i` of a 128-byte beat. -/
def maskAt (i n : Nat) : List Bool := (List.range 128).map (fun j => decide (i ≤ j) && decide (j < i + n))

/-- The response to an operation's access (02 R43; 07 R243, R470). -/
def homeResponse (s : State) (i : Nat) (err : Bool) (poison : Nat) (data : Bytes) : State :=
  match tget s.fab.homes i with
  | none => s
  | some o =>
    let pasid := some o.pasid
    if err then endHome (ioEvent s 0xFF 0 stInternal 0 o.part o.ctx (o.base + o.addr)) i o stInternal [] 0
    else if o.phase = 1 ∧ o.kind = kLoad then endHome s i o stOk data poison
    else if o.phase = 1 then
      if poison ≠ 0 then endHome s i o stPoisoned [] 0
      else
        let w := aopWidth o.aop
        let at_ := o.addr % 128
        let old := leAt data at_ w
        let beat := putIn data at_ w (aopApply o.aop old o.operand)
        pmReq (homeSet s i { o with phase := 2, old := leBytes w old, data := beat }) (.home i) true
          (o.base + o.addr / 128 * 128) 128 beat (maskAt at_ w) pasid
    else if o.phase = 2 ∧ o.kind = kAtomic then
      let off := o.addr / 8 * 8
      endHome (waitsWritten s o.part (o.base + off) (slice o.data (off % 128) 8) []) i o stOk (padTo 16 o.old) 0
    else if o.phase = 2 then
      let s := waitsWritten s o.part (o.base + o.addr) o.data o.mask
      match o.arrival with
      | none => endHome s i o stOk [] 0
      | some a =>
        if o.pages * 4096 < a + 8 then endHome s i o stNotPermitted [] 0
        else readArrival s i o
    else if o.phase = 3 then
      let a := o.arrival.getD 0
      if poison ≠ 0 then endHome s i o stPoisoned [] 0
      else
        let v := (leAt data (a % 128) 8 + 1) % 2 ^ 64
        pmReq (homeSet s i { o with phase := 4, old := leBytes 8 v }) (.home i) true (o.base + a / 128 * 128) 128
          (putIn data (a % 128) 8 v) (maskAt (a % 128) 8) pasid
    else endHome (waitsWritten s o.part (o.base + o.arrival.getD 0) o.old []) i o stOk [] 0

end Sys2Proof.Machine
end

