-- ==== Sys2Proof/Machine/Links.lean ====
section
/-! DEFINITION. Lanes: fencing, starting, flit retry and placement of frames; stream contexts and Chords as both
directions use them (06 R190 to R211). -/

namespace Sys2Proof.Machine

/-- A lane by its number port * 8 + lane. -/
def laneAt (s : State) (k : Nat) : Lane := tgetD s.links.lane k Lane.down

/-- Replace a lane. -/
def setLane (s : State) (k : Nat) (l : Lane) : State :=
  { s with links := { s.links with lane := tset s.links.lane k l } }

/-- The lanes of a port. -/
def lanesOf (port : Nat) : List Nat := (List.range 8).map (port * 8 + ·)

/-- Whether a port is present (00 R4, 14 R447). -/
def portOk (s : State) (port : Nat) : Bool := decide (port < lpCount s.size)

/-- LANE_ALLOW of a lane. -/
def laneAllow (s : State) (k : Nat) : Bool := wbit (reg s (lpOff (k / 8) 0)) (k % 8)

/-- Whether an L2 isolates a port (12 R398). -/
def portIsolated (s : State) (port : Nat) : Bool := s.ladder.isolated.contains port

/-- Whether a port has a lane in service. -/
def portServes (s : State) (port : Nat) : Bool := (lanesOf port).any (fun k => (laneAt s k).inService)

/-- Whether this instance drives the lanes: always, but for the standby of a pair (02 R53). -/
def drivesLanes (s : State) : Bool := serves s

/-- The partition an OWNER names. -/
def ownerPart (owner : Nat) : Option Nat := if owner = 0 then none else some (owner - 1)

/-- Keep the complete frames of a lane's staging; the partial one is discarded (06 R197). -/
def keepWhole : Nat → List Bytes → List Bytes
  | 0, _ => []
  | _ + 1, [] => []
  | n + 1, f :: t =>
    let k := nflOf f
    if k ≤ t.length + 1 then (f :: t).take k ++ keepWhole n ((f :: t).drop k) else []

/-- Frames of these tags move to another lane as soon as their records stand in memory (06 R211, 07 R231). -/
def markMoves (s : State) (tags : List Nat) : State :=
  { s with fab := { s.fab with tags := tmapV s.fab.tags (fun t e => if tags.contains t then { e with move := true } else e) } }

/-- Tags of the frames with a flit in a lane's replay buffer. -/
def unackedTags (l : Lane) : List Nat := l.replay.flatMap (·.tags)

/-- Ask for a reset of the ladder (12 R394). -/
def askReset (s : State) (level unit port cause : Nat) (byLast : Bool) : State :=
  { s with ladder := { s.ladder with queue := s.ladder.queue ++
      [{ level := level, unit := unit, port := port, cause := cause, start := s.aon.ts, byLast := byLast, step := 0, done := false }] } }

/-- Fence a lane (06 R197). A lane already fenced keeps its earlier cause. The fence of the last lane in service of a
port asks for an L2 (12 R398). -/
def fenceLane (s : State) (k cause : Nat) : State :=
  let l := laneAt s k
  if l.cause ≠ 0 then s
  else
    let port := k / 8
    let s := setLane s k { Lane.down with up := l.up, cause := cause, staging := keepWhole 20 l.staging }
    let s := markMoves (setBits s (lpOff port 0x10) 1) (unackedTags l)
    let s := if cause = 2 ∨ cause = 3 ∨ cause = 6 then occur s (mkRec 0x15 0xFF port (k % 8) 0 cause 0 0 0 0) none else s
    if l.inService && cause != 5 && !portServes s port && !portIsolated s port then askReset s 2 0xFF port 0x15 true
    else s

/-- Present a control flit on a lane (06 R194). -/
def sendCtl (s : State) (k ctype : Nat) (busy : Bool) (fseq : Nat) : State :=
  emit s (.ctl (k / 8) (k % 8) ctype busy (fseq % 4096))

/-- The L2 that follows the fence of a port's last lane in service is still to come (06 R197; 12 R398). -/
def isolating (s : State) (port : Nat) : Bool :=
  s.ladder.queue.any (fun q => q.level == 2 && q.port == port && q.byLast && !q.done)

/-- Start a lane where 06 R198 allows it: tvd_lp_lane_en rises and INIT is sent. No lane of a port that is being
isolated starts (log 30). -/
def startLane (s : State) (k : Nat) : State :=
  let l := laneAt s k
  if s.aon.ready && !s.aon.haltReq && drivesLanes s && clkRuns s && l.up && laneAllow s k && l.cause == 0 &&
      !l.started && !portIsolated s (k / 8) && !isolating s (k / 8) then
    sendCtl (setLane s k { l with started := true, startAt := s.aon.ts }) k 1 false 0
  else s

/-- A fenced lane returns: its cause goes and it starts (06 R197, R198); while its LANE_ALLOW bit is 0 it is fenced with cause 4
instead (06 R215). -/
def returnLane (s : State) (k : Nat) : State :=
  let s := setLane s k { laneAt s k with cause := 0 }
  if laneAllow s k then startLane s k else fenceLane s k 4

/-- The lane enters service, or its far end has restarted (06 R198). -/
def initLane (s : State) (k : Nat) : State :=
  let l := laneAt s k
  if !l.started then s
  else
    let fresh := { l with inService := true, txSeq := 0, replay := [], replayTimes := [], busyWait := none, e := 0,
                          discard := false, num := none, unacked := 0, staging := keepWhole 20 l.staging, skip := 0 }
    let tags := if l.inService then unackedTags l else []
    markMoves (setLane s k fresh) tags

/-- Send a frame's flits on a lane: they enter the replay buffer, and at a synchronised owner their beats wait for
the confirmation of the newest record (06 R193, R196; 12 R410). -/
def sendFlits (s : State) (k : Nat) (cs : List Bytes) (tags : List Nat) (part : Option Nat) : State :=
  let l := laneAt s k
  let new := cs.zipIdx.map (fun x =>
    { fseq := (l.txSeq + x.2) % 4096, data := x.1, tags := tags, at_ := s.aon.ts, replays := 0 : RepFlit })
  let s := setLane s k { l with txSeq := (l.txSeq + cs.length) % 4096, replay := l.replay ++ new }
  let s := emitsHeld s [.flits (k / 8) (k % 8) (cs.map dataFlit)]
  countAon (countEv s (0x010 + k / 8) part cs.length) 0 cs.length

/-- Position of a flit number in a replay buffer. -/
def repIdx (l : Lane) (fseq : Nat) : Option Nat := l.replay.findIdx? (fun f => f.fseq == fseq)

/-- An ACK or NAK frees the buffer up to its flit; progress ends the counts of REPLAYs and restarts the wait of the
oldest flit (06 R196, R197). -/
def ackLane (s : State) (k fseq : Nat) : State :=
  let l := laneAt s k
  match repIdx l fseq with
  | none => s
  | some i => setLane s k { l with
      replay := (l.replay.drop (i + 1)).map (fun f => { f with replays := 0, at_ := s.aon.ts }), busyWait := none }

/-- Send REPLAY and resend from position `i` of the buffer (06 R196); the eighth REPLAY of one flit, or the 64th
within 1 ms, fences the lane instead of resending (06 R197 cause 2). -/
def replayFrom (s : State) (k i : Nat) : State :=
  let l := laneAt s k
  let first := l.replay[i]?
  let f := (first.map (·.fseq)).getD l.txSeq
  let times := l.replayTimes.filter (fun t => s.aon.ts < t + 1000000) ++ [s.aon.ts]
  let n := (first.map (·.replays)).getD 0 + 1
  let rep := l.replay.zipIdx.map (fun x => if x.2 = i then { x.1 with replays := n, at_ := s.aon.ts }
    else if i < x.2 then { x.1 with at_ := s.aon.ts } else x.1)
  let s := setLane s k { l with replay := rep, replayTimes := times, busyWait := none }
  let s := sendCtl s k 4 false f
  let s := countAon (countEv (bump s (lpOff (k / 8) 0x24)) (0x028 + k / 8) none 1) 4 1
  if 8 ≤ n ∨ 64 ≤ times.length then fenceLane s k 2
  else
    let again := rep.drop i
    if again.isEmpty then s
    else
      let s := emits s [.flits (k / 8) (k % 8) (again.map (fun x => dataFlit x.data))]
      let s := again.foldl (fun s x =>
        let owner := ((x.tags.head?).bind (tget s.fab.tags)).map (·.owner)
        countEv s (0x010 + k / 8) (owner.bind ownerPart) 1) s
      countAon s 0 again.length

/-- A NAK frees what it covers; REPLAY follows at once, or 200 ns later when BUSY is set (06 R196). -/
def nakLane (s : State) (k : Nat) (busy : Bool) (fseq : Nat) : State :=
  if !(laneAt s k).inService then s
  else
    let s := ackLane s k fseq
    let l := laneAt s k
    if busy then setLane s k { l with busyWait := some ((fseq + 1) % 4096) }
    else replayFrom s k ((repIdx l ((fseq + 1) % 4096)).getD 0)

/-- The receiver asks for a replay: discard state, and NAK with E - 1 (06 R195). -/
def sendNak (s : State) (k : Nat) (busy : Bool) : State :=
  let l := laneAt s k
  sendCtl (setLane s k { l with discard := true, num := none }) k 3 busy (l.e + 4095)

/-- A REPLAY renumbers the flits that follow; one above E is a protocol error (06 R195). -/
def replayLane (s : State) (k f : Nat) : State :=
  let l := laneAt s k
  if !l.inService then s
  else
    let d := (f + 4096 - l.e) % 4096
    if 0 < d ∧ d < 2048 then fenceLane s k 6
    else setLane s k { l with num := some f }

/-- Acknowledge what has been accepted (06 R195). -/
def ackNow (s : State) (k : Nat) : State :=
  let l := laneAt s k
  sendCtl (setLane s k { l with unacked := 0 }) k 2 false (l.e + 4095)

/-- Accept a data flit as flit E (06 R195); the rest of a frame that has been discarded is discarded too. -/
def acceptFlit (s : State) (k : Nat) (content : Bytes) : State :=
  let l := laneAt s k
  let s := setLane s k { l with
    e := (l.e + 1) % 4096, discard := false, num := none, unacked := l.unacked + 1
    staging := if l.skip = 0 then l.staging ++ [content] else l.staging
    skip := l.skip - 1 }
  let s := countAon s 1 1
  if 128 ≤ l.unacked + 1 then ackNow s k else s

/-- A data flit that passes its CRC (06 R195). -/
def dataFlitRx (s : State) (k : Nat) (content : Bytes) : State :=
  let l := laneAt s k
  match l.num with
  | some n =>
    if n ≠ l.e then setLane s k { l with num := some ((n + 1) % 4096) }
    else if 20 ≤ l.staging.length then sendNak s k true
    else acceptFlit s k content
  | none =>
    if l.discard then s
    else if 20 ≤ l.staging.length then sendNak s k true
    else acceptFlit s k content

/-- A complete flit on a lane (06 R180, R195). -/
def flitRx (s : State) (k : Nat) (f : Bytes) : State :=
  let l := laneAt s k
  if !l.started then s
  else match flitClass f with
    | .data => if l.inService then dataFlitRx s k (f.take 252) else s
    | .failed =>
      let s := countEv (bump s (lpOff (k / 8) 0x20)) (0x020 + k / 8) none 1
      if l.inService then sendNak s k false else s
    | .control =>
      let busy := leAt f 1 1 % 2 == 1
      let fseq := leAt f 2 2 % 4096
      match leAt f 0 1 with
      | 1 => initLane s k
      | 2 => if l.inService then ackLane s k fseq else s
      | 3 => nakLane s k busy fseq
      | 4 => replayLane s k fseq
      | _ => fenceLane s k 6

/-! Placement (06 R209, R210). -/

/-- The Derailleur entry of a vertex. -/
def drlEntry (s : State) (dst : Nat) : Word := reg s (0x18000 + 4 * (dst / 64))

/-- EFFECTIVE of a PORTS field (06 R209). -/
def effective (s : State) (ports : Nat) : List Nat :=
  let live := (List.range (lpCount s.size)).filter (portServes s)
  let inn := live.filter (fun p => ports / 2 ^ p % 2 == 1)
  if inn.isEmpty then live else inn

/-- Lanes of a port that are in service and have room for `n` more flits (06 R196). -/
def roomyLanes (s : State) (n port : Nat) : List Nat :=
  (lanesOf port).filter (fun k => (laneAt s k).inService && decide ((laneAt s k).replay.length + n ≤ 512))

/-- The port on which SPRAY 0 keeps a stream, while it stays in EFFECTIVE (06 R210). -/
def stickyPort (s : State) (dst stream : Nat) (eff : List Nat) : Option Nat :=
  let src := s.dom.vertex.getD 0
  let hash := eff[Config.laneHash stream src dst % eff.length]?
  let one := match eff with
    | [p] => some p
    | _ => hash
  match tget s.links.sticky (streamKey dst stream false) with
  | some p => if eff.contains p then some p else one
  | none => one

/-- The egress queue of a port: the flits that its lanes have taken and the far end has not acknowledged. DEDUCED (log 30). -/
def portQueue (s : State) (port : Nat) : Nat := ((lanesOf port).map (fun k => (laneAt s k).replay.length)).foldl (· + ·) 0

/-- The ports of a list whose egress queue is shortest, among those with room for `n` flits. -/
def shortest (s : State) (n : Nat) (ports : List Nat) : List Nat :=
  let open_ := ports.filter (fun p => !(roomyLanes s n p).isEmpty)
  open_.filter (fun p => open_.all (fun q => decide (portQueue s p ≤ portQueue s q)))

/-- The lane a frame of `n` flits takes: REDUCE frames and SPRAY 0 keep the stream's port, SPRAY 1 takes a port whose queue is
shortest (06 R210, 09 R311). `pick` says which of the allowed lanes is free first. -/
def placeFrame (s : State) (dst stream : Nat) (reduce : Bool) (n pick : Nat) : Option (Nat × State) :=
  let e := drlEntry s dst
  let eff := effective s (fld e 7 0)
  let nth := fun (l : List Nat) => match l with
    | [a] => some a
    | _ => l[pick % l.length]?
  if wbit e 16 && !reduce then (nth ((shortest s n eff).flatMap (roomyLanes s n))).map (fun k => (k, s))
  else match stickyPort s dst stream eff with
    | none => none
    | some p => (nth (roomyLanes s n p)).map (fun k =>
        (k, { s with links := { s.links with sticky := tset s.links.sticky (streamKey dst stream false) p } }))

/-! Stream contexts (06 R200 to R202). `scKey` numbers contexts of both directions. -/

/-- Resident contexts a size holds (00 R2). -/
def scCap : Size → Nat
  | .tvd16 => 8192
  | .tvd32 => 16384
  | .tvd64 => 32768

/-- The number of a context: 2 * stream key, plus 1 for ingress. -/
def scKey (key : Nat) (ingress : Bool) : Nat := key * 2 + b2n ingress

/-- Contexts resident. -/
def scResident (s : State) : Nat :=
  tcount s.links.egress (fun _ c => c.resident) + tcount s.links.ingress (fun _ c => c.resident)

/-- Contexts in the backing area. -/
def scBacked (s : State) : Nat :=
  tcount s.links.egress (fun _ c => !c.resident) + tcount s.links.ingress (fun _ c => !c.resident)

/-- SC_BACK_ENTRIES. -/
def scEntries (s : State) : Nat := fld (reg s 0x19008) 24 0

/-- Whether one more context may become resident (06 R202). -/
def scRoom (s : State) : Bool := decide (scResident s < scCap s.size) || decide (scBacked s < scEntries s)

/-- Mark a context as just used. -/
def scTouch (s : State) (k : Nat) : State :=
  { s with links := { s.links with scLru := s.links.scLru.filter (· != k) ++ [k] } }

/-- Set whether a context is resident. -/
def scSetRes (s : State) (k : Nat) (r : Bool) : State :=
  if k % 2 = 1 then { s with links := { s.links with ingress := tmod s.links.ingress (k / 2) (fun c => { c with resident := r }) } }
  else { s with links := { s.links with egress := tmod s.links.egress (k / 2) (fun c => { c with resident := r }) } }

/-- Whether a context is resident. -/
def scIsRes (s : State) (k : Nat) : Bool :=
  if k % 2 = 1 then (tget s.links.ingress (k / 2)).any (·.resident) else (tget s.links.egress (k / 2)).any (·.resident)

/-- The address of an entry of the backing area: 64 bytes each (06 R202; 15). -/
def scBackAddr (s : State) (i : Nat) : Nat := (reg s 0x19000).toNat + 2 ^ 32 * (reg s 0x19004).toNat + 64 * i

/-- Write a context to the lowest free entry of the backing area, or the one it has; what the 64 bytes hold, and which entry, the
spec does not say (log 31). -/
def scBackWrite (s : State) (k : Nat) : State :=
  let i := match tget s.links.back k with
    | some i => i
    | none => (lowestFrom (fun i => !s.links.back.any (fun p => p.2 == i)) (s.links.back.length + 1) 0).getD 0
  let b := freeBytes s 64
  emitMreq { b.2 with links := { b.2.links with back := tset b.2.links.back k i } } true (scBackAddr b.2 i) 64 b.1 [] none

/-- Make room for one more resident context: the least recently used one goes to the backing area (06 R202). -/
def scEvict (s : State) : State :=
  if scResident s < scCap s.size then s
  else match s.links.scLru.find? (scIsRes s) with
    | some k => scBackWrite (scSetRes s k false) k
    | none => s

/-- A context that has come back leaves its entry. -/
def scBackFree (s : State) (k : Nat) : State := { s with links := { s.links with back := tdel s.links.back k } }

/-- Note a miss of a context: it waits for its read (06 R202). -/
def scMiss (s : State) (k stream : Nat) : State :=
  if s.links.missS.contains k then s
  else
    let s := emitMreq s false (scBackAddr s (tgetD s.links.back k 0)) 64 [] [] none
    countEv (bump { s with links := { s.links with missS := s.links.missS ++ [k] } } 0x19010) 0x051 (ownerPart (ownerOf stream)) 1

/-! Chords (06 R190 to R192, 05 R171 to R175). -/

/-- The slot whose key serves a generation bit, if a key is present (05 R175). -/
def chordSlot (s : State) (par : Bool) : Option Nat :=
  let ok := fun n => (slotAt s n).state == 1
  let n := if par = (s.dom.gen % 2 == 1) then 3 else if ok 6 then 6 else 4
  if ok n then some n else none

/-- CONTEXT of a Chord derivation (04 R119). -/
def chordCtx (src dst gen : Nat) : Bytes :=
  leBytes 2 (min src dst) ++ leBytes 2 (max src dst) ++ leBytes 4 gen ++ leBytes 1 (if src < dst then 0 else 1)

/-- Derive the Chord of a direction at a generation. -/
def deriveChord (s : State) (peer : Nat) (ingress : Bool) (slot gen : Nat) : BitVec 256 × State :=
  let own := s.dom.vertex.getD 0
  let ctx := if ingress then chordCtx peer own gen else chordCtx own peer gen
  derive s (slotAt s slot).key "chord" ctx

/-- Entries of the chord cache (06 R192). -/
abbrev chordCap : Nat := 8192

/-- Note a chord cache miss (06 R192). -/
def chordMiss (s : State) (k : Nat) : State :=
  if s.links.missC.contains k then s
  else countEv { s with links := { s.links with missC := s.links.missC ++ [k] } } 0x050 none 1

/-- Mark a chord as just used. -/
def chordTouch (s : State) (k : Nat) : State :=
  { s with links := { s.links with chordLru := s.links.chordLru.filter (· != k) ++ [k] } }

/-- Replace a chord. -/
def setChord (s : State) (k : Nat) (c : Chord) : State :=
  chordTouch { s with links := { s.links with chord := tset s.links.chord k c } } k

/-- Evict the least recently used chord when the cache is full; its generation and count are kept (06 R192). -/
def chordEvict (s : State) : State :=
  if s.links.chord.length < chordCap then s
  else match s.links.chordLru with
    | [] => s
    | k :: t => match tget s.links.chord k with
      | none => { s with links := { s.links with chordLru := t } }
      | some c => { s with links := { s.links with
          chord := tdel s.links.chord k, chordLru := t, saved := tset s.links.saved k (c.gen, c.count) } }

/-- Fill a chord cache miss: the saved generation and count, or generation 1 (06 R192, 05 R171). -/
def chordFill (s : State) (k : Nat) : State :=
  let s := { s with links := { s.links with missC := s.links.missC.filter (· != k) } }
  if (tget s.links.chord k).isSome then s
  else match chordSlot s (k % 2 == 1) with
    | none => s
    | some n =>
      let g := tgetD s.links.saved k (1, 0)
      let s := chordEvict s
      let r := deriveChord s (k / 4) (k / 2 % 2 == 1) n g.1
      setChord r.2 k { gen := g.1, count := g.2, key := r.1, slot := n, slotGen := (slotAt s n).gen }

/-- Move a chord to a later generation (06 R190, R191). -/
def chordRoll (s : State) (k : Nat) (c : Chord) (gen : Nat) : State :=
  let r := deriveChord s (k / 4) (k / 2 % 2 == 1) c.slot gen
  setChord r.2 k { c with gen := gen, count := 0, key := r.1 }

end Sys2Proof.Machine
end

