-- ==== Sys2Proof/Machine/Seal.lean ====
section
/-! DEFINITION. Sealing lines at rest, counter blocks, tree nodes and the layout of a region on its module
(08 R261 to R268, R281). -/

namespace Sys2Proof.Machine

/-! Layout (08 R261). -/

/-- Pages of a region. -/
def rPages (r : Region) : Nat := r.size / 4096
/-- Module vertex. -/
def rVertex (r : Region) : Nat := r.base / 2 ^ 48
/-- Module offset of the data. -/
def rData (r : Region) : Nat := r.base % 2 ^ 48
/-- Module offset of the metadata. -/
def rMeta (r : Region) : Nat := r.meta_ % 2 ^ 48
/-- Tree levels L = max(1, ceil(log2(P) / 3)): the least number of levels, at least one, with 8^L pages or more. -/
def rLevels (pages : Nat) : Nat := (lowestFrom (fun l => decide (pages ≤ 8 ^ l)) 12 1).getD 12
/-- Module offset of line `n` of a bank. -/
def lineAddr (r : Region) (bank n : Nat) : Nat := rData r + bank * r.size + 64 * n
/-- Module offset of tag line `t` of a bank: the tags of lines 8t to 8t + 7. -/
def tagLineAddr (r : Region) (bank t : Nat) : Nat := rMeta r + bank * (r.size / 8) + 64 * t
/-- Module offset of counter block `q`. -/
def ctrAddr (r : Region) (q : Nat) : Nat := rMeta r + r.size / 8 + 64 * q
/-- Module offset of counter tag line `j`. -/
def ctagAddr (r : Region) (j : Nat) : Nat := rMeta r + r.size / 8 + r.size / 64 + 64 * j
/-- Nodes of tree level `k`. -/
def levelNodes (r : Region) (k : Nat) : Nat := ceilDiv (rPages r) (8 ^ k)
/-- Module offset of node `j` of tree level `k`. -/
def nodeAddr (r : Region) (k j : Nat) : Nat :=
  rMeta r + r.size / 8 + r.size / 64 + r.size / 512 +
    ((List.range (k - 1)).map (fun i => 64 * levelNodes r (i + 1))).foldl (· + ·) 0 + 64 * j
/-- Bytes of all metadata. -/
def metaSize (kind size : Nat) : Nat :=
  if kind = 2 then size / 4
  else size / 8 + size / 64 + size / 512 +
    ((List.range (rLevels (size / 4096))).map (fun i => 64 * ceilDiv (size / 4096) (8 ^ (i + 1)))).foldl (· + ·) 0

/-! Counter inputs (08 R265, R268, R281). -/

/-- Bytes 0 to 7 of T: key ID, module offset bits [47:6] and J. -/
def tHead (kid off j : Nat) : Bytes := leBytes 2 kid ++ leBytes 6 (off / 64 % 2 ^ 42 + j * 2 ^ 42)

/-- T_J of a PRIVATE line: major and minor counter. -/
def tPriv (kid off major minor j : Nat) : Bytes := tHead kid off j ++ leBytes 7 major ++ leBytes 1 (minor % 128)

/-- T_J of a SHARED_READ line: its epoch. -/
def tShared (kid off epoch j : Nat) : Bytes := tHead kid off j ++ leBytes 4 epoch ++ [0, 0, 0, 0]

/-- E(K, T) as bytes. -/
def aesBytes (k : BitVec 256) (t : Bytes) : Bytes := blockBytes (Config.aes256 k (blockOf t))

/-- Encrypt or decrypt a line of 64 bytes (08 R265). -/
def lineCrypt (k : BitVec 256) (t : Nat → Bytes) (line : Bytes) : Bytes :=
  xorBytes (slice line 0 16) (aesBytes k (t 0)) ++ xorBytes (slice line 16 16) (aesBytes k (t 1)) ++
  xorBytes (slice line 32 16) (aesBytes k (t 2)) ++ xorBytes (slice line 48 16) (aesBytes k (t 3))

/-- The 8 tag bytes over 64 bytes under T (08 R266, R268). -/
def sealTag (k : BitVec 256) (t : Bytes) (c : Bytes) : Bytes :=
  (xorBytes (blockBytes (ghash (Config.aes256 k 0) [] c)) (aesBytes k t)).take 8

/-! Counter blocks and nodes (08 R267, R268). -/

/-- 64 zero bytes. -/
def zeroLine : Bytes := List.replicate 64 0

/-- Major counter of a counter block. -/
def cbMajor (b : Bytes) : Nat := leAt b 0 7
/-- Minor counter of line `i`. -/
def cbMinor (b : Bytes) (i : Nat) : Nat := ofLe b / 2 ^ (56 + 7 * i) % 128
/-- KPAR. -/
def cbKpar (b : Bytes) : Nat := leAt b 63 1 % 2
/-- Build a counter block. -/
def cbMake (major kpar : Nat) (minors : List Nat) : Bytes :=
  leBytes 7 major ++ leBytes 56 (minors.foldr (fun m a => m % 128 + 128 * a) 0) ++ leBytes 1 (kpar % 2)
/-- All 64 minors. -/
def cbMinors (b : Bytes) : List Nat := (List.range 64).map (cbMinor b)
/-- Set minors at lines. -/
def cbSet (b : Bytes) (f : Nat → Option Nat) : Bytes :=
  cbMake (cbMajor b) (cbKpar b) ((List.range 64).map (fun i => (f i).getD (cbMinor b i)))
/-- The wear estimate (08 R290). -/
def cbWear (b : Bytes) : Nat := 128 * cbMajor b + ((cbMinors b).filter (· != 127)).foldl max 0

/-- What a line is: 0 never written, 1 poisoned, 2 live (08 R267, R269). -/
def lineState (b : Bytes) (i : Nat) : Nat :=
  if cbMinor b i = 127 then 1 else if cbMajor b = 0 ∧ cbMinor b i = 0 then 0 else 2

/-- Entry `c` of a node: the counter of its child. -/
def nodeCtr (b : Bytes) (c : Nat) : Nat := leAt b (7 * c) 7
/-- Set an entry. -/
def nodeSet (b : Bytes) (c v : Nat) : Bytes := patch b (7 * c) 7 v
/-- Tag of a node's own. -/
def nodeTag (b : Bytes) : Bytes := slice b 56 8
/-- A node with its tag read as zero. -/
def nodeBody (b : Bytes) : Bytes := b.take 56 ++ List.replicate 8 0

/-- Keys of the counter cache: level 0 counter blocks, 1 to 10 nodes, 15 counter tag lines. -/
def ccKey (kid level idx : Nat) : Nat := (kid * 16 + level) * 2 ^ 32 + idx

/-- The item at a key's address. -/
def itemAddr (r : Region) (level idx : Nat) : Nat :=
  if level = 0 then ctrAddr r idx else if level = 15 then ctagAddr r idx else nodeAddr r level idx

/-- Tag of a counter block or node under its parent's counter (08 R268). -/
def itemTag (km : BitVec 256) (r : Region) (kid level idx ctr : Nat) (b : Bytes) : Bytes :=
  sealTag km (tPriv kid (itemAddr r level idx) ctr 0 (if level = 0 then 6 else 5))
    (if level = 0 then b else nodeBody b)

/-! Keys of a region (04 R117, R119; 08 R260, R268). -/

/-- CONTEXT of a region key. -/
def regionCtx (kid gen : Nat) (r : Region) : Bytes :=
  leBytes 2 kid ++ leBytes 4 gen ++ leBytes 1 r.kind ++ leBytes 8 r.base ++ leBytes 8 r.size ++ leBytes 8 r.moduleId

/-- The slot that still holds a region key. -/
def regionSlot (s : State) (kid gen : Nat) (r : Region) : Option Nat :=
  match tget r.keys gen with
  | none => none
  | some (n, g) =>
    let k := slotAt s n
    if k.state = 1 ∧ k.typ = 6 ∧ k.ownerKid = kid ∧ k.gen = g then some n else none

/-- A region's table entry. -/
def regionAt (s : State) (kid : Nat) : Option Region := tget s.mem.region kid

/-- Replace it. -/
def setRegion (s : State) (kid : Nat) (r : Region) : State :=
  { s with mem := { s.mem with region := tset s.mem.region kid r } }

/-- Whether the handle of the region table entry still matches slot 5 (04 R121, R122). -/
def regionLive (s : State) (r : Region) : Bool := (slotAt s 5).state == 1 && (slotAt s 5).gen == r.handleGen

/-- Use a region key: its recency moves (04 R117). -/
def useRegionKey (s : State) (n : Nat) : BitVec 256 × State :=
  ((slotAt s n).key, { s with keys := { s.keys with recency := s.keys.recency.filter (· != n) ++ [n] } })

/-- Ask for a region key that no slot holds (04 R117). -/
def keyMiss (s : State) (kid gen : Nat) : State :=
  if s.mem.missK.contains (kid, gen) then s else { s with mem := { s.mem with missK := s.mem.missK ++ [(kid, gen)] } }

/-- Derive a missing region key into the lowest free slot or the least recently used REGION slot (04 R117). -/
def fillRegionKey (s : State) (kid gen : Nat) : State :=
  let s := { s with mem := { s.mem with missK := s.mem.missK.filter (· != (kid, gen)) } }
  match regionAt s kid with
  | none => s
  | some r =>
    if !regionLive s r ∨ (regionSlot s kid gen r).isSome then s
    else
      let slot := match lowestFree s with
        | some n => some n
        | none => s.keys.recency.find? (fun n => (slotAt s n).state == 1 && (slotAt s n).typ == 6)
      match slot with
      | none => keyMiss s kid gen
      | some n =>
        let k := derive s (slotAt s 5).key "region" (regionCtx kid gen r)
        let s := fillSlot k.2 n k.1 6 0x8#16 5 0 kid
        let s := { s with keys := { s.keys with recency := s.keys.recency.filter (· != n) ++ [n] } }
        setRegion s kid { r with keys := tset (tkeep r.keys (fun _ p => p.1 != n)) gen (n, (slotAt s n).gen) }

/-- Free the slot of a region key (08 R279, R280). -/
def dropRegionKey (s : State) (kid gen : Nat) : State :=
  match regionAt s kid with
  | none => s
  | some r => match regionSlot s kid gen r with
    | none => setRegion s kid { r with keys := tdel r.keys gen }
    | some n => invalidateSlot (setRegion s kid { r with keys := tdel r.keys gen }) n

end Sys2Proof.Machine
end

