-- ==== Sys2Proof/Machine/Module.lean ====
section
/-! DEFINITION. Requests to pool modules, the faults of regions, wear, the hot-line buffer and the counter cache
(08 R262 to R275, R288 to R290; 07 R251 to R254). -/

namespace Sys2Proof.Machine

/-! Module requests (08 R262, R264). -/

/-- A read of consecutive lines. -/
def modRead (addr lines : Nat) : ModReq :=
  { write := false, addr := addr, lines := lines, data := [], sent := false, done := false, status := stOk, poison := 0 }

/-- A write of consecutive lines. -/
def modWrite (addr : Nat) (data : Bytes) : ModReq :=
  { write := true, addr := addr, lines := data.length / 64, data := data, sent := false, done := false, status := stOk,
    poison := 0 }

/-- Two requests touch a common line. -/
def modOverlap (a b : ModReq) : Bool := decide (a.addr < b.addr + 64 * b.lines) && decide (b.addr < a.addr + 64 * a.lines)

/-- The writes outstanding at a module. -/
def sentWrites (s : State) (vertex : Nat) : List ModReq :=
  let here := fun (kid : Nat) => (regionAt s kid).any (fun r => rVertex r == vertex)
  let on := fun (m : ModReq) => m.write && m.sent && !m.done
  (s.mem.ops.filter (fun p => here p.2.kid)).flatMap (fun p => p.2.parts.filter on) ++
  (s.mem.jobs.filter (fun p => here p.2.kid)).flatMap (fun p => p.2.parts.filter on) ++
  (s.mem.wbs.filter (fun p => here p.2.kid && on p.2.part)).map (·.2.part)

/-- The SEAL 2 frame of a module request (08 R262, R263; 06 R182); `shared`: a read of a SHARED_READ region at its current epoch,
which alone is combinable (07 R241). -/
def modFrame (vertex kid id part epoch : Nat) (shared : Bool) (m : ModReq) : TxFrame :=
  { TxFrame.blank with dst := vertex, tc := 4, smode := 2, op := if m.write then opMwrite else opMread,
                       cclass := if shared && !m.write then 2 else 0, kid := kid, addr := m.addr, nlines := m.lines - 1,
                       epoch := epoch, payload := m.data, origin := .module id part }

/-- Issue the requests of a list that no outstanding write to the same line blocks (08 R264). -/
def sendParts (s : State) (id vertex kid epoch : Nat) (shared : Bool) (ms : List ModReq) : State × List ModReq :=
  ms.zipIdx.foldl (fun (a : State × List ModReq) x =>
    let m := x.1
    if m.sent ∨ (sentWrites a.1 vertex).any (modOverlap m) then (a.1, a.2 ++ [m])
    else (pushTx a.1 (modFrame vertex kid id x.2 epoch shared m), a.2 ++ [{ m with sent := true }])) (s, [])

/-- Issue whatever may be issued now: operations, page jobs, fills and writebacks, each in order of number. -/
def pumpMods (s : State) : State :=
  let s := s.mem.ops.foldl (fun s p => match regionAt s p.2.kid with
    | none => s
    | some r =>
      let a := sendParts s p.1 (rVertex r) p.2.kid p.2.epoch (r.kind == 2 && !p.2.write && p.2.epoch == r.epoch) p.2.parts
      { a.1 with mem := { a.1.mem with ops := tmod a.1.mem.ops p.1 (fun o => { o with parts := a.2 }) } }) s
  let s := s.mem.jobs.foldl (fun s p => match regionAt s p.2.kid with
    | none => s
    | some r =>
      let a := sendParts s p.1 (rVertex r) p.2.kid 0 false p.2.parts
      { a.1 with mem := { a.1.mem with jobs := tmod a.1.mem.jobs p.1 (fun o => { o with parts := a.2 }) } }) s
  let s := s.mem.fills.foldl (fun s p => match regionAt s p.2.kid with
    | none => s
    | some r =>
      let a := sendParts s p.1 (rVertex r) p.2.kid 0 false p.2.parts
      { a.1 with mem := { a.1.mem with fills := tmod a.1.mem.fills p.1 (fun o => { o with parts := a.2 }) } }) s
  s.mem.wbs.foldl (fun s p => match regionAt s p.2.kid with
    | none => s
    | some r =>
      let a := sendParts s p.1 (rVertex r) p.2.kid 0 false [p.2.part]
      { a.1 with mem := { a.1.mem with
          wbs := tmod a.1.mem.wbs p.1 (fun o => { o with part := a.2.headD o.part }) } }) s

/-- A fresh number for an operation, job, fill or writeback. -/
def memNew (s : State) : Nat × State := (s.mem.next, { s with mem := { s.mem with next := s.mem.next + 1 } })

/-- Consecutive numbers gathered in runs of at most 62, the lines of one frame (08 R262). -/
def runsOf (l : List Nat) : List (Nat × Nat) :=
  l.foldl (fun acc i => match acc.getLast? with
    | some (a, n) => if a + n = i ∧ n < 62 then acc.dropLast ++ [(a, n + 1)] else acc ++ [(i, 1)]
    | none => [(i, 1)]) []

/-- A line read back by a part, and whether the module marked it poisoned. -/
def readLine (ps : List ModReq) (addr : Nat) : Option (Bytes × Bool) :=
  match ps.find? (fun m => !m.write && m.addr ≤ addr && addr < m.addr + 64 * m.lines) with
  | none => none
  | some m =>
    let i := (addr - m.addr) / 64
    some (padTo 64 (slice m.data (64 * i) 64), m.poison / 2 ^ i % 2 == 1)

/-- Status of the first part that failed. -/
def badPart (ps : List ModReq) : Option Nat := (ps.find? (fun m => m.status != stOk)).map (·.status)

/-- Whether every part has come back. -/
def allDone (ps : List ModReq) : Bool := ps.all (·.done)

/-! Faults of regions (08 R288). -/

/-- Unit code of the memory seal engine (12 R397). -/
abbrev unitMem : Nat := 0x18

/-- Note the last seal fault: kind 1 read, 2 partial write, 3 metadata fill, 4 write lost, 5 re-encryption (08 R291). -/
def noteFault (s : State) (kid : Nat) (r : Region) (kind addr : Nat) : State :=
  { s with mem := { s.mem with fKid := kid, fKind := kind, fAddr := addr, fVertex := rVertex r } }

/-- A line, counter block or node failed its tag: a security alarm charged to the region's partition (08 R288). -/
def sealFault (s : State) (kid : Nat) (r : Region) (kind addr status : Nat) : State :=
  let s := noteFault (bump (setBits s 0x20004 1) 0x20020) kid r kind addr
  let s := countAon s 3 1
  occur s (mkRec 0x01 unitMem 0 0 status 0 (rVertex r) kid r.part addr) (some r.part)

/-- A line's minor becomes 0x7F. -/
def notePoison (s : State) (r : Region) (n : Nat) : State :=
  if n = 0 then s else countEv (bumpBy (setBits s 0x20004 2) 0x20024 n) 0x064 (some r.part) n

/-- A write was lost: an IO event (08 R272). -/
def writeLost (s : State) (kid : Nat) (r : Region) (addr status : Nat) : State :=
  noteFault (ioEvent s unitMem 0 status (rVertex r) r.part kid addr) kid r 4 addr

/-- A region becomes read-only at an exhausted counter (08 R278). -/
def exhaustRegion (s : State) (kid : Nat) (r : Region) (tree : Bool) (addr : Nat) : State :=
  let s := setRegion (setBits s 0x20004 4) kid (if tree then { r with treeRo := true } else { r with readOnly := true })
  occur s (mkRec 0x03 unitMem 0 0 stKeyExhausted 0 (rVertex r) kid r.part addr) none

/-! Wear (08 R290). -/

/-- Change the wear entry of a module. -/
def wearMod (s : State) (id : Nat) (f : Wear → Wear) : State :=
  { s with mem := { s.mem with wear := tmapV s.mem.wear (fun _ w => if w.id = id then f w else w) } }

/-- Data lines written to a region's module. -/
def wearLines (s : State) (r : Region) (n : Nat) : State := wearMod s r.moduleId (fun w => { w with lines := w.lines + n })

/-- A page's estimate is seen; WARN at 80 % of the rated endurance. -/
def wearSee (s : State) (r : Region) (est : Nat) : State :=
  let grow := fun (w : Wear) => { w with max := max w.max est, warn := w.warn || decide (8 * w.rated ≤ 10 * max w.max est) }
  let new := s.mem.wear.any (fun p => p.2.id == r.moduleId && !p.2.warn && (grow p.2).warn)
  let s := wearMod s r.moduleId grow
  if new then setBits s 0x20004 0x40 else s

/-! The hot-line buffer (07 R251 to R254). -/

/-- A pinned line. -/
def hotAt (s : State) (kid line : Nat) : Option HotLine := s.fab.hot.find? (fun h => h.kid == kid && h.line == line)

/-- Change a pinned line. -/
def hotMod (s : State) (kid line : Nat) (f : HotLine → HotLine) : State :=
  { s with fab := { s.fab with hot := s.fab.hot.map (fun h => if h.kid = kid ∧ h.line = line then f h else h) } }

/-- A write lands in the buffer (07 R252). -/
def hotWrite (s : State) (kid line : Nat) (data : Bytes) : State :=
  mirrorRec (hotMod s kid line (fun h => { h with data := data, last := s.aon.ts, again := h.wb })) (.hot kid line data)

/-- Count a write to a line in the tracker of 256 lines, and say whether the line is to be pinned (07 R251). -/
def trackWrite (s : State) (kid line : Nat) : Bool × State :=
  let th := fld (reg s 0x1A014) 7 0
  if th = 0 ∨ (hotAt s kid line).isSome then (false, s)
  else
    let old := s.fab.tracker.find? (fun t => t.kid == kid && t.line == line)
    let t := match old with
      | some t => if s.aon.ts ≤ t.first + 1000 then { t with count := t.count + 1 } else { t with first := s.aon.ts, count := 1 }
      | none => { kid := kid, line := line, first := s.aon.ts, count := 1 }
    let rest := s.fab.tracker.filter (fun t => !(t.kid == kid && t.line == line))
    let rest := if 256 ≤ rest.length then rest.drop 1 else rest
    if th < t.count then (true, { s with fab := { s.fab with tracker := rest } })
    else (false, { s with fab := { s.fab with tracker := rest ++ [t] } })

/-! The counter cache (08 R273 to R275). -/

/-- A cached item. -/
def ccGet (s : State) (kid level idx : Nat) : Option Node := tget s.mem.cc (ccKey kid level idx)

/-- Put an item into the cache. -/
def ccPut (s : State) (kid level idx : Nat) (b : Bytes) (dirty : Bool) : State :=
  { s with mem := { s.mem with cc := tset s.mem.cc (ccKey kid level idx) { data := b, dirty := dirty } } }

/-- The cached counter block of a page. -/
def cbOf (s : State) (kid page : Nat) : Option Bytes := (ccGet s kid 0 page).map (·.data)

/-- Change a cached counter block: it is dirty from then on. -/
def cbPut (s : State) (kid page : Nat) (b : Bytes) : State := mirrorRec (ccPut s kid 0 page b true) (.node kid 0 page b)

/-- Entries of one way (00 R2). -/
def ccPerWay : Size → Nat
  | .tvd16 => 1024
  | .tvd32 => 2048
  | .tvd64 => 4096

/-- Region, level and index of a cache key. -/
def ccKid (k : Nat) : Nat := k / 2 ^ 36
/-- Level. -/
def ccLevel (k : Nat) : Nat := k / 2 ^ 32 % 16
/-- Index. -/
def ccIdx (k : Nat) : Nat := k % 2 ^ 32

/-- Entries that a partition's regions hold. -/
def ccUsed (s : State) (part : Nat) : Nat :=
  tcount s.mem.cc (fun k _ => (regionAt s (ccKid k)).any (fun r => r.part == part))

/-- A page that something is at work on. -/
def pageBusy (s : State) (kid page : Nat) : Bool :=
  s.mem.ops.any (fun p => p.2.kid == kid && p.2.line / 64 == page) ||
  s.mem.jobs.any (fun p => p.2.kid == kid && p.2.page == page) ||
  s.mem.fills.any (fun p => p.2.kid == kid && p.2.page == page)

/-- Whether a cached item may be evicted: none of its children is cached, and it serves no page at work (08 R273). -/
def ccEvictable (s : State) (part k : Nat) : Bool :=
  let kid := ccKid k
  let l := ccLevel k
  let i := ccIdx k
  let kids := if l = 0 then [] else
    (List.range 8).map (fun c => ccKey kid (if l = 15 then 0 else l - 1) (8 * i + c))
  let under := fun (page : Nat) => if l = 0 then page == i else if l = 15 then page / 8 == i else page / 8 ^ l == i
  (regionAt s kid).any (fun r => r.part == part) && !kids.any (fun c => (tget s.mem.cc c).isSome) &&
  !(s.mem.ops.any (fun p => p.2.kid == kid && under (p.2.line / 64)) ||
    s.mem.jobs.any (fun p => p.2.kid == kid && under p.2.page) ||
    s.mem.fills.any (fun p => p.2.kid == kid && under p.2.page))

/-- The counter above an item: the root counter, or its parent's entry when the parent is cached. -/
def parentCtr (s : State) (kid : Nat) (r : Region) (level idx : Nat) : Option Nat :=
  if level = r.levels then some r.root else (ccGet s kid (level + 1) (idx / 8)).map (fun n => nodeCtr n.data (idx % 8))

/-- Set the counter above an item. -/
def setParentCtr (s : State) (kid : Nat) (r : Region) (level idx v : Nat) : State :=
  if level = r.levels then mirrorRec (setRegion s kid { r with root := v }) (.root kid v)
  else match ccGet s kid (level + 1) (idx / 8) with
    | some n =>
      let b := nodeSet n.data (idx % 8) v
      mirrorRec (ccPut s kid (level + 1) (idx / 8) b true) (.node kid (level + 1) (idx / 8) b)
    | none => s

/-- Write an item to its module. -/
def writeBack (s : State) (kid : Nat) (addr : Nat) (b : Bytes) : State :=
  let n := memNew s
  { n.2 with mem := { n.2.mem with wbs := tset n.2.mem.wbs n.1 { kid := kid, part := modWrite addr b } } }

/-- Evict an item: a dirty one is written back with a new tag under its parent's counter plus one (08 R273). -/
def ccEvict (s : State) (k : Nat) : State :=
  let kid := ccKid k
  let l := ccLevel k
  let i := ccIdx k
  match tget s.mem.cc k, regionAt s kid with
  | some n, some r =>
    let gone := fun (s : State) => { s with mem := { s.mem with cc := tdel s.mem.cc k } }
    if !n.dirty then gone s
    else if l = 15 then writeBack (gone s) kid (ctagAddr r i) n.data
    else match parentCtr s kid r l i, regionSlot s kid r.gen0 r with
      | some c, some ks =>
        if c = 2 ^ 56 - 1 then exhaustRegion s kid r true (itemAddr r l i)
        else
          let km := useRegionKey s ks
          let s := setParentCtr km.2 kid r l i (c + 1)
          let tag := itemTag km.1 r kid l i (c + 1) n.data
          if l = 0 then
            let s := match ccGet s kid 15 (i / 8) with
              | some t => ccPut s kid 15 (i / 8) (t.data.take (8 * (i % 8)) ++ tag ++ t.data.drop (8 * (i % 8) + 8)) true
              | none => s
            wearSee (writeBack (gone s) kid (ctrAddr r i) n.data) r (cbWear n.data)
          else writeBack (gone s) kid (itemAddr r l i) (n.data.take 56 ++ tag)
      | _, none => keyMiss s kid r.gen0
      | none, _ => s
  | _, _ => s

/-- Make room in a partition's ways for `n` more items; `victim` chooses among the items that may go. -/
def ccRoom : Nat → State → Nat → Nat → Nat → State
  | 0, s, _, _, _ => s
  | fuel + 1, s, part, n, victim =>
    let cap := (partAt s part).ways.length * ccPerWay s.size
    if ccUsed s part + n ≤ cap then s
    else
      let c := (s.mem.cc.filter (fun p => ccEvictable s part p.1)).map (·.1)
      match (c.drop (victim % c.length)).head? with
      | none => s
      | some k => ccRoom fuel (ccEvict s k) part n victim

/-- The chain of a page: its counter block and every node above it, lowest first. -/
def chainOf (r : Region) (page : Nat) : List (Nat × Nat) := (List.range (r.levels + 1)).map (fun l => (l, page / 8 ^ l))

/-- Items of a page's chain that are not cached, lowest first. -/
def chainMissing (s : State) (kid : Nat) (r : Region) (page : Nat) : List (Nat × Nat) :=
  (chainOf r page).takeWhile (fun x => (ccGet s kid x.1 x.2).isNone)

/-- Whether the counters under level-1 node `j` are all zero for certain: no counter tag of it was ever written. -/
def ctagZero (s : State) (kid : Nat) (r : Region) (j : Nat) : Bool :=
  match ccGet s kid 1 j with
  | some n => (n.data.take 56).all (· == 0)
  | none =>
    let miss := (chainOf r (8 * j)).drop 1 |>.takeWhile (fun x => (ccGet s kid x.1 x.2).isNone)
    match miss.getLast? with
    | some x => parentCtr s kid r x.1 x.2 == some 0
    | none => false

/-- What has been read for an item of a fill: zeros where nothing was read. -/
def fillData (r : Region) (f : Fill) (x : Nat × Nat) : Bytes × Bool × Nat :=
  match f.parts.find? (fun m => m.addr == itemAddr r x.1 x.2) with
  | none => (zeroLine, false, stOk)
  | some m => (padTo 64 (m.data.take 64), m.poison % 2 == 1, m.status)

/-- The counter tags of a page that are at hand: in the cached line, and in the line that the fill has read. -/
def tagsShown (s : State) (r : Region) (f : Fill) (page : Nat) : List Bytes :=
  ((ccGet s f.kid 15 (page / 8)).toList.map (·.data) ++
    (f.parts.find? (fun m => m.addr == ctagAddr r (page / 8))).toList.map (fun m => padTo 64 (m.data.take 64))).map
    (fun b => slice b (8 * (page % 8)) 8)

/-- The entry of a page in the cached line of counter tags is this one, and no longer in doubt. -/
def ctagSet (s : State) (kid page : Nat) (tag : Bytes) : State :=
  let s := { s with mem := { s.mem with ctagBad := s.mem.ctagBad.filter (· != (kid, page)) } }
  match ccGet s kid 15 (page / 8) with
  | some n => ccPut s kid 15 (page / 8) (n.data.take (8 * (page % 8)) ++ tag ++ n.data.drop (8 * (page % 8) + 8)) n.dirty
  | none => s

/-- Verify the items of a fill from the top down, caching each that verifies; one cached meanwhile is trusted as it is. The status of
the first that does not verify, and its address (08 R273, R274). `items` runs from the highest level to the counter block. -/
def verifyChain (kid : Nat) (f : Fill) (km : BitVec 256) : List (Nat × Nat) → State → State × Nat × Nat
  | [], s => (s, stOk, 0)
  | x :: t, s =>
    match regionAt s kid with
    | none => (s, stNotPermitted, 0)
    | some r =>
      if (ccGet s kid x.1 x.2).isSome then verifyChain kid f km t s
      else match parentCtr s kid r x.1 x.2 with
      | none => (s, stInternal, itemAddr r x.1 x.2)
      | some 0 => verifyChain kid f km t (ccPut s kid x.1 x.2 zeroLine false)
      | some c =>
        let d := fillData r f x
        let want := itemTag km r kid x.1 x.2 c d.1
        let good := if x.1 = 0 then (tagsShown s r f x.2).contains want else nodeTag d.1 == want
        if d.2.2 ≠ stOk then (s, d.2.2, itemAddr r x.1 x.2)
        else if d.2.1 ∨ !good then
          (sealFault s kid r 3 (itemAddr r x.1 x.2) stSealFault, stSealFault, itemAddr r x.1 x.2)
        else
          let s := ccPut s kid x.1 x.2 d.1 false
          verifyChain kid f km t (if x.1 = 0 then ctagSet s kid x.2 want else s)

/-- Complete a fill whose reads have arrived: the status for those that wait on the page; none while the partition's ways have no
room for it, and it stays (08 R273, R274). A line of counter tags that a failed counter block came with does not stay; one that
was there is in doubt for that page and is read again with its next fill. -/
def fillInstall (s : State) (id : Nat) (f : Fill) (r : Region) (km : BitVec 256) (victim : Nat) : State × Option Nat :=
  let n := f.items.countP (fun x => (ccGet s f.kid x.1 x.2).isNone) + 1
  let s := ccRoom 32 s r.part n victim
  if (partAt s r.part).ways.length * ccPerWay s.size < ccUsed s r.part + n then (s, none)
  else
    let s := { s with mem := { s.mem with fills := tdel s.mem.fills id } }
    let j := f.page / 8
    let tags := f.parts.find? (fun m => m.addr == ctagAddr r j)
    let had := (ccGet s f.kid 15 j).isSome
    let s := if had then s else ccPut s f.kid 15 j ((tags.map (fun m => padTo 64 (m.data.take 64))).getD zeroLine) false
    let s := countEv (bump s 0x20030) 0x062 (some r.part) 1
    let bad := (tags.map (·.status)).getD stOk
    let v := if bad ≠ stOk then (s, bad) else
      let v := verifyChain f.kid f km (f.items.reverse) s
      (v.1, v.2.1)
    if v.2 = stOk then (v.1, some stOk)
    else (doubt v.1 f.kid f.page had, some v.2)
where
  /-- What becomes of the line of counter tags. -/
  doubt (s : State) (kid page : Nat) (had : Bool) : State :=
    if had then { s with mem := { s.mem with ctagBad := s.mem.ctagBad.filter (· != (kid, page)) ++ [(kid, page)] } }
    else { s with mem := { s.mem with cc := tdel s.mem.cc (ccKey kid 15 (page / 8)) } }

end Sys2Proof.Machine
end

