-- ==== Sys2Proof/Machine/MemSeal.lean ====
section
/-! DEFINITION. The memory seal engine at work: reads and writes of PRIVATE and SHARED_READ regions, page jobs, and
what an arriving module response does (08 R269 to R287). -/

namespace Sys2Proof.Machine

/-! An operation's lines. -/

/-- Relative numbers of the lines an operation covers. -/
def opRel (o : MemOp) : List Nat := List.range o.lines
/-- Byte enables of a line. -/
def opMask (o : MemOp) (i : Nat) : List Bool := slice o.mask (64 * i) 64
/-- Whether the operation writes the whole line. -/
def opFull (o : MemOp) (i : Nat) : Bool := o.write && o.atomic.isNone && (o.mask.isEmpty || (opMask o i).all id)
/-- Whether the operation writes any byte of the line. -/
def opAny (o : MemOp) (i : Nat) : Bool :=
  o.write && match o.atomic with
    | some a => a.2.1 / 64 == i
    | none => o.mask.isEmpty || (opMask o i).any id
/-- An operation of the hot-line buffer itself: a pin reads, a writeback writes. -/
def isHotOp (o : MemOp) : Bool := match o.who with
  | .hot _ _ => true
  | _ => false
/-- Whether the line is pinned, for an operation other than the buffer's own. -/
def opPinned (s : State) (o : MemOp) (i : Nat) : Bool := !isHotOp o && (hotAt s o.kid (o.line + i)).isSome
/-- The line an operation makes of an old one (08 R271). -/
def opMerge (o : MemOp) (i : Nat) (old : Bytes) : Bytes :=
  match o.atomic with
  | some (aop, off, operand) =>
    let w := aopWidth aop
    putIn old (off % 64) w (aopApply aop (leAt old (off % 64) w) operand)
  | none => overlay old (slice o.data (64 * i) 64) (opMask o i)
/-- The old value an atomic returns. -/
def opOld (o : MemOp) (old : Bytes) : Bytes :=
  match o.atomic with
  | some (aop, off, _) => padTo 16 (slice old (off % 64) (aopWidth aop))
  | none => []

/-- Two operations exclude each other: a common line that one of them writes, or a common tag line that both
write (07 R220; 08 R264, R270). -/
def opConflict (a b : MemOp) : Bool :=
  let meets := fun (k : Nat) => decide (a.line / k ≤ (b.line + b.lines - 1) / k) && decide (b.line / k ≤ (a.line + a.lines - 1) / k)
  a.kid == b.kid && a.epoch == b.epoch &&
  ((meets 1 && (a.write || b.write || isHotOp a || isHotOp b)) || (meets 8 && a.write && b.write))

/-- Add an operation to the table. -/
def pushOp (s : State) (o : MemOp) : State :=
  let n := memNew s
  { n.2 with mem := { n.2.mem with ops := tset n.2.mem.ops n.1 { o with phase := .waiting, parts := [] } } }

/-- Replace an operation. -/
def setOp (s : State) (id : Nat) (o : MemOp) : State := { s with mem := { s.mem with ops := tset s.mem.ops id o } }

/-- Start the writeback of a pinned line (07 R253). -/
def startWriteback (s : State) (kid line : Nat) : State :=
  match hotAt s kid line with
  | none => s
  | some h =>
    if h.wb then s
    else pushOp (hotMod s kid line (fun h => { h with wb := true, again := false }))
      { who := .hot kid line, kid := kid, line := line, lines := 1, write := true, atomic := none, data := h.data, mask := [],
        epoch := 0, phase := .waiting, status := stOk, poison := 0, parts := [], ctx := 0, fepoch := 0, cover := false, ord := 0 }

/-- The coldest lines are written back from an occupancy of 7,680 on until it is 7,168 (07 R253). -/
def hotPressure (s : State) : State :=
  let n := s.fab.hot.length
  let s := if 7680 ≤ n then setBits { s with fab := { s.fab with hotDrain := true } } 0x1A024 8
    else if n ≤ 7168 then { s with fab := { s.fab with hotDrain := false } } else s
  if s.fab.hotDrain then
    let cold := (s.fab.hot.filter (fun h => !h.wb)).insertionSort (fun a b => a.last ≤ b.last)
    (cold.take (n - 7168 - s.fab.hot.countP (·.wb))).foldl (fun s h => startWriteback s h.kid h.line) s
  else s

/-- An operation of the hot-line buffer ends: the line is pinned, or its writeback is done (07 R251 to R253). -/
def hotDone (s : State) (o : MemOp) (status : Nat) (data : Bytes) (poison : Nat) : State :=
  if o.write then
    match hotAt s o.kid o.line with
    | none => s
    | some h =>
      if status = stOk ∧ !h.again then
        hotPressure { s with fab := { s.fab with hot := s.fab.hot.filter (fun h => !(h.kid == o.kid && h.line == o.line)) } }
      else
        let s := hotMod s o.kid o.line (fun h => { h with wb := false, again := false })
        if status = stOk then hotPressure s else s
  else if status = stOk ∧ poison = 0 ∧ s.fab.hot.length < 8192 then
    let part := (regionAt s o.kid).map (·.part)
    let s := { s with fab := { s.fab with hot := s.fab.hot ++
      [{ kid := o.kid, line := o.line, data := padTo 64 data, last := s.aon.ts, wb := false, again := false }] } }
    hotPressure (countEv (bump s 0x1A03C) 0x056 part 1)
  else s

/-- An operation is over: whoever asked is answered; at a synchronised owner a write's answer waits for the mirror
(12 R410). -/
def memFinish (s : State) (id : Nat) (o : MemOp) (status : Nat) (data : Bytes) (poison : Nat) : State :=
  let s := { s with mem := { s.mem with ops := tdel s.mem.ops id } }
  if isHotOp o then hotDone s o status data poison
  else
    let s := match regionAt s o.kid with
      | some r => if r.kind = 2 ∧ o.write ∧ status ≠ stOk ∧ r.wFail = 0 then setRegion s o.kid { r with wFail := status } else s
      | none => s
    let s := { s with mem := { s.mem with drains := s.mem.drains.map (fun d =>
      if d.ops.contains id ∧ status ≠ stOk ∧ d.publish ∧ d.status = stOk then { d with status := status } else d) } }
    let s := if o.cover ∧ status ≠ stOk then
        noteFailed s o.ctx o.fepoch o.ord (s.dom.vertex.getD 0) (((regionAt s o.kid).map rVertex).getD 0) 4 status else s
    if mirrored s ∧ o.write then holdAct s (.ans o.who true status data poison)
    else answer s o.who o.write status data poison

/-! Keys and counters of a page. -/

/-- A counter block that has never been written. -/
def cbZero (b : Bytes) : Bool := b.all (· == 0)

/-- Key generation under which a page is sealed (08 R279). -/
def pageGen (r : Region) (cb : Bytes) : Nat :=
  if cbZero cb ∨ cbKpar cb = r.keyGen % 2 then r.keyGen else r.keyGen - 1

/-- A page is sealed under the old key, or belongs, never written, to those that the sweep seals anew (08 R279). -/
def resealDue (r : Region) (cb : Bytes) : Bool :=
  cbKpar cb != r.keyGen % 2 && (!cbZero cb || r.sweep.isSome)

/-- T of line `n` of a page with this counter block. -/
def privT (kid : Nat) (r : Region) (cb : Bytes) (n j : Nat) : Bytes :=
  tPriv kid (lineAddr r 0 n) (cbMajor cb) (cbMinor cb (n % 64)) j

/-- T of line `n` of an epoch (08 R281): the line's place in its bank. -/
def sharedT (kid : Nat) (e n j : Nat) : Bytes := tShared kid (64 * n) e j

/-- What reading a line from its module gave: nothing there, poison, a tag failure, or its plaintext. -/
inductive Opened where
  | absent | poison | bad | ok (line : Bytes)

/-- Open line `n`: check its tag, decrypt it (08 R266, R269). A tag line that the module reports as poisoned leaves the line
poisoned, like a poisoned data line. DESIGN CHOICE (log 33). -/
def openLine (k : BitVec 256) (t : Nat → Bytes) (ps : List ModReq) (dataA tagA tagI : Nat) : Opened :=
  match readLine ps dataA, readLine ps tagA with
  | some (c, p), some (tl, tp) =>
    if p || tp then .poison
    else if slice tl (8 * tagI) 8 == sealTag k (t 4) c then .ok (lineCrypt k t c) else .bad
  | _, _ => .absent

/-- Open a line of a PRIVATE region. -/
def openPriv (k : BitVec 256) (kid : Nat) (r : Region) (cb : Bytes) (ps : List ModReq) (n : Nat) : Opened :=
  openLine k (privT kid r cb n) ps (lineAddr r 0 n) (tagLineAddr r 0 (n / 8)) (n % 8)

/-- The writes that seal lines: the data lines in runs, and every tag line with the entries it keeps from what was
read (08 R270). `lines` is in order of line number. A tag line that arrived poisoned is merged and written back as read. DESIGN
CHOICE (log 33). -/
def writeParts (k : BitVec 256) (t : Nat → Nat → Bytes) (r : Region) (bank : Nat) (lines : List (Nat × Bytes))
    (reads : List ModReq) : List ModReq :=
  let enc := lines.map (fun x => (x.1, lineCrypt k (t x.1) x.2))
  let datas := (runsOf (enc.map (·.1))).map (fun u =>
    modWrite (lineAddr r bank u.1) ((enc.filter (fun x => decide (u.1 ≤ x.1) && decide (x.1 < u.1 + u.2))).flatMap (·.2)))
  let groups := (runsOf ((enc.map (fun x => x.1 / 8)).dedup)).map (fun u =>
    modWrite (tagLineAddr r bank u.1) ((List.range u.2).flatMap (fun g =>
      let old := ((readLine reads (tagLineAddr r bank (u.1 + g))).map (·.1)).getD zeroLine
      (List.range 8).flatMap (fun i =>
        match enc.find? (fun x => x.1 == 8 * (u.1 + g) + i) with
        | some x => sealTag k (t x.1 4) x.2
        | none => slice old (8 * i) 8))))
  datas ++ groups

/-- The beats, of two lines each, that hold any of these lines. -/
def beatMask (l : List Nat) : Nat :=
  ((List.range 32).filter (fun b => l.any (fun i => i / 2 == b))).foldl (fun a b => a + 2 ^ b) 0

/-! Fills (08 R273). -/

/-- Start the fill of a page's counter block, unless one runs. A fill that needs no read completes at once. -/
def ensureFill (s : State) (kid : Nat) (r : Region) (page : Nat) : State :=
  if s.mem.fills.any (fun p => p.2.kid == kid && p.2.page == page) then s
  else
    let items := chainMissing s kid r page
    let j := page / 8
    let dark := match items.getLast? with
      | some x => parentCtr s kid r x.1 x.2 == some 0
      | none => true
    let reads := if dark then [] else items.map (fun x => modRead (itemAddr r x.1 x.2) 1)
    let held := (ccGet s kid 15 j).isSome && !s.mem.ctagBad.contains (kid, page)
    let reads := if held || ctagZero s kid r j then reads else reads ++ [modRead (ctagAddr r j) 1]
    let n := memNew s
    let f : Fill := { kid := kid, page := page, items := items, parts := reads }
    let s := { n.2 with mem := { n.2.mem with fills := tset n.2.mem.fills n.1 f } }
    if reads.isEmpty then (fillInstall s n.1 f r 0 0).1
    else if (regionSlot s kid r.gen0 r).isNone then keyMiss s kid r.gen0 else s

/-- Replace a page job. -/
def setJob (s : State) (id : Nat) (j : PageJob) : State := { s with mem := { s.mem with jobs := tset s.mem.jobs id j } }

/-- Add a page job. -/
def pushJob (s : State) (kid page : Nat) (reseal : Bool) (op : Option Nat) : State :=
  let n := memNew s
  let j : PageJob := { kid := kid, page := page, reseal := reseal, op := op, old := [], new := [], reading := true,
                       started := false, parts := [] }
  { n.2 with mem := { n.2.mem with jobs := tset n.2.mem.jobs n.1 j } }

/-! PRIVATE regions. -/

/-- Apply an operation's writes given what each line holds: the lines to write, the lines to poison, the statuses, and
an atomic's old value (08 R270, R271; 07 R252, R470). `get` says what a live line opened as. -/
def applyOp (s : State) (o : MemOp) (r : Region) (cb : Bytes) (get : Nat → Opened) :
    State × List (Nat × Bytes) × List Nat × List Nat × Bytes :=
  ((opRel o).filter (opAny o)).foldl (fun (a : State × List (Nat × Bytes) × List Nat × List Nat × Bytes) i =>
    let n := o.line + i
    let put := fun (old : Bytes) => (a.1, a.2.1 ++ [(n, opMerge o i old)], a.2.2.1, a.2.2.2.1, a.2.2.2.2 ++ opOld o old)
    if opPinned a.1 o i then
      let old := ((hotAt a.1 o.kid n).map (·.data)).getD zeroLine
      (hotWrite a.1 o.kid n (opMerge o i old), a.2.1, a.2.2.1, a.2.2.2.1, a.2.2.2.2 ++ opOld o old)
    else if opFull o i then put zeroLine
    else match lineState cb (n % 64) with
      | 0 => put zeroLine
      | 1 => (a.1, a.2.1, a.2.2.1, a.2.2.2.1 ++ [stSealFault], a.2.2.2.2)
      | _ => match get n with
        | .ok line => put line
        | .poison => (a.1, a.2.1, a.2.2.1, a.2.2.2.1 ++ [stPoisoned], a.2.2.2.2)
        | _ => (sealFault a.1 o.kid r 2 (lineAddr r 0 n) stSealFault, a.2.1, a.2.2.1 ++ [n], a.2.2.2.1 ++ [stSealFault], a.2.2.2.2))
    (s, [], [], [], [])

/-- The status of a write: what it has failed with already, else the first of its lines' failures. -/
def opStatus (o : MemOp) (l : List Nat) : Nat := if o.status ≠ stOk then o.status else l.headD stOk

/-- Issue the writes of a PRIVATE operation under a new counter block. -/
def privWrite (s : State) (id : Nat) (o : MemOp) (r : Region) (cb : Bytes) (k : BitVec 256) (lines : List (Nat × Bytes))
    (status : Nat) (old : Bytes) : State :=
  let prev := (cbOf s o.kid (o.line / 64)).getD []
  let s := cbPut s o.kid (o.line / 64) cb
  if lines.isEmpty then memFinish s id o status old 0
  else
    let s := countEv (wearLines s r lines.length) 0x060 (some r.part) lines.length
    setOp s id { o with phase := .writing, status := status, data := if o.atomic.isSome then old else o.data, prev := prev,
                        parts := writeParts k (privT o.kid r cb) r 0 lines o.parts }

/-- Every read of a PRIVATE operation has arrived, or none was needed. -/
def privAdvance (s : State) (id : Nat) (o : MemOp) (r : Region) (cb : Bytes) (k : BitVec 256) : State :=
  match badPart o.parts with
  | some st => memFinish s id o st [] 0
  | none =>
    if o.write then
      let a := applyOp s o r cb (openPriv k o.kid r cb o.parts)
      let kpar := if cbZero cb then r.keyGen % 2 else cbKpar cb
      let up := fun i => if a.2.1.any (fun x => x.1 % 64 == i) then some (cbMinor cb i + 1)
        else if a.2.2.1.any (fun n => n % 64 == i) then some 127 else none
      let cb' := cbSet (cbMake (cbMajor cb) kpar (cbMinors cb)) up
      let changed := !(a.2.1.isEmpty && a.2.2.1.isEmpty)
      privWrite (notePoison a.1 r a.2.2.1.length) id o r (if changed then cb' else cb) k a.2.1
        (opStatus o a.2.2.2.1) a.2.2.2.2
    else
      let a := (opRel o).foldl (fun (a : State × Bytes × List Nat × Bool) i =>
        let n := o.line + i
        if opPinned a.1 o i then (a.1, a.2.1 ++ ((hotAt a.1 o.kid n).map (·.data)).getD zeroLine, a.2.2)
        else match lineState cb (n % 64) with
          | 0 => (a.1, a.2.1 ++ zeroLine, a.2.2)
          | 1 => (a.1, a.2.1 ++ zeroLine, a.2.2.1 ++ [i], a.2.2.2)
          | _ => match openPriv k o.kid r cb o.parts n with
            | .ok line => (countEv a.1 0x061 (some r.part) 1, a.2.1 ++ line, a.2.2)
            | .poison => (a.1, a.2.1 ++ zeroLine, a.2.2.1 ++ [i], a.2.2.2)
            | _ => (sealFault a.1 o.kid r 1 (lineAddr r 0 n) stSealFault, a.2.1 ++ zeroLine, a.2.2.1 ++ [i], true))
        (s, [], [], false)
      memFinish a.1 id o (if a.2.2.2 then stSealFault else stOk) a.2.1 (beatMask a.2.2.1)

/-- Start a PRIVATE operation whose line is free: its counter block and key first, then its reads, or an overflow
(08 R269 to R271, R276 to R279). A read-only region still takes the lines that its buffer held (log 33). A write of a whole page
writes its pinned lines too: their copies in memory are under the new counters, and the buffer holds the new bytes. -/
def privStart (s : State) (id : Nat) (o : MemOp) (r : Region) : State :=
  let page := o.line / 64
  let need := (opRel o).filter (fun i => !opPinned s o i && (!o.write || opAny o i))
  if need.isEmpty ∧ !o.write then privAdvance s id o r zeroLine 0
  else if o.write ∧ !isHotOp o ∧ (r.readOnly ∨ r.treeRo) then memFinish s id o stKeyExhausted [] 0
  else if need.isEmpty then
    let a := applyOp s o r zeroLine (fun _ => .absent)
    memFinish a.1 id o (opStatus o []) a.2.2.2.2 0
  else if s.mem.jobs.any (fun p => p.2.kid == o.kid && p.2.page == page) then s
  else match cbOf s o.kid page with
    | none => ensureFill s o.kid r page
    | some cb =>
      if o.write ∧ resealDue r cb then pushJob s o.kid page true none
      else match regionSlot s o.kid (pageGen r cb) r with
        | none => keyMiss s o.kid (pageGen r cb)
        | some ks =>
          let k := useRegionKey s ks
          let s := k.2
          let st := fun i => lineState cb ((o.line + i) % 64)
          let minor := fun i => cbMinor cb ((o.line + i) % 64)
          let full := need.filter (opFull o)
          let part := need.filter (fun i => o.write && !opFull o i && st i != 1)
          let spill := full.any (fun i => 126 ≤ minor i) || part.any (fun i => minor i == 126)
          if spill ∧ cbMajor cb = 2 ^ 56 - 1 then
            memFinish (exhaustRegion s o.kid r false (lineAddr r 0 o.line)) id o stKeyExhausted [] 0
          else if spill ∧ o.lines = 64 ∧ (opRel o).all (opFull o) then
            let all := (List.range 64).map (fun i => (o.line + i, slice o.data (64 * i) 64))
            let s := (all.filter (fun x => opPinned s o (x.1 - o.line))).foldl (fun s x => hotWrite s o.kid x.1 x.2) (bump s 0x2002C)
            privWrite s id o r (cbMake (cbMajor cb + 1) (cbKpar cb) (List.replicate 64 0)) k.1 all o.status []
          else if spill then pushJob s o.kid page false (some id)
          else
            let fetch := if o.write then part.filter (fun i => st i == 2) else need.filter (fun i => st i == 2)
            let outs := if o.write then full ++ part else []
            let whole := fun (g : Nat) => (List.range 8).all (fun j => outs.any (fun i => o.line + i == 8 * g + j))
            let tags := (((fetch.map (fun i => (o.line + i) / 8)) ++
              (outs.map (fun i => (o.line + i) / 8)).filter (fun g => !whole g)).insertionSort (· ≤ ·)).dedup
            let ps := (runsOf (fetch.map (o.line + ·))).map (fun u => modRead (lineAddr r 0 u.1) u.2) ++
              (runsOf tags).map (fun u => modRead (tagLineAddr r 0 u.1) u.2)
            let o := { o with phase := .reading, parts := ps }
            if ps.isEmpty then privAdvance s id o r cb k.1 else setOp s id o

/-! SHARED_READ regions (08 R281 to R286). -/

/-- Whether a line opens under one of the neighbouring epochs (08 R286). -/
def staleEpoch (s : State) (kid : Nat) (r : Region) (km : BitVec 256) (e n : Nat) (ps : List ModReq) : Bool × State :=
  ([(e + 2 : Int), e + 4, e + 6, e + 8, (e : Int) - 2].filter (fun x => decide (1 ≤ x) && decide (x < 2 ^ 32))).foldl
    (fun (a : Bool × State) x =>
      if a.1 then a
      else
        let d := derive a.2 km "epoch" (leBytes 4 x.toNat)
        match openLine d.1 (sharedT kid x.toNat n) ps (lineAddr r (e % 2) n) (tagLineAddr r (e % 2) (n / 8)) (n % 8) with
        | .ok _ => (true, d.2)
        | _ => (false, d.2)) (false, s)

/-- Every read of a SHARED_READ operation has arrived. -/
def sharedAdvance (s : State) (id : Nat) (o : MemOp) (r : Region) (km : BitVec 256) : State :=
  match badPart o.parts with
  | some st => memFinish s id o st [] 0
  | none =>
    let d := derive s km "epoch" (leBytes 4 o.epoch)
    let bank := o.epoch % 2
    if o.write then
      let lines := ((opRel o).filter (opAny o)).map (fun i => (o.line + i, slice o.data (64 * i) 64))
      let s := countEv (wearLines d.2 r lines.length) 0x060 (some r.part) lines.length
      setOp s id { o with phase := .writing, parts := writeParts d.1 (sharedT o.kid o.epoch) r bank lines o.parts }
    else
      let a := (opRel o).foldl (fun (a : State × Bytes × List Nat × Bool × Bool) i =>
        let n := o.line + i
        match openLine d.1 (sharedT o.kid o.epoch n) o.parts (lineAddr r bank n) (tagLineAddr r bank (n / 8)) (n % 8) with
        | .ok line => (countEv a.1 0x061 (some r.part) 1, a.2.1 ++ line, a.2.2)
        | .poison => (a.1, a.2.1 ++ zeroLine, a.2.2.1 ++ [i], a.2.2.2)
        | _ =>
          let v := staleEpoch a.1 o.kid r km o.epoch n o.parts
          if v.1 then (bump (setBits v.2 0x20004 0x10) 0x20034, a.2.1 ++ zeroLine, a.2.2.1, true, a.2.2.2.2)
          else (sealFault v.2 o.kid r 1 (lineAddr r bank n) stSealFault, a.2.1 ++ zeroLine, a.2.2.1 ++ [i], a.2.2.2.1, true))
        (d.2, [], [], false, false)
      let st := if a.2.2.2.2 then stSealFault else if a.2.2.2.1 then stStaleHandle else stOk
      memFinish a.1 id o st a.2.1 (beatMask a.2.2.1)

/-- Start a SHARED_READ operation. -/
def sharedStart (s : State) (id : Nat) (o : MemOp) (r : Region) : State :=
  match regionSlot s o.kid r.keyGen r with
  | none => keyMiss s o.kid r.keyGen
  | some ks =>
    let k := useRegionKey s ks
    let bank := o.epoch % 2
    let ns := ((opRel o).filter (fun i => !o.write || opAny o i)).map (o.line + ·)
    let groups := (ns.map (· / 8)).dedup
    let tags := if o.write then groups.filter (fun g => !((List.range 8).all (fun j => ns.contains (8 * g + j)))) else groups
    let ps := (if o.write then [] else (runsOf ns).map (fun u => modRead (lineAddr r bank u.1) u.2)) ++
      (runsOf tags).map (fun u => modRead (tagLineAddr r bank u.1) u.2)
    let o := { o with phase := .reading, parts := ps }
    if ps.isEmpty then sharedAdvance k.2 id o r k.1 else setOp k.2 id o

/-! Page jobs (08 R276, R277, R279). -/

/-- The counter block a job leaves. -/
def jobNew (j : PageJob) (r : Region) (cb : Bytes) : Bytes :=
  cbMake (if j.reseal then 1 else cbMajor cb + 1) (if j.reseal then r.keyGen else cbKpar cb)
    ((cbMinors cb).map (fun m => if m = 127 then 127 else 0))

/-- An operation whose lines `bad` are not to be written: with none left it is over, else it waits again. -/
def withoutLines (s : State) (n : Nat) (o : MemOp) (bad : List Nat) (status : Nat) : State :=
  let on := (opRel o).flatMap (fun i =>
    if bad.contains (o.line + i) then List.replicate 64 false
    else if o.mask.isEmpty then List.replicate 64 true else padBits (opMask o i))
  let o := { o with mask := on, status := if o.status = stOk then status else o.status, phase := .waiting }
  if o.atomic.isSome ∨ !on.any id then memFinish s n o o.status [] 0 else setOp s n o
where
  /-- 64 byte enables. -/
  padBits (l : List Bool) : List Bool := l ++ List.replicate (64 - l.length) false

/-- Every read of a job has arrived: the page's lines under the new counters, the waiting operation applied. A line of the
operation that arrived poisoned and is not written whole is not merged, and its minor stays (07 R470): the operation goes on
without it, and the page overflows only if it still has to. A read that failed ends the operation, and the writes that
wait for a re-seal (08 R264). -/
def jobAdvance (s : State) (id : Nat) (j : PageJob) (r : Region) (kOld kNew : BitVec 256) : State :=
  let op := j.op.bind (tget s.mem.ops)
  match badPart j.parts with
  | some st =>
    let s := { s with mem := { s.mem with jobs := tdel s.mem.jobs id } }
    match j.op, op with
    | some i, some o => memFinish s i o st [] 0
    | _, _ => (s.mem.ops.filter (fun p => p.2.kid == j.kid && p.2.line / 64 == j.page && p.2.write && p.2.phase == .waiting &&
        !isHotOp p.2)).foldl (fun s p => memFinish s p.1 p.2 st [] 0) s
  | none =>
    let ns := (List.range 64).map (64 * j.page + ·)
    let sick := match op with
      | some o => ((opRel o).filter (fun i => opAny o i && !opFull o i && !opPinned s o i && lineState j.old ((o.line + i) % 64) == 2 &&
          (match openPriv kOld j.kid r j.old j.parts (o.line + i) with
           | .poison => true
           | _ => false))).map (o.line + ·)
      | none => []
    match sick, j.op, op with
    | _ :: _, some i, some o => withoutLines { s with mem := { s.mem with jobs := tdel s.mem.jobs id } } i o sick stPoisoned
    | _, _, _ =>
    let a := ns.foldl (fun (a : State × List (Nat × Bytes) × List Nat) n =>
      match lineState j.old (n % 64) with
      | 0 => (a.1, a.2.1 ++ [(n, zeroLine)], a.2.2)
      | 1 => a
      | _ => match openPriv kOld j.kid r j.old j.parts n with
        | .ok line => (a.1, a.2.1 ++ [(n, line)], a.2.2)
        | .poison => (a.1, a.2.1, a.2.2 ++ [n])
        | _ => (sealFault a.1 j.kid r 5 (lineAddr r 0 n) stOk, a.2.1, a.2.2 ++ [n])) (s, [], [])
    let bad := a.2.2
    let old' := cbSet j.old (fun i => if bad.any (fun n => n % 64 == i) then some 127 else none)
    let get := fun n => match a.2.1.find? (fun x => x.1 == n) with
      | some x => Opened.ok x.2
      | none => Opened.absent
    let b := match op with
      | some o => applyOp a.1 o r old' get
      | none => (a.1, [], [], [], [])
    let lines := (ns.filterMap (fun n => match b.2.1.find? (fun x => x.1 == n) with
      | some x => some x
      | none => a.2.1.find? (fun x => x.1 == n)))
    let cb' := cbSet j.new (fun i =>
      if lines.any (fun x => x.1 % 64 == i) then some 0 else if bad.any (fun n => n % 64 == i) then some 127 else none)
    let s := notePoison (cbPut b.1 j.kid j.page cb') r bad.length
    let s := wearSee (wearLines s r lines.length) r (cbWear cb')
    let s := countEv s 0x060 (some r.part) lines.length
    let s := match j.op, op with
      | some i, some o => setOp s i { o with status := opStatus o b.2.2.2.1, data := if o.atomic.isSome then b.2.2.2.2 else o.data }
      | _, _ => s
    setJob s id { j with reading := false, new := cb', parts := writeParts kNew (privT j.kid r cb') r 0 lines [] }

/-- Start a job: at most 32 run at once, and none while an operation is at work on the page (08 R276). An overflow that a rekey
has overtaken gives way to the page's re-seal (08 R279). -/
def jobTry (s : State) (id : Nat) (j : PageJob) : State :=
  match regionAt s j.kid, cbOf s j.kid j.page with
  | some r, some cb =>
    let gNew := if j.started then pageGen r j.new else if j.reseal then r.keyGen else pageGen r cb
    let go := fun (s : State) => match regionSlot s j.kid (pageGen r cb) r, regionSlot s j.kid gNew r with
      | some a, some b => some ((slotAt s a).key, (slotAt s b).key)
      | _, _ => none
    let at_ := fun (_ : Nat) (o : MemOp) => o.kid == j.kid && o.line / 64 == j.page && o.phase != .waiting
    if j.started then
      if j.reading ∧ allDone j.parts then
        match go s with
        | some k => jobAdvance s id j r k.1 k.2
        | none => keyMiss (keyMiss s j.kid gNew) j.kid (pageGen r cb)
      else s
    else if !j.reseal ∧ resealDue r cb then { s with mem := { s.mem with jobs := tdel s.mem.jobs id } }
    else if 32 ≤ tcount s.mem.jobs (fun _ x => x.started) ∨ tcount s.mem.ops at_ ≠ 0 then s
    else match go s with
      | none => keyMiss (if (regionSlot s j.kid gNew r).isNone then keyMiss s j.kid gNew else s) j.kid (pageGen r cb)
      | some k =>
        let ns := ((List.range 64).filter (fun i => lineState cb i == 2)).map (64 * j.page + ·)
        let ps := if ns.isEmpty then [] else
          (runsOf ns).map (fun u => modRead (lineAddr r 0 u.1) u.2) ++ [modRead (tagLineAddr r 0 (8 * j.page)) 8]
        let j := { j with old := cb, new := jobNew j r cb, started := true, parts := ps }
        let s := setJob s id j
        if ps.isEmpty then jobAdvance s id j r k.1 k.2 else s
  | some r, none => ensureFill s j.kid r j.page
  | none, _ => { s with mem := { s.mem with jobs := tdel s.mem.jobs id } }

/-! The engine's pump. -/

/-- Take an operation as far as it goes now. -/
def memTry (s : State) (id : Nat) : State :=
  match tget s.mem.ops id with
  | none => s
  | some o =>
    match regionAt s o.kid with
    | none => memFinish s id o stStaleHandle [] 0
    | some r =>
      match o.phase with
      | .waiting =>
        if r.invalid then memFinish s id o stStaleHandle [] 0
        else if !regionLive s r then memFinish s id o stKeyOrphaned [] 0
        else if r.lost then memFinish s id o stSealFault [] 0
        else if s.mem.ops.any (fun p => decide (p.1 < id) && opConflict p.2 o) then s
        else if r.kind = 2 then sharedStart s id o r else privStart s id o r
      | .reading =>
        if !allDone o.parts then s
        else if r.invalid then memFinish s id o stStaleHandle [] 0
        else if !regionLive s r then memFinish s id o stKeyOrphaned [] 0
        else if r.lost then memFinish s id o stSealFault [] 0
        else if r.kind = 2 then match regionSlot s o.kid r.keyGen r with
          | some n => sharedAdvance s id o r (slotAt s n).key
          | none => keyMiss s o.kid r.keyGen
        else match cbOf s o.kid (o.line / 64) with
          | none => ensureFill s o.kid r (o.line / 64)
          | some cb => match regionSlot s o.kid (pageGen r cb) r with
            | some n => privAdvance s id o r cb (slotAt s n).key
            | none => keyMiss s o.kid (pageGen r cb)
      | .writing => s

/-- Pinned lines lost to an SRAM error: their minors become 0x7F once their counter blocks are there (12 R389). -/
def loseHot (s : State) : State :=
  s.mem.hotLost.foldl (fun s x =>
    let gone := { s with mem := { s.mem with hotLost := s.mem.hotLost.filter (· != x) } }
    match regionAt s x.1 with
    | none => gone
    | some r => match cbOf s x.1 (x.2 / 64) with
      | none => ensureFill s x.1 r (x.2 / 64)
      | some cb => notePoison (cbPut gone x.1 (x.2 / 64) (cbSet cb (fun i => if i = x.2 % 64 then some 127 else none))) r 1) s

/-- One pass over operations and jobs, in order of number. -/
def memPass (s : State) : State :=
  let s := loseHot s
  let s := (s.mem.ops.map (·.1)).foldl memTry s
  (s.mem.jobs.map (·.1)).foldl (fun s id => match tget s.mem.jobs id with
    | some j => jobTry s id j
    | none => s) s

/-- Start all that may start, and issue the module requests. -/
def pumpMem (s : State) : State := pumpMods (memPass (memPass s))

/-- Lines of a failed write: poisoned, and the loss noted (08 R272). -/
def loseLines (s : State) (kid : Nat) (r : Region) (page : Nat) (ps : List ModReq) (lines : List Nat) : State :=
  let fails := ps.filter (fun m => m.write && m.status != stOk)
  let hit := fun (n : Nat) => fails.any (fun m =>
    (decide (m.addr ≤ lineAddr r 0 n) && decide (lineAddr r 0 n < m.addr + 64 * m.lines)) ||
    (decide (m.addr ≤ tagLineAddr r 0 (n / 8)) && decide (tagLineAddr r 0 (n / 8) < m.addr + 64 * m.lines)))
  let lost := lines.filter hit
  let s := fails.foldl (fun s m => writeLost s kid r m.addr m.status) s
  match cbOf s kid page with
  | none => s
  | some cb =>
    if lost.isEmpty then s
    else notePoison (cbPut s kid page (cbSet cb (fun i => if lost.any (fun n => n % 64 == i) then some 127 else none))) r lost.length

/-- The writes of an operation have all come back. -/
def opWritten (s : State) (id : Nat) (o : MemOp) : State :=
  match regionAt s o.kid with
  | none => memFinish s id o stStaleHandle [] 0
  | some r =>
    let st := (badPart o.parts).getD o.status
    let s := if r.kind = 2 then
        (o.parts.filter (fun m => m.status != stOk)).foldl (fun s m => writeLost s o.kid r m.addr m.status) s
      else loseLines s o.kid r (o.line / 64) o.parts (((opRel o).filter (opAny o)).map (o.line + ·))
    memFinish s id o st (if o.atomic.isSome then o.data else []) 0

/-- A job's writes are done: the page leaves re-encryption and the operation it served is answered (08 R276). -/
def jobDone (s : State) (id : Nat) (j : PageJob) : State :=
  match regionAt s j.kid with
  | none => { s with mem := { s.mem with jobs := tdel s.mem.jobs id } }
  | some r =>
    let s := { s with mem := { s.mem with jobs := tdel s.mem.jobs id } }
    let ns := (List.range 64).map (64 * j.page + ·)
    let s := loseLines s j.kid r j.page j.parts ns
    let s := if j.reseal then s else countEv (bump s 0x20028) 0x063 (some r.part) 1
    let s := match j.op with
      | none => s
      | some i => match tget s.mem.ops i with
        | some o => memFinish s i o ((badPart j.parts).getD o.status) (if o.atomic.isSome then o.data else []) 0
        | none => s
    pumpMem s

/-- Set what a part has come back with. -/
def setPartDone (ps : List ModReq) (i status poison : Nat) (data : Bytes) : List ModReq :=
  ps.zipIdx.map (fun x => if x.2 = i then
    { x.1 with done := true, status := status, poison := poison, data := if x.1.write then x.1.data else data } else x.1)

/-- A module request has come back, or has given up: the operation, fill, job or writeback it belongs to (08 R264). -/
def moduleDone (s : State) (id part status poison : Nat) (data : Bytes) : State :=
  match tget s.mem.ops id with
  | some o =>
    let o := { o with parts := setPartDone o.parts part status poison data }
    let s := setOp s id o
    if o.phase = .writing ∧ allDone o.parts then pumpMem (opWritten s id o) else pumpMem s
  | none => match tget s.mem.fills id with
    | some f =>
      let f := { f with parts := setPartDone f.parts part status poison data }
      pumpMods { s with mem := { s.mem with fills := tset s.mem.fills id f } }
    | none => match tget s.mem.jobs id with
      | some j => pumpMem (setJob s id { j with parts := setPartDone j.parts part status poison data })
      | none => match tget s.mem.wbs id with
        | some w =>
          let s := { s with mem := { s.mem with wbs := tdel s.mem.wbs id } }
          pumpMem (if status = stOk then s else match regionAt s w.kid with
            | some r => writeLost s w.kid r w.part.addr status
            | none => s)
        | none => s

/-- Submit an operation: writes of PRIVATE lines pass the tracker, which may pin a line first (07 R251). A line in its writeback
stays pinned for a write that comes meanwhile (07 R253). -/
def memSubmit (s : State) (o : MemOp) (priv : Bool) : State :=
  let s := if priv ∧ o.write then
      ((opRel o).filter (opAny o)).foldl (fun s i =>
        let s := hotMod s o.kid (o.line + i) (fun h => { h with again := h.again || h.wb })
        let t := trackWrite s o.kid (o.line + i)
        let coming := t.2.mem.ops.any (fun p => isHotOp p.2 && !p.2.write && p.2.kid == o.kid && p.2.line == o.line + i)
        if t.1 ∧ !coming ∧ t.2.fab.hot.length < 8192 then
          pushOp t.2 { o with who := .hot o.kid (o.line + i), line := o.line + i, lines := 1, write := false, atomic := none,
                              data := [], mask := [], cover := false }
        else t.2) s
    else s
  pumpMem (pushOp s o)

end Sys2Proof.Machine
end

