-- ==== Sys2Proof/Machine/Egress.lean ====
section
/-! DEFINITION. The way out: tags and their shares, the retransmit rings, sealing, placing and sending frames; the
end of a frame, resends, give-ups and Derailleur moves (07 R227 to R235; 06 R190, R203, R205, R211). -/

namespace Sys2Proof.Machine

/-! Tags and rings (07 R227 to R230; 00 R2). -/

/-- Entries of the tag table. -/
def tagTotal : Size → Nat
  | .tvd16 => 65536
  | .tvd32 => 131072
  | .tvd64 => 262144

/-- Whose share of tags, records and stream contexts a frame with an OWNER takes: the partition's, or the block's own
where that partition does not exist here, so that a home's refusal reaches its requester (07 R219, R229; log 38). -/
def shareOf (s : State) (owner : Nat) : Nat := if owner = 0 ∨ !(partAt s (owner - 1)).live then 0 else owner

/-- Tags an OWNER may hold: REPLAY_SHARE units, and 8 units for the block's own traffic. -/
def tagShare (s : State) (owner : Nat) : Nat :=
  (if owner = 0 then 8 else (partAt s (owner - 1)).replay) * (tagTotal s.size / 256)

/-- Tags an OWNER holds. -/
def tagsUsed (s : State) (owner : Nat) : Nat := tcount s.fab.tags (fun _ e => e.owner == owner)

/-- MiB of the retransmit area granted to partitions. -/
def retxGranted (s : State) : Nat := (s.parts.part.map (fun p => if p.2.live then p.2.retx else 0)).foldl (· + ·) 0

/-- Records of an OWNER's ring. -/
def ringSize (s : State) (owner : Nat) : Nat :=
  (if owner = 0 then fld (reg s 0x1A008) 10 0 - retxGranted s else (partAt s (owner - 1)).retx) * 4096

/-- Records in use: from the oldest frame of the ring that has not retired. -/
def ringUsed (s : State) (owner : Nat) : Nat :=
  let pos := (s.fab.tags.filter (fun p => p.2.owner == owner && p.2.retx != 0)).map (·.2.rpos)
  match pos with
  | [] => 0
  | a :: t => tgetD s.fab.ring owner 0 - t.foldl min a

/-- Whether an OWNER's ring has room for `n` records. -/
def ringRoom (s : State) (owner n : Nat) : Bool := decide (ringUsed s owner + n ≤ ringSize s owner)

/-- A frame of a core-side request. -/
def fromCore : Origin → Bool
  | .core _ _ _ => true
  | _ => false

/-- Frames of an OWNER that a core-side request has put into the queue: they have their place in its share. -/
def coreQueued (s : State) (owner : Nat) : Nat := s.fab.txq.countP (fun f => f.owner == owner && fromCore f.origin)

/-- Records that the frames of core-side requests will take: those in the queue, and those with a tag that wait for a lane. -/
def coreQueuedFlits (s : State) (owner : Nat) : Nat :=
  ((s.fab.txq.filter (fun f => f.owner == owner && fromCore f.origin)).map (fun f => flitsOf f.payload.length)).foldl (· + ·) 0 +
  ((s.fab.tags.filter (fun p => p.2.owner == owner && p.2.state == 1 && fromCore p.2.origin)).map (·.2.nfl)).foldl (· + ·) 0

/-- Whether a request of `n` frames and `flits` flits may take its tags now (07 R229). -/
def shareRoom (s : State) (owner n flits : Nat) : Bool :=
  decide (tagsUsed s owner + coreQueued s owner + n ≤ tagShare s owner) &&
  ringRoom s owner (coreQueuedFlits s owner + flits)

/-- Every frame but EACK and BOOT is stored (07, "The request tag table"). -/
def isStored (f : TxFrame) : Bool := f.op != opEack && !f.boot

/-- STREAM of a frame to be sent. -/
def txStream (f : TxFrame) : Nat := if f.smode = 2 ∨ f.boot then 0 else streamNo f.owner f.tc f.sub

/-- E2E_TIMEOUT in ns. -/
def e2eTimeout (s : State) : Nat := fld (reg s 0x1A00C) 19 0

/-- Change an egress context. -/
def egMod (s : State) (key : Nat) (f : Egress → Egress) : State :=
  { s with links := { s.links with egress := tmod s.links.egress key f } }

/-! The end of a frame (07 R233). -/

/-- Tell whoever waits for a frame what became of it. -/
def frameEnd (s : State) (o : Origin) (status : Nat) (data : Bytes) (poison : Nat) : State :=
  match o with
  | .core port tid seg => setSeg s port tid seg status data (if status = stPoisoned then 1 else poison)
  | .copy e i => chunkDone s e i status
  | .signal d => signalDone s d status (ofLe (data.take 8))
  | .reduce d =>
    match tget s.red.stages d with
    | none => s
    | some g =>
      let s := { s with red := { s.red with stages := tset s.red.stages d { g with framesOut := g.framesOut - 1 } } }
      if status = stOk then s else failStage s d status
  | .module id part => moduleDone s id part status poison data
  | .dump d last =>
    let s := { s with dbg := { s.dbg with dumps := tmod s.dbg.dumps d (fun u => { u with out := u.out - 1 }) } }
    if status ≠ stOk then setBits s 0x70004 4 else if last then setBits s 0x70004 2 else s
  | .own | .notice | .reply | .gap => s

/-- The key of a tag's stream context. -/
def tagStream (e : TagEnt) : Nat := streamKey e.dst e.stream e.par

/-- Whether a tag stands for a module request. -/
def isModTag (e : TagEnt) : Bool := e.op == opMread || e.op == opMwrite

/-- A tag retires: it is free, its stream has one frame less outstanding (an acknowledgement stream as many as it has sent since
its GAP, once that is acknowledged: 07 R226), a covered write that failed is noted for its
fence, and whoever waits is told (07 R228, R233, R247). -/
def retire (s : State) (t status : Nat) (data : Bytes) (poison : Nat) : State :=
  match tget s.fab.tags t with
  | none => s
  | some e =>
    let s := pmDrop { s with fab := { s.fab with tags := tdel s.fab.tags t } } (fun u => u == .resend t)
    let s := mirrorRec s (.retired [t])
    let s := if isModTag e then s
      else if e.op = opGap then
        egMod s (tagStream e) (fun c =>
          let c := if subOf e.stream ≠ 0xFF then { c with outstanding := c.outstanding - 1 }
            else if status = stOk then { c with outstanding := tgetD s.fab.ackSince (e.dst * 8 + e.tc) 0 } else c
          if c.gap ≠ some t then c
          else if status = stOk then { c with closing := false, gap := none } else { c with gap := none })
      else egMod s (tagStream e) (fun c => { c with outstanding := c.outstanding - 1 })
    let s := if e.cover ∧ status ≠ stOk then { s with fab := { s.fab with failed := s.fab.failed ++
        [{ ctx := e.ctx, epoch := e.fepoch, ord := e.ord, dst := e.dst, via := e.dst, tc := e.tc, status := status }] } } else s
    frameEnd s e.origin status data poison

/-- A frame gives up (07 R232): ST_TIMEOUT, and its stream closes (07 R234). -/
def giveUp (s : State) (t : Nat) : State :=
  match tget s.fab.tags t with
  | none => s
  | some e =>
    let s := countEv (bump (setBits s 0x1A024 1) 0x1A034) 0x054 (ownerPart e.owner) 1
    let s := retire s t stTimeout [] 0
    if isModTag e then s else egMod s (tagStream e) (fun c => { c with closing := true })

/-! Placing and sending. -/

/-- A class of a partition is over budget (11 R352): its credit is negative, or its budget 0. -/
def overBudget (s : State) (owner tc : Nat) : Bool :=
  owner != 0 && tc != 0 &&
  ((partAt s (owner - 1)).budgets.getD tc 0 == 0 || decide (tgetD s.fab.credit ((owner - 1) * 8 + tc) 0 < 0))

/-- A frame takes a lane: credit in quarters of a byte, 256 bytes to a flit, and counts (11 R352, 13 R424). -/
def chargeLane (s : State) (owner tc n port : Nat) : State :=
  let s := countEv s (0x030 + port) (ownerPart owner) 1
  if owner = 0 then s
  else
    let p := owner - 1
    let r := partAt s p
    let s := setPart s p { r with bw := r.bw.set tc ((r.bw.getD tc 0 + n) % 2 ^ 64) }
    if tc = 0 then s
    else
      let k := p * 8 + tc
      let c := tgetD s.fab.credit k 0
      let s := if overBudget s owner tc then countEv (setBits s (ptOff p 0x48) (toW (2 ^ tc))) 0x093 (some p) n else s
      { s with fab := { s.fab with credit := tset s.fab.credit k (c - 1024 * n) } }

/-- The stored frame whose records a run of `n` records from record `i` would overwrite (07 R230). -/
def retxOver (s : State) (i n : Nat) : Option (Nat × TagEnt) :=
  s.fab.tags.find? (fun p => decide (p.2.retx ≠ 0) && decide (p.2.retx - 1 < i + n) && decide (i < p.2.retx - 1 + p.2.nfl))

/-- The first run of `n` records from `i` on, going round the area of `total` records, that overwrites no stored frame. -/
def retxClear (s : State) (total n : Nat) : Nat → Nat → Nat
  | 0, i => i
  | fuel + 1, i => match retxOver s i n with
    | none => i
    | some p =>
      let j := p.2.retx - 1 + p.2.nfl
      retxClear s total n fuel (if j + n ≤ total then j else 0)

/-- Where a frame's records stand: within the retransmit area, over the records of no other stored frame, at a place
the spec leaves to the block (07 R230). The place is found from a free value (log 10). -/
def retxPlace (s : State) (n : Nat) : Nat × State :=
  let f := freeN s
  let records := fld (reg s 0x1A008) 10 0 * 4096
  (retxClear s records n (2 * s.fab.tags.length + 2) (f.1 % (records - n + 1)), f.2)

/-- Base address of the retransmit area. -/
def retxBase (s : State) : Nat := (reg s 0x1A000).toNat / 2 ^ 20 * 2 ^ 20 + 2 ^ 32 * (reg s 0x1A004).toNat

/-- The 256-byte records of a frame (07 R230). -/
def retxRecords (content : Bytes) (n : Nat) : Bytes := (cutFlits n content).flatMap (fun c => c ++ [0, 0, 0, 0])

/-- Replace a tag. -/
def setTag (s : State) (t : Nat) (e : TagEnt) : State := { s with fab := { s.fab with tags := tset s.fab.tags t e } }

/-- The ring of a frame with a tag has room for it, beside what the frames of core-side requests are to take (07 R229, R230). -/
def tagRoom (s : State) (e : TagEnt) : Bool :=
  ringRoom s e.owner (e.nfl + if fromCore e.origin then 0 else coreQueuedFlits s e.owner)

/-- Send a tag in STATE 1: its ring has room and a lane takes it; its records are written meanwhile (07 R230, R231). -/
def sendTag (s : State) (t pick : Nat) : State :=
  match tget s.fab.tags t with
  | none => s
  | some e =>
    if e.state ≠ 1 then s
    else if !tagRoom s e then setBits s 0x1A024 2
    else match placeFrame s e.dst e.stream (e.op == opReduce) e.nfl pick with
      | none => s
      | some (k, s) =>
        let p := retxPlace s e.nfl
        let s := p.2
        let pos := tgetD s.fab.ring e.owner 0
        let s := { s with fab := { s.fab with ring := tset s.fab.ring e.owner (pos + e.nfl) } }
        let e := { e with state := 2, deadline := s.aon.ts + e2eTimeout s, port := k / 8, lane := k % 8, retx := p.1 + 1, rpos := pos }
        let s := mirrorRec (setTag s t e) (.tag t e)
        let s := sendFlits s k (cutFlits e.nfl e.content) [t] (ownerPart e.owner)
        let s := emitMreq s true (retxBase s + 256 * p.1) (256 * e.nfl) (retxRecords e.content e.nfl) [] none
        chargeLane s e.owner e.tc e.nfl (k / 8)

/-- Send a stored frame again with the records read back (06 R211, 07 R232), unless it has been answered DUP meanwhile.
While no lane is in service it waits for one (06 R209). -/
def resendTag (s : State) (t : Nat) (data : Bytes) (pick : Nat) : State :=
  match tget s.fab.tags t with
  | none => s
  | some e => if e.state ≠ 2 then s else match placeFrame s e.dst e.stream (e.op == opReduce) e.nfl pick with
    | none => setTag s t { e with move := true }
    | some (k, s) =>
      let s := setTag s t { e with deadline := s.aon.ts + e2eTimeout s, port := k / 8, lane := k % 8, move := false }
      let cs := (List.range e.nfl).map (fun i => padTo 252 (slice data (256 * i) 252))
      chargeLane (sendFlits s k cs [t] (ownerPart e.owner)) e.owner e.tc e.nfl (k / 8)

/-- Read a frame's records back to send it again; none may be read while its writes are outstanding, and a failed
record makes the frame give up (07 R231, 12 R391). -/
def askResend (s : State) (t : Nat) : State :=
  match tget s.fab.tags t with
  | none => s
  | some e =>
    if e.recs = 2 then giveUp s t
    else if e.recs = 0 then setTag s t { e with move := true }
    else
      let busy := s.fab.pm.any (fun p => match p.2.use with
        | .resend u => u == t
        | _ => false)
      let s := setTag s t { e with move := false, deadline := s.aon.ts + e2eTimeout s }
      if busy then s
      else pmReq s (.resend t) false (retxBase s + 256 * (e.retx - 1)) (256 * e.nfl) [] [] none

/-- A stored frame's timer expires (07 R232). -/
def timerExpiry (s : State) (t : Nat) : State :=
  match tget s.fab.tags t with
  | none => s
  | some e =>
    if e.sends ≥ fld (reg s 0x1A010) 3 0 ∨ e.recs = 2 then giveUp s t
    else
      let e := { e with sends := e.sends + 1, deadline := s.aon.ts + e2eTimeout s }
      let s := setTag s t e
      if e.state ≠ 2 ∨ (effective s 0xFF).isEmpty then s
      else countAon (countEv (bump (askResend s t) 0x1A030) 0x053 (ownerPart e.owner) 1) 4 1

/-- Frames that wait to move are read back as soon as their records stand in memory and a lane is in service (06 R209,
R211; 07 R231). -/
def settleMoves (s : State) : State :=
  (s.fab.tags.filter (fun p => p.2.move)).foldl (fun s p =>
    if p.2.recs = 0 ∨ (p.2.recs = 1 ∧ p.2.state = 2 ∧ (effective s 0xFF).isEmpty) then s
    else if p.2.state = 2 then askResend s p.1
    else match tget s.fab.tags p.1 with
      | some e => setTag s p.1 { e with move := false }
      | none => s) s

/-! Which frame goes next. -/

/-- What keeps a queued frame. -/
inductive TxReady where
  | go | wait | ctxMiss | chordMiss | fail (status : Nat)
  deriving DecidableEq

/-- Egress contexts with an OWNER, of both parities (11 R349). -/
def egressCount (s : State) (owner : Nat) : Nat :=
  tcount s.links.egress (fun k _ => k / 2 % 65536 / 2048 == owner)

/-- The parity under which a frame is sealed. -/
def txPar (s : State) (f : TxFrame) : Bool := f.under.getD s.dom.gen % 2 == 1

/-- The share of a frame has a tag for it, beside those that the queued frames of core-side requests are to take (07 R229). -/
def shareOk (s : State) (f : TxFrame) : Bool :=
  let o := shareOf s f.owner
  !isStored f || decide (tagsUsed s o + (if fromCore f.origin then 0 else coreQueued s o) < tagShare s o)

/-- Whether a frame may take its tag, sequence, Chord and lane now (06 R190, R202, R203; 07 R229; 11 R349; 05 R173). -/
def txReady (s : State) (f : TxFrame) : TxReady :=
  let n := flitsOf f.payload.length
  let stream := txStream f
  let par := txPar s f
  let lanes := (effective s 0xFF)
  let laneOk := if lanes.isEmpty then isStored f else (placeFrame s f.dst stream (f.op == opReduce) n 0).isSome
  let tagOk := shareOk s f
  if f.smode = 2 then if tagOk && laneOk then .go else .wait
  else if f.boot then if laneOk then .go else .wait
  else if !isMember s && !(ctlPeer s f.dst && f.tc == 0) then .fail stNotPermitted
  else if !tagOk then .wait
  else
    let key := streamKey f.dst stream par
    let ctx : TxReady := match tget s.links.egress key with
      | some c =>
        if f.op != opGap && (c.closing || decide (1024 ≤ c.outstanding)) then .wait
        else if f.op == opEack && decide (512 ≤ tgetD s.fab.ackSince (f.dst * 8 + f.tc) 0) then .wait
        else if !c.resident then .ctxMiss else .go
      | none =>
        if shareOf s f.owner ≠ 0 ∧ (partAt s (f.owner - 1)).scLimit ≤ egressCount s f.owner then .fail stNoResource
        else if !scRoom s then .fail stNoResource else .go
    if ctx ≠ .go then ctx
    else match tget s.links.chord (chordKey f.dst 0 par) with
      | none => if (chordSlot s par).isSome then .chordMiss else .fail stNotPermitted
      | some c => if 2 ^ 32 ≤ c.count ∧ c.gen = 0xFFFFFFFF then .fail stKeyExhausted else if laneOk then .go else .wait

/-- A queued frame that no earlier frame of its stream stands before; a GAP goes before the frames that wait for it (07 R234). -/
def txHeads : List TxFrame → List (Nat × Nat) → Nat → List (Nat × TxFrame)
  | [], _, _ => []
  | f :: t, seen, i =>
    let key := (f.dst, txStream f)
    if f.smode = 2 ∨ f.boot ∨ f.op = opGap then (i, f) :: txHeads t seen (i + 1)
    else if seen.contains key then txHeads t seen (i + 1)
    else (i, f) :: txHeads t (key :: seen) (i + 1)

/-- The turn of an OWNER and class: TC0, then frames of OWNER 0 and within budget, then frames over budget; in a kind,
round-robin across owners and then classes (11 R352). Smaller goes first. -/
def rankOf (s : State) (owner tc : Nat) : Nat :=
  if tc = 0 then 0
  else
    let own := (owner + 17 - 1 - s.fab.rrOwner) % 17
    let cls := (tc + 8 - 1 - tgetD s.fab.rrTc owner 0) % 8
    1000 * (1 + b2n (overBudget s owner tc)) + 8 * own + cls

/-- The turn of a queued frame. -/
def txRank (s : State) (f : TxFrame) : Nat := rankOf s f.owner f.tc

/-- The best of the frames that may go. -/
def txBest (s : State) (l : List (Nat × TxFrame)) : Option (Nat × TxFrame) :=
  l.foldl (fun b x => match b with
    | none => some x
    | some y => if txRank s x.2 < txRank s y.2 then some x else some y) none

/-! Sealing (06 R187, R190, R205). -/

/-- The frame takes its sequence and Chord and is sealed: content, sequence and parity. `rtag` is its tag. "Within 128 of
SEQ_LIMIT" does not take in a distance of exactly 128: the limit rises once fewer than 128 sequences are left. DESIGN CHOICE
(log 55). -/
def sealNext (s : State) (f : TxFrame) (rtag : Nat) : (Bytes × Nat × Bool) × State :=
  let par := txPar s f
  let own := s.dom.vertex.getD 0
  let pay := if f.op = opReq then leBytes 4 rtag ++ f.payload.drop 4
    else if f.op = opRsp then patch f.payload 8 4 rtag else f.payload
  let h : Hdr := { Hdr.zero with
    dst := f.dst, src := own, tc := f.tc, cclass := f.cclass, smode := f.smode, boot := f.boot, mbxs := f.mbxs,
    plen := pay.length, op := f.op, kid := f.kid, addr := f.addr, aop := f.aop, nlines := f.nlines, operand := f.operand,
    epoch := f.epoch, rtag := rtag }
  if f.smode = 2 then ((sealFrame 0 { h with operand := 0 } 0 pay, 0, false), s)
  else if f.boot then
    let q := freeN s
    let h := { h with rtag := 0, seqLo := q.1 % 2 ^ 32, kid := 0, epoch := 0 }
    ((sealFrame 0 h h.seqLo pay, h.seqLo, false), q.2)
  else
    let stream := txStream f
    let key := streamKey f.dst stream par
    let s := match tget s.links.egress key with
      | some _ => s
      | none =>
        let s := scEvict s
        let c : Egress := { next := 0, limit := 256, outstanding := 0, resident := true, closing := false, gap := none,
                            jump := false }
        mirrorRec { s with links := { s.links with egress := tset s.links.egress key c } } (.egress key c)
    let c := tgetD s.links.egress key { next := 0, limit := 256, outstanding := 0, resident := true, closing := false,
                                        gap := none, jump := false }
    let seqN := if c.jump then c.limit else c.next
    let raise := c.limit < seqN + 1 + 128
    let s := egMod s key (fun c => { c with
      next := seqN + 1, jump := false, limit := if raise then c.limit + 256 else c.limit,
      outstanding := c.outstanding + 1 })
    let s := match if raise then tget s.links.egress key else none with
      | some c => mirrorRec s (.egress key c)
      | none => s
    let s := scTouch s (scKey key false)
    let ck := chordKey f.dst 0 par
    let s := match tget s.links.chord ck with
      | some c => if 2 ^ 32 ≤ c.count then chordRoll s ck c (c.gen + 1) else s
      | none => s
    match tget s.links.chord ck with
    | none => (([], seqN, par), s)
    | some c =>
      let s := setChord s ck { c with count := c.count + 1 }
      let h := { h with dgen := par, stream := stream, seqLo := seqN % 2 ^ 32, rtag := 0, kid := 0, epoch := 0, cgen := c.gen % 16 }
      ((sealFrame c.key h seqN pay, seqN, par), s)

/-- KIND of the request a stored frame carries. -/
def txKind (f : TxFrame) : Nat := if f.op = opReq then leAt f.payload 4 1 % 16 else 0

/-- BEATS + 1 of the request a stored frame carries. -/
def txBeats (f : TxFrame) : Nat := if f.op = opReq then leAt f.payload 5 1 % 32 + 1 else 0

/-- The record of a frame in a COMBINED frame: bytes 0 to 47 and the trailer (06 R186). -/
def combRecord (content : Bytes) : Bytes := content.take 48 ++ slice content 236 16

/-- The envelope of COMBINED records (06 R186). -/
def combFrame (f : TxFrame) (own : Nat) (records : List Bytes) : Bytes :=
  let pay := records.flatMap id
  let h : Hdr := { Hdr.zero with
    dst := f.dst, src := own, tc := f.tc, cclass := 1, plen := pay.length, op := opCombined, addr := f.addr, aop := f.aop }
  frameContent h pay []

/-- What a group of responses holds for each: its record of 64 bytes, its tag, and how many the group is to have. A response that
failed before it took a tag leaves an empty place. -/
def combPlace (record : Bytes) (tag : Option Nat) (k : Nat) : Bytes :=
  padTo 64 record ++ leBytes 4 (tag.getD 0xFFFFFFFF) ++ leBytes 4 k

/-- The tag of a place. -/
def placeTag (b : Bytes) : Option Nat := if leAt b 64 4 = 0xFFFFFFFF then none else some (leAt b 64 4)

/-- Every place of a group is taken. -/
def combFull (g : Tbl Bytes) : Bool := g.any (fun x => leAt x.2 68 4 ≤ g.length)

/-- A place of a group is taken. -/
def combJoin (s : State) (g i : Nat) (b : Bytes) : State :=
  { s with fab := { s.fab with combOut := tset s.fab.combOut g (tset (tgetD s.fab.combOut g []) i b) } }

/-- The tags of a group. -/
def combTags (g : Tbl Bytes) : List Nat := g.filterMap (fun x => placeTag x.2)

/-- A tag of a COMBINED response has been sent: its records are written (07 R230, R231). -/
def combStored (s : State) (lane t : Nat) : State :=
  match tget s.fab.tags t with
  | none => s
  | some e =>
    let p := retxPlace s e.nfl
    let s := p.2
    let pos := tgetD s.fab.ring e.owner 0
    let s := { s with fab := { s.fab with ring := tset s.fab.ring e.owner (pos + e.nfl) } }
    let e := { e with state := 2, deadline := s.aon.ts + e2eTimeout s, port := lane / 8, lane := lane % 8, retx := p.1 + 1, rpos := pos }
    let s := mirrorRec (setTag s t e) (.tag t e)
    emitMreq s true (retxBase s + 256 * p.1) (256 * e.nfl) (retxRecords e.content e.nfl) [] none

/-- Send a full group in one COMBINED frame, its records in order, once its ring and a lane have room; a group with one response
left is that response alone (06 R186). DST is that of the first record, as SRC is, where the requesters differ. DESIGN CHOICE
(log 55). -/
def sendGroup (s : State) (g pick : Nat) : State :=
  let all := tgetD s.fab.combOut g []
  let got := all.filter (fun x => (placeTag x.2).any (fun t => (tget s.fab.tags t).isSome))
  let drop := { s with fab := { s.fab with combOut := tdel s.fab.combOut g } }
  match combTags got with
  | [] => drop
  | [t] => sendTag drop t pick
  | t :: rest => match tget s.fab.tags t with
    | none => s
    | some e =>
      let n := flitsOf (64 * got.length)
      if !tagRoom s { e with nfl := got.length } then setBits s 0x1A024 2
      else match placeFrame s e.dst e.stream false n pick with
        | none => s
        | some (lane, _) =>
          let f := { TxFrame.blank with dst := e.dst, tc := e.tc, addr := e.addr, aop := (Hdr.parse (e.content.take 32)).aop }
          let body := combFrame f (s.dom.vertex.getD 0) (got.map (fun x => x.2.take 64))
          let s := sendFlits drop lane (cutFlits n body) (t :: rest) (ownerPart e.owner)
          chargeLane ((t :: rest).foldl (fun s t => combStored s lane t) s) e.owner e.tc n (lane / 8)

/-- Take a free tag for a frame and seal it: STATE 1 (07 R227, R228). Its timer runs from here on, so that a frame which waits for
room in its ring counts expiries as one that no lane takes does (07 R232), and may give up unsent. DESIGN CHOICE (log 55). A GAP is
the one its stream waits for; an acknowledgement stream counts its frames anew (07 R226). -/
def takeTag (s : State) (f : TxFrame) : Option (Nat × State) :=
  match lowestFrom (fun i => (tget s.fab.tags i).isNone) (tagTotal s.size) 0 with
  | none => none
  | some t =>
    let gen := (tgetD s.fab.tagGen t 0 + 1) % 2 ^ 14
    let rtag := t + gen * 2 ^ 18
    let q := sealNext s f rtag
    let s := q.2
    let e : TagEnt := {
      state := 1, gen := gen, dst := f.dst, stream := txStream f, par := q.1.2.2, tc := f.tc, op := f.op, kind := txKind f,
      nfl := flitsOf f.payload.length, ctx := f.ctx, fepoch := f.fepoch, cover := f.cover, sends := 0,
      deadline := s.aon.ts + e2eTimeout s, origin := f.origin, content := q.1.1, seq := q.1.2.1, recs := 0, move := false,
      port := 0, lane := 0, ord := s.fab.ord, kid := f.kid, addr := f.addr, nlines := f.nlines, epoch := f.epoch,
      beats := txBeats f, owner := shareOf s f.owner, retx := 0, rpos := 0 }
    let s := { s with fab := { s.fab with tags := tset s.fab.tags t e, tagGen := tset s.fab.tagGen t gen,
                                          ord := s.fab.ord + 1 } }
    let s := countEv s 0x052 (ownerPart f.owner) 1
    let s := if f.op ≠ opGap then s
      else
        let s := egMod s (streamKey f.dst (txStream f) q.1.2.2) (fun c => { c with gap := some t })
        if subOf (txStream f) = 0xFF then { s with fab := { s.fab with ackSince := tdel s.fab.ackSince (f.dst * 8 + f.tc) } } else s
    some (t, s)

/-- Send a frame that may go. -/
def sendFrame (s : State) (f : TxFrame) (pick : Nat) : State :=
  if isStored f then
    match takeTag s f with
    | none => pushTx s f
    | some (t, s) =>
      match f.comb with
      | some (g, i, k) =>
        if k ≤ 1 then sendTag s t pick
        else match tget s.fab.tags t with
          | some e =>
            let s := combJoin s g i (combPlace (combRecord e.content) (some t) k)
            if combFull (tgetD s.fab.combOut g []) then sendGroup s g pick else s
          | none => s
      | none => sendTag s t pick
  else
    let q := sealNext s f 0
    let n := flitsOf f.payload.length
    match placeFrame q.2 f.dst (txStream f) false n pick with
    | none => q.2
    | some (k, s) =>
      let a := f.dst * 8 + f.tc
      let s := if f.op = opEack then { s with fab := { s.fab with ackSince := tset s.fab.ackSince a (tgetD s.fab.ackSince a 0 + 1) } } else s
      chargeLane (sendFlits s k (cutFlits n q.1.1) [] (ownerPart f.owner)) f.owner f.tc n (k / 8)

/-- A queued frame fails before it is sent; an exhausted Chord places a KEY event (05 R173). -/
def failFrame (s : State) (f : TxFrame) (status : Nat) : State :=
  let s := if status = stKeyExhausted then occur s (mkRec 0x19 0xFF 0 0 status 0 f.dst 0 0 0) none else s
  let s := if f.cover then noteFailed s f.ctx f.fepoch s.fab.ord f.dst f.dst f.tc status else s
  let s := match f.comb with
    | some (g, i, k) => if 1 < k then combJoin s g i (combPlace [] none k) else s
    | none => s
  frameEnd s f.origin status [] 0

/-- Note the misses of the frames at the head of their streams. -/
def noteMisses (s : State) (l : List (Nat × TxFrame)) : State :=
  l.foldl (fun s x => match txReady s x.2 with
    | .ctxMiss => scMiss s (scKey (streamKey x.2.dst (txStream x.2) (txPar s x.2)) false) (txStream x.2)
    | .chordMiss => chordMiss s (chordKey x.2.dst 0 (txPar s x.2))
    | _ => s) s

/-- Note the frames at the head of their streams that find their tag share full (07 R229). -/
def noteFull (s : State) (l : List (Nat × TxFrame)) : State :=
  let full := (l.filter (fun x => !shareOk s x.2)).map (·.1)
  if full.isEmpty then s
  else { s with fab := { s.fab with
    txq := s.fab.txq.zipIdx.map (fun x => if full.contains x.2 then { x.1 with late := true } else x.1) } }

/-- The frames that may go, or fail, now: where frames of a share have waited for a tag, the first of them to arise goes before the
others of that share (07 R229). -/
def txGo (s : State) (heads : List (Nat × TxFrame)) : List (Nat × TxFrame) :=
  let may := heads.filter (fun x => match txReady s x.2 with
    | .go => true
    | .fail _ => true
    | _ => false)
  may.filter (fun x => !isStored x.2 || !may.any (fun y => y.2.late && isStored y.2 && shareOf s y.2.owner == shareOf s x.2.owner &&
    decide (y.1 < x.1)))

/-- A tag belongs to a group that is being gathered. -/
def inGroup (s : State) (t : Nat) : Bool := s.fab.combOut.any (fun g => (combTags g.2).contains t)

/-- Tags in STATE 1 that may be sent. -/
def tagGo (s : State) (pick : Nat) : List (Nat × TagEnt) :=
  s.fab.tags.filter (fun p => p.2.state == 1 && tagRoom s p.2 && !inGroup s p.1 &&
    (placeFrame s p.2.dst p.2.stream (p.2.op == opReduce) p.2.nfl pick).isSome)

/-- Full groups that may be sent, by their first tag. -/
def groupGo (s : State) (pick : Nat) : List (Nat × Nat × TagEnt) :=
  (s.fab.combOut.filter (fun g => combFull g.2)).filterMap (fun g => match combTags g.2 with
    | [] => none
    | t :: _ => (tget s.fab.tags t).bind (fun e =>
      if tagRoom s { e with nfl := (combTags g.2).length } &&
          (placeFrame s e.dst e.stream false (flitsOf (64 * (combTags g.2).length)) pick).isSome then some (g.1, t, e) else none))

/-- The best of the tags that may go: by turn, then by age. -/
def bestTag (s : State) (l : List (Nat × TagEnt)) : Option (Nat × TagEnt) :=
  l.foldl (fun b x => match b with
    | none => some x
    | some y =>
      let a := rankOf s x.2.owner x.2.tc
      let c := rankOf s y.2.owner y.2.tc
      if a < c ∨ (a = c ∧ x.2.ord < y.2.ord) then some x else some y) none

/-- One turn of the way out: of the tags and groups that wait in STATE 1 and the queued frames, the one whose turn is first; of equal
turn, what holds a tag already (01 R27; 06 R210; 07 R230; 11 R352). -/
def egressStep (s : State) (pick : Nat) : State :=
  let heads := txHeads s.fab.txq [] 0
  let s := noteFull (noteMisses s heads) heads
  let groups := groupGo s pick
  let tag := bestTag s (tagGo s pick ++ groups.map (fun g => (g.2.1, g.2.2)))
  let frame := txBest s (txGo s (txHeads s.fab.txq [] 0))
  let sendT := fun (t : Nat) => match groups.find? (fun g => g.2.1 == t) with
    | some g => sendGroup s g.1 pick
    | none => sendTag s t pick
  let sendF := fun (i : Nat) (f : TxFrame) =>
    let ready := txReady s f
    let s := { s with fab := { s.fab with txq := s.fab.txq.eraseIdx i } }
    match ready with
    | .fail st => failFrame s f st
    | _ =>
      let s := if f.tc = 0 then s else { s with fab := { s.fab with
        rrOwner := f.owner, rrTc := tset s.fab.rrTc f.owner f.tc } }
      sendFrame s f pick
  match tag, frame with
  | some x, some y => if rankOf s x.2.owner x.2.tc ≤ txRank s y.2 then sendT x.1 else sendF y.1 y.2
  | some x, none => sendT x.1
  | none, some y => sendF y.1 y.2
  | none, none => s

end Sys2Proof.Machine
end

