-- ==== Sys2Proof/Machine/Ingress.lean ====
section
/-! DEFINITION. The way in: the checks of a receiving Spoke in their order, the replay window, and the release of a
frame (06 R204 to R208; 05 R147, R169). -/

namespace Sys2Proof.Machine

/-- What a staged frame is handled as. -/
inductive RxKind where
  | plain | gap | boot | combined
  deriving DecidableEq, Repr

/-- The kind its header bytes announce. -/
def rxKind (raw : Bytes) : RxKind :=
  if leAt raw 5 1 / 16 % 2 = 1 then .boot
  else if leAt raw 15 1 % 16 = opGap then .gap
  else if leAt raw 15 1 % 16 = opCombined then .combined
  else .plain

/-- The complete frame at the head of a lane's staging (06 R181, R213). -/
def stagedFrame (s : State) (k : Nat) : Option Bytes :=
  match (laneAt s k).staging with
  | [] => none
  | f :: t => if nflOf f ≤ t.length + 1 then some (((f :: t).take (nflOf f)).flatMap id) else none

/-- Take it out of staging. -/
def dropStaged (s : State) (k : Nat) : State :=
  let l := laneAt s k
  match l.staging with
  | [] => s
  | f :: t => setLane s k { l with staging := (f :: t).drop (nflOf f) }

/-! Failures (06 R206). -/

/-- Steps 1 and 2: a malformed or misaddressed frame. -/
def protoErr (s : State) (k src : Nat) : State :=
  let port := k / 8
  occur (bump (setBits s (lpOff port 0x10) 2) (lpOff port 0x34)) (mkRec 0x02 0xFF port (k % 8) 0 0 src 0 0 0) none

/-- Step 6: a tag that does not verify. -/
def tagFailed (s : State) (k : Nat) (h : Hdr) : State :=
  let port := k / 8
  let p := ownerPart (ownerOf h.stream)
  let s := countEv (bump (setBits s (lpOff port 0x10) 4) (lpOff port 0x30)) (0x040 + port) none 1
  occur (countAon s 3 1) (mkRec 0x01 0xFF port (k % 8) 0 0 h.src 0 (p.getD 0) 0) p

/-! The replay window (06 R204, R205). Ranges are held as offsets from LOW, rising. -/

/-- Whether an offset lies in a range. -/
def inRanges (rs : List (Nat × Nat)) (d : Nat) : Bool := rs.any (fun r => decide (r.1 ≤ d) && decide (d < r.1 + r.2))

/-- Add an offset to ranges, merging neighbours. -/
def addRange : List (Nat × Nat) → Nat → List (Nat × Nat)
  | [], d => [(d, 1)]
  | (a, n) :: t, d =>
    if d + 1 < a then (d, 1) :: (a, n) :: t
    else if d + 1 = a then (d, n + 1) :: t
    else if d = a + n then
      match t with
      | (b, m) :: u => if a + n + 1 = b then (a, n + 1 + m) :: u else (a, n + 1) :: (b, m) :: u
      | [] => [(a, n + 1)]
    else (a, n) :: addRange t d

/-- Deliver the frame at LOW: LOW rises past it and past a range that starts there. -/
def advanceLow (c : Ingress) : Ingress :=
  match c.ranges with
  | (a, n) :: t =>
    if a = 1 then { c with low := c.low + 1 + n, ranges := t.map (fun r => (r.1 - 1 - n, r.2)) }
    else { c with low := c.low + 1, ranges := c.ranges.map (fun r => (r.1 - 1, r.2)) }
  | [] => { c with low := c.low + 1 }

/-- What the window says of a sequence. -/
inductive WinRes where
  | dup | full | ok (c : Ingress)

/-- Window update for a verified frame (06 R204) or GAP (06 R205). -/
def windowPut (c : Ingress) (n : Nat) (gap : Bool) : WinRes :=
  if n < c.low then .dup
  else if inRanges c.ranges (n - c.low) then .dup
  else if gap then .ok { c with low := n + 1, ranges := [] }
  else if n = c.low then .ok (advanceLow c)
  else
    let rs := addRange c.ranges (n - c.low)
    if 16 < rs.length then .full else .ok { c with ranges := rs }

/-- A fresh ingress context. -/
def Ingress.new : Ingress := { low := 0, ranges := [], resident := true }

/-! Admission (06 R206 step 3). -/

/-- The tag a module response names, with equal SRC, KID, ADDR, NLINES and EPOCH. -/
def moduleTag (s : State) (h : Hdr) : Option Nat :=
  match tget s.fab.tags (h.rtag % 2 ^ 18) with
  | some e =>
    if e.gen = h.rtag / 2 ^ 18 ∧ e.dst = h.src ∧ e.kid = h.kid ∧ e.addr = h.addr ∧ e.nlines = h.nlines ∧ e.epoch = h.epoch ∧
       ((e.op = opMread ∧ h.op = opMdata) ∨ (e.op = opMwrite ∧ h.op = opMdone)) then some (h.rtag % 2 ^ 18) else none
  | none => none

/-- Whether a generation-0 frame is admitted (05 R147); `opens` says that it carries GET_VERSION. -/
def bootAdmitted (s : State) (v : Nat) (opens : Bool) : Bool :=
  let parent := (s.dom.enrol.map (fun e => e.parent == v)).getD false
  if isMember s then
    let child := (tget s.dom.children v).any (·.committed)
    let isParent := (s.dom.parent.map (fun l => l.peer == v)).getD false
    ((s.dom.enrol.any (·.reparent)) && parent) || s.dom.opening.contains v ||
    (opens && inBitmap s v && !ownVertex s v && !isParent && !child)
  else s.dom.enrol.isSome && (parent || inBitmap s v)

/-- Whether the mailbox stream is open to a vertex (05 R169). -/
def streamOpen (s : State) (v : Nat) : Bool :=
  isMember s && match s.dom.policy with
    | some p => p.manager != 0xFFFF && p.manager == v
    | none => false

/-! Chords on the way in (05 R175; 06 R191). -/

/-- The generation a CGEN selects around the entry's: the entry's own, one more or one less. Generation 0 belongs to
the bootstrap seal. -/
def cgenPick (gen cgen : Nat) : Option Nat :=
  if cgen = gen % 16 then some gen
  else if cgen = (gen + 1) % 16 ∧ gen < 0xFFFFFFFF then some (gen + 1)
  else if 2 ≤ gen ∧ cgen = (gen - 1) % 16 then some (gen - 1)
  else none

/-- Step 3 for a frame of SEAL 0 or 1 that is not BOOT (06 R206). -/
def srcAdmitted (s : State) (h : Hdr) : Bool := otherMember s h.src || (ctlPeer s h.src && h.tc == 0)

/-- What a frame waits for: its stream context, its Chord. -/
def rxMisses (s : State) (h : Hdr) : State × Bool :=
  if h.smode = 2 ∨ h.boot ∨ !ownVertex s h.dst ∨ !srcAdmitted s h then (s, false)
  else
    let key := streamKey h.src h.stream h.dgen
    let away := (tget s.links.ingress key).any (fun c => !c.resident)
    let s := if away then scMiss s (scKey key true) h.stream else s
    let ck := chordKey h.src 1 h.dgen
    let noKey := (tget s.links.chord ck).isNone && (chordSlot s h.dgen).isSome
    ((if noKey then chordMiss s ck else s), away || noKey)

/-- The tag by which a frame is acknowledged: RTAG of a REQ, OWN_TAG of a RSP, and for the kinds that carry none, their
SEQ_LO (07 R224). DESIGN CHOICE (log 14). -/
def ackTag (h : Hdr) (payload : Bytes) : Nat :=
  if h.op = opReq then leAt payload 0 4 else if h.op = opRsp then leAt payload 8 4 else h.seqLo

/-- Steps 2 to 7 for a frame of SEAL 0 or 1 that is not BOOT, given its content; the frame to release, if any
(06 R206). -/
def rxSealed (s : State) (k : Nat) (h : Hdr) (content : Bytes) : State × Option InFrame :=
  let port := k / 8
  let gap := h.op == opGap
  if !ownVertex s h.dst then (protoErr s k h.src, none)
  else if !srcAdmitted s h then (bump s (lpOff port 0x38), none)
  else
    let key := streamKey h.src h.stream h.dgen
    let have_ := tget s.links.ingress key
    let c := have_.getD Ingress.new
    let seqN := rebuildSeq c.low h.seqLo
    if c.low + (if gap then 2048 else 1024) ≤ seqN then (bump s (lpOff port 0x2C), none)
    else if have_.isNone ∧ !scRoom s then
      (ioEvent (setBits s 0x1900C (toW (2 ^ 17))) 0xFF port 0 h.src 0 0 0, none)
    else
      let ck := chordKey h.src 1 h.dgen
      match tget s.links.chord ck with
      | none => (tagFailed s k h, none)
      | some ch =>
        match cgenPick ch.gen h.cgen with
        | none => (tagFailed s k h, none)
        | some g =>
          let d := if g = ch.gen then (ch.key, s) else deriveChord s h.src true ch.slot g
          let s := d.2
          if !tagOk d.1 h seqN content then (tagFailed s k h, none)
          else
            let s := if g = ch.gen + 1 then setChord s ck { ch with gen := g, count := 0, key := d.1 } else chordTouch s ck
            let pay := openFrame d.1 h seqN content
            if h.mbxs ∧ !(streamOpen s h.src && h.tc == 0 && h.op == opMgmt) then (s, none)
            else
              let s := if have_.isNone then
                  let s := scEvict s
                  { s with links := { s.links with ingress := tset s.links.ingress key Ingress.new } }
                else s
              let s := scTouch s (scKey key true)
              match windowPut c seqN gap with
              | .full => (bump (setBits s (lpOff port 0x10) 0x10) (lpOff port 0x2C), none)
              | .dup =>
                let s := bump s (lpOff port 0x28)
                (if h.op = opEack then s else pushEack s h.src h.tc (ackTag h pay) stOk true, none)
              | .ok c' =>
                let s := mirrorRec { s with links := { s.links with ingress := tset s.links.ingress key c' } } (.ingress key c')
                let s := countEv s (0x038 + port) (ownerPart (ownerOf h.stream)) 1
                (s, some { hdr := h, payload := pay, port := port, seqN := seqN, comb := none })

/-- Put a frame before its engine; at a synchronised owner its release waits for the mirror (12 R410). -/
def inboxPush (s : State) (f : InFrame) : State := { s with fab := { s.fab with inbox := s.fab.inbox ++ [f] } }

/-- Release a frame (06 R206 step 8): REDUCE, MGMT and DUMP frames are acknowledged as they are released (07 R224). -/
def release (s : State) (f : InFrame) : State :=
  let s := if f.hdr.op = opReduce ∨ f.hdr.op = opMgmt ∨ f.hdr.op = opDump then
      pushEack s f.hdr.src f.hdr.tc (ackTag f.hdr f.payload) stOk false else s
  if mirrored s then holdAct s (.release f) else inboxPush s f

/-- Flits of a complete frame are counted for its OWNER (13 R424). -/
def countRx (s : State) (k : Nat) (content : Bytes) : State :=
  let h := Hdr.parse (content.take 32)
  countEv s (0x018 + k / 8) (if h.smode < 2 then ownerPart (ownerOf h.stream) else none) (nflOf content)

/-! The input of a reduction (09 R307, R314, R316). -/

/-- A data frame of a reduction, by its header. -/
def dataHdr (h : Hdr) : Bool := h.op == opReduce && decide (subOf h.stream < 0x80)

/-- A data frame of a reduction. -/
def dataFrame (f : InFrame) : Bool := dataHdr f.hdr

/-- The stage, its input and its binding for a data frame. -/
def stageFor (s : State) (h : Hdr) : Option (Nat × Stage × StageIn × Bind) :=
  match tfind s.red.stages (fun _ g => g.part + 1 == ownerOf h.stream && g.inSub == subOf h.stream &&
    g.inputs.any (fun i => i.vertex == h.src)) with
  | none => none
  | some (d, g) => match g.inputs.find? (fun i => i.vertex == h.src) with
    | none => none
    | some i => (i.binds.find? (fun b => b.par == h.dgen)).map (fun b => (d, g, i, b))

/-- The input of a data frame has all its slots in use. -/
def inputFull (s : State) (h : Hdr) : Bool :=
  match stageFor s h with
  | some (_, _, i, _) => decide (8 ≤ i.frames.length)
  | none => false

/-- The input of a data frame has no slot for another, beside those that the released frames before it take: the frame stays in
its lane's staging (09 R316), and is checked and acknowledged when it leaves. DEDUCED (log 40). -/
def inputHolds (s : State) (h : Hdr) : Bool :=
  dataHdr h && match stageFor s h with
  | some (_, _, i, _) => decide (8 ≤ i.frames.length +
      s.fab.inbox.countP (fun f => dataFrame f && f.hdr.src == h.src && f.hdr.stream == h.stream))
  | none => false

/-- A complete plain frame (06 R206). -/
def rxPlain (s : State) (k : Nat) (content : Bytes) : State :=
  let raw := content.take 32
  let h := Hdr.parse raw
  let done := fun (s : State) => dropStaged (countRx s k content) k
  if !hdrOk raw then protoErr (done s) k h.src
  else if h.smode = 2 then
    if !ownVertex s h.dst then protoErr (done s) k h.src
    else match moduleTag s h with
      | none => bump (done s) (lpOff (k / 8) 0x38)
      | some _ =>
        let s := countEv (done s) (0x038 + k / 8) none 1
        inboxPush s { hdr := h, payload := slice content 32 h.plen, port := k / 8, seqN := 0, comb := none }
  else
    let m := rxMisses s h
    if m.2 || inputHolds s h then m.1
    else
      let r := rxSealed (done m.1) k h content
      match r.2 with
      | some f => release r.1 f
      | none => r.1

/-- A complete GAP frame (06 R205): it is acknowledged like any stored frame. -/
def rxGap (s : State) (k : Nat) (content : Bytes) : State :=
  let raw := content.take 32
  let h := Hdr.parse raw
  let done := fun (s : State) => dropStaged (countRx s k content) k
  if !hdrOk raw ∨ h.plen ≠ 0 then protoErr (done s) k h.src
  else
    let m := rxMisses s h
    if m.2 then m.1
    else
      let r := rxSealed (done m.1) k h content
      match r.2 with
      | some f => pushEack r.1 h.src h.tc (ackTag h f.payload) stOk false
      | none => r.1

/-- A complete BOOT frame (06 R207; 05 R147): `spdm` says that it carries an SPDM message, `opens` that the message is
GET_VERSION. Answers whether the frame is accepted. -/
def rxBoot (s : State) (k : Nat) (content : Bytes) (spdm opens : Bool) : State × Bool :=
  let raw := content.take 32
  let h := Hdr.parse raw
  let port := k / 8
  let s := dropStaged (countRx s k content) k
  if !hdrOk raw ∨ h.mbxs then (protoErr s k h.src, false)
  else if !ownVertex s h.dst then (protoErr s k h.src, false)
  else if !(spdm && bootAdmitted s h.src opens) then (bump s (lpOff port 0x38), false)
  else if !tagOk 0 h h.seqLo content then (tagFailed s k h, false)
  else
    let s := countEv s (0x038 + port) none 1
    if opens && !s.dom.opening.contains h.src && !s.dom.enrol.any (fun e => e.parent == h.src && !e.committed) then
      ({ s with dom := { s.dom with opening := s.dom.opening ++ [h.src] } }, true)
    else (s, true)

/-- Records of a COMBINED frame (06 R186). -/
def combRecords : Nat → Bytes → List Bytes
  | 0, _ => []
  | n + 1, b => b.take 64 :: combRecords n (b.drop 64)

/-- A record as the single-flit frame it was. -/
def recordFrame (r : Bytes) : Bytes := padTo 236 (r.take 48) ++ slice r 48 16

/-- The header of a COMBINED frame is well formed, and the frame is for this block (06 R186). -/
def combOk (s : State) (raw : Bytes) : Bool :=
  let h := Hdr.parse raw
  let n := h.plen / 64
  hdrOk raw && h.stream == 0 && h.seqLo == 0 && h.cgen == 0 && !h.dgen && h.operand == 0 && !h.mbxs && h.plen == 64 * n &&
  decide (2 ≤ n) && decide (n ≤ 62) && ownVertex s h.dst

/-- A record is a sealed frame of its own, of the class, destination and address of the whole (06 R186). -/
def recFits (h : Hdr) (r : Bytes) : Bool :=
  let x := Hdr.parse (r.take 32)
  decide (x.smode < 2) && !x.boot && x.op != opCombined && x.tc == h.tc && x.dst == h.dst && x.addr == h.addr && x.aop == h.aop

/-- What the records that fit miss: their stream contexts and Chords. -/
def recMisses (s : State) (rs : List Bytes) : State × Bool :=
  rs.foldl (fun a r =>
    let m := rxMisses a.1 (Hdr.parse (r.take 32))
    (m.1, a.2 || m.2)) (s, false)

/-- One record after those before it: a protocol error where it does not fit, else checked from step 2 on. -/
def rxRecord (k : Nat) (h : Hdr) (a : State × List InFrame) (r : Bytes) : State × List InFrame :=
  let x := Hdr.parse (r.take 32)
  if !recFits h r then (protoErr a.1 k x.src, a.2)
  else
    let q := rxSealed a.1 k x (recordFrame r)
    (q.1, a.2 ++ q.2.toList)

/-- A complete COMBINED frame: the records that pass their checks from step 2 on, in order; none when the frame must wait for a
miss (06 R186, R206). -/
def rxCombined (s : State) (k : Nat) (content : Bytes) : State × List InFrame :=
  let raw := content.take 32
  let h := Hdr.parse raw
  let done := fun (s : State) => dropStaged (countRx s k content) k
  if !combOk s raw then (protoErr (done s) k h.src, [])
  else
    let rs := combRecords (h.plen / 64) (slice content 32 h.plen)
    let w := recMisses s (rs.filter (recFits h))
    if w.2 then (w.1, []) else rs.foldl (rxRecord k h) (bumpBy (done w.1) 0x1A040 rs.length, [])

/-- Take the first waiting frame that meets a test. -/
def popInbox (s : State) (p : InFrame → Bool) : Option (InFrame × State) :=
  match s.fab.inbox.findIdx? p with
  | none => none
  | some i => match s.fab.inbox[i]? with
    | some f => some (f, { s with fab := { s.fab with inbox := s.fab.inbox.eraseIdx i } })
    | none => none

end Sys2Proof.Machine
end

