-- ==== Sys2Proof/Machine/Bolok.lean ====
section
/-! DEFINITION. The tables of the Bolok protocol: opcodes, rights, states, lengths and reserved bits (03 R85, R90, R97
to R104), and the replies of a source (03 R86, R89, R91). -/

namespace Sys2Proof.Machine

/-- OPCODE values (03 R97). -/
def opOf : Nat → Option Op
  | 0x01 => some .getInfo
  | 0x02 => some .query
  | 0x12 => some .debugAuth
  | 0x20 => some .keyDerive
  | 0x21 => some .keyInvalidate
  | 0x22 => some .keyInfo
  | 0x30 => some .spdm
  | 0x40 => some .domainEnrol
  | 0x41 => some .domainRekey
  | 0x42 => some .chordRekey
  | 0x50 => some .regionCreate
  | 0x51 => some .regionDestroy
  | 0x52 => some .regionRekey
  | 0x60 => some .pgdWrite
  | 0x61 => some .pgdRead
  | 0x70 => some .partitionCreate
  | 0x71 => some .partitionDestroy
  | 0x72 => some .contextTeardown
  | 0x73 => some .contextReset
  | 0x80 => some .migLogStart
  | 0x81 => some .migFreeze
  | 0x82 => some .migSave
  | 0x83 => some .migRestore
  | 0x90 => some .pmuConfig
  | 0x91 => some .dumpArm
  | 0x92 => some .watchSet
  | 0xA0 => some .repairStatus
  | 0xA1 => some .selftest
  | 0xA2 => some .fwStage
  | 0xB0 => some .tandemFailover
  | _ => none

/-- The value of an opcode (03 R97). -/
def opVal : Op → Nat
  | .getInfo => 0x01
  | .query => 0x02
  | .debugAuth => 0x12
  | .keyDerive => 0x20
  | .keyInvalidate => 0x21
  | .keyInfo => 0x22
  | .spdm => 0x30
  | .domainEnrol => 0x40
  | .domainRekey => 0x41
  | .chordRekey => 0x42
  | .regionCreate => 0x50
  | .regionDestroy => 0x51
  | .regionRekey => 0x52
  | .pgdWrite => 0x60
  | .pgdRead => 0x61
  | .partitionCreate => 0x70
  | .partitionDestroy => 0x71
  | .contextTeardown => 0x72
  | .contextReset => 0x73
  | .migLogStart => 0x80
  | .migFreeze => 0x81
  | .migSave => 0x82
  | .migRestore => 0x83
  | .pmuConfig => 0x90
  | .dumpArm => 0x91
  | .watchSet => 0x92
  | .repairStatus => 0xA0
  | .selftest => 0xA1
  | .fwStage => 0xA2
  | .tandemFailover => 0xB0

/-- Whether the partition mailboxes have rights to the opcode (03 R97, column From). -/
def opForP : Op → Bool
  | .keyDerive | .keyInvalidate | .keyInfo | .domainEnrol | .domainRekey | .chordRekey | .partitionCreate
  | .partitionDestroy | .migLogStart | .migFreeze | .migSave | .migRestore | .repairStatus | .selftest | .fwStage
  | .tandemFailover => false
  | _ => true

/-- A source with M rights: mailbox 0 and the TC0 stream (03 R81). -/
def isM (src : Nat) : Bool := src == 0 || src == 17

/-- The life-cycle states that permit the opcode (03 R97). -/
def opInState (op : Op) (lc : LcState) : Bool :=
  match op with
  | .getInfo | .query | .pmuConfig | .repairStatus | .selftest | .fwStage =>
    lc == .testUnlocked || lc == .manuf || lc == .prod || lc == .analysis
  | .debugAuth => lc == .manuf || lc == .prod || lc == .analysis
  | .domainEnrol | .domainRekey | .chordRekey => lc == .prod
  | _ => lc == .manuf || lc == .prod

/-- Opcodes that accept CONT (03 R88, R97). -/
def opBlobIn : Op → Bool
  | .spdm | .domainEnrol | .migRestore | .fwStage => true
  | _ => false

/-- Parameter word `i` (w2 is word 0), or 0. -/
def pw (p : List Word) (i : Nat) : Word := p.getD i 0

/-- A 64-bit parameter with its low half first (03 R97). -/
def pw64 (p : List Word) (i : Nat) : Nat := (pw p i).toNat + 2 ^ 32 * (pw p (i + 1)).toNat

/-- The LENGTH a packet's layout requires, from its own count field as written (03 R90 order 7). -/
def lenOk (op : Op) (p : List Word) : Bool :=
  let l := p.length
  match op with
  | .getInfo | .query | .repairStatus | .tandemFailover => l == 0
  | .debugAuth => 1 ≤ l && l == (if fld (pw p 0) 7 0 = 1 then 1191 else 2)
  | .keyDerive => 6 ≤ l && l == 6 + ceilDiv (fld (pw p 5) 8 0) 4
  | .spdm => 2 ≤ l && l == 2 + ceilDiv (fld (pw p 1) 13 0) 4
  | .domainEnrol => 4 ≤ l && l == 4 + ceilDiv (fld (pw p 3) 13 0) 4
  | .migRestore => 3 ≤ l && l == 3 + ceilDiv (fld (pw p 2) 13 0) 4
  | .partitionCreate => 14 ≤ l && l == 14 + fld (pw p 13) 4 0
  | .regionCreate => l == 10
  | .pgdWrite => l == 33
  | .migLogStart => l == 4
  | .migSave => l == 2
  | .pmuConfig => l == 3
  | .dumpArm => l == 5
  | .watchSet => l == 6
  | .fwStage => 2 ≤ l && l ≤ 4096
  | _ => l == 1

/-- The bits each parameter word names; the rest are reserved (03 R97). Words beyond the list are whole. -/
def opMasks : Op → List Word
  | .debugAuth => [0xFF, 0x1F]
  | .keyDerive => [0x7FF, 0xFFFFFF, 0xFFFF, 0xFFFFFFFF, 0xFFFFFFFF, 0x1FF]
  | .keyInvalidate | .keyInfo => [0x7FF]
  | .spdm => [0x1, 0x3FFF]
  | .domainEnrol => [0x3, 0xFFFF, 0xFFFF, 0x3FFF]
  | .chordRekey => [0x7FFFF]
  | .regionCreate => [0xF3FFF, 0xFFFF]
  | .regionDestroy | .regionRekey | .contextTeardown | .contextReset => [0xF0FFF]
  | .pgdWrite | .pgdRead => [0xFFFFF]
  | .partitionCreate => [0xF, 0xFFF0FFF, 0xFFFF, 0xFF1F7F, 0xFFFFF, 0, 0xFFFF, 0xFFFF, 0xFFFF, 0xFFFF, 0xFFFF, 0xFFFF, 0,
      0x1F] ++ List.replicate 16 0xFFFFF
  | .partitionDestroy => [0xF]
  | .migLogStart => [0x10F, 0xFFFFF000, 0xFFFFFFFF, 0xFFFFFFFF]
  | .migFreeze => [0x10F]
  | .migSave => [0xF, 0xFFFF]
  | .migRestore => [0xF, 0xFFFF, 0x3FFF]
  | .pmuConfig => [0x7F, 0x1303FF, 0x1F]
  | .dumpArm => [0xFFFFFFFF, 0xFFFFFFFF, 0xFFFFFFFF, 0xFFFF, 0x1]
  | .watchSet => [0x7, 0xF7]
  | .selftest => [0x7F]
  | _ => []

/-- Every word holds zeros outside its mask. -/
def masksOk : List Word → List Word → Bool
  | m :: ms, w :: ws => (w &&& ~~~m) == 0 && masksOk ms ws
  | _, _ => true

/-- The bytes of a fragment: after the fixed words, `n` of them (03 R98 to R104). -/
def fragBytes (p : List Word) (fixed n : Nat) : Bytes := (wordBytes (p.drop fixed)).take n

/-- The padding after `n` bytes is zero (03 R99, R100: "zero-padded"). -/
def padZero (p : List Word) (fixed n : Nat) : Bool := ((wordBytes (p.drop fixed)).drop n).all (· == 0)

/-- Reserved fields and encodings (03 R90 order 8, 00 R11). -/
def fieldsOk (op : Op) (p : List Word) : Bool :=
  masksOk (opMasks op) p &&
  match op with
  | .debugAuth => decide (fld (pw p 0) 7 0 ≤ 2)
  | .keyDerive =>
    let n := fld (pw p 5) 8 0
    typeListed (fld (pw p 1) 7 0) && decide (fld (pw p 1) 23 17 = 0) && 1 ≤ n && n ≤ 256 && padZero p 6 n
  | .spdm => let n := fld (pw p 1) 13 0
    n ≤ 16376 && padZero p 2 n
  | .domainEnrol => let n := fld (pw p 3) 13 0
    decide (fld (pw p 0) 1 0 ≤ 1) && (fld (pw p 0) 1 0 != 1 || fld (pw p 2) 15 0 == 0) && padZero p 4 n
  | .migRestore => padZero p 3 (fld (pw p 2) 13 0)
  | .chordRekey =>
    (wbit (pw p 0) 16 || wbit (pw p 0) 17) && (!wbit (pw p 0) 18 || fld (pw p 0) 15 0 == 0)
  | .regionCreate =>
    16 ≤ fld (pw p 0) 11 0 && (fld (pw p 0) 13 12 == 1 || fld (pw p 0) 13 12 == 2)
  | .partitionCreate => 1 ≤ fld (pw p 13) 4 0 && fld (pw p 13) 4 0 ≤ 16
  | _ => true

/-- The fixed words that a blob's fragments repeat (03 R88). -/
def repeatedWords (op : Op) (p : List Word) : List Word :=
  match op with
  | .domainEnrol => [pw p 0, pw p 1, pw p 2]
  | .spdm => [pw p 0]
  | .migRestore => [pw p 0, pw p 1]
  | _ => []

/-- The blob bytes of one fragment. -/
def blobBytes (op : Op) (p : List Word) : Bytes :=
  match op with
  | .domainEnrol => fragBytes p 4 (fld (pw p 3) 13 0)
  | .spdm => fragBytes p 2 (fld (pw p 1) 13 0)
  | .migRestore => fragBytes p 3 (fld (pw p 2) 13 0)
  | .fwStage => wordBytes (p.drop 1)
  | _ => []

/-! Replies. -/

/-- The mailbox of a source. -/
def mb (s : State) (src : Nat) : Mbox := tgetD s.hub.mbox src Mbox.empty

/-- Replace it. -/
def setMb (s : State) (src : Nat) (m : Mbox) : State := { s with hub := { s.hub with mbox := tset s.hub.mbox src m } }

/-- The words of a reply (03 R86). -/
def replyWords (opv : Nat) (status : Nat) (tag : Word) (params : List Word) : List Word :=
  toW (opv * 2 ^ 24 + status * 2 ^ 16 + params.length) :: tag :: params

/-- Post a final reply of one fragment: the command is over, the background hold ends, and the reply is retained
where R91 says so. -/
def reply (s : State) (src : Nat) (op : Op) (tag : Word) (status : Nat) (params : List Word) : State :=
  let m := mb s src
  let ws := replyWords (opVal op) status tag params
  let keep := status != stBadLength && status != stBusy && status != stPending
  let m := { m with packet := none, replies := m.replies ++ [ws], hbLoss := 0,
                    blob := if status = stBadLength ∨ status = stBusy then m.blob else none,
                    retTag := if keep then some tag else m.retTag,
                    retReply := if keep then some (op, ws) else m.retReply }
  let s := setMb s src m
  { s with hub := { s.hub with bg := s.hub.bg.filter (fun b => b.src != src) } }

/-- Post a reply under an opcode value, which is not retained but whose tag may be: admission refuses the packet. -/
def replyRaw (s : State) (src opv : Nat) (tag : Word) (status : Nat) (retTag : Option Word) (keepBlob : Bool) : State :=
  let m := mb s src
  setMb s src { m with packet := none, replies := m.replies ++ [replyWords opv status tag []], hbLoss := 0,
                       blob := if keepBlob then m.blob else none,
                       retTag := if retTag.isSome then retTag else m.retTag,
                       retReply := if retTag.isSome then none else m.retReply }

/-- Answer a fragment that is not the last: the blob grows and stays open (03 R88). -/
def replyPending (s : State) (src : Nat) (k : Packet) (fixed : List Word) : State :=
  let m := mb s src
  let s := setMb s src { m with packet := none, replies := m.replies ++ [replyWords (opVal k.op) stPending k.tag []],
                                hbLoss := 0, blob := some { op := k.op, tag := k.tag, fixed := fixed, data := k.blob } }
  { s with hub := { s.hub with bg := s.hub.bg.filter (fun b => b.src != src) } }

/-- Post a reply in fragments of at most `words` parameter words built from whole fragments (03 R89, R91). -/
def replyFrags (s : State) (src : Nat) (op : Op) (tag : Word) (frags : List (List Word)) : State :=
  match frags with
  | [] => reply s src op tag stOk []
  | [p] => reply s src op tag stOk p
  | _ =>
    let m := mb s src
    let n := frags.length
    let ws := (frags.zipIdx).map (fun x => replyWords (opVal op) (if x.2 + 1 = n then stOk else stPending) tag x.1)
    let s := setMb s src { m with packet := none, replies := m.replies ++ ws, hbLoss := 0, blob := none, retTag := some tag,
                                  retReply := none }
    { s with hub := { s.hub with bg := s.hub.bg.filter (fun b => b.src != src) } }

/-- The admitted packet of a source, when its opcode is the one asked. -/
def packetOf (s : State) (src : Nat) (op : Op) : Option Packet :=
  match (mb s src).packet with
  | some p => if p.op = op then some p else none
  | none => none

/-- A background command starts waiting and holds what it names (03 R94). -/
def startBg (s : State) (src : Nat) (op : Op) (holds : List Hold) : State :=
  { s with hub := { s.hub with bg := s.hub.bg ++ [{ src := src, op := op, holds := holds }] } }

/-- Whether a background command holds an object (03 R94). -/
def isHeld (s : State) (h : Hold) : Bool := s.hub.bg.any (fun b => b.holds.contains h)

/-- The background command of an opcode that waits. -/
def bgOf (s : State) (op : Op) : Option Bg := s.hub.bg.find? (fun b => b.op == op)

/-- Complete the waiting command of a source with a status and no parameters (03 R86). -/
def failWaiting (s : State) (src : Nat) (status : Nat) : State :=
  match (mb s src).packet with
  | some p => reply s src p.op p.tag status []
  | none => s

end Sys2Proof.Machine
end

