-- ==== Sys2Proof/Machine/Leave.lean ====
section
/-! DEFINITION. The end of a membership (05 R167; 13 R423, R435). -/

namespace Sys2Proof.Machine

/-- Counters and watchpoints of a source stop and become free. -/
def freeOwned (s : State) (src : Nat) : State :=
  { s with dbg := { s.dbg with
    cnt := tmapV s.dbg.cnt (fun _ c => if c.owner = src then { c with owner := 31, enable := false } else c)
    watch := tmapV s.dbg.watch (fun _ w => if w.owner = src then { w with owner := 31, enable := false } else w) } }

/-- Commands of the domain that wait when the membership ends. -/
def failDomainCmds (s : State) : State :=
  (s.hub.bg.filter (fun b => b.op == .domainEnrol || b.op == .domainRekey || b.op == .chordRekey)).foldl (fun s b => failWaiting s b.src stNotPermitted) s

/-- The regions homed here lose their root counters and their cached nodes, and with them every line that waited for its seal; they
stay in the table until they are destroyed (08 R275). -/
def loseRegions (s : State) : State :=
  let home := fun (r : Region) => r.kind == 1 && r.authority
  let here := fun (kid : Nat) => (regionAt s kid).any home
  { s with
    mem := { s.mem with
      region := tmapV s.mem.region (fun _ r => if home r then { r with root := 0, lost := true, sweep := none } else r)
      cc := []
      fills := []
      wbs := tkeep s.mem.wbs (fun _ w => w.part.sent)
      jobs := tkeep s.mem.jobs (fun _ j => j.started && !j.reading)
      ctagBad := []
      regGen := [] }
    fab := { s.fab with
      hot := s.fab.hot.filter (fun h => !here h.kid)
      tracker := s.fab.tracker.filter (fun t => !here t.kid) } }

/-- The block leaves its domain: slots 3 to 6 are invalidated, Chords flushed, stream contexts end, grants end, the TC0
stream closes; what waits at the memory seal engine meets the end of its keys. -/
def endMembership (s : State) : State :=
  if s.dom.vertex.isNone then s
  else
    let s := failDomainCmds s
    let s := invalidateSlot (invalidateSlot (invalidateSlot (invalidateSlot s 3) 4) 5) 6
    pumpMem (loseRegions (freeOwned (loseDomain (clearStreams (clearChords s))) 17))

end Sys2Proof.Machine
end

