-- ==== Sys2Proof/Machine/Settle.lean ====
section
/-! DEFINITION. What completes of itself once a command has acted: publishes, fences, moves, faults of contexts; the
latches and the halt that hold after every command; and the frames in which commands run (07 R247, R248; 08 R283,
R285; 02 R51, R55; 12 R400). -/

namespace Sys2Proof.Machine

/-! Fences (07 R247 to R249; 11 R355). -/

/-- Whether a write to a vertex and class lies in a fence's scope (07 R247). -/
def inScope (f : Fence) (dst via tc : Nat) : Bool :=
  match f.scope with
  | 0 => true
  | 1 => dst == f.vertex || via == f.vertex
  | _ => tc == 4

/-- Whether a fence covers a write. -/
def fenceCovers (f : Fence) (ctx epoch dst via tc : Nat) : Bool :=
  f.ctx == ctx && decide (epoch ≤ f.epoch) && inScope f dst via tc

/-- A covered write has not retired: a stored frame, a frame queued or parked, a write at a local home, a line
operation. -/
def fenceOpen (s : State) (f : Fence) : Bool :=
  let own := s.dom.vertex.getD 0
  let tx := fun (x : TxFrame) => x.cover && fenceCovers f x.ctx x.fepoch x.dst x.dst x.tc
  s.fab.tags.any (fun p => p.2.cover && fenceCovers f p.2.ctx p.2.fepoch p.2.dst p.2.dst p.2.tc) ||
  s.fab.txq.any tx || s.fab.parks.any (fun p => p.2.any (fun q => q.frames.any tx)) ||
  s.fab.homes.any (fun p => p.2.cover && fenceCovers f p.2.ctx p.2.fepoch own own p.2.tc) ||
  s.mem.ops.any (fun p => p.2.cover &&
    fenceCovers f p.2.ctx p.2.fepoch own (((regionAt s p.2.kid).map rVertex).getD own) 4)

/-- The failed writes a descriptor's fences cover. -/
def fenceFails (s : State) (fs : List Fence) : List FailedWrite :=
  s.fab.failed.filter (fun x => fs.any (fun f => fenceCovers f x.ctx x.epoch x.dst x.via x.tc))

/-- The status of the earliest-issued of these writes, or ST_OK. -/
def earliestFail (l : List FailedWrite) : Nat :=
  ((l.foldl (fun (b : Option FailedWrite) x => match b with
    | none => some x
    | some y => if x.ord < y.ord then some x else some y) none).map (·.status)).getD stOk

/-- A descriptor's fence is over: its status is that of the earliest covered write that failed; a failure is forgotten
once no pending fence covers it (07 R247). -/
def endFence (s : State) (d : Nat) : State :=
  let fs := s.fab.fences.filter (fun f => f.desc == d)
  let rest := s.fab.fences.filter (fun f => f.desc != d)
  let bad := fenceFails s fs
  let kept := s.fab.failed.filter (fun x => !bad.contains x ||
    rest.any (fun f => fenceCovers f x.ctx x.epoch x.dst x.via x.tc))
  let s := countEv { s with fab := { s.fab with fences := rest, failed := kept } } 0x055 (ctxPart s ((fs.map (·.ctx)).headD 0)) 1
  completeDesc s d (earliestFail bad) 0

/-- Fences whose covered writes have all retired complete. -/
def settleFences (s : State) : State :=
  ((s.fab.fences.map (·.desc)).dedup).foldl (fun s d =>
    if s.fab.fences.any (fun f => f.desc == d && fenceOpen s f) then s else endFence s d) s

/-! Publishes and invalidates (08 R283 to R285). -/

/-- One that waits for no operation any more. -/
def endDrain (s : State) (x : Drain) : State :=
  let s := { s with mem := { s.mem with drains := s.mem.drains.filter (fun y => y.desc != x.desc) } }
  match regionAt s x.kid with
  | none => completeDesc s x.desc stStaleHandle 0
  | some r =>
    if !x.publish then completeDesc s x.desc stOk r.epoch
    else
      let st := if x.status ≠ stOk then x.status else r.wFail
      if st ≠ stOk then completeDesc s x.desc st r.epoch
      else if 0xFFFFFFFF ≤ r.epoch then completeDesc s x.desc stEpochExhausted r.epoch
      else completeDesc (setRegion s x.kid { r with epoch := r.epoch + 1, wFail := stOk }) x.desc stOk (r.epoch + 1)

/-- Publishes and invalidates whose operations are over complete. -/
def settleDrains (s : State) : State :=
  (s.mem.drains.filter (fun x => !x.ops.any (fun i => (tget s.mem.ops i).isSome))).foldl endDrain s

/-! Updates (10 R342). -/

/-- Updates one of whose accesses has failed end with its status. -/
def settleUpdates (s : State) : State :=
  s.upd.runs.foldl (fun s p => match (tget s.upd.runs p.1).bind (·.failed) with
    | some st => failUpdate s p.1 st
    | none => s) s

/-! Replies of the TC0 mailbox stream (03 R95). -/

/-- The last fragment of a migration blob stands at its source: SAVED sets (11 R376). -/
def noteSaved (s : State) (src : Nat) : State :=
  let m := mb s src
  match m.saving with
  | some p => if m.replies.length ≤ 1 then setPart (setMb s src { m with saving := none }) p { partAt s p with saved := true } else s
  | none => s

/-- A frame of a reply fragment has not been acknowledged end to end. -/
def replyOut (s : State) : Bool :=
  s.fab.txq.any (fun f => f.origin == .reply) || s.fab.tags.any (fun p => p.2.origin == .reply)

/-- The payloads that carry a string of bytes in frames of at most 3,984 bytes. -/
def cutReply : Nat → Bytes → List Bytes
  | 0, _ => []
  | n + 1, b => if b.isEmpty then [] else b.take 3984 :: cutReply n (b.drop 3984)

/-- The present fragment leaves, and is released once its frames are acknowledged; `rd` 1 says that it has left. -/
def settleStream (s : State) : State :=
  let m := mb s 17
  match m.replies with
  | [] => s
  | r :: rest =>
    if m.rd = 0 then
      let b := wordBytes r
      let s := setMb s 17 { m with rd := 1 }
      (cutReply (b.length + 1) b).foldl (fun s x =>
        pushTx s { TxFrame.blank with dst := m.vertex, op := opMgmt, mbxs := true, payload := x, origin := .reply }) s
    else if replyOut s then s
    else noteSaved (setMb s 17 { m with replies := rest, rd := 0, released := !rest.isEmpty, busy := !rest.isEmpty }) 17

/-- A membership that ends once its last messages have left ends (05 R176). -/
def settleLeave (s : State) : State :=
  if s.dom.leaving && !s.fab.txq.any (fun f => f.op == opMgmt && (tget s.dom.children f.dst).isSome) then endMembership s else s

/-- Everything that completes of itself. -/
def settle (s : State) : State :=
  settleLeave <| settleStream <| settleFaults (settleUpdates (settleFences (settleDrains (settleHomes (settleMoves (settleFaults s))))))

/-! What holds after every command. -/

/-- tvd_halt_req and the latched test root fall with tvd_por_n alone (02 R51, R55), and no command but the front's
removal touches the queue. -/
def latch (s t : State) : State :=
  { t with pending := s.pending, aon := { t.aon with
      haltReq := t.aon.haltReq || s.aon.haltReq, testRoot := t.aon.testRoot || s.aon.testRoot } }

/-- A halted block holds no key, no chord, no stream context, no pinned line and no region, drives no lane and is not
ready (12 R400). -/
def haltClamp (t : State) : State :=
  if t.aon.haltReq then
    { t with
      keys := KeyStore.reset
      links := { Links.reset with lane := tmapV t.links.lane (fun _ l => { Lane.down with up := l.up, cause := l.cause }) }
      fab := { t.fab with hot := [], tracker := [] }
      mem := { Mem.reset with wear := t.mem.wear, next := t.mem.next }
      red := { t.red with stages := [] }
      dom := Domain.reset
      aon := { t.aon with ready := false } }
  else t

/-- The entries of a table that a command has changed, and those it has taken away. -/
def changes {α : Type} [DecidableEq α] (a b : Tbl α) : List (Nat × Option α) :=
  (b.filter (fun p => !a.contains p)).map (fun p => (p.1, some p.2)) ++
  (a.filter (fun p => (tget b p.1).isNone)).map (fun p => (p.1, none))

/-- The records of key slots, chords, setup and alarms that a command has changed (12 R409). A chord's frame count and a root
counter are no change of their entry here. -/
def setupRecs (s t : State) : List Mirror :=
  let still := fun (l : Tbl Chord) => tmapV l (fun _ c => { c with count := 0 })
  let rooted := fun (l : Tbl Region) => tmapV l (fun _ r => { r with root := 0 })
  ((changes s.keys.slots t.keys.slots).filter (fun p => decide (3 ≤ p.1))).map (fun p => .key p.1 (p.2.getD Slot.zero)) ++
  (changes (still s.links.chord) (still t.links.chord)).map (fun p => .chord p.1 (tget t.links.chord p.1)) ++
  (changes (rooted s.mem.region) (rooted t.mem.region)).map (fun p => .region p.1 (tget t.mem.region p.1)) ++
  (changes s.parts.part t.parts.part).map (fun p => .part p.1 (p.2.getD PartRec.none)) ++
  (changes s.parts.ctx t.parts.ctx).map (fun p => .ctx p.1 p.2) ++ (changes s.parts.desc t.parts.desc).map (fun p => .desc p.1 p.2) ++
  (changes s.upd.pgd t.upd.pgd).map (fun p => .pgd (p.1 / 4096) (p.1 % 4096) (p.2.getD [])) ++
  (if s.dom = t.dom then [] else [.membership t.dom]) ++
  (match t.aon.alarms.getLast? with
   | some r => if s.aon.alarms.getLast? = some r then [] else [.alarm r t.aon.secTimes]
   | none => [])

/-- An owner sends its standby the setup that a command has changed (12 R409). -/
def mirrorSetup (s t : State) : State := if mirrors t then (setupRecs s t).foldl mirrorRec t else t

/-- A command that finds its domain in reset, halted or without a clock changes nothing and presents nothing. -/
def quiet (s : State) : State := { s with out := [] }

/-- What follows a command's effect `t`, and what holds after every command; `s` is the state before it. -/
def finish (s t : State) : State := haltClamp (latch s (mirrorSetup s (settle t)))

/-- Run a command's effect: what the last command presented goes, the effect takes place, and what follows from it. -/
def present (f : State → State) (s : State) : State := finish s (f (quiet s))

/-- The engine, Hub and lane domains run: out of reset, not halted, no clock stop granted, not
paused by a compare mismatch (02 R55, R61, R66; 12 R417). -/
def engUp (s : State) : Bool :=
  s.aon.porN && s.aon.rstN && !s.aon.haltReq && s.aon.clkPhase != .acked && !s.td.outHeld

/-- The data path takes new work from outside: ready, not stopped and no quiesce under way (02 R54, R66). -/
def dataUp (s : State) : Bool := s.aon.ready && !s.aon.dataStopped && s.aon.clkPhase != .quiesce && serves s

/-- The dispatcher fetches and starts descriptors: not while the Hub is halted, the data path is stopped or a failover drains
(02 R66; 12 R416; 13 R443). -/
def dispatchOpen (s : State) : Bool :=
  dataUp s && clkRuns s && s.hub.run == .running && !s.hub.bg.any (fun b => b.op == .tandemFailover)

/-- A command of the engine or Hub domains. -/
def runEng (f : State → State) (s : State) : Host.Outcome State Fault Refusal :=
  .next (if engUp s then present f s else quiet s)

/-- The firmware acts: the Hub is not halted, and no self-test of its cores is under way (03 R70, R71; 13 R443). -/
def fwActs (s : State) : Bool := s.hub.run != .halted && !s.hub.selfTest

/-- A command of the engine domains that the firmware carries out: while it does not act, what it waits for waits at its port
(01 R22; log 55). -/
def runFw (f : State → State) (s : State) : Host.Outcome State Fault Refusal :=
  runEng (fun s => if fwActs s then f s else s) s

/-- A command of the aon domain, which runs while tvd_por_n is high. -/
def runAon (f : State → State) (s : State) : Host.Outcome State Fault Refusal :=
  .next (if s.aon.porN then present f s else quiet s)

/-- A command that runs when a condition on the state holds, and otherwise changes nothing (log 5). -/
def when_ (c : Bool) (f : State → State) (s : State) : State := if c then f s else s

end Sys2Proof.Machine
end

