-- ==== Sys2Proof/Machine/RegPort.lean ====
section
/-! DEFINITION. The register port: the blocks of the window, who reaches them, when they answer, and the frames in
which register accesses run (02 R44, R45; 14 R450 to R454). -/

namespace Sys2Proof.Machine

/-- The blocks of the window (14 R450). -/
inductive RegBlk where
  | ident | global | mbox (m : Nat) | life | alarm | port (n : Nat) | drl | sc | ft | ms | kid | rt | up | part (p : Nat)
  | slot (n : Nat) | back | pmu | view (p : Nat) | debug | repair | tandem | unmapped
  deriving DecidableEq, Repr

/-- The block an offset lies in. -/
def regBlk (off : Nat) : RegBlk :=
  if off < 0x10 then .ident
  else if off < 0x1000 then .global
  else if off < 0x2100 then .mbox ((off - 0x1000) / 0x100)
  else if 0x4000 ≤ off ∧ off < 0x5000 then .life
  else if 0x5000 ≤ off ∧ off < 0x6000 then .alarm
  else if 0x10000 ≤ off ∧ off < 0x18000 then .port ((off - 0x10000) / 0x1000)
  else if 0x18000 ≤ off ∧ off < 0x19000 then .drl
  else if 0x19000 ≤ off ∧ off < 0x1A000 then .sc
  else if 0x1A000 ≤ off ∧ off < 0x1B000 then .ft
  else if 0x20000 ≤ off ∧ off < 0x24000 then .ms
  else if 0x24000 ≤ off ∧ off < 0x30000 then .kid
  else if 0x30000 ≤ off ∧ off < 0x31000 then .rt
  else if 0x31000 ≤ off ∧ off < 0x32000 then .up
  else if 0x40000 ≤ off ∧ off < 0x50000 then .part ((off - 0x40000) / 0x1000)
  else if 0x50000 ≤ off ∧ off < 0x54000 then .slot ((off - 0x50000) / 0x100)
  else if 0x5F000 ≤ off ∧ off < 0x60000 then .back
  else if 0x60000 ≤ off ∧ off < 0x68000 then .pmu
  else if 0x68000 ≤ off ∧ off < 0x70000 then .view ((off - 0x68000) / 0x800)
  else if 0x70000 ≤ off ∧ off < 0x80000 then .debug
  else if 0x80000 ≤ off ∧ off < 0x90000 then .repair
  else if 0xF0000 ≤ off ∧ off < 0x100000 then .tandem
  else .unmapped

/-- The partition to which a requester's PASID is bound; none for the driver of the fabric manager. -/
def whoPart (s : State) (who : Requester) : Option Nat := if who.priv then none else partOfPasid s who.pasid

/-- An offset of DBG_WATCH[i] of a watchpoint that partition `p`'s mailbox owns (13 R446). -/
def ownWatch (s : State) (p off : Nat) : Bool :=
  decide (0x70100 ≤ off) && decide (off < 0x70200) &&
  (tgetD s.dbg.watch ((off - 0x70100) / 0x20) Watch.free).owner == p + 1

/-- A requester reaches an offset (02 R45, 14 R450, R451; 13 R428, R446). A slot nobody was granted is outside the reach
of a PASID, which so reads 0 there (11 R381); so is the debug block but for a partition's own watchpoints. -/
def regReach (s : State) (who : Requester) (off : Nat) : Bool :=
  let b := regBlk off
  who.priv ||
  match whoPart s who with
  | none => b == .ident
  | some p => match b with
    | .ident => true
    | .mbox m => m == p + 1
    | .part q => q == p
    | .slot n => (partAt s p).slots.contains n
    | .view q => q == p && wbit (reg s (ptOff p 8)) 1
    | .debug => ownWatch s p off
    | _ => false

/-- The life-cycle states in which the firmware runs (04 R128). -/
def fwRuns (lc : LcState) : Bool := lc == .testUnlocked || lc == .manuf || lc == .prod || lc == .analysis

/-- A block of the window answers (14 R452). -/
def regAnswers (s : State) (b : RegBlk) : Bool :=
  let base := b == .ident || b == .global || b == .life || b == .alarm || b == .unmapped
  if s.aon.haltReq then base || b == .repair || b == .tandem
  else if s.otp.phase = 1 ∨ s.otp.phase = 2 then base
  else if s.aon.stage = 6 ∧ fwRuns s.otp.lc then true
  else base || (s.aon.stage == 15 && b == .mbox 0)

/-- tvd_reg_req_ready rises at all (02 R62, R66; 12 R399; 14 R452). -/
def regOpen (s : State) : Bool :=
  s.aon.porN && s.aon.rstN && decide (4 ≤ s.aon.stage) && s.aon.clkPhase != .quiesce && s.aon.clkPhase != .acked &&
  !s.aon.clkStopped.contains .reg && !s.ladder.queue.any (fun q => q.level == 3 && q.step == 2 && !q.done)

/-- An access to an offset is answered. -/
def regOk (s : State) (who : Requester) (off : Nat) : Bool := regReach s who off && regAnswers s (regBlk off)

/-- A refused access: a refused read returns 0, a refused write changes nothing (02 R45). -/
def regRefuse (s : State) : State := emit s (.regRsp 0 true)

/-- Run an access; `f` acts and responds. -/
def runReg (who : Requester) (off : Nat) (f : State → State) (s : State) : Host.Outcome State Fault Refusal :=
  .next (if regOpen s && decide (off < 0x100000) then present (fun s => if regOk s who off then f s else regRefuse s) s
         else quiet s)

/-- Run a write: it takes effect, then the response leaves (14 R454). -/
def runWrite (who : Requester) (off : Nat) (f : State → State) (s : State) : Host.Outcome State Fault Refusal :=
  runReg who off (fun s => emit (f s) (.regRsp 0 false)) s

/-- The identity under which captures are kept (14 R456): the driver, or a partition. -/
def capIdent (s : State) (who : Requester) : Nat := ((whoPart s who).map (· + 1)).getD 0

/-- Store bits of a register: those of the mask come from the write. -/
def putBits (s : State) (off : Nat) (m w : Word) : State := setReg s off ((reg s off &&& ~~~m) ||| (w &&& m))

end Sys2Proof.Machine
end

