-- ==== Sys2Proof/Machine/Contexts.lean ====
section
/-! DEFINITION. Contexts, slots and queues: their registers and commands, doorbells, the fetch of a descriptor and the
write of its completion record; windows and credits of a partition (11 R351 to R361, R381). -/

namespace Sys2Proof.Machine

/-- The partition to which a slot is granted. -/
def slotPart (s : State) (sl : Nat) : Option Nat :=
  (tfind s.parts.part (fun _ r => r.live && r.slots.contains sl)).map (·.1)

/-- The context a slot holds. -/
def slotCtx (s : State) (sl : Nat) : Option Nat := (tfind s.parts.ctx (fun _ x => x.slot == some sl)).map (·.1)

/-- The queue a slot's registers address. -/
def slotQueue (s : State) (sl : Nat) : Nat := (reg s (cxOff sl 0x20)).toNat % 256

/-- A queue of a context is replaced. -/
def setQueue (s : State) (c q : Nat) (f : Queue → Queue) : State :=
  match ctxAt s c with
  | some x => setCtx s c { x with queues := tset x.queues q (f (queueAt x q)) }
  | none => s

/-- Some descriptor of a context, or of one of its queues, runs. -/
def ctxRuns (s : State) (c : Nat) (q : Option Nat) : Bool :=
  s.parts.desc.any (fun p => p.2.ctx == c && p.2.phase == .running && (match q with
    | some i => p.2.queue == i
    | none => true))

/-- The status of the last CX_CMD of a slot. -/
def setCmd (s : State) (sl st : Nat) : State := { s with parts := { s.parts with cmdStatus := tset s.parts.cmdStatus sl st } }

/-- The answer to a command's access of a context record: ST_OK, or the context becomes FAULTED (11 R354, 12 R390). -/
def recordAnswer (s : State) (sl c : Nat) (acc : Access) : State :=
  match acc with
  | .ok => setCmd s sl stOk
  | .err => setCmd (faultCtx (ioEvent s 0xFF 0 stInternal 0 ((ctxPart s c).getD 0) c
      ((reg s 0x5F000).toNat + 2 ^ 32 * (reg s 0x5F004).toNat + 16384 * c)) c stInternal 0 0) sl stInternal
  | .poison => setCmd (faultCtx s c stInternal 0 0) sl stInternal

/-- The access of a context's record in the backing area, 16 KiB; where its fields stand the spec does not say, so what is
written is free (11 R357; log 36). -/
def ctxRecord (s : State) (write : Bool) (c : Nat) : State :=
  let b := if write then freeBytes s 16384 else ([], s)
  emitMreq b.2 write ((reg s 0x5F000).toNat + 2 ^ 32 * (reg s 0x5F004).toNat + 16384 * c) 16384 b.1 [] none

/-- A CX_CMD is ignored: the slot is granted to no partition, the driver of the fabric manager names a locked partition,
or the slot's context is being torn down (11 R354, R371). -/
def cmdIgnored (s : State) (sl : Nat) (who : Requester) : Bool :=
  (match slotPart s sl with
   | none => true
   | some p => who.priv && ((partAt s p).tdisp == 1 || (partAt s p).tdisp == 2)) ||
  (match slotCtx s sl with
   | some c => ((ctxAt s c).map (·.tearing)).getD false
   | none => false)

/-- CREATE (11 R354): the lowest-numbered free context. -/
def cxCreate (s : State) (sl : Nat) (acc : Access) : State :=
  let pasid := (reg s (cxOff sl 8)).toNat % 2 ^ 20
  match slotPart s sl with
  | none => s
  | some p =>
    if (slotCtx s sl).isSome then setCmd s sl stBusy
    else if !(partAt s p).pasids.contains pasid then setCmd s sl stNotPermitted
    else match lowestFrom (fun c => (ctxAt s c).isNone) 4096 0 with
      | none => setCmd s sl stNoResource
      | some c =>
        let x : Ctx := { part := p, pasid := pasid, slot := some sl, faulted := false, fStatus := 0, fQueue := 0,
                         fIndex := 0, own := [], queues := [], stopped := false, tearing := false }
        recordAnswer (ctxRecord (setCtx s c x) true c) sl c acc

/-- LOAD (11 R354). -/
def cxLoad (s : State) (sl c : Nat) (acc : Access) : State :=
  if (slotCtx s sl).isSome then setCmd s sl stBusy
  else match ctxAt s c with
    | none => setCmd s sl stStaleHandle
    | some x =>
      if some x.part ≠ slotPart s sl then setCmd s sl stNotPermitted
      else if x.slot.isSome ∨ x.tearing then setCmd s sl stBusy
      else if acc = .ok then recordAnswer (setCtx (ctxRecord s false c) c { x with slot := some sl }) sl c .ok
      else recordAnswer (ctxRecord s false c) sl c acc

/-- UNLOAD (11 R354). -/
def cxUnload (s : State) (sl : Nat) (acc : Access) : State :=
  match slotCtx s sl with
  | none => setCmd s sl stStaleHandle
  | some c => match ctxAt s c with
    | none => s
    | some x =>
      if !x.faulted && (ctxRuns s c none || x.queues.any (fun q => q.2.enabled && q.2.head != q.2.tail)) then
        setCmd s sl stBusy
      else if acc = .ok then recordAnswer (setCtx (ctxRecord s true c) c { x with slot := none }) sl c .ok
      else recordAnswer (ctxRecord s true c) sl c acc

/-- A doorbell (11 R359, R372, R375). -/
def doorbell (s : State) (sl : Nat) (w : Word) : State :=
  let q := fld w 7 0
  let tail := fld w 31 8
  let drop := setBits s (cxOff sl 0x14) 4
  let resetting := (slotPart s sl).any (fun p => (partAt s p).resetting)
  if resetting then s
  else match slotCtx s sl with
    | none => drop
    | some c => match ctxAt s c with
      | none => drop
      | some x =>
        let u := queueAt x q
        if x.faulted ∨ x.stopped ∨ !u.enabled ∨ 2 ^ u.log2 ≤ tail ∨ (partAt s x.part).tdisp = 1 then drop
        else countEv (setQueue s c q (fun u => { u with tail := tail })) 0x092 (some x.part) 1

/-- A write of CX_QCFG (11 R358). -/
def qcfgWrite (s : State) (sl : Nat) (w : Word) : State :=
  let q := slotQueue s sl
  let k := fld w 4 0
  match slotCtx s sl with
  | none => s
  | some c => match ctxAt s c with
    | none => s
    | some x =>
      let u := queueAt x q
      if k < 4 ∨ 20 < k then s
      else if u.enabled then
        if !wbit w 8 && u.head == u.tail && !ctxRuns s c (some q) then setQueue s c q (fun u => { u with enabled := false })
        else s
      else
        let u := { u with log2 := k, prio := fld w 10 9 }
        let s := setQueue s c q (fun _ => if wbit w 8 then { u with enabled := true, head := 0, tail := 0 } else u)
        if wbit w 8 then { s with parts := { s.parts with
          desc := tkeep s.parts.desc (fun _ d => !(d.ctx == c && d.queue == q && d.phase == .recorded)) } } else s

/-- A write of a base address of the queue addressed: ignored while the queue is enabled (11 R358, R381). -/
def qbaseWrite (s : State) (sl o : Nat) (w : Word) : State :=
  match slotCtx s sl with
  | none => s
  | some c => setQueue s c (slotQueue s sl) (fun u =>
      if u.enabled then u
      else if o = 0x24 then { u with ring := u.ring / 2 ^ 32 * 2 ^ 32 + w.toNat / 64 * 64 }
      else if o = 0x28 then { u with ring := u.ring % 2 ^ 32 + w.toNat * 2 ^ 32 }
      else if o = 0x2C then { u with cmpl := u.cmpl / 2 ^ 32 * 2 ^ 32 + w.toNat / 16 * 16 }
      else { u with cmpl := u.cmpl % 2 ^ 32 + w.toNat * 2 ^ 32 })

/-- A write of an owned key ID entry (11 R356): one that names a key ID outside the grant is ignored. -/
def ownKidWrite (s : State) (sl i : Nat) (w : Word) : State :=
  let v := (w &&& 0x80000FFF#32).toNat
  match slotCtx s sl with
  | none => s
  | some c => match ctxAt s c with
    | none => s
    | some x =>
      let r := partAt s x.part
      if 8 ≤ i ∨ (wbit w 31 ∧ !(r.kidBase ≤ v % 4096 ∧ v % 4096 < r.kidBase + r.kidCount)) then s
      else setCtx s c { x with own := tset x.own i v }

/-- Words of a slot's registers (11 R381). -/
def readSlot (s : State) (sl o : Nat) : Word :=
  let c := (slotCtx s sl).bind (fun c => (ctxAt s c).map (fun x => (c, x)))
  let u := match c with
    | some x => queueAt x.2 (slotQueue s sl)
    | none => Queue.off
  if o = 0x08 ∨ o = 0x14 ∨ o = 0x18 ∨ o = 0x20 then reg s (cxOff sl o)
  else if o = 0x0C then
    toW ((match c with
      | some x => x.1 + 2 ^ 12 + 2 ^ 13 * b2n x.2.faulted
      | none => 0) + 2 ^ 16 * tgetD s.parts.cmdStatus sl 0)
  else if o = 0x10 then match c with
    | some x => toW (x.2.fStatus + 2 ^ 8 * x.2.fQueue + 2 ^ 16 * (x.2.fIndex % 2 ^ 16))
    | none => 0
  else if o = 0x24 then toW u.ring
  else if o = 0x28 then toW (u.ring / 2 ^ 32)
  else if o = 0x2C then toW u.cmpl
  else if o = 0x30 then toW (u.cmpl / 2 ^ 32)
  else if o = 0x34 then toW (u.log2 + 2 ^ 8 * b2n u.enabled + 2 ^ 9 * u.prio)
  else if o = 0x38 then toW u.head
  else if o = 0x3C then toW u.tail
  else if 0x40 ≤ o ∧ o < 0x60 ∧ o % 4 = 0 then match c with
    | some x => toW (tgetD x.2.own ((o - 0x40) / 4) 0)
    | none => 0
  else 0

/-! Fetch and completion record. -/

/-- A partition takes on no new work (11 R372, R375). -/
def partStill (r : PartRec) : Bool := !r.live || r.resetting || r.freezing || r.frozen

/-- A queue may be fetched from (11 R353, R357, R359). -/
def fetchable (s : State) (c q : Nat) : Bool :=
  match ctxAt s c with
  | none => false
  | some x =>
    let u := queueAt x q
    x.slot.isSome && !x.faulted && !x.stopped && u.enabled && u.head != u.tail && !partStill (partAt s x.part) &&
    decide (tcount s.parts.desc (fun _ d => d.ctx == c && d.phase == .fetched) < 16)

/-- A descriptor from its 64 bytes (11 R362). -/
def descOf (c q i : Nat) (u : Queue) (pasid : Nat) (raw : Bytes) : Desc :=
  let f := leAt raw 1 1
  { ctx := c, queue := q, index := i, opcode := leAt raw 0 1, user := leAt raw 4 4, irq := f % 2 == 1,
    ordered := f / 2 % 2 == 1, shared := f / 4 % 2 == 1, raw := raw, phase := .fetched, status := 0, result := 0,
    checked := false, mark := none, quiet := false, recAddr := u.cmpl + 16 * i, pasid := pasid }

/-- The fetch of the entry at HEAD (11 R359). -/
def fetchDesc (s : State) (c q : Nat) (raw : Bytes) (acc : Access) : State :=
  match ctxAt s c with
  | none => s
  | some x =>
    let u := queueAt x q
    let s := emitMreq s false (u.ring + 64 * u.head) 64 [] [] (some x.pasid)
    let at_ := u.ring + 64 * u.head
    match acc with
    | .err => faultCtx (ioEvent s 0xFF 0 stInternal 0 x.part c at_) c stInternal q u.head
    | .poison => faultCtx s c stInternal q u.head
    | .ok =>
      let d := descOf c q u.head u x.pasid (padTo 64 (raw.take 64))
      let old := tkeep s.parts.desc (fun _ e => !(e.ctx == c && e.queue == q && e.index == u.head && e.phase == .recorded))
      let s := { s with parts := { s.parts with
        desc := tset old s.parts.nextDesc d, nextDesc := s.parts.nextDesc + 1 } }
      setQueue s c q (fun u => { u with head := (u.head + 1) % 2 ^ u.log2 })

/-- The 16 bytes of a completion record (11 R361). -/
def recordBytes (d : Desc) : Bytes :=
  leBytes 1 d.status ++ leBytes 1 d.opcode ++ [0, 0] ++ leBytes 4 d.user ++ leBytes 8 d.result

/-- The write of a completion record and its response (11 R361, 12 R390). -/
def writeRecord (s : State) (d : Nat) (acc : Access) : State :=
  match descAt s d with
  | none => s
  | some x =>
    if x.phase ≠ .done then s
    else
      let s := emitMreq s true x.recAddr 16 (recordBytes x) [] (some x.pasid)
      let s := cadenceLate (noteDirty (setDesc s d { x with phase := .recorded }) x.pasid x.recAddr 16) d
      match acc with
      | .err => faultCtx (ioEvent s 0xFF 0 stInternal 0 ((partOfPasid s x.pasid).getD 0) x.ctx x.recAddr) x.ctx stInternal x.queue x.index
      | .poison => faultCtx s x.ctx stInternal x.queue x.index
      | .ok =>
        if x.irq then match (ctxAt s x.ctx).bind (·.slot) with
          | some sl => setBits s (cxOff sl 0x14) 1
          | none => s
        else s

/-! Windows and credits. -/

/-- A commit of both staged windows (11 R351). -/
def winCommit (s : State) (p : Nat) (who : Requester) : State :=
  let r := partAt s p
  let v := fun o => (reg s (ptOff p o)).toNat
  if !r.live ∨ (who.priv ∧ r.tdisp ≠ 0) then s
  else if v 0x30 ≠ 0 ∧ v 0x28 < v 0x2C + v 0x30 then setPart s p { r with winErr := true }
  else setPart s p { r with fwinBase := v 0x20 + 2 ^ 32 * v 0x24, fwinPages := v 0x28, owinBase := v 0x2C,
                            owinPages := v 0x30, winErr := false }

/-- Ten nanoseconds of credit for every partition and class from TC1 to TC6 (11 R352). Credits are kept in quarters of a
byte: 1 Gbit/s brings 10 bits, five quarters, in 10 ns, and 10 µs bring a thousand times as much. -/
def creditTick (s : State) : State :=
  s.parts.part.foldl (fun s p =>
    if p.2.live then
      ([1, 2, 3, 4, 5, 6] : List Nat).foldl (fun s c =>
        let b := p.2.budgets.getD c 0
        let k := p.1 * 8 + c
        let v := tgetD s.fab.credit k 0
        { s with fab := { s.fab with credit := tset s.fab.credit k (min (v + 5 * (b : Int)) (5000 * (b : Int))) } }) s
    else s) s

/-! The commands. -/

/-- CX_CREATE (11 R354). -/
def execCxCreate (slot : Nat) (who : Requester) (acc : Access) (s : State) : Host.Outcome State Fault Refusal :=
  runWrite who (cxOff (slot % 64) 4)
    (fun s => if cmdIgnored s (slot % 64) who then s else cxCreate s (slot % 64) acc) s

/-- CX_LOAD (11 R354). -/
def execCxLoad (slot ctx : Nat) (who : Requester) (acc : Access) (s : State) : Host.Outcome State Fault Refusal :=
  runWrite who (cxOff (slot % 64) 4)
    (fun s => if cmdIgnored s (slot % 64) who then s else cxLoad s (slot % 64) (ctx % 4096) acc) s

/-- CX_UNLOAD (11 R354). -/
def execCxUnload (slot : Nat) (who : Requester) (acc : Access) (s : State) : Host.Outcome State Fault Refusal :=
  runWrite who (cxOff (slot % 64) 4)
    (fun s => if cmdIgnored s (slot % 64) who then s else cxUnload s (slot % 64) acc) s

/-- CX_DOORBELL (11 R359). -/
def execCxDoorbell (slot : Nat) (w : Word) (who : Requester) (s : State) : Host.Outcome State Fault Refusal :=
  runWrite who (cxOff (slot % 64) 0) (fun s => doorbell s (slot % 64) w) s

/-- CX_QCFG_WRITE (11 R358). -/
def execCxQcfgWrite (slot : Nat) (w : Word) (who : Requester) (s : State) : Host.Outcome State Fault Refusal :=
  runWrite who (cxOff (slot % 64) 0x34) (fun s => qcfgWrite s (slot % 64) w) s

/-- CX_OWN_KID_WRITE (11 R356). -/
def execCxOwnKidWrite (slot i : Nat) (w : Word) (who : Requester) (s : State) : Host.Outcome State Fault Refusal :=
  runWrite who (cxOff (slot % 64) (0x40 + 4 * (i % 8))) (fun s => ownKidWrite s (slot % 64) (i % 8) w) s

/-- PT_WIN_COMMIT (11 R351). -/
def execPtWinCommit (part : Nat) (who : Requester) (s : State) : Host.Outcome State Fault Refusal :=
  runWrite who (ptOff (part % 16) 0x34) (fun s => winCommit s (part % 16) who) s

/-- DESCRIPTOR_FETCH (11 R359). -/
def execDescriptorFetch (ctx queue : Nat) (raw : Bytes) (acc : Access) (s : State) : Host.Outcome State Fault Refusal :=
  runEng (fun s => when_ (fetchable s ctx (queue % 256) && dispatchOpen s)
    (fun s => fetchDesc s ctx (queue % 256) raw acc) s) s

/-- COMPLETION_RECORD (11 R361). -/
def execCompletionRecord (desc : Nat) (acc : Access) (s : State) : Host.Outcome State Fault Refusal :=
  runEng (fun s => writeRecord s desc acc) s

/-- CREDIT_TICK (11 R352): tvd_eng_clk runs. -/
def execCreditTick (s : State) : Host.Outcome State Fault Refusal := runEng creditTick s

end Sys2Proof.Machine
end

