-- ==== Sys2Proof/Machine/Home.lean ====
section
/-! DEFINITION. Requests at their home and target requests at their requester: layouts, scope, loopback, pool access,
segments, parks and responses (02 R38 to R41; 07 R217 to R243; 08 R281 to R286). -/

namespace Sys2Proof.Machine

/-- A request as its home applies it, whoever made it. -/
structure HReq where
  who : Who
  owner : Nat
  kind : Nat
  aop : Nat
  addr : Nat
  len : Nat
  data : Bytes
  mask : List Bool
  operand : Bytes
  kid : Nat
  arrival : Option Nat
  ctx : Nat
  fepoch : Nat
  cover : Bool
  tc : Nat
  opn : Bool

/-- Answer a request with a failure; a covered write is noted for its fence. -/
def refuseReq (s : State) (q : HReq) (status : Nat) : State :=
  let own := s.dom.vertex.getD 0
  let o := takeOrd s
  let s := if q.cover then noteFailed o.2 q.ctx q.fepoch o.1 own own q.tc status else s
  answer s q.who (q.kind != kLoad) status [] 0

/-- Whether a request of OWNER may reach bytes of a PRIVATE region homed here (07 R218, R219; 08 R258, R280). -/
def poolScope (s : State) (owner kid addr len : Nat) : Nat :=
  if owner = 0 then stNotPermitted
  else
    let p := partAt s (owner - 1)
    if !p.live then stNotPermitted
    else if p.resetting then stContextReset
    else if p.tdisp = 3 then stNotPermitted
    else if p.freezing ∨ p.frozen then stBusy
    else match regionAt s kid with
      | none => stNotPermitted
      | some r =>
        if r.part ≠ owner - 1 ∨ r.kind ≠ 1 ∨ !r.authority then stNotPermitted
        else if addr < rData r ∨ rData r + r.size < addr + len then stNotPermitted
        else stOk

/-- A line operation of a request on bytes of its region. -/
def lineOp (q : HReq) (r : Region) (who : Who) (addr len : Nat) (data : Bytes) (mask : List Bool) (cover : Bool)
    (ord : Nat) : MemOp :=
  let off := addr - rData r
  { who := who, kid := q.kid, line := off / 64, lines := if q.kind = kAtomic then 1 else len / 64,
    write := q.kind != kLoad, atomic := if q.kind = kAtomic then some (q.aop, off % 64, q.operand) else none,
    data := data, mask := mask, epoch := 0, phase := .waiting, status := stOk, poison := 0, parts := [], ctx := q.ctx,
    fepoch := q.fepoch, cover := cover, ord := ord }

/-- The operation of the home that a request becomes; one whose data go to a region's lines touches package memory at its arrival
counter alone. -/
def homeOpOf (s : State) (q : HReq) (phase wait ord : Nat) : HomeOp :=
  let r := partAt s (q.owner - 1)
  { who := q.who, part := q.owner - 1, base := r.fwinBase, pages := r.fwinPages, pasid := lowestPasid r, kind := q.kind,
    aop := q.aop, addr := q.addr, len := if phase = 5 then 0 else q.len, data := if phase = 5 then [] else q.data,
    mask := q.mask, operand := q.operand, arrival := q.arrival, phase := phase, old := [], ctx := q.ctx,
    fepoch := q.fepoch, cover := q.cover, ord := ord, tc := q.tc, wait := wait, status := stOk }

/-- An operation of the home that waits for `n` operations on a region's lines. -/
def pushPhase5 (s : State) (q : HReq) (n ord : Nat) : State :=
  { s with fab := { s.fab with
    homes := tset s.fab.homes s.fab.nextHome (homeOpOf s q 5 n ord), nextHome := s.fab.nextHome + 1 } }

/-- Apply a request to a PRIVATE region homed here (07 R243; 08 R269 to R271). A copy chunk that counts its arrival or
crosses a page is done page by page first. -/
def poolReq (s : State) (q : HReq) (r : Region) : State :=
  let o := takeOrd s
  let s := o.2
  let first := min q.len (4096 - (q.addr - rData r) % 4096)
  if q.kind = kCopy ∧ (q.arrival.isSome ∨ first < q.len) then
    let i := s.fab.nextHome
    let n := if first < q.len then 2 else 1
    let s := memSubmit (pushPhase5 s q n o.1) (lineOp q r (.part i) q.addr first (q.data.take first) [] q.cover o.1) true
    if first < q.len then
      memSubmit s (lineOp q r (.part i) (q.addr + first) (q.len - first) (q.data.drop first) [] q.cover o.1) true
    else s
  else memSubmit s (lineOp q r q.who q.addr q.len q.data q.mask q.cover o.1) true

/-- Apply a request at its home (07 R219, R220). -/
def applyReq (s : State) (q : HReq) : State :=
  if q.kid = 0 then
    let st := homeScope s q.owner q.addr q.len q.opn
    if st ≠ stOk then refuseReq s q st
    else
      let o := takeOrd s
      startHome o.2 (homeOpOf s q 0 0 o.1)
  else if q.kid < 16 then refuseReq s q stNotPermitted
  else
    let st := poolScope s q.owner q.kid q.addr q.len
    if st ≠ stOk then refuseReq s q st
    else match regionAt s q.kid with
      | some r => poolReq s q r
      | none => refuseReq s q stNotPermitted

/-! A REQ frame (07 R222, R239, R243). -/

/-- Beats cross a 4 KiB boundary (02 R40). -/
def crosses (addr len : Nat) : Bool := decide (4096 < addr % 4096 + len)

/-- A request header breaks its layout or a rule of 02 R40. -/
def reqBad (h : Hdr) (p : Bytes) : Bool :=
  let kind := leAt p 4 1 % 16
  let aop := leAt p 4 1 / 16
  let b5 := leAt p 5 1
  let b := b5 % 32 + 1
  let masked := b5 / 32 % 2 == 1
  let kid := leAt p 6 2
  let addr := leAt p 8 6
  let opn := kind == kAtomic && decide (8 ≤ aop)
  decide (128 ≤ b5) || decide (4096 ≤ kid) || leAt p 14 2 != 0 || (kind != kAtomic && aop != 0) ||
  (kind != kStore && masked) || ((h.cclass == 1) != opn) ||
  (opn && (h.addr != addr || h.aop != aop || kid != 0)) ||
  (if kind = kLoad then h.plen != 16 || addr % 128 != 0 || decide (31 < b) || crosses addr (128 * b)
   else if kind = kStore then
     h.plen != 16 + (if masked then 144 else 128) * b || addr % 128 != 0 || decide ((if masked then 27 else 31) < b) ||
       crosses addr (128 * b)
   else if kind = kAtomic then
     b != 1 || !aopListed aop || addr % aopWidth aop != 0 || h.plen != (if opn then 16 else 32)
   else if kind = kCopy then
     h.plen != 32 + 128 * b || decide (30 < b) || addr % 128 != 0 || leAt p 16 6 % 8 != 0 || decide (2 ≤ leAt p 22 1) ||
       leAt p 23 1 != 0 || leAt p 28 4 != 0
   else true)

/-- Bits of bytes, the least significant of each first. -/
def bitsOf (b : Bytes) : List Bool := b.flatMap (fun x => (List.range 8).map x.getLsbD)

/-- The request a well-formed REQ frame makes. -/
def reqOf (f : InFrame) : HReq :=
  let h := f.hdr
  let p := f.payload
  let kind := leAt p 4 1 % 16
  let aop := leAt p 4 1 / 16
  let b := leAt p 5 1 % 32 + 1
  let masked := leAt p 5 1 / 32 % 2 == 1
  let opn := kind == kAtomic && decide (8 ≤ aop)
  { who := .frame h.src h.tc h.stream (leAt p 0 4) kind (b - 1) (if opn && h.cclass == 1 then some (h.addr, h.aop) else none)
      f.comb,
    owner := ownerOf h.stream, kind := kind, aop := aop, addr := leAt p 8 6,
    len := if kind = kAtomic then aopWidth aop else 128 * b,
    data := if kind = kStore then slice p 16 (128 * b) else if kind = kCopy then slice p 32 (128 * b) else [],
    mask := if masked then bitsOf (slice p (16 + 128 * b) (16 * b)) else [],
    operand := if opn then leBytes 8 h.operand ++ List.replicate 8 0 else slice p 16 16,
    kid := leAt p 6 2, arrival := if kind = kCopy ∧ leAt p 22 1 % 2 = 1 then some (leAt p 16 6) else none,
    ctx := 0, fepoch := 0, cover := false, tc := h.tc, opn := opn }

/-- The home receives a REQ frame (07 R222). -/
def homeReq (s : State) (f : InFrame) : State :=
  if reqBad f.hdr f.payload then refuseReq s (reqOf f) stBadParam else applyReq s (reqOf f)

/-! Target requests (02 R38 to R41; 07 R217, R218, R221). -/

/-- Operation codes of a target request: LOAD 0, STORE 1, ATOMIC 2 (02 R38); its KIND at the home. -/
def csKind (op : Nat) : Nat := op + 1

/-- A target request breaks a rule of 02 R40 or R34, or carries a reserved op or aop. -/
def csBad (q : CsTarget) : Bool :=
  !q.steady || decide (2 < q.op) || decide (2 ^ 64 ≤ q.addr) ||
  (if q.op = 2 then
     q.beats != 1 || !aopListed q.aop || q.addr % aopWidth q.aop != 0 || q.be.any id
   else
     q.aop != 0 || q.addr % 128 != 0 || decide (q.beats < 1) || decide (32 < q.beats) || crosses q.addr (128 * q.beats) ||
       (q.op == 0 && decide (1 < q.beats) && !q.be.all id))

/-- Segments of a request: first beat, beats, and whether it is masked (07 R221). A STORE segment takes 31 beats when none
of them is masked, else 27. -/
def segsOf (store : Bool) (be : List Bool) (beats : Nat) : Nat → Nat → List (Nat × Nat × Bool)
  | 0, _ => []
  | fuel + 1, i =>
    if beats ≤ i then []
    else
      let n := min 31 (beats - i)
      let part := fun (n : Nat) => store && !(slice be (128 * i) (128 * n)).all id
      let m := if part n then min 27 (beats - i) else n
      (i, m, part m) :: segsOf store be beats fuel (i + m)

/-- The 16-byte request header, its RTAG zero until it has a tag (07 R222). -/
def reqHeader (kind aop beats : Nat) (masked last : Bool) (kid addr : Nat) : Bytes :=
  [0, 0, 0, 0] ++ leBytes 1 (kind + 16 * aop) ++ leBytes 1 (beats - 1 + 32 * b2n masked + 64 * b2n last) ++
    leBytes 2 kid ++ leBytes 6 addr ++ [0, 0]

/-- The mask bytes of byte enables: bit j of a beat's mask is the enable of byte j. -/
def maskBytes : Nat → List Bool → Bytes
  | 0, _ => []
  | n + 1, l => BitVec.ofNat 8 (((l.take 8).foldr (fun b a => b2n b + 2 * a) 0)) :: maskBytes n (l.drop 8)

/-- The frame of one segment. -/
def segFrame (q : CsTarget) (port part ctx epoch dst seg : Nat) (last : Bool) (x : Nat × Nat × Bool) : TxFrame :=
  let kind := csKind q.op
  let off := q.addr % 2 ^ 48 + 128 * x.1
  let opn := kind == kAtomic && decide (8 ≤ q.aop)
  let body := if kind = kStore then slice q.data (128 * x.1) (128 * x.2.1) ++
      (if x.2.2 then maskBytes (16 * x.2.1) (slice q.be (128 * x.1) (128 * x.2.1)) else [])
    else if kind = kAtomic ∧ !opn then padTo 16 (q.data.take 16) else []
  let f := { TxFrame.blank with
    dst := dst, owner := part + 1, tc := if q.kid = 0 then 1 else 4, op := opReq,
    payload := reqHeader kind q.aop x.2.1 x.2.2 last q.kid off ++ body,
    origin := .core port q.tid seg, ctx := ctx, fepoch := epoch, cover := kind != kLoad }
  if opn then { f with cclass := 1, addr := off, aop := q.aop, operand := leAt q.data 0 (aopWidth q.aop) } else f

/-- A segment applied here: package memory by loopback, or a PRIVATE region homed here (07 R217). -/
def segLocal (q : CsTarget) (port part ctx epoch seg : Nat) (x : Nat × Nat × Bool) : HReq :=
  let kind := csKind q.op
  let opn := kind == kAtomic && decide (8 ≤ q.aop)
  { who := .core port q.tid seg, owner := part + 1, kind := kind, aop := q.aop, addr := q.addr % 2 ^ 48 + 128 * x.1,
    len := if kind = kAtomic then aopWidth q.aop else 128 * x.2.1,
    data := if kind = kStore then slice q.data (128 * x.1) (128 * x.2.1) else [],
    mask := if x.2.2 then slice q.be (128 * x.1) (128 * x.2.1) else [],
    operand := padTo 16 (q.data.take 16), kid := q.kid, arrival := none, ctx := ctx, fepoch := epoch,
    cover := kind != kLoad, tc := if q.kid = 0 then 0 else 4, opn := opn }

/-- A segment on a SHARED_READ region: reads at the current epoch, writes at the next (08 R282, R286). -/
def segShared (s : State) (q : CsTarget) (r : Region) (port ctx epoch seg : Nat) (x : Nat × Nat × Bool) : State :=
  let o := takeOrd s
  let write := q.op == 1
  if !write ∧ r.epoch = 0 then setSeg s port q.tid seg stOk (List.replicate (128 * x.2.1) 0) 0
  else
    memSubmit o.2 {
      who := .core port q.tid seg, kid := q.kid, line := (q.addr % 2 ^ 48 + 128 * x.1 - rData r) / 64, lines := 2 * x.2.1,
      write := write, atomic := none, data := if write then slice q.data (128 * x.1) (128 * x.2.1) else [],
      mask := if x.2.2 then slice q.be (128 * x.1) (128 * x.2.1) else [],
      epoch := if write then r.epoch + 1 else r.epoch, phase := .waiting, status := stOk, poison := 0, parts := [],
      ctx := ctx, fepoch := epoch, cover := write, ord := o.1 } false

/-- Every line of byte enables is whole or empty (08 R282). -/
def wholeLines : Nat → List Bool → Bool
  | 0, _ => true
  | n + 1, l => ((l.take 64).all id || !(l.take 64).any id) && wholeLines n (l.drop 64)

/-- Where a request goes. -/
inductive CsRoute where
  | refuse (status : Nat) | loopback | shared (r : Region) | frames (dst : Nat)

/-- Routing by key ID and vertex, and the pool checks of the requester (07 R217, R218; 08 R258, R280 to R282). -/
def csRoute (s : State) (q : CsTarget) (part : Nat) : CsRoute :=
  let v := q.addr / 2 ^ 48
  let off := q.addr % 2 ^ 48
  let len := if q.op = 2 then aopWidth q.aop else 128 * q.beats
  if q.kid = 0 then
    if ownVertex s v then .loopback else if otherMember s v then .frames v else .refuse stNotPermitted
  else match regionAt s q.kid with
    | none => .refuse stNotPermitted
    | some r =>
      if r.invalid then .refuse stStaleHandle
      else if r.part ≠ part ∨ v ≠ rVertex r ∨ off < rData r ∨ rData r + r.size < off + len then .refuse stNotPermitted
      else if r.kind = 1 then if r.authority then .loopback else .frames r.home
      else if q.op = 0 then .shared r
      else if !r.authority then .refuse stNotPermitted
      else if q.op = 2 ∨ !wholeLines (2 * q.beats) q.be then .refuse stBadParam
      else if 0xFFFFFFFF ≤ r.epoch then .refuse stEpochExhausted
      else .shared r

/-- The checks of a target request in their order: the partition and core context it runs under and its route, or the
status that refuses it (02 R40; 07 R217, R218; 11 R355, R372, R375). -/
def csCheck (s : State) (port : Nat) (q : CsTarget) : Nat ⊕ (Nat × Nat × CsRoute) :=
  let opn := q.op == 2 && decide (8 ≤ q.aop)
  if (tget s.fab.reqs (csKey port q.tid)).isSome ∨ csBad q then .inl stBadParam
  else if 1 ≤ q.kid ∧ q.kid < 16 then .inl stNotPermitted
  else match partOfPasid s q.pasid with
    | none => .inl stNotPermitted
    | some p =>
      let r := partAt s p
      let off := q.addr % 2 ^ 48
      if r.resetting then .inl stContextReset
      else if r.freezing ∨ r.frozen then .inl stBusy
      else if q.kid ≠ 0 ∧ !(r.kidBase ≤ q.kid ∧ q.kid < r.kidBase + r.kidCount) then .inl stNotPermitted
      else if opn ∧ q.kid ≠ 0 then .inl stBadParam
      else if opn ∧ (off < r.owinBase * 4096 ∨ (r.owinBase + r.owinPages) * 4096 < off + aopWidth q.aop) then
        .inl stNotPermitted
      else match coreCtx s q.pasid with
        | none => .inl stNotPermitted
        | some c => .inr (p, c, csRoute s q p)

/-- A watchpoint matches a target request (13 R441). -/
def watchHit (s : State) (w : Watch) (port : Nat) (q : CsTarget) : Bool :=
  let len := if q.op = 2 then aopWidth q.aop else 128 * q.beats
  w.enable && w.port == port && decide (w.base < q.addr + len) && decide (q.addr ≤ w.limit) &&
  (if q.op = 0 then w.read else if q.op = 1 then w.write else w.read || w.write) &&
  (w.owner == 0 || w.owner == 17 || partOfPasid s q.pasid == some (w.owner - 1))

/-- Watchpoints see a target request: HITS rises and the match is recorded (13 R441, R432). -/
def watchSee (s : State) (port : Nat) (q : CsTarget) : State :=
  s.dbg.watch.foldl (fun s p =>
    if watchHit s p.2 port q then
      let w := { p.2 with mAddr := q.addr, mPasid := q.pasid, mPort := port, mWrite := q.op != 0, mGap := s.aon.gapWatch,
                          mTs := s.aon.ts }
      bump (setBits { s with dbg := { s.dbg with watch := tset s.dbg.watch p.1 w }, aon := { s.aon with gapWatch := false } }
        0x70004 1) (0x70100 + 0x20 * p.1)
    else s) s

/-- The key of a park: core-side port and partition (07 R229). -/
def parkKey (port part : Nat) : Nat := port * 16 + part

/-- Whether a partition's park on a port is full: ready is low (07 R229). -/
def parkFull (s : State) (port : Nat) : Bool := s.fab.parks.any (fun p => p.1 / 16 == port && decide (16 ≤ p.2.length))

/-- Frames of a request leave, or the request is parked behind the share it waits for (07 R229). -/
def sendOrPark (s : State) (port part tid : Nat) (fs : List TxFrame) : State :=
  let k := parkKey port part
  let park := tgetD s.fab.parks k []
  let flits := (fs.map (fun f => flitsOf f.payload.length)).foldl (· + ·) 0
  if park.isEmpty && shareRoom s (part + 1) fs.length flits then fs.foldl pushTx s
  else
    let park := park ++ [{ tid := tid, frames := fs }]
    let s := { s with fab := { s.fab with parks := tset s.fab.parks k park } }
    if 16 ≤ park.length then setBits s 0x1A024 4 else s

/-- Parked requests of one park leave while their partition has room. -/
def drainPark : Nat → State → Nat → State
  | 0, s, _ => s
  | n + 1, s, k =>
    match tgetD s.fab.parks k [] with
    | [] => { s with fab := { s.fab with parks := tdel s.fab.parks k } }
    | x :: t =>
      let flits := (x.frames.map (fun f => flitsOf f.payload.length)).foldl (· + ·) 0
      if shareRoom s (k % 16 + 1) x.frames.length flits then
        drainPark n (x.frames.foldl pushTx { s with fab := { s.fab with parks := tset s.fab.parks k t } }) k
      else s

/-- A whole target request on a core-side port (02 R40, R41; 07 R217 to R221). -/
def csRequest (s : State) (port : Nat) (q : CsTarget) : State :=
  let s := watchSee s port q
  match csCheck s port q with
  | .inl st => csRefuse s port q.tid q.op q.beats st
  | .inr (_, _, .refuse st) => csRefuse s port q.tid q.op q.beats st
  | .inr (p, c, route) =>
    let segs := segsOf (q.op == 1) q.be q.beats 33 0
    let none_ : SegRes := { status := none, data := [], poison := 0 }
    let req : CsReq := { op := q.op, aop := q.aop, beats := q.beats, segs := segs.map (fun _ => none_),
                         segBeats := segs.map (·.2.1), be := q.be }
    let s := { s with fab := { s.fab with reqs := tset s.fab.reqs (csKey port q.tid) req } }
    let e := epochOf s c
    let xs := segs.zipIdx
    match route with
    | .refuse _ => s
    | .loopback => xs.foldl (fun s x => applyReq s (segLocal q port p c e x.2 x.1)) s
    | .shared r => xs.foldl (fun s x => segShared s q r port c e x.2 x.1) s
    | .frames d => sendOrPark s port p q.tid
        (xs.map (fun x => segFrame q port p c e d x.2 (x.2 + 1 == xs.length) x.1))

/-- Concatenated poison masks of segments: segment masks at their first beats. -/
def joinPoison : List Nat → List Nat → Nat → Nat
  | [], _, _ => 0
  | _, [], _ => 0
  | m :: ms, n :: ns, at_ => m % 2 ^ n * 2 ^ at_ + joinPoison ms ns (at_ + n)

/-- The response of a target request whose segments have all retired (02 R40, R41; 07 R221). Bytes of a LOAD that its
enables do not select, and bytes an answer did not carry, are free values. -/
def csRespond (s : State) (port tid : Nat) : State :=
  match tget s.fab.reqs (csKey port tid) with
  | none => s
  | some r =>
    if r.segs.any (fun x => x.status.isNone) then s
    else
      let s := { s with fab := { s.fab with reqs := tdel s.fab.reqs (csKey port tid) } }
      let st := ((r.segs.filterMap (·.status)).find? (· != stOk)).getD stOk
      let beats := if r.op = 0 then r.beats else 1
      let pm := if r.op = 0 then joinPoison (r.segs.map (·.poison)) r.segBeats 0 else ((r.segs.head?.map (·.poison)).getD 0) % 2
      if st ≠ stOk then emit s (.csRsp port tid [] beats true st pm)
      else if r.op = 1 then emit s (.csRsp port tid [] 1 false stOk 0)
      else
        let f := freeBytes s (128 * beats)
        let got := r.segs.flatMap (·.data)
        let got := got ++ f.1.drop got.length
        let data := if r.op = 0 ∧ r.beats = 1 then overlay f.1 (got.take 128) (padEn r.be) else got.take (128 * beats)
        emit f.2 (.csRsp port tid (if r.op = 2 then got.take 16 else data) beats false stOk pm)
where
  /-- The byte enables of one beat, missing ones off. -/
  padEn (be : List Bool) : List Bool := be.take 128 ++ List.replicate (128 - be.length) false

end Sys2Proof.Machine
end

