-- ==== Sys2Proof/Machine/Dump.lean ====
section
/-! DEFINITION. The source of tensor dumps: arming by a mark, values gathered into DUMP frames (13 R437, R438). -/

namespace Sys2Proof.Machine

/-- A partition lies in the scope of a source (13 R433): its own, or for an M source every partition that is not locked. -/
def armScope (s : State) (src p : Nat) : Bool :=
  if src = 0 ∨ src = 17 then (partAt s p).tdisp != 1 && (partAt s p).tdisp != 2 else src == p + 1

/-- A marked descriptor writes results for the first time: a matching armed slot is freed and its dump begins. -/
def fireDump (s : State) (d kind part : Nat) : State :=
  match (descAt s d).bind (·.mark) with
  | none => s
  | some (tag, step) =>
    match tfind s.dbg.arms (fun _ a => a.tag == tag && a.step == step && armScope s a.src part) with
    | none => s
    | some (i, a) =>
      let u : Dump := { dest := a.dest, tag := tag, step := step, kind := kind, part := part, next := 0, buf := [], out := 0 }
      { s with dbg := { s.dbg with arms := tdel s.dbg.arms i, dumps := tset s.dbg.dumps d u } }

/-- The payload of a DUMP frame (13 R438). -/
def dumpPayload (u : Dump) (vals : List Nat) (last : Bool) : Bytes :=
  leBytes 4 u.tag ++ leBytes 1 u.kind ++ leBytes 1 (b2n last) ++ [0, 0] ++ leBytes 8 u.step ++ leBytes 8 u.next ++
    leBytes 4 vals.length ++ [0, 0, 0, 0] ++ vals.flatMap (leBytes 4)

/-- Send one DUMP frame; to this block's own vertex it takes the loopback path. -/
def sendDump (s : State) (d : Nat) (u : Dump) (n : Nat) (last : Bool) : State :=
  let pay := dumpPayload u (u.buf.take n) last
  let own := ownVertex s u.dest
  let u := { u with next := u.next + n, buf := u.buf.drop n, out := if own then u.out else u.out + 1 }
  let s := { s with dbg := { s.dbg with dumps := tset s.dbg.dumps d u } }
  if own then
    let h : Hdr := { Hdr.zero with dst := u.dest, src := u.dest, tc := 6, stream := streamNo (u.part + 1) 6 0, op := opDump,
                                   plen := pay.length }
    let s := inboxPush s { hdr := h, payload := pay, port := 0, seqN := 0, comb := none }
    if last then setBits s 0x70004 2 else s
  else pushTx s { TxFrame.blank with dst := u.dest, owner := u.part + 1, tc := 6, op := opDump, payload := pay,
                                     origin := .dump d last }

/-- Send what is gathered: full frames, and with `last` the rest. -/
def flushDump : Nat → State → Nat → Bool → State
  | 0, s, _, _ => s
  | n + 1, s, d, last =>
    match tget s.dbg.dumps d with
    | none => s
    | some u =>
      if 988 < u.buf.length then flushDump n (sendDump s d u 988 false) d last
      else if last ∧ u.buf ≠ [] then sendDump s d u u.buf.length true
      else s

/-- Values of a dumped descriptor (13 R437). -/
def dumpValues (s : State) (d : Nat) (vals : List Nat) (last : Bool) : State :=
  let s := { s with dbg := { s.dbg with dumps := tmod s.dbg.dumps d (fun u => { u with buf := u.buf ++ vals }) } }
  flushDump (vals.length + 2) s d last

/-- No frame of a descriptor's dump is outstanding. -/
def dumpQuiet (s : State) (d : Nat) : Bool :=
  match tget s.dbg.dumps d with
  | some u => u.out == 0 && u.buf.isEmpty
  | none => true

end Sys2Proof.Machine
end

