-- ==== Sys2Proof/Machine/Reduce.lean ====
section
/-! DEFINITION. The reduce-through unit: the checks of a WD_REDUCE, stages and their slots, the handshake of a transfer,
the arithmetic of a chunk with its checks and replay, and the end of a stage (09). -/

namespace Sys2Proof.Machine

/-! The descriptor (09 R295, R296). -/

/-- The stage a WD_REDUCE describes. -/
def stageOf (c p : Nat) (b : Bytes) : Stage :=
  let b20 := leAt b 20 1
  let b23 := leAt b 23 1
  let nin := b20 / 16 % 8
  { ctx := c, part := p, elements := leAt b 8 8, op := leAt b 16 1, inFmt := leAt b 17 1, localFmt := leAt b 18 1,
    outFmt := leAt b 19 1, port := b20 % 8, inSub := leAt b 21 1, outSub := leAt b 22 1, forward := b23 % 2 == 1,
    memory := b23 / 2 % 2 == 1, update := b23 / 4 % 2 == 1, sat := b23 / 8 % 2 == 1, localEn := b23 / 16 % 2 == 1,
    inputs := (List.range (min nin 4)).map (fun i => { vertex := leAt b (24 + 2 * i) 2, binds := [], frames := [] }),
    xfer := leAt b 32 4, nfMax := leAt b 36 2, outV := leAt b 38 2, localAddr := leAt b 40 8, outAddr := leAt b 48 8,
    seed := leAt b 56 8, locals_ := [], localNext := 0, localOut := [], order := [], next := 0, started := false,
    ready := false, baseSeq := 0, firstFrame := 0, frame := 0, busyWait := false, outBuf := [],
    memOut := 0, framesOut := 0 }

/-- The formats in use (09 R296). -/
def stageFmts (g : Stage) : List Nat :=
  (if g.inputs.isEmpty then [] else [g.inFmt]) ++ (if g.localEn then [g.localFmt] else []) ++ [g.outFmt]

/-- Operation TOPK. -/
def isTopk (g : Stage) : Bool := g.op == 4

/-- Order 1 of 09 R296: reserved fields, listed encodings, and the fields that must be zero. -/
def reduceForm (b : Bytes) (g : Stage) : Bool :=
  let b20 := leAt b 20 1
  decide (g.op ≤ 4) && fmtListed g.inFmt && fmtListed g.localFmt && fmtListed g.outFmt &&
  b20 / 8 % 2 == 0 && b20 / 128 == 0 && decide (b20 / 16 % 8 ≤ 4) && leAt b 23 1 / 32 == 0 && decide (1 ≤ g.elements) &&
  ((List.range 4).all (fun i => decide (i < g.inputs.length) || leAt b (24 + 2 * i) 2 == 0)) &&
  (decide (g.nfMax ≤ 4096) || g.nfMax == 0xFFFF) && (g.forward || g.outV == 0) && (g.localEn || g.localAddr == 0) &&
  (g.memory || (g.update && g.outAddr / 2 ^ 32 == 0) || g.outAddr == 0) && (g.op == 1 || g.seed == 0) &&
  (!g.inputs.isEmpty || g.inFmt == 0) && (g.localEn || g.localFmt == 0)

/-- The streams of a stage: the peer and the SUB of the data stream. -/
def stageSubs (g : Stage) : List (Nat × Nat) :=
  g.inputs.map (fun i => (i.vertex, g.inSub)) ++ (if g.forward then [(g.outV, g.outSub)] else [])

/-- A running reduction of a partition uses the data stream or the control stream of a SUB toward a vertex (09 R309). -/
def subTaken (s : State) (p v sub : Nat) : Bool :=
  s.red.stages.any (fun x => x.2.part == p && (stageSubs x.2).any (fun q => q.1 == v && (q.2 == sub || q.2 + 0x80 == sub)))

/-- A running WD_SIGNAL of a partition, or the SHARED signal of a context torn down, uses a SUB toward a vertex: its frame is on its
way (09 R309; 11 R370). -/
def signalOn (s : State) (p v sub : Nat) : Bool :=
  let live := fun (o : Origin) => match o with
    | .signal d => (descAt s d).any (fun x => x.phase == .running)
    | _ => false
  let at_ := fun (n : Nat) => n == sub || n == sub + 0x80
  s.fab.txq.any (fun f => live f.origin && f.owner == p + 1 && f.dst == v && at_ f.sub) ||
  s.fab.tags.any (fun t => live t.2.origin && ownerOf t.2.stream == p + 1 && t.2.dst == v && at_ (subOf t.2.stream))

/-- Adder lanes of a port that are not mapped out (12 R403). -/
def goodAdders (s : State) (port : Nat) : Nat :=
  576 - s.ladder.mapped.countP (fun m => match m with
    | .adder p _ => p == port
    | _ => false)

/-- The first check of 09 R296 that fails. -/
def reduceCheck (s : State) (b : Bytes) (g : Stage) : Option Nat :=
  let nf := stageFmts g
  if !reduceForm b g then some stBadParam
  else if !portOk s g.port then some stBadParam
  else if !((partAt s g.part).ports / 2 ^ g.port % 2 == 1) || decide (goodAdders s g.port < 256) then some stNotPermitted
  else if (g.inputs.isEmpty && !g.localEn) || !(g.forward || g.memory || g.update) ||
      (g.update && (g.forward || g.memory || g.outFmt != 0 || isTopk g)) then some stBadParam
  else if nf.any fmtMx && g.elements % 32 != 0 then some stBadParam
  else if isTopk g && (decide (2 ^ 32 < g.elements) || g.outFmt != 0 || (!g.inputs.isEmpty && g.inFmt != 0)) then some stBadParam
  else if 0x7E < g.inSub ∨ 0x7E < g.outSub ∨ (g.localEn ∧ g.localAddr % 128 ≠ 0) ∨ (g.memory ∧ g.outAddr % 128 ≠ 0) then
    some stBadParam
  else if !((stageSubs g).all (fun q => otherMember s q.1)) then some stNotPermitted
  else if (stageSubs g).any (fun q => s.red.stages.any (fun x => x.2.part == g.part && (stageSubs x.2).contains q) ||
      signalOn s g.part q.1 q.2) then some stBusy
  else none

/-! Sizes: chunks, frames, slots (09 R304, R307, R314). -/

/-- Chunks of a reduction. -/
def stageChunks (g : Stage) : Nat := ceilDiv g.elements 4096
/-- Elements of chunk `c`. -/
def chunkElems (g : Stage) (c : Nat) : Nat := min 4096 (g.elements - 4096 * c)
/-- Frames of the transfer of a format. -/
def stageFrames (g : Stage) (fmt : Nat) : Nat :=
  if isTopk g then ceilDiv (stageChunks g) 31 else ceilDiv g.elements (fmtPerFrame fmt)
/-- Payload bytes of frame `f`. -/
def frameBytes (g : Stage) (fmt f : Nat) : Nat :=
  if isTopk g then 128 * min 31 (stageChunks g - 31 * f)
  else fmtSize fmt (min (fmtPerFrame fmt) (g.elements - f * fmtPerFrame fmt))
/-- The first and last frame that carry a part of chunk `c`. -/
def chunkFrames (g : Stage) (fmt c : Nat) : Nat × Nat :=
  if isTopk g then (c / 31, c / 31)
  else (4096 * c / fmtPerFrame fmt, (4096 * c + chunkElems g c - 1) / fmtPerFrame fmt)
/-- The first and last chunk of which frame `f` carries a part. -/
def frameChunks (g : Stage) (fmt f : Nat) : Nat × Nat :=
  if isTopk g then (31 * f, min (31 * f + 30) (stageChunks g - 1))
  else (f * fmtPerFrame fmt / 4096, (min ((f + 1) * fmtPerFrame fmt) g.elements - 1) / 4096)
/-- Bytes of the local contribution. -/
def localBytes (g : Stage) : Nat := fmtSize g.localFmt g.elements
/-- Local bytes of chunk `c`: where they begin and how many they are. -/
def localRange (g : Stage) (c : Nat) : Nat × Nat := (fmtSize g.localFmt (4096 * c), fmtSize g.localFmt (chunkElems g c))
/-- Slots a stage reserves. -/
def stageSlots (g : Stage) : Nat := 8 * g.inputs.length + (if g.localEn then 24 else 0)
/-- Slots reserved on a port. -/
def slotsUsed (s : State) (port : Nat) : Nat :=
  ((s.red.stages.filter (fun x => x.2.port == port)).map (fun x => stageSlots x.2)).foldl (· + ·) 0

/-- Replace a stage. -/
def setStage (s : State) (d : Nat) (g : Stage) : State := { s with red := { s.red with stages := tset s.red.stages d g } }
/-- Change a stage. -/
def modStage (s : State) (d : Nat) (f : Stage → Stage) : State :=
  { s with red := { s.red with stages := tmod s.red.stages d f } }

/-! Local read-ahead (09 R314). -/

/-- Read ahead while a local slot is free. -/
def pumpLocal : Nat → State → Nat → State
  | 0, s, _ => s
  | n + 1, s, d =>
    match tget s.red.stages d with
    | none => s
    | some g =>
      if !g.localEn ∨ localBytes g ≤ 4096 * g.localNext ∨ 24 ≤ g.locals_.length + g.localOut.length then s
      else
        let i := g.localNext
        let pasid := ((descAt s d).map (·.pasid)).getD 0
        let s := setStage s d { g with localNext := i + 1, localOut := g.localOut ++ [i] }
        pumpLocal n (pmReq s (.localRead d i) false (g.localAddr + 4096 * i) (min 4096 (localBytes g - 4096 * i)) [] []
          (some pasid)) d

/-- A local slot has arrived, or its read has failed (09 R321, 02 R43). -/
def localArrive (s : State) (d i : Nat) (err : Bool) (poison : Nat) (data : Bytes) : State :=
  match tget s.red.stages d with
  | none => s
  | some g =>
    if err then failStage (ioEvent s g.port g.port stInternal 0 g.part g.ctx (g.localAddr + 4096 * i)) d stInternal
    else setStage s d { g with localOut := g.localOut.filter (· != i), locals_ := tset g.locals_ i (data, poison) }

/-! The handshake (09 R307 to R312). -/

/-- The next sequence of an egress stream, past a GAP it has still to send (06 R205, 07 R234). -/
def streamNext (s : State) (peer stream : Nat) (par : Bool) : Nat :=
  match tget s.links.egress (streamKey peer stream par) with
  | none => 0
  | some c => (if c.jump then c.limit else c.next) + (if c.closing && c.gap.isNone then 1 else 0)

/-- Send a START for the frames from `frame` on, and wait for its READY. -/
def pushStart (s : State) (d : Nat) : State :=
  match tget s.red.stages d with
  | none => s
  | some g =>
    let par := s.dom.gen % 2 == 1
    let base := streamNext s g.outV (streamNo (g.part + 1) 3 g.outSub) par
    let s := setStage s d { g with started := true, ready := false, busyWait := false, baseSeq := base,
                                   firstFrame := g.frame }
    pushReduce s g.outV g.part (g.outSub + 0x80) (ctlRec 1 g.outFmt g.op g.xfer base g.frame g.elements) .own

/-- Bind an input to a START: its fields must be the stage's own, or the reduction ends; READY answers it (09 R310). -/
def bindStart (s : State) (d src : Nat) (par : Bool) (r : Bytes) : State :=
  match tget s.red.stages d with
  | none => s
  | some g =>
    if leAt r 1 1 ≠ g.inFmt ∨ leAt r 2 1 ≠ g.op ∨ leAt r 24 8 ≠ g.elements then failStage s d stBadParam
    else
      let b : Bind := { par := par, baseSeq := leAt r 8 8, first := leAt r 16 8 }
      let ins := g.inputs.map (fun i =>
        if i.vertex = src then { i with binds := i.binds.filter (fun x => x.par != par) ++ [b] } else i)
      let s := setStage s d { g with inputs := ins }
      let s := { s with red := { s.red with
        aborted := s.red.aborted.filter (· != (src, streamNo (g.part + 1) 3 g.inSub)) } }
      pushReduce s src g.part (g.inSub + 0x80) (ctlRec 2 0 0 g.xfer b.baseSeq b.first 0) .own

/-- The armed stage that takes a control record from upstream. -/
def stageBelow (s : State) (src stream : Nat) : Option (Nat × Stage) :=
  tfind s.red.stages (fun _ g => g.part + 1 == ownerOf stream && g.inSub + 0x80 == subOf stream &&
    g.inputs.any (fun i => i.vertex == src))

/-- The armed stage that takes a control record from downstream. -/
def stageAbove (s : State) (src stream : Nat) : Option (Nat × Stage) :=
  tfind s.red.stages (fun _ g => g.part + 1 == ownerOf stream && g.forward && g.outSub + 0x80 == subOf stream && g.outV == src)

/-- STARTs that wait in the park table for a stage that has just armed. -/
def bindParked (s : State) (d : Nat) : State :=
  match tget s.red.stages d with
  | none => s
  | some g =>
    let mine := s.red.parked.filter (fun k => k.owner == g.part + 1 && k.sub == g.inSub + 0x80 &&
      g.inputs.any (fun i => i.vertex == k.src) && leAt k.rec_ 4 4 == g.xfer)
    let s := { s with red := { s.red with parked := s.red.parked.filter (fun k => !mine.contains k) } }
    mine.foldl (fun s k => bindStart s d k.src k.par k.rec_) s

/-- Arm a stage: its slots are reserved, its read-ahead begins, START leaves (09 R310, R314). -/
def armStage (s : State) (d : Nat) (g : Stage) : State :=
  let s := setStage s d g
  let s := if g.forward then pushStart s d else s
  bindParked (pumpLocal 24 s d) d

/-- Start a WD_REDUCE that has passed the common checks: none when it must wait in its queue (09 R296, R315; 10 R337). -/
def startReduce (s : State) (d c p : Nat) (b : Bytes) : Option State :=
  let g := stageOf c p b
  match reduceCheck s b g with
  | some st => some (completeDesc s d st 0)
  | none =>
    let tag := g.outAddr % 2 ^ 32
    let e := s.upd.fuses.find? (fun f => f.part == p && f.tag == tag)
    let bound := e.any (fun f => f.red.isSome || (f.upd.bind (tget s.upd.runs)).any (·.bound))
    if g.update && bound then some (completeDesc s d stBusy 0)
    else if g.update && e.isNone && decide (16 ≤ s.upd.fuses.length) then none
    else if 64 < slotsUsed s g.port + stageSlots g then none
    else
      let s := if !g.update then s else match e with
        | some _ => { s with upd := { s.upd with fuses := s.upd.fuses.map (fun f =>
            if f.part = p ∧ f.tag = tag then { f with red := some d } else f) } }
        | none => { s with upd := { s.upd with
            fuses := s.upd.fuses ++ [{ part := p, tag := tag, red := some d, upd := none, discard := false }] } }
      some (armStage s d g)

/-! Sending results (09 R307, R316). -/

/-- Cut the encoded results into frames and queue those that are whole; the last frame carries the remainder. -/
def pumpOut : Nat → State → Nat → State
  | 0, s, _ => s
  | n + 1, s, d =>
    match tget s.red.stages d with
    | none => s
    | some g =>
      let len := frameBytes g g.outFmt g.frame
      if !g.forward ∨ !g.ready ∨ stageFrames g g.outFmt ≤ g.frame ∨ g.outBuf.length < len then s
      else
        let s := setStage s d { g with frame := g.frame + 1, outBuf := g.outBuf.drop len, framesOut := g.framesOut + 1 }
        pumpOut n (pushReduce s g.outV g.part g.outSub (g.outBuf.take len) (.reduce d)) d

/-- A frame waiting to be sent is one of a stage's data frames, or its START. -/
def stageTx (d : Nat) (g : Stage) (f : TxFrame) : Bool :=
  f.origin == .reduce d || (f.op == opReduce && f.dst == g.outV && f.owner == g.part + 1 && f.sub == g.outSub + 0x80 &&
    leAt f.payload 0 1 == 1)

/-- After a SWITCH, the frames not yet sent go out on the new parity: a new START names the first of them (09 R312). -/
def reduceSwitch (s : State) : State :=
  s.red.stages.foldl (fun s x =>
    match tget s.red.stages x.1 with
    | none => s
    | some g =>
      if !g.forward ∨ !g.started then s
      else
        let back := s.fab.txq.filter (fun f => f.origin == .reduce x.1)
        let s := { s with fab := { s.fab with txq := s.fab.txq.filter (fun f => !stageTx x.1 g f) } }
        let g := { g with frame := g.frame - back.length, framesOut := g.framesOut - back.length,
                          outBuf := back.flatMap (·.payload) ++ g.outBuf }
        let s := setStage s x.1 g
        if stageFrames g g.outFmt ≤ g.frame then s else pushStart s x.1) s

/-! Frames received (09 R310 to R314, R322). -/

/-- A control frame of a reduction of this kind. -/
def ctlFrame (f : InFrame) (kind : Nat) : Bool :=
  f.hdr.op == opReduce && decide (0x80 ≤ subOf f.hdr.stream) &&
  (if f.payload.length = 32 ∧ 2 ≤ leAt f.payload 0 1 ∧ leAt f.payload 0 1 ≤ 4 then leAt f.payload 0 1 == kind else kind == 1)

/-- A START: bound, parked, or answered BUSY when the park table is full. A record of no listed kind is discarded. -/
def startRx (s : State) (f : InFrame) : State :=
  let r := f.payload
  if r.length ≠ 32 ∨ leAt r 0 1 ≠ 1 then s
  else match stageBelow s f.hdr.src f.hdr.stream with
    | some (d, g) => if leAt r 4 4 = g.xfer then bindStart s d f.hdr.src f.hdr.dgen r else park s
    | none => park s
where
  /-- The START waits, in place of an earlier one of its stream. -/
  park (s : State) : State :=
    let k : ParkedStart := { src := f.hdr.src, owner := ownerOf f.hdr.stream, sub := subOf f.hdr.stream, par := f.hdr.dgen,
                             rec_ := f.payload }
    let rest := s.red.parked.filter (fun x => !(x.src == k.src && x.owner == k.owner && x.sub == k.sub && x.par == k.par))
    if rest.length < 256 then { s with red := { s.red with parked := rest ++ [k] } }
    else
      let r := f.payload
      pushReduce (setBits s 0x30004 0x10) k.src (k.owner - 1) k.sub (ctlRec 4 0 0 (leAt r 4 4) (leAt r 8 8) (leAt r 16 8) 0) .own

/-- The record echoes the START in force. -/
def echoes (g : Stage) (r : Bytes) : Bool :=
  g.started && leAt r 4 4 == g.xfer && leAt r 8 8 == g.baseSeq && leAt r 16 8 == g.firstFrame

/-- A READY: data frames may leave. -/
def readyRx (s : State) (f : InFrame) : State :=
  match stageAbove s f.hdr.src f.hdr.stream with
  | none => s
  | some (d, g) =>
    if echoes g f.payload then pumpOut (g.outBuf.length + 1) (setStage s d { g with ready := true, busyWait := false }) d else s

/-- A BUSY: the START is sent again later. -/
def busyRx (s : State) (f : InFrame) : State :=
  match stageAbove s f.hdr.src f.hdr.stream with
  | none => s
  | some (d, g) => if echoes g f.payload && !g.ready then setStage s d { g with busyWait := true } else s

/-- An ABORT ends the stage; it goes on with the originating status and vertex (09 R322). -/
def abortRx (s : State) (f : InFrame) : State :=
  let hit := match stageBelow s f.hdr.src f.hdr.stream with
    | some x => some x
    | none => stageAbove s f.hdr.src f.hdr.stream
  match hit with
  | none => s
  | some (d, _) =>
    let c := leAt f.payload 24 8
    let st := c % 256
    let v := c / 65536 % 65536
    let s := setBits { s with red := { s.red with lastV := v, lastS := st } } 0x30004 4
    completeDesc (abortStage s d stAborted v st none) d stAborted 0

/-- A data frame without a binding (09 R313). -/
def unboundRx (s : State) (f : InFrame) : State :=
  let k := (f.hdr.src, f.hdr.stream)
  if s.red.aborted.contains k then s
  else
    let s := bump (setBits s 0x30004 8) 0x30028
    let late := s.red.answered.any (fun a => a.1 == f.hdr.src && a.2.1 == f.hdr.stream && decide (s.aon.ts < a.2.2 + 1000000))
    if late then s
    else
      let rest := s.red.answered.filter (fun a => !(a.1 == f.hdr.src && a.2.1 == f.hdr.stream))
      let s := { s with red := { s.red with answered := rest ++ [(f.hdr.src, f.hdr.stream, s.aon.ts)] } }
      let x := freeN s
      let own := s.dom.vertex.getD 0
      pushTx x.2 { TxFrame.blank with
        dst := f.hdr.src, owner := ownerOf f.hdr.stream, tc := 3, sub := (subOf f.hdr.stream + 0x80) % 256, op := opReduce,
        payload := abortRec (x.1 % 2 ^ 32) stContextReset own, origin := .own }

/-- Chunks of an input that its frames now make complete, in order, that were not complete before. -/
def newChunks (g : Stage) (idx : Nat) (frames : Tbl Bytes) (f : Nat) : List (Nat × Nat) :=
  let r := frameChunks g g.inFmt f
  ((List.range (r.2 + 1 - r.1)).map (r.1 + ·)).filterMap (fun c =>
    let q := chunkFrames g g.inFmt c
    let all := ((List.range (q.2 + 1 - q.1)).map (q.1 + ·)).all (fun k => (tget frames k).isSome)
    if all && decide (g.next ≤ c) && !g.order.contains (c, idx) then some (c, idx) else none)

/-- A data frame takes a slot of its input (09 R307, R314). Bytes it lacks are free (log 1). -/
def dataRx (s : State) (f : InFrame) : State :=
  match stageFor s f.hdr with
  | none => unboundRx s f
  | some (d, g, i, b) =>
    let n := f.seqN - b.baseSeq + b.first
    let have_ := (tget i.frames n).isSome || decide ((chunkFrames g g.inFmt g.next).1 > n)
    if f.seqN < b.baseSeq ∨ stageFrames g g.inFmt ≤ n ∨ have_ then s
    else
      let len := frameBytes g g.inFmt n
      let q := if f.payload.length < len then freeBytes s (len - f.payload.length) else ([], s)
      let idx := g.inputs.findIdx (fun k => k.vertex == f.hdr.src)
      let fr := tset i.frames n (f.payload.take len ++ q.1)
      setStage q.2 d { g with
        inputs := g.inputs.map (fun k => if k.vertex = f.hdr.src then { k with frames := fr } else k)
        order := g.order ++ newChunks g idx fr n }

/-! The chunk (09 R302 to R304, R318 to R320). -/

/-- Elements `a` to `b - 1` of an input, from its frames. -/
def inputElems (g : Stage) (fr : Tbl Bytes) (a b : Nat) : List Nat :=
  let e := fmtPerFrame g.inFmt
  let fs := (List.range ((b - 1) / e + 1 - a / e)).map (a / e + ·)
  unpack g.inFmt (b - a) (fs.flatMap (fun f =>
    let lo := max a (f * e) - f * e
    let hi := min b ((f + 1) * e) - f * e
    slice (tgetD fr f []) (fmtSize g.inFmt lo) (fmtSize g.inFmt (hi - lo))))

/-- The local slots of chunk `c`. -/
def chunkLocals (g : Stage) (c : Nat) : List Nat :=
  let r := localRange g c
  (List.range ((r.1 + r.2 - 1) / 4096 + 1 - r.1 / 4096)).map (r.1 / 4096 + ·)

/-- The local elements of chunk `c`. -/
def localElems (g : Stage) (c : Nat) : List Nat :=
  let r := localRange g c
  let ls := chunkLocals g c
  unpack g.localFmt (chunkElems g c) (slice (ls.flatMap (fun i => padTo 4096 (tgetD g.locals_ i ([], 0)).1))
    (r.1 - 4096 * (r.1 / 4096)) r.2)

/-- A beat of chunk `c`'s local elements is poisoned (12 R390): of a slot's beats, those that the chunk's bytes lie in count. -/
def localPoison (g : Stage) (c : Nat) : Bool :=
  let r := localRange g c
  (chunkLocals g c).any (fun i => (List.range 32).any (fun j =>
    (tgetD g.locals_ i ([], 0)).2 / 2 ^ j % 2 == 1 && decide (4096 * i + 128 * j < r.1 + r.2) &&
    decide (r.1 < 4096 * i + 128 * j + 128)))

/-- The inputs of chunk `c` in the order in which they became complete (09 R303). -/
def chunkOrder (g : Stage) (c : Nat) : List Nat := (g.order.filter (fun x => x.1 == c)).map (·.2)

/-- Every operand of the next chunk is in the hold buffer. -/
def chunkReady (g : Stage) : Bool :=
  decide (g.next < stageChunks g) && (chunkOrder g g.next).length == g.inputs.length &&
  (!g.localEn || (chunkLocals g g.next).all (fun i => (tget g.locals_ i).isSome))

/-- A record of a TOPK list: position and value. -/
def topkRec (b : Bytes) (i : Nat) : Nat × Nat := (leAt b (8 * i) 4, leAt b (8 * i + 4) 4)

/-- The 16 records of an input's list of chunk `c`. -/
def topkList (fr : Tbl Bytes) (c : Nat) : List (Nat × Nat) :=
  let b := slice (tgetD fr (c / 31) []) (128 * (c % 31)) 128
  (List.range 16).map (topkRec b)

/-- Rank of a value: its magnitude; NaN above every number (09 R304). -/
def topkRank (v : Nat) : Nat := if f32.isNan v then 2 ^ 32 else f32.mag v

/-- One record goes before another. -/
def topkBefore (a b : Nat × Nat) : Bool :=
  decide (topkRank b.2 < topkRank a.2) || (topkRank a.2 == topkRank b.2 && decide (a.1 ≤ b.1))

/-- A record is the padding of a chunk of `n` elements. -/
def topkPad (n i : Nat) (r : Nat × Nat) : Bool := decide (n ≤ i) && r == (0xFFFFFFFF, 0)

/-- A list is well formed for chunk `c` of `n` elements (check 4). -/
def topkOk (c n : Nat) (l : List (Nat × Nat)) : Bool :=
  l.zipIdx.all (fun x => topkPad n x.2 x.1 || (decide (4096 * c ≤ x.1.1) && decide (x.1.1 < 4096 * c + n))) &&
  (l.zip (l.drop 1)).all (fun x => topkBefore x.1 x.2)

/-- The operands of each element of the chunk, local first. -/
def chunkOperands (g : Stage) (c : Nat) : List (List Nat) :=
  let n := chunkElems g c
  let ins := chunkOrder g c
  let frames := fun i => ((g.inputs[i]?).map (·.frames)).getD []
  if isTopk g then
    let lists := ins.map (fun i => topkList (frames i) c)
    let loc := if g.localEn then localElems g c else []
    (List.range n).map (fun j =>
      (if g.localEn then [loc.getD j 0] else []) ++ lists.flatMap (fun l =>
        (l.filter (fun r => r.1 == 4096 * c + j)).map (fun r => widenElem 0 r.2)))
  else
    let cols := (if g.localEn then [localElems g c] else []) ++
      ins.map (fun i => inputElems g (frames i) (4096 * c) (4096 * c + n))
    (List.range n).map (fun j => cols.map (fun l => l.getD j 0))

/-- The result of one element (09 R302, R304): for TOPK the sum starts from zero when there is no local element. -/
def elemResult (g : Stage) (xs : List Nat) : Nat :=
  let f := if g.op = 2 then f32.minOf else if g.op = 3 then f32.maxOf else f32.add
  match xs with
  | [] => 0
  | a :: t => if isTopk g && !g.localEn then (a :: t).foldl f 0 else t.foldl f a

/-- A logarithm rounded up. -/
def log2Up (m : Nat) : Nat := (lowestFrom (fun k => decide (m ≤ 2 ^ k)) 16 0).getD 16

/-- Check 1 on an element. -/
def madeNan (xs : List Nat) (r : Nat) : Bool := f32.isNan r && xs.all f32.finite

/-- Check 3 on an element. -/
def overCeiling (g : Stage) (xs : List Nat) (r : Nat) : Bool :=
  let a : Int := if g.op = 2 ∨ g.op = 3 then 0 else log2Up xs.length
  xs.all f32.finite && match expo r, (xs.filterMap expo).foldl (fun (m : Option Int) e => some (match m with
      | some k => max k e
      | none => e)) none with
    | some e, some m => decide (m + a < e)
    | some _, none => true
    | none, _ => false

/-- The first check of 09 R319 that a chunk's results fail; 0 for none. -/
def chunkCheck (g : Stage) (c : Nat) (ops : List (List Nat)) (rs : List Nat) : Nat :=
  let z := ops.zip rs
  let nf := rs.countP (fun r => !f32.finite r)
  let frames := fun i => ((g.inputs[i]?).map (·.frames)).getD []
  if z.any (fun x => madeNan x.1 x.2) then 1
  else if g.nfMax ≠ 0xFFFF ∧ g.nfMax < nf then 2
  else if z.any (fun x => overCeiling g x.1 x.2) then 3
  else if isTopk g && !((chunkOrder g c).all (fun i => topkOk c (chunkElems g c) (topkList (frames i) c))) then 4
  else 0

/-- An upset of the hardware changes one result of an attempt: which element, and the bits that flip. -/
def upset (rs : List Nat) (u : Option (Nat × Nat)) : List Nat :=
  match u with
  | none => rs
  | some (i, x) => rs.set i (rs.getD i 0 ^^^ (x % 2 ^ 32))

/-- The 16 records of a TOPK result. -/
def topkOut (c : Nat) (rs : List Nat) : Bytes :=
  let l := ((rs.zipIdx.map (fun x => (4096 * c + x.2, x.1))).insertionSort (fun a b => topkBefore a b = true)).take 16
  padTopk (16 - l.length) (l.flatMap (fun r => leBytes 4 r.1 ++ leBytes 4 r.2))
where
  /-- Padding records. -/
  padTopk : Nat → Bytes → Bytes
    | 0, b => b
    | n + 1, b => padTopk n (b ++ leBytes 4 0xFFFFFFFF ++ [0, 0, 0, 0])

/-- Results as they leave (09 R300 to R306). -/
def encodeChunk (s : State) (g : Stage) (c : Nat) (rs : List Nat) : Bytes :=
  if isTopk g then topkOut c rs
  else
    let v := s.dom.vertex.getD 0
    pack g.outFmt g.sat (rs.zipIdx.map (fun x =>
      (x.1, if g.op = 1 ∧ g.outFmt ≠ 0 then some (srBits g.seed v (4096 * c + x.2)) else none)))

/-- Where chunk `c` of a result stands in memory. -/
def outOffset (g : Stage) (c : Nat) : Nat := if isTopk g then 128 * c else fmtSize g.outFmt (4096 * c)

/-- Write bytes of a result to memory, at most 4 KiB in a request. -/
def writeOut : Nat → State → Nat → Nat → Bytes → State
  | 0, s, _, _, _ => s
  | n + 1, s, d, addr, b =>
    if b.isEmpty then s
    else
      let pasid := ((descAt s d).map (·.pasid)).getD 0
      let s := modStage s d (fun g => { g with memOut := g.memOut + 1 })
      writeOut n (pmReq s (.redWrite d) true addr (min 4096 b.length) (b.take 4096) [] (some pasid)) d (addr + 4096) (b.drop 4096)

/-- The slots whose every chunk has been released are free (09 R314). -/
def freeSlots (g : Stage) : Stage :=
  let fin := decide (stageChunks g ≤ g.next)
  let low := (chunkFrames g g.inFmt g.next).1
  let lowL := (localRange g g.next).1 / 4096
  let cut := fun (i : StageIn) => { i with frames := if fin then [] else tkeep i.frames (fun f _ => decide (low ≤ f)) }
  { g with
    inputs := g.inputs.map cut
    locals_ := if fin then [] else tkeep g.locals_ (fun k _ => decide (lowL ≤ k))
    order := g.order.filter (fun x => decide (g.next ≤ x.1)) }

/-- The fuse binding of a stage. -/
def fuseOfRed (s : State) (d : Nat) : Option Fuse := s.upd.fuses.find? (fun f => f.red == some d)

/-- The update unit has room for a chunk of a stage (10 R338). -/
def fuseRoom (s : State) (d : Nat) : Bool :=
  match fuseOfRed s d with
  | none => false
  | some f => f.discard || match f.upd.bind (tget s.upd.runs) with
    | some u => u.running && u.bound && u.tiles.all (fun t => t.2.grad.isNone)
    | none => false

/-- Read the pages of a tile: weight and first moment, and the second moment where the rule has one (10 R328, R341). -/
def readTile (s : State) (d t : Nat) : State :=
  match tget s.upd.runs d with
  | none => s
  | some u =>
    let kid := leAt u.pgd 44 2
    let off := leAt u.pgd 56 8
    let pages := if pgdRule u.pgd = 1 then [0, 1] else [0, 1, 2]
    pages.foldl (fun s g =>
      let o := takeOrd s
      memSubmit o.2 { who := .tile d t g, kid := kid, line := (off + 12288 * t + 4096 * g) / 64, lines := 64, write := false,
                      atomic := none, data := [], mask := [], epoch := 0, phase := .waiting, status := stOk, poison := 0,
                      parts := [], ctx := u.ctx, fepoch := 0, cover := false, ord := o.1 } true) s

/-- A chunk's results become the gradient of four tiles (10 R337, R338). -/
def feedChunk (s : State) (d c : Nat) (rs : List Nat) : State :=
  match fuseOfRed s d with
  | none => s
  | some f =>
    if f.discard then s
    else match f.upd with
      | none => s
      | some e =>
        ((List.range (ceilDiv rs.length 1024)).map (fun i => (4 * c + i, (slice rs (1024 * i) 1024).flatMap (leBytes 4)))).foldl
          (fun s x =>
            let s := { s with upd := { s.upd with runs := tmod s.upd.runs e (fun u =>
              { u with issued := x.1 + 1,
                       tiles := tset u.tiles x.1 { pages := [], grad := some x.2, poisoned := false } }) } }
            readTile s e x.1) s

/-- Release a chunk: its results go to their destinations, its slots are freed (09 R318). -/
def releaseChunk (s : State) (d : Nat) (g : Stage) (rs : List Nat) : State :=
  let c := g.next
  let s := countEv (bump s 0x3002C) (0x070 + g.port) (some g.part) 1
  let s := if c = 0 ∧ !isTopk g then fireDump s d 1 g.part else s
  let b := encodeChunk s g c rs
  let last := decide (stageChunks g ≤ c + 1)
  let s := setStage s d (freeSlots { g with next := c + 1, outBuf := if g.forward then g.outBuf ++ b else [] })
  let s := dumpValues s d rs last
  let s := if g.memory then writeOut (b.length / 4096 + 1) s d (g.outAddr + outOffset g c) b else s
  let s := if g.update then feedChunk s d c rs else s
  pumpLocal 24 (pumpOut (g.outBuf.length + b.length + 1) s d) d

/-- Log a chunk in RT_FAULT_INFO (09 R320). -/
def logChunk (s : State) (g : Stage) (check : Nat) (agree final : Bool) : State :=
  { s with red := { s.red with fPort := g.port, fCheck := check, fAgree := agree, fFinal := final, fCtx := g.ctx, fChunk := g.next } }

/-- An arithmetic engine fault (12 R392): the data's when the attempts agree, else the hardware's, with an L1. -/
def arithFault (s : State) (agree : Bool) (unit port cause ctx part : Nat) : State :=
  if agree then occur s (mkRec 0x10 unit port 0 stPlausibility cause 0 ctx part 0) none
  else askReset (occur s (mkRec 0x05 unit port 0 stPlausibility cause 0 ctx part 0) none) 1 unit port 0x05 false

/-- Run the next chunk: the first attempt, and when it fails its replay; `u1`, `u2` are upsets of the hardware in each
(09 R318 to R320). -/
def runChunk (s : State) (d : Nat) (u1 u2 : Option (Nat × Nat)) : State :=
  match tget s.red.stages d with
  | none => s
  | some g =>
    if !chunkReady g ∨ (g.update && !fuseRoom s d) then s
    else if g.localEn && localPoison g g.next then failStage s d stPoisoned
    else
      let ops := chunkOperands g g.next
      let r0 := ops.map (elemResult g)
      let r1 := upset r0 u1
      let c1 := chunkCheck g g.next ops r1
      if c1 = 0 then releaseChunk s d g r1
      else
        let r2 := upset r0 u2
        let c2 := chunkCheck g g.next ops r2
        let s := countEv (bump s 0x30020) (0x078 + g.port) (some g.part) 1
        if c2 = 0 then releaseChunk (logChunk (setBits s 0x30004 1) g c1 (r1 == r2) false) d g r2
        else
          let s := logChunk (setBits (bump s 0x30024) 0x30004 2) g c2 (r1 == r2) true
          arithFault (failStage s d stPlausibility) (r1 == r2) g.port g.port c2 g.ctx g.part

/-- A write of results has been answered (09 R321). -/
def redWritten (s : State) (d : Nat) (err : Bool) (addr : Nat) : State :=
  match tget s.red.stages d with
  | none => s
  | some g =>
    if err then failStage (ioEvent s g.port g.port stInternal 0 g.part g.ctx addr) d stInternal
    else setStage s d { g with memOut := g.memOut - 1 }

/-- Every result of a stage has been handed on (09 R321, 13 R438). -/
def stageOver (s : State) (d : Nat) (g : Stage) : Bool :=
  decide (stageChunks g ≤ g.next) && g.outBuf.isEmpty && g.framesOut == 0 && g.memOut == 0 && dumpQuiet s d &&
  (!g.forward || decide (stageFrames g g.outFmt ≤ g.frame))

/-- A stage whose results have all been handed on completes with ST_OK. -/
def endStage (s : State) (d : Nat) : State :=
  match tget s.red.stages d with
  | none => s
  | some g =>
    if stageOver s d g then
      let keep := fun (f : Fuse) => f.red != some d || (f.upd.isSome && !f.discard)
      let fuses := (s.upd.fuses.filter keep).map (fun f => if f.red = some d then { f with red := none } else f)
      let s := { s with
        red := { s.red with stages := tdel s.red.stages d }
        upd := { s.upd with fuses := fuses }
        dbg := { s.dbg with dumps := tdel s.dbg.dumps d } }
      completeDesc s d stOk 0
    else s

/-- A stage without progress ends with ST_TIMEOUT (09 R322); 0 disables the timer. -/
def idleStage (s : State) (d : Nat) : State :=
  if (tget s.red.stages d).isNone ∨ fld (reg s 0x30000) 23 0 = 0 then s
  else failStage (setBits s 0x30004 0x20) d stTimeout

/-! The commands. -/

/-- Take the first waiting frame that meets a test and act on it. -/
def onFrame (p : InFrame → Bool) (f : State → InFrame → State) (s : State) : State :=
  match popInbox s p with
  | some (x, t) => f t x
  | none => s

/-- REDUCE_START_RX (09 R310). -/
def execReduceStartRx (s : State) : Host.Outcome State Fault Refusal :=
  runEng (onFrame (fun f => ctlFrame f 1) startRx) s

/-- REDUCE_READY_RX (09 R310). -/
def execReduceReadyRx (s : State) : Host.Outcome State Fault Refusal :=
  runEng (onFrame (fun f => ctlFrame f 2) readyRx) s

/-- REDUCE_BUSY_RX (09 R310). -/
def execReduceBusyRx (s : State) : Host.Outcome State Fault Refusal :=
  runEng (onFrame (fun f => ctlFrame f 4) busyRx) s

/-- REDUCE_START_RETRY (09 R310). -/
def execReduceStartRetry (desc : Nat) (s : State) : Host.Outcome State Fault Refusal :=
  runEng (fun s => when_ ((tget s.red.stages desc).any (·.busyWait)) (fun s => pushStart s desc) s) s

/-- REDUCE_ABORT_RX (09 R322). -/
def execReduceAbortRx (s : State) : Host.Outcome State Fault Refusal :=
  runEng (onFrame (fun f => ctlFrame f 3) abortRx) s

/-- REDUCE_DATA_RX (09 R307, R313, R314). -/
def execReduceDataRx (s : State) : Host.Outcome State Fault Refusal :=
  runEng (fun s => onFrame (fun f => dataFrame f && !inputFull s f.hdr) dataRx s) s

/-- CHUNK_RUN (09 R318 to R320). -/
def execChunkRun (desc : Nat) (u1 u2 : Option (Nat × Nat)) (s : State) : Host.Outcome State Fault Refusal :=
  runEng (fun s => when_ (clkRuns s) (fun s => runChunk s desc u1 u2) s) s

/-- REDUCE_STAGE_COMPLETE (09 R321). -/
def execReduceStageComplete (desc : Nat) (s : State) : Host.Outcome State Fault Refusal :=
  runEng (fun s => endStage s desc) s

/-- REDUCE_IDLE_TIMEOUT (09 R322): not while clocks are stopped. -/
def execReduceIdleTimeout (desc : Nat) (s : State) : Host.Outcome State Fault Refusal :=
  runEng (fun s => idleStage s desc) s

end Sys2Proof.Machine
end

