-- ==== Sys2Proof/Machine/Update.lean ====
section
/-! DEFINITION. The sealed update unit: parameter group descriptors, the checks of a WD_UPDATE, the rules, the slices
with their check and second run, copies, norms, bindings to reductions, completion and Cadence (10). -/

namespace Sys2Proof.Machine

/-! Parameter group descriptors (10 R326, R327). -/

/-- GRAD_SRC. -/
def pgdSrc (b : Bytes) : Nat := leAt b 1 1 % 4
/-- GRAD_FMT. -/
def pgdGradFmt (b : Bytes) : Nat := leAt b 1 1 / 16
/-- COPY_KIND. -/
def pgdCopy (b : Bytes) : Nat := leAt b 2 1 % 4
/-- COPY_FMT. -/
def pgdCopyFmt (b : Bytes) : Nat := leAt b 2 1 / 16
/-- One of the FP32 fields, by its offset. -/
def pgdF (b : Bytes) (i : Nat) : Nat := leAt b i 4
/-- STATE_KID. -/
def pgdKid (b : Bytes) : Nat := leAt b 44 2 % 4096
/-- COPY_KID. -/
def pgdCopyKid (b : Bytes) : Nat := leAt b 46 2 % 4096
/-- Tiles of a group. -/
def pgdTiles (b : Bytes) : Nat := ceilDiv (pgdN b) 1024

/-- Finite and not negative. -/
def nonNeg (x : Nat) : Bool := f32.finite x && (!f32.neg x || f32.isZero x)
/-- In [0, 1). -/
def unitRange (x : Nat) : Bool := nonNeg x && f32.lt x 0x3F800000

/-- Elements padded to a whole MX block (10 R339). -/
def copyElems (fmt n : Nat) : Nat := if fmtMx fmt then ceilDiv n 32 * 32 else n

/-- Bytes of the copy of `n` elements, in whole lines. -/
def copyBytes (fmt n : Nat) : Nat := ceilDiv (fmtSize fmt (copyElems fmt n)) 64 * 64

/-- Order 2 of 10 R327: zero fields and encodings. -/
def pgdForm (b : Bytes) : Bool :=
  let b0 := leAt b 0 1
  decide (pgdRule b ≤ 3) && b0 / 64 == 0 && decide (pgdSrc b ≤ 1) && leAt b 1 1 / 4 % 4 == 0 &&
  (if pgdSrc b = 1 then pgdGradFmt b == 0 else decide (pgdGradFmt b ≤ 2)) &&
  decide (pgdCopy b ≤ 2) && leAt b 2 1 / 4 % 4 == 0 && (if pgdCopy b = 0 then pgdCopyFmt b == 0 else fmtListed (pgdCopyFmt b)) &&
  leAt b 3 1 == 0 && decide (leAt b 44 2 < 4096) && decide (leAt b 46 2 < 4096) && (pgdCopy b == 2 || leAt b 46 2 == 0) &&
  leAt b 56 8 % 4096 == 0 && (if pgdSrc b = 0 then leAt b 64 8 % 128 == 0 else leAt b 64 8 == 0) &&
  (if pgdCopy b = 0 then leAt b 72 8 == 0 else leAt b 72 8 % 64 == 0) && leAt b 80 8 == 0 && (b.drop 88).all (· == 0)

/-- Order 3 of 10 R327: the ranges of the FP32 fields. -/
def pgdRanges (b : Bytes) : Bool :=
  [8, 20, 24, 28].all (fun i => nonNeg (pgdF b i)) && unitRange (pgdF b 12) && (pgdRule b == 1 || unitRange (pgdF b 16)) &&
  (pgdRule b ≤ 1 || ([32, 36, 40].all (fun i => f32.finite (pgdF b i)) && f32.lt 0 (pgdF b 32) &&
    !f32.lt (pgdF b 40) (pgdF b 32) && !f32.lt (pgdF b 36) (pgdF b 40)))

/-- Orders 5 to 7 of 10 R327: the state region, the room in it, the copy region. -/
def pgdRegions (s : State) (p : Nat) (b : Bytes) : Option Nat :=
  match regionAt s (pgdKid b) with
  | none => some stNotPermitted
  | some r =>
    if r.invalid ∨ r.kind ≠ 1 ∨ r.part ≠ p ∨ !r.authority then some stNotPermitted
    else if r.size < leAt b 56 8 + 12288 * pgdTiles b then some stBadParam
    else if pgdCopy b ≠ 2 then none
    else match regionAt s (pgdCopyKid b) with
      | none => some stNotPermitted
      | some c =>
        if c.invalid ∨ c.kind ≠ 2 ∨ c.part ≠ p ∨ !c.authority then some stNotPermitted
        else if c.size < leAt b 72 8 + copyBytes (pgdCopyFmt b) (pgdN b) then some stBadParam
        else none

/-! Starting (10 R330 to R332, R337). -/

/-- Groups per partition. -/
def pgdGroups (s : State) : Nat := fld (reg s 0x31008) 12 0

/-- A group is held by a WD_UPDATE. -/
def groupHeld (s : State) (p g : Nat) : Bool := s.upd.runs.any (fun x => x.2.part == p && x.2.group == g)

/-- The zero fields, PHASE, STEP and scales of a WD_UPDATE (10 R330 order 1). -/
def updForm (b : Bytes) : Bool :=
  decide (leAt b 18 1 ≤ 2) && leAt b 19 1 == 0 && leAt b 8 8 != 0 && nonNeg (leAt b 20 4) && nonNeg (leAt b 24 4) &&
  leAt b 32 8 % 8 == 0 && (b.drop 40).all (· == 0)

/-- Orders 1 to 6 of 10 R330; `acc` answers the read of the PGD (12 R391). -/
def updCheck (s : State) (p : Nat) (b : Bytes) (acc : Access) : Option Nat :=
  let g := leAt b 16 2
  let pgd := pgdAt s p g
  let phase := leAt b 18 1
  if !updForm b then some stBadParam
  else if pgdGroups s ≤ g then some stBadParam
  else if acc = .err then some stInternal
  else if acc = .poison then some stPoisoned
  else if pgdN pgd = 0 ∨ (pgdRegions s p pgd).isSome then some stNotPermitted
  else if pgdTorn pgd then some stNotPermitted
  else if groupHeld s p g ∨ isHeld s (.group p g) then some stBusy
  else if (phase ≠ 0 ∧ pgdRule pgd ≠ 2) ∨ (leAt b 28 4 == 0) != (pgdSrc pgd == 0) ∨ (leAt b 32 8 == 0) != (phase == 0) then
    some stBadParam
  else none

/-- The binding with a tag in a partition. -/
def fuseAt (s : State) (p tag : Nat) : Option Fuse := s.upd.fuses.find? (fun f => f.part == p && f.tag == tag)

/-- Replace the binding with a tag, or add one. -/
def fusePut (s : State) (f : Fuse) : State :=
  let rest := s.upd.fuses.filter (fun g => !(g.part == f.part && g.tag == f.tag))
  { s with upd := { s.upd with fuses := rest ++ [f] } }

/-- A binding can be had for an update: the reduction waits for it, only a refused update holds it, or one is free. -/
def fuseFree (s : State) (p tag : Nat) : Bool :=
  match fuseAt s p tag with
  | some _ => true
  | none => decide (s.upd.fuses.length < 16)

/-- The tag is bound to another update, or its reduction is being discarded. -/
def fuseBusy (s : State) (p tag : Nat) : Bool :=
  match fuseAt s p tag with
  | some f => (f.upd.isSome && !f.discard) || (f.discard && f.red.isSome)
  | none => false

/-- An update that was refused at order 7 or 8: the feeding reduction's results are taken and discarded (10 R338). -/
def fuseRefused (s : State) (d p tag : Nat) : State :=
  if tag = 0 then s
  else match fuseAt s p tag with
    | some f => if f.upd.isSome then s else fusePut s { f with upd := some d, discard := true }
    | none => fusePut s { part := p, tag := tag, red := none, upd := some d, discard := true }

/-- Refuse an update at order 7 or 8 with its Cadence record. -/
def refuseUpdate (s : State) (d p : Nat) (b : Bytes) (status : Nat) : State :=
  let g := leAt b 16 2
  let pgd := pgdAt s p g
  let s := fuseRefused s d p (leAt b 28 4)
  pushCadence (completeDesc s d status 0) p g status (cadenceFlags pgd (leAt b 18 1) false) (leAt b 8 8) (pgdStep pgd)

/-- The record of an update that has passed its checks. -/
def updOf (s : State) (c p : Nat) (b : Bytes) : Upd × State :=
  let g := leAt b 16 2
  let pgd := pgdAt s p g
  let step := leAt b 8 8
  let phase := leAt b 18 1
  let f1 := freeN s
  let f2 := freeN f1.2
  let exact2 := pgdRule pgd == 2 && phase != 2
  ({ ctx := c, part := p, group := g, step := step, phase := phase, pgd := pgd, found := pgdStep pgd,
     c1 := biasCorr (pgdF pgd 12) step f1.1, c2 := biasCorr (pgdF pgd 16) step f2.1, lrScale := toW (leAt b 20 4),
     gradScale := toW (leAt b 24 4), fuse := leAt b 28 4, normAddr := leAt b 32 8, running := false, bound := false,
     pass := if exact2 then 0 else 1,
     r := toW (if pgdRule pgd = 3 then pgdF pgd 40 else 0x3F800000), sumW := 0, sumU := 0, tiles := [], issued := 0, doneT := 0,
     wOut := 0, wrote := false, normOk := phase != 2, failed := none, tail := [] }, f2.2)

/-- Elements of tile `t`. -/
def tileElems (u : Upd) (t : Nat) : Nat := min 1024 (pgdN u.pgd - 1024 * t)

/-- Replace an update. -/
def setUpd (s : State) (d : Nat) (u : Upd) : State := { s with upd := { s.upd with runs := tset s.upd.runs d u } }

/-- Read ahead: pages and gradients of up to four tiles (10 R341). -/
def pumpTiles : Nat → State → Nat → State
  | 0, s, _ => s
  | n + 1, s, d =>
    match tget s.upd.runs d with
    | none => s
    | some u =>
      if !u.running ∨ !u.normOk ∨ pgdSrc u.pgd = 1 ∨ pgdTiles u.pgd ≤ u.issued ∨ u.doneT + 4 ≤ u.issued then s
      else
        let t := u.issued
        let fmt := pgdGradFmt u.pgd
        let pasid := ((descAt s d).map (·.pasid)).getD 0
        let s := setUpd s d { u with
          issued := t + 1, tiles := tset u.tiles t { pages := [], grad := none, poisoned := false } }
        let s := readTile s d t
        pumpTiles n (pmReq s (.gradRead d t) false (leAt u.pgd 64 8 + fmtSize fmt (1024 * t)) (fmtSize fmt (tileElems u t)) [] []
          (some pasid)) d

/-- An update takes its place among the four that run, and begins (10 R330, R336, R341). -/
def runUpdate (s : State) (d : Nat) (u : Upd) : State :=
  let s := setUpd s d { u with running := true }
  let s := if u.fuse = 0 then s else match fuseAt s u.part u.fuse with
    | some f => fusePut s { f with upd := some d, discard := false }
    | none => fusePut s { part := u.part, tag := u.fuse, red := none, upd := some d, discard := false }
  if u.phase = 2 then
    pmReq s (.normRead d) false u.normAddr 8 [] [] (some (((descAt s d).map (·.pasid)).getD 0))
  else pumpTiles 4 s d

/-- Updates that run. -/
def updRunning (s : State) : Nat := tcount s.upd.runs (fun _ u => u.running)

/-- An update that has passed its checks may run now. -/
def canRun (s : State) (p tag : Nat) : Bool := decide (updRunning s < 4) && (tag == 0 || fuseFree s p tag)

/-- Start a WD_UPDATE (10 R330 to R332): none while it must wait in its queue, as one that is refused at order 7 or 8 does while no
binding is free to discard its gradient (R337, R338); one that has passed its checks holds its group meanwhile. -/
def startUpdate (s : State) (d c p : Nat) (b : Bytes) (acc : Access) : Option State :=
  match tget s.upd.runs d with
  | some u => if !u.running && canRun s u.part u.fuse then
      if u.fuse ≠ 0 ∧ fuseBusy s u.part u.fuse then some (failUpdate s d stBusy) else some (runUpdate s d u)
    else none
  | none =>
    match updCheck s p b acc with
    | some st =>
      let read := updForm b && decide (leAt b 16 2 < pgdGroups s)
      some (completeDesc (if read && acc == .err then ioEvent s 0x19 0 stInternal 0 p c (pgdAddr s p (leAt b 16 2)) else s) d st 0)
    | none =>
      let g := leAt b 16 2
      let pgd := pgdAt s p g
      let step := leAt b 8 8
      let tag := leAt b 28 4
      if tag ≠ 0 ∧ (pgdStep pgd + 1 ≠ step ∨ pgdFrozen pgd) ∧ !fuseFree s p tag then none
      else if pgdStep pgd + 1 ≠ step then
        let s := countEv (bump (setBits s 0x31010 1) 0x31024) 0x082 (some p) 1
        let s := { s with upd := { s.upd with skewGroup := g, skewPart := p } }
        some (refuseUpdate s d p b stStepSkew)
      else if pgdFrozen pgd then
        let s := if leAt b 18 1 = 1 then s else setPgd s p g (patch pgd 48 8 step)
        let s := fuseRefused (bump s 0x31028) d p tag
        let s := completeDesc s d stOkFrozen 0
        some (pushCadence s p g stOkFrozen (cadenceFlags pgd (leAt b 18 1) false) step (pgdStep pgd))
      else if tag ≠ 0 ∧ fuseBusy s p tag then
        some (pushCadence (completeDesc s d stBusy 0) p g stBusy (cadenceFlags pgd (leAt b 18 1) false) step (pgdStep pgd))
      else
        let u := updOf s c p b
        if canRun s p tag then some (runUpdate u.2 d u.1)
        else match descAt s d with
          | some x => some (setDesc (setUpd u.2 d u.1) d { x with checked := true, phase := .fetched })
          | none => none

/-! The rules, element by element (10 R333 to R335). -/

/-- What an element becomes: weight, moments, and the step u. -/
structure Elem where
  w : Nat
  m : Nat
  v : Nat
  u : Nat
  deriving DecidableEq, Repr

/-- Steps 1 and 2 of 10 R333 on a widened gradient. -/
def prepGrad (u : Upd) (g : Nat) : Nat :=
  let g := f32.mul g u.gradScale.toNat
  let g := if pgdNfZero u.pgd && !f32.finite g then 0 else g
  let clip := pgdF u.pgd 28
  if f32.isZero clip then g else f32.minOf (f32.maxOf g (f32.negate clip)) clip

/-- The gradient of an element is counted as not finite. -/
def gradBad (u : Upd) (g : Nat) : Bool := !f32.finite (f32.mul g u.gradScale.toNat)

/-- One element under its rule. -/
def elemStep (u : Upd) (w m v g0 : Nat) : Elem :=
  let b := u.pgd
  let lr := f32.mul (pgdF b 8) u.lrScale.toNat
  let g := prepGrad u g0
  if pgdRule b = 1 then
    let g := f32.add g (f32.mul (pgdF b 24) w)
    let m' := f32.add (f32.mul (pgdF b 12) m) g
    { w := f32.sub w (f32.mul lr m'), m := m', v := v, u := m' }
  else
    let one := 0x3F800000
    let m' := f32.add (f32.mul (pgdF b 12) m) (f32.mul (f32.sub one (pgdF b 12)) g)
    let v' := f32.add (f32.mul (pgdF b 16) v) (f32.mul (f32.mul (f32.sub one (pgdF b 16)) g) g)
    let st := f32.add (f32.div (f32.mul m' u.c1) (f32.add (f32.sqrt (f32.mul v' u.c2)) (pgdF b 20))) (f32.mul (pgdF b 24) w)
    let k := if pgdRule b = 0 then lr else f32.mul lr u.r.toNat
    { w := f32.sub w (f32.mul k st), m := m', v := v', u := st }

/-- Inputs of an element: weight, moments, widened gradient. -/
abbrev ElemIn := Nat × Nat × Nat × Nat

/-- The inputs of the elements of a tile that are not padding. -/
def tileIns (u : Upd) (t : Nat) (x : TileIn) : List ElemIn :=
  let n := tileElems u t
  let page := fun i => tgetD x.pages i []
  let w := unpack 0 n (padTo 4096 (page 0))
  let raw := fun i j => leAt (page i) (4 * j) 4
  let g := unpack (pgdGradFmt u.pgd) n (padTo (4 * n) (x.grad.getD []))
  (List.range n).map (fun j => (w.getD j 0, raw 1 j, raw 2 j, g.getD j 0))

/-- An element fails (10 R343): a new value is not finite although every input is, or the new v is negative. In the read
pass no new weight is formed. -/
def elemBad (u : Upd) (i : ElemIn) (o : Elem) : Bool :=
  let fin := f32.finite i.1 && f32.finite i.2.1 && (pgdRule u.pgd == 1 || f32.finite i.2.2.1) && f32.finite i.2.2.2
  (fin && ((u.pass != 0 && !f32.finite o.w) || !f32.finite o.m || (pgdRule u.pgd != 1 && !f32.finite o.v))) ||
  (pgdRule u.pgd != 1 && f32.lt o.v 0)

/-- An upset of the hardware changes one value of one element: its index is `k` modulo 1,024, and `k / 1024` chooses
weight or moment. -/
def upsetElem (l : List Elem) (base : Nat) (x : Option (Nat × Nat)) : List Elem :=
  match x with
  | none => l
  | some (k, bits) =>
    let e := k % 1024
    let b := bits % 2 ^ 32
    if e < base ∨ base + l.length ≤ e then l
    else l.zipIdx.map (fun y => if y.2 + base = e then
        match k / 1024 % 3 with
        | 0 => { y.1 with w := y.1.w ^^^ b }
        | 1 => { y.1 with m := y.1.m ^^^ b }
        | _ => { y.1 with v := y.1.v ^^^ b }
      else y.1)

/-- What the slices of a tile give. -/
inductive TileRes where
  | ok (l : List Elem) (replays : Nat)
  | bad (agree : Bool) (replays : Nat)

/-- Run slices of 128 elements in order, each again when it fails (10 R343). -/
def runSlices (u : Upd) : Nat → List ElemIn → Nat → Option (Nat × Nat) → Option (Nat × Nat) → List Elem → Nat → TileRes
  | 0, _, _, _, _, acc, n => .ok acc n
  | k + 1, ins, base, u1, u2, acc, n =>
    if ins.isEmpty then .ok acc n
    else
      let i := ins.take 128
      let r0 := i.map (fun x => elemStep u x.1 x.2.1 x.2.2.1 x.2.2.2)
      let bad := fun (r : List Elem) => (i.zip r).any (fun z => elemBad u z.1 z.2)
      let r1 := upsetElem r0 base u1
      if !bad r1 then runSlices u k (ins.drop 128) (base + 128) u1 u2 (acc ++ r1) n
      else
        let r2 := upsetElem r0 base u2
        if bad r2 then .bad (r1 == r2) (n + 1)
        else runSlices u k (ins.drop 128) (base + 128) u1 u2 (acc ++ r2) (n + 1)

/-- A sum of squares goes on, in binary64. -/
def addSquares (sum : Nat) (xs : List Nat) : Nat :=
  xs.foldl (fun a x => let y := f32.cvt f64 x
    f64.add a (f64.mul y y)) sum

/-- The trust ratio from two sums of squares in FP32, clamped (10 R335). DEDUCED (log 15): the sums are rounded to FP32 and
the roots and the quotient are FP32 operations. -/
def trustRatio (b : Bytes) (sw su : Nat) : Nat :=
  let nw := f32.sqrt sw
  let nu := f32.sqrt su
  let r := if f32.isZero nw || f32.isZero nu then 0x3F800000 else f32.div nw nu
  f32.minOf (f32.maxOf r (pgdF b 32)) (pgdF b 36)

/-! Writing a tile (10 R328, R339, R341). -/

/-- One page of new values: padding is written as +0. -/
def pageBytes (l : List Nat) : Bytes := padTo 4096 (l.flatMap (leBytes 4))

/-- Write the pages of a tile. -/
def writePages (s : State) (d t : Nat) (l : List Elem) : State :=
  match tget s.upd.runs d with
  | none => s
  | some u =>
    let pages := [(0, l.map (·.w)), (1, l.map (·.m))] ++ (if pgdRule u.pgd = 1 then [] else [(2, l.map (·.v))])
    let s := setUpd s d { u with wOut := u.wOut + pages.length, wrote := true }
    pages.foldl (fun s x =>
      let o := takeOrd s
      memSubmit o.2 { who := .tile d t x.1, kid := pgdKid u.pgd, line := (leAt u.pgd 56 8 + 12288 * t + 4096 * x.1) / 64,
                      lines := 64, write := true, atomic := none, data := pageBytes x.2, mask := [], epoch := 0,
                      phase := .waiting, status := stOk, poison := 0, parts := [], ctx := u.ctx, fepoch := 0, cover := false,
                      ord := o.1 } true) s

/-- The copy of a tile's new weights (10 R339). -/
def writeCopy (s : State) (d t : Nat) (l : List Elem) : State :=
  match tget s.upd.runs d with
  | none => s
  | some u =>
    let fmt := pgdCopyFmt u.pgd
    let b := pack fmt true ((l.map (fun e => (e.w, none))) ++ List.replicate (copyElems fmt l.length - l.length) (0, none))
    let off := leAt u.pgd 72 8 + fmtSize fmt (1024 * t)
    if pgdCopy u.pgd = 0 then s
    else if pgdCopy u.pgd = 1 then
      pmReq (setUpd s d { u with wOut := u.wOut + 1 }) (.copyWrite d) true off b.length b []
        (some (((descAt s d).map (·.pasid)).getD 0))
    else match regionAt s (pgdCopyKid u.pgd) with
      | none => setUpd s d { u with failed := some (u.failed.getD stStaleHandle) }
      | some r =>
        if 0xFFFFFFFF ≤ r.epoch then setUpd s d { u with failed := some (u.failed.getD stEpochExhausted) }
        else
          let all := u.tail ++ b
          let last := decide (pgdTiles u.pgd ≤ t + 1)
          let n := if last then ceilDiv all.length 64 else all.length / 64
          let start := off - u.tail.length
          let s := setUpd s d { u with tail := if last then [] else all.drop (64 * n), wOut := u.wOut + b2n (n != 0) }
          if n = 0 then s
          else
            let o := takeOrd s
            memSubmit o.2 { who := .copyLine d, kid := pgdCopyKid u.pgd, line := start / 64, lines := n, write := true,
                            atomic := none, data := padTo (64 * n) (all.take (64 * n)), mask := [], epoch := r.epoch + 1,
                            phase := .waiting, status := stOk, poison := 0, parts := [], ctx := u.ctx, fepoch := 0,
                            cover := false, ord := o.1 } false

/-- The end of the read pass: the ratio, and the second pass; or, in PHASE 1, the norm pair (10 R335, R336). -/
def endReadPass (s : State) (d : Nat) (u : Upd) : State :=
  let sw := f64.cvt f32 u.sumW
  let su := f64.cvt f32 u.sumU
  if u.phase = 1 then
    pmReq (setUpd s d { u with wOut := u.wOut + 1 }) (.normWrite d) true u.normAddr 8 (leBytes 4 sw ++ leBytes 4 su) []
      (some (((descAt s d).map (·.pasid)).getD 0))
  else
    pumpTiles 4 (setUpd s d { u with pass := 1, r := toW (trustRatio u.pgd sw su), tiles := [], issued := 0, doneT := 0 }) d

/-- A tile's inputs have all arrived. -/
def tileReady (u : Upd) (x : TileIn) : Bool :=
  x.grad.isSome && (tget x.pages 0).isSome && (tget x.pages 1).isSome && (pgdRule u.pgd == 1 || (tget x.pages 2).isSome)

/-- The next tile of a running update: checked slice by slice, then written (10 R341, R343). -/
def doTile (s : State) (d : Nat) (u1 u2 : Option (Nat × Nat)) : State :=
  match tget s.upd.runs d with
  | none => s
  | some u =>
    let t := u.doneT
    match tget u.tiles t with
    | none => s
    | some x =>
      if !u.running ∨ !tileReady u x then s
      else if x.poisoned then failUpdate s d stPoisoned
      else
        let ins := tileIns u t x
        let nf := ins.countP (fun i => gradBad u i.2.2.2)
        let s := if nf = 0 then s else setBits (bumpBy s 0x31030 nf) 0x31010 0x20
        let replayed := fun (s : State) (n : Nat) => if n = 0 then s else bumpBy s 0x3102C n
        match runSlices u 8 ins 0 u1 u2 [] 0 with
        | .bad agree n =>
          let s := failUpdate (setBits (replayed (if 1 < n then setBits s 0x31010 4 else s) n) 0x31010 8) d stPlausibility
          if agree then occur s (mkRec 0x10 0x19 0 0 stPlausibility 0x80 0 u.ctx u.part 0) none
          else askReset (occur s (mkRec 0x05 0x19 0 0 stPlausibility 0 0 u.ctx u.part 0) none) 1 0x19 0xFF 0x05 false
        | .ok l n =>
          let s := replayed (if n = 0 then s else setBits s 0x31010 4) n
          let lamb := decide (2 ≤ pgdRule u.pgd) && (u.pass == 0 || pgdRule u.pgd == 3)
          let u := { u with
            doneT := t + 1, tiles := tdel u.tiles t
            sumW := if lamb then addSquares u.sumW (ins.map (·.1)) else u.sumW
            sumU := if lamb then addSquares u.sumU (l.map (·.u)) else u.sumU }
          let s := setUpd s d u
          if u.pass = 0 then if pgdTiles u.pgd ≤ t + 1 then endReadPass s d u else pumpTiles 4 s d
          else
            let s := if t = 0 then fireDump s d 2 u.part else s
            let s := writeCopy (writePages s d t l) d t l
            let s := dumpValues s d (l.map (·.w)) (decide (pgdTiles u.pgd ≤ t + 1))
            pumpTiles 4 (countEv s 0x080 (some u.part) 1) d

/-! Answers (10 R336, R337, R340). -/

/-- The gradient of a tile has come. -/
def gradArrive (s : State) (d t : Nat) (err : Bool) (poison : Nat) (data : Bytes) : State :=
  match tget s.upd.runs d with
  | none => s
  | some u =>
    if err then failUpdate (ioEvent s 0x19 0 stInternal 0 u.part u.ctx (leAt u.pgd 64 8 + fmtSize (pgdGradFmt u.pgd) (1024 * t))) d stInternal
    else setUpd s d { u with tiles := tmod u.tiles t (fun x => { x with grad := some data, poisoned := x.poisoned || poison != 0 }) }

/-- The summed norm pair of PHASE 2 has come. -/
def normArrive (s : State) (d : Nat) (err : Bool) (poison : Nat) (data : Bytes) : State :=
  match tget s.upd.runs d with
  | none => s
  | some u =>
    let sw := leAt data 0 4
    let su := leAt data 4 4
    if err then failUpdate (ioEvent s 0x19 0 stInternal 0 u.part u.ctx u.normAddr) d stInternal
    else if poison ≠ 0 then failUpdate s d stPoisoned
    else if !nonNeg sw || !nonNeg su then failUpdate (setBits s 0x31010 8) d stPlausibility
    else pumpTiles 4 (setUpd s d { u with normOk := true, r := toW (trustRatio u.pgd sw su) }) d

/-- A write of an update to package memory has been answered. -/
def updWritten (s : State) (d : Nat) (err : Bool) (addr : Nat) : State :=
  match tget s.upd.runs d with
  | none => s
  | some u =>
    if err then failUpdate (ioEvent s 0x19 0 stInternal 0 u.part u.ctx addr) d stInternal
    else setUpd s d { u with wOut := u.wOut - 1 }

/-! Completion (10 R341). -/

/-- Every tile is done and every write acknowledged. -/
def updOver (s : State) (d : Nat) (u : Upd) : Bool :=
  u.running && u.normOk && decide (pgdTiles u.pgd ≤ u.doneT) && u.wOut == 0 && u.failed.isNone && dumpQuiet s d &&
  (u.pass == 1 || u.phase == 1)

/-- The PGD an update leaves: STEP, and TRUST_PREV for LAMB_LAGGED. -/
def pgdAfter (u : Upd) : Bytes :=
  let b := patch u.pgd 48 8 u.step
  if pgdRule b = 3 then patch b 40 4 (trustRatio b (f64.cvt f32 u.sumW) (f64.cvt f32 u.sumU)) else b

/-- An update completes with ST_OK: the PGD, its record, and after that its Cadence record. -/
def endUpdate (s : State) (d : Nat) : State :=
  match tget s.upd.runs d with
  | none => s
  | some u =>
    if !updOver s d u then s
    else
      let s := if u.phase = 1 then s else setPgd s u.part u.group (pgdAfter u)
      let s := countEv (bump s 0x31020) 0x081 (some u.part) 1
      let s := unfuseUpd s d
      let s := { s with
        upd := { s.upd with runs := tdel s.upd.runs d }
        dbg := { s.dbg with dumps := tdel s.dbg.dumps d } }
      let s := completeDesc s d stOk 0
      let c := cadenceRec s u.part u.group stOk (cadenceFlags u.pgd u.phase false) u.step u.found
      { s with upd := { s.upd with cadDue := tset s.upd.cadDue d c } }

/-! Bindings (10 R337). -/

/-- The binding a descriptor has a part in. -/
def fuseOf (s : State) (d : Nat) : Option Fuse := s.upd.fuses.find? (fun f => f.red == some d || f.upd == some d)

/-- Both descriptors of a binding have armed: they bind, or both fail when their lengths differ. -/
def fuseBind (s : State) (d : Nat) : State :=
  match fuseOf s d with
  | none => s
  | some f => match f.red.bind (tget s.red.stages), f.upd.bind (tget s.upd.runs) with
    | some g, some u =>
      if f.discard ∨ u.bound then s
      else if g.elements ≠ pgdN u.pgd then failStage s (f.red.getD 0) stBadParam
      else setUpd s (f.upd.getD 0) { u with bound := true }
    | _, _ => s

/-- The wait of one of the pair is over: it ends with ST_TIMEOUT; 0 disables the timer. -/
def fuseTimeout (s : State) (d : Nat) : State :=
  match fuseOf s d with
  | none => s
  | some f =>
    if fld (reg s 0x30000) 23 0 = 0 then s
    else if f.red = some d ∧ f.upd.isNone ∧ !f.discard then failStage (setBits s 0x30004 0x20) d stTimeout
    else if f.upd = some d ∧ f.red.isNone then
      if f.discard then { s with upd := { s.upd with fuses := s.upd.fuses.filter (fun g => g.upd != some d) } }
      else if ((tget s.upd.runs d).map (·.bound)).getD true then s
      else failUpdate s d stTimeout
    else s

/-! Cadence (10 R345). -/

/-- Send up to 123 queued records, or drop all when there is nobody to send them to. -/
def cadenceFlush (s : State) : State :=
  let m := match s.dom.policy with
    | some q => q.manager
    | none => 0xFFFF
  let n := s.upd.cadence.length
  if n = 0 then s
  else if !isMember s || m == 0xFFFF then
    bumpBy (setBits { s with upd := { s.upd with cadence := [] } } 0x31010 0x10) 0x31038 n
  else
    let l := s.upd.cadence.take 123
    let s := { s with upd := { s.upd with cadence := s.upd.cadence.drop 123 } }
    bumpBy (pushMgmt s m (mgmtHeader s 0x10 s.dom.gen ++ leBytes 2 l.length ++ [0, 0] ++ l.flatMap id) .own) 0x31034 l.length

/-! The commands. -/

/-- FUSE_BIND (10 R337). -/
def execFuseBind (desc : Nat) (s : State) : Host.Outcome State Fault Refusal := runEng (fun s => fuseBind s desc) s

/-- FUSE_BIND_TIMEOUT (10 R337). -/
def execFuseBindTimeout (desc : Nat) (s : State) : Host.Outcome State Fault Refusal := runEng (fun s => fuseTimeout s desc) s

/-- UPDATE_TILE (10 R341, R343). -/
def execUpdateTile (desc : Nat) (u1 u2 : Option (Nat × Nat)) (s : State) : Host.Outcome State Fault Refusal :=
  runEng (fun s => when_ (clkRuns s) (fun s => doTile s desc u1 u2) s) s

/-- UPDATE_COMPLETE (10 R341). -/
def execUpdateComplete (desc : Nat) (s : State) : Host.Outcome State Fault Refusal := runEng (fun s => endUpdate s desc) s

/-- CADENCE_FLUSH (10 R345). -/
def execCadenceFlush (s : State) : Host.Outcome State Fault Refusal := runEng cadenceFlush s

end Sys2Proof.Machine
end

