-- ==== Sys2Proof/Machine/Dispatcher.lean ====
section
/-! DEFINITION. The dispatcher: which descriptor may start, the checks of its header, fields, handles and scope, and the
start of each opcode; copies, signals, waits, fences, publishes, marks and aborts (11 R360 to R367; 07 R242 to R248;
08 R283 to R285; 13 R437). -/

namespace Sys2Proof.Machine

/-! What may start (11 R353, R360). -/

/-- The dispatcher starts descriptors (02 R66, 13 R443). -/
def dispatchUp (s : State) : Bool := dispatchOpen s

/-- An earlier descriptor of the same queue that meets a test. -/
def earlier (s : State) (d : Nat) (x : Desc) (p : Desc → Bool) : Bool :=
  s.parts.desc.any (fun y => decide (y.1 < d) && y.2.ctx == x.ctx && y.2.queue == x.queue && p y.2)

/-- A descriptor is at the head of a queue of a resident context of a partition that takes work, and nothing before it
holds it back. -/
def startable (s : State) (d : Nat) (x : Desc) : Bool :=
  x.phase == .fetched &&
  (match ctxAt s x.ctx with
   | some c => c.slot.isSome && !c.faulted && !c.stopped && !partStill (partAt s c.part)
   | none => false) &&
  !earlier s d x (fun y => y.phase == .fetched || (y.opcode == 8 && y.phase == .running)) &&
  (!x.ordered || !earlier s d x (fun y => y.phase != .done && y.phase != .recorded))

/-! The checks before an opcode's own (11 R362 to R366). -/

/-- Bytes of a descriptor that carry its fields, from byte 8 on. -/
def fieldSpans (op : Nat) : List (Nat × Nat) :=
  match op with
  | 1 => [(8, 38), (40, 46)]
  | 4 => [(8, 12)]
  | 5 => [(8, 16)]
  | 6 => [(8, 9), (10, 12)]
  | 7 => [(8, 11), (16, 22), (24, 32)]
  | 8 => [(16, 22), (24, 36)]
  | 9 => [(8, 12), (16, 24)]
  | 10 => [(8, 9), (12, 20)]
  | _ => [(8, 64)]

/-- Every byte that carries no field is zero. -/
def spansZero (op : Nat) (b : Bytes) : Bool :=
  (List.range 64).all (fun i => decide (i < 8) || (fieldSpans op).any (fun r => decide (r.1 ≤ i) && decide (i < r.2)) ||
    leAt b i 1 == 0)

/-- Order 2: the header's zero fields. -/
def headOk (op : Nat) (b : Bytes) : Bool :=
  leAt b 1 1 / 8 == 0 && leAt b 2 2 == 0 && (leAt b 1 1 / 4 % 2 == 0 || op == 6 || op == 7)

/-- Order 3: the fields of 11 R366. -/
def formOk (op : Nat) (b : Bytes) : Bool :=
  spansZero op b &&
  match op with
  | 1 => leAt b 8 8 % 128 == 0 && leAt b 16 8 % 128 == 0 && leAt b 24 8 % 128 == 0 && decide (128 ≤ leAt b 24 8) &&
         decide (1 ≤ leAt b 36 1) && decide (leAt b 36 1 ≤ 30) && decide (leAt b 37 1 ≤ 1) && leAt b 40 6 % 8 == 0
  | 6 => decide (leAt b 8 1 ≤ 2) && (leAt b 8 1 == 1 || leAt b 10 2 == 0)
  | 7 => leAt b 10 1 != 0xFF && leAt b 16 6 % 8 == 0
  | 8 => leAt b 16 6 % 8 == 0
  | 10 => decide (leAt b 12 4 < 2 ^ 20)
  | _ => true

/-- A live region a handle names (11 R365). -/
def handleRegion (s : State) (h : Nat) : Option Region :=
  match regionAt s (h % 4096) with
  | some r => if !r.invalid && r.gen0 % 2 ^ 20 == h / 4096 then some r else none
  | none => none

/-- The handle an opcode carries. -/
def handleOf (op : Nat) (b : Bytes) : Option Nat :=
  match op with
  | 1 => if leAt b 32 4 = 0 then none else some (leAt b 32 4)
  | 4 | 5 => some (leAt b 8 4)
  | _ => none

/-- This block's vertex, or another committed member's. -/
def inDomain (s : State) (v : Nat) : Bool := ownVertex s v || otherMember s v

/-- Order 5: key IDs, offsets and vertices lie in the partition's grant, windows and domain. -/
def scopeOk (s : State) (p op : Nat) (b : Bytes) (r : Option Region) : Bool :=
  let t := partAt s p
  match op with
  | 1 =>
    let v := leAt b 16 8 / 2 ^ 48
    let off := leAt b 16 8 % 2 ^ 48
    let len := leAt b 24 8
    (leAt b 37 1 == 0 || decide (leAt b 40 6 + 8 ≤ t.fwinPages * 4096)) &&
    match r with
    | none => inDomain s v && decide (off + len ≤ t.fwinPages * 4096)
    | some r => r.part == p && v == rVertex r && decide (rData r ≤ off) && decide (off + len ≤ rData r + r.size) &&
        (r.kind != 2 || r.authority)
  | 4 | 5 => match r with
    | some r => r.part == p
    | none => false
  | 6 => leAt b 8 1 != 1 || inDomain s (leAt b 10 2)
  | 7 =>
    let off := leAt b 16 6
    let n := if leAt b 1 1 / 4 % 2 = 1 then 16 else 8
    inDomain s (leAt b 8 2) && decide (t.owinBase * 4096 ≤ off) && decide (off + n ≤ (t.owinBase + t.owinPages) * 4096)
  | 8 => decide (leAt b 16 6 + 8 ≤ t.fwinPages * 4096)
  | _ => true

/-- The first of the common checks that fails (11 R364). -/
def headCheck (s : State) (p op : Nat) (b : Bytes) : Option Nat :=
  if op = 0 ∨ 10 < op then some stBadOpcode
  else if !headOk op b then some stBadParam
  else if !formOk op b then some stBadParam
  else
    let r := (handleOf op b).map (handleRegion s)
    if r = some none then some stStaleHandle
    else if !scopeOk s p op b (r.bind id) then some stNotPermitted
    else none

/-! Copies (07 R242 to R244). -/

/-- Start a copy on the lowest free engine; none while all 32 work. -/
def startCopy (s : State) (d : Nat) (b : Bytes) : Option State :=
  match lowestFrom (fun e => (tget s.fab.copies e).isNone) 32 0 with
  | none => none
  | some e =>
    let h := leAt b 32 4
    let r := regionAt s (h % 4096)
    let v := match r with
      | some r => if h = 0 then leAt b 16 8 / 2 ^ 48 else if r.kind = 1 then r.home else s.dom.vertex.getD 0
      | none => leAt b 16 8 / 2 ^ 48
    let c : Copy := { desc := d, src := leAt b 8 8, dst := leAt b 16 8 % 2 ^ 48, vertex := v, len := leAt b 24 8,
                      beats := leAt b 36 1, kid := h % 4096, serial := (r.map (·.serial)).getD 0, arrival := leAt b 40 6, arrivalEn := leAt b 37 1 == 1, next := 0,
                      out := 0, bad := none, poisoned := false, okN := 0, ready := [], squash := false }
    some (pumpCopy 512 { s with fab := { s.fab with copies := tset s.fab.copies e c } } e)

/-- The source of a chunk has come (12 R390): with an error the chunk fails; with poison nothing more of the copy is
sent. -/
def copyArrive (s : State) (e i : Nat) (err : Bool) (poison : Nat) (data : Bytes) : State :=
  match tget s.fab.copies e with
  | none => s
  | some c =>
    let x := ((descAt s c.desc).map (·.ctx)).getD 0
    if err then chunkDone (ioEvent s 0x1A 0 stInternal 0 ((ctxPart s x).getD 0) x (c.src + i * c.beats * 128)) e i stInternal
    else if poison ≠ 0 ∨ c.poisoned then
      let c := { c with poisoned := true, out := c.out - 1 - c.ready.length, ready := [] }
      finishCopy { s with fab := { s.fab with copies := tset s.fab.copies e c } } e
    else { s with fab := { s.fab with copies := tset s.fab.copies e { c with ready := tset c.ready i data } } }

/-- The region that a copy's handle named is gone, or on its way out (01 R21). -/
def chunkStale (s : State) (c : Copy) : Bool :=
  c.kid != 0 && !(regionAt s c.kid).any (fun r => !r.invalid && r.serial == c.serial)

/-- Send the lowest chunk whose data is there: to its home, or applied here (07 R217, R242, R243; 08 R282). The writer of a
SHARED_READ region is the home of a chunk that goes there. DEDUCED (log 55). -/
def sendChunk (s : State) (e : Nat) : State :=
  match tget s.fab.copies e with
  | none => s
  | some c =>
    match c.ready, descAt s c.desc with
    | (i, data) :: rest, some x =>
      let s := { s with fab := { s.fab with copies := tset s.fab.copies e { c with ready := rest } } }
      let part := (ctxPart s x.ctx).getD 0
      let ep := epochOf s x.ctx
      let off := c.dst + i * c.beats * 128
      let beats := data.length / 128
      let q : HReq := { who := .chunk e i, owner := part + 1, kind := kCopy, aop := 0, addr := off, len := data.length,
                        data := data, mask := [], operand := [], kid := c.kid,
                        arrival := if c.arrivalEn then some c.arrival else none, ctx := x.ctx, fepoch := ep, cover := true,
                        tc := if c.kid = 0 then 0 else 4, opn := false }
      let shared := if c.kid = 0 then none else (regionAt s c.kid).filter (fun r => r.kind == 2)
      if chunkStale s c then chunkDone s e i stStaleHandle
      else match shared with
      | some r =>
        let o := takeOrd s
        if 0xFFFFFFFF ≤ r.epoch then chunkDone s e i stEpochExhausted
        else
          let w := if c.arrivalEn then (Who.part s.fab.nextHome, pushPhase5 o.2 q 1 o.1) else (.chunk e i, o.2)
          memSubmit w.2 { who := w.1, kid := c.kid, line := (off - rData r) / 64, lines := 2 * beats, write := true,
                          atomic := none, data := data, mask := [], epoch := r.epoch + 1, phase := .waiting, status := stOk,
                          poison := 0, parts := [], ctx := x.ctx, fepoch := ep, cover := true, ord := o.1 } false
      | none =>
        if ownVertex s c.vertex then applyReq s q
        else
          let last := decide (copyChunks c ≤ i + 1)
          let ext := leBytes 6 c.arrival ++ leBytes 1 (b2n c.arrivalEn) ++ [0] ++ leBytes 4 i ++ [0, 0, 0, 0]
          pushTx s { TxFrame.blank with
            dst := c.vertex, owner := part + 1, tc := if c.kid = 0 then 2 else 4, sub := if c.kid = 0 then e else 0, op := opReq,
            payload := reqHeader kCopy 0 beats false last c.kid off ++ ext ++ data, origin := .copy e i, ctx := x.ctx,
            fepoch := ep, cover := true }
    | _, _ => s

/-! Signals (07 R246, 11 R370). -/

/-- An open 64-bit ADD of a descriptor. -/
def sendSignal (s : State) (d part ctx v sub off value : Nat) : State :=
  let ep := epochOf s ctx
  if ownVertex s v then
    applyReq s { who := .signal d, owner := part + 1, kind := kAtomic, aop := 9, addr := off, len := 8, data := [], mask := [],
                 operand := leBytes 8 value ++ List.replicate 8 0, kid := 0, arrival := none, ctx := ctx, fepoch := ep,
                 cover := true, tc := 0, opn := true }
  else pushTx s { TxFrame.blank with
    dst := v, owner := part + 1, tc := 3, sub := sub, cclass := 1, op := opReq, addr := off, aop := 9, operand := value,
    payload := reqHeader kAtomic 9 1 false true 0 off, origin := .signal d, ctx := ctx, fepoch := ep, cover := true }

/-! Waits (07 R245). -/

/-- What a read of a wait's counter gave. A failed or poisoned read ends a wait whose time is over with ST_TIMEOUT and RESULT 0
(log 55). -/
def waitAnswer (s : State) (d : Nat) (acc : Access) (value addr : Nat) : State :=
  match s.fab.waits.find? (fun w => w.desc == d) with
  | none => s
  | some w =>
    let end_ := fun (s : State) (st : Nat) =>
      completeDesc { s with fab := { s.fab with waits := s.fab.waits.filter (fun w => w.desc != d) } } d
        (if w.expired then stTimeout else st) 0
    match acc with
    | .err => end_ (ioEvent s 0xFF 0 stInternal 0 w.part (((descAt s d).map (·.ctx)).getD 0) addr) stInternal
    | .poison => end_ s stPoisoned
    | .ok => waitSees s d (value % 2 ^ 64)

/-- A wait's poll: its counter is read. -/
def pollWait (s : State) (d : Nat) (acc : Access) (value : Nat) : State :=
  match s.fab.waits.find? (fun w => w.desc == d) with
  | none => s
  | some w =>
    let r := partAt s w.part
    waitAnswer (emitMreq s false (r.fwinBase + w.addr) 8 [] [] (some (lowestPasid r))) d acc value (r.fwinBase + w.addr)

/-- A wait's time is over: its counter is read once more, for RESULT is its value at completion (11 R366). -/
def timeoutWait (s : State) (d : Nat) : State :=
  match s.fab.waits.find? (fun w => w.desc == d && w.until_.isSome && !w.expired) with
  | none => s
  | some w => readWait { s with fab := { s.fab with
      waits := s.fab.waits.map (fun w => if w.desc = d then { w with expired := true } else w) } } w

/-! Fences (07 R247, R248; 11 R355). -/

/-- The contexts whose epoch a fence of a context closes: its own, and its PASID's core context. -/
def fenceCtxs (s : State) (c pasid : Nat) : List Nat :=
  match coreCtx s pasid with
  | some k => if k = c then [c] else [c, k]
  | none => [c]

/-- Start a fence; none while a context it closes has 15 pending. -/
def startFence (s : State) (d c pasid : Nat) (b : Bytes) : Option State :=
  let cs := fenceCtxs s c pasid
  if cs.any (fun k => decide (15 ≤ s.fab.fences.countP (fun f => f.ctx == k))) then none
  else
    some (cs.foldl (fun s k =>
      let e := epochOf s k
      let f : Fence := { desc := d, ctx := k, epoch := e, scope := leAt b 8 1, vertex := leAt b 10 2 }
      { s with fab := { s.fab with fences := s.fab.fences ++ [f], epochs := tset s.fab.epochs k (e + 1) } }) s)

/-! Publish and invalidate (08 R283 to R285). -/

/-- Outstanding operations of a region on an epoch. -/
def opsOn (s : State) (kid epoch : Nat) (write : Bool) : List Nat :=
  (s.mem.ops.filter (fun p => p.2.kid == kid && p.2.write == write && p.2.epoch == epoch)).map (·.1)

/-- WD_PUBLISH. -/
def startPublish (s : State) (d : Nat) (b : Bytes) : State :=
  let kid := leAt b 8 2 % 4096
  match regionAt s kid with
  | none => completeDesc s d stStaleHandle 0
  | some r =>
    if r.kind ≠ 2 then completeDesc s d stBadParam r.epoch
    else if !r.authority then completeDesc s d stNotPermitted r.epoch
    else if 0xFFFFFFFF ≤ r.epoch then completeDesc s d stEpochExhausted r.epoch
    else { s with mem := { s.mem with drains := s.mem.drains ++
      [{ desc := d, kid := kid, publish := true, target := 0, ops := opsOn s kid (r.epoch + 1) true, status := stOk }] } }

/-- WD_INVALIDATE. -/
def startInvalidate (s : State) (d : Nat) (b : Bytes) : State :=
  let kid := leAt b 8 2 % 4096
  let e := leAt b 12 4
  match regionAt s kid with
  | none => completeDesc s d stStaleHandle 0
  | some r =>
    if r.kind ≠ 2 ∨ (r.authority ∧ e ≠ r.epoch) ∨ e < r.epoch then completeDesc s d stBadParam r.epoch
    else if e = r.epoch then completeDesc s d stOk r.epoch
    else
      let ops := opsOn s kid r.epoch false
      let s := setRegion s kid { r with epoch := e }
      { s with mem := { s.mem with drains := s.mem.drains ++
        [{ desc := d, kid := kid, publish := false, target := e, ops := ops, status := stOk }] } }

/-! Abort (11 R367). -/

/-- WD_ABORT against the descriptor most recently fetched from an index of a queue of its context. -/
def startAbort (s : State) (d c : Nat) (b : Bytes) : State :=
  let q := leAt b 8 1
  let i := leAt b 12 4
  let hits := s.parts.desc.filter (fun y => y.2.ctx == c && y.2.queue == q && y.2.index == i)
  match hits.getLast? with
  | none => completeDesc s d stBadParam 0
  | some (t, y) =>
    if y.user ≠ leAt b 16 4 ∨ y.opcode = 10 then completeDesc s d stBadParam 0
    else match y.phase with
      | .fetched => completeDesc (squashDesc s t stAborted) d stOk 0
      | .running => completeDesc (squashDesc s t stAborted) d stOk 0
      | _ => completeDesc s d stAbortTooLate 0

/-! Starting (11 R360; 13 R426). -/

/-- MODE 1 counters take their snapshot at the start of a command (13 R426); none while frozen (13 R430). -/
def startSnap (s : State) (part : Nat) : State :=
  if s.aon.frozen then s
  else { s with dbg := { s.dbg with cnt := tmapV s.dbg.cnt (fun _ c =>
    if c.enable ∧ c.mode = 1 ∧ (!c.filter ∨ c.part = part) then { c with snap := c.val, val := 0 } else c) } }

/-- A mark names the next reduction or update of its queue (13 R437). -/
def takeMark (s : State) (d : Nat) (x : Desc) : State :=
  if x.opcode = 9 then s
  else
    let k := x.ctx * 256 + x.queue
    let m := tget s.parts.marks k
    let s := { s with parts := { s.parts with marks := tdel s.parts.marks k } }
    if x.opcode = 2 ∨ x.opcode = 3 then match descAt s d with
      | some y => setDesc s d { y with mark := m }
      | none => s
    else s

/-- Start a descriptor: none when it must wait at its queue's head. `acc` answers the read of a PGD. -/
def tryStart (s : State) (d : Nat) (acc : Access) : Option State :=
  match descAt s d with
  | none => none
  | some x =>
    let p := (ctxPart s x.ctx).getD 0
    let b := x.raw
    let go := fun (_ : Unit) =>
      takeMark (setDesc (countEv (startSnap s p) 0x090 (some p) 1) d { x with phase := .running, checked := true }) d x
    if x.checked then startUpdate (setDesc s d { x with phase := .running }) d x.ctx p b acc
    else
      let s := go ()
      match headCheck s p x.opcode b with
      | some st => some (completeDesc s d st (resultNow s d x))
      | none =>
        match x.opcode with
        | 1 => startCopy s d b
        | 2 => startReduce s d x.ctx p b
        | 3 => startUpdate s d x.ctx p b acc
        | 4 => some (startPublish s d b)
        | 5 => some (startInvalidate s d b)
        | 6 => startFence s d x.ctx x.pasid b
        | 7 =>
          if subTaken s p (leAt b 8 2) (leAt b 10 1) then some (completeDesc s d stBusy 0)
          else some (sendSignal s d p x.ctx (leAt b 8 2) (leAt b 10 1) (leAt b 16 6) (leAt b 24 8))
        | 8 =>
          if 4096 ≤ s.fab.waits.length then none
          else
            let t := leAt b 32 4
            let w : Wait := { desc := d, part := p, addr := leAt b 16 6, threshold := leAt b 24 8,
                              until_ := if t = 0 then none else some (s.aon.ts + 1000 * t), expired := false }
            some (readWait { s with fab := { s.fab with waits := s.fab.waits ++ [w] } } w)
        | 9 =>
          let k := x.ctx * 256 + x.queue
          some (completeDesc { s with parts := { s.parts with
            marks := tset s.parts.marks k (leAt b 8 4, leAt b 16 8) } } d stOk 0)
        | _ => some (startAbort s d x.ctx b)

/-! Whose turn it is (11 R360). -/

/-- A queue head that may be tried: its partition, slot, queue, priority and descriptor. -/
structure Cand where
  part : Nat
  slot : Nat
  queue : Nat
  prio : Nat
  desc : Nat
  deriving DecidableEq, Repr

/-- The heads that may be tried. -/
def candidates (s : State) : List Cand :=
  s.parts.desc.filterMap (fun y =>
    if startable s y.1 y.2 then match ctxAt s y.2.ctx with
      | some c => c.slot.map (fun sl => { part := c.part, slot := sl, queue := y.2.queue,
                                          prio := (queueAt c y.2.queue).prio, desc := y.1 })
      | none => none
    else none)

/-- The turn of a head: partitions round-robin, then slots round-robin, then the higher priority, then queues
round-robin. Smaller goes first. -/
def candRank (s : State) (c : Cand) : Nat :=
  let p := (c.part + 16 - 1 - s.parts.rrPart) % 16
  let sl := (c.slot + 64 - 1 - tgetD s.parts.rrSlot c.part 63) % 64
  let q := (c.queue + 256 - 1 - tgetD s.parts.rrQueue (4 * c.slot + c.prio % 4) 255) % 256
  ((p * 64 + sl) * 4 + (3 - c.prio % 4)) * 256 + q

/-- A head takes the turn. -/
def tookTurn (s : State) (c : Cand) : State :=
  { s with parts := { s.parts with
      rrPart := c.part, rrSlot := tset s.parts.rrSlot c.part c.slot
      rrQueue := tset s.parts.rrQueue (4 * c.slot + c.prio % 4) c.queue } }

/-- Try heads in turn: the first that starts, and the state in which it has taken the turn. -/
def firstStart (s : State) (acc : Access) : List Cand → Option (Nat × State)
  | [] => none
  | c :: t => match tryStart s c.desc acc with
    | some s' => some (c.desc, tookTurn s' c)
    | none => firstStart s acc t

/-- The descriptor whose turn it is, and its start. -/
def theTurn (s : State) (acc : Access) : Option (Nat × State) :=
  firstStart s acc ((candidates s).insertionSort (fun a b => candRank s a ≤ candRank s b))

/-- One turn of the dispatcher. -/
def dispatchTurn (s : State) (acc : Access) : State := ((theTurn s acc).map (·.2)).getD s

/-- Start one descriptor of an opcode, when it is its turn. -/
def startOne (op d : Nat) (acc : Access) (s : State) : State :=
  match descAt s d, theTurn s acc with
  | some x, some (e, t) => if x.opcode = op && e = d && dispatchUp s then t else s
  | _, _ => s

/-! The commands. -/

/-- DESCRIPTOR_START (11 R360). -/
def execDescriptorStart (acc : Access) (s : State) : Host.Outcome State Fault Refusal :=
  runEng (fun s => when_ (dispatchUp s) (fun s => dispatchTurn s acc) s) s

/-- WD_COPY_ASYNC (07 R242). -/
def execWdCopyAsync (desc : Nat) (s : State) : Host.Outcome State Fault Refusal := runEng (startOne 1 desc .ok) s

/-- COPY_CHUNK_SEND (07 R242). -/
def execCopyChunkSend (eng : Nat) (s : State) : Host.Outcome State Fault Refusal :=
  runEng (fun s => when_ (clkRuns s) (fun s => sendChunk s eng) s) s

/-- WD_REDUCE (09 R295, R296). -/
def execWdReduce (desc : Nat) (s : State) : Host.Outcome State Fault Refusal := runEng (startOne 2 desc .ok) s

/-- WD_UPDATE (10 R329, R330). -/
def execWdUpdate (desc : Nat) (acc : Access) (s : State) : Host.Outcome State Fault Refusal :=
  runEng (startOne 3 desc acc) s

/-- WD_PUBLISH (08 R283, R284). -/
def execWdPublish (desc : Nat) (s : State) : Host.Outcome State Fault Refusal := runEng (startOne 4 desc .ok) s

/-- WD_INVALIDATE (08 R285). -/
def execWdInvalidate (desc : Nat) (s : State) : Host.Outcome State Fault Refusal := runEng (startOne 5 desc .ok) s

/-- WD_FENCE (07 R247, R248). -/
def execWdFence (desc : Nat) (s : State) : Host.Outcome State Fault Refusal := runEng (startOne 6 desc .ok) s

/-- WD_SIGNAL (07 R246). -/
def execWdSignal (desc : Nat) (s : State) : Host.Outcome State Fault Refusal := runEng (startOne 7 desc .ok) s

/-- WD_WAIT (07 R245). -/
def execWdWait (desc : Nat) (s : State) : Host.Outcome State Fault Refusal := runEng (startOne 8 desc .ok) s

/-- WAIT_POLL (07 R245). -/
def execWaitPoll (desc : Nat) (acc : Access) (value : Nat) (s : State) : Host.Outcome State Fault Refusal :=
  runEng (fun s => pollWait s desc acc value) s

/-- WAIT_TIMEOUT (07 R245). -/
def execWaitTimeout (desc : Nat) (s : State) : Host.Outcome State Fault Refusal := runEng (fun s => timeoutWait s desc) s

/-- WD_DUMP_MARK (13 R437). -/
def execWdDumpMark (desc : Nat) (s : State) : Host.Outcome State Fault Refusal := runEng (startOne 9 desc .ok) s

/-- WD_ABORT (11 R367). -/
def execWdAbort (desc : Nat) (s : State) : Host.Outcome State Fault Refusal := runEng (startOne 10 desc .ok) s

end Sys2Proof.Machine
end

