-- ==== Sys2Proof/Machine/Command.lean ====
section
/-! DEFINITION. The frame in which an admitted command packet runs: when the Hub takes it, the scope of its source, the
locks of TDISP, and the holds of background commands (03 R90 orders 9 and 10, R94, R96; 05 R160). -/

namespace Sys2Proof.Machine

/-- The partition of a source; none for an M source (03 R83, R95). -/
def srcPart (src : Nat) : Option Nat := if isM src then none else some (src - 1)

/-- The PARTITION field of a packet, where its opcode has one (03 R101, R102). -/
def fieldPart (op : Op) (p : List Word) : Option Nat :=
  match op with
  | .regionCreate | .regionDestroy | .regionRekey | .pgdWrite | .pgdRead | .contextTeardown | .contextReset =>
    some (fld (pw p 0) 19 16)
  | .partitionCreate | .partitionDestroy | .migLogStart | .migFreeze | .migSave | .migRestore => some (fld (pw p 0) 3 0)
  | _ => none

/-- The KEY_ID field of a packet. -/
def fieldKid (op : Op) (p : List Word) : Option Nat :=
  match op with
  | .regionCreate | .regionDestroy | .regionRekey => some (fld (pw p 0) 11 0)
  | _ => none

/-- The CONTEXT field of a packet. -/
def fieldCtx (op : Op) (p : List Word) : Option Nat :=
  match op with
  | .contextTeardown | .contextReset => some (fld (pw p 0) 11 0)
  | _ => none

/-- A key ID lies in a partition's grant. -/
def kidInGrant (r : PartRec) (kid : Nat) : Bool := r.live && decide (r.kidBase ≤ kid) && decide (kid < r.kidBase + r.kidCount)

/-- Order 9 of 03 R90: the fields lie within the source's scope (03 R96). -/
def scopeFits (s : State) (src : Nat) (op : Op) (p : List Word) : Bool :=
  (match srcPart src, fieldPart op p with
   | some q, some f => q == f
   | _, _ => true) &&
  (match srcPart src, fieldKid op p with
   | some q, some k => kidInGrant (partAt s q) k
   | _, _ => true) &&
  (match fieldCtx op p, fieldPart op p with
   | some c, some f => (match ctxAt s c with
     | some x => x.part == f
     | none => true)
   | _, _ => true)

/-- A command of an M source that would change a locked partition (05 R160). -/
def locked (s : State) (src : Nat) (op : Op) (p : List Word) : Bool :=
  isM src && match fieldPart op p with
    | none => false
    | some f =>
      let t := (partAt s f).tdisp
      (t == 1 || t == 2) && op != .partitionCreate && op != .partitionDestroy && op != .pgdRead

/-- The objects a packet names (03 R94). -/
def namesOf (op : Op) (p : List Word) : List Hold :=
  (match fieldPart op p with
   | some f => [.part f]
   | none => []) ++
  (match fieldKid op p with
   | some k => [.region k]
   | none => []) ++
  (match op with
   | .pgdWrite | .pgdRead => [.group (fld (pw p 0) 19 16) (fld (pw p 0) 15 0)]
   | .domainEnrol | .domainRekey => [.domain]
   | .fwStage => [.fwStore]
   | .keyInvalidate | .keyInfo => [.keySlot (fld (pw p 0) 10 0)]
   | .keyDerive => [.keySlot (fld (pw p 0) 10 0), .keySlot (fld (pw p 2) 15 0)]
   | _ => [])

/-- Another source's blob command is between two of its fragments, and names the object (03 R88, R94). -/
def blobHolds (s : State) (src : Nat) (h : Hold) : Bool :=
  (List.range 18).any (fun x => x != src && (mb s x).blob.any (fun b => (namesOf b.op b.fixed).contains h))

/-- A packet of a source names an object that a command of another source holds (03 R94). -/
def namesHeld (s : State) (src : Nat) (op : Op) (p : List Word) : Bool :=
  (namesOf op p).any (fun h => isHeld s h || blobHolds s src h)

/-- Orders 9 and 10 of 03 R90, and the locks of TDISP. -/
def admitScope (s : State) (src : Nat) (op : Op) (p : List Word) : Option Nat :=
  if !scopeFits s src op p then some stNotPermitted
  else if locked s src op p then some stNotPermitted
  else if namesHeld s src op p then some stBusy
  else none

/-- A foreground command waits inside the Hub: for an identity line, for the writeback before a rekey, for the records
of a context reset, for the store or the key port, for the answers of peers, or for the partner (03 R97). -/
def hubWaits (s : State) : Bool :=
  !s.mem.idReq.isEmpty || s.hub.bg.any (fun b => b.op == .regionRekey || b.op == .contextReset || b.op == .spdm ||
    b.op == .chordRekey || b.op == .tandemFailover || b.op == .migLogStart)

/-- A source whose admitted packet the Hub has not taken. -/
def hubQueued (s : State) (src : Nat) : Bool := (mb s src).packet.isSome && !s.hub.bg.any (fun b => b.src == src)

/-- How far behind the source taken last a source stands in the round (03 R94). -/
def rrDist (s : State) (src : Nat) : Nat := (src + 17 - s.hub.rr) % 18

/-- No source that waits stands nearer in the round. -/
def rrTurn (s : State) (src : Nat) : Bool := (List.range 18).all (fun x => !hubQueued s x || decide (rrDist s src ≤ rrDist s x))

/-- The Hub may start a command of a source: it runs, no self-test is under way, no foreground command is under way, none of the
source's own, and it is the source's turn. -/
def hubTakes (s : State) (src : Nat) : Bool :=
  s.hub.run == .running && !s.hub.selfTest && !hubWaits s && !s.hub.bg.any (fun b => b.src == src) && s.aon.clkPhase != .quiesce &&
  rrTurn s src

/-- The Hub takes a source's packet. -/
def hubTook (s : State) (src : Nat) : State := { s with hub := { s.hub with rr := src } }

/-- Commands that derive keys: they wait while a miss of the data path is pending (01 R23). -/
def derives (op : Op) : Bool := op == .keyDerive || op == .migSave || op == .migRestore

/-- Run the admitted packet of a source. -/
def runCmd (src : Nat) (op : Op) (f : State → Packet → State) (s : State) : Host.Outcome State Fault Refusal :=
  runEng (fun s => match packetOf s src op with
    | none => s
    | some k =>
      if !hubTakes s src || (derives op && missPending s) then s
      else match admitScope s src op k.params with
        | some st => reply (hubTook s src) src op k.tag st []
        | none => f (hubTook s src) k) s

end Sys2Proof.Machine
end

