-- ==== Sys2Proof/Machine/RegionCmds.lean ====
section
/-! DEFINITION. The commands on regions and parameter groups: create with its identity line, destroy, rekey, and the
write and read of a PGD (03 R101; 08 R259, R260, R263, R279, R280, R287; 10 R327). -/

namespace Sys2Proof.Machine

/-! Create (08 R259, R260, R263). -/

/-- The fields of a create packet: key ID, kind, partition, home vertex, BASE, SIZE, META_BASE, MODULE_ID. -/
structure RegionReq where
  kid : Nat
  kind : Nat
  part : Nat
  home : Nat
  base : Nat
  size : Nat
  meta_ : Nat
  moduleId : Nat
  deriving DecidableEq, Repr

/-- Read them (03 R101). -/
def regionReq (p : List Word) : RegionReq :=
  { kid := fld (pw p 0) 11 0, kind := fld (pw p 0) 13 12, part := fld (pw p 0) 19 16, home := fld (pw p 1) 15 0, base := pw64 p 2,
    size := pw64 p 4, meta_ := pw64 p 6, moduleId := pw64 p 8 }

/-- End of the data range and of the metadata range, as module offsets. -/
def regionEnds (q : RegionReq) : Nat × Nat :=
  (q.base % 2 ^ 48 + (if q.kind = 2 then 2 * q.size else q.size), q.meta_ % 2 ^ 48 + metaSize q.kind q.size)

/-- Order 4 of 08 R259. -/
def regionForm (q : RegionReq) : Bool :=
  let e := regionEnds q
  q.base % 4096 == 0 && q.meta_ % 4096 == 0 && q.size % 4096 == 0 && decide (4096 ≤ q.size) && decide (q.size ≤ 2 ^ 40) &&
  q.base / 2 ^ 48 == q.meta_ / 2 ^ 48 && decide (e.1 ≤ 2 ^ 48) && decide (e.2 ≤ 2 ^ 48) &&
  (decide (e.1 ≤ q.meta_ % 2 ^ 48) || decide (e.2 ≤ q.base % 2 ^ 48))

/-- Orders 2 to 6 of 08 R259. -/
def regionCheck (s : State) (q : RegionReq) : Option Nat :=
  let v := q.base / 2 ^ 48
  if !kidInGrant (partAt s q.part) q.kid then some stNotPermitted
  else if (regionAt s q.kid).isSome then some stNoResource
  else if !regionForm q then some stBadParam
  else if !(ownVertex s q.home || otherMember s q.home) || ownVertex s v || otherMember s v then some stNotPermitted
  else if q.kind = 1 ∧ ownVertex s q.home ∧ (partAt s q.part).ways.isEmpty then some stNoResource
  else none

/-- This block is the region's home or writer. -/
def isAuthority (s : State) (q : RegionReq) : Bool := ownVertex s q.home

/-- This block reaches the module: the authority, and readers of a SHARED_READ region (08 R258). -/
def reachesModule (s : State) (q : RegionReq) : Bool := q.kind == 2 || isAuthority s q

/-- A wear entry for a module, if it has none and one is free (08 R290). -/
def wearOpen (s : State) (q : RegionReq) (rated : Nat) : State :=
  if !isAuthority s q ∨ s.mem.wear.any (fun p => p.2.id == q.moduleId) then s
  else match lowestFrom (fun i => (tget s.mem.wear i).isNone) 64 0 with
    | none => s
    | some i =>
      let w : Wear := { id := q.moduleId, lines := 0, max := 0, rated := rated, warn := false, vertex := q.base / 2 ^ 48 }
      { s with mem := { s.mem with wear := tset s.mem.wear i w } }

/-- Install a region: its generation, which every create of a key ID raises, 0 where the block is not to reach the module; its
handle of the domain key (04 R121; 08 R258, R260). -/
def installRegion (s : State) (q : RegionReq) (rated : Nat) : Region × State :=
  let reach := reachesModule s q
  let kept := match tget s.mem.regGen q.kid with
    | some g => g + 1
    | none => 0
  let gen := if reach then kept else 0
  let r : Region := {
    kind := q.kind, part := q.part, authority := isAuthority s q, home := q.home, base := q.base, size := q.size,
    meta_ := q.meta_, moduleId := q.moduleId, levels := if q.kind = 1 then rLevels (q.size / 4096) else 0,
    handleGen := (slotAt s 5).gen, gen0 := gen, keyGen := gen, epoch := 0, readOnly := false, treeRo := false, sweep := none,
    root := 0, lost := false, invalid := false, keys := [], wFail := 0, serial := s.mem.next }
  let s := (memNew s).2
  let s := { s with mem := { s.mem with regGen := tset s.mem.regGen q.kid kept } }
  (r, wearOpen (setRegion s q.kid r) q rated)

/-- The reply of a create: generation and levels. -/
def replyRegion (s : State) (src : Nat) (tag : Word) (r : Region) : State :=
  reply s src .regionCreate tag stOk [toW r.gen0, toW r.levels]

/-- Ask a module for its identity line: an MREAD of ADDR 0xFFFF_FFFF_FFC0 with KID 0 (08 R263). -/
def askIdentity (s : State) (src vertex : Nat) : State :=
  let n := memNew s
  let s := { n.2 with mem := { n.2.mem with idReq := tset n.2.mem.idReq n.1 src } }
  pushTx s { TxFrame.blank with dst := vertex, tc := 4, smode := 2, op := opMread, addr := 0xFFFFFFFFFFC0, origin := .module n.1 0 }

/-- BCP_REGION_CREATE. -/
def regionCreate (s : State) (src : Nat) (k : Packet) : State :=
  let q := regionReq k.params
  match regionCheck s q with
  | some st => reply s src .regionCreate k.tag st []
  | none =>
    if reachesModule s q then askIdentity s src (q.base / 2 ^ 48)
    else
      let i := installRegion s q 0
      replyRegion i.2 src k.tag i.1

/-- The identity line has come, or the module has failed (08 R259 orders 7 and 8, R264). -/
def identityArrive (s : State) (id : Nat) (status poison : Nat) (line : Bytes) : State :=
  match tget s.mem.idReq id with
  | none => s
  | some src =>
    let s := { s with mem := { s.mem with idReq := tdel s.mem.idReq id } }
    match packetOf s src .regionCreate with
    | none => s
    | some k =>
      let q := regionReq k.params
      let e := regionEnds q
      if status ≠ stOk ∨ poison ≠ 0 then reply s src .regionCreate k.tag (if status = stTimeout then stTimeout else stInternal) []
      else if leAt line 0 8 ≠ q.moduleId ∨ leAt line 8 8 < e.1 ∨ leAt line 8 8 < e.2 then
        reply s src .regionCreate k.tag stNotPermitted []
      else
        let i := installRegion s q (leAt line 16 8)
        replyRegion i.2 src k.tag i.1

/-- The identity line has not come within 50 µs. -/
def identityTimeout (s : State) (src : Nat) : State :=
  match s.mem.idReq.find? (fun p => p.2 == src) with
  | none => s
  | some (id, _) =>
    let s := { s with mem := { s.mem with idReq := tdel s.mem.idReq id } }
    match packetOf s src .regionCreate with
    | none => s
    | some k => reply s src .regionCreate k.tag stTimeout []

/-! Destroy (08 R280). -/

/-- A key ID is invalidated: what waits at the engine fails, and requests find a stale key ID (08 R280 step 1). -/
def invalidateRegion (s : State) (kid : Nat) : State :=
  match regionAt s kid with
  | none => s
  | some r => pumpMem (setRegion s kid { r with invalid := true })

/-- No module write of a region is outstanding (step 2). -/
def regionQuiet (s : State) (kid : Nat) : Bool :=
  let out := fun (m : ModReq) => m.write && m.sent && !m.done
  !s.mem.ops.any (fun p => p.2.kid == kid && (p.2.phase == .writing || p.2.parts.any out)) &&
  !s.mem.jobs.any (fun p => p.2.kid == kid && p.2.parts.any out) && !s.mem.wbs.any (fun p => p.2.kid == kid && out p.2.part)

/-- Discard what the block holds of a region (step 3): nodes, pinned lines, sweep and jobs, keys; what still waits is
stale. -/
def purgeRegion (s : State) (kid : Nat) : State :=
  match regionAt s kid with
  | none => s
  | some r =>
    let s := r.keys.foldl (fun s g => dropRegionKey s kid g.1) s
    let ops := s.mem.ops.filter (fun p => p.2.kid == kid)
    let s := ops.foldl (fun s p => match tget s.mem.ops p.1 with
      | some o => memFinish s p.1 o stStaleHandle [] 0
      | none => s) s
    let s := { s with
      mem := { s.mem with
        region := tdel s.mem.region kid
        cc := tkeep s.mem.cc (fun key _ => key / 2 ^ 36 != kid)
        jobs := tkeep s.mem.jobs (fun _ j => j.kid != kid)
        fills := tkeep s.mem.fills (fun _ f => f.kid != kid)
        wbs := tkeep s.mem.wbs (fun _ w => w.kid != kid)
        missK := s.mem.missK.filter (fun p => p.1 != kid)
        ctagBad := s.mem.ctagBad.filter (fun p => p.1 != kid) }
      fab := { s.fab with
        hot := s.fab.hot.filter (fun h => h.kid != kid)
        tracker := s.fab.tracker.filter (fun t => t.kid != kid) } }
    if s.mem.region.any (fun p => p.2.moduleId == r.moduleId && p.2.authority) then s
    else { s with mem := { s.mem with wear := tkeep s.mem.wear (fun _ w => w.id != r.moduleId) } }

/-- BCP_REGION_DESTROY. -/
def regionDestroy (s : State) (src : Nat) (k : Packet) : State :=
  let kid := fld (pw k.params 0) 11 0
  let part := fld (pw k.params 0) 19 16
  match regionAt s kid with
  | none => reply s src .regionDestroy k.tag (if kidInGrant (partAt s part) kid then stStaleHandle else stNotPermitted) []
  | some r =>
    if r.part ≠ part then reply s src .regionDestroy k.tag stNotPermitted []
    else if r.kind = 1 ∧ !r.authority then reply (purgeRegion s kid) src .regionDestroy k.tag stOk []
    else startBg (invalidateRegion s kid) src .regionDestroy (namesOf .regionDestroy k.params)

/-- The rest of a destroy, once the module writes are over. -/
def endRegionDestroy (s : State) (src : Nat) (k : Packet) : State :=
  let kid := fld (pw k.params 0) 11 0
  if regionQuiet s kid then reply (purgeRegion s kid) src .regionDestroy k.tag stOk [] else s

/-! Rekey (08 R279, R287). -/

/-- The new generation is in force: a PRIVATE region starts its sweep, a SHARED_READ region its epochs anew. -/
def rekeyNow (s : State) (src : Nat) (tag : Word) (kid : Nat) (r : Region) : State :=
  let g := r.keyGen + 1
  let s := { s with mem := { s.mem with regGen := tset s.mem.regGen kid g } }
  let s := if r.kind = 2 then
      let s := dropRegionKey s kid r.keyGen
      match regionAt s kid with
      | some r => setRegion s kid { r with keyGen := g, epoch := 0, wFail := 0 }
      | none => s
    else setRegion s kid { r with keyGen := g, readOnly := false, sweep := some 0 }
  reply s src .regionRekey tag stOk [toW g]

/-- A pinned line whose page is exhausted: it can be sealed only under the new key, and stays pinned until then (08 R278). DESIGN
CHOICE (log 33). -/
def pinStuck (s : State) (kid : Nat) (h : HotLine) : Bool :=
  !h.wb && (cbOf s kid (h.line / 64)).any (fun cb => cbMajor cb == 2 ^ 56 - 1 && decide (126 ≤ cbMinor cb (h.line % 64)))

/-- The pinned lines that a rekey still waits for. -/
def rekeyPins (s : State) (kid : Nat) : List HotLine := s.fab.hot.filter (fun h => h.kid == kid && !pinStuck s kid h)

/-- BCP_REGION_REKEY. -/
def regionRekey (s : State) (src : Nat) (k : Packet) : State :=
  let kid := fld (pw k.params 0) 11 0
  let part := fld (pw k.params 0) 19 16
  match regionAt s kid with
  | none => reply s src .regionRekey k.tag (if kidInGrant (partAt s part) kid then stStaleHandle else stNotPermitted) []
  | some r =>
    if r.part ≠ part ∨ (r.kind = 1 ∧ !r.authority) then reply s src .regionRekey k.tag stNotPermitted []
    else if r.sweep.isSome then reply s src .regionRekey k.tag stBusy []
    else
      let pins := rekeyPins s kid
      if pins.isEmpty then rekeyNow s src k.tag kid r
      else startBg (pumpMem (pins.foldl (fun s h => startWriteback s kid h.line) s)) src .regionRekey [.region kid]

/-- The rest of a rekey, once the pinned lines are written back; a line that could not be is written back again. -/
def endRegionRekey (s : State) (src : Nat) (k : Packet) : State :=
  let kid := fld (pw k.params 0) 11 0
  match regionAt s kid with
  | none => reply s src .regionRekey k.tag stStaleHandle []
  | some r =>
    let pins := rekeyPins s kid
    if pins.isEmpty then rekeyNow s src k.tag kid r
    else pumpMem (pins.foldl (fun s h => startWriteback s kid h.line) s)

/-! Parameter groups (10 R327; 03 R101). -/

/-- BCP_PGD_WRITE. -/
def pgdWrite (s : State) (src : Nat) (k : Packet) : State :=
  let g := fld (pw k.params 0) 15 0
  let p := fld (pw k.params 0) 19 16
  let b := wordBytes (k.params.drop 1)
  let done := fun (s : State) (st : Nat) => reply s src .pgdWrite k.tag st []
  if groupHeld s p g then done s stBusy
  else if pgdGroups s ≤ g then done s stBadParam
  else if !(partAt s p).live then done s stStaleHandle
  else if pgdN b = 0 then done (setPgd s p g b) stOk
  else if !pgdForm b || !pgdRanges b || (pgdRule b == 2 && pgdSrc b != 0) then done s stBadParam
  else match pgdRegions s p b with
    | some st => done s st
    | none => done (setPgd s p g b) stOk

/-- BCP_PGD_READ: the group's PGD as it stood at the dispatch of an update that holds it (10 R330). -/
def pgdRead (s : State) (src : Nat) (k : Packet) : State :=
  let g := fld (pw k.params 0) 15 0
  let p := fld (pw k.params 0) 19 16
  if pgdGroups s ≤ g then reply s src .pgdRead k.tag stBadParam []
  else if !(partAt s p).live then reply s src .pgdRead k.tag stStaleHandle []
  else reply s src .pgdRead k.tag stOk (bytesWords (pgdAt s p g))

/-! The commands. -/

/-- BCP_REGION_CREATE (08 R259). -/
def execBcpRegionCreate (src : Nat) (s : State) : Host.Outcome State Fault Refusal :=
  runCmd src .regionCreate (fun s k => regionCreate s src k) s

/-- IDENTITY_LINE_TIMEOUT (08 R259 order 7). -/
def execIdentityLineTimeout (src : Nat) (s : State) : Host.Outcome State Fault Refusal :=
  runFw (fun s => identityTimeout s src) s

/-- BCP_REGION_DESTROY (08 R280). -/
def execBcpRegionDestroy (src : Nat) (s : State) : Host.Outcome State Fault Refusal :=
  runCmd src .regionDestroy (fun s k => regionDestroy s src k) s

/-- BCP_REGION_REKEY (08 R279, R287). -/
def execBcpRegionRekey (src : Nat) (s : State) : Host.Outcome State Fault Refusal :=
  runCmd src .regionRekey (fun s k => regionRekey s src k) s

/-- BCP_PGD_WRITE (10 R327). -/
def execBcpPgdWrite (src : Nat) (s : State) : Host.Outcome State Fault Refusal :=
  runCmd src .pgdWrite (fun s k => pgdWrite s src k) s

/-- BCP_PGD_READ (03 R101). -/
def execBcpPgdRead (src : Nat) (s : State) : Host.Outcome State Fault Refusal :=
  runCmd src .pgdRead (fun s k => pgdRead s src k) s

end Sys2Proof.Machine
end

