-- ==== Sys2Proof/Machine/PartReset.lean ====
section
/-! DEFINITION. The reset of a context and of a partition, the teardown of a context with its SHARED signals, the
destruction of a partition, and the TDISP ERROR state (05 R160; 11 R368 to R373; 12 R396). -/

namespace Sys2Proof.Machine

/-! A context (11 R369, 12 R396). -/

/-- A descriptor whose final status is not fixed. -/
def descOpen (x : Desc) : Bool := x.phase != .done && x.phase != .recorded

/-- Change a context that exists. -/
def modCtx (s : State) (c : Nat) (f : Ctx → Ctx) : State :=
  match ctxAt s c with
  | some x => setCtx s c (f x)
  | none => s

/-- The units that hold a running descriptor; the dispatcher, which holds the rest, is none of them (12 R397). -/
def unitsOf (s : State) (d : Nat) (x : Desc) : List Nat :=
  if x.phase ≠ .running then []
  else if x.opcode = 1 then [0x1A]
  else if x.opcode = 2 then (((tget s.red.stages d).map (·.port)).toList)
  else if x.opcode = 3 then [0x19]
  else if x.opcode = 4 ∨ x.opcode = 5 then [0x18] else []

/-- Units confirm a squash when they do: which of those asked have not yet is free (12 R396). -/
def askUnits (s : State) (c : Nat) (us : List Nat) : State :=
  let f := freeN s
  let late := us.zipIdx.filter (fun x => f.1 / 2 ^ x.2 % 2 == 1)
  let rest := s.ladder.late.filter (fun x => x.1 != c)
  if us.isEmpty then s else { f.2 with ladder := { f.2.ladder with late := rest ++ late.map (fun x => (c, x.1)) } }

/-- Units that a context waits for. -/
def lateUnits (s : State) (c : Nat) : List Nat := (s.ladder.late.filter (fun x => x.1 == c)).map (·.2)

/-- Steps 1 to 4 of an L0: the context stops, its descriptors are squashed on the units that hold them, their records are due. -/
def beginCtxReset (s : State) (c : Nat) : State :=
  let s := modCtx s c (fun x => { x with stopped := true })
  let mine := s.parts.desc.filter (fun p => p.2.ctx == c && descOpen p.2)
  let us := (mine.flatMap (fun p => unitsOf s p.1 p.2)).dedup
  mine.foldl (fun s p => squashDesc s p.1 stContextReset) (askUnits s c us)

/-- Every record of a context that is due has been written. -/
def recordsOut (s : State) (c : Nat) : Bool := !s.parts.desc.any (fun p => p.2.ctx == c && p.2.phase == .done)

/-- Every unit has confirmed, and every record is written. -/
def l0Over (s : State) (c : Nat) : Bool := recordsOut s c && (lateUnits s c).isEmpty

/-- Step 5: HEAD becomes TAIL for every enabled queue, and the context leaves FAULTED. -/
def endCtxReset (s : State) (c : Nat) : State :=
  modCtx s c (fun x => { x with
    stopped := x.tearing, faulted := false,
    queues := tmapV x.queues (fun _ q => if q.enabled then { q with head := q.tail } else q) })

/-- The contexts of a partition. -/
def ctxsOf (s : State) (p : Nat) : List Nat := (s.parts.ctx.filter (fun x => x.2.part == p)).map (·.1)

/-- BCP_CONTEXT_RESET: a foreground command that ends when the records are written. -/
def contextReset (s : State) (src : Nat) (k : Packet) : State :=
  let c := fld (pw k.params 0) 11 0
  match ctxAt s c with
  | none => reply s src .contextReset k.tag stStaleHandle []
  | some _ =>
    let s := beginCtxReset s c
    if l0Over s c then reply (endCtxReset s c) src .contextReset k.tag stOk [] else startBg s src .contextReset []

/-- The rest of it: units that had not confirmed may have done so meanwhile. -/
def endContextReset (s : State) (src : Nat) (k : Packet) : State :=
  let c := fld (pw k.params 0) 11 0
  let s := askUnits s c (lateUnits s c)
  if l0Over s c then reply (endCtxReset s c) src .contextReset k.tag stOk [] else s

/-! A partition (11 R372). -/

/-- Core-side requests in a partition's parks complete with ST_CONTEXT_RESET. DEDUCED (log 16). -/
def failParks (s : State) (p : Nat) : State :=
  let mine := s.fab.parks.filter (fun x => x.1 % 16 == p)
  let s := { s with fab := { s.fab with parks := tkeep s.fab.parks (fun k _ => k % 16 != p) } }
  mine.foldl (fun s x => x.2.foldl (fun s q => q.frames.foldl (fun s f => match f.origin with
    | .core port tid seg => setSeg s port tid seg stContextReset [] 0
    | _ => s) s) s) s

/-- Start a partition reset, unless one runs: steps 1 and 2. -/
def startPartReset (s : State) (p : Nat) : State :=
  let r := partAt s p
  if !r.live ∨ r.resetting then s
  else
    let s := failParks (setPart s p { r with resetting := true }) p
    (ctxsOf s p).foldl beginCtxReset s

/-- Tags of an OWNER. -/
def ownerTags (s : State) (p : Nat) : Tbl TagEnt := s.fab.tags.filter (fun t => t.2.owner == p + 1)

/-- Detached tags remain (11 R372 step 4). -/
def isDraining (s : State) (p : Nat) : Bool := (ownerTags s p).any (fun t => decide (t.2.ord < (partAt s p).drainOrd))

/-- Detach the tags of a partition that are still in use: their outcomes are discarded, and core-side requests that
waited for them complete with ST_CONTEXT_RESET (11 R368, R372). -/
def detachTags (s : State) (p : Nat) : State :=
  let ts := ownerTags s p
  let s := ts.foldl (fun s t => match t.2.origin with
    | .core port tid seg => setSeg (setTag s t.1 { t.2 with origin := .own }) port tid seg stContextReset [] 0
    | _ => s) s
  if ts.isEmpty then s else setPart s p { partAt s p with drainOrd := s.fab.ord }

/-- The end of a partition reset: steps 3 to 5; a STOP_INTERFACE that waits for it takes effect, a destruction goes on
(11 R372, R373; 05 R160). -/
def endPartReset (s : State) (p : Nat) : State :=
  let confirmed := (ctxsOf s p).foldl (fun s c => askUnits s c (lateUnits s c)) s
  if !(partAt s p).resetting then s
  else if !(ctxsOf s p).all (l0Over confirmed) then confirmed
  else
    let s := confirmed
    let s := detachTags ((ctxsOf s p).foldl endCtxReset s) p
    let r := partAt s p
    let s := setPart s p { r with resetting := false, stopping := false, tdisp := if r.stopping then 0 else r.tdisp }
    let s := setBits s (ptOff p 0x40) 1
    if r.destroying then logStop ((s.mem.region.filter (fun x => x.2.part == p)).foldl (fun s x => invalidateRegion s x.1) s) p
    else s

/-- A partition enters TDISP ERROR: its work is squashed as in a partition reset (05 R160). -/
def tdispError (s : State) (p : Nat) : State :=
  let r := partAt s p
  if r.live then startPartReset (setPart s p { r with tdisp := 3 }) p else s

/-! Teardown of a context (11 R370, R371). -/

/-- A descriptor that outlives its context. -/
def outlives (x : Desc) : Bool := x.shared && (x.opcode == 6 || x.opcode == 7)

/-- The ADD of a signal has taken a sequence, or acts at home. -/
def signalSent (s : State) (d : Nat) : Bool :=
  s.fab.tags.any (fun t => t.2.origin == .signal d) || s.fab.homes.any (fun h => h.2.who == .signal d)

/-- One descriptor of a context torn down. -/
def tearDesc (s : State) (d : Nat) (p : Nat) (x : Desc) : State :=
  if !outlives x then
    let s := if descOpen x then squashUnits s d stContextReset else s
    let s := cadenceLate s d
    { s with parts := { s.parts with desc := tdel s.parts.desc d } }
  else if !descOpen x then s
  else if x.opcode = 6 then completeDesc (setDesc (squashUnits s d stAbandoned) d { x with quiet := true }) d stAbandoned 0
  else if signalSent s d then setDesc s d { x with quiet := true, phase := .running }
  else
    let s := squashUnits s d stAbandoned
    let y := { x with quiet := true, phase := .fetched }
    match if x.phase = .fetched then headCheck s p x.opcode x.raw else none with
    | some st => completeDesc (setDesc s d y) d st 0
    | none => { setDesc s d y with parts := { (setDesc s d y).parts with abandon := s.parts.abandon ++ [(d, false)] } }

/-- The owned key IDs that no other context of the partition lists (11 R356, R371). -/
def soleKids (s : State) (c : Nat) (x : Ctx) : List Nat :=
  let kids := fun (y : Ctx) => (y.own.filter (fun e => decide (2 ^ 31 ≤ e.2))).map (fun e => e.2 % 4096)
  ((kids x).dedup).filter (fun k => !s.parts.ctx.any (fun y => y.1 != c && y.2.part == x.part && (kids y.2).contains k))

/-- BCP_CONTEXT_TEARDOWN: steps 1 to 3. -/
def contextTeardown (s : State) (src : Nat) (k : Packet) : State :=
  let c := fld (pw k.params 0) 11 0
  match ctxAt s c with
  | none => reply s src .contextTeardown k.tag stStaleHandle []
  | some x =>
    let s := setCtx s c { x with stopped := true, tearing := true }
    let s := (s.parts.desc.filter (fun y => y.2.ctx == c)).foldl (fun s y => tearDesc s y.1 x.part y.2) s
    let kids := (soleKids s c x).filter (fun q => (regionAt s q).isSome)
    startBg (kids.foldl invalidateRegion s) src .contextTeardown ([.part x.part] ++ kids.map .region)

/-- No fence covers frames of a context that is gone, should its number be used again. -/
def forgetCtx (s : State) (c : Nat) : State :=
  let tx := fun (f : TxFrame) => if f.ctx = c then { f with cover := false } else f
  { s with
    fab := { s.fab with
      failed := s.fab.failed.filter (fun f => f.ctx != c)
      tags := tmapV s.fab.tags (fun _ t => if t.ctx = c then { t with cover := false } else t)
      txq := s.fab.txq.map tx
      parks := tmapV s.fab.parks (fun _ l => l.map (fun q => { q with frames := q.frames.map tx }))
      homes := tmapV s.fab.homes (fun _ h => if h.ctx = c then { h with cover := false } else h) }
    mem := { s.mem with ops := tmapV s.mem.ops (fun _ o => if o.ctx = c then { o with cover := false } else o) } }

/-- A context is freed with its slot; the SHARED descriptors that go on, or still owe their record, belong to no context any more. -/
def freeCtx (s : State) (c : Nat) : State :=
  let keep := fun (d : Desc) => d.ctx != c || (outlives d && d.phase != .recorded)
  let s := (s.parts.desc.filter (fun d => !keep d.2)).foldl (fun s d => cadenceLate s d.1) (forgetCtx s c)
  { s with
    ladder := { s.ladder with late := s.ladder.late.filter (fun x => x.1 != c) }
    parts := { s.parts with
      ctx := tdel s.parts.ctx c
      marks := tkeep s.parts.marks (fun k _ => k / 256 != c)
      desc := tmapV (tkeep s.parts.desc (fun _ d => keep d)) (fun _ d => if d.ctx = c then { d with ctx := 4096 } else d) } }

/-- The key IDs that the teardown of a source has invalidated. -/
def teardownKids (s : State) (src : Nat) : List Nat :=
  ((s.hub.bg.find? (fun b => b.src == src && b.op == .contextTeardown)).map (·.holds)).getD [] |>.filterMap (fun h => match h with
    | .region k => some k
    | _ => none)

/-- The rest of a teardown: steps 4 and 5. -/
def endTeardown (s : State) (src : Nat) (k : Packet) : State :=
  let c := fld (pw k.params 0) 11 0
  match ctxAt s c with
  | none => reply s src .contextTeardown k.tag stStaleHandle []
  | some _ =>
    let kids := teardownKids s src
    if !kids.all (regionQuiet s) then s
    else
      let n := s.parts.desc.countP (fun d => d.2.ctx == c && d.2.quiet)
      let s := freeCtx (kids.foldl purgeRegion s) c
      reply s src .contextTeardown k.tag stOk [toW (n % 2 ^ 16), toW kids.length]

/-- A SHARED signal in abandoned form: the ABANDONED word first, then VALUE (11 R370). It waits while a reduction holds its SUB
(09 R309). -/
def abandonSignal (s : State) (d : Nat) : State :=
  match s.parts.abandon.find? (fun a => a.1 == d), descAt s d with
  | some (_, up), some x =>
    let part := (partOfPasid s x.pasid).getD 0
    let b := x.raw
    let send := fun (s : State) (off v : Nat) => sendSignal s d part 4096 (leAt b 8 2) (leAt b 10 1) off v
    if subTaken s part (leAt b 8 2) (leAt b 10 1) then s
    else if up then
      send { s with parts := { s.parts with abandon := s.parts.abandon.filter (fun a => a.1 != d) } } (leAt b 16 6) (leAt b 24 8)
    else if x.phase = .fetched then send (setDesc s d { x with phase := .running }) (leAt b 16 6 + 8) 1
    else s
  | _, _ => s

/-! Destruction (11 R373). -/

/-- BCP_PARTITION_DESTROY. -/
def partitionDestroy (s : State) (src : Nat) (k : Packet) : State :=
  let p := fld (pw k.params 0) 3 0
  let r := partAt s p
  if !r.live then reply s src .partitionDestroy k.tag stStaleHandle []
  else
    let s := startBg s src .partitionDestroy [.part p]
    startPartReset (setPart s p { r with destroying := true, tdisp := 3 }) p

/-- A partition that has ended: its grant, PASIDs and log are gone, its generation and TDISP state stay (11 R348,
R373). -/
def partGone (r : PartRec) : PartRec :=
  { PartRec.none with gen := r.gen, tdisp := 3, drainOrd := r.drainOrd, fwinBase := r.fwinBase, fwinPages := r.fwinPages,
                      owinBase := r.owinBase, owinPages := r.owinPages, bw := r.bw, cBw := r.cBw }

/-- The rest of a destruction, once the reset and the module writes are over and the log has ended. -/
def endDestroy (s : State) (src : Nat) (k : Packet) : State :=
  let p := fld (pw k.params 0) 3 0
  let r := partAt s p
  let kids := (s.mem.region.filter (fun x => x.2.part == p)).map (·.1)
  if r.resetting ∨ r.log.active ∨ !kids.all (regionQuiet s) then s
  else
    let s := kids.foldl purgeRegion s
    let s := (ctxsOf s p).foldl freeCtx s
    reply (setPart s p (partGone r)) src .partitionDestroy k.tag stOk []

/-! The commands. -/

/-- BCP_CONTEXT_RESET (11 R369). -/
def execBcpContextReset (src : Nat) (s : State) : Host.Outcome State Fault Refusal :=
  runCmd src .contextReset (fun s k => contextReset s src k) s

/-- BCP_CONTEXT_TEARDOWN (11 R371). -/
def execBcpContextTeardown (src : Nat) (s : State) : Host.Outcome State Fault Refusal :=
  runCmd src .contextTeardown (fun s k => contextTeardown s src k) s

/-- BCP_PARTITION_DESTROY (11 R373). -/
def execBcpPartitionDestroy (src : Nat) (s : State) : Host.Outcome State Fault Refusal :=
  runCmd src .partitionDestroy (fun s k => partitionDestroy s src k) s

/-- SHARED_SIGNAL_ABANDON (11 R370). -/
def execSharedSignalAbandon (desc : Nat) (s : State) : Host.Outcome State Fault Refusal :=
  runEng (fun s => abandonSignal s desc) s

/-- PT_RESET (11 R372, R380). -/
def execPtReset (part : Nat) (who : Requester) (s : State) : Host.Outcome State Fault Refusal :=
  runWrite who (ptOff (part % 16) 8) (fun s =>
    let p := part % 16
    let t := (partAt s p).tdisp
    if who.priv && (t == 1 || t == 2) then s else startPartReset s p) s

/-- PARTITION_DRAIN_DONE (11 R372). -/
def execPartitionDrainDone (part : Nat) (s : State) : Host.Outcome State Fault Refusal :=
  runEng (fun s => endPartReset s (part % 16)) s

/-- TDISP_ERROR_ENTRY (05 R160): a partition to which a SECURITY alarm or a K_SET_STOP was charged. -/
def execTdispErrorEntry (part : Nat) (s : State) : Host.Outcome State Fault Refusal :=
  runEng (fun s =>
    if s.parts.errDue.contains part then
      tdispError { s with parts := { s.parts with errDue := s.parts.errDue.filter (· != part) } } part
    else s) s

end Sys2Proof.Machine
end

