-- ==== Sys2Proof/Machine/PartCreate.lean ====
section
/-! DEFINITION. The creation of a partition, its dirty-page log, freezing and thawing, and the migration blob that
carries a frozen partition to another block (11 R348, R349, R374 to R378). -/

namespace Sys2Proof.Machine

/-! Creation (11 R348, R349). -/

/-- What a create asks for (03 R102). -/
structure PartGrant where
  kidBase : Nat
  kidCount : Nat
  sc : Nat
  slots : Nat
  ways : Nat
  ports : Nat
  replay : Nat
  retx : Nat
  budgets : List Nat
  pasids : List Nat
  deriving DecidableEq, Repr

/-- The grant in a packet. -/
def grantOf (p : List Word) : PartGrant :=
  { kidBase := fld (pw p 1) 11 0, kidCount := fld (pw p 1) 27 16, sc := fld (pw p 2) 15 0, slots := fld (pw p 3) 6 0,
    ways := fld (pw p 3) 12 8, ports := fld (pw p 3) 23 16, replay := fld (pw p 4) 7 0, retx := fld (pw p 4) 19 8,
    budgets := (List.range 8).map (fun i => fld (pw p (5 + i)) 15 0),
    pasids := (List.range (fld (pw p 13) 4 0)).map (fun i => fld (pw p (14 + i)) 19 0) }

/-- Partitions that exist. -/
def livePart (s : State) : Tbl PartRec := tkeep s.parts.part (fun _ r => r.live)

/-- A sum over the partitions that exist. -/
def sumParts (s : State) (f : PartRec → Nat) : Nat := ((livePart s).map (fun p => f p.2)).foldl (· + ·) 0

/-- Slots that no partition holds, lowest first. -/
def freeSlotNos (s : State) : List Nat := (List.range 64).filter (fun i => !(livePart s).any (fun p => p.2.slots.contains i))

/-- Ways that no partition holds, lowest first. -/
def freeWayNos (s : State) : List Nat := (List.range 16).filter (fun i => !(livePart s).any (fun p => p.2.ways.contains i))

/-- Partition numbers that do not exist. -/
def deadParts (s : State) : List Nat := (List.range 16).filter (fun p => !(partAt s p).live)

/-- Replay units in use: the shares granted, and what detached frames of partitions gone still hold (11 R373). -/
def unitsHeld (s : State) : Nat :=
  sumParts s (·.replay) +
    ((deadParts s).map (fun p => ceilDiv (tagsUsed s (p + 1)) (tagTotal s.size / 256))).foldl (· + ·) 0

/-- MiB of the retransmit area in use, likewise. -/
def retxHeld (s : State) : Nat :=
  sumParts s (·.retx) + ((deadParts s).map (fun p => ceilDiv (ringUsed s (p + 1)) 4096)).foldl (· + ·) 0

/-- The pool of stream contexts (11 R349). -/
def scPool (s : State) : Nat := scCap s.size + scEntries s - scCap s.size / 4

/-- The checks of 11 R348 in their order. -/
def createCheck (s : State) (p : Nat) (g : PartGrant) : Option Nat :=
  let r := partAt s p
  let kid := fun (k : Nat) => decide (g.kidBase ≤ k) && decide (k < g.kidBase + g.kidCount)
  let bud := fun (c : Nat) => g.budgets.getD c 0
  if r.live ∨ r.tdisp = 1 ∨ r.tdisp = 2 then some stBusy
  else if g.kidBase < 16 ∨ 4096 < g.kidBase + g.kidCount then some stBadParam
  else if g.slots < 1 ∨ 64 < g.slots ∨ 16 < g.ways ∨ g.pasids.length < 1 ∨ 16 < g.pasids.length ∨ bud 0 ≠ 0 ∨ bud 7 ≠ 0 ∨
      g.budgets.any (fun b => decide (25600 < b)) ∨ 2 ^ lpCount s.size ≤ g.ports then some stBadParam
  else if !g.pasids.Nodup ∨ g.pasids.any (fun a => (partOfPasid s a).isSome) then some stNotPermitted
  else if !([0x31000, 0x31004, 0x31008, 0x5F000, 0x5F004, 0x1A008] : List Nat).all s.parts.areas.contains then
    some stNotPermitted
  else if (livePart s).any (fun x => decide (max g.kidBase x.2.kidBase < min (g.kidBase + g.kidCount) (x.2.kidBase + x.2.kidCount))) ∨
      s.mem.region.any (fun x => kid x.1) then some stNoResource
  else if (freeSlotNos s).length < g.slots ∨ (freeWayNos s).length < g.ways ∨ 248 < unitsHeld s + g.replay ∨
      fld (reg s 0x1A008) 10 0 < retxHeld s + g.retx + 16 ∨ scPool s < sumParts s (·.scLimit) + g.sc then some stNoResource
  else if (List.range 8).any (fun c => decide (25600 < sumParts s (fun r => r.budgets.getD c 0) + bud c)) then some stNoResource
  else none

/-- Zero the PGDs of a partition, in the area too (10 R325). -/
def zeroPgds (s : State) (p : Nat) : State :=
  let n := (reg s 0x31008).toNat % 8192
  let base := (reg s 0x31000).toNat + 2 ^ 32 * (reg s 0x31004).toNat
  let s := { s with upd := { s.upd with pgd := tkeep s.upd.pgd (fun k _ => k / 4096 != p) } }
  if n = 0 then s else emitMreq s true (base + p * n * 128) (n * 128) (List.replicate (n * 128) 0) [] none

/-- Install a partition (11 R348). -/
def installPart (s : State) (p : Nat) (g : PartGrant) : State :=
  let r := partAt s p
  let new : PartRec := { PartRec.none with
    live := true, gen := (r.gen + 1) % 2 ^ 32, kidBase := g.kidBase, kidCount := g.kidCount, scLimit := g.sc,
    slots := (freeSlotNos s).take g.slots, ways := (freeWayNos s).take g.ways, ports := g.ports, replay := g.replay,
    retx := g.retx, budgets := g.budgets, pasids := g.pasids, drainOrd := r.drainOrd, bw := r.bw, cBw := r.cBw }
  setPart (zeroPgds s p) p new

/-- BCP_PARTITION_CREATE. -/
def partitionCreate (s : State) (src : Nat) (k : Packet) : State :=
  let p := fld (pw k.params 0) 3 0
  let g := grantOf k.params
  match createCheck s p g with
  | some st => reply s src .partitionCreate k.tag st []
  | none =>
    let s := installPart s p g
    reply s src .partitionCreate k.tag stOk [toW (partAt s p).gen]

/-! The dirty-page log (11 R374). -/

/-- BCP_MIG_LOG_START. A STOP ends when the pages that are due have been logged. -/
def migLogStart (s : State) (src : Nat) (k : Packet) : State :=
  let p := fld (pw k.params 0) 3 0
  if !(partAt s p).live then reply s src .migLogStart k.tag stStaleHandle []
  else if wbit (pw k.params 0) 8 then
    let s := logStop s p
    if (partAt s p).log.active then startBg s src .migLogStart [.part p] else reply s src .migLogStart k.tag stOk []
  else
    let s := pmDrop s (fun u => u == .logEntry p)
    let new : DirtyLog := { DirtyLog.off with active := true, base := pw64 k.params 1, pages := (pw k.params 3).toNat }
    reply (logHead (modLog s p (fun _ => new)) p) src .migLogStart k.tag stOk []

/-- The rest of a STOP. -/
def endLogStop (s : State) (src : Nat) (k : Packet) : State :=
  if (partAt s (fld (pw k.params 0) 3 0)).log.active then s else reply s src .migLogStart k.tag stOk []

/-! Freeze (11 R375). -/

/-- A wait is disarmed and stands at its queue's head again. -/
def disarmWait (s : State) (w : Wait) : State :=
  match descAt s w.desc with
  | some x => setDesc { s with fab := { s.fab with waits := s.fab.waits.filter (fun v => v.desc != w.desc) } } w.desc
      { x with phase := .fetched, checked := false }
  | none => s

/-- Descriptors of a partition that run or whose record is still to be written. -/
def partRuns (s : State) (p : Nat) : Bool :=
  s.parts.desc.any (fun d => (ctxPart s d.2.ctx) == some p && d.2.phase != .fetched && d.2.phase != .recorded)

/-- The dirty items of a partition's regions. -/
def dirtyItems (s : State) (p : Nat) : List Nat :=
  (s.mem.cc.filter (fun x => x.2.dirty && (regionAt s (ccKid x.1)).any (fun r => r.part == p))).map (·.1)

/-- The items of regions go, children first, the dirty ones back to their modules. -/
def flushItems : Nat → State → Nat → State
  | 0, s, _ => s
  | n + 1, s, p =>
    match (s.mem.cc.filter (fun x => ccEvictable s p x.1)).head? with
    | none => s
    | some (k, _) =>
      let t := ccEvict s k
      if (tget t.mem.cc k).isSome then t else flushItems n t p

/-- The pinned lines of a partition's regions. -/
def pinsOf (s : State) (p : Nat) : List HotLine :=
  s.fab.hot.filter (fun h => (regionAt s h.kid).any (fun r => r.part == p && r.authority))

/-- A writeback of a partition's regions is outstanding. -/
def wbsOut (s : State) (p : Nat) : Bool :=
  s.mem.wbs.any (fun w => (regionAt s w.2.kid).any (fun r => r.part == p)) ||
  s.mem.ops.any (fun o => (regionAt s o.2.kid).any (fun r => r.part == p))

/-- The rest of a freeze: when nothing runs any more, write back, and freeze when all is written back. -/
def endFreeze (s : State) (src : Nat) (k : Packet) : State :=
  let p := fld (pw k.params 0) 3 0
  let r := partAt s p
  if partRuns s p then s
  else
    let s := pumpMem ((pinsOf s p).foldl (fun s h => startWriteback s h.kid h.line) s)
    if !(pinsOf s p).isEmpty then s
    else
      let s := if (dirtyItems s p).isEmpty then s else pumpMem (flushItems s.mem.cc.length s p)
      if !(dirtyItems s p).isEmpty ∨ wbsOut s p then s
      else reply (setPart s p { r with freezing := false, frozen := true }) src .migFreeze k.tag stOk []

/-- BCP_MIG_FREEZE, and THAW. -/
def migFreeze (s : State) (src : Nat) (k : Packet) : State :=
  let p := fld (pw k.params 0) 3 0
  let r := partAt s p
  if !r.live then reply s src .migFreeze k.tag stStaleHandle []
  else if wbit (pw k.params 0) 8 then
    if r.saved then reply s src .migFreeze k.tag stNotPermitted []
    else reply (setPart s p { r with frozen := false, freezing := false }) src .migFreeze k.tag stOk []
  else if r.frozen then reply s src .migFreeze k.tag stOk []
  else
    let s := startBg (setPart s p { r with freezing := true }) src .migFreeze [.part p]
    endFreeze ((s.fab.waits.filter (fun w => w.part == p)).foldl disarmWait s) src k

/-- Running descriptors have not completed within 10 ms: the partition thaws. -/
def freezeTimeout (s : State) (p : Nat) : State :=
  let r := partAt s p
  match s.hub.bg.find? (fun b => b.op == .migFreeze && b.holds.contains (.part p)) with
  | none => s
  | some b => match packetOf s b.src .migFreeze with
    | none => s
    | some k => if partRuns s p then reply (setPart s p { r with freezing := false }) b.src .migFreeze k.tag stTimeout [] else s

/-! Save and restore (11 R376 to R378). The spec names what each record of the body holds and not where within it: the
layouts below are the model's own. DESIGN CHOICE (log 17). -/

/-- A record: type, length, data padded to 8 bytes. -/
def blobRec (typ : Nat) (d : Bytes) : Bytes :=
  leBytes 2 typ ++ [0, 0] ++ leBytes 4 d.length ++ padTo (ceilDiv d.length 8 * 8) d

/-- Record 1: the partition. -/
def partBytes (r : PartRec) : Bytes :=
  leBytes 4 r.gen ++ leBytes 2 r.kidBase ++ leBytes 2 r.kidCount ++ leBytes 4 r.scLimit ++ leBytes 1 r.slots.length ++
  leBytes 1 r.ways.length ++ leBytes 1 r.ports ++ leBytes 1 r.replay ++ leBytes 2 r.retx ++ leBytes 1 r.tdisp ++
  leBytes 1 r.pasids.length ++ (List.range 8).flatMap (fun i => leBytes 4 (r.budgets.getD i 0)) ++
  leBytes 8 r.fwinBase ++ leBytes 8 r.fwinPages ++ leBytes 8 r.owinBase ++ leBytes 8 r.owinPages ++ r.pasids.flatMap (leBytes 4)

/-- The grant in record 1. -/
def grantFrom (b : Bytes) : PartGrant :=
  { kidBase := leAt b 4 2, kidCount := leAt b 6 2, sc := leAt b 8 4, slots := leAt b 12 1, ways := leAt b 13 1, ports := leAt b 14 1,
    replay := leAt b 15 1, retx := leAt b 16 2, budgets := (List.range 8).map (fun i => leAt b (20 + 4 * i) 4),
    pasids := (List.range (leAt b 19 1)).map (fun i => leAt b (84 + 4 * i) 4) }

/-- A queue in record 2. -/
def queueBytes (q : Nat) (u : Queue) : Bytes :=
  leBytes 1 q ++ leBytes 1 u.log2 ++ leBytes 1 u.prio ++ [0] ++ leBytes 4 u.head ++ leBytes 4 u.tail ++ leBytes 8 u.ring ++
  leBytes 8 u.cmpl

/-- A queue read back: 28 bytes. -/
def queueFrom (b : Bytes) : Nat × Queue :=
  (leAt b 0 1, { ring := leAt b 12 8, cmpl := leAt b 20 8, log2 := leAt b 1 1, prio := leAt b 2 1, enabled := true,
                 head := leAt b 4 4, tail := leAt b 8 4 })

/-- Record 2: a context, its enabled queues, and its descriptors that are fetched and not started. -/
def ctxBytes (s : State) (c : Nat) (x : Ctx) : Bytes :=
  let qs := x.queues.filter (fun q => q.2.enabled)
  let ds := s.parts.desc.filter (fun d => d.2.ctx == c && d.2.phase == .fetched)
  leBytes 2 c ++ leBytes 4 x.pasid ++ leBytes 1 (b2n x.faulted) ++ leBytes 1 x.fStatus ++ leBytes 1 x.fQueue ++ [0] ++
  leBytes 4 x.fIndex ++ (List.range 8).flatMap (fun i => leBytes 4 (tgetD x.own i 0)) ++ leBytes 2 qs.length ++
  leBytes 2 ds.length ++ qs.flatMap (fun q => queueBytes q.1 q.2) ++
  ds.flatMap (fun d => leBytes 1 d.2.queue ++ leBytes 4 d.2.index ++ padTo 64 (d.2.raw.take 64))

/-- Record 4: a region homed or written here. -/
def regionBytes (kid : Nat) (r : Region) : Bytes :=
  leBytes 2 kid ++ leBytes 1 r.kind ++ leBytes 1 (b2n r.readOnly + 2 * b2n r.treeRo) ++ leBytes 4 r.gen0 ++ leBytes 4 r.keyGen ++
  leBytes 4 r.levels ++ leBytes 8 r.base ++ leBytes 8 r.size ++ leBytes 8 r.meta_ ++ leBytes 8 r.moduleId ++ leBytes 8 r.root ++
  leBytes 4 r.epoch ++ leBytes 4 ((r.sweep.map (· + 1)).getD 0)

/-- The body of a blob. -/
def blobBody (s : State) (p : Nat) : Bytes :=
  blobRec 1 (partBytes (partAt s p)) ++
  (s.parts.ctx.filter (fun x => x.2.part == p)).flatMap (fun x => blobRec 2 (ctxBytes s x.1 x.2)) ++
  (s.upd.pgd.filter (fun x => x.1 / 4096 == p)).flatMap (fun x => blobRec 3 (leBytes 4 (x.1 % 4096) ++ x.2)) ++
  (s.mem.region.filter (fun x => x.2.part == p && x.2.authority && !x.2.lost)).flatMap (fun x => blobRec 4 (regionBytes x.1 x.2))

/-- The header of a blob (11 R377). -/
def blobHead (src dst part : Nat) (salt : Bytes) (len : Nat) : Bytes :=
  leBytes 4 0x424D5654 ++ leBytes 2 1 ++ leBytes 2 src ++ leBytes 2 dst ++ leBytes 1 part ++ List.replicate 5 0 ++ salt ++
  leBytes 4 len ++ List.replicate 28 0

/-- The CONTEXT of a MIGRATION key (11 R376). -/
def migCtx (src dst part : Nat) (salt : Bytes) : Bytes := leBytes 2 src ++ leBytes 2 dst ++ leBytes 1 part ++ salt

/-- The nonce of segment `j`. -/
def segIv (j : Nat) : Bytes := leBytes 4 j ++ List.replicate 8 0

/-- Seal the segments of a body from segment `j` on, each a use of the MIGRATION key; none when a use is refused (04 R124). -/
def sealSegs (s : State) (head : Bytes) : Nat → Nat → Bytes → Option Bytes × State
  | 0, _, _ => (some [], s)
  | n + 1, j, b =>
    if b.isEmpty then (some [], s)
    else match sealUnder s migSlot 7 (segIv j) (head ++ leBytes 4 j) (b.take 4096) with
      | (none, t) => (none, t)
      | (some c, t) =>
        let r := sealSegs t head n (j + 1) (b.drop 4096)
        (r.1.map (c ++ ·), r.2)

/-- `n` uses of a key at once: the status, and the state with them counted (04 R124). -/
def useTimes (s : State) (slot bit : Nat) : Nat → Nat × State
  | 0 => (stOk, s)
  | n + 1 =>
    let u := useKey s slot bit
    if u.1 ≠ stOk then u else useTimes u.2 slot bit n

/-- Open the segments of a body of `len` bytes; none when a tag does not verify or bytes are missing or left over. -/
def openSegs (k : BitVec 256) (head : Bytes) : Nat → Nat → Nat → Bytes → Option Bytes
  | 0, _, len, b => if len = 0 ∧ b.isEmpty then some [] else none
  | n + 1, j, len, b =>
    if len = 0 then if b.isEmpty then some [] else none
    else
      let m := min len 4096
      let c := b.take m
      if c.length = m ∧ gcmTag k (segIv j) (head ++ leBytes 4 j) c = slice b m 16 then
        (openSegs k head n (j + 1) (len - m) (b.drop (m + 16))).map (gcmCrypt k (segIv j) c ++ ·)
      else none

/-- Bytes of one fragment of a reply. -/
abbrev fragMax : Nat := 16376

/-- Cut bytes into reply fragments, each with its byte count (03 R102). -/
def replyBlob : Nat → Bytes → List (List Word)
  | 0, _ => []
  | n + 1, b => if b.isEmpty then [] else (toW (b.take fragMax).length :: bytesWords (b.take fragMax)) :: replyBlob n (b.drop fragMax)

/-- The management channel works: a lane port is not isolated (05 R137). -/
def channelUp (s : State) : Bool := (List.range (lpCount s.size)).any (fun p => !portIsolated s p)

/-- BCP_MIG_SAVE. While the DRBG refuses there is no salt: ST_INTERNAL, as without a channel. DESIGN CHOICE (log 55). -/
def migSave (s : State) (src : Nat) (k : Packet) : State :=
  let p := fld (pw k.params 0) 3 0
  let dst := fld (pw k.params 1) 15 0
  let own := s.dom.vertex.getD 0
  let u := useKey s 5 0
  if !(partAt s p).live then reply s src .migSave k.tag stStaleHandle []
  else if !(partAt s p).frozen then reply s src .migSave k.tag stNotPermitted []
  else if u.1 ≠ stOk then reply s src .migSave k.tag u.1 []
  else if !channelUp s ∨ s.hub.drbgRefuse then reply s src .migSave k.tag stInternal []
  else
    let d := draw u.2 16
    let t := migrationKey d.2 (migCtx own dst p d.1)
    let body := blobBody s p
    let head := blobHead own dst p d.1 body.length
    match sealSegs t head (ceilDiv body.length 4096) 0 body with
    | (none, t) => reply t src .migSave k.tag stKeyExhausted []
    | (some segs, t) =>
      let blob := head ++ segs
      let t := replyFrags t src .migSave k.tag (replyBlob (ceilDiv blob.length fragMax) blob)
      noteSaved (setMb t src { mb t src with saving := some p }) src

/-- The records of a body. -/
def blobRecs : Nat → Bytes → List (Nat × Bytes)
  | 0, _ => []
  | n + 1, b =>
    if b.length < 8 then []
    else
      let len := leAt b 4 4
      (leAt b 0 2, slice b 8 len) :: blobRecs n (b.drop (8 + ceilDiv len 8 * 8))

/-- Install a saved context: IDLE, under its number when that is free, else under the lowest free one. -/
def restoreCtx (s : State) (p : Nat) (b : Bytes) : State :=
  let want := leAt b 0 2 % 4096
  let no := if (ctxAt s want).isNone then some want else lowestFrom (fun c => (ctxAt s c).isNone) 4096 0
  match no with
  | none => s
  | some c =>
    let nq := leAt b 46 2
    let nd := leAt b 48 2
    let own := (List.range 8).foldl (fun t i => if leAt b (14 + 4 * i) 4 = 0 then t else tset t i (leAt b (14 + 4 * i) 4)) ([] : Tbl Nat)
    let qs := (List.range nq).foldl (fun t i => let q := queueFrom (slice b (50 + 28 * i) 28)
      tset t q.1 q.2) ([] : Tbl Queue)
    let x : Ctx := { part := p, pasid := leAt b 2 4, slot := none, faulted := false, fStatus := 0,
                     fQueue := 0, fIndex := 0, own := own, queues := qs, stopped := false, tearing := false }
    (List.range nd).foldl (fun s i =>
      let e := slice b (50 + 28 * nq + 69 * i) 69
      let q := leAt e 0 1
      let d := descOf c q (leAt e 1 4) (queueAt x q) x.pasid (slice e 5 64)
      { s with parts := { s.parts with desc := tset s.parts.desc s.parts.nextDesc d, nextDesc := s.parts.nextDesc + 1 } })
      (setCtx s c x)

/-- Install a saved region, homed at this block, with its root counter and generations. -/
def restoreRegion (s : State) (p : Nat) (b : Bytes) : State :=
  let kid := leAt b 0 2
  let own := s.dom.vertex.getD 0
  let r : Region := {
    kind := leAt b 2 1, part := p, authority := true, home := own, base := leAt b 16 8, size := leAt b 24 8, meta_ := leAt b 32 8,
    moduleId := leAt b 40 8, levels := leAt b 12 4, handleGen := (slotAt s 5).gen, gen0 := leAt b 4 4, keyGen := leAt b 8 4,
    epoch := leAt b 56 4, readOnly := leAt b 3 1 % 2 == 1, treeRo := leAt b 3 1 / 2 % 2 == 1,
    sweep := if leAt b 60 4 = 0 then none else some (leAt b 60 4 - 1), root := leAt b 48 8, lost := false, invalid := false,
    keys := [], wFail := 0, serial := s.mem.next }
  let s := (memNew s).2
  let s := setRegion { s with mem := { s.mem with regGen := tset s.mem.regGen kid r.keyGen } } kid r
  let q : RegionReq := { kid := kid, kind := r.kind, part := p, home := own, base := r.base, size := r.size, meta_ := r.meta_,
                         moduleId := r.moduleId }
  let f := freeN s
  wearOpen f.2 q (f.1 % 2 ^ 64)

/-- Install what a body holds in the partition just created (11 R378). -/
def restoreBody (s : State) (p : Nat) (recs : List (Nat × Bytes)) : State :=
  recs.foldl (fun s x =>
    if x.1 = 1 then setPart s p { partAt s p with
      frozen := true, fwinBase := leAt x.2 52 8, fwinPages := leAt x.2 60 8, owinBase := leAt x.2 68 8, owinPages := leAt x.2 76 8 }
    else if x.1 = 2 then restoreCtx s p x.2
    else if x.1 = 3 then setPgd s p (leAt x.2 0 4 % 4096) (x.2.drop 4)
    else if x.1 = 4 then restoreRegion s p x.2
    else s) s

/-- BCP_MIG_RESTORE, on its last fragment. -/
def migRestore (s : State) (src : Nat) (k : Packet) : State :=
  let p := fld (pw k.params 0) 3 0
  let from_ := fld (pw k.params 1) 15 0
  let head := k.blob.take 64
  let salt := slice head 16 16
  let own := s.dom.vertex.getD 0
  let no := fun (s : State) (st : Nat) => reply s src .migRestore k.tag st []
  if leAt head 0 4 ≠ 0x424D5654 ∨ leAt head 4 2 ≠ 1 then no s stNotPermitted
  else if !ownVertex s (leAt head 8 2) ∨ leAt head 6 2 ≠ from_ then no s stNotPermitted
  else
    let u := useKey s 5 0
    if u.1 ≠ stOk then no s u.1
    else if !channelUp s then no s stInternal
    else
      let len := leAt head 32 4
      let s := (useTimes (migrationKey u.2 (migCtx from_ own (leAt head 10 1) salt)) migSlot 7 (ceilDiv len 4096)).2
      match openSegs (slotAt s migSlot).key head (ceilDiv len 4096) 0 len (k.blob.drop 64) with
      | none => no s stNotPermitted
      | some body =>
        let recs := blobRecs body.length body
        let g := grantFrom (((recs.find? (fun x => x.1 == 1)).map (·.2)).getD [])
        if s.parts.salts.contains salt then no s stNotPermitted
        else match createCheck s p g with
          | some st => no s st
          | none =>
            if 4096 < s.parts.ctx.length + recs.countP (fun x => x.1 == 2) then no s stNoResource
            else
              let s := restoreBody (installPart s p g) p recs
              no { s with parts := { s.parts with salts := (s.parts.salts ++ [salt]).drop (s.parts.salts.length + 1 - 256) } } stOk

/-! The commands. -/

/-- BCP_PARTITION_CREATE (11 R348). -/
def execBcpPartitionCreate (src : Nat) (s : State) : Host.Outcome State Fault Refusal :=
  runCmd src .partitionCreate (fun s k => partitionCreate s src k) s

/-- BCP_MIG_LOG_START (11 R374). -/
def execBcpMigLogStart (src : Nat) (s : State) : Host.Outcome State Fault Refusal :=
  runCmd src .migLogStart (fun s k => migLogStart s src k) s

/-- BCP_MIG_FREEZE (11 R375). -/
def execBcpMigFreeze (src : Nat) (s : State) : Host.Outcome State Fault Refusal :=
  runCmd src .migFreeze (fun s k => migFreeze s src k) s

/-- BCP_MIG_SAVE (11 R376, R377). -/
def execBcpMigSave (src : Nat) (s : State) : Host.Outcome State Fault Refusal :=
  runCmd src .migSave (fun s k => migSave s src k) s

/-- BCP_MIG_RESTORE (11 R378). -/
def execBcpMigRestore (src : Nat) (s : State) : Host.Outcome State Fault Refusal :=
  runCmd src .migRestore (fun s k => migRestore s src k) s

/-- MIG_FREEZE_TIMEOUT (11 R375). -/
def execMigFreezeTimeout (part : Nat) (s : State) : Host.Outcome State Fault Refusal :=
  runEng (fun s => freezeTimeout s (part % 16)) s

/-- DIRTY_PAGE_LOG (11 R374). -/
def execDirtyPageLog (part : Nat) (s : State) : Host.Outcome State Fault Refusal :=
  runEng (fun s => logPage s (part % 16)) s

end Sys2Proof.Machine
end

