-- ==== Sys2Proof/Machine/Info.lean ====
section
/-! DEFINITION. What the block says of itself: identity words, life cycle and fuses, debug levels, the checks of a
firmware image (03 R75 to R77; 04 R106, R128, R135; 13 R433, R442; 14 R447). -/

namespace Sys2Proof.Machine

/-! Identity (14 R447). -/

/-- TVD_ID. -/
abbrev tvdIdW : Word := 0x0000C6B5#32
/-- IP_VERSION: 3.2.0. -/
abbrev ipVersionW : Word := 0x00030200#32

/-- Number of a size. -/
def sizeCode : Size → Nat
  | .tvd16 => 0
  | .tvd32 => 1
  | .tvd64 => 2

/-- CONFIG. -/
def configW (s : State) : Word :=
  toW (sizeCode s.size + 4 * b2n s.tandemEn + 8 * b2n s.tandemId + 16 * lpCount s.size + 256 * csCount s.size + 2 ^ 16)

/-! Fuses and life cycle (04 R106, R107, R128, R132, R135). -/

/-- A fuse word. -/
def fuseW (s : State) (i : Nat) : Word := tgetD s.otp.fuse i 0

/-- Blow bits of a fuse word. -/
def blow (s : State) (i : Nat) (w : Word) : State :=
  let v := fuseW s i ||| w
  if v = 0 then s else { s with otp := { s.otp with fuse := tset s.otp.fuse i v } }

/-- Code of a life-cycle state. -/
def lcCode : LcState → Nat
  | .blank => 0
  | .testLocked => 1
  | .testUnlocked => 2
  | .manuf => 3
  | .prod => 4
  | .analysis => 6
  | .scrap => 7

/-- The state of a code. -/
def lcOf : Nat → Option LcState
  | 0 => some .blank
  | 1 => some .testLocked
  | 2 => some .testUnlocked
  | 3 => some .manuf
  | 4 => some .prod
  | 6 => some .analysis
  | 7 => some .scrap
  | _ => none

/-- Unlock tokens spent. -/
def tokensSpent (s : State) : Nat := popcount 8 (fuseW s 0x40).toNat

/-- Pairs with a nonzero intent word. -/
def recordsUsed (s : State) : Nat := (List.range 32).countP (fun n => fuseW s (2 * n) != 0)

/-- The words of a root bank. -/
def bankWords (s : State) (b : Nat) : List Word := (List.range 16).map (fun i => fuseW s (b + i))

/-- A bank whose DONE word is complete holds a root, neither all zero nor all ones. -/
def rootPresent (s : State) : Bool :=
  let has := fun (b : Nat) => fuseW s (b + 16) == 0xFFFFFFFF#32 && !(bankWords s b).all (· == 0) &&
    !(bankWords s b).all (· == 0xFFFFFFFF#32)
  has 0xC0 || has 0xD1

/-- The minimum SVN of OTP: a thermometer of 64 bits (03 R77). -/
def minSvn (s : State) : Nat := popcount 32 (fuseW s 0x90).toNat + popcount 32 (fuseW s 0x91).toNat

/-! Debug levels (13 R433, R442). -/

/-- The levels a source holds. -/
def levelsOf (s : State) (src : Nat) : BitVec 5 :=
  ((tget s.dbg.grants src).map (fun g => g.made.foldl (fun a m => a ||| m.2.1) 0)).getD 0

/-- A source holds a level. -/
def holdsLevel (s : State) (src l : Nat) : Bool := (levelsOf s src).getLsbD l

/-- An M source holds a level. -/
def mLevel (s : State) (l : Nat) : Bool := holdsLevel s 0 l || holdsLevel s 17 l

/-- The levels held by any source. -/
def anyLevels (s : State) : Nat := (s.dbg.grants.foldl (fun (a : BitVec 5) g => a ||| levelsOf s g.1) 0).toNat

/-- A written bit of the debug space. -/
def dpWord (s : State) (off : Nat) : Word := tgetD s.dbg.dp off 0

/-- Invasive debug is enabled: DP_INVASIVE.EN. -/
def invasiveOn (s : State) : Bool := wbit (dpWord s 4) 0

/-! Firmware images (03 R75, R76). -/

/-- The header fields of a firmware image and its body (03 R75). -/
structure FwImage where
  magic : Nat
  hdrVersion : Nat
  svn : Nat
  minIp : Nat
  bodyLen : Nat
  bodyDigest : Bytes
  body : Bytes
  deriving DecidableEq, Repr

/-- The header fields of an image given as bytes. -/
def imageOf (b : Bytes) : FwImage :=
  { magic := leAt b 0 4, hdrVersion := leAt b 4 4, svn := leAt b 8 4, minIp := leAt b 12 4,
    bodyLen := leAt b 16 4, bodyDigest := slice b 0x20 64, body := slice b 0x2000 (leAt b 16 4) }

/-- The checks of an image, in their order; they all must pass (03 R76). -/
def imageOk (s : State) (i : FwImage) (v : FwVerdict) : Bool :=
  i.magic == 0x57465654 && i.hdrVersion == 1 && decide (i.minIp ≤ ipVersionW.toNat) && v.keys && v.mldsa && v.ecdsa &&
  i.bodyLen % 64 == 0 && decide (i.bodyLen ≤ 385024) && i.body.length == i.bodyLen && measure 1 i.body == i.bodyDigest &&
  decide (minSvn s ≤ i.svn)

/-! BCP_GET_INFO and BCP_QUERY (03 R98, 11 R379). -/

/-- DOMAIN_ID, or 0. -/
def domainId (s : State) : Nat := (s.dom.policy.map (·.domainId)).getD 0

/-- The words of BCP_GET_INFO. -/
def infoWords (s : State) : List Word :=
  [tvdIdW, ipVersionW, configW s,
   toW (lcCode s.otp.lc + 16 * tokensSpent s + 256 * b2n s.aon.testRoot + 512 * b2n (invasiveOn s)),
   if s.aon.stage = 15 then 0 else toW (s.hub.svn % 64 + 256 * s.hub.slot + 512 * b2n s.hub.stagedPending),
   toW (domainId s), toW (domainId s / 2 ^ 32), toW (s.dom.vertex.getD 0 + 2 ^ 16 * b2n (isMember s))]

/-- The 10 ms of the timestamp in which a time lies. -/
def tenMs (ts : Nat) : Nat := ts / 10000000

/-- What partitions are shown of the sensors and of the power: what the first query of these 10 ms found of their last boundary. -/
def shownNow (s : State) (m : Meas) : Nat × Word × Word × Nat :=
  match s.hub.shown with
  | some x => if x.1 = tenMs s.aon.ts then x else (tenMs s.aon.ts, m.hot10, m.cool10, m.power10)
  | none => (tenMs s.aon.ts, m.hot10, m.cool10, m.power10)

/-- The words of BCP_QUERY, coarsened for a partition. -/
def queryWords (s : State) (src : Nat) (m : Meas) : List Word :=
  let c := fun (n : Nat) => toW (if isM src then n else n / 50000 * 50000)
  let t := fun (w : Word) => BitVec.ofInt 32 (w.toInt / 8 * 8)
  let x := shownNow s m
  [c m.engKHz, c m.csKHz, c m.hubKHz, c m.regKHz] ++
  (if isM src then [m.hot, m.cool, toW m.powerMw] else [t x.2.1, t x.2.2.1, toW (x.2.2.2 / 1000 * 1000)]) ++
  [toW m.limitMw,
   reg s 0x5004, reg s 0x1A00C, reg s 0x5040, reg s 0x1A014]

/-- BCP_GET_INFO (03 R98). -/
def execBcpGetInfo (src : Nat) (s : State) : Host.Outcome State Fault Refusal :=
  runCmd src .getInfo (fun s k => reply s src .getInfo k.tag stOk (infoWords s)) s

/-- BCP_QUERY (11 R379). -/
def execBcpQuery (src : Nat) (meas : Meas) (s : State) : Host.Outcome State Fault Refusal :=
  runCmd src .query (fun s k =>
    let t := if isM src then s else { s with hub := { s.hub with shown := some (shownNow s meas) } }
    reply t src .query k.tag stOk (queryWords s src meas)) s

end Sys2Proof.Machine
end

