-- ==== Sys2Proof/Machine/Store.lean ====
section
/-! DEFINITION. The persistent store: records sealed and written in order, at most 16 outstanding, and the staging of a
firmware image (02 R48, R49; 03 R74, R78, R80). -/

namespace Sys2Proof.Machine

/-- A STORE key exists: in its slot, or derived by the boot ROM from the root in force (02 R49, 03 R80). -/
def storeReady (s : State) : Bool := (slotAt s 1).state == 1 || onTestRoot s || (rootBank s).isSome

/-- The STORE key. -/
def storeKey (s : State) : BitVec 256 := if (slotAt s 1).state = 1 then (slotAt s 1).key else storeKeyOf (rootBytes s)

/-- The payload of a record of the store under a key: what the port delivers must open (02 R49). -/
def openRec (k : BitVec 256) (f : Flash) (i : Nat) : Option Bytes := (tget f i).bind (storeOpen k i)

/-- The payloads of `n` records from `base` on; none when one of them does not open. -/
def openRecs (k : BitVec 256) (f : Flash) (base n : Nat) : Option Bytes :=
  (List.range n).foldl (fun a i => match a, openRec k f (base + i) with
    | some x, some y => some (x ++ y)
    | _, _ => none) (some [])

/-- Read requests for `n` records from `base` on, each answered before the seventeenth after it goes out (02 R48). -/
def askRecs (s : State) (base n : Nat) : State := emits s ((List.range n).map (fun i => .storeReq false (base + i) []))

/-- A source's store write has failed. -/
def storeFail (s : State) (src : Option Nat) : State :=
  match src with
  | some x => { s with hub := { s.hub with storeFailed := if s.hub.storeFailed.contains x then s.hub.storeFailed
      else s.hub.storeFailed ++ [x] } }
  | none => s

/-- Seal a record and write it; sealing counts one use of the STORE slot (02 R49, 04 R124). -/
def storePush (s : State) (addr : Nat) (payload : Bytes) (src : Option Nat) : State :=
  let u := if (slotAt s 1).state = 1 then useKey s 1 4 else (stOk, s)
  if u.1 ≠ stOk then storeFail u.2 src
  else
    let rec_ := storeSeal (storeKey u.2) addr payload
    let s := u.2
    let n := s.hub.store.length
    let s := { s with hub := { s.hub with store := s.hub.store ++ [{ addr := addr, data := rec_, src := src }] } }
    if n < 16 then emit s (.storeReq true addr rec_) else s

/-- Writes of a source that the store has not confirmed. -/
def storeWaits (s : State) (src : Nat) : Bool := s.hub.store.any (fun r => r.src == some src)

/-- The oldest store write is answered: the source that waited, and whether nothing more of it waits. -/
def storeAnswer (s : State) (ok : Bool) : State × Option Nat :=
  match s.hub.store with
  | [] => (s, none)
  | r :: rest =>
    let s := { s with hub := { s.hub with store := rest } }
    let s := if ok then s else storeFail (ioEvent s 0xFF 0 stInternal 0 0 0 (64 * r.addr)) r.src
    let s := match rest[15]? with
      | some x => emit s (.storeReq true x.addr x.data)
      | none => s
    match r.src with
    | some x => (s, if storeWaits s x then none else some x)
    | none => (s, none)

/-- Take note of whether a write of a source has failed. -/
def takeFailed (s : State) (src : Nat) : Bool × State :=
  (s.hub.storeFailed.contains src, { s with hub := { s.hub with storeFailed := s.hub.storeFailed.filter (· != src) } })

/-! Staging an image (03 R74, R78, R80). -/

/-- First record of an image slot. -/
def slotBase (slot : Nat) : Nat := if slot = 0 then 0x4000 else 0x8000

/-- The slot an image is staged into (03 R78, R80). At stage 0xF entered from stage 0x2 (04 R134) the pointer has not been
read: then slot A, with write count 1, as where neither copy opens. DESIGN CHOICE (log 55). -/
def stageSlot (s : State) : Nat :=
  if s.aon.stage = 15 then match s.hub.ptr with
    | none => 0
    | some p => 1 - p.1
  else 1 - s.hub.slot

/-- Write both copies of the pointer: the slot, and a write count one higher. Where they stand in the payload is the
model's choice. DESIGN CHOICE (log 18). -/
def writePtr (s : State) (slot src : Nat) : State :=
  let c := ((s.hub.ptr.map (·.2)).getD 0 + 1) % 2 ^ 32
  let pay := leBytes 4 slot ++ leBytes 4 c
  let s := { s with hub := { s.hub with ptr := some (slot, c) } }
  storePush (storePush s 0 pay (some src)) 1 pay (some src)

/-- Write records `i` to `j - 1` of an image. -/
def writeRecords (s : State) (slot src : Nat) (b : Bytes) (i j : Nat) : State :=
  (List.range (j - i)).foldl (fun s n => storePush s (slotBase slot + i + n) (slice b (48 * (i + n)) 48) (some src)) s

/-- Go on with a fragment none of whose writes waits any more. -/
def fwContinue (s : State) (src : Nat) (k : Packet) : State :=
  let f := takeFailed s src
  let s := f.2
  if f.1 then reply s src .fwStage k.tag stInternal []
  else match s.hub.stagedLast with
    | none => replyPending s src k []
    | some (0, _) => reply s src .fwStage k.tag stNotPermitted []
    | some (1, v) =>
      let s := writePtr { s with hub := { s.hub with stagedLast := some (2, v) } } (stageSlot s) src
      if storeWaits s src then s else reply s src .fwStage k.tag stInternal []
    | some (_, v) =>
      let slot := (s.hub.ptr.map (·.1)).getD 0
      reply { s with hub := { s.hub with stagedPending := true } } src .fwStage k.tag stOk [toW v, toW slot]

/-- BCP_FW_STAGE: one fragment. -/
def fwStage (s : State) (src : Nat) (k : Packet) (v : FwVerdict) : State :=
  let s := if k.more then s else absorbZero s (9 + (imageOf k.blob).body.length)
  let old := (pw k.params 0).toNat
  let new := k.blob.length
  if !storeReady s then reply s src .fwStage k.tag stNotPermitted []
  else
    let slot := stageSlot s
    let img := imageOf k.blob
    let s := { s with hub := { s.hub with
      stagedLast := if k.more then none else some (b2n (imageOk s img v), img.svn), storeFailed := s.hub.storeFailed.filter (· != src) } }
    let s := if old = 0 ∧ s.aon.stage ≠ 15 then
        writePtr { s with hub := { s.hub with stagedPending := false } } s.hub.slot src
      else s
    let last := if k.more then new / 48 else ceilDiv new 48
    let s := startBg (writeRecords s slot src k.blob (old / 48) last) src .fwStage (namesOf .fwStage k.params)
    if storeWaits s src then s else fwContinue s src k

/-- BCP_FW_STAGE (03 R78). -/
def execBcpFwStage (src : Nat) (v : FwVerdict) (s : State) : Host.Outcome State Fault Refusal :=
  runCmd src .fwStage (fun s k => fwStage s src k v) s

end Sys2Proof.Machine
end

