-- ==== Sys2Proof/Machine/Spdm.lean ====
section
/-! DEFINITION. SPDM: connections and sessions, the requests the block answers, the hybrid extension, measurements and
the stored chains (05 R137, R141 to R154). What a message means stands in its command's operands; the bytes of DMTF's
framing are free (log 8). -/

namespace Sys2Proof.Machine

/-! Connections (05 R146, R147). -/

/-- A frame that carries a domain control message, a reset notice or a Cadence event: the header of 05 R170 with its
sender. Any other management frame carries SPDM. DEDUCED (log 8). -/
def isCtl (f : InFrame) : Bool :=
  let c := leAt f.payload 0 1
  16 ≤ f.payload.length && ((1 ≤ c && c ≤ 9) || c == 0x10 || c == 0x11) && leAt f.payload 1 1 == 0 && leAt f.payload 2 2 == f.hdr.src

/-- An SPDM frame of a peer. -/
def isSpdmFrame (v : Nat) (f : InFrame) : Bool := f.hdr.op == opMgmt && !f.hdr.mbxs && f.hdr.src == v && !isCtl f

/-- The vertex is the PARENT of a pending enrolment (05 R147). -/
def pendingParent (s : State) (v : Nat) : Bool := s.dom.enrol.any (fun e => e.parent == v && !e.committed)

/-- A peer whose bootstrap session is open; its BOOT frames do not stay in the inbox. -/
def spdmPeer (s : State) (v : Nat) : Bool := s.dom.opening.contains v || pendingParent s v

/-- An SPDM frame to a peer goes out under the bootstrap seal: from a block that is no member yet, and from a committed member
to the vertices enrolling beneath it (05 R146, R147). -/
def sendsBoot (s : State) (v : Nat) : Bool := !isMember s || s.dom.opening.contains v

/-- Take the message at hand on a connection: the admitted packet of a mailbox, with SECURED as the message is, stays
until its reply; a peer's frame leaves the inbox. -/
def spdmTake (s : State) (c : Conn) (secured : Bool) : Option State :=
  match c with
  | .mbox src => match packetOf s src .spdm with
    | some k => if hubTakes s src && !k.more && wbit (pw k.params 0) 0 == secured then some (hubTook s src) else none
    | none => none
  | .peer v => if !fwActs s then none else match popInbox s (isSpdmFrame v) with
    | some (_, t) => some t
    | none => if spdmPeer s v then some s else none

/-- A BCP_SPDM reply: SECURED as in the request, and the bytes of the response in fragments of at most 16,376; the bytes
are free (03 R100, R89; log 8). -/
def spdmReply (s : State) (src : Nat) (k : Packet) : State :=
  let n := freeN s
  let b := freeBytes n.2 (n.1 % 65537)
  let cut := (List.range (max 1 (ceilDiv b.1.length 16376))).map (fun i => slice b.1 (16376 * i) 16376)
  replyFrags b.2 src .spdm k.tag (cut.map (fun x => [pw k.params 0, toW x.length] ++ bytesWords x))

/-- Queue the frames of an SPDM message to a peer: sealed under the pair's Chord between members, else under the
bootstrap seal (05 R146). -/
def spdmSend (s : State) (v : Nat) : State :=
  let n := freeN s
  let b := freeBytes n.2 (n.1 % 65537)
  (cutReply 17 b.1).foldl (fun s x =>
    pushTx s { TxFrame.blank with dst := v, op := opMgmt, boot := sendsBoot s v, payload := x, origin := .own }) b.2

/-- Give a response on a connection; to a peer, where this block is the requester, the next message of the exchange. -/
def spdmSay (s : State) (c : Conn) (rsp : SpdmRsp) : State :=
  let s := emit s (.spdm c rsp)
  match c with
  | .mbox src => match packetOf s src .spdm with
    | some k => spdmReply s src k
    | none => s
  | .peer v => spdmSend s v

/-! Sessions (05 R150 to R152). -/

/-- A session of a connection. -/
def sessionOf (s : State) (c : Conn) (sid : Nat) : Option Session :=
  match tget s.ident.sessions sid with
  | some x => if x.conn = c then some x else none
  | none => none

/-- Replace a session. -/
def setSession (s : State) (sid : Nat) (x : Session) : State :=
  { s with ident := { s.ident with sessions := tset s.ident.sessions sid x } }

/-! Records sealed under SESSION keys (05 R150, R153, R164). -/

/-- Seal a record of the block's own under the SESSION key of a peer number and kind, through the management channel (05 R137);
none without IDENTITY or a channel. Its additional data is empty. DESIGN CHOICE (log 55). -/
def sealOwn (s : State) (peer kind : Nat) (nonce p : Bytes) : Option Bytes × State :=
  if (slotAt s 2).state ≠ 1 ∨ !channelUp s then (none, s)
  else sealUnder (sessionKey s peer kind) sessionSlot 7 nonce [] p

/-- The peer number and kind of a session record (05 R153). -/
def recordOf : Conn → Nat × Nat
  | .mbox src => (src, 3)
  | .peer v => (v, 2)

/-- What a session record holds; the spec gives it no layout. DESIGN CHOICE (log 55). -/
def sessionBytes (x : Session) : Bytes :=
  leBytes 1 (b2n x.requester + 2 * b2n x.mutualAuth + 4 * b2n x.finish + 8 * b2n x.kem + 16 * b2n x.hybrid + 32 * b2n x.rooted) ++
  x.th2 ++ x.ems ++ x.transcript ++ x.kpq ++ x.thHyb ++ keyBytes x.tk ++ x.leaf

/-- A session leaves hub RAM: its record is sealed and written, with the session ID and the count of its writes as nonce. -/
def spillSession (s : State) (sid : Nat) : State :=
  match tget s.ident.sessions sid with
  | none => s
  | some x =>
    let n := tgetD s.ident.recCount sid 0 + 1
    let p := recordOf x.conn
    let r := sealOwn s p.1 p.2 (leBytes 4 sid ++ leBytes 8 n) (sessionBytes x)
    let s := r.2
    { s with ident := { s.ident with
      records := tset s.ident.records sid (r.1.getD []), recCount := tset s.ident.recCount sid n } }

/-- Sessions resident in hub RAM: those without a record. -/
def residents (s : State) : List Nat := (s.ident.sessions.map (·.1)).filter (fun i => (tget s.ident.records i).isNone)

/-- A session is used: it comes into hub RAM, and beyond 8 residents the one of the lowest ID goes to its record. Which one goes
is the model's choice. DESIGN CHOICE (log 55). -/
def loadSession (s : State) (sid : Nat) : State :=
  let s := { s with ident := { s.ident with records := tdel s.ident.records sid } }
  match if 8 < (residents s).length then (residents s).find? (· != sid) else none with
  | some i => spillSession s i
  | none => s

/-- A session ends: with it its debug grants and, on the fabric, the bootstrap (05 R147; 13 R435). -/
def endSession (s : State) (c : Conn) (sid : Nat) : State :=
  { s with
    ident := { s.ident with
      sessions := tdel s.ident.sessions sid, records := tdel s.ident.records sid, recCount := tdel s.ident.recCount sid }
    dbg := { s.dbg with grants := tmapV s.dbg.grants (fun _ g => { g with made := tdel g.made sid }) }
    dom := { s.dom with opening := match c with
      | .peer v => s.dom.opening.filter (· != v)
      | .mbox _ => s.dom.opening } }

/-- A session past FINISH. -/
def finished (s : State) (c : Conn) (sid : Nat) : Bool := (sessionOf s c sid).any (·.finish)

/-- A message has come in a session since its FINISH (05 R151). -/
def markUsed (s : State) (c : Conn) (sid : Nat) : State :=
  match sessionOf s c sid with
  | some x => if x.finish then setSession s sid { x with used := true } else s
  | none => s

/-- Handle a message: outside a session, or in one, which needs the management channel (05 R137) and a session of this
connection, brought into hub RAM; `f` gives the response, or none when it must wait. -/
def spdmRun (c : Conn) (sid : Option Nat) (f : State → State × Option SpdmRsp) (s : State) : State :=
  match spdmTake s c sid.isSome with
  | none => s
  | some s =>
    let bad := fun (e : SpdmErr) => spdmSay s c (.error e)
    match sid with
    | some n =>
      if !channelUp s then bad .unspecified
      else if (sessionOf s c n).isNone then bad .unexpected
      else
        let r := f (loadSession s n)
        let t := if finished s c n then markUsed r.1 c n else r.1
        match r.2 with
        | some x => spdmSay t c x
        | none => t
    | none =>
      let r := f s
      match r.2 with
      | some x => spdmSay r.1 c x
      | none => r.1

/-- Run a request in a session, which must be past FINISH. -/
def inSession (c : Conn) (sid : Nat) (f : State → Session → State × Option SpdmRsp) (s : State) : State :=
  spdmRun c (some sid) (fun s => match sessionOf s c sid with
    | some x => if x.finish then f s x else (s, some (.error .unexpected))
    | none => (s, some (.error .unexpected))) s

/-- Run a request that is answered in a session or outside one; a session must be past FINISH. -/
def anywhere (c : Conn) (sid : Option Nat) (f : State → State × Option SpdmRsp) (s : State) : State :=
  spdmRun c sid (fun s => match sid with
    | some n => if finished s c n then f s else (s, some (.error .unexpected))
    | none => f s) s

/-- What FINISH settles in a session (05 R149; 13 R434). -/
def sessionFinish (x : Session) (f : SpdmFinish) : Session :=
  { x with finish := true, mutualAuth := f.mutualAuth, th2 := f.th2, ems := f.ems, leaf := f.leaf, rooted := f.rooted }

/-- A session that KEY_EXCHANGE opens. -/
def Session.open (c : Conn) (requester : Bool) : Session :=
  { conn := c, requester := requester, mutualAuth := false, finish := false, used := false, updates := 0, th2 := [], ems := [], kem := false,
    transcript := [], kpq := [], hybrid := false, thHyb := [], tk := 0, leaf := [], rooted := false }

/-- Sessions in which this block responds to a peer: at most 8 at once (05 R164). -/
def peerSessions (s : State) : Nat := tcount s.ident.sessions (fun _ x => !x.requester && match x.conn with
  | .peer _ => true
  | .mbox _ => false)

/-- KEY_EXCHANGE, and for a peer FINISH with it (05 R144, R149, R150). -/
def keyExchange (s : State) (c : Conn) (requester : Bool) (fin : Option SpdmFinish) : State × Option SpdmRsp :=
  if !s.ident.avail ∨ s.hub.drbgRefuse then (s, some (.error .unspecified))
  else if 32 ≤ s.ident.sessions.length then (s, some (.error .sessionLimit))
  else if fin.any (!·.ok) then (s, some (.error .unspecified))
  else
    let s := (draw s 48).2
    let id := s.ident.nextSession
    let x := match fin with
      | some f => sessionFinish (Session.open c requester) f
      | none => Session.open c requester
    let s := loadSession { s with ident := { s.ident with sessions := tset s.ident.sessions id x, nextSession := id + 1 } } id
    let s := match c with
      | .peer v => { s with dom := { s.dom with enrol := s.dom.enrol.map (fun e =>
          if requester && e.parent == v then { e with accepted := true } else e) } }
      | .mbox _ => s
    (s, some (.session id))

/-- SPDM_KEY_EXCHANGE (05 R150): `requester` says that this block opens it; `fin` what FINISH settled, on the fabric,
where FINISH has no row of its own. A ninth peer waits (05 R164). -/
def execSpdmKeyExchange (conn : Conn) (requester : Bool) (fin : Option SpdmFinish) (s : State) :
    Host.Outcome State Fault Refusal :=
  runEng (fun s => match conn with
    | .mbox _ => if requester then s else spdmRun conn none (fun s => keyExchange s conn false none) s
    | .peer _ => if !requester && decide (8 ≤ peerSessions s) then s
      else spdmRun conn none (fun s => keyExchange s conn requester fin) s) s

/-! The hybrid extension (05 R151, R152). -/

/-- HYB_KEM, once and first after FINISH: its request and response, each with its message code, enter the transcript. -/
def hybKem (s : State) (sid : Nat) (x : Session) (ek ct kpq : Bytes) : State × Option SpdmRsp :=
  if x.kem ∨ x.hybrid ∨ x.used then (s, some (.error .unexpected))
  else if ek.length ≠ 1568 ∨ ct.length ≠ 1568 ∨ s.hub.drbgRefuse then (s, some (.error .unspecified))
  else
    let s := (draw s 32).2
    (setSession s sid { x with kem := true, transcript := leBytes 2 1 ++ ek ++ leBytes 2 1 ++ ct, kpq := kpq }, some (.content ct))

/-- HYB_KEM (05 R151). -/
def execHybKem (conn : Conn) (sid : Nat) (ek ct kpq : Bytes) (s : State) : Host.Outcome State Fault Refusal :=
  runEng (inSession conn sid (fun s x => hybKem s sid x ek ct kpq)) s

/-- BinConcat of SPDM 1.3: length, version, label, context. PRESUMED (log 8). -/
def binConcat (n : Nat) (label : String) (ctx : Bytes) : Bytes := leBytes 2 n ++ ascii "spdm1.3 " ++ ascii label ++ ctx

/-- TK (05 R152). -/
def transferKey (x : Session) (th : Bytes) : BitVec 256 :=
  let prk := hmacSha3 x.kpq x.ems
  keyOf ((hmacSha3 prk (binConcat 32 "tvd hybrid" th ++ [1])).take 32)

/-- The session becomes hybrid. -/
def hybridOf (x : Session) : Session :=
  let th := sha3 (x.th2 ++ x.transcript)
  { x with hybrid := true, thHyb := th, tk := transferKey x th }

/-- The seed of this boot's alias. -/
def aliasSeed (s : State) : Bytes := (s.ident.aliasKey.map (·.1)).getD []

/-- Bytes 0 to 2,655 of the alias link of the hybrid chain (05 R145). -/
def aliasBody (s : State) : Bytes :=
  [2, 0, 0, 0] ++ sha3 s.ident.aliasCert ++ List.replicate 12 0 ++ mldsaPub (aliasSeed s)

/-- The alias link, signed by the DeviceID once a boot (05 R141, R145). -/
def aliasLink (s : State) : Bytes := aliasBody s ++ s.ident.aliasSig ++ [0]

/-- HYB_CHAIN (05 R151): the stored links and the alias link, which changes with the firmware. -/
def execHybChain (conn : Conn) (sid : Option Nat) (s : State) : Host.Outcome State Fault Refusal :=
  runEng (anywhere conn sid (fun s => (s, some (.content (s.ident.hybrid ++ aliasLink s))))) s

/-- The DeviceID's ML-DSA-87 public key and its signature of that key. -/
def deviceKey (s : State) (seed : Bytes) : State × Option SpdmRsp :=
  let n := freeN s
  (n.2, some (.content (mldsaPub seed ++ mldsaSig seed (mldsaPub seed) n.1)))

/-- HYB_GET_KEY (05 R151): the DeviceID key and its signature, 2,592 and 4,627 bytes, in MANUF. -/
def execHybGetKey (conn : Conn) (sid : Option Nat) (s : State) : Host.Outcome State Fault Refusal :=
  runEng (anywhere conn sid (fun s =>
    if s.otp.lc ≠ .manuf then (s, some (.error .unsupportedRequest))
    else match s.ident.devId with
      | none => (s, some (.error .unspecified))
      | some d => deviceKey s d.1)) s

/-! Certificates (05 R141, R143, R149). -/

/-- The X.509 chain of slot 0: the stored chain and the alias certificate. -/
def certChain (s : State) : Bytes := s.ident.x509 ++ s.ident.aliasCert

/-- Write a chain of the identity store and the record of lengths; the reply waits for the store (05 R143). -/
def writeChain (s : State) (src base : Nat) (b : Bytes) : State :=
  let s := { s with hub := { s.hub with storeFailed := s.hub.storeFailed.filter (· != src) } }
  let s := (List.range (ceilDiv b.length 48)).foldl (fun s i => storePush s (base + i) (slice b (48 * i) 48) (some src)) s
  storePush s 0xC002 (leBytes 4 s.ident.x509.length ++ leBytes 4 s.ident.hybrid.length) (some src)

/-- The answer to a chain that has been written. -/
def chainDone (s : State) (src : Nat) : State :=
  let f := takeFailed s src
  spdmSay f.2 (.mbox src) (if f.1 then .error .unspecified else .content [])

/-- Store a chain in MANUF. -/
def setChain (s : State) (src base room : Nat) (b : Bytes) (put : Identity → Identity) : State × Option SpdmRsp :=
  if s.otp.lc ≠ .manuf then (s, some (.error .unsupportedRequest))
  else if room < b.length then (s, some (.error .unspecified))
  else
    let s := writeChain { s with ident := put s.ident } src base b
    if storeWaits s src then (startBg s src .spdm [], none)
    else
      let f := takeFailed s src
      (f.2, some (if f.1 then .error .unspecified else .content []))

/-- HYB_SET_CHAIN (05 R151). -/
def execHybSetChain (src : Nat) (sid : Option Nat) (chain : Bytes) (s : State) : Host.Outcome State Fault Refusal :=
  runEng (anywhere (.mbox src) sid (fun s => setChain s src 0xC400 49152 chain (fun i => { i with hybrid := chain }))) s

/-- SPDM_SET_CERTIFICATE (05 R149). -/
def execSpdmSetCertificate (src : Nat) (sid : Option Nat) (chain : Bytes) (s : State) : Host.Outcome State Fault Refusal :=
  runEng (anywhere (.mbox src) sid (fun s => setChain s src 0xC040 46080 chain (fun i => { i with x509 := chain }))) s

/-- SPDM_GET_CSR (05 R149): the bytes of the request are DMTF's. -/
def execSpdmGetCsr (conn : Conn) (sid : Option Nat) (s : State) : Host.Outcome State Fault Refusal :=
  runEng (anywhere conn sid (fun s =>
    if s.otp.lc ≠ .manuf then (s, some (.error .unsupportedRequest))
    else
      let n := freeN s
      let b := freeBytes n.2 (n.1 % 65537)
      (b.2, some (.content b.1)))) s

/-! Measurements (05 R154). -/

/-- Bits as a byte, the first lowest. -/
def bitByte (l : List Bool) : Bytes := leBytes 1 (l.foldr (fun b n => b2n b + 2 * n) 0)

/-- tvd_lp_lane_up of a port. -/
def laneUps (s : State) (port : Nat) : Bytes := bitByte ((lanesOf port).map (fun k => (laneAt s k).up))

/-- A measurement block: its DMTF type and contents; none for an index the table does not list. -/
def measBlock (s : State) (i : Nat) : Option (Nat × Bytes) :=
  let pol := s.dom.policy
  match i with
  | 1 => some (0x00, leBytes 48 Config.romDigest.toNat)
  | 2 => some (0x01, s.hub.digest)
  | 3 => some (0x07, leBytes 4 s.hub.svn ++ leBytes 4 (minSvn s))
  | 4 => some (0x02, leBytes 4 ipVersionW.toNat ++ leBytes 4 (configW s).toNat ++ (List.range 8).flatMap (laneUps s) ++
      bitByte ((List.range 8).map (portIsolated s)) ++ List.replicate 7 0)
  | 5 => some (0x02, s.ladder.repDigest)
  | 6 => some (0x03, leBytes 1 (lcCode s.otp.lc) ++ leBytes 1 (tokensSpent s) ++
      bitByte [s.aon.testRoot, invasiveOn s, s.otp.resumed] ++ leBytes 1 (anyLevels s) ++ [0, 0, 0, 0])
  | 7 => some (0x03, leBytes 8 (domainId s) ++ leBytes 4 s.dom.gen ++ leBytes 2 (s.dom.vertex.getD 0) ++ leBytes 1 s.dom.role ++
      [0] ++ leBytes 4 ((pol.map (·.serial)).getD 0) ++ ((pol.map (·.digest)).getD (List.replicate 48 0)) ++
      leBytes 2 ((pol.map (·.manager)).getD 0) ++ List.replicate 10 0)
  | 8 => some (0x03, (List.range 16).flatMap (fun p =>
      let r := partAt s p
      leBytes 1 (b2n r.live + 2 * r.tdisp) ++ (if r.live then leBytes 1 r.pasids.length ++ leBytes 2 r.kidCount else [0, 0, 0]) ++
        leBytes 4 r.gen))
  | _ => none

/-- Whether a block's contents are raw, and not a digest (05 R154). -/
def measRaw (i : Nat) : Bool := i != 1

/-- A block as the response lists it: index, type, form (1 raw), length, contents (log 8). -/
def measEntry (s : State) (i : Nat) : Bytes :=
  match measBlock s i with
  | some (t, b) => leBytes 1 i ++ leBytes 1 t ++ leBytes 1 (b2n (measRaw i)) ++ leBytes 2 b.length ++ b
  | none => []

/-- GET_MEASUREMENTS: index 0 asks how many there are, 0xFF for all; signed outside a session (05 R144, R149, R154). -/
def getMeasurements (s : State) (inSess : Bool) (i : Nat) (sig : Bool) : SpdmRsp :=
  if !sig && !inSess then .error .unsupportedRequest
  else if sig && !s.ident.avail then .error .unspecified
  else if i = 0 then .content [8]
  else if i = 0xFF then .content ((List.range 8).flatMap (fun j => measEntry s (j + 1)))
  else if (measBlock s i).isSome then .content (measEntry s i) else .error .unspecified

/-- SPDM_GET_MEASUREMENTS (05 R154). -/
def execSpdmGetMeasurements (conn : Conn) (sid : Option Nat) (index : Nat) (sig : Bool) (s : State) :
    Host.Outcome State Fault Refusal :=
  runEng (anywhere conn sid (fun s => (s, some (getMeasurements s sid.isSome index sig)))) s

/-! BCP_SPDM: the requests with no row of their own (05 R149). -/

/-- The versions of a connection: 1.2 and 1.3 on a mailbox, 1.3 on the fabric (05 R148). -/
def spdmVersions : Conn → Bytes
  | .mbox _ => [0x12, 0x13]
  | .peer _ => [0x13]

/-- The algorithms of 05 R148 by name, in the order of its table: the one choice NEGOTIATE_ALGORITHMS can end in (log 8). -/
def spdmAlgorithms : Bytes :=
  ascii "TPM_ALG_ECDSA_ECC_NIST_P384,TPM_ALG_SHA3_384,TPM_ALG_SHA3_384,secp384r1,AES-256-GCM,SPDM key schedule"

/-- The partition whose mailbox a connection is. -/
def connPart : Conn → Option Nat
  | .mbox src => srcPart src
  | .peer _ => none

/-- The Requester ID of a partition's interface (05 R142). -/
def ridOf (s : State) (p : Nat) : Nat := (fuseW s (0x320 + p / 2)).toNat / 2 ^ (16 * (p % 2)) % 2 ^ 16

/-- Answer a request that has no row of its own. -/
def spdmGeneric (s : State) (c : Conn) (req : SpdmReq) (sid : Option Nat) : State × Option SpdmRsp :=
  let sess := sid.bind (sessionOf s c)
  let past := sid.isNone || sess.any (·.finish)
  let guarded := fun (r : SpdmRsp) => if past then r else .error .unexpected
  let ident := fun (b : Bytes) => if s.ident.avail then SpdmRsp.content b else .error .unspecified
  match req with
  | .getVersion => (s, some (guarded (.content (spdmVersions c))))
  | .getCapabilities => (s, some (guarded (.content (leBytes 4 65536 ++ leBytes 4 65536))))
  | .negotiate offered => (s, some (guarded (if offered then .content spdmAlgorithms else .error .unspecified)))
  | .getDigests => (s, some (guarded (ident (sha3 (certChain s)))))
  | .getCertificate => (s, some (guarded (ident (certChain s))))
  | .challenge => (s, some (guarded (ident (sha3 (certChain s)))))
  | .finish f => match sid, sess with
    | some n, some x =>
      if x.finish then (s, some (.error .unexpected))
      else if f.ok then (setSession s n (sessionFinish x f), some (.content []))
      else (endSession s c n, some (.error .unspecified))
    | _, _ => (s, some (.error .unexpected))
  | .encapsulated => (s, some (.content []))
  | .heartbeat => (s, some (if sess.any (·.finish) then .content [] else .error .unexpected))
  | .keyUpdate => match sid, sess with
    | some n, some x => if x.finish then (setSession s n { x with updates := x.updates + 1 }, some (.content []))
      else (s, some (.error .unexpected))
    | _, _ => (s, some (.error .unexpected))
  | .chunk | .respondIfReady => (s, some (guarded (.content [])))
  | .tdispInfo rid => (s, some (guarded (match connPart c with
    | some p => if rid = ridOf s p then .content (leBytes 1 (partAt s p).tdisp) else .tdispError
    | none => .tdispError)))
  | .tdispOther => (s, some (guarded .tdispUnsupported))
  | .own => (s, none)
  | .unsupported => (s, some (guarded (.error .unsupportedRequest)))

/-- BCP_SPDM (05 R146; 03 R100): a fragment that is not the last is kept; a message with a row of its own waits for
it. -/
def execBcpSpdm (src : Nat) (req : SpdmReq) (sid : Option Nat) (s : State) : Host.Outcome State Fault Refusal :=
  runEng (fun s => match packetOf s src .spdm with
    | none => s
    | some k =>
      if k.more then if hubTakes s src then replyPending (hubTook s src) src k (repeatedWords .spdm k.params) else s
      else spdmRun (.mbox src) sid (fun s => spdmGeneric s (.mbox src) req sid) s) s

end Sys2Proof.Machine
end

