-- ==== Sys2Proof/Machine/Ide.lean ====
section
/-! DEFINITION. The host link: IDE_KM and the key port, and the TDISP states of partitions (02 R46, R47; 05 R155 to
R160). -/

namespace Sys2Proof.Machine

/-! IDE_KM (05 R155 to R158). -/

/-- A session may run IDE_KM: it is hybrid, or no policy is installed, or the policy allows classical sessions. -/
def ideAllowed (s : State) (x : Session) : Bool :=
  x.hybrid || match s.dom.policy with
    | none => true
    | some p => p.flags % 2 == 1

/-- Run an IDE_KM request: in a session of mailbox 0, permitted, with PortIndex 0. -/
def ideRun (sid port : Nat) (f : State → State × Option SpdmRsp) (s : State) : State :=
  inSession (.mbox 0) sid (fun s x =>
    if !ideAllowed s x then (s, some (.kpAck .unspecified))
    else if port ≠ 0 then (s, some (.kpAck .unsupportedPort))
    else f s) s

/-- The fields of an IDE key have values of their ranges. -/
def ideKeyOk (k : IdeKey) : Bool := k.stream < 256 && k.dir < 2 && k.sub < 3 && k.set < 2

/-- CONTEXT of the IDE check value (05 R153). -/
def ideCtx (k : IdeKey) (key : BitVec 256) (iv : Nat) : Bytes :=
  leBytes 1 k.stream ++ leBytes 1 k.dir ++ leBytes 1 k.sub ++ leBytes 1 k.set ++ keyBytes key ++ leBytes 8 iv

/-- Streams that hold keys. -/
def ideStreams (s : State) : List Nat := (s.ident.ide.map (·.key.stream)).dedup

/-- Send a key port transfer; its result is owed (02 R46, R47). -/
def keySend (s : State) (x : KeyXfer) : State :=
  emit { s with ident := { s.ident with keyQ := s.ident.keyQ ++ [x] } } (.keyReq x.op x.key x.hold x.iv)

/-- A transfer for an exchange, which waits for its result. -/
def keyAsk (s : State) (op : Nat) (k : IdeKey) (key : BitVec 256) (iv : Nat) : State :=
  startBg (keySend s { op := op, key := k, hold := key, iv := iv, fromBlock := false }) 0 .spdm []

/-- KEY_PROG (05 R157, R158). -/
def keyProg (s : State) (k : IdeKey) (key : BitVec 256) (iv : Nat) : State × Option SpdmRsp :=
  if !ideKeyOk k then (s, some (.kpAck .unsupportedValue))
  else if (slotAt s 2).state ≠ 1 then (s, some (.kpAck .unspecified))
  else
    let d := derive s (slotAt s 2).key "ide" (ideCtx k key iv)
    let s := d.2
    match s.ident.ide.find? (fun e => e.key == k) with
    | some e => (s, some (.kpAck (if e.check = d.1 then .ok else .unsupportedValue)))
    | none =>
      if 16 ≤ (ideStreams s).length ∧ !(ideStreams s).contains k.stream then (s, some (.kpAck .unspecified))
      else match lowestFree s with
        | none => (s, some (.kpAck .unspecified))
        | some n =>
          let s := fillSlot s n d.1 0xA 0x20#16 2 0 0
          let e : IdeEnt := { key := k, slot := n, slotGen := (slotAt s n).gen, check := d.1, go := false }
          (keyAsk { s with ident := { s.ident with ide := s.ident.ide ++ [e] } } 0 k key iv, none)

/-- A key is no longer programmed: its slot is freed. -/
def ideDrop (s : State) (k : IdeKey) : State :=
  match s.ident.ide.find? (fun e => e.key == k) with
  | none => s
  | some e =>
    let s := if (slotAt s e.slot).gen = e.slotGen then invalidateSlot s e.slot else s
    { s with ident := { s.ident with ide := s.ident.ide.filter (fun x => x.key != k) } }

/-- A K_SET_STOP of the stream that a locked partition uses puts it in ERROR (05 R160). -/
def ideStopUsers (s : State) (stream : Nat) : State :=
  s.parts.part.foldl (fun s p =>
    if p.2.live && p.2.ideStream == some stream && (p.2.tdisp == 1 || p.2.tdisp == 2) then
      { s with parts := { s.parts with errDue := if s.parts.errDue.contains p.1 then s.parts.errDue else s.parts.errDue ++ [p.1] } }
    else s) s

/-- The oldest transfer has failed (05 R156). -/
def keyFailed (s : State) (x : KeyXfer) (status : Nat) : State :=
  if x.op = 0 then
    let s := ideDrop s x.key
    if x.fromBlock then s else spdmSay s (.mbox 0) (.kpAck .unspecified)
  else
    let s := if status = stTimeout then s else ioEvent s 0xFF 0 status 0 0 0 0
    if x.fromBlock then s else spdmSay s (.mbox 0) (.error .unspecified)

/-- The oldest transfer is done. -/
def keyDone (s : State) (x : KeyXfer) : State :=
  match x.op with
  | 0 => if x.fromBlock then s else spdmSay s (.mbox 0) (.kpAck .ok)
  | 1 =>
    let s := { s with ident := { s.ident with ide := s.ident.ide.map (fun e => if e.key = x.key then { e with go := true } else e) } }
    if x.fromBlock then s else spdmSay s (.mbox 0) .goStopAck
  | _ =>
    let s := ideDrop s x.key
    if x.fromBlock then s else spdmSay s (.mbox 0) .goStopAck

/-- The oldest transfer leaves the queue, and its key the holding register. -/
def keyAnswer (f : State → KeyXfer → State) (s : State) : State :=
  match s.ident.keyQ with
  | [] => s
  | x :: rest => f { s with ident := { s.ident with keyQ := rest } } x

/-- A result of the key port: while the firmware does not act it is latched. -/
def keyResult (s : State) (status : Nat) : State :=
  if fwActs s then keyAnswer (fun s x => if status = 0 then keyDone s x else keyFailed s x stInternal) s
  else { s with ident := { s.ident with acks := s.ident.acks ++ [status] } }

/-- The firmware acts again and takes the latched results in order. -/
def takeAcks (s : State) : State :=
  if fwActs s then s.ident.acks.foldl keyResult { s with ident := { s.ident with acks := [] } } else s

/-- KEY_PORT_ACK (02 R47). -/
def execKeyPortAck (status : Nat) (s : State) : Host.Outcome State Fault Refusal :=
  runEng (fun s => keyResult s status) s

/-- KEY_PORT_TIMEOUT (02 R47): ST_TIMEOUT, and an IO event. -/
def execKeyPortTimeout (s : State) : Host.Outcome State Fault Refusal :=
  runFw (keyAnswer (fun s x => keyFailed (ioEvent s 0xFF 0 stTimeout 0 0 0 0) x stTimeout)) s

/-- IDE_KM_QUERY (05 R156). -/
def execIdeKmQuery (sid port : Nat) (s : State) : Host.Outcome State Fault Refusal :=
  runEng (ideRun sid port (fun s => (s, some (.ideQuery 0 16)))) s

/-- IDE_KM_KEY_PROG (05 R158): a derivation, which waits while a miss is pending (01 R23). -/
def execIdeKmKeyProg (sid port : Nat) (key : IdeKey) (data : BitVec 256) (iv : Nat) (s : State) :
    Host.Outcome State Fault Refusal :=
  runEng (fun s => if missPending s then s else ideRun sid port (fun s => keyProg s key data (iv % 2 ^ 64)) s) s

/-- IDE_KM_K_SET_GO (05 R156). -/
def execIdeKmKSetGo (sid port : Nat) (key : IdeKey) (s : State) : Host.Outcome State Fault Refusal :=
  runEng (ideRun sid port (fun s =>
    if !ideKeyOk key then (s, some (.kpAck .unsupportedValue)) else (keyAsk s 1 key 0 0, none))) s

/-- IDE_KM_K_SET_STOP (05 R156). -/
def execIdeKmKSetStop (sid port : Nat) (key : IdeKey) (s : State) : Host.Outcome State Fault Refusal :=
  runEng (ideRun sid port (fun s =>
    if !ideKeyOk key then (s, some (.kpAck .unsupportedValue))
    else (keyAsk (ideStopUsers s key.stream) 2 key 0 0, none))) s

/-! TDISP (05 R159, R160). -/

/-- Run a TDISP request of a partition's mailbox; its interface is the one that RID_TABLE names (05 R159). -/
def tdispRun (t : Tdi) (sid : Option Nat) (f : State → PartRec → State × SpdmRsp) (s : State) : State :=
  if 16 ≤ t.part then s
  else anywhere (.mbox (t.part + 1)) sid (fun s =>
    if !(partAt s t.part).live ∨ t.rid ≠ ridOf s t.part then (s, some .tdispError)
    else
      let r := f s (partAt s t.part)
      (r.1, some r.2)) s

/-- The lowest-numbered stream with keys set GO in both directions (05 R160; log 20). -/
def streamReady (s : State) : Option Nat :=
  let go := fun (st d : Nat) => s.ident.ide.any (fun e => e.go && e.key.stream == st && e.key.dir == d)
  lowestFrom (fun st => go st 0 && go st 1) 256 0

/-- TDISP_LOCK_INTERFACE (05 R160). -/
def execTdispLockInterface (tdi : Tdi) (sid : Option Nat) (s : State) : Host.Outcome State Fault Refusal :=
  runEng (tdispRun tdi sid (fun s r =>
    match streamReady s with
    | some st => if r.tdisp = 0 then (setPart s tdi.part { r with tdisp := 1, ideStream := some st }, .tdispOk) else (s, .tdispError)
    | none => (s, .tdispError))) s

/-- TDISP_START_INTERFACE (05 R160). -/
def execTdispStartInterface (tdi : Tdi) (sid : Option Nat) (s : State) : Host.Outcome State Fault Refusal :=
  runEng (tdispRun tdi sid (fun s r =>
    if r.tdisp = 1 then (setPart s tdi.part { r with tdisp := 2 }, .tdispOk) else (s, .tdispError))) s

/-- TDISP_STOP_INTERFACE (05 R160): the partition reset starts; CONFIG_UNLOCKED follows at its end. -/
def execTdispStopInterface (tdi : Tdi) (sid : Option Nat) (s : State) : Host.Outcome State Fault Refusal :=
  runEng (tdispRun tdi sid (fun s r =>
    (startPartReset (setPart s tdi.part { r with stopping := true }) tdi.part, .tdispOk))) s

/-- The interface report: the ranges of mailbox, partition block and context slots, the PASIDs, the key IDs with the
kinds of their regions (05 R159). Its layout is the model's. DESIGN CHOICE (log 8). -/
def reportBytes (s : State) (p : Nat) (r : PartRec) : Bytes :=
  let range := fun (b n : Nat) => leBytes 4 b ++ leBytes 4 n
  leBytes 1 (2 + r.slots.length) ++ range (mbOff (p + 1) 0) 0x100 ++ range (ptOff p 0) 0x1000 ++
  r.slots.flatMap (fun n => range (cxOff n 0) 0x100) ++
  leBytes 1 r.pasids.length ++ r.pasids.flatMap (leBytes 4) ++
  leBytes 2 r.kidCount ++ (List.range r.kidCount).flatMap (fun i =>
    leBytes 2 (r.kidBase + i) ++ leBytes 1 (((regionAt s (r.kidBase + i)).map (·.kind)).getD 0))

/-- TDISP_GET_INTERFACE_REPORT (05 R159). -/
def execTdispGetInterfaceReport (tdi : Tdi) (sid : Option Nat) (s : State) : Host.Outcome State Fault Refusal :=
  runEng (tdispRun tdi sid (fun s r => (s, if r.tdisp = 3 then .tdispError else .content (reportBytes s tdi.part r)))) s

end Sys2Proof.Machine
end

