-- ==== Sys2Proof/Machine/Mailbox.lean ====
section
/-! DEFINITION. The mailboxes and the TC0 mailbox stream: the words of a packet, its submission and admission, its
fragments, and the reading and release of replies (03 R82 to R95; 05 R169). -/

namespace Sys2Proof.Machine

/-! The mailbox registers (03 R82 to R84). -/

/-- The identity of a requester (03 R84). -/
def identOf (who : Requester) : Ident := if who.priv then .priv else .pasid who.pasid

/-- The mailbox is bound to another identity. -/
def boundOther (s : State) (n : Nat) (who : Requester) : Bool :=
  match (mb s n).bound with
  | some i => i != identOf who
  | none => false

/-- Words in the input buffer (MBX_IN_STATUS.WCOUNT). -/
def wcount (m : Mbox) : Nat := if m.busy then m.submitted else m.words.length

/-- Words of the present fragment not yet read (MBX_OUT_STATUS.WLEFT). -/
def wleft (m : Mbox) : Nat := ((m.replies.head?.map List.length).getD 0) - m.rd

/-- A write to MBX_IN_DATA or MBX_IN_CTRL was ignored. -/
def setDropped (s : State) (n : Nat) : State := setBits s (mbOff n 8) (toW (2 ^ 17))

/-- MBX_IN_DATA: append a word. -/
def mbxIn (s : State) (n : Nat) (w : Word) (who : Requester) : State :=
  let m := mb s n
  if m.busy ∨ 4098 ≤ m.words.length then setDropped s n
  else setMb s n { m with words := m.words ++ [w], bound := some (m.bound.getD (identOf who)) }

/-- MBX_IN_CTRL.CLEAR: the words go, an open blob is abandoned, and the mailbox is free. -/
def mbxClear (s : State) (n : Nat) : State :=
  let m := mb s n
  if m.busy then setDropped s n else setMb s n { m with words := [], blob := none, bound := none }

/-- MBX_OUT_DATA: the next word, and the state after it is read. -/
def mbxOut (s : State) (n : Nat) : Word × State :=
  let m := mb s n
  if wleft m = 0 then (0, setBits s (mbOff n 0x10) (toW (2 ^ 17)))
  else ((m.replies.headD []).getD m.rd 0, setMb s n { m with rd := m.rd + 1 })

/-- Release the present fragment (03 R89): the next one comes, or the source is no longer busy. A binding outlasts the
reply to a fragment of an open blob (03 R84). -/
def releaseReply (s : State) (n : Nat) : State :=
  let m := mb s n
  match m.replies with
  | [] => s
  | [_] => setMb s n { m with replies := [], rd := 0, released := false, busy := false, submitted := 0, words := [],
                              bound := if m.blob.isSome then m.bound else none }
  | _ :: rest => noteSaved (setMb s n { m with replies := rest, rd := 0, released := true }) n

/-! Admission (03 R88, R90, R91). -/

/-- A packet is the next fragment of the open blob (03 R88). -/
def nextFragment (m : Mbox) (opv flags : Nat) (tag : Word) : Bool :=
  match m.blob with
  | some b => opVal b.op == opv && b.tag == tag && (flags == 2 || flags == 3)
  | none => false

/-- The longest blob of an opcode (03 R88, R100, R104). -/
def blobMax : Op → Nat
  | .fwStage => 393216
  | .spdm => 65536
  | _ => 2 ^ 24

/-- FLAGS are valid for the opcode and the open blob (03 R85, R88). -/
def flagsOk (op : Op) (flags : Nat) (next : Bool) : Bool :=
  decide (flags < 4) && (flags % 2 == 0 || opBlobIn op) && (flags < 2 || next)

/-- The checks of a fragment against its blob: repeated parameters, the OFFSET of BCP_FW_STAGE, the longest blob. -/
def blobOk (op : Op) (p : List Word) (blob : Option Blob) (data : Bytes) : Bool :=
  decide (data.length ≤ blobMax op) &&
  match blob with
  | some b => b.fixed == repeatedWords op p && (op != .fwStage || (pw p 0).toNat == b.data.length)
  | none => op != .fwStage || pw p 0 == 0

/-- Order 4 of 03 R90, with what boot stage 0xF admits (03 R80). -/
def opRight (s : State) (src : Nat) (op : Op) : Bool :=
  (isM src || opForP op) && (s.aon.stage != 15 || (src == 0 && (op == .getInfo || op == .fwStage)))

/-- Admit the packet a source has submitted: orders 1 to 8 of 03 R90. The command itself runs as its own command of the
table; a fragment that is not the last of an opcode that waits for the whole blob is answered here. -/
def admitWords (s : State) (src : Nat) : State :=
  let m := mb s src
  let ws := m.words
  let h := (pw ws 0).toNat
  let opv := h / 2 ^ 24
  let flags := h / 2 ^ 16 % 256
  let tag := pw ws 1
  let p := ws.drop 2
  let next := decide (2 ≤ ws.length) && nextFragment m opv flags tag
  let m := { m with words := [], blob := if next then m.blob else none }
  let s := setMb s src m
  if ws.length < 2 then replyRaw s src opv 0 stBadLength none false
  else if ws.length ≠ h % 2 ^ 16 + 2 then replyRaw s src opv tag stBadLength none next
  else match opOf opv with
    | none => replyRaw s src opv tag stBadOpcode (some tag) false
    | some op =>
      if m.retTag = some tag then
        match m.retReply with
        | some (o, r) =>
          if o = op then setMb s src { m with replies := m.replies ++ [r], blob := none }
          else replyRaw s src opv tag stBadParam none false
        | none => replyRaw s src opv tag stBadParam none false
      else if !opRight s src op then reply s src op tag stNotPermitted []
      else if !opInState op s.otp.lc then reply s src op tag stLcState []
      else if !flagsOk op flags next then reply s src op tag stBadParam []
      else if !lenOk op p then reply s src op tag stBadLength []
      else
        let data := (m.blob.map (·.data)).getD [] ++ blobBytes op p
        if !(fieldsOk op p && blobOk op p m.blob data) then reply s src op tag stBadParam []
        else
          let k := { op := op, tag := tag, params := p, more := flags % 2 == 1, blob := data : Packet }
          if k.more ∧ op ≠ .fwStage then
            match admitScope s src op p with
            | some st => reply s src op tag st []
            | none => replyPending s src k (repeatedWords op p)
          else setMb s src { m with packet := some k }

/-- The firmware takes packets: it runs, and no self-test holds it. -/
def hubAdmits (s : State) : Bool := s.hub.run == .running && !s.hub.selfTest && (s.aon.stage == 6 || s.aon.stage == 15)

/-- A source whose submitted packet has not been admitted. -/
def unadmitted (m : Mbox) : Bool := m.busy && m.packet.isNone && m.replies.isEmpty

/-- Admit every packet that waits for the firmware (03 R92, 13 R443). -/
def admitAll (s : State) : State :=
  if hubAdmits s then
    (List.range 18).foldl (fun s n => if unadmitted (mb s n) then admitWords s n else s) s
  else s

/-- Submit the words of a source as one packet. -/
def submit (s : State) (src : Nat) : State :=
  let m := mb s src
  let s := setMb s src { m with busy := true, submitted := m.words.length }
  if hubAdmits s then admitWords s src else s

/-- MBX_IN_CTRL.GO. -/
def mbxGo (s : State) (n : Nat) : State := if (mb s n).busy then setDropped s n else submit s n

/-- A write of MBX_IN_CTRL: CLEAR wins over GO (03 R83). Another identity is refused, but the driver may CLEAR. -/
def inCtrl (s : State) (n : Nat) (w : Word) (who : Requester) : Option State :=
  if boundOther s n who && !(who.priv && wbit w 1) then none
  else some (if wbit w 1 then mbxClear s n else if wbit w 0 then mbxGo s n else s)

/-- A write of MBX_OUT_CTRL. -/
def outCtrl (s : State) (n : Nat) (w : Word) (who : Requester) : Option State :=
  if boundOther s n who && !(who.priv && wbit w 0) then none
  else some (if wbit w 0 then releaseReply s n else s)

/-- Answer an access that an identity may not have made. -/
def orRefuse (s : State) (t : Option State) : State :=
  match t with
  | some t => emit t (.regRsp 0 false)
  | none => regRefuse s

/-- A mailbox that exists. -/
def mbxReg (n o : Nat) : Nat := if n < 17 then mbOff n o else 0x100000

/-- MBX_IN_DATA (03 R83). -/
def execMbxInData (m : Nat) (w : Word) (who : Requester) (s : State) : Host.Outcome State Fault Refusal :=
  runReg who (mbxReg m 0) (fun s => orRefuse s (if boundOther s m who then none else some (mbxIn s m w who))) s

/-- MBX_GO (03 R83, R90). -/
def execMbxGo (m : Nat) (who : Requester) (s : State) : Host.Outcome State Fault Refusal :=
  runReg who (mbxReg m 4) (fun s => orRefuse s (inCtrl s m 1 who)) s

/-- MBX_CLEAR (03 R83). -/
def execMbxClear (m : Nat) (who : Requester) (s : State) : Host.Outcome State Fault Refusal :=
  runReg who (mbxReg m 4) (fun s => orRefuse s (inCtrl s m 2 who)) s

/-- Read MBX_OUT_DATA. -/
def outRead (s : State) (n : Nat) (who : Requester) : State :=
  if boundOther s n who then regRefuse s
  else
    let r := mbxOut s n
    emit r.2 (.regRsp r.1 false)

/-- MBX_OUT_DATA_READ (03 R82, R83). -/
def execMbxOutDataRead (m : Nat) (who : Requester) (s : State) : Host.Outcome State Fault Refusal :=
  runReg who (mbxReg m 0xC) (fun s => outRead s m who) s

/-- MBX_DONE (03 R89). -/
def execMbxDone (m : Nat) (who : Requester) (s : State) : Host.Outcome State Fault Refusal :=
  runReg who (mbxReg m 0x14) (fun s => orRefuse s (outCtrl s m 1 who)) s

/-! The TC0 mailbox stream (03 R95). -/

/-- A frame of the stream. -/
def isStreamFrame (f : InFrame) : Bool := f.hdr.mbxs && f.hdr.op == opMgmt

/-- The words of the frames at the front, until there are `need`, and how many frames that takes. -/
def gatherWords : List InFrame → Nat → List Word → Nat → Option (List Word × Nat)
  | [], need, ws, n => if need ≤ ws.length then some (ws.take need, n) else none
  | f :: rest, need, ws, n =>
    if need ≤ ws.length then some (ws.take need, n) else gatherWords rest need (ws ++ bytesWords f.payload) (n + 1)

/-- Drop the first `n` frames of the stream. -/
def dropStream : List InFrame → Nat → List InFrame
  | [], _ => []
  | f :: rest, n => if n = 0 then f :: rest else if isStreamFrame f then dropStream rest (n - 1) else f :: dropStream rest n

/-- A whole packet stands at the front of the stream: it is admitted as source 17, or answered ST_BUSY while a command
of the stream is in progress. -/
def streamPacket (s : State) : State :=
  let fs := s.fab.inbox.filter isStreamFrame
  match fs with
  | [] => s
  | f :: _ =>
    let w0 := (bytesWords f.payload).headD 0
    let need := min (fld w0 15 0 + 2) 4098
    match gatherWords fs need [] 0 with
    | none => s
    | some (ws, n) =>
      let s := { s with fab := { s.fab with inbox := dropStream s.fab.inbox n } }
      let m := mb s 17
      if m.busy then
        pushTx s { TxFrame.blank with dst := f.hdr.src, op := opMgmt, mbxs := true, origin := .own,
                                      payload := wordBytes (replyWords (w0.toNat / 2 ^ 24) stBusy (pw ws 1) []) }
      else submit (setMb s 17 { m with words := ws, vertex := f.hdr.src }) 17

/-- MBX_STREAM_PACKET (03 R95). -/
def execMbxStreamPacket (s : State) : Host.Outcome State Fault Refusal := runEng streamPacket s

end Sys2Proof.Machine
end

