-- ==== Sys2Proof/Machine/Repair.lean ====
section
/-! DEFINITION. Spares, rotation and the repair map, and the self-test of the block's parts (06 R214; 12 R402 to R407). -/

namespace Sys2Proof.Machine

/-! The repair map (12 R404, R405). -/

/-- KIND and LOCATION of a part. -/
def partCode : Part → Nat × Nat
  | .aes port rx pipe => (1, port * 2 ^ 17 + b2n rx * 2 ^ 16 + pipe * 2 ^ 10)
  | .adder port lane => (2, port * 2 ^ 17 + lane * 2 ^ 7)
  | .msPipe n => (3, n * 2 ^ 12)
  | .sramRow mac row => (4, mac * 2 ^ 10 + row)
  | .sramCol mac col => (5, mac * 2 ^ 10 + col)
  | .core c => (6, c * 2 ^ 18)

/-- The entry of a part: an odd number of 1 bits. -/
def partWord (p : Part) : Word :=
  let v := (partCode p).1 * 2 ^ 28 + (partCode p).2 * 2 ^ 8
  toW (if popcount 32 v % 2 = 1 then v else v + 1)

/-- The part of an entry; a void entry names none. -/
def wordPart (w : Word) : Option Part :=
  let l := fld w 27 8
  if popcount 32 w.toNat % 2 = 0 then none
  else match fld w 31 28 with
    | 1 => some (.aes (l / 2 ^ 17 % 8) (l / 2 ^ 16 % 2 == 1) (l / 2 ^ 10 % 64))
    | 2 => some (.adder (l / 2 ^ 17 % 8) (l / 2 ^ 7 % 1024))
    | 3 => some (.msPipe (l / 2 ^ 12 % 256))
    | 4 => some (.sramRow (l / 2 ^ 10 % 1024) (l % 1024))
    | 5 => some (.sramCol (l / 2 ^ 10 % 1024) (l % 1024))
    | 6 => some (.core (l / 2 ^ 18 % 4))
    | _ => none

/-- The parts that entries map out, each once. -/
def partsOf (ws : List Word) : List Part := (ws.filterMap wordPart).dedup

/-- The words of the factory map up to the ending word. -/
def factoryWords (s : State) : List Word :=
  ((List.range 512).map (fun i => fuseW s (0x100 + i))).takeWhile (fun w => w != 0)

/-- A part is mapped out. -/
def isMapped (s : State) (p : Part) : Bool := s.ladder.mapped.contains p

/-- Entries the field map has room for. -/
abbrev fieldCap : Nat := 15360

/-- Append an entry to the field map and write its record to the store. -/
def fieldAppend (s : State) (p : Part) : State :=
  let n := s.ladder.field.length
  if fieldCap ≤ n then s
  else
    let f := s.ladder.field ++ [partWord p]
    let s := { s with ladder := { s.ladder with field := f, fieldFull := decide (n + 1 = fieldCap) } }
    storePush s (0xC800 + n / 12) (wordBytes (f.drop (n / 12 * 12))) none

/-- The unit a part belongs to, and its port (12 R383, R397). -/
def partUnit : Part → Nat × Nat
  | .aes port rx _ => (if rx then 0x10 + port else 0x08 + port, port)
  | .adder port _ => (port, port)
  | .msPipe _ => (0x18, 0)
  | .core _ => (0x1B, 0)
  | _ => (0xFF, 0)

/-- A REPAIR event for a part. -/
def repairEvent (s : State) (p : Part) : State :=
  occur s (mkRec 0x14 (partUnit p).1 (partUnit p).2 0 0 0 0 0 0 0) none

/-- Map a part out: its spare takes its place, the field map gains an entry, a REPAIR event is placed (12 R403). A part
already mapped out changes nothing. -/
def mapOut (s : State) (p : Part) : State :=
  if isMapped s p then s
  else
    let s := { s with ladder := { s.ladder with mapped := s.ladder.mapped ++ [p] } }
    let s := match p with
      | .aes port _ _ => setBits s (lpOff port 0x10) 8
      | _ => s
    repairEvent (fieldAppend s p) p

/-- AES pipelines of a port direction that are mapped out. -/
def aesOut (s : State) (port : Nat) (rx : Bool) : Nat :=
  s.ladder.mapped.countP (fun m => match m with
    | .aes p r _ => p == port && r == rx
    | _ => false)

/-- Memory seal pipelines that are mapped out. -/
def msOut (s : State) : Nat :=
  s.ladder.mapped.countP (fun m => match m with
    | .msPipe _ => true
    | _ => false)

/-- Adder lanes of a port that are mapped out. -/
def addersOut (s : State) (port : Nat) : Nat :=
  s.ladder.mapped.countP (fun m => match m with
    | .adder p _ => p == port
    | _ => false)

/-- Spare AES pipelines of a port direction (12: 4 per port direction). -/
def aesSpares (s : State) (port : Nat) (rx : Bool) : Nat := 4 - aesOut s port rx

/-- Spare AES pipelines of the block. -/
def aesSparesAll (s : State) : Nat :=
  ((List.range (lpCount s.size)).map (fun n => aesSpares s n false + aesSpares s n true)).foldl (· + ·) 0

/-- Spare adder lanes of the block: 64 per port. -/
def adderSparesAll (s : State) : Nat := ((List.range (lpCount s.size)).map (fun n => 64 - addersOut s n)).foldl (· + ·) 0

/-- The spare Hub core that remains. -/
def spareCore (s : State) : Option Nat :=
  (List.range 3).find? (fun c => c != s.hub.pairA && c != s.hub.pairB && !isMapped s (.core c))

/-- Digest of the repair map (12 R406). -/
def mapDigest (s : State) : Bytes := measure 2 (wordBytes (factoryWords s ++ s.ladder.field))

/-- The field map's records as they stand in the store: those that open, in order, up to the first empty entry (12 R405). -/
def fieldRead (s : State) (f : Flash) : List Word :=
  if !storeReady s then []
  else ((List.range 1280).flatMap (fun i => match openRec (storeKey s) f (0xC800 + i) with
    | some p => bytesWords p
    | none => [])).takeWhile (fun w => w != 0)

/-- Apply both maps at boot stage 0x3 (12 R405, R406). -/
def applyMaps (s : State) (f : Flash) : State :=
  let fac := factoryWords s
  let field := fieldRead s f
  let s := absorbZero (if storeReady s then askRecs s 0xC800 1280 else s) (9 + 4 * (fac.length + field.length))
  let s := { s with ladder := { s.ladder with
    field := field.take fieldCap, fieldFull := decide (fieldCap ≤ field.length)
    mapped := partsOf (fac ++ field), factoryCount := (fac.filter (fun w => (wordPart w).isSome)).length } }
  let good := (List.range 3).filter (fun c => !isMapped s (.core c))
  { s with
    ladder := { s.ladder with repDigest := mapDigest s }
    hub := { s.hub with pairA := good.getD 0 0, pairB := good.getD 1 1 } }

/-! Rotation (06 R214, 12 R402). -/

/-- The first number from `i` upward, around `n`, that is not mapped out. -/
def nextGood (n i : Nat) (out : Nat → Bool) : Option Nat := ((List.range n).map (fun d => (i + d) % n)).find? (fun p => !out p)

/-- One AES pipeline of a port direction is tested. -/
def rotateAes (s : State) (port : Nat) (rx pass : Bool) : State :=
  if !portOk s port then s
  else
    let k := port * 2 + b2n rx
    match nextGood 36 (tgetD s.ladder.rotAes k 0) (fun p => isMapped s (.aes port rx p)) with
    | none => s
    | some p =>
      let s := { s with ladder := { s.ladder with rotAes := tset s.ladder.rotAes k ((p + 1) % 36) } }
      if pass then s else mapOut s (.aes port rx p)

/-- One group of 64 adder lanes is tested; `fails` are the lanes of the port that failed. -/
def rotateAdder (s : State) (port : Nat) (fails : List Nat) : State :=
  if !portOk s port then s
  else
    let g := tgetD s.ladder.rotAdder port 0
    let s := { s with ladder := { s.ladder with rotAdder := tset s.ladder.rotAdder port ((g + 1) % 9) } }
    (fails.filter (fun l => l / 64 == g)).foldl (fun s l => mapOut s (.adder port l)) s

/-- One memory seal pipeline is tested. -/
def rotateMs (s : State) (pass : Bool) : State :=
  match nextGood 160 s.ladder.rotMs (fun p => isMapped s (.msPipe p)) with
  | none => s
  | some p =>
    let s := { s with ladder := { s.ladder with rotMs := (p + 1) % 160 } }
    if pass then s else mapOut s (.msPipe p)

/-- PIPELINE_ROTATION (06 R214): the whole of one rotation. -/
def execPipelineRotation (port : Nat) (rx pass : Bool) (s : State) : Host.Outcome State Fault Refusal :=
  runEng (fun s => rotateAes s port rx pass) s

/-- ADDER_ROTATION (12 R402). -/
def execAdderRotation (port : Nat) (fails : List Nat) (s : State) : Host.Outcome State Fault Refusal :=
  runEng (fun s => rotateAdder s port fails) s

/-- MEMSEAL_PIPE_ROTATION (12 R402). -/
def execMemsealPipeRotation (pass : Bool) (s : State) : Host.Outcome State Fault Refusal :=
  runEng (fun s => rotateMs s pass) s

/-! The Hub's cores (03 R70 to R73, R92). -/

/-- The firmware restarts: after a released first fragment, the fragment that follows the present
one carries ST_INTERNAL (03 R92). Every other
command goes on: its end state and reply are those of a single execution. -/
def restartReplies (s : State) : State :=
  { s with hub := { s.hub with mbox := tmapV s.hub.mbox (fun _ m =>
      match m.replies with
      | r :: rest =>
        if m.released then
          let w := (r.headD 0).toNat
          if rest.isEmpty then m
          else { m with replies := [r, replyWords (w / 2 ^ 24) stInternal (r.getD 1 0) []] }
        else m
      | [] => m) } }

/-- A core of the pair gives its place to the spare, or the block halts for lack of one (03 R71, R72); a core that failed is
mapped out before. -/
def swapCore (s : State) (c : Nat) : State :=
  match spareCore s with
  | none => haltBlock s 3
  | some x =>
    let s := mapOut s (.core c)
    { s with hub := { s.hub with pairA := if s.hub.pairA = c then x else s.hub.pairA,
                                 pairB := if s.hub.pairB = c then x else s.hub.pairB, lastMismatch := none } }

/-- The pair had a mismatch within the past second. -/
def recentMismatch (s : State) : Bool :=
  match s.hub.lastMismatch with
  | some t => decide (s.aon.ts < t + 1000000000)
  | none => false

/-- What follows the self-test of the cores (03 R71): `fails` are the cores that failed; `real` says that the pair had a mismatch,
and did not only serve BCP_SELFTEST. -/
def afterSelfTest (s : State) (fails : List Nat) (real : Bool) : State :=
  let pair := fun (s : State) => [s.hub.pairA, s.hub.pairB]
  let spare := fails.filter (fun c => decide (c < 3) && !(pair s).contains c)
  let mine := (pair s).filter fails.contains
  let s := { s with hub := { s.hub with selfTest := false } }
  let s := spare.foldl (fun s c => mapOut s (.core c)) s
  let s :=
    if mine ≠ [] then mine.foldl (fun s c => swapCore (mapOut s (.core c)) c) s
    else if !real then s
    else if spare ≠ [] then { s with hub := { s.hub with lastMismatch := some s.aon.ts } }
    else if recentMismatch s then swapCore s (max s.hub.pairA s.hub.pairB)
    else { s with hub := { s.hub with lastMismatch := some s.aon.ts } }
  if s.aon.haltReq then s else admitAll (restartReplies s)

/-- A HUB event. -/
def hubEvent (s : State) : State := occur s (mkRec 0x11 0x1B 0 0 0 0 0 0 0 0) none

/-- HUB_LOCKSTEP_MISMATCH (03 R70, R71): both cores stop and the self-test starts. -/
def lockstepMismatch (s : State) : State :=
  if s.hub.selfTest then s else hubEvent { s with hub := { s.hub with selfTest := true } }

/-- HEARTBEAT_TIMEOUT (03 R73): as a mismatch in which no core fails; a command in progress at a second one ends with
ST_INTERNAL. -/
def heartbeatLost (s : State) : State :=
  if s.hub.selfTest then s
  else
    let s := hubEvent s
    let s := (List.range 18).foldl (fun s n =>
      let m := mb s n
      match m.packet with
      | none => s
      | some k =>
        if 1 ≤ m.hbLoss then reply s n k.op k.tag stInternal []
        else setMb s n { m with hbLoss := m.hbLoss + 1 }) s
    afterSelfTest s [] true

/-- The firmware, or at stage 0xF the boot ROM, runs on the pair. -/
def hubUp (s : State) : Bool := s.aon.stage == 6 || s.aon.stage == 15

/-- HUB_LOCKSTEP_MISMATCH (03 R70). -/
def execHubLockstepMismatch (s : State) : Host.Outcome State Fault Refusal :=
  runEng (fun s => when_ (hubUp s) lockstepMismatch s) s

/-- HEARTBEAT_TIMEOUT (03 R73). -/
def execHeartbeatTimeout (s : State) : Host.Outcome State Fault Refusal :=
  runEng (fun s => when_ (s.aon.stage == 6) heartbeatLost s) s

/-! The entropy source (04 R109). -/

/-- A health test fails: the DRBG refuses until the start-up tests pass again. -/
def entropyFail (s : State) : State :=
  if s.hub.drbgRefuse then s
  else occur { s with hub := { s.hub with drbgRefuse := true } } (mkRec 0x12 0xFF 0 0 0 0 0 0 0 0) none

/-- ENTROPY_HEALTH_FAIL (04 R109). -/
def execEntropyHealthFail (s : State) : Host.Outcome State Fault Refusal := runEng entropyFail s

/-- ENTROPY_STARTUP_PASS (04 R109): the DRBG serves requests again, reseeded. -/
def execEntropyStartupPass (s : State) : Host.Outcome State Fault Refusal :=
  runEng (fun s => { s with hub := { s.hub with drbgRefuse := false, drbgCount := 0 } }) s

/-! BCP_REPAIR_STATUS and BCP_SELFTEST (03 R104; 12 R407). -/

/-- The words of BCP_REPAIR_STATUS. -/
def repairWords (s : State) : List Word :=
  [toW s.ladder.factoryCount, toW s.ladder.field.length, toW (aesSparesAll s), toW (adderSparesAll s),
   toW (b2n (spareCore s).isSome)] ++ (bytesWords (padTo 64 s.ladder.repDigest)).take 16

/-- BCP_REPAIR_STATUS (03 R104). -/
def execBcpRepairStatus (src : Nat) (s : State) : Host.Outcome State Fault Refusal :=
  runCmd src .repairStatus (fun s k => reply s src .repairStatus k.tag stOk (repairWords s)) s

/-- Which SCOPE bit a part's test belongs to. -/
def partScope : Part → Nat
  | .aes _ _ _ => 4
  | .adder _ _ => 5
  | .sramRow _ _ | .sramCol _ _ => 6
  | _ => 7

/-- The SCOPE bits whose test failed. -/
def scopeFailed (scope : Nat) (x : SelfFails) : Nat :=
  let bit := fun (i : Nat) (f : Bool) => if f && scope / 2 ^ i % 2 == 1 then 2 ^ i else 0
  bit 0 (x.cores.any (· < 3)) + bit 1 x.mac + bit 2 x.pk + bit 3 x.drbg + bit 4 (x.parts.any (fun p => partScope p == 4)) +
    bit 5 (x.parts.any (fun p => partScope p == 5)) + bit 6 (x.parts.any (fun p => partScope p == 6))

/-- BCP_SELFTEST: each selected part is tested; failing rows and columns take effect at the next boot. -/
def selfTest (s : State) (src : Nat) (k : Packet) (x : SelfFails) : State :=
  let scope := fld (pw k.params 0) 6 0
  if scope / 64 % 2 = 1 ∧ s.parts.part.any (fun p => p.2.live) then reply s src .selftest k.tag stBusy []
  else
    let bad := scopeFailed scope x
    let s := (x.parts.filter (fun p => scope / 2 ^ partScope p % 2 == 1 && decide (partScope p < 7))).foldl (fun s p =>
      if partScope p = 6 then repairEvent (fieldAppend s p) p else mapOut s p) s
    let s := if bad / 8 % 2 = 1 then entropyFail s else s
    let s := reply s src .selftest k.tag stOk [toW (scope - bad), toW bad]
    if bad % 2 = 1 then afterSelfTest s x.cores false else s

/-- BCP_SELFTEST (12 R407). -/
def execBcpSelftest (src : Nat) (fails : SelfFails) (s : State) : Host.Outcome State Fault Refusal :=
  runCmd src .selftest (fun s k => selfTest s src k fails) s

end Sys2Proof.Machine
end

