-- ==== Sys2Proof/Machine/KeyCmds.lean ====
section
/-! DEFINITION. The commands of the key store, the end of a membership, the latch of the test root, the OTP and the
life-cycle transitions (04 R106, R107, R116, R121 to R136; 05 R167; 02 R51). -/

namespace Sys2Proof.Machine

/-! The key store (04 R116, R121, R123). -/

/-- The first check of 04 R116 that fails; orders 2 and 3 are the parent's. -/
def deriveCheck (s : State) (p : List Word) : Option Nat :=
  let parent := fld (pw p 0) 10 0
  let typ := fld (pw p 1) 7 0
  let uses := fld (pw p 1) 23 8
  let dest := fld (pw p 2) 15 0
  let k := slotAt s parent
  if !(typ == 8 || typ == 0xC) || !(parent == 0 || (parent == 5 && isMember s) || decide (16 ≤ parent)) ||
      !(dest == 0xFFFF || decide (16 ≤ dest)) then some stNotPermitted
  else if k.state = 0 ∨ k.state = 3 then some stStaleHandle
  else if k.state = 2 then some stKeyOrphaned
  else if !k.uses.getLsbD 0 || decide (7 ≤ k.depth) then some stNotPermitted
  else if !(if typ = 8 then uses == 2 else uses == 1 || uses == 2 || uses == 3) then some stBadParam
  else if 2 ^ 40 < pw64 p 3 then some stBadParam
  else if dest ≠ 0xFFFF ∧ (2048 ≤ dest ∨ !slotFree s dest) then some stNoResource
  else if usableCount s < 257 then some stNoResource
  else none

/-- BCP_KEY_DERIVE. -/
def keyDerive (s : State) (src : Nat) (k : Packet) : State :=
  let p := k.params
  match deriveCheck s p with
  | some st => reply s src .keyDerive k.tag st []
  | none =>
    let dest := fld (pw p 2) 15 0
    match if dest = 0xFFFF then lowestFree s else some dest with
    | none => reply s src .keyDerive k.tag stNoResource []
    | some n =>
      let parent := fld (pw p 0) 10 0
      let label := fragBytes p 6 (fld (pw p 5) 8 0)
      let kb := keyBytes (slotAt s parent).key
      let x := ascii "usr." ++ label ++ [0]
      let s := absorb (countEv s 0x0A1 none 1) kb x.length
      let key := keyOf (kmac kb x 32)
      let lim := if pw64 p 3 = 0 then 2 ^ 40 else pw64 p 3
      let s := fillSlot s n key (fld (pw p 1) 7 0) (BitVec.ofNat 16 (fld (pw p 1) 23 8)) parent lim 0
      reply s src .keyDerive k.tag stOk [toW n, toW (slotAt s n).gen]

/-- BCP_KEY_INVALIDATE. A slot that is free but whose TYPE still reads REGION (an evicted, swept or dropped region key) is
refused as a REGION slot is, since 04 R117 names the TYPE and no STATE. DESIGN CHOICE (log 55). -/
def keyInvalidate (s : State) (src : Nat) (k : Packet) : State :=
  let n := fld (pw k.params 0) 10 0
  if n < 16 ∨ (slotAt s n).typ = 6 then reply s src .keyInvalidate k.tag stNotPermitted []
  else
    let s := invalidateSlot s n
    reply s src .keyInvalidate k.tag stOk [toW (slotAt s n).gen]

/-- The words of BCP_KEY_INFO (03 R99, 04 R112). -/
def keyInfoWords (k : Slot) : List Word :=
  [toW (k.typ + 2 ^ 8 * k.uses.toNat + 2 ^ 24 * k.state), toW k.parent, toW k.parentGen, toW k.gen, toW k.useCount,
   toW (k.useCount / 2 ^ 32), toW k.useLimit, toW (k.useLimit / 2 ^ 32), toW k.ownerKid]

/-- BCP_KEY_INFO. -/
def keyInfo (s : State) (src : Nat) (k : Packet) : State :=
  let n := fld (pw k.params 0) 10 0
  if n < 16 then reply s src .keyInfo k.tag stNotPermitted []
  else reply s src .keyInfo k.tag stOk (keyInfoWords (slotAt s n))

/-- BCP_KEY_DERIVE (04 R116). -/
def execBcpKeyDerive (src : Nat) (s : State) : Host.Outcome State Fault Refusal :=
  runCmd src .keyDerive (fun s k => keyDerive s src k) s

/-- BCP_KEY_INVALIDATE (04 R121). -/
def execBcpKeyInvalidate (src : Nat) (s : State) : Host.Outcome State Fault Refusal :=
  runCmd src .keyInvalidate (fun s k => keyInvalidate s src k) s

/-- BCP_KEY_INFO (03 R99). -/
def execBcpKeyInfo (src : Nat) (s : State) : Host.Outcome State Fault Refusal :=
  runCmd src .keyInfo (fun s k => keyInfo s src k) s

/-- ORPHAN_SWEEP (04 R123). -/
def execOrphanSweep (s : State) : Host.Outcome State Fault Refusal := runEng sweepOrphans s

/-! The test root (04 R126, R127). -/

/-- The partitions, their contexts and everything that runs for them are gone. -/
def dropPartitions (s : State) : State :=
  { s with
    parts := { Parts.reset with part := tmapV s.parts.part (fun _ r => if r.live then partGone r else r),
                                nextDesc := s.parts.nextDesc, areas := s.parts.areas }
    red := { Reduce.reset with lastV := s.red.lastV, lastS := s.red.lastS }
    upd := { s.upd with runs := [], fuses := [], pgd := [] }
    fab := { s.fab with txq := [], parks := [], copies := [], waits := [], fences := [], failed := [], homes := [],
                        tags := [], hot := [], tracker := [] } }

/-- Latch the test root; in MANUF and PROD everything of the production root goes first (04 R127). -/
def latchTestRoot (s : State) : State :=
  if s.aon.testRoot then s
  else
    let s := { s with aon := { s.aon with testRoot := true } }
    if s.otp.lc = .manuf ∨ s.otp.lc = .prod then
      let s := stopLanes { s with aon := { s.aon with ready := false, dataStopped := true } }
      let s := clearMem (clearStreams (clearChords (clearKeys s)))
      let s := dropPartitions (endMembership s)
      if s.aon.stage = 6 then rebuildLattice s else s
    else s

/-- SCAN_ENABLE (02 R51): tvd_scan_en rises. -/
def scanEnable (s : State) : State :=
  let s := clearStreams (clearChords (clearKeys { s with aon := { s.aon with scanEn := true } }))
  let s := latchTestRoot s
  if wbit (dpWord s 8) 0 then s else occur s (mkRec 0x01 0xFF 0 0 0 0 0 0 0 0) none

/-- SCAN_ENABLE (02 R51). -/
def execScanEnable (s : State) : Host.Outcome State Fault Refusal := runAon scanEnable s

/-! OTP words (04 R106, R107). -/

/-- Readable through OTP_RDATA. -/
def otpReadable (i : Nat) : Bool := !((0xC0 ≤ i && i < 0xD0) || (0xD1 ≤ i && i < 0xE1))

/-- Programmable through OTP_CMD in a life-cycle state. -/
def otpProgrammable (lc : LcState) (i : Nat) : Bool :=
  (0x50 ≤ i && i < 0x90 && lc == .blank) || (0x300 ≤ i && i < 0x3C0 && lc == .manuf)

/-- OTP_ADDR. -/
def otpAddr (s : State) : Nat := fld (reg s 0x4020) 9 0

/-- OTP_CMD 1: read. -/
def otpRead (s : State) : State :=
  if s.otp.busy.isSome then s
  else if otpReadable (otpAddr s) then { s with otp := { s.otp with rdata := fuseW s (otpAddr s) } }
  else setBits { s with otp := { s.otp with rdata := 0 } } 0x4030 2

/-- OTP_CMD 2: program. -/
def otpProgram (s : State) : State :=
  if s.otp.busy.isSome then s
  else if otpProgrammable s.otp.lc (otpAddr s) then
    { s with otp := { s.otp with busy := some { word := otpAddr s, val := reg s 0x4024, retried := false } } }
  else setBits s 0x4030 2

/-- A word write has ended and the word is read back: `blown` are the bits that took. -/
def otpDone (s : State) (blown : Word) : State :=
  match s.otp.busy with
  | none => s
  | some b =>
    let s := blow s b.word (blown &&& b.val)
    let idle := { s with otp := { s.otp with busy := none } }
    if fuseW s b.word &&& b.val = b.val then idle
    else if b.retried then setBits idle 0x4030 4
    else { s with otp := { s.otp with busy := some { b with retried := true } } }

/-- A write of OTP_CMD. -/
def otpCmd (s : State) (w : Word) : State :=
  if fld w 1 0 = 1 then otpRead s else if fld w 1 0 = 2 then otpProgram s else s

/-- OTP_READ (04 R106). -/
def execOtpRead (who : Requester) (s : State) : Host.Outcome State Fault Refusal := runWrite who 0x4028 otpRead s

/-- OTP_PROGRAM (04 R106). -/
def execOtpProgram (who : Requester) (s : State) : Host.Outcome State Fault Refusal := runWrite who 0x4028 otpProgram s

/-- OTP_WRITE_DONE (04 R107). -/
def execOtpWriteDone (blown : Word) (s : State) : Host.Outcome State Fault Refusal := runAon (fun s => otpDone s blown) s

/-! Transitions (04 R129 to R136). -/

/-- Word writes in order; the one numbered `failAt` fails, with a free part of its bits blown, and ends them. -/
def burn : State → List (Nat × Word) → Option Nat → State × Bool
  | s, [], _ => (s, true)
  | s, (i, w) :: rest, some 0 =>
    let _ := rest
    let f := freeN s
    (blow f.2 i (toW f.1 &&& w), false)
  | s, (i, w) :: rest, failAt => burn (blow s i w) rest (failAt.map (· - 1))

/-- A transition without a token, or with one (04 R129): none where it is refused. -/
def lcAllowed (a b : LcState) : Option Bool :=
  match a, b with
  | .scrap, _ => none
  | _, .scrap => some false
  | .blank, .testLocked => some false
  | .testLocked, .testUnlocked => some true
  | .testUnlocked, .testLocked => some false
  | .testUnlocked, .manuf => some false
  | .manuf, .prod => some false
  | .manuf, .analysis => some true
  | .prod, .analysis => some true
  | _, _ => none

/-- No root bank can hold a root: each is torn and neither is done (04 R110). -/
def noBank (s : State) : Bool :=
  (rootBank s).isNone && !(bankWords s 0xC0).all (· == 0) && !(bankWords s 0xD1).all (· == 0)

/-- The matrix, and at stage 0xF for want of a usable bank in MANUF only ANALYSIS and SCRAP (04 R110, R129). -/
def lcPermits (s : State) (b : LcState) : Option Bool :=
  if s.aon.stage = 15 ∧ s.otp.lc = .manuf ∧ noBank s ∧ b = .prod then none else lcAllowed s.otp.lc b

/-- The intent word (04 R131). -/
def intentWord (target idx : Nat) : Word :=
  let v := target + 16 * idx
  toW (v + 2 ^ 27 * (27 - popcount 27 v))

/-- The valid intent a word carries: TARGET and TOKEN_IDX. -/
def intentOf (w : Word) : Option (Nat × Nat) :=
  if w ≠ 0 ∧ fld w 31 27 = 27 - popcount 27 w.toNat then some (fld w 3 0, fld w 7 4) else none

/-- The pair after the last with a nonzero intent word. -/
def nextPair (s : State) : Nat :=
  ((List.range 32).foldl (fun (a : Nat) n => if fuseW s (2 * n) ≠ 0 then n + 1 else a) 0)

/-- The word writes of steps 2, 4 and 5 for a pair. -/
def lcWrites (pair target idx : Nat) : List (Nat × Word) :=
  (if idx = 15 then [] else [(0x40, toW (2 ^ idx))]) ++
  (if target = 6 ∨ target = 7 then
     ((List.range 16).map (fun i => (0xC0 + i, 0xFFFFFFFF#32))) ++ ((List.range 16).map (fun i => (0xD1 + i, 0xFFFFFFFF#32)))
   else []) ++
  [(2 * pair + 1, 0xFFFFFFFF#32)]

/-- A refused transition. -/
def lcRefuse (s : State) (err : Nat) : State := { s with otp := { s.otp with phase := 3, error := err } }

/-- The bytes of the token registers. -/
def tokenBytes (s : State) : Bytes := wordBytes s.otp.token

/-- The token check (04 R130): the error, or none. -/
def tokenError (s : State) (idx : Nat) : Option Nat :=
  if 3 ≤ s.otp.wrongTokens then some 2
  else if 8 ≤ idx then some 2
  else if wbit (fuseW s 0x40) idx then some 3
  else if tokenHash idx (tokenBytes s) ≠ wordBytes ((List.range 8).map (fun i => fuseW s (0x50 + 8 * idx + i))) then some 2
  else none

/-- The steps of an accepted transition (04 R133): the data path stops as at a halt, and the writes and clears follow in
order. -/
def lcRun (s : State) (target idx : Nat) (failAt : Option Nat) : State :=
  let n := nextPair s
  let s := stopLanes { s with aon := { s.aon with ready := false, dataStopped := true } }
  let s := endMembership s
  let b := burn s [(2 * n, intentWord target idx)] failAt
  let s := b.1
  if !b.2 then lcRefuse s 5
  else
    let clr := decide (target = 6 ∨ target = 7)
    let ws := lcWrites n target idx
    let fail1 := failAt.map (· - 1)
    let s := if clr && !(idx != 15 && fail1 == some 0) then clearStreams (clearChords (clearKeys s)) else s
    let c := burn s ws fail1
    if c.2 then { c.1 with otp := { c.1.otp with phase := 2, error := 0 } } else lcRefuse c.1 5

/-- A write of LC_TRANSITION with GO; `failAt` numbers the word write that fails, if one does (04 R107, R136). -/
def lcGo (s : State) (w : Word) (failAt : Option Nat) : State :=
  if s.otp.phase = 1 ∨ s.otp.phase = 2 ∨ s.otp.busy.isSome then s
  else
    let target := fld w 3 0
    let idx := fld w 7 4
    let clr := fun (s : State) => { s with otp := { s.otp with token := [0, 0, 0, 0] } }
    match (lcOf target).bind (lcPermits s) with
    | none => clr (lcRefuse s 1)
    | some tok =>
      if nextPair s = 32 then clr (lcRefuse s 4)
      else if tok then
        let s := if s.otp.wrongTokens < 3 ∧ idx < 8 then absorbZero s 26 else s
        match tokenError s idx with
        | some e =>
          let n := if e = 2 ∧ s.otp.wrongTokens < 3 then s.otp.wrongTokens + 1 else s.otp.wrongTokens
          clr (lcRefuse { s with otp := { s.otp with wrongTokens := n } } e)
        | none => lcRun (clr s) target idx failAt
      else lcRun (clr s) target 15 failAt

/-- A write of LC_TRANSITION acts only with GO, bit 8 (04 R135). -/
def lcWrite (s : State) (w : Word) : State := if wbit w 8 then lcGo s w none else s

/-- LC_TRANSITION_GO (04 R133, R136): a write of LC_TRANSITION with GO at 1; `w` gives its other fields. -/
def execLcTransitionGo (w : Word) (failAt : Option Nat) (who : Requester) (s : State) : Host.Outcome State Fault Refusal :=
  runWrite who 0x4004 (fun s => lcGo s w failAt) s

/-- What the records of OTP say (04 R132): the state, and the pending pair with its target and token index. -/
def lcScan (s : State) : LcState × Option (Nat × Nat × Nat) :=
  let step := fun (a : (LcState × Option (Nat × Nat × Nat)) × Bool) (n : Nat) =>
    if a.2 then a
    else if fuseW s (2 * n) = 0 then (a.1, true)
    else match intentOf (fuseW s (2 * n)) with
      | none => a
      | some (t, i) =>
        if fuseW s (2 * n + 1) = 0xFFFFFFFF#32 then (((lcOf t).getD a.1.1, a.1.2), false)
        else ((a.1.1, some (n, t, i)), false)
  ((List.range 32).foldl step ((.blank, none), false)).1

end Sys2Proof.Machine
end

