-- ==== Sys2Proof/Machine/Boot.lean ====
section
/-! DEFINITION. Resets of the whole block, the boot stages, clock stop, clock faults and the freeze of counters (02 R51 to R67; 03
R74 to R77; 04 R110, R111, R132, R134; 05 R140 to R144, R157; 12 R388, R399, R405; 13 R430, R432; 14 R457; 15 R462). -/

namespace Sys2Proof.Machine

/-! What a reset leaves (02 R61, R64; 14 R457). -/

/-- Registers that keep their stored bits over a warm reset and an L3 (14 R457). -/
def keepsReg (off : Nat) : Bool :=
  (0x4000 ≤ off && off < 0x5000) || off == 0x5000 || off == 0x5004 || (0x5050 ≤ off && off ≤ 0x505C) || off == 0x60020 ||
  off == 0xF0000

/-- Every lane as a reset leaves it: its tvd_lp_lane_up is an input of the block. -/
def lanesReset (t : Tbl Lane) : Tbl Lane := tmapV t (fun _ l => { Lane.down with up := l.up })

/-- A warm reset, and the reset of an L3: every domain but the always-on state (02 R64). `rstN` is what tvd_rst_n then is. -/
def warmClear (s : State) (rstN : Bool) : State :=
  { State.reset with
    pending := s.pending
    out := s.out
    fresh := s.fresh
    draws := s.draws
    size := s.size
    tandemEn := s.tandemEn
    tandemId := s.tandemId
    win := tkeep s.win (fun k _ => keepsReg k)
    aon := { s.aon with
      rstN := rstN, stage := 0, ready := false, frozen := s.aon.freezePin, clkPhase := .idle
      dataStopped := s.aon.haltReq || s.otp.phase == 1 || s.otp.phase == 2 }
    otp := { s.otp with token := [0, 0, 0, 0] }
    ident := { Identity.reset with ide := s.ident.ide }
    links := { Links.reset with lane := lanesReset s.links.lane }
    fab := { Fabric.reset with nextPm := s.fab.nextPm, nextHome := s.fab.nextHome }
    mem := { Mem.reset with next := s.mem.next }
    parts := { Parts.reset with nextDesc := s.parts.nextDesc }
    ladder := { Ladder.reset with
      lastLevel := s.ladder.lastLevel, lastUnit := s.ladder.lastUnit, lastPort := s.ladder.lastPort
      escalated := s.ladder.escalated, queue := s.ladder.queue.filter (·.done) }
    td := { Tandem.reset with
      failovers := s.td.failovers, fenceIn := s.td.fenceIn, alive := s.td.alive
      modeActive := if s.tandemEn then b2n (wbit (reg s 0xF0000) 0) else 0 } }

/-- tvd_por_n falls: every domain is aborted; fuses keep what is blown, of a write under way a free part (02 R62, R65). -/
def coldFall (s : State) : State :=
  let s := match s.otp.busy with
    | none => s
    | some b => let f := freeN s
                blow f.2 b.word (toW f.1 &&& b.val)
  { State.reset with
    pending := s.pending
    fresh := s.fresh
    draws := s.draws
    size := s.size
    tandemEn := s.tandemEn
    tandemId := s.tandemId
    aon := { Aon.reset with
      porN := false, rstN := s.aon.rstN, freezePin := s.aon.freezePin, clkReq := s.aon.clkReq }
    otp := { Otp.reset with fuse := s.otp.fuse }
    ident := { Identity.reset with ide := s.ident.ide }
    links := { Links.reset with lane := lanesReset s.links.lane }
    fab := { Fabric.reset with nextPm := s.fab.nextPm, nextHome := s.fab.nextHome }
    mem := { Mem.reset with next := s.mem.next }
    parts := { Parts.reset with nextDesc := s.parts.nextDesc }
    td := { Tandem.reset with fenceIn := s.td.fenceIn } }

/-! Boot stages (02 R62). -/

/-- Enter a stage. -/
def toStage (s : State) (n : Nat) : State := { s with aon := { s.aon with stage := n } }

/-- Boot has failed: stage 0xF and a BOOT alarm (02 R62; 12 R384). -/
def bootFail (s : State) : State := occur (toStage s 15) (mkRec 0x06 0xFF 0 0 0 0 0 0 0 0) none

/-- Stage 0x2: a pending transition is resumed (04 R134); whether its writes took. -/
def resumeLc (s : State) (failAt : Option Nat) : State × Bool :=
  match (lcScan s).2 with
  | none => (s, true)
  | some (n, t, i) =>
    let b := burn s (lcWrites n t i) failAt
    if b.2 then
      ({ b.1 with otp := { b.1.otp with lc := (lcOf t).getD b.1.otp.lc, resumed := true } }, true)
    else (b.1, false)

/-- Stages 0x2 and 0x3, and the wait at stage 0x4 for the image, or for good where no firmware runs (04 R128). -/
def runBoot (s : State) (env : BootEnv) : State :=
  let r := resumeLc (toStage s 2) env.failAt
  if !r.2 then bootFail r.1 else toStage (applyMaps r.1 env.flash) 4

/-- tvd_por_n rises: the straps are sampled, the life-cycle state is read, and boot runs from stage 0x1; with tvd_rst_n low it
waits there (02 R53, R61, R62; 04 R132). Only a TVD-64 has a Tandem (00 R2). -/
def coldRise (s : State) (tandemEn tandemId : Bool) (env : BootEnv) : State :=
  let s := { s with
    out := []
    tandemEn := tandemEn && s.size == Size.tvd64
    tandemId := tandemId && tandemEn && s.size == Size.tvd64
    aon := { s.aon with porN := true, frozen := s.aon.freezePin, stage := 1 } }
  let s := { s with otp := { s.otp with lc := (lcScan s).1 } }
  if s.aon.rstN then runBoot s env else s

/-- COLD_RESET (02 R61 to R63, R65): tvd_por_n rises, or falls. No latch outlives its fall. -/
def execColdReset (rise tandemEn tandemId : Bool) (env : BootEnv) (s : State) : Host.Outcome State Fault Refusal :=
  .next (if !rise then coldFall s else if s.aon.porN then quiet s else haltClamp (latch s (coldRise s tandemEn tandemId env)))

/-- WARM_RESET_ASSERT (02 R61, R64): tvd_rst_n falls. Under tvd_por_n its level is kept for the rise (log 48). -/
def execWarmResetAssert (s : State) : Host.Outcome State Fault Refusal :=
  if s.aon.porN then runAon (fun s => warmClear s false) s
  else .next { quiet s with aon := { s.aon with rstN := false } }

/-- WARM_RESET (02 R64, R65): tvd_rst_n rises. -/
def execWarmReset (env : BootEnv) (s : State) : Host.Outcome State Fault Refusal :=
  if s.aon.porN then
    runAon (fun s => if s.aon.rstN then s
      else
        let s := warmClear s true
        runBoot s env) s
  else .next { quiet s with aon := { s.aon with rstN := true } }

/-! Stage 0x4: the image (03 R74 to R76; 15 R462). -/

/-- A copy of the pointer that opens: slot and write count (03 R74; their place in the payload: log 18). -/
def ptrCopy (s : State) (f : Flash) (i : Nat) : Option (Nat × Nat) :=
  (openRec (storeKey s) f i).map (fun p => (leAt p 0 4 % 2, leAt p 4 4))

/-- The copy of the pointer that opens and carries the higher count; none opens without a STORE key (03 R74, R80). -/
def pickPtr (s : State) (f : Flash) : Option (Nat × Nat) :=
  if !storeReady s then none
  else match ptrCopy s f 0, ptrCopy s f 1 with
    | some x, some y => some (if x.2 < y.2 then y else x)
    | some x, none => some x
    | none, y => y

/-- The records that hold the header of an image, and those that hold a whole image of a body length (03 R75). -/
abbrev headRecs : Nat := 171
/-- See `headRecs`. -/
def imageRecs (bodyLen : Nat) : Nat := ceilDiv (0x2000 + bodyLen) 48

/-- The image as it is read: from the slot that the pointer names, under the STORE key, or from slot A in factory form, under
that of the test root (03 R76; 15 R462). None when a record does not open or the body is too long. -/
def readImage (s : State) (f : Flash) (p : Option (Nat × Nat)) : Option Bytes :=
  let key := if p.isSome then storeKey s else storeKeyOf (leBytes 64 Config.testRoot.toNat)
  let base := slotBase ((p.map (·.1)).getD 0)
  match openRecs key f base headRecs with
  | none => none
  | some h => if 385024 < leAt h 16 4 then none else openRecs key f base (max headRecs (imageRecs (leAt h 16 4)))

/-- The read requests of stage 0x4: both pointer copies, then the image. -/
def askImage (s : State) (f : Flash) (p : Option (Nat × Nat)) : State :=
  let base := slotBase ((p.map (·.1)).getD 0)
  askRecs (askRecs s 0 2) base (match readImage s f p with
    | some b => ceilDiv b.length 48
    | none => headRecs)

/-- A factory-form image may boot in this state (15 R462). -/
def factoryOk (lc : LcState) : Bool := lc == .testUnlocked || lc == .manuf

/-- The image is read and checked: factory form only in a state that allows it, then the checks of 03 R76. -/
def checkImage (s : State) (f : Flash) (v : FwVerdict) : State :=
  let p := pickPtr s f
  let img := if p.isNone && !factoryOk s.otp.lc then none else readImage s f p
  let s := askImage { s with hub := { s.hub with ptr := p } } f p
  match img with
  | none => bootFail s
  | some raw =>
    let i := imageOf raw
    let s := absorbZero s (9 + i.body.length)
    if !imageOk s i v then bootFail s
    else toStage { s with hub := { s.hub with
      svn := i.svn, digest := i.bodyDigest, slot := (p.map (·.1)).getD 0, factory := p.isNone
      image := if p.isNone then raw else [] } } 5

/-- BOOT_IMAGE_CHECK (03 R76): what the store answers to the reads of both copies of the pointer and of the image. -/
def execBootImageCheck (a b : Bytes) (img : Flash) (v : FwVerdict) (s : State) : Host.Outcome State Fault Refusal :=
  runEng (fun s => when_ (s.aon.stage == 4 && fwRuns s.otp.lc) (fun s => checkImage s ((0, a) :: (1, b) :: img) v) s) s

/-! Stage 0x5: the start of the firmware. -/

/-- Every word of a root bank is 0. -/
def bankZero (s : State) (b : Nat) : Bool := (bankWords s b).all (· == 0)

/-- Generate the root into a bank (04 R111). -/
def generateRoot (s : State) (bank : Nat) (env : StartEnv) : State × Bool :=
  if 3 ≤ env.refused ∨ s.hub.drbgRefuse then (s, false)
  else
    let d := draw { s with hub := { s.hub with drbgCount := 0 } } 64
    let ws := (bytesWords d.1).zipIdx.map (fun x => (bank + x.2, x.1))
    burn d.2 (ws ++ [(bank + 16, 0xFFFFFFFF#32)]) env.failAt

/-- A root bank is chosen, or the root generated (04 R110). -/
def selectRoot (s : State) (env : StartEnv) : State × Bool :=
  match s.otp.lc with
  | .prod => (s, (rootBank s).isSome)
  | .manuf =>
    if fuseW s 0xD0 = 0xFFFFFFFF#32 then (s, true)
    else if bankZero s 0xC0 then generateRoot s 0xC0 env
    else if fuseW s 0xE1 = 0xFFFFFFFF#32 then (s, true)
    else if bankZero s 0xD1 then generateRoot s 0xD1 env
    else (s, false)
  | _ => (s, true)

/-- Both DeviceID records, where they open: the seed of 32 bytes and the scalar of 48 (05 R143). -/
def devIdRead (s : State) (f : Flash) : Option (Bytes × Bytes) :=
  match openRec (storeKey s) f 0xC000, openRec (storeKey s) f 0xC001 with
  | some a, some b => some (a.take 32, b)
  | _, _ => none

/-- The DeviceID: as stored, or drawn anew in MANUF and stored, unless the DRBG refuses (04 R109; 05 R140). -/
def deviceId (s : State) (env : StartEnv) : State :=
  let s := askRecs s 0xC000 2
  match devIdRead s env.flash with
  | some d => { s with ident := { s.ident with devId := some d } }
  | none =>
    if s.otp.lc = .manuf ∧ !s.hub.drbgRefuse then
      let a := draw s 32
      let b := draw a.2 48
      storePush (storePush { b.2 with ident := { b.2.ident with devId := some (a.1, b.1) } } 0xC000 a.1 none) 0xC001 b.1 none
    else s

/-- The fields of the licensee partition that hold digests: 48 bytes, then 16 zero bytes (05 R142). -/
def fuseDigest (s : State) (i : Nat) : Bytes := wordBytes ((List.range 16).map (fun n => fuseW s (i + n)))

/-- The identity check of PROD (05 R144). -/
def identityOk (s : State) (env : StartEnv) : Bool :=
  s.ident.devId.isSome && padTo 64 (sha3 (s.ident.x509 ++ s.ident.hybrid)) == fuseDigest s 0x310 &&
  padTo 64 env.rootDigest == fuseDigest s 0x300 && env.keysMatch

/-- A chain of the identity store: its length from the record of lengths, its bytes where every record opens (05 R143). -/
def chainRead (s : State) (f : Flash) (at_ base : Nat) : Bytes :=
  match openRec (storeKey s) f 0xC002 with
  | none => []
  | some l => ((openRecs (storeKey s) f base (ceilDiv (leAt l at_ 4) 48)).getD []).take (leAt l at_ 4)

/-- Read both chains. -/
def readChains (s : State) (f : Flash) : State :=
  let x := chainRead s f 0 0xC040
  let h := chainRead s f 4 0xC400
  let s := askRecs (askRecs (askRecs s 0xC002 1) 0xC040 (ceilDiv x.length 48)) 0xC400 (ceilDiv h.length 48)
  { s with ident := { s.ident with x509 := x, hybrid := h } }

/-- The alias keys of this boot: the ML-DSA-87 seed is IDENTITY's KEY, the ECDSA scalar is drawn (05 R139, R141). While the DRBG
refuses there is no scalar, and the identity is unavailable. DESIGN CHOICE (log 55). -/
def aliasKeys (s : State) : State :=
  if s.hub.drbgRefuse then s
  else
    let d := draw s 48
    { d.2 with ident := { d.2.ident with aliasKey := some (keyBytes (slotAt d.2 2).key, d.1) } }

/-- What the DiceTcbInfo of the alias certificate holds: vendor, model, IP_VERSION, SVN, BODY_DIGEST (05 R141). -/
def tcbInfo (s : State) : Bytes :=
  ascii "Maelkin Silicon" ++ ascii "Geino Tvedut" ++ leBytes 4 ipVersionW.toNat ++ leBytes 4 s.hub.svn ++ s.hub.digest

/-- The alias certificate: the values of DiceTcbInfo among bytes of DER, which are free (05 R141; log 8). -/
def issueAlias (s : State) : State :=
  let n := freeN s
  let a := freeBytes n.2 (n.1 % 4096)
  let m := freeN a.2
  let b := freeBytes m.2 (m.1 % 4096)
  let s := { b.2 with ident := { b.2.ident with aliasCert := a.1 ++ tcbInfo b.2 ++ b.1 } }
  let g := freeN s
  { g.2 with ident := { g.2.ident with
    aliasSig := mldsaSig ((g.2.ident.devId.map (·.1)).getD []) (aliasBody g.2) g.1 } }

/-- The chains, the alias, and whether the identity is available (05 R141, R144). -/
def startIdentity (s : State) (env : StartEnv) : State :=
  let s := issueAlias (aliasKeys (readChains s env.flash))
  if s.ident.aliasKey.isNone then { s with ident := { s.ident with avail := false } }
  else if s.otp.lc = .prod then
    if identityOk s env then { s with ident := { s.ident with avail := true } }
    else occur s (mkRec 0x06 0xFF 0 0 0 0 0 0 0 0) none
  else { s with ident := { s.ident with avail := s.ident.devId.isSome } }

/-- The thermometer of a security version: `n` bits from bit 0 on (03 R77). -/
def raiseSvn (s : State) (n : Nat) : State :=
  if n ≤ minSvn s then s
  else blow (blow s 0x90 (toW (2 ^ n - 1))) 0x91 (toW ((2 ^ n - 1) / 2 ^ 32))

/-- In MANUF a factory-form image is sealed again into slot A, with both pointer copies (15 R462). -/
def resealFactory (s : State) : State :=
  if s.hub.factory && s.otp.lc == .manuf then
    let b := s.hub.image
    let s := (List.range (ceilDiv b.length 48)).foldl (fun s n =>
      storePush s (slotBase 0 + n) (slice b (48 * n) 48) none) s
    let pay := leBytes 4 0 ++ leBytes 4 1
    let s := storePush (storePush s 0 pay none) 1 pay none
    { s with hub := { s.hub with image := [], ptr := some (0, 1) } }
  else { s with hub := { s.hub with image := [] } }

/-- The IDE keys of before are orphaned: the block sends STOP for each (05 R157). -/
def stopIde (s : State) : State :=
  s.ident.ide.foldl (fun s e => keySend s { op := 2, key := e.key, hold := 0, iv := 0, fromBlock := true })
    { s with ident := { s.ident with ide := [] } }

/-- This instance owns the lanes once ready: always when single or in lockstep-compare; in a pair instance A, unless its partner
already serves. DESIGN CHOICE (log 25). -/
def takesLanes (s : State) : Bool :=
  !s.tandemEn || (s.td.modeActive == 0 && !s.tandemId && !s.td.alive) || (s.td.modeActive == 1 && !s.tandemId)

/-- Stage 0x6: tvd_ready rises unless the data path must stay stopped (02 R53, R62; 04 R133); after an L3 a standby
synchronises by itself (12 R412). -/
def bootReady (s : State) : State :=
  let s := stopIde s
  let own := takesLanes s
  let auto := s.tandemEn && !own && s.td.modeActive == 0 && wbit (reg s 0xF0000) 1 && s.ladder.queue.any (fun q => q.level == 3)
  let s := { s with
    aon := { s.aon with stage := 6, ready := !s.aon.dataStopped }
    td := { s.td with owner := own && !s.aon.dataStopped, syncing := auto } }
  if auto then emit s (.mirror (.sync true)) else s

/-- The firmware starts. -/
def startFirmware (s : State) (env : StartEnv) : State :=
  let r := selectRoot s env
  if !r.2 then bootFail r.1
  else
    let s := rebuildLattice r.1
    let s := startIdentity (deviceId s env) env
    bootReady (resealFactory (raiseSvn s s.hub.svn))

/-- FIRMWARE_START (04 R110, R111; 03 R77; 05 R140 to R144). -/
def execFirmwareStart (env : StartEnv) (s : State) : Host.Outcome State Fault Refusal :=
  runEng (fun s => when_ (s.aon.stage == 5) (fun s => startFirmware s env) s) s

/-! Clock stop (02 R66, R67; 13 R432). -/

/-- tvd_lp_lane_en falls on every lane: complete frames stay, frames not hop-acknowledged move once lanes return. -/
def quiesceLanes (s : State) : State :=
  let tags := s.links.lane.flatMap (fun p => unackedTags p.2)
  markMoves { s with links := { s.links with lane := tmapV s.links.lane (fun _ l =>
    { Lane.down with up := l.up, cause := l.cause, staging := keepWhole 20 l.staging }) } } tags

/-- Another phase of the handshake. -/
def setPhase (s : State) (p : ClkPhase) : State := { s with aon := { s.aon with clkPhase := p } }

/-- CLK_STOP_REQUEST (02 R66 steps 1 to 3). Under tvd_por_n the level is kept (log 48). -/
def execClkStopRequest (s : State) : Host.Outcome State Fault Refusal :=
  if s.aon.porN then
    runAon (fun s =>
      let go := !s.aon.clkReq && s.aon.clkPhase == .idle && !s.aon.haltReq
      let s := { s with aon := { s.aon with clkReq := true } }
      if go then quiesceLanes (setPhase s .quiesce) else s) s
  else .next { quiet s with aon := { s.aon with clkReq := true } }

/-- CLK_STOP_ACK (02 R66 steps 4 and 5): every crossing FIFO is empty, with the frames released to the engines, and every
initiator response has arrived. -/
def execClkStopAck (s : State) : Host.Outcome State Fault Refusal :=
  runAon (fun s => when_ (s.aon.clkPhase == .quiesce && s.fab.pm.isEmpty && s.fab.inbox.isEmpty && !s.aon.haltReq)
    (fun s => { s with aon := { s.aon with clkPhase := .acked, stopStart := s.aon.ts } }) s) s

/-- CLK_STOP_WITHDRAW (02 R66, R67; 13 R432). Under tvd_por_n the level is kept (log 48). -/
def execClkStopWithdraw (s : State) : Host.Outcome State Fault Refusal :=
  if s.aon.porN then
    runAon (fun s =>
      let acked := s.aon.clkPhase == .acked
      let s := setPhase { s with aon := { s.aon with clkReq := false } } .idle
      if acked then
        { s with aon := { s.aon with
          stopLen := s.aon.ts - s.aon.stopStart, stopCount := (s.aon.stopCount + 1) % 2 ^ 32, clkStopped := []
          gapAlarm := true, gapDump := true, gapWatch := true } }
      else s) s
  else .next { quiet s with aon := { s.aon with clkReq := false } }

/-- CLK_STOP_QUIESCE_TIMEOUT (02 R67): the attempt fails until the request falls. -/
def execClkStopQuiesceTimeout (s : State) : Host.Outcome State Fault Refusal :=
  runAon (fun s => when_ (s.aon.clkPhase == .quiesce)
    (fun s => occur (setBits (setPhase s .failed) 0x5000 0x10000#32) (mkRec 0x16 0x1E 0 0 0 0 0 0 0 0) none) s) s

/-! The freeze of counters (02 R56; 13 R430). -/

/-- The freeze trigger follows its pin and its register. -/
def refreeze (s : State) : State := { s with aon := { s.aon with frozen := s.aon.freezePin || wbit (reg s 0x60000) 0 } }

/-- FREEZE_TRIGGER (13 R430): `bit` is PMU_CTRL.FREEZE, else tvd_freeze. Under tvd_por_n the pin keeps its level (log 48). -/
def execFreezeTrigger (bit on : Bool) (s : State) : Host.Outcome State Fault Refusal :=
  if !s.aon.porN && !bit then .next { quiet s with aon := { s.aon with freezePin := on } }
  else runAon (fun s => refreeze (if bit then setReg s 0x60000 ((reg s 0x60000 &&& 0xFFFFFFFE#32) ||| toW (b2n on))
    else { s with aon := { s.aon with freezePin := on } })) s

/-! Clock faults (12 R388). -/

/-- A held action takes place (12 R410). -/
def releaseAct (s : State) (h : HeldAct) : State :=
  match h.act with
  | .outs l => emits s l
  | .release f => inboxPush s f
  | .ans w write status data poison => answer s w write status data poison

/-- Held actions that wait for a record up to number `n` take place, in order. -/
def releaseAfterHold (s : State) (n : Nat) : State :=
  let go := s.td.held.filter (fun h => decide (h.num ≤ n))
  let s := { s with td := { s.td with held := s.td.held.filter (fun h => !decide (h.num ≤ n)) } }
  go.foldl releaseAct s

/-- The partner of a pair is lost: an owner goes on without holding anything (12 R413). -/
def dropPartner (s : State) : State :=
  let s := { s with td := { s.td with synced := false, syncing := false, alive := false } }
  if s.td.owner && !s.td.fenceIn then releaseAfterHold s s.td.sent else s

/-- A clock alarm. -/
def clockAlarm (s : State) (port : Nat) : State := occur s (mkRec 0x04 0x1E port 0 0 0 0 0 0 0) none

/-- A clock has stopped. -/
def noteStopped (s : State) (c : Clk) (f : ClkFault) : State :=
  if f == .stopped && !s.aon.clkStopped.contains c then { s with aon := { s.aon with clkStopped := s.aon.clkStopped ++ [c] } }
  else s

/-- The clock of an isolated port may stop (02 R57). -/
def mayStop (s : State) (c : Clk) : Bool :=
  match c with
  | .lane n => portIsolated s n
  | _ => false

/-- The aon monitor finds a clock out of range. A granted stop and that of an isolated port are no fault, and a single TVD-64
has no mirror clock. -/
def clockFault (s : State) (c : Clk) (f : ClkFault) : State :=
  if (f == .stopped && s.aon.clkPhase == .acked) || (c == .mir && !s.tandemEn) then s
  else if f == .stopped && mayStop s c then noteStopped s c f
  else
    let port := match c with
      | .lane n => n
      | _ => 0
    let s := noteStopped (clockAlarm s port) c f
    if f == .above then haltBlock s 5
    else match c with
      | .mir => dropPartner s
      | .lane n => if portOk s n && (!portIsolated s n || s.ladder.isoAuto.contains n) then askReset s 2 0xFF n 0x04 false else s
      | _ => if s.aon.clkBad.contains c then s else { s with aon := { s.aon with clkBad := s.aon.clkBad ++ [c] } }

/-- CLOCK_FAULT (12 R388). -/
def execClockFault (clk : Clk) (f : ClkFault) (s : State) : Host.Outcome State Fault Refusal :=
  runAon (fun s => clockFault s clk f) s

/-- A clock runs in range again; one of the four whose fault leads to an L3 starts it. -/
def clockBack (s : State) (c : Clk) : State :=
  let bad := s.aon.clkBad.contains c
  let s := { s with aon := { s.aon with clkBad := s.aon.clkBad.filter (· != c),
                                        clkStopped := s.aon.clkStopped.filter (· != c) } }
  if bad then askReset (handOver s 6) 3 0xFF 0 0x04 false else s

/-- CLOCK_RETURN_IN_RANGE (12 R388). -/
def execClockReturnInRange (clk : Clk) (s : State) : Host.Outcome State Fault Refusal :=
  runAon (fun s => clockBack s clk) s

end Sys2Proof.Machine
end

