-- ==== Sys2Proof/Machine/Enrol.lean ====
section
/-! DEFINITION. The domain policy, enrolment and re-parenting, the join of a child, and the commit (05 R161 to R170,
R469). -/

namespace Sys2Proof.Machine

/-! The policy (05 R161, R162). -/

/-- The fields of a policy. -/
def parsePolicy (b : Bytes) : Policy :=
  { domainId := leAt b 8 8, serial := leAt b 0x10 4, flags := leAt b 0x14 4,
    leadSet := (List.range 4).map (fun i => leAt b (0x18 + 2 * i) 2), minIp := leAt b 0x20 4, minSvn := leAt b 0x24 4,
    fw := (List.range (leAt b 0x28 4)).map (fun i => slice b (0x30 + 64 * i) 64),
    roots := (List.range (leAt b 0x2C 4)).map (fun i => slice b (0x230 + 64 * i) 64),
    opKey := slice b 0x330 64, manager := leAt b 0x370 2, bitmap := slice b 0x380 8192, digest := sha3 b }

/-- Every byte of a field is zero. -/
def zeroAt (b : Bytes) (i n : Nat) : Bool := (slice b i n).all (· == 0)

/-- The form of a policy: its constants, counts and zero fields. -/
def policyFormed (b : Bytes) : Bool :=
  let fw := leAt b 0x28 4
  let lic := leAt b 0x2C 4
  b.length == 16512 && leAt b 0 4 == 0x4C505654 && leAt b 4 4 == 1 && leAt b 8 8 != 0 && decide (leAt b 0x14 4 < 4) &&
  decide (leAt b 0x24 4 < 64) && 1 ≤ fw && fw ≤ 8 && 1 ≤ lic && lic ≤ 4 && zeroAt b (0x30 + 64 * fw) (64 * (8 - fw)) &&
  zeroAt b (0x230 + 64 * lic) (64 * (4 - lic)) && zeroAt b 0x360 16 && zeroAt b 0x372 14 && zeroAt b 0x4013 13

/-- A vertex is set in MEMBER_BITMAP. -/
def bitmapHas (p : Policy) (v : Nat) : Bool := ((p.bitmap.getD (v / 8) 0#8).toNat / 2 ^ (v % 8)) % 2 == 1

/-- A policy admits a block by what it shows of itself (05 R162, from the second point on). -/
def admits (p : Policy) (v : Nat) (x : PeerShown) : Bool :=
  bitmapHas p v && x.prod && !x.testRoot && !x.invasive && decide (p.minIp ≤ x.ipVersion) && decide (p.minSvn ≤ x.svn) &&
  p.fw.contains x.digest && p.roots.contains x.root

/-- What the block shows of itself. -/
def selfShown (s : State) : PeerShown :=
  { prod := s.otp.lc == .prod, testRoot := s.aon.testRoot, invasive := invasiveOn s || decide (8 ≤ anyLevels s),
    ipVersion := ipVersionW.toNat, svn := s.hub.svn, digest := s.hub.digest,
    root := wordBytes ((List.range 16).map (fun i => fuseW s (0x300 + i))), member := s.dom.member }

/-! Links and wrapped keys (05 R164, R165). -/

/-- Bytes 0 to 19 of a wrapped key. -/
def wrapHead (kind dom gen vertex : Nat) : Bytes :=
  [1] ++ leBytes 1 kind ++ [0, 0] ++ leBytes 8 dom ++ leBytes 4 gen ++ leBytes 2 vertex ++ [0, 0]

/-- A wrapped key blob: link ID and send count form its nonce. -/
def wrapKey (l : Link) (kind dom gen : Nat) (key : BitVec 256) : Bytes :=
  let aad := wrapHead kind dom gen l.peer
  let nonce := leBytes 4 l.id ++ leBytes 8 l.sends
  let c := gcmCrypt l.tk nonce (keyBytes key)
  aad ++ nonce ++ c ++ gcmTag l.tk nonce aad c

/-- Open a blob: its head is the one expected and its tag verifies. -/
def unwrapKey (tk : BitVec 256) (b : Bytes) (kind dom gen vertex : Nat) : Option (BitVec 256) :=
  let aad := b.take 20
  let nonce := slice b 20 12
  let c := slice b 32 32
  if b.length = 80 ∧ aad = wrapHead kind dom gen vertex ∧ gcmTag tk nonce aad c = slice b 64 16 then
    some (keyOf (gcmCrypt tk nonce c))
  else none

/-- The 48 bytes that a link record holds. Their places are the model's. DESIGN CHOICE (log 55). -/
def linkBytes (l : Link) : Bytes := leBytes 2 l.peer ++ [0, 0] ++ leBytes 4 l.id ++ leBytes 8 l.sends ++ keyBytes l.tk

/-- Seal a link record under SESSION kind 1; its nonce is the link ID and the send count (05 R164 step 7; log 55). -/
def sealLink (s : State) (l : Link) : Link × State :=
  let r := sealOwn s l.peer 1 (leBytes 4 l.id ++ leBytes 8 l.sends) (linkBytes l)
  ({ l with sealed := r.1.getD [] }, r.2)

/-- The send count rises in the link record before a blob (05 R165). -/
def sendLink (s : State) (l : Link) : Link × State := sealLink s { l with sends := l.sends + 1 }

/-- A new link record; its ID is free. -/
def newLink (s : State) (peer : Nat) (tk : BitVec 256) : Link × State :=
  let n := freeN s
  sealLink n.2 { peer := peer, id := n.1 % 2 ^ 32, tk := tk, sends := 0 }

/-- Change the entry of a child. -/
def modChild (s : State) (v : Nat) (f : Child → Child) : State := { s with dom := { s.dom with children := tmod s.dom.children v f } }

/-- The child through which a vertex is reached. -/
def routeTo (s : State) (v : Nat) : Option Nat := (tfind s.dom.children (fun c x => c == v || x.via.contains v)).map (·.1)

/-- A DOMAIN_JOIN for a child: both keys wrapped under its link (05 R151, R165). -/
def joinMsg (s : State) (c : Child) : Bytes × Child × State :=
  let l1 := sendLink s c.link
  let l2 := sendLink l1.2 l1.1
  let s := l2.2
  let id := domainId s
  let dig := (s.dom.policy.map (·.digest)).getD []
  (leBytes 2 0x10 ++ dig ++ leBytes 8 id ++ leBytes 4 s.dom.gen ++ leBytes 2 c.link.peer ++ [0, 0] ++
    wrapKey l1.1 1 id s.dom.gen (slotAt s 3).key ++ wrapKey l2.1 2 id s.dom.gen (slotAt s 5).key, { c with link := l2.1 }, s)

/-- A committed member sends DOMAIN_JOIN to the children that wait for it, but not while a rekey distributes or switches,
when a child would miss the new key. DEDUCED (log 21). -/
def sendJoins (s : State) : State :=
  if !s.dom.member ∨ !channelUp s ∨ s.dom.rekey.any (fun r => r.phase != .draining) then s
  else s.dom.children.foldl (fun s x =>
    if x.2.link.sends ≠ 0 then s
    else
      let m := joinMsg s x.2
      spdmSay (modChild m.2.2 x.1 (fun _ => m.2.1)) (.peer x.1) (.content m.1)) s

/-! The end of an enrolment (05 R166 to R168, R469). -/

/-- An enrolment fails: its command completes. A block that is no member holds nothing of the domain any more. -/
def failEnrol (s : State) (status : Nat) : State :=
  match s.dom.enrol with
  | none => s
  | some e =>
    let s := failWaiting s e.src status
    if s.dom.member then { s with dom := { s.dom with enrol := none } }
    else
      let s := if e.joined then invalidateSlot (invalidateSlot s 3) 5 else s
      loseDomain (clearStreams (clearChords s))

/-- A child is still in its session with this block, or on the way to one (05 R147, R164). -/
def childOpening (s : State) : Bool :=
  !s.dom.opening.isEmpty || s.ident.sessions.any (fun x => !x.2.requester && match x.2.conn with
    | .peer _ => true
    | .mbox _ => false)

/-- BCP_DOMAIN_ENROL completes: the block is committed and every child beneath it has committed or failed; `w5` counts the vertices beneath
(05 R167). -/
def endEnrol (s : State) (src : Nat) : State :=
  match s.dom.enrol with
  | none => s
  | some e =>
    if e.src ≠ src ∨ !e.committed ∨ childOpening s ∨ !s.dom.children.all (·.2.committed) then s
    else
      let n := (s.dom.children.map (fun x => x.2.below + 1)).foldl (· + ·) 0
      let s := { s with dom := { s.dom with enrol := none } }
      match packetOf s src .domainEnrol with
      | some k => reply s src .domainEnrol k.tag stOk [toW (domainId s), toW (domainId s / 2 ^ 32), toW s.dom.gen, toW (n % 2 ^ 16)]
      | none => s

/-- An enrolment starts. -/
def openEnrol (s : State) (src : Nat) (k : Packet) (parent : Nat) (settled : Bool) : State :=
  let e : Enrol := { src := src, tag := k.tag, reparent := s.dom.member && !settled, parent := parent, start := s.aon.ts,
                     accepted := settled, joined := settled, committed := settled }
  startBg { s with dom := { s.dom with enrol := some e } } src .domainEnrol (namesOf .domainEnrol k.params)

/-- The Lead of a new domain: keys from the DRBG, generation 1, its own vertex marked, committed (05 R163). -/
def becomeLead (s : State) (v : Nat) : State :=
  let a := draw s 32
  let b := draw a.2 32
  let s := fillSlot (fillSlot b.2 3 (keyOf a.1) 4 4#16 0 0 0) 5 (keyOf b.1) 5 1#16 0 0 0
  { s with dom := { s.dom with gen := 1, enrolled := [v], allMarked := false, member := true, role := 2 } }

/-- The checks of BCP_DOMAIN_ENROL: identity, vertex, domain, retransmit area, policy, role (05 R144, R162, R163, R167,
R469; 07 R230). -/
def enrolCheck (s : State) (k : Packet) (sigs : Bool) : Option Nat :=
  let v := fld (pw k.params 1) 15 0
  let pol := parsePolicy k.blob
  if !s.ident.avail then some stNotPermitted
  else if s.dom.vertex.any (· != v) then some stNotPermitted
  else if s.dom.member ∧ pol.domainId ≠ domainId s then some stNotPermitted
  else if fld (reg s 0x1A008) 10 0 < 16 then some stNoResource
  else if !(policyFormed k.blob && sigs && admits pol v (selfShown s)) then some stNotPermitted
  else if fld (pw k.params 0) 1 0 = 1 ∧ !(if s.dom.member then pol.leadSet.contains v else pol.leadSet.head? == some v) then
    some stNotPermitted
  else none

/-- BCP_DOMAIN_ENROL. A member keeps the policy in force. -/
def domainEnrol (s : State) (src : Nat) (k : Packet) (sigs : Bool) : State :=
  if k.more then replyPending s src k (repeatedWords .domainEnrol k.params)
  else
    let v := fld (pw k.params 1) 15 0
    let parent := fld (pw k.params 2) 15 0
    let lead := fld (pw k.params 0) 1 0 = 1
    match enrolCheck s k sigs with
    | some st => reply s src .domainEnrol k.tag st []
    | none =>
      if s.dom.member then
        if lead then openEnrol { s with dom := { s.dom with role := 2, allMarked := true, parent := none } } src k 0 true
        else spdmSend (openEnrol s src k parent false) parent
      else
        let s := { s with dom := { s.dom with vertex := some v, policy := some (parsePolicy k.blob) } }
        if lead then
          if s.hub.drbgRefuse then
            reply { s with dom := { s.dom with vertex := none, policy := none } } src .domainEnrol k.tag stInternal []
          else openEnrol (becomeLead s v) src k 0 true
        else spdmSend (openEnrol s src k parent false) parent

/-- BCP_DOMAIN_ENROL (05 R164): `sigs` is the verdict on both owner signatures. -/
def execBcpDomainEnrol (src : Nat) (sigs : Bool) (s : State) : Host.Outcome State Fault Refusal :=
  runCmd src .domainEnrol (fun s k => domainEnrol s src k sigs) s

/-- ENROL_SESSION_TIMEOUT (05 R167). -/
def execEnrolSessionTimeout (s : State) : Host.Outcome State Fault Refusal :=
  runFw (fun s => if s.dom.enrol.any (fun e => !e.accepted) then failEnrol s stTimeout else s) s

/-- ENROL_SESSION_RETRY (05 R167). -/
def execEnrolSessionRetry (s : State) : Host.Outcome State Fault Refusal :=
  runFw (fun s => match s.dom.enrol with
    | some e => if e.accepted then s else spdmSend s e.parent
    | none => s) s

/-! The session of an enrolment (05 R152, R164). -/

/-- A peer passes the check of 05 R162 under the policy in force. -/
def peerAdmitted (s : State) (v : Nat) (x : PeerShown) : Bool := s.dom.policy.any (fun p => admits p v x)

/-- HYB_SIGN: a failure ends the session; at a child it fails the enrolment when its parent is not admitted; at a parent
the peer is checked, and its link record opened. An enrolment needs mutual authentication (05 R164 step 2). A peer that is a
member and no vertex enrolling beneath this block re-parents under its Chord (05 R147, R168). DEDUCED (log 19). -/
def hybSign (s : State) (c : Conn) (sid : Nat) (x : Session) (ok : Bool) (peer : PeerShown) : State × Option SpdmRsp :=
  if !x.kem ∨ x.hybrid then (s, some (.error .unexpected))
  else if !ok then (endSession s c sid, some (.error .unspecified))
  else
    let y := hybridOf x
    let n := freeN s
    let s := n.2
    let done := (setSession s sid y, some (SpdmRsp.content (mldsaSig (aliasSeed s) y.thHyb n.1)))
    match c with
    | .mbox _ => done
    | .peer v =>
      let good := x.mutualAuth && peerAdmitted s v peer
      if x.requester ∧ s.dom.enrol.any (fun e => !e.joined && e.parent == v) then
        if good then done else (failEnrol (endSession s c sid) stNotPermitted, none)
      else if !x.requester ∧ (s.dom.opening.contains v ∨ peer.member) then
        if good ∧ (tdel s.dom.children v).length < 256 then
          let l := newLink done.1 v y.tk
          let ch : Child := { link := l.1, committed := peer.member, below := 0, via := [], dist := none, switched := none,
                              drained := none }
          (sendJoins { l.2 with dom := { l.2.dom with children := tset l.2.dom.children v ch } }, done.2)
        else (endSession s c sid, some (.error .unspecified))
      else done

/-- HYB_SIGN (05 R152): `ok` is the verdict on the peer's signature, `peer` what it shows of itself. -/
def execHybSign (conn : Conn) (sid : Nat) (ok : Bool) (peer : PeerShown) (s : State) : Host.Outcome State Fault Refusal :=
  runEng (inSession conn sid (fun s x => hybSign s conn sid x ok peer)) s

/-- SPDM_END_SESSION (05 R149, 13 R435): a child whose session ends before it has the keys has failed (`joined` false: its
answer to DOMAIN_JOIN refused them, or none came), and so has an enrolment of this block (05 R164, R167). -/
def execSpdmEndSession (conn : Conn) (sid : Nat) (joined : Bool) (s : State) : Host.Outcome State Fault Refusal :=
  runEng (inSession conn sid (fun s x =>
    let s := endSession s conn sid
    match conn with
    | .mbox _ => (s, some (.content []))
    | .peer v =>
      let s := if !x.requester && !joined && (tget s.dom.children v).any (fun c => c.link.tk == x.tk) then
          { s with dom := { s.dom with children := tdel s.dom.children v } } else s
      if !x.requester then (s, some (.content []))
      else (if s.dom.enrol.any (fun e => !e.joined && e.parent == v) then failEnrol s stNotPermitted else s, none))) s

/-! DOMAIN_JOIN at the child (05 R164 to R166, R168). -/

/-- The keys of a DOMAIN_JOIN that is for this block: generation, DOMAIN_LINK, DOMAIN_STORE. -/
def joinKeys (s : State) (x : Session) (m : Bytes) : Option (Nat × BitVec 256 × BitVec 256) :=
  let id := leAt m 48 8
  let gen := leAt m 56 4
  let v := leAt m 60 2
  if m.length = 224 ∧ s.dom.policy.any (fun p => p.digest == m.take 48 && p.domainId == id) ∧ ownVertex s v ∧ leAt m 62 2 = 0 then
    match unwrapKey x.tk (slice m 64 80) 1 id gen v, unwrapKey x.tk (slice m 144 80) 2 id gen v with
    | some a, some b => some (gen, a, b)
    | _, _ => none
  else none

/-- The status a child answers. -/
def joinSay (status : Byte) : Option SpdmRsp := some (.content [status, 0, 0, 0])

/-- Take the keys of the parent, or refuse them; the enrolment then fails as the session ends. -/
def domainJoin (s : State) (v : Nat) (x : Session) (e : Enrol) (m : Bytes) : State × Option SpdmRsp :=
  match joinKeys s x m with
  | none => (s, joinSay 1)
  | some (gen, a, b) =>
    let l := newLink s v x.tk
    if e.reparent then
      if (slotAt s 3).key = a ∧ (slotAt s 5).key = b ∧ s.dom.gen = gen then
        ({ l.2 with dom := { l.2.dom with
          parent := some l.1, role := 1, enrol := some { e with joined := true, committed := true } } }, joinSay 0)
      else (s, joinSay 1)
    else
      let s := fillSlot (fillSlot l.2 3 a 4 4#16 0 0 0) 5 b 5 1#16 0 0 0
      let s := { s with dom := { s.dom with gen := gen, parent := some l.1, enrol := some { e with joined := true } } }
      (pushCtl s v 8 gen (leBytes 2 (s.dom.vertex.getD 0) ++ [0, 0]), joinSay 0)

/-- DOMAIN_JOIN (05 R165): the payload after its message code, in the hybrid session with the parent. -/
def execDomainJoin (sid : Nat) (msg : Bytes) (s : State) : Host.Outcome State Fault Refusal :=
  runEng (fun s => match s.dom.enrol with
    | none => s
    | some e =>
      if e.joined then s
      else inSession (.peer e.parent) sid (fun s x =>
        if x.hybrid ∧ x.requester then domainJoin s e.parent x e msg else (s, some (.error .unexpected))) s) s

/-! Domain control messages (05 R166, R170). -/

/-- Take the first message of a code; none of its effect when DOMAIN_ID, the generation or its length does not match. -/
def ctlRun (code gen len : Nat) (f : State → Nat → Bytes → State) (s : State) : State :=
  match popInbox s (fun f => f.hdr.op == opMgmt && !f.hdr.mbxs && isCtl f && leAt f.payload 0 1 == code) with
  | none => s
  | some (m, s) =>
    let b := m.payload
    if leAt b 4 8 = domainId s ∧ s.dom.policy.isSome ∧ leAt b 12 4 = gen ∧ b.length = 16 + len then f s m.hdr.src (b.drop 16) else s

/-- A message sealed under a domain key generation that the block holds, though it may switch before the frame leaves
(05 R176). -/
def pushOld (s : State) (dst code gen : Nat) (body : Bytes) : State :=
  pushTx s { TxFrame.blank with
    dst := dst, op := opMgmt, payload := mgmtHeader s code gen ++ body, origin := .own, under := some gen }

/-- Body of a COMMIT. -/
def commitBody (v result : Nat) : Bytes := leBytes 2 v ++ leBytes 1 result ++ [0]

/-- The child toward which the answer to a vertex goes: the one that reported it last, so that a refusal does not reach the block
that was committed under the vertex before (05 R166). -/
def answerTo (s : State) (v : Nat) : Option Nat := match tget s.dom.asked v with
  | some c => some c
  | none => routeTo s v

/-- Send a COMMIT down toward a vertex and keep count: a committed vertex beneath a child counts, a refused child is no
child any more. -/
def sendCommit (s : State) (v result : Nat) : State :=
  match answerTo s v with
  | none => s
  | some c =>
    let s := { s with dom := { s.dom with asked := tdel s.dom.asked v } }
    let s := pushCtl s c 9 s.dom.gen (commitBody v result)
    if result = 0 then modChild s c (fun x => if c = v then { x with committed := true } else { x with below := x.below + 1 })
    else if c = v then { s with dom := { s.dom with children := tdel s.dom.children c } }
    else modChild s c (fun x => { x with via := x.via.filter (· != v) })

/-- The Lead answers a reported vertex (05 R166, R176). -/
def leadEnrolled (s : State) (v : Nat) : State :=
  if s.dom.allMarked ∨ s.dom.enrolled.contains v ∨ s.dom.held.contains v then sendCommit s v 1
  else if s.dom.rekey.any (fun r => r.phase != .draining) then { s with dom := { s.dom with held := s.dom.held ++ [v] } }
  else sendCommit { s with dom := { s.dom with enrolled := s.dom.enrolled ++ [v] } } v 0

/-- A vertex is reported by a child. -/
def enrolledMsg (s : State) (src v : Nat) : State :=
  match tget s.dom.children src with
  | none => s
  | some c =>
    let s := if v = src ∨ c.via.contains v then s else modChild s src (fun c => { c with via := c.via ++ [v] })
    let s := { s with dom := { s.dom with asked := tset s.dom.asked v src } }
    if s.dom.role = 2 then leadEnrolled s v
    else match s.dom.parent with
      | some l => pushCtl s l.peer 8 s.dom.gen (leBytes 2 v ++ [0, 0])
      | none => s

/-- ENROLLED_RX (05 R166). -/
def execEnrolledRx (s : State) : Host.Outcome State Fault Refusal :=
  runFw (fun s => ctlRun 8 s.dom.gen 4 (fun s src b => enrolledMsg s src (leAt b 0 2)) s) s

/-- The block leaves with its subtree: COMMIT with result 1 to each child, then the end of its membership (05 R176). -/
def leaveWithChildren (s : State) : State :=
  let s := s.dom.children.foldl (fun s x => pushCtl s x.1 9 s.dom.gen (commitBody x.1 1)) s
  { s with dom := { s.dom with leaving := true } }

/-- A COMMIT from the parent: for this block, or to be passed on. -/
def commitMsg (s : State) (src v result : Nat) : State :=
  if !s.dom.parent.any (fun l => l.peer == src) then s
  else if !ownVertex s v then sendCommit s v result
  else if result = 0 then
    if s.dom.enrol.any (fun e => e.joined && !e.committed) then
      sendJoins { s with dom := { s.dom with
        member := true, role := 1, enrol := s.dom.enrol.map (fun e => { e with committed := true }) } }
    else s
  else if s.dom.member then leaveWithChildren s
  else failEnrol s stNotPermitted

/-- COMMIT_RX (05 R166, R176). -/
def execCommitRx (s : State) : Host.Outcome State Fault Refusal :=
  runFw (fun s => ctlRun 9 s.dom.gen 4 (fun s src b => commitMsg s src (leAt b 0 2) (leAt b 2 1)) s) s

end Sys2Proof.Machine
end

