-- ==== Sys2Proof/Machine/Debug.lean ====
section
/-! DEFINITION. Programmable counters, the coarsened view, the timestamp's adjustment, debug authorization, the sink of tensor dumps,
watchpoints, and the debug port (13 R423 to R443). -/

namespace Sys2Proof.Machine

/-! Programmable counters (13 R423 to R425). -/

/-- The event numbers of 13 R424. -/
def eventListed (e : Nat) : Bool :=
  e ≤ 2 || (0x10 ≤ e && e ≤ 0x47) || (0x50 ≤ e && e ≤ 0x56) || (0x60 ≤ e && e ≤ 0x64) || (0x70 ≤ e && e ≤ 0x82) ||
  (0x90 ≤ e && e ≤ 0x93) || e == 0xA0 || e == 0xA1

/-- The first check of BCP_PMU_CONFIG that fails. -/
def pmuCheck (s : State) (src : Nat) (p : List Word) : Option Nat :=
  let c := tgetD s.dbg.cnt (fld (pw p 0) 6 0) Counter.free
  if !eventListed (fld (pw p 1) 9 0) || decide (1 < fld (pw p 1) 17 16) then some stBadParam
  else if !isM src && !(wbit (pw p 2) 4 && fld (pw p 2) 3 0 == src - 1) then some stNotPermitted
  else if c.owner ≠ 31 ∧ c.owner ≠ src then some stBusy
  else none

/-- A counter's sticky bit falls. -/
def clearOvf (s : State) (i : Nat) : State :=
  setReg s (0x60010 + 4 * (i / 32)) (reg s (0x60010 + 4 * (i / 32)) &&& ~~~(toW (2 ^ (i % 32))))

/-- BCP_PMU_CONFIG. -/
def pmuConfig (s : State) (src : Nat) (k : Packet) : State :=
  let p := k.params
  match pmuCheck s src p with
  | some st => reply s src .pmuConfig k.tag st []
  | none =>
    let i := fld (pw p 0) 6 0
    let old := tgetD s.dbg.cnt i Counter.free
    let s :=
      if wbit (pw p 1) 20 then
        let c := { Counter.free with
          owner := src, event := fld (pw p 1) 9 0, mode := fld (pw p 1) 17 16, enable := true, part := fld (pw p 2) 3 0
          filter := wbit (pw p 2) 4, cVal := old.cVal, cOvf := old.cOvf, cSnap := old.cSnap }
        clearOvf { s with dbg := { s.dbg with cnt := tset s.dbg.cnt i c } } i
      else { s with dbg := { s.dbg with cnt := tset s.dbg.cnt i { old with owner := 31, enable := false } } }
    reply s src .pmuConfig k.tag stOk []

/-- BCP_PMU_CONFIG (13 R423). -/
def execBcpPmuConfig (src : Nat) (s : State) : Host.Outcome State Fault Refusal :=
  runCmd src .pmuConfig (fun s k => pmuConfig s src k) s

/-- The coarsened views are taken (13 R429; 11 R380). -/
def coarsen (s : State) : State :=
  { s with
    dbg := { s.dbg with
      cnt := tmapV s.dbg.cnt (fun _ c => { c with cVal := c.val, cOvf := c.ovf, cSnap := c.snap })
      cAon := s.aon.cnt }
    parts := { s.parts with part := tmapV s.parts.part (fun _ r => { r with cBw := r.bw }) } }

/-- COARSEN_TICK (13 R429): the timestamp crosses a multiple of a millisecond. -/
def execCoarsenTick (s : State) : Host.Outcome State Fault Refusal := runAon coarsen s

/-! The timestamp (13 R431). -/

/-- The target of an adjustment. -/
def adjTarget (s : State) : Nat := (reg s 0x60038).toNat + 2 ^ 32 * (reg s 0x6003C).toNat

/-- TS_ADJ_GO: the timestamp jumps forward, once per cold reset. -/
def adjustTs (s : State) : State :=
  if !s.aon.adjDone && decide (s.aon.ts < adjTarget s) then { s with aon := { s.aon with ts := adjTarget s, adjDone := true } }
  else setBits s 0x60000 4#32

/-- TS_ADJ_GO (13 R431). -/
def execTsAdjGo (who : Requester) (s : State) : Host.Outcome State Fault Refusal := runWrite who 0x60040 adjustTs s

/-! Debug authorization (13 R433 to R435). -/

/-- A source may have these levels. -/
def levelsOk (s : State) (src : Nat) (l : BitVec 5) : Bool :=
  let operator := match s.dom.policy with
    | some p => p.flags / 2 % 2 == 1
    | none => false
  let deep := l.getLsbD 3 || l.getLsbD 4
  (!l.getLsbD 0 || isMember s) && (!deep || (isM src && (!isMember s || operator)))

/-- A session qualifies: hybrid, mutually authenticated, its requester's keys the operator's or the licensee's. -/
def sessionFits (s : State) (src : Nat) (x : Session) : Bool :=
  x.conn == .mbox src && x.hybrid && x.mutualAuth &&
  if isMember s then (match s.dom.policy with
    | some p => x.leaf.take 48 == p.opKey.take 48
    | none => false)
  else x.rooted

/-- The session that the authorization of a source rests on. -/
def authSession (s : State) (src : Nat) : Option Nat := (tfind s.ident.sessions (fun _ x => sessionFits s src x)).map (·.1)

/-- The grants of a source. -/
def dbgGrantOf (s : State) (src : Nat) : Grant := tgetD s.dbg.grants src { made := [], nonce := none }

/-- Replace them. -/
def setGrant (s : State) (src : Nat) (g : Grant) : State := { s with dbg := { s.dbg with grants := tset s.dbg.grants src g } }

/-- SUBOP 0: a challenge. -/
def authChallenge (s : State) (src : Nat) (k : Packet) (l : BitVec 5) : State :=
  if !levelsOk s src l || (authSession s src).isNone then reply s src .debugAuth k.tag stNotPermitted []
  else if s.hub.drbgRefuse then reply s src .debugAuth k.tag stInternal []
  else
    let d := draw s 32
    let s := setGrant d.2 src { dbgGrantOf d.2 src with nonce := some (d.1, d.2.aon.ts) }
    reply s src .debugAuth k.tag stOk (bytesWords d.1)

/-- The nonce of a respond is the one given, at most 10 s old. -/
def nonceFits (s : State) (src : Nat) (n : Bytes) : Bool :=
  match (dbgGrantOf s src).nonce with
  | some (b, t) => b == n && decide (s.aon.ts ≤ t + 10000000000)
  | none => false

/-- SUBOP 1: the response; `sigs` says that both signatures verify. -/
def authRespond (s : State) (src : Nat) (k : Packet) (l : BitVec 5) (sigs : Bool) : State :=
  let ok := levelsOk s src l && nonceFits s src (wordBytes (slice k.params 2 8)) && sigs
  let sid := authSession s src
  let s := setGrant s src { dbgGrantOf s src with nonce := none }
  match ok, sid with
  | true, some sid =>
    let s := if l.getLsbD 3 || l.getLsbD 4 then latchTestRoot s else s
    let g := dbgGrantOf s src
    let old := ((tget g.made sid).map (·.1)).getD 0
    let n := s.dbg.serial + 1
    let s := setGrant { s with dbg := { s.dbg with serial := n } } src { g with made := tset g.made sid (old ||| l, n) }
    reply s src .debugAuth k.tag stOk [toW (levelsOf s src).toNat]
  | _, _ => reply (setBits s 0x70004 8#32) src .debugAuth k.tag stNotPermitted []

/-- SUBOP 2: levels are given up. -/
def authRevoke (s : State) (src : Nat) (k : Packet) (l : BitVec 5) : State :=
  let g := dbgGrantOf s src
  let s := setGrant s src { g with made := tmapV g.made (fun _ m => (m.1 &&& ~~~l, m.2)) }
  reply s src .debugAuth k.tag stOk [toW (levelsOf s src).toNat]

/-- BCP_DEBUG_AUTH. -/
def debugAuth (s : State) (src : Nat) (k : Packet) (sigs : Bool) : State :=
  let l := BitVec.ofNat 5 (fld (pw k.params 1) 4 0)
  match fld (pw k.params 0) 7 0 with
  | 0 => authChallenge s src k l
  | 1 => authRespond s src k l sigs
  | _ => authRevoke s src k l

/-- BCP_DEBUG_AUTH (13 R434, R435). -/
def execBcpDebugAuth (src : Nat) (sigs : Bool) (s : State) : Host.Outcome State Fault Refusal :=
  runCmd src .debugAuth (fun s k => debugAuth s src k sigs) s

/-! Arming a dump (13 R436). -/

/-- BCP_DUMP_ARM. -/
def dumpArm (s : State) (src : Nat) (k : Packet) : State :=
  let p := k.params
  let tag := (pw p 0).toNat
  let step := pw64 p 1
  let dest := fld (pw p 3) 15 0
  let no := fun st => reply s src .dumpArm k.tag st []
  if !holdsLevel s src 0 then no stNotPermitted
  else if wbit (pw p 4) 0 then
    match tfind s.dbg.arms (fun _ a => a.src == src && a.tag == tag && a.step == step) with
    | some (i, _) => reply { s with dbg := { s.dbg with arms := tdel s.dbg.arms i } } src .dumpArm k.tag stOk [toW i]
    | none => no stBadParam
  else if !(ownVertex s dest || otherMember s dest) then no stNotPermitted
  else match lowestFrom (fun i => (tget s.dbg.arms i).isNone) 8 0 with
    | none => no stNoResource
    | some i =>
      let a : Arm := { tag := tag, step := step, dest := dest, src := src }
      reply { s with dbg := { s.dbg with arms := tset s.dbg.arms i a } } src .dumpArm k.tag stOk [toW i]

/-- BCP_DUMP_ARM (13 R436). -/
def execBcpDumpArm (src : Nat) (s : State) : Host.Outcome State Fault Refusal :=
  runCmd src .dumpArm (fun s k => dumpArm s src k) s

/-! The ring at the destination of dumps (13 R439). -/

/-- DBG_RING_RECORDS. -/
def ringCount (s : State) : Nat := fld (reg s 0x70018) 15 0

/-- DBG_RING_RD; it starts at 1. -/
def ringRd (s : State) : Nat := fld (reg s 0x70020) 15 0

/-- The record after one: data records are numbered from 1. -/
def ringNext (s : State) (i : Nat) : Nat := if ringCount s ≤ i + 1 then 1 else i + 1

/-- Write a ring record of 4 KiB. -/
def ringWrite (s : State) (i : Nat) (b : Bytes) : State :=
  let base := (reg s 0x70010).toNat + 2 ^ 32 * (reg s 0x70014).toNat
  pmReq s .dbgRing true (base + 4096 * i) 4096 (padTo 4096 b) [] none

/-- The level-0 grant of an M source: its session and serial. -/
def exportGrant (s : State) : Option (Nat × Nat) :=
  let of := fun (src : Nat) => (tfind (dbgGrantOf s src).made (fun _ m => m.1.getLsbD 0)).map (fun x => (x.1, x.2.2))
  (of 0).orElse (fun _ => of 17)

/-- The ring is enabled: the export key is derived and its wrapped record written. The blob's send count is that of key records
written since the reset. DESIGN CHOICE (log 26). -/
def ringStart (s : State) : State :=
  let s := { s with dbg := { s.dbg with ringSeq := 0, ringWr := 1, ringKey := none } }
  match exportGrant s with
  | none => s
  | some (sid, serial) =>
    match tget s.ident.sessions sid with
    | none => s
    | some x =>
      let u := useKey s 5 0
      if u.1 ≠ stOk ∨ s.hub.drbgRefuse ∨ !channelUp s then s
      else
        let d := draw u.2 16
        let v := d.2.dom.vertex.getD 0
        let s := exportKey d.2 (leBytes 2 v ++ leBytes 4 serial ++ d.1)
        let n := s.dbg.ringGen
        let w := wrapKey { peer := v, id := sid, tk := x.tk, sends := n } 3 (domainId s) s.dom.gen (slotAt s exportSlot).key
        let s := { s with dbg := { s.dbg with ringKey := some (slotAt s exportSlot).gen, ringGen := n + 1 } }
        ringWrite s 0 (leBytes 4 0x4B445654 ++ leBytes 4 sid ++ w)

/-- A write of DBG_RING_RECORDS: while the ring is enabled only a count below 2 takes effect, and disables it. -/
def ringRecords (s : State) (w : Word) : State :=
  let on := decide (2 ≤ ringCount s)
  let n := fld w 15 0
  if on && decide (2 ≤ n) then s
  else
    let s := setReg s 0x70018 (toW n)
    if n < 2 then { s with dbg := { s.dbg with ringKey := none } } else ringStart s

/-- DBG_RING_ENABLE (13 R439). -/
def execDbgRingEnable (w : Word) (who : Requester) (s : State) : Host.Outcome State Fault Refusal :=
  runWrite who 0x70018 (fun s => ringRecords s w) s

/-- A data record: header, ciphertext, tag. -/
def ringRecord (s : State) (key : BitVec 256) (f : InFrame) : Bytes :=
  let p := f.payload
  let n := leAt p 24 4
  let h := leBytes 4 0x58445654 ++ slice p 0 4 ++ slice p 8 8 ++ leBytes 2 f.hdr.src ++ slice p 4 1 ++
    leBytes 1 (leAt p 5 1 % 2 + 2 * b2n s.aon.gapDump) ++ slice p 16 8 ++ leBytes 4 n ++ leBytes 8 s.dbg.ringSeq ++ leBytes 8 s.aon.ts
  let nonce := leBytes 8 s.dbg.ringSeq ++ [0, 0, 0, 0]
  let c := gcmCrypt key nonce (padTo (4 * n) (slice p 32 (4 * n)))
  h ++ c ++ gcmTag key nonce h c

/-- A DUMP frame at its destination. -/
def dumpRx (s : State) (f : InFrame) : State :=
  let full := ringNext s s.dbg.ringWr == ringRd s
  match s.dbg.ringKey with
  | none => setBits (bump s 0x70030) 0x70004 4#32
  | some gen =>
    let u := useKey s exportSlot 6
    if !mLevel s 0 || decide (ringCount s < 2) || full || (slotAt s exportSlot).gen != gen || u.1 != stOk then
      setBits (bump s 0x70030) 0x70004 4#32
    else
      let s1 := ringWrite u.2 s.dbg.ringWr (ringRecord s (slotAt s exportSlot).key f)
      { s1 with
        dbg := { s1.dbg with ringWr := ringNext s s.dbg.ringWr, ringSeq := s.dbg.ringSeq + 1 }
        aon := { s1.aon with gapDump := false } }

/-- DUMP_FRAME_RX (13 R439). -/
def execDumpFrameRx (s : State) : Host.Outcome State Fault Refusal :=
  runEng (fun s => match s.fab.inbox with
    | f :: rest => if f.hdr.op = opDump then dumpRx { s with fab := { s.fab with inbox := rest } } f else s
    | [] => s) s

/-! Watchpoints (13 R441). -/

/-- BCP_WATCH_SET. -/
def watchSet (s : State) (src : Nat) (k : Packet) : State :=
  let p := k.params
  let i := fld (pw p 0) 2 0
  let c := pw p 1
  let old := tgetD s.dbg.watch i Watch.free
  let no := fun st => reply s src .watchSet k.tag st []
  if !holdsLevel s src 2 then no stNotPermitted
  else if pw64 p 4 < pw64 p 2 then no stBadParam
  else if csCount s.size ≤ fld c 7 4 then no stBadParam
  else if old.owner ≠ 31 ∧ old.owner ≠ src then no stBusy
  else
    let w := if wbit c 2 then
        { old with owner := src, read := wbit c 0, write := wbit c 1, enable := true, port := fld c 7 4, base := pw64 p 2,
                   limit := pw64 p 4 }
      else { old with owner := 31, enable := false }
    reply { s with dbg := { s.dbg with watch := tset s.dbg.watch i w } } src .watchSet k.tag stOk []

/-- BCP_WATCH_SET (13 R441). -/
def execBcpWatchSet (src : Nat) (s : State) : Host.Outcome State Fault Refusal :=
  runCmd src .watchSet (fun s k => watchSet s src k) s

/-! The debug port (13 R442, R443). -/

/-- A level of the debug space is open: by the life-cycle state, or to an M source that holds it. -/
def dpOpen (s : State) (l : Nat) : Bool := s.otp.lc == .testUnlocked || s.otp.lc == .analysis || mLevel s l

/-- Run an access of the debug port at a level, and respond. -/
def runDp (l : Nat) (f : State → State × Word × Bool) (s : State) : Host.Outcome State Fault Refusal :=
  runAon (fun s =>
    if dpOpen s l then
      let r := f s
      emit r.1 (.dbgRsp r.2.1 r.2.2)
    else emit s (.dbgRsp 0 true)) s

/-- A write of the debug space that is admitted. -/
def dpSet (s : State) (off : Nat) (w : Word) : State := { s with dbg := { s.dbg with dp := tset s.dbg.dp off w } }

/-- DP_INVASIVE or DP_SCAN_AUTH: the test root is latched before the bit is set (04 R127). -/
def dpLatch (s : State) (off : Nat) (w : Word) : State := dpSet (latchTestRoot s) off (w &&& 1#32)

/-- DP_INVASIVE_WRITE (13 R442). -/
def execDpInvasiveWrite (w : Word) (s : State) : Host.Outcome State Fault Refusal := runDp 3 (fun s => (dpLatch s 4 w, 0, false)) s

/-- DP_SCAN_AUTH_WRITE (13 R442). -/
def execDpScanAuthWrite (w : Word) (s : State) : Host.Outcome State Fault Refusal := runDp 4 (fun s => (dpLatch s 8 w, 0, false)) s

/-- The Hub halts before its next instruction, and the block drains. -/
def hubHalt (s : State) (hit : Nat) : State :=
  if invasiveOn s && s.hub.run == .running then { s with hub := { s.hub with run := .draining, bpHit := hit, drainLate := false } } else s

/-- DP_HUB_HALT (13 R443). -/
def execDpHubHalt (s : State) : Host.Outcome State Fault Refusal := runDp 3 (fun s => (hubHalt s 15, 0, false)) s

/-- Breakpoint `n` of core `n / 4` is enabled, and its core in the pair. -/
def bpArmed (s : State) (n : Nat) : Bool :=
  decide (n < 12) && wbit (dpWord s (0x100 + 16 * (n / 4) + 4 * (n % 4))) 0 && (s.hub.pairA == n / 4 || s.hub.pairB == n / 4)

/-- HUB_BREAKPOINT (13 R443). -/
def execHubBreakpoint (n : Nat) (s : State) : Host.Outcome State Fault Refusal :=
  runEng (fun s => when_ (bpArmed s n) (fun s => hubHalt s n) s) s

/-- HUB_DRAIN_DONE (13 R443 steps 3 and 4). -/
def execHubDrainDone (late : Bool) (s : State) : Host.Outcome State Fault Refusal :=
  runEng (fun s => when_ (s.hub.run == .draining) (fun s =>
    { s with hub := { s.hub with run := .halted, drainLate := late } }) s) s

/-- RESUME: the firmware takes what has come to its ports meanwhile; what it makes of its RAM is not known. -/
def hubResume (s : State) : State :=
  if s.hub.run = .halted then takeAcks (admitAll { s with hub := { s.hub with run := .running, ram := [] } }) else s

/-- DP_HUB_RESUME (13 R443). -/
def execDpHubResume (s : State) : Host.Outcome State Fault Refusal := runDp 3 (fun s => (hubResume s, 0, false)) s

/-- The Hub RAM word that DP_RAM_ADDR selects: what the debug port wrote or has read, else a free value. -/
def dpRam (s : State) (wr : Option Word) : State × Word × Bool :=
  if s.hub.run ≠ .halted then (s, 0, true)
  else
    let a := fld (dpWord s 0x20) 19 2
    match wr with
    | some w => ({ s with hub := { s.hub with ram := tset s.hub.ram a w } }, 0, false)
    | none => match tget s.hub.ram a with
      | some w => (s, w, false)
      | none =>
        let f := freeN s
        ({ f.2 with hub := { f.2.hub with ram := tset f.2.hub.ram a (toW f.1) } }, toW f.1, false)

/-- DP_RAM_DATA_ACCESS (13 R442): a read, or a write of a word. -/
def execDpRamDataAccess (wr : Option Word) (s : State) : Host.Outcome State Fault Refusal := runDp 3 (fun s => dpRam s wr) s

end Sys2Proof.Machine
end

