-- ==== Sys2Proof/Machine/FabricCmds.lean ====
section
/-! DEFINITION. The commands of the transaction unit: target requests, parks, responses, acknowledgements, timers and
stream gaps (07 R217 to R240), and the memory seal engine's own (07 R253; 08 R273 to R279; 04 R117). -/

namespace Sys2Proof.Machine

/-- CS_TARGET_REQUEST (07 R217): while ready is low the request is not accepted (07 R229; 01 R24; 02 R55, R66). -/
def execCsTargetRequest (port : Nat) (req : CsTarget) (s : State) : Host.Outcome State Fault Refusal :=
  runEng (fun s => when_ (dataUp s && decide (port < csCount s.size) && drivesLanes s && !parkFull s port &&
      decide (s.fab.tags.length < tagTotal s.size)) (fun s => csRequest s port req) s) s

/-- PARK_RELEASE (07 R229). -/
def execParkRelease (part : Nat) (s : State) : Host.Outcome State Fault Refusal :=
  runEng (fun s => ((s.fab.parks.filter (fun p => p.1 % 16 == part)).map (·.1)).foldl (drainPark 16) s) s

/-- TARGET_RESPONSE (02 R41). -/
def execTargetResponse (port tid : Nat) (s : State) : Host.Outcome State Fault Refusal :=
  runEng (fun s => csRespond s port tid) s

/-- RETX_RECORD_WRITE_DONE (07 R231; 12 R391). -/
def execRetxRecordWriteDone (tag : Nat) (ok : Bool) (s : State) : Host.Outcome State Fault Refusal :=
  runEng (fun s => match tget s.fab.tags tag with
    | none => s
    | some e =>
      if e.recs ≠ 0 ∨ e.retx = 0 then s
      else if ok then mirrorRec (setTag s tag { e with recs := 1 }) (.stored [tag])
      else ioEvent (setTag s tag { e with recs := 2 }) 0xFF 0 stTimeout e.dst ((ownerPart e.owner).getD 0) 0 (retxBase s + 256 * (e.retx - 1))) s

/-- HOME_REQUEST (07 R222). -/
def execHomeRequest (s : State) : Host.Outcome State Fault Refusal :=
  runEng (fun s => match popInbox s (fun f => f.hdr.op == opReq && !f.hdr.mbxs) with
    | some (f, s) => homeReq s f
    | none => s) s

/-! Responses and acknowledgements (07 R223, R224, R228, R233). -/

/-- The tag an RTAG names, when its entry is not free and its GEN matches. An answer from a vertex other than the frame's
destination, or to a frame of another kind, names no tag: it counts as stale. DESIGN CHOICE (log 55). -/
def tagByRtag (s : State) (peer rtag : Nat) (op : Nat → Bool) : Option (Nat × TagEnt) :=
  match tget s.fab.tags (rtag % 2 ^ 18) with
  | some e => if e.gen = rtag / 2 ^ 18 ∧ e.dst = peer ∧ op e.op then some (rtag % 2 ^ 18, e) else none
  | none => none

/-- A response breaks its layout (07 R223). -/
def rspBad (h : Hdr) (p : Bytes) (e : TagEnt) : Bool :=
  let st := leAt p 5 1
  let b := leAt p 6 1 % 32 + 1
  let opn := (Hdr.parse (e.content.take 32)).cclass == 1
  decide (16 ≤ leAt p 4 1) || decide (64 ≤ leAt p 6 1) || leAt p 7 1 != 0 || decide (2 ^ 31 ≤ leAt p 12 4) ||
  leAt p 4 1 % 16 != e.kind ||
  (if st ≠ stOk then h.plen != 16
   else if e.kind = kLoad then b != e.beats || h.plen != 16 + 128 * b
   else if e.kind = kAtomic then h.plen != (if opn then 16 else 32)
   else h.plen != 16)

/-- A RSP frame at the requester (07 R223, R228, R233): acknowledged whatever becomes of it. -/
def rspRx (s : State) (f : InFrame) : State :=
  let p := f.payload
  let s := pushEack s f.hdr.src f.hdr.tc (leAt p 8 4) stOk false
  match tagByRtag s f.hdr.src (leAt p 0 4) (fun o => o == opReq) with
  | none => bump s 0x1A038
  | some (t, e) =>
    if rspBad f.hdr p e then retire s t stBadParam [] 0
    else
      let st := leAt p 5 1
      let opn := (Hdr.parse (e.content.take 32)).cclass == 1
      let data := if e.kind = kAtomic ∧ opn then padTo 16 (leBytes 8 f.hdr.operand) else p.drop 16
      if st = stOk then retire s t st data (leAt p 12 4) else retire s t st [] 0

/-- RSP_RX (07 R223). -/
def execRspRx (s : State) : Host.Outcome State Fault Refusal :=
  runEng (fun s => match popInbox s (fun f => f.hdr.op == opRsp) with
    | some (f, s) => rspRx s f
    | none => s) s

/-- The stored frame without an RTAG of its own that a record's number names: the oldest REDUCE, MGMT, DUMP or GAP frame
to that peer in that class with this SEQ_LO. DESIGN CHOICE (log 14). -/
def tagBySeq (s : State) (peer tc n : Nat) : Option (Nat × TagEnt) :=
  (s.fab.tags.filter (fun p => p.2.dst == peer && p.2.tc == tc && p.2.state != 1 && p.2.seq % 2 ^ 32 == n &&
    (p.2.op == opReduce || p.2.op == opMgmt || p.2.op == opDump || p.2.op == opGap))).foldl
    (fun (b : Option (Nat × TagEnt)) x => match b with
      | none => some x
      | some y => if x.2.ord < y.2.ord then some x else some y) none

/-- One acknowledgement record (07 R228, R233). -/
def eackRec (s : State) (peer tc : Nat) (r : Bytes) : State :=
  let rtag := leAt r 0 4
  let dup := leAt r 5 1 % 2 == 1
  let hit := match tagBySeq s peer tc rtag with
    | some x => some x
    | none => tagByRtag s peer rtag (fun o => o == opReq || o == opRsp)
  match hit with
  | none => bump s 0x1A038
  | some (t, e) =>
    if !dup then retire s t (leAt r 4 1) [] 0
    else if e.op = opReq then setTag s t { e with state := 3 }
    else retire s t stOk [] 0

/-- Records of 8 bytes. -/
def eackRecs : Nat → Bytes → List Bytes
  | 0, _ => []
  | n + 1, b => b.take 8 :: eackRecs n (b.drop 8)

/-- EACK_RX (07 R224, R233). -/
def execEackRx (s : State) : Host.Outcome State Fault Refusal :=
  runEng (fun s => match popInbox s (fun f => f.hdr.op == opEack) with
    | some (f, s) => (eackRecs (f.payload.length / 8) f.payload).foldl (fun s r => eackRec s f.hdr.src f.hdr.tc r) s
    | none => s) s

/-- EACK_FLUSH (07 R224): the records gathered for a peer and class leave in one frame, at most 498 of them. -/
def execEackFlush (peer tc : Nat) (s : State) : Host.Outcome State Fault Refusal :=
  runEng (fun s =>
    let k := peer * 8 + tc
    let q := tgetD s.fab.eackQ k []
    if q.isEmpty ∨ 8 ≤ tc then s
    else
      let now := q.take 498
      let rest := q.drop 498
      let s := { s with fab := { s.fab with eackQ := if rest.isEmpty then tdel s.fab.eackQ k else tset s.fab.eackQ k rest } }
      pushTx s { TxFrame.blank with
        dst := peer, tc := tc, sub := 0xFF, op := opEack,
        payload := now.flatMap (fun r => leBytes 4 r.rtag ++ leBytes 1 r.status ++ leBytes 1 (b2n r.dup) ++ [0, 0]) }) s

/-- A GAP frame waits or is stored for the acknowledgement stream of a peer and class. -/
def ackGapOut (s : State) (peer tc : Nat) : Bool :=
  s.fab.txq.any (fun f => f.op == opGap && f.dst == peer && f.tc == tc && f.sub == 0xFF) ||
  s.fab.tags.any (fun p => p.2.op == opGap && p.2.dst == peer && p.2.tc == tc && subOf p.2.stream == 0xFF)

/-- ACK_STREAM_GAP (07 R226). -/
def execAckStreamGap (peer tc : Nat) (s : State) : Host.Outcome State Fault Refusal :=
  runEng (fun s =>
    let k := peer * 8 + tc
    if tgetD s.fab.ackSince k 0 = 0 ∨ ackGapOut s peer tc ∨ 8 ≤ tc then s
    else
      pushTx s { TxFrame.blank with dst := peer, tc := tc, sub := 0xFF, op := opGap, origin := .gap }) s

/-- E2E_TIMER_EXPIRY (07 R232). -/
def execE2eTimerExpiry (tag : Nat) (s : State) : Host.Outcome State Fault Refusal :=
  runEng (fun s => when_ (clkRuns s) (fun s => timerExpiry s tag) s) s

/-- STREAM_GAP_SEND (07 R234; 06 R205 step 3): no other frame of the stream is stored any more; new frames and GAPs travel in the present parity alone (06 R201). -/
def execStreamGapSend (key : Nat) (s : State) : Host.Outcome State Fault Refusal :=
  runEng (fun s => match tget s.links.egress key with
    | none => s
    | some c =>
      let stream := key / 2 % 65536
      let peer := key / 131072
      let queued := s.fab.txq.any (fun f => f.op == opGap && f.dst == peer && txStream f == stream)
      if !c.closing ∨ c.gap.isSome ∨ queued ∨ key % 2 ≠ s.dom.gen % 2 ∨ s.fab.tags.any (fun p => !isModTag p.2 && tagStream p.2 == key) then s
      else pushTx s { TxFrame.blank with dst := peer, owner := ownerOf stream, tc := stream / 256 % 8, sub := subOf stream,
                                         op := opGap, origin := .gap }) s

/-- The requests and responses before their engine are applied in the order of their release (07 R250). -/
def runInbox (s : State) : State :=
  let q := s.fab.inbox
  let run := fun (f : InFrame) => f.hdr.op == opReq || f.hdr.op == opRsp
  (q.filter run).foldl (fun s f => if f.hdr.op = opReq then homeReq s f else rspRx s f)
    { s with fab := { s.fab with inbox := q.filter (fun f => !run f) } }

/-- COMBINED_RX (06 R186; 07 R240, R250): the records that pass their checks are released, and applied in record order, each as
if it had arrived alone, after the requests released before them; the responses to its open atomics leave in one COMBINED
frame. At a synchronised owner a record waits for the mirror like any release (12 R410). -/
def execCombinedRx (port lane : Nat) (s : State) : Host.Outcome State Fault Refusal :=
  runEng (fun s =>
    let k := port * 8 + lane
    if !(portOk s port && decide (lane < 8)) then s
    else match stagedFrame s k with
      | none => s
      | some c =>
        if rxKind (c.take 32) ≠ .combined then s
        else
          let r := rxCombined s k c
          let g := r.1.fab.combN
          let opn := fun (f : InFrame) => f.hdr.op == opReq && leAt f.payload 4 1 % 16 == kAtomic && decide (128 ≤ leAt f.payload 4 1)
          let n := (r.2.filter opn).length
          let s := { r.1 with fab := { r.1.fab with combN := g + 1 } }
          runInbox (r.2.foldl (fun (a : State × Nat) f =>
            let f := if opn f then { f with comb := some (g, a.2, n) } else f
            (release a.1 f, if opn f then a.2 + 1 else a.2)) (s, 0)).1) s

/-! The memory seal engine's commands. -/

/-- HOTLINE_IDLE_WRITEBACK (07 R253). -/
def execHotlineIdleWriteback (kid line : Nat) (s : State) : Host.Outcome State Fault Refusal :=
  runEng (fun s => pumpMem (startWriteback s kid line)) s

/-- Operations that wait for a page's counter block fail (08 R274). -/
def failPage (s : State) (kid page status : Nat) : State :=
  let s := (s.mem.ops.filter (fun p => p.2.kid == kid && p.2.line / 64 == page && p.2.phase == .waiting)).foldl
    (fun s p => memFinish s p.1 p.2 status [] 0) s
  { s with mem := { s.mem with jobs := tkeep s.mem.jobs (fun _ j => !(j.kid == kid && j.page == page && !j.started)) } }

/-- COUNTER_CACHE_FILL (08 R273, R274): `victim` chooses among the items that may be evicted; a fill that finds no room stays for
another. -/
def execCounterCacheFill (id victim : Nat) (s : State) : Host.Outcome State Fault Refusal :=
  runEng (fun s => match tget s.mem.fills id with
    | none => s
    | some f =>
      if !allDone f.parts then s
      else match regionAt s f.kid with
        | none => { s with mem := { s.mem with fills := tdel s.mem.fills id } }
        | some r => match regionSlot s f.kid r.gen0 r with
          | none => keyMiss s f.kid r.gen0
          | some n =>
            let k := useRegionKey s n
            let v := fillInstall k.2 id f r k.1 victim
            pumpMem (match v.2 with
              | some st => if st = stOk then v.1 else failPage v.1 f.kid f.page st
              | none => v.1)) s

/-- PAGE_REENCRYPT_DONE (08 R276, R277, R279). -/
def execPageReencryptDone (id : Nat) (s : State) : Host.Outcome State Fault Refusal :=
  runEng (fun s => match tget s.mem.jobs id with
    | none => s
    | some j => if j.started ∧ !j.reading ∧ allDone j.parts then jobDone s id j else s) s

/-- RESEAL_SWEEP (08 R279): one page of the sweep, in order; at its end the old key's slot is freed. -/
def execResealSweep (kid : Nat) (s : State) : Host.Outcome State Fault Refusal :=
  runEng (fun s => match regionAt s kid with
    | none => s
    | some r => match r.sweep with
      | none => s
      | some q =>
        if r.lost ∨ r.invalid then s
        else if rPages r ≤ q then
          let s := setRegion s kid { r with sweep := none }
          setBits (dropRegionKey s kid (r.keyGen - 1)) 0x20004 8
        else if s.mem.jobs.any (fun p => p.2.kid == kid && p.2.page == q) then s
        else
          let next := fun (s : State) => match regionAt s kid with
            | some r => setRegion s kid { r with sweep := some (q + 1) }
            | none => s
          match cbOf s kid q with
          | some cb => if resealDue r cb then pumpMem (pushJob s kid q true none) else next s
          | none =>
            let s := ensureFill s kid r q
            match cbOf s kid q with
            | some cb => if resealDue r cb then pumpMem (pushJob s kid q true none) else next s
            | none => pumpMods s) s

/-- REGION_KEY_MISS (04 R117): the keys of a region that no slot holds. -/
def execRegionKeyMiss (kid : Nat) (s : State) : Host.Outcome State Fault Refusal :=
  runEng (fun s =>
    let due := s.mem.missK.filter (fun p => p.1 == kid)
    if due.isEmpty then s else pumpMem (due.foldl (fun s p => fillRegionKey s p.1 p.2) s)) s

end Sys2Proof.Machine
end

