-- ==== Sys2Proof/Machine/LinkCmds.lean ====
section
/-! DEFINITION. The commands of lanes and Spokes: lane state, control flits, timers of hop retry, complete frames, misses
of Chords and stream contexts (06 R190 to R211). -/

namespace Sys2Proof.Machine

/-- Lane `lane` of port `port` exists (00 R4). -/
def laneOk (s : State) (port lane : Nat) : Bool := portOk s port && decide (lane < 8)

/-- The number of a lane. -/
def laneNo (port lane : Nat) : Nat := port * 8 + lane

/-- Run on a lane that exists, its engine up. -/
def onLane (port lane : Nat) (f : State → Nat → State) (s : State) : Host.Outcome State Fault Refusal :=
  runEng (fun s => when_ (laneOk s port lane) (fun s => f s (laneNo port lane)) s) s

/-- Whether a port's isolation keeps its lanes from returning by themselves (12 R398). -/
def heldIsolated (s : State) (port : Nat) : Bool := portIsolated s port && !s.ladder.isoAuto.contains port

/-- tvd_lp_lane_up has fallen: a lane that has started is fenced. -/
def lostLane (s : State) (k : Nat) : State := if (laneAt s k).started then fenceLane s k 1 else s

/-- A level of tvd_lp_lane_up of a lane. -/
def pinLane (s : State) (k : Nat) (up : Bool) : State := setLane s k { laneAt s k with up := up }

/-- A new level of tvd_lp_lane_up. The pin keeps it when the engine does not run, too; a lane lost then is lost (log 48). -/
def onLanePin (port lane : Nat) (up : Bool) (f : State → Nat → State) (s : State) : Host.Outcome State Fault Refusal :=
  if engUp s then onLane port lane (fun s k => f (pinLane s k up) k) s
  else .next (if !laneOk s port lane then quiet s
    else if s.aon.porN then present (fun s =>
      if up then pinLane s (laneNo port lane) up else lostLane (pinLane s (laneNo port lane) up) (laneNo port lane)) s
    else pinLane (quiet s) (laneNo port lane) up)

/-- LANE_UP_FALL (06 R197 cause 1; 02 R37). -/
def execLaneUpFall (port lane : Nat) (s : State) : Host.Outcome State Fault Refusal := onLanePin port lane false lostLane s

/-- LANE_UP_RISE (06 R197, R198; 12 R398). -/
def execLaneUpRise (port lane : Nat) (s : State) : Host.Outcome State Fault Refusal :=
  onLanePin port lane true (fun s k =>
    if (laneAt s k).cause = 1 ∧ !heldIsolated s port then returnLane s k else s) s

/-- LANE_START (06 R198). -/
def execLaneStart (port lane : Nat) (s : State) : Host.Outcome State Fault Refusal :=
  onLane port lane startLane s

/-- INIT_SEND_TIMER (06 R198). -/
def execInitSendTimer (port lane : Nat) (s : State) : Host.Outcome State Fault Refusal :=
  onLane port lane (fun s k =>
    let l := laneAt s k
    when_ (l.started && !l.inService) (fun s => sendCtl s k 1 false 0) s) s

/-- INIT_TIMEOUT (06 R197 cause 3). -/
def execInitTimeout (port lane : Nat) (s : State) : Host.Outcome State Fault Refusal :=
  onLane port lane (fun s k =>
    let l := laneAt s k
    when_ (l.started && !l.inService) (fun s => fenceLane s k 3) s) s

/-- FLIT_RX (06 R180, R195; 02 R37). -/
def execFlitRx (port lane : Nat) (data : Bytes) (s : State) : Host.Outcome State Fault Refusal :=
  onLane port lane (fun s k => flitRx s k data) s

/-- INIT_RX (06 R198). -/
def execInitRx (port lane : Nat) (s : State) : Host.Outcome State Fault Refusal := onLane port lane initLane s

/-- ACK_RX (06 R196). -/
def execAckRx (port lane fseq : Nat) (s : State) : Host.Outcome State Fault Refusal :=
  onLane port lane (fun s k => when_ (laneAt s k).inService (fun s => ackLane s k (fseq % 4096)) s) s

/-- NAK_RX (06 R196). -/
def execNakRx (port lane : Nat) (busy : Bool) (fseq : Nat) (s : State) : Host.Outcome State Fault Refusal :=
  onLane port lane (fun s k => nakLane s k busy (fseq % 4096)) s

/-- REPLAY_RX (06 R195). -/
def execReplayRx (port lane fseq : Nat) (s : State) : Host.Outcome State Fault Refusal :=
  onLane port lane (fun s k => replayLane s k (fseq % 4096)) s

/-- NAK_BUSY_WAIT_END (06 R196). -/
def execNakBusyWaitEnd (port lane : Nat) (s : State) : Host.Outcome State Fault Refusal :=
  onLane port lane (fun s k =>
    let l := laneAt s k
    match l.busyWait with
    | some f => if l.inService then replayFrom s k ((repIdx l f).getD 0) else s
    | none => s) s

/-- ACK_TIMER (06 R195). -/
def execAckTimer (port lane : Nat) (s : State) : Host.Outcome State Fault Refusal :=
  onLane port lane (fun s k =>
    let l := laneAt s k
    when_ (l.inService && decide (0 < l.unacked)) (fun s => ackNow s k) s) s

/-- HOP_REPLAY_TIMEOUT (06 R196). -/
def execHopReplayTimeout (port lane : Nat) (s : State) : Host.Outcome State Fault Refusal :=
  onLane port lane (fun s k =>
    let l := laneAt s k
    when_ (l.inService && !l.replay.isEmpty) (fun s => replayFrom s k 0) s) s

/-! Complete frames: each row takes the frame at the head of the lane's staging when it is of its kind. -/

/-- The staged frame of a kind. -/
def stagedOf (s : State) (k : Nat) (kind : RxKind) : Option Bytes :=
  match stagedFrame s k with
  | some c => if rxKind (c.take 32) = kind then some c else none
  | none => none

/-- FRAME_RX (06 R206). -/
def execFrameRx (port lane : Nat) (s : State) : Host.Outcome State Fault Refusal :=
  onLane port lane (fun s k => match stagedOf s k .plain with
    | some c => rxPlain s k c
    | none => s) s

/-- GAP_RX (06 R205). -/
def execGapRx (port lane : Nat) (s : State) : Host.Outcome State Fault Refusal :=
  onLane port lane (fun s k => match stagedOf s k .gap with
    | some c => rxGap s k c
    | none => s) s

/-- Answer an SPDM request of a peer that has no row of its own (05 R149). -/
def peerAnswer (s : State) (v : Nat) (req : SpdmReq) (sid : Option Nat) : State :=
  let r := spdmGeneric s (.peer v) req sid
  match r.2 with
  | some x => spdmSay r.1 (.peer v) x
  | none => r.1

/-- BOOT_FRAME_RX (06 R207; 05 R147): `msg` is the SPDM request that the frame completes, in the session `sid` if any; `own` for any other part of an SPDM
message, and none for what is no SPDM message. -/
def execBootFrameRx (port lane : Nat) (msg : Option SpdmReq) (sid : Option Nat) (s : State) : Host.Outcome State Fault Refusal :=
  onLane port lane (fun s k => match stagedOf s k .boot with
    | some c => if !fwActs s then s else
      let r := rxBoot s k c msg.isSome (msg == some .getVersion)
      match msg with
      | some q => if r.2 then peerAnswer r.1 (Hdr.parse (c.take 32)).src q sid else r.1
      | none => r.1
    | none => s) s

/-- CHORD_MISS_FILL (06 R192). -/
def execChordMissFill (key : Nat) (s : State) : Host.Outcome State Fault Refusal :=
  runEng (fun s => when_ (s.links.missC.contains key) (fun s => chordFill s key) s) s

/-- STREAM_CONTEXT_MISS_FILL (06 R202; 12 R391): the read of the backing area has been answered. A context that cannot be
read is the last record of its sequences, so the block resets. -/
def execStreamContextMissFill (key : Nat) (acc : Access) (s : State) : Host.Outcome State Fault Refusal :=
  runEng (fun s => when_ (s.links.missS.contains key) (fun s =>
    let s := { s with links := { s.links with missS := s.links.missS.filter (· != key) } }
    match acc with
    | .ok => scTouch (scSetRes (scEvict (scBackFree s key)) key true) key
    | .err => askReset (ioEvent s 0xFF 0 stInternal (key / 4 / 65536) 0 0 0) 3 0xFF 0 0x17 false
    | .poison => askReset s 3 0xFF 0 0x17 false) s) s

/-- FRAME_EGRESS_SEAL (06 R190; 07 R229 to R231; 11 R352): `pick` says which of the allowed lanes is free first. -/
def execFrameEgressSeal (pick : Nat) (s : State) : Host.Outcome State Fault Refusal :=
  runEng (fun s => when_ (drivesLanes s && clkRuns s && !s.td.outHeld) (fun s => egressStep s pick) s) s

end Sys2Proof.Machine
end

