-- ==== Sys2Proof/Machine/Ladder.lean ====
section
/-! DEFINITION. Watchdogs, the ladder of resets L1 to L3, the return of ports, uncorrectable errors, and the alarm registers that
act (12 R385, R387, R389, R393 to R400, R403, R468). -/

namespace Sys2Proof.Machine

/-! Units (12 R397). -/

/-- A unit code is listed and its port present. -/
def unitOk (s : State) (u : Nat) : Bool := (u < 0x18 && portOk s (u % 8)) || u == 0x18 || u == 0x19 || u == 0x1A

/-- Parts of a unit that are mapped out. -/
def unitOut (s : State) (u : Nat) : Nat :=
  if u < 0x08 then addersOut s u
  else if u < 0x10 then aesOut s (u % 8) false
  else if u < 0x18 then aesOut s (u % 8) true
  else if u = 0x18 then msOut s else 0

/-- Parts a unit has to spare: 64 adder lanes, 4 AES pipelines, 31 memory seal pipelines (12 R402). -/
def unitSpares (u : Nat) : Nat := if u < 0x08 then 64 else if u < 0x18 then 4 else 31

/-- A part fails the known-answer test of a unit that has no spare left for it (12 R397). What a unit needs is the parts of its full
rate. DEDUCED (log 49). -/
def unspared (s : State) (u : Nat) (fails : List Part) : Bool :=
  let bad := (fails.filter (fun p => (partUnit p).1 == u && !isMapped s p)).dedup
  !bad.isEmpty && decide (unitSpares u < unitOut s u + bad.length)

/-- The known-answer test of a unit: its failing parts are mapped out. -/
def testUnit (s : State) (u : Nat) (fails : List Part) : State :=
  (fails.filter (fun p => (partUnit p).1 == u)).foldl mapOut s

/-! The work of a unit ends (12 R397). -/

/-- REDUCE n. -/
def clearReduce (s : State) (n : Nat) : State :=
  (s.red.stages.filter (fun p => p.2.port == n)).foldl (fun s p => failStage s p.1 stContextReset) s

/-- SEAL_TX n: stored frames are sent again. -/
def clearSealTx (s : State) (n : Nat) : State := markMoves s ((lanesOf n).flatMap (fun k => unackedTags (laneAt s k)))

/-- Flits still to come of the frame that a lane is taking in. -/
def flitsDue (l : Lane) : Nat :=
  match l.staging.drop (keepWhole 20 l.staging).length with
  | [] => l.skip
  | f :: t => nflOf f - (t.length + 1)

/-- SEAL_RX n: frames not yet released go, unacknowledged, and what is still to come of the one that arrives goes with it. -/
def clearSealRx (s : State) (n : Nat) : State :=
  { s with links := { s.links with lane := tmapV s.links.lane (fun k l =>
    if k / 8 = n then { l with staging := [], skip := flitsDue l } else l) } }

/-- An operation has a write that has left the block. -/
def opLeft (s : State) (id : Nat) (o : MemOp) : Bool :=
  o.parts.zipIdx.any (fun x => x.1.write && x.1.sent && !s.fab.txq.any (fun f => f.origin == .module id x.2))

/-- The counters of an operation's lines are as they were before it (12 R397). -/
def undoMinors (s : State) (o : MemOp) : State :=
  match cbOf s o.kid (o.line / 64) with
  | none => s
  | some cb =>
    if o.prev.isEmpty then s
    else if cbMajor o.prev ≠ cbMajor cb then cbPut s o.kid (o.line / 64) o.prev
    else cbPut s o.kid (o.line / 64) (cbSet cb (fun i =>
      if o.line % 64 ≤ i ∧ i < o.line % 64 + o.lines ∧ cbMinor cb i ≠ 127 then some (cbMinor o.prev i) else none))

/-- MEMSEAL: writes that have left go on, everything else ends. -/
def clearMemseal (s : State) : State :=
  let goes := fun (p : Nat × MemOp) => p.2.phase == .writing && opLeft s p.1 p.2
  let ends := s.mem.ops.filter (fun p => !goes p)
  let jobs := s.mem.jobs.filter (fun p => p.2.started && !p.2.reading)
  let live := fun (i : Nat) => !ends.any (fun p => p.1 == i) && ((tget s.mem.ops i).isSome || (tget jobs i).isSome || (tget s.mem.wbs i).isSome)
  let served := fun (i : Nat) => jobs.any (fun p => p.2.op == some i)
  let s := { s with
    mem := { s.mem with fills := [], jobs := jobs }
    fab := { s.fab with txq := s.fab.txq.filter (fun f => match f.origin with
      | .module i _ => live i
      | _ => true) } }
  let s := ends.foldl (fun s p =>
    if served p.1 then s
    else
      let s := if p.2.phase = .writing then undoMinors s p.2 else s
      memFinish s p.1 p.2 stContextReset [] 0) s
  pumpMem s

/-- UPDATE. -/
def clearUpdate (s : State) : State := s.upd.runs.foldl (fun s p => failUpdate s p.1 stContextReset) s

/-- COPY: a copy ends once its sent chunks retire. -/
def clearCopies (s : State) : State :=
  s.fab.copies.foldl (fun s p =>
    if p.2.squash then s
    else
      let s := pmDrop (dropTx s p.2.desc) (fun u => match u with
        | .copyRead e _ => e == p.1
        | _ => false)
      let c := { p.2 with next := copyChunks p.2, ready := [], poisoned := false, bad := some (0, stContextReset),
                          out := copySent s p.1 }
      finishCopy { s with fab := { s.fab with copies := tset s.fab.copies p.1 c } } p.1) s

/-- The work of a unit ends. -/
def clearUnit (s : State) (u : Nat) : State :=
  if u < 0x08 then clearReduce s u
  else if u < 0x10 then clearSealTx s (u % 8)
  else if u < 0x18 then clearSealRx s (u % 8)
  else if u = 0x18 then clearMemseal s
  else if u = 0x19 then clearUpdate s
  else clearCopies s

/-! The queue of resets. -/

/-- RST_STATUS follows the reset that starts. -/
def noteReset (s : State) (level unit port : Nat) : State :=
  { s with ladder := { s.ladder with lastLevel := level, lastUnit := unit, lastPort := port, escalated := false } }

/-- The next reset to run: the first not yet over. -/
def nextReset (s : State) : Option ResetReq := s.ladder.queue.find? (fun q => !q.done)

/-- Replace the first reset that is not over. -/
def putReset : List ResetReq → List ResetReq → List ResetReq
  | [], _ => []
  | q :: t, new => if q.done then q :: putReset t new else new ++ t

/-- Replace the reset that runs. -/
def setReset (s : State) (new : List ResetReq) : State :=
  { s with ladder := { s.ladder with queue := putReset s.ladder.queue new } }

/-- The rung above a reset, started now for the same cause (12 R394). -/
def nextRung (s : State) (q : ResetReq) : ResetReq :=
  let b := { q with start := s.aon.ts, byLast := false, step := 0, done := false, unit := 0xFF }
  if q.level = 1 ∧ q.unit < 0x18 then { b with level := 2, port := q.unit % 8 } else { b with level := 3, port := 0 }

/-- A level that ends places its record (12 R468). -/
def levelRecord (s : State) (q : ResetReq) (escalated : Bool) : State := occur s (levelRec q escalated) none

/-- L1 resets of a unit within the last second (12 R395). -/
def l1Recent (s : State) (u : Nat) : Nat :=
  s.ladder.l1Times.countP (fun x => x.1 == u && decide (s.aon.ts < x.2 + 1000000000))

/-! L1 (12 R397). -/

/-- Units that have been reset hold no squash back any more (12 R396). -/
def confirmUnits (s : State) (us : List Nat) : State :=
  { s with ladder := { s.ladder with late := s.ladder.late.filter (fun x => !us.contains x.2) } }

/-- An L1 of a unit; it becomes the next rung where the unit has had four within a second. -/
def runL1 (s : State) (q : ResetReq) (fails : List Part) : State :=
  let u := q.unit
  if 4 ≤ l1Recent s u then setReset s [nextRung s q]
  else
    let s := bump (noteReset s 1 u (unitPort u)) 0x5050
    let s := { s with ladder := { s.ladder with
      l1Times := s.ladder.l1Times.filter (fun x => s.aon.ts < x.2 + 1000000000) ++ [(u, s.aon.ts)] } }
    let s := resetNotice s 1 u 0xFF q.cause (resetStatus 1 u) q.start
    let s := confirmUnits (clearUnit s u) [u]
    let short := unspared s u fails
    let s := testUnit s u fails
    if short then setReset (levelRecord s q false) [nextRung s q]
    else setReset s [{ q with done := true }]

/-- RST_L1 (12 R397). -/
def execRstL1 (unit : Nat) (fails : List Part) (s : State) : Host.Outcome State Fault Refusal :=
  runEng (fun s => match nextReset s with
    | some q => if q.level = 1 ∧ q.unit = unit then runL1 s q fails else s
    | none => s) s

/-! L2 (12 R398). -/

/-- A lane has returned by the rule of its cause since the last lane of its port was fenced: nothing but the isolation
keeps it from starting (log 30). -/
def laneBack (s : State) (k : Nat) : Bool :=
  (laneAt s k).cause == 0 && (laneAt s k).up && laneAllow s k && !(laneAt s k).started

/-- The known-answer tests of a port's units. -/
def testPort (s : State) (n : Nat) (fails : List Part) : State :=
  testUnit (testUnit (testUnit s n fails) (0x08 + n) fails) (0x10 + n) fails

/-- Isolate a port: its lanes are fenced, its units reset and tested. A part without a spare leads to the L2 that already runs. -/
def isolatePort (s : State) (n : Nat) (byLast : Bool) (fails : List Part) : State :=
  let s := (lanesOf n).foldl (fun s k => if byLast && laneBack s k then s else fenceLane s k 5) s
  let s := confirmUnits (clearSealRx (clearSealTx (clearReduce s n) n) n) [n, 0x08 + n, 0x10 + n]
  let s := testPort s n fails
  { s with ladder := { s.ladder with
    isolated := if s.ladder.isolated.contains n then s.ladder.isolated else s.ladder.isolated ++ [n]
    isoAuto := if byLast then s.ladder.isoAuto ++ [n] else s.ladder.isoAuto.filter (· != n) } }

/-- An L2. -/
def runL2 (s : State) (q : ResetReq) (fails : List Part) : State :=
  let s := bump (noteReset s 2 0 q.port) 0x5054
  let s := resetNotice s 2 0xFF q.port q.cause stContextReset q.start
  setReset (isolatePort s q.port (q.byLast && !portIsolated s q.port) fails) [{ q with done := true }]

/-- RST_L2 (12 R398). -/
def execRstL2 (t : PortTest) (s : State) : Host.Outcome State Fault Refusal :=
  runEng (fun s => match nextReset s with
    | some q => if q.level = 2 ∧ q.port = t.port then runL2 s q t.fails else s
    | none => s) s

/-- Lanes of a port restart when its isolation ends: without LANE_ALLOW a lane stays fenced, with cause 4. -/
def restartLanes (s : State) (n : Nat) (which : Nat → Bool) : State :=
  (lanesOf n).foldl (fun s k =>
    if !which (laneAt s k).cause then startLane s k
    else if laneAllow s k then returnLane s k
    else setLane s k { laneAt s k with cause := 4 }) s

/-- The isolation of a port ends. -/
def endIsolation (s : State) (n : Nat) : State :=
  { s with ladder := { s.ladder with isolated := s.ladder.isolated.filter (· != n), isoAuto := s.ladder.isoAuto.filter (· != n) } }

/-- RST_CMD OP 3: the port's parts are tested, every fenced lane restarts (12 R398). -/
def returnPort (s : State) (n : Nat) (fails : List Part) : State :=
  let s := testPort s n fails
  let s := restartLanes (endIsolation s n) n (fun c => c != 0)
  resetNotice s 6 0xFF n 0 0 s.aon.ts

/-- PORT_AUTO_RETURN (12 R398): a lane of the port has returned by the rule of its cause, and so has none any more; one that a set
LANE_ALLOW bit returns need not be up. -/
def autoReturn (s : State) (n : Nat) : State :=
  let back := (lanesOf n).any (fun k => (laneAt s k).cause == 0)
  if s.ladder.isoAuto.contains n && back then
    let s := restartLanes (endIsolation s n) n (fun c => c == 5)
    resetNotice s 6 0xFF n 0x15 0 s.aon.ts
  else s

/-- PORT_AUTO_RETURN (12 R398). -/
def execPortAutoReturn (port : Nat) (s : State) : Host.Outcome State Fault Refusal := runEng (fun s => autoReturn s port) s

/-! L3 (12 R399). -/

/-- Step 1: the failover of a synchronised owner, and the notice, for whose acknowledgement the L3 waits. -/
def beginL3 (s : State) (q : ResetReq) : State :=
  let gone := mirrored s
  let s := bump (noteReset (handOver s 2) 3 0 0) 0x5058
  let s := resetNotice s 3 0xFF 0xFF q.cause stContextReset q.start
  setReset (if gone then { s with fab := { s.fab with hot := [] } } else s) [{ q with step := 1 }]

/-- The notice of an L3 has not been acknowledged yet. -/
def noticeOut (s : State) : Bool :=
  s.fab.txq.any (fun f => f.origin == .notice) || s.fab.tags.any (fun t => t.2.origin == .notice)

/-- Steps 2 and 3: the ports and the dispatcher stop, pinned lines are written back. -/
def stopL3 (s : State) (q : ResetReq) : State :=
  let s := setReset { s with aon := { s.aon with dataStopped := true } } [{ q with step := 2 }]
  pumpMem (s.fab.hot.foldl (fun s h => startWriteback s h.kid h.line) s)

/-- Steps 4 and 5: the reset, and the boot. -/
def finishL3 (s : State) (q : ResetReq) (env : BootEnv) : State :=
  runBoot (warmClear (setReset s [{ q with done := true }]) true) env

/-- Steps 2 to 5, as far as nothing has to be waited for. -/
def closeL3 (s : State) (q : ResetReq) (env : BootEnv) : State :=
  let s := stopL3 s q
  if s.fab.hot.isEmpty then finishL3 s { q with step := 2 } env else s

/-- An L3: where it waits, for the acknowledgement of its notice or for its writebacks, it goes on with the next command of its kind,
which stands for what it waits for or for the bound of the wait. -/
def runL3 (s : State) (q : ResetReq) (env : BootEnv) : State :=
  if q.step = 0 then
    let s := beginL3 s q
    if noticeOut s then s else closeL3 s { q with step := 1 } env
  else if q.step = 1 then closeL3 s q env
  else finishL3 s q env

/-- RST_L3 (12 R399). -/
def execRstL3 (env : BootEnv) (s : State) : Host.Outcome State Fault Refusal :=
  runAon (fun s => when_ (s.aon.rstN && !s.aon.haltReq) (fun s => match nextReset s with
    | some q => if q.level = 3 then runL3 s q env else s
    | none => s) s) s

/-! The ends of levels (12 R394, R468). -/

/-- A level whose work is over, and for an L3 the boot, places its record. -/
def endLevel (s : State) : State :=
  match s.ladder.queue with
  | q :: rest =>
    if q.done && (q.level != 3 || s.aon.stage == 6) then
      levelRecord { s with ladder := { s.ladder with queue := rest } } q false
    else s
  | [] => s

/-- RESET_LEVEL_END (12 R468). -/
def execResetLevelEnd (s : State) : Host.Outcome State Fault Refusal := runAon (when_ (!s.aon.haltReq) endLevel) s

/-- An L0 misses its deadline: an L1 of every unit that has not confirmed its squash (12 R394, R396). Its CAUSE is that of a watchdog.
DEDUCED (log 49). -/
def missL0 (s : State) : State :=
  ((s.ladder.late.map (·.2)).dedup).foldl (fun s u => askReset s 1 u 0xFF 0x13 false) s

/-- A level misses its deadline: its record, marked, and the next rung; above L3 stands the halt. While none of the levels L1 to L3 runs
it is an L0 that misses its own. -/
def missDeadline (s : State) : State :=
  match s.ladder.queue with
  | q :: rest =>
    if q.done && (q.level != 3 || s.aon.stage == 6) then s
    else
      let s := { s with ladder := { s.ladder with escalated := true, queue := rest } }
      let s := levelRecord s q true
      if q.level = 3 then haltBlock s 4
      else { s with ladder := { s.ladder with queue := nextRung s q :: s.ladder.queue } }
  | [] => missL0 s

/-- RESET_DEADLINE_MISS (12 R394). -/
def execResetDeadlineMiss (s : State) : Host.Outcome State Fault Refusal := runAon (when_ (!s.aon.haltReq) missDeadline) s

/-- A frame can go out by a port: it has a tag already, or may take one, and a lane of the port is in service. -/
def frameQueued (s : State) (n : Nat) : Bool :=
  portServes s n && (s.fab.tags.any (fun p => p.2.state == 1) || (txHeads s.fab.txq [] 0).any (fun x => txReady s x.2 == .go))

/-- The pending work of a unit, which its watchdog waits for (12 R393). A line's module data has arrived while the rest of its
operation's has not; a tile's or a chunk's inputs stand in the unit. -/
def unitPending (s : State) (u : Nat) : Bool :=
  if u < 0x08 then s.red.stages.any (fun p => p.2.port == u && chunkReady p.2)
  else if u < 0x10 then frameQueued s (u % 8)
  else if u < 0x18 then (lanesOf (u % 8)).any (fun k => !(laneAt s k).staging.isEmpty)
  else if u = 0x18 then s.mem.ops.any (fun p => p.2.phase == .reading && p.2.parts.any (·.done))
  else if u = 0x19 then s.upd.runs.any (fun p => p.2.running && (tget p.2.tiles p.2.doneT).any (tileReady p.2))
  else s.fab.copies.any (fun p => !p.2.ready.isEmpty)

/-- WATCHDOG_EXPIRY (12 R393, R468): a unit with pending work has made no progress; watchdogs do not count while the Hub is halted (13
R443). -/
def execWatchdogExpiry (unit : Nat) (s : State) : Host.Outcome State Fault Refusal :=
  runEng (fun s => when_ (s.aon.stage == 6 && unitOk s unit && unitPending s unit && s.hub.run == .running) (fun s =>
    askReset (occur s (mkRec 0x13 unit (unitPort unit) 0 0 0x13 0 0 0 0) none) 1 unit 0xFF 0x13 false) s) s

/-! RST_CMD (12 R419, R467). -/

/-- A reset is in progress: RST_STATUS.BUSY. -/
def resetBusy (s : State) : Bool := !s.ladder.queue.isEmpty

/-- A write of RST_CMD; `fails` are the parts that a port's tests find to fail. -/
def rstCmd (s : State) (w : Word) (fails : List Part) : State :=
  let op := fld w 2 0
  let unit := fld w 12 8
  let port := fld w 18 16
  if resetBusy s then s
  else if op = 1 ∧ unitOk s unit then askReset s 1 unit 0xFF 0 false
  else if op = 2 ∧ portOk s port then askReset s 2 0xFF port 0 false
  else if op = 3 ∧ portOk s port then returnPort s port fails
  else if op = 4 then askReset s 3 0xFF 0 0 false
  else s

/-- RST_PORT_RETURN (12 R398): RST_CMD with OP 3. -/
def execRstPortReturn (port : Nat) (who : Requester) (fails : List Part) (s : State) : Host.Outcome State Fault Refusal :=
  runWrite who 0x5044 (fun s => rstCmd s (toW (3 + 2 ^ 16 * (port % 8))) fails) s

/-! The alarm queue and the halt bit (12 R385, R400). -/

/-- The oldest record is removed. -/
def popAlarm (s : State) : State := { s with aon := { s.aon with alarms := s.aon.alarms.drop 1 } }

/-- ALM_POP (12 R385). -/
def execAlmPop (who : Requester) (s : State) : Host.Outcome State Fault Refusal := runWrite who 0x5008 popAlarm s

/-- ALM_HALT (12 R400): ALM_CTRL.HALT. -/
def execAlmHalt (who : Requester) (s : State) : Host.Outcome State Fault Refusal := runWrite who 0x5004 (fun s => haltBlock s 6) s

/-! Uncorrectable errors (12 R389). -/

/-- A pinned line is lost: its minor becomes 0x7F. -/
def dropHot (s : State) (kid line : Nat) : State :=
  if (hotAt s kid line).isNone then s
  else pumpMem { s with
    fab := { s.fab with hot := s.fab.hot.filter (fun h => !(h.kid == kid && h.line == line)) }
    mem := { s.mem with hotLost := s.mem.hotLost ++ [(kid, line)] } }

/-- An entry of the counter cache is lost: a clean one is fetched again, a dirty one takes its region with it. -/
def dropNode (s : State) (kid level idx : Nat) : State :=
  match ccGet s kid level idx with
  | none => s
  | some n =>
    let s := { s with mem := { s.mem with cc := tdel s.mem.cc (ccKey kid level idx) } }
    match n.dirty, regionAt s kid with
    | true, some r => setRegion s kid { r with lost := true }
    | _, _ => s

/-- The effect of an uncorrectable error. -/
def sramFault (s : State) (m : Sram) : State :=
  match m with
  | .replay port lane fseq =>
    markMoves s (((laneAt s (laneNo port lane)).replay.filter (fun f => f.fseq == fseq)).flatMap (·.tags))
  | .hold d => if (tget s.red.stages d).isSome then failStage s d stPoisoned else s
  | .hotLine kid line => dropHot s kid line
  | .counter kid level idx => dropNode s kid level idx
  | .keySlot n => if n < 16 then askReset s 3 0xFF 0 0x18 false else invalidateSlot s n
  | .vital => askReset s 3 0xFF 0 0x18 false
  | .hubRam => if hubUp s then lockstepMismatch s else s
  | .cached => s

/-- The SRAM event (12 R383): the unit that holds the SRAM, 0xFF where the units share it or it belongs to a lane. -/
def sramRec (s : State) (m : Sram) : AlarmRec :=
  let r := fun (unit port lane kid part : Nat) => mkRec 0x18 unit port lane 0 0 0 kid part 0
  let regionPart := fun (kid : Nat) => ((regionAt s kid).map (·.part)).getD 0
  match m with
  | .replay port lane _ => r 0xFF (port % 8) (lane % 8) 0 0
  | .hold d => match tget s.red.stages d with
    | some g => r g.port g.port 0 g.ctx g.part
    | none => r 0xFF 0 0 0 0
  | .hotLine kid _ => r 0x18 0 0 (kid % 4096) (regionPart kid)
  | .counter kid _ _ => r 0x18 0 0 (kid % 4096) (regionPart kid)
  | .keySlot _ => r 0x1C 0 0 0 0
  | .hubRam => r 0x1B 0 0 0 0
  | .vital => r 0xFF 0 0 0 0
  | .cached => r 0xFF 0 0 0 0

/-- SRAM_UNCORRECTABLE (12 R389). -/
def execSramUncorrectable (m : Sram) (s : State) : Host.Outcome State Fault Refusal :=
  runEng (fun s => sramFault (bump (occur s (sramRec s m) none) 0x80014) m) s

end Sys2Proof.Machine
end

