-- ==== Sys2Proof/Machine/Tandem.lean ====
section
/-! DEFINITION. The Tandem: synchronisation, mirror records as the standby applies them, silence, takeover, and
lockstep-compare (02 R53; 12 R395, R408 to R417). -/

namespace Sys2Proof.Machine

/-- The pair runs in mirror mode (12 R408). -/
def mirrorMode (s : State) : Bool := s.tandemEn && s.td.modeActive == 0

/-- This instance is the standby of a pair in mirror mode, or has not synchronised yet. -/
def isStandby (s : State) : Bool := mirrorMode s && !s.td.owner

/-- A MIRROR alarm (12 R384). -/
def mirrorAlarm (s : State) : State := occur s (mkRec 0x07 0x1D 0 0 0 0 0 0 0 0) none

/-! Takeover (12 R414, R415). -/

/-- The lanes come up at once, counting from 0, with an INIT on each. -/
def raiseLanes (s : State) : State :=
  s.links.lane.foldl (fun s p =>
    if p.2.up && p.2.cause == 0 && laneAllow s p.1 then
      sendCtl (setLane s p.1 { Lane.down with up := true, started := true, inService := true, startAt := s.aon.ts }) p.1 1 false 0
    else s) s

/-- Stored frames are sent again; every other tag retires with ST_TIMEOUT, and its stream closes. -/
def takeTags (s : State) : State :=
  s.fab.tags.foldl (fun s p =>
    if p.2.recs = 1 then markMoves s [p.1]
    else
      retire s p.1 stTimeout [] 0) s

/-- A descriptor that had started and not completed ends: its group is torn, its reduction's neighbours hear of it. -/
def takeDesc (s : State) (d : Nat) (x : Desc) : State :=
  let p := (ctxPart s x.ctx).getD 0
  let s :=
    if x.opcode = 2 then sendAborts s (stageOf x.ctx p x.raw) stContextReset (s.dom.vertex.getD 0) none
    else if x.opcode = 3 then
      let g := leAt x.raw 16 2
      let b := pgdAt s p g
      let b := patch (patch b 0 1 (leAt b 0 1 % 64 + 64 + leAt b 0 1 / 128 * 128)) 80 8 (leAt x.raw 8 8)
      pushCadence (setBits (setPgd s p g b) 0x31010 2) p g stContextReset (cadenceFlags b (leAt x.raw 18 1) true) (leAt x.raw 8 8)
        (pgdStep b)
    else s
  completeDesc s d stContextReset 0

/-- Running descriptors end with ST_CONTEXT_RESET. -/
def takeDescs (s : State) : State :=
  s.parts.desc.foldl (fun s p => if p.2.phase = .running then takeDesc s p.1 p.2 else s) s

/-- A failover is over: its reply names the instance that now owns the lanes (03 R104). -/
def failoverDone (s : State) (src : Nat) : State :=
  match (mb s src).packet with
  | some k => reply s src .tandemFailover k.tag stOk [toW (b2n (s.tandemId == s.td.owner))]
  | none => s

/-- Mailboxes are as after an L3, but for one whose failover is now over (03 R93; 12 R415, R416); SPDM sessions end. -/
def takeHub (s : State) : State :=
  let mine := (s.hub.bg.filter (fun b => b.op == .tandemFailover)).map (·.src)
  let s := { s with
    hub := { s.hub with
      mbox := tkeep s.hub.mbox (fun k _ => mine.contains k)
      bg := s.hub.bg.filter (fun b => b.op == .tandemFailover), storeFailed := [] }
    ident := { s.ident with sessions := [] } }
  mine.foldl failoverDone s

/-- A takeover, for a failover cause (12 R421). Of an owner that has halted, which causes 3 and 4 tell, the partner reports the halt too (12
R401); cause 6 does not tell a halt from an L3. DEDUCED (log 49). Every egress stream goes on from its SEQ_LIMIT, and sends its GAP before it takes new
frames (06 R205). -/
def takeOver (s : State) (cause : Nat) : State :=
  let s := { s with
    td := { s.td with fenceOut := true, owner := true, synced := false, syncing := false, silent := false, lastCause := cause
                      failovers := min (s.td.failovers + 1) 0xFFFFFFFF }
    links := { s.links with egress := tmapV s.links.egress (fun _ c => { c with jump := true, closing := true, gap := none }) }
    fab := { s.fab with waits := [], fences := [], copies := [] } }
  let s := takeHub (takeDescs (takeTags (raiseLanes s)))
  let s := if cause = 3 ∨ cause = 4 then resetNotice s 4 0xFF 0xFF 0x08 stContextReset s.aon.ts else s
  let s := resetNotice s 5 0xFF 0xFF 0x1A stContextReset s.aon.ts
  occur s (mkRec 0x1A 0x1D 0 0 0 cause 0 0 0 0) none

/-- TAKEOVER (12 R413, R414): the owner is silent. -/
def execTakeover (s : State) : Host.Outcome State Fault Refusal :=
  runEng (fun s => when_ (isStandby s && s.td.synced && s.td.silent) (fun s => takeOver s 5) s) s

/-- HANDOVER_RX (12 R414): the owner gives the lanes away, for a cause its record tells. -/
def execHandoverRx (cause : Nat) (s : State) : Host.Outcome State Fault Refusal :=
  runEng (fun s => when_ (isStandby s && s.td.synced) (fun s => takeOver s (cause % 16)) s) s

/-! Silence (12 R413). -/

/-- STANDBY_MIRROR_SILENCE (12 R413, R421 AUTO). -/
def execStandbyMirrorSilence (s : State) : Host.Outcome State Fault Refusal :=
  runEng (fun s => when_ (isStandby s) (fun s => { s with td := { s.td with
    alive := false, silent := s.td.synced && wbit (reg s 0xF0000) 1 } }) s) s

/-- STANDBY_TAKEOVER_GIVEUP (12 R413). -/
def execStandbyTakeoverGiveup (s : State) : Host.Outcome State Fault Refusal :=
  runEng (fun s => when_ (isStandby s && s.td.synced && !s.td.fenceOut) (fun s =>
    mirrorAlarm { s with td := { s.td with silent := false, synced := false } }) s) s

/-- OWNER_MIRROR_SILENCE (12 R413). -/
def execOwnerMirrorSilence (s : State) : Host.Outcome State Fault Refusal :=
  runEng (fun s => when_ (mirrorMode s && s.td.owner && (s.td.alive || s.td.synced)) (fun s => dropPartner (mirrorAlarm s)) s) s

/-- FENCE_IN_CHANGE (02 R53): an input that gates tvd_lane_owner. Under tvd_por_n its level is kept (log 48). -/
def execFenceInChange (level : Bool) (s : State) : Host.Outcome State Fault Refusal :=
  if s.aon.porN then runAon (fun s => { s with td := { s.td with fenceIn := level } }) s
  else .next { quiet s with td := { s.td with fenceIn := level } }

/-! Synchronisation (12 R412). -/

/-- Synchronisation starts: the partner is asked for its protocol. -/
def startSync (s : State) : State :=
  if mirrorMode s && !s.td.synced && !s.td.syncing then
    emit { s with td := { s.td with syncing := true, syncErr := false, syncKib := 0, got := 0 } } (.mirror (.sync true))
  else s

/-- TD_SYNC_START (12 R412). -/
def execTdSyncStart (who : Requester) (s : State) : Host.Outcome State Fault Refusal := runWrite who 0xF000C startSync s

/-- TANDEM_SYNCED (12 R412): the standby has applied the copy and every change. -/
def execTandemSynced (s : State) : Host.Outcome State Fault Refusal :=
  runEng (fun s => when_ (s.td.syncing && mirrorMode s) (fun s =>
    { s with td := { s.td with syncing := false, synced := true, syncKib := 11728 } }) s) s

/-- MIRROR_HEARTBEAT (12 R409). -/
def execMirrorHeartbeat (s : State) : Host.Outcome State Fault Refusal :=
  runEng (fun s => when_ (mirrorMode s && s.aon.stage == 6) (fun s => emit s (.mirror .heartbeat)) s) s

/-! Records that arrive (12 R409, R410). -/

/-- The tag table of the standby. -/
def mirrorTag (s : State) (t : Nat) (e : TagEnt) : State :=
  let new := (tget s.fab.tags t).isNone
  let s := { s with fab := { s.fab with
    tags := tset s.fab.tags t e, tagGen := tset s.fab.tagGen t e.gen, ord := max s.fab.ord (e.ord + 1)
    ring := tset s.fab.ring e.owner (max (tgetD s.fab.ring e.owner 0) (e.rpos + e.nfl)) } }
  if new && !isModTag e then egMod s (tagStream e) (fun c => { c with outstanding := c.outstanding + 1 }) else s

/-- A tag has retired at the owner. -/
def mirrorRetire (s : State) (t : Nat) : State :=
  match tget s.fab.tags t with
  | none => s
  | some e =>
    let s := { s with fab := { s.fab with tags := tdel s.fab.tags t } }
    if isModTag e then s else egMod s (tagStream e) (fun c => { c with outstanding := c.outstanding - 1 })

/-- Write an entry, or take it away. -/
def tput {α : Type} (t : Tbl α) (k : Nat) (v : Option α) : Tbl α :=
  match v with
  | some x => tset t k x
  | none => tdel t k

/-- The standby applies a record. -/
def applyMirror (s : State) (r : Mirror) : State :=
  match r with
  | .key n k => if 3 ≤ n then setSlot s n k else s
  | .chord k (some c) => setChord s k c
  | .chord k none => { s with links := { s.links with chord := tdel s.links.chord k } }
  | .egress k e => { s with links := { s.links with egress := tset s.links.egress k e } }
  | .ingress k e => { s with links := { s.links with ingress := tset s.links.ingress k e } }
  | .tag t e => mirrorTag s t e
  | .stored ts => { s with fab := { s.fab with tags := tmapV s.fab.tags (fun t e => if ts.contains t then { e with recs := 1 } else e) } }
  | .retired ts => ts.foldl mirrorRetire s
  | .node kid level idx b => ccPut s kid level idx b true
  | .root kid v => match regionAt s kid with
    | some r => setRegion s kid { r with root := v }
    | none => s
  | .hot kid line b =>
    if (hotAt s kid line).isSome then hotMod s kid line (fun h => { h with data := b, last := s.aon.ts })
    else { s with fab := { s.fab with hot := s.fab.hot ++
      [{ kid := kid, line := line, data := b, last := s.aon.ts, wb := false, again := false }] } }
  | .region kid r => { s with mem := { s.mem with region := tput s.mem.region kid r } }
  | .part p r => setPart s p r
  | .ctx c x => { s with parts := { s.parts with ctx := tput s.parts.ctx c x } }
  | .desc d x => { s with parts := { s.parts with desc := tput s.parts.desc d x, nextDesc := max s.parts.nextDesc (d + 1) } }
  | .pgd p g b => { s with upd := { s.upd with pgd := tset s.upd.pgd (p * 4096 + g) b } }
  | .membership d => { s with dom := d }
  | .alarm r w => { s with aon := { s.aon with
      alarms :=
        if s.aon.alarms.getLast?.any (fun l => l.seq == r.seq) then s.aon.alarms.dropLast ++ [r]
        else if s.aon.alarms.length < 256 then s.aon.alarms ++ [r] else s.aon.alarms
      secTimes := w } }
  | .heartbeat | .sync _ | .ask | .confirm _ | .handover _ => s

/-- A record that carries state, and so is confirmed. -/
def carries (r : Mirror) : Bool :=
  match r with
  | .heartbeat | .sync _ | .ask | .confirm _ | .handover _ => false
  | _ => true

/-- The full copy that an owner sends (12 R412 step 3): an entry of the mirrored state a record. -/
def fullCopy (s : State) : List Mirror :=
  (s.keys.slots.filter (fun p => decide (3 ≤ p.1))).map (fun p => .key p.1 p.2) ++ s.links.chord.map (fun p => .chord p.1 (some p.2)) ++
  s.links.egress.map (fun p => .egress p.1 p.2) ++ s.links.ingress.map (fun p => .ingress p.1 p.2) ++
  s.fab.tags.map (fun p => .tag p.1 p.2) ++
  (s.mem.cc.filter (fun p => p.2.dirty)).map (fun p => .node (ccKid p.1) (ccLevel p.1) (ccIdx p.1) p.2.data) ++
  s.fab.hot.map (fun h => .hot h.kid h.line h.data) ++ s.mem.region.map (fun p => .region p.1 (some p.2)) ++
  s.parts.part.map (fun p => .part p.1 p.2) ++ s.parts.ctx.map (fun p => .ctx p.1 (some p.2)) ++
  s.parts.desc.map (fun p => .desc p.1 (some p.2)) ++ s.upd.pgd.map (fun p => .pgd (p.1 / 4096) (p.1 % 4096) p.2) ++
  [.membership s.dom] ++ s.aon.alarms.map (fun r => .alarm r s.aon.secTimes)

/-- The owner answers a standby that asks to synchronise: the full copy, and from then on every change. -/
def sendCopy (s : State) : State :=
  if s.td.synced then emit s (.mirror (.sync true))
  else
    let s := emit { s with td := { s.td with syncing := true, syncErr := false, sent := 0, confirmed := 0 } } (.mirror (.sync true))
    (fullCopy s).foldl mirrorRec s

/-- A mirror record arrives: any beat shows that the partner lives. -/
def mirrorRx (s : State) (r : Mirror) : State :=
  let s := { s with td := { s.td with alive := true, silent := false } }
  if s.td.owner then
    match r with
    | .confirm n => releaseAfterHold { s with td := { s.td with confirmed := max s.td.confirmed n } } n
    | .sync fits =>
      if fits then sendCopy s
      else { s with td := { s.td with syncing := false, syncErr := true } }
    | .ask => handOver s 1
    | _ => s
  else
    match r with
    | .sync fits => if fits then s else { s with td := { s.td with syncing := false, syncErr := true } }
    | _ =>
      if carries r && (s.td.syncing || s.td.synced) then
        let s := applyMirror { s with td := { s.td with got := s.td.got + 1 } } r
        emit s (.mirror (.confirm s.td.got))
      else s

/-- MIRROR_RECORD_RX (12 R409, R410). -/
def execMirrorRecordRx (r : Mirror) (s : State) : Host.Outcome State Fault Refusal :=
  runEng (fun s => when_ (mirrorMode s) (fun s => mirrorRx s r) s) s

/-! BCP_TANDEM_FAILOVER (12 R416). -/

/-- The command: the owner drains first; a standby asks its owner. -/
def tandemFailover (s : State) (src : Nat) (k : Packet) : State :=
  if s.td.syncing then reply s src .tandemFailover k.tag stBusy []
  else if !mirrorMode s || !s.td.synced then reply s src .tandemFailover k.tag stNotPermitted []
  else
    let s := startBg s src .tandemFailover []
    if s.td.owner then s else emit s (.mirror .ask)

/-- The owner has drained: it sends HANDOVER, and the reply follows. -/
def endFailover (s : State) (src : Nat) : State :=
  if mirrored s then failoverDone (handOver s 1) src
  else if s.td.owner then failWaiting s src stNotPermitted
  else s

/-- BCP_TANDEM_FAILOVER (12 R416). -/
def execBcpTandemFailover (src : Nat) (s : State) : Host.Outcome State Fault Refusal :=
  runCmd src .tandemFailover (fun s k => tandemFailover s src k) s

/-! Lockstep-compare (12 R417). -/

/-- Outputs differ: everything is held. -/
def compareMismatch (s : State) : State :=
  mirrorAlarm { bump s 0xF0018 with td := { s.td with outHeld := true } }

/-- COMPARE_MISMATCH (12 R417). -/
def execCompareMismatch (s : State) : Host.Outcome State Fault Refusal :=
  runEng (fun s => when_ (s.tandemEn && s.td.modeActive == 1) compareMismatch s) s

/-- The tests have ended: an instance that is fenced stays paused, the other runs alone. -/
def compareEnd (s : State) (failA failB : Bool) : State :=
  if failA && failB then haltBlock { s with td := { s.td with outHeld := false } } 7
  else
    let fencedB := failB || !failA
    if s.tandemId == fencedB then { s with td := { s.td with owner := false, fenceIn := true } }
    else { s with td := { s.td with outHeld := false, owner := true, fenceOut := true, modeActive := 2 } }

/-- COMPARE_KAT_DONE (12 R417). -/
def execCompareKatDone (failA failB : Bool) (s : State) : Host.Outcome State Fault Refusal :=
  runAon (fun s => when_ (s.td.outHeld && !s.aon.haltReq) (fun s => compareEnd s failA failB) s) s

end Sys2Proof.Machine
end

