-- ==== Sys2Proof/Machine/RegRead.lean ====
section
/-! DEFINITION. What each register of the window reads as, and what a read does: counters that clear, pairs that capture (14 R447,
R448, R455, R456 and the tables of the chapters; 13 R428, R429). -/

namespace Sys2Proof.Machine

/-! Output levels and summaries (14 R448, R449). -/

/-- Mailboxes whose reply interrupt is up: tvd_irq_mbx. -/
def irqMbx (s : State) : Nat :=
  ((List.range 17).map (fun m => if !(mb s m).replies.isEmpty && wbit (reg s (mbOff m 0x18)) 0 then 2 ^ m else 0)).foldl (· + ·) 0

/-- Slots whose interrupt is up: tvd_irq_ctx. -/
def irqCtx (s : State) : Nat :=
  ((List.range 64).map (fun n => if (reg s (cxOff n 0x14) &&& reg s (cxOff n 0x18) &&& 3) != 0 then 2 ^ n else 0)).foldl (· + ·) 0

/-- An interrupt status register has a bit that its enable register lets through. -/
def raised (s : State) (status enable : Nat) : Bool := (reg s status &&& reg s enable) != 0

/-- GLB_ERR_PART. -/
def errPart (s : State) : Nat :=
  ((List.range 16).map (fun p => if raised s (ptOff p 0x40) (ptOff p 0x44) then 2 ^ p else 0)).foldl (· + ·) 0

/-- An event record waits. -/
def eventPending (s : State) : Bool := s.aon.alarms.any (fun r => !r.alarm)

/-- An alarm record waits: tvd_alarm. -/
def alarmPending (s : State) : Bool := s.aon.alarms.any (·.alarm)

/-- GLB_ERR_SRC; tvd_irq_err is the OR of its bits. -/
def errSrc (s : State) : Nat :=
  ((List.range 8).map (fun n => if raised s (lpOff n 0x10) (lpOff n 0x14) then 2 ^ n else 0)).foldl (· + ·) 0 +
  2 ^ 8 * b2n (raised s 0x1A024 0x1A028) + 2 ^ 9 * b2n (raised s 0x20004 0x20008) + 2 ^ 10 * b2n (raised s 0x30004 0x30008) +
  2 ^ 11 * b2n (raised s 0x31010 0x31014) + 2 ^ 12 * b2n (decide (errPart s ≠ 0)) + 2 ^ 13 * b2n (raised s 0x70004 0x70008) +
  2 ^ 14 * b2n (eventPending s) + 2 ^ 15 * b2n (wbit (reg s 0x1900C) 17)

/-! Blocks of the window. -/

/-- The global registers (14 R448). -/
def readGlobal (s : State) (off : Nat) : Word :=
  if off = 0x10 then toW (s.aon.stage + 16 * b2n s.aon.ready + 32 * b2n s.aon.haltReq + 64 * b2n (s.aon.clkPhase == .acked) +
    128 * b2n s.aon.frozen)
  else if off = 0x14 then toW (s.dom.vertex.getD 0 + 2 ^ 16 * b2n (isMember s) + 2 ^ 17 * b2n (s.dom.role == 2))
  else if off = 0x18 then toW (domainId s)
  else if off = 0x1C then toW (domainId s / 2 ^ 32)
  else if off = 0x20 then toW (errSrc s)
  else if off = 0x24 then toW (errPart s)
  else if off = 0x30 then toW (irqMbx s)
  else if off = 0x34 then toW (irqCtx s)
  else if off = 0x38 then toW (irqCtx s / 2 ^ 32)
  else 0

/-- A mailbox's registers (03 R82), but MBX_OUT_DATA. -/
def readMbox (s : State) (m o : Nat) : Word :=
  let x := mb s m
  let st := reg s (mbOff m o) &&& 0x20000#32
  if o = 0x08 then toW (wcount x + 2 ^ 16 * b2n x.busy + 2 ^ 18 * b2n x.blob.isSome + 2 ^ 19 * b2n x.retTag.isSome) ||| st
  else if o = 0x10 then
    toW (wleft x + 2 ^ 16 * b2n (!x.replies.isEmpty) + 2 ^ 18 * b2n (decide (1 < x.replies.length))) ||| st
  else if o = 0x18 then reg s (mbOff m o)
  else if o = 0x1C then x.retTag.getD 0
  else 0

/-- The life-cycle block (04 R135). -/
def readLife (s : State) (o : Nat) : Word :=
  if o = 0x00 then toW (lcCode s.otp.lc + 16 * tokensSpent s + 2 ^ 8 * b2n (onTestRoot s) + 2 ^ 9 * b2n (rootPresent s) +
    2 ^ 10 * b2n s.otp.resumed + 2 ^ 16 * recordsUsed s)
  else if o = 0x08 then toW (s.otp.phase + 16 * s.otp.error)
  else if o = 0x20 ∨ o = 0x24 then reg s (0x4000 + o)
  else if o = 0x2C then s.otp.rdata
  else if o = 0x30 then toW (b2n s.otp.busy.isSome) ||| reg s 0x4030
  else 0

/-- The words of an alarm record (12 R383). -/
def recWord (r : AlarmRec) (i : Nat) : Word :=
  match i with
  | 0 => toW (r.cls + 2 ^ 8 * b2n r.alarm + 2 ^ 9 * b2n r.gap + 2 ^ 16 * r.count)
  | 1 => toW r.seq
  | 2 => toW r.ts
  | 3 => toW (r.ts / 2 ^ 32)
  | 4 => toW (r.unit + 2 ^ 8 * (r.port % 8) + 2 ^ 11 * (r.lane % 8) + 2 ^ 16 * r.status + 2 ^ 24 * r.cause)
  | 5 => toW (r.vertex + 2 ^ 16 * (r.kid % 4096) + 2 ^ 28 * (r.part % 16))
  | 6 => toW r.addr
  | _ => toW (r.addr / 2 ^ 32)

/-- The alarm and reset registers (12 R419). -/
def readAlarm (s : State) (o : Nat) : Word :=
  if o = 0x00 then toW (s.aon.alarms.length + 2 ^ 9 * b2n (alarmPending s) + 2 ^ 10 * b2n (eventPending s) +
    2 ^ 11 * b2n s.aon.haltReq + 2 ^ 12 * s.aon.haltCause) ||| (reg s 0x5000 &&& 0x10000#32)
  else if o = 0x0C then toW (min (secWindow s).length 256)
  else if 0x10 ≤ o ∧ o < 0x30 ∧ o % 4 = 0 then match s.aon.alarms with
    | [] => 0
    | r :: _ => recWord r ((o - 0x10) / 4)
  else if o = 0x48 then toW (s.ladder.lastLevel + 8 * b2n (resetBusy s) + 16 * b2n s.ladder.escalated + 2 ^ 8 * s.ladder.lastUnit +
    2 ^ 16 * s.ladder.lastPort)
  else if o = 0x4C then toW ((s.ladder.isolated.map (fun n => 2 ^ n)).foldl (· + ·) 0)
  else reg s (0x5000 + o)

/-- A sum over the lanes of a port. -/
def laneSum (s : State) (n : Nat) (f : Nat → Lane → Nat) : Nat := ((List.range 8).map (fun k => f k (laneAt s (8 * n + k)))).foldl (· + ·) 0

/-- Lane port registers (06 R215); the block of an absent port reads 0 (00 R4), and a lane-domain field of an isolated port
whose clock has stopped (14 R453). -/
def readPort (s : State) (n o : Nat) : Word :=
  if !portOk s n then 0
  else if o = 0x04 then
    let up := if portIsolated s n && s.aon.clkStopped.contains (.lane n) then 0 else laneSum s n (fun k l => 2 ^ k * b2n l.up)
    toW (up + 2 ^ 8 * laneSum s n (fun k l => 2 ^ k * b2n l.inService) + 2 ^ 16 * b2n (portIsolated s n) +
      2 ^ 17 * aesSpares s n false + 2 ^ 20 * aesSpares s n true)
  else if o = 0x08 then toW (laneSum s n (fun k l => 16 ^ k * (l.cause % 16)))
  else if o = 0x40 then toW (0xFFF + 2 ^ 12 * aesOut s n false)
  else if o = 0x44 then toW (0xFFF + 2 ^ 12 * aesOut s n true)
  else reg s (lpOff n o)

/-- A Derailleur entry (06 R216); the block holds 1,024 of them. -/
def readDrl (s : State) (off : Nat) : Word :=
  let e := reg s off
  (e &&& 0x000100FF#32) ||| toW (2 ^ 8 * ((effective s (fld e 7 0)).map (fun p => 2 ^ p)).foldl (· + ·) 0)

/-- The transaction unit (07 R255) and the stream context controls (06 R216). -/
def readFt (s : State) (off : Nat) : Word :=
  if off = 0x1900C then toW (scResident s) ||| (reg s off &&& 0x20000#32)
  else if off = 0x1A018 then toW s.fab.tags.length
  else if off = 0x1A01C then toW (ceilDiv (((List.range 17).map (ringUsed s)).foldl (· + ·) 0) 4096)
  else if off = 0x1A020 then toW s.fab.hot.length
  else reg s off

/-- The captured wear entry (08 R291). -/
def wearWord (w : Option Wear) (o : Nat) : Word :=
  match w with
  | none => 0
  | some w =>
    if o = 0x104 then toW w.id else if o = 0x108 then toW (w.id / 2 ^ 32)
    else if o = 0x10C then toW w.lines else if o = 0x110 then toW (w.lines / 2 ^ 32)
    else if o = 0x114 then toW w.max else if o = 0x118 then toW (w.max / 2 ^ 32)
    else if o = 0x11C then toW w.rated else if o = 0x120 then toW (w.rated / 2 ^ 32)
    else if o = 0x124 then toW (1 + 2 * b2n w.warn + 4 * w.vertex)
    else 0

/-- The memory seal engine (08 R291). -/
def readMs (s : State) (o : Nat) : Word :=
  if o = 0x00 then toW (s.mem.cc.length + 2 ^ 17 * tcount s.mem.jobs (fun _ j => !j.reseal && j.started))
  else if o = 0x0C then toW (s.mem.fKid + 2 ^ 12 * s.mem.fKind)
  else if o = 0x10 then toW s.mem.fAddr
  else if o = 0x14 then toW (s.mem.fAddr / 2 ^ 32 % 2 ^ 16 + 2 ^ 16 * s.mem.fVertex)
  else if 0x104 ≤ o ∧ o ≤ 0x124 then wearWord s.mem.wearCap o
  else reg s (0x20000 + o)

/-- The words of a key ID (08 R292). -/
def readKid (s : State) (o : Nat) : Word :=
  let k := o % 0x4000 / 4
  match regionAt s k with
  | none => 0
  | some r =>
    if k < 16 then 0
    else if o < 0x4000 then toW (r.kind + 4 * b2n r.authority + 8 * b2n (r.readOnly || r.treeRo) + 16 * b2n r.sweep.isSome +
      2 ^ 5 * (if r.kind = 1 then r.levels else 0) + 2 ^ 9 * r.part)
    else if o < 0x8000 then toW r.epoch
    else toW r.keyGen

/-- The reduce-through unit (09 R324). -/
def readRt (s : State) (o : Nat) : Word :=
  let r := s.red
  if o = 0x0C then toW r.parked.length
  else if o = 0x10 then toW (r.fPort + 8 * r.fCheck + 64 * b2n r.fAgree + 128 * b2n r.fFinal + 2 ^ 8 * r.fCtx)
  else if o = 0x14 then toW r.fChunk
  else if o = 0x18 then toW (r.fChunk / 2 ^ 32)
  else if o = 0x1C then toW (r.lastV + 2 ^ 16 * r.lastS)
  else if 0x100 ≤ o ∧ o < 0x120 ∧ o % 4 = 0 then
    let n := (o - 0x100) / 4
    if portOk s n then
      toW (slotsUsed s n + 2 ^ 7 * min (tcount r.stages (fun _ g => g.port == n)) 7 + 2 ^ 10 * (64 - addersOut s n))
    else 0
  else reg s (0x30000 + o)

/-- The update unit (10 R347). -/
def readUp (s : State) (o : Nat) : Word :=
  if o = 0x0C then toW (updRunning s + 8 * s.upd.fuses.length + 2 ^ 8 * s.upd.cadence.length)
  else if o = 0x18 then toW (s.upd.skewGroup + 2 ^ 12 * s.upd.skewPart)
  else reg s (0x31000 + o)

/-- A requester sees counters at full resolution (13 R428). -/
def seesFull (s : State) (who : Requester) : Bool :=
  match whoPart s who with
  | none => mLevel s 1
  | some p => holdsLevel s (p + 1) 1

/-- A coarsened value (13 R429). -/
def coarse (v : Nat) : Nat := v / 1024 * 1024

/-- Flits a partition has sent in a class, as a requester sees them (11 R380, 13 R428). -/
def bwShown (s : State) (who : Requester) (p c : Nat) : Nat :=
  let r := partAt s p
  if who.priv || seesFull s who then r.bw.getD c 0 else coarse (r.cBw.getD c 0)

/-- A mask of the numbers in a list. -/
def bitsFrom (l : List Nat) : Nat := (l.map (fun i => 2 ^ i)).foldl (· + ·) 0

/-- A partition's registers (11 R380). -/
def readPart (s : State) (who : Requester) (p o : Nat) : Word :=
  let r := partAt s p
  if o = 0x00 then toW (b2n r.live + 2 * r.tdisp + 8 * b2n r.resetting + 16 * b2n (isDraining s p) + 32 * b2n r.frozen +
    64 * b2n r.saved + 128 * b2n r.winErr)
  else if o = 0x04 then toW r.gen
  else if o = 0x0C then toW (bitsFrom r.slots)
  else if o = 0x10 then toW (bitsFrom r.slots / 2 ^ 32)
  else if o = 0x14 then toW (bitsFrom r.ways + 2 ^ 16 * r.ports + 2 ^ 24 * r.replay)
  else if o = 0x18 then toW (r.kidBase + 2 ^ 16 * r.kidCount)
  else if 0x80 ≤ o ∧ o < 0xC0 ∧ o % 4 = 0 then
    toW (bwShown s who p ((o - 0x80) / 8) / (if o % 8 = 0 then 1 else 2 ^ 32))
  else reg s (ptOff p o)

/-- A counter as a requester sees it: its value and its OVF bit (13 R425, R426, R429). -/
def cntShown (s : State) (who : Requester) (c : Counter) : Nat × Bool :=
  if seesFull s who then (c.val, c.ovf) else (coarse (if c.mode = 1 then c.cSnap else c.cVal), c.cOvf)

/-- LO or HI word of a counter as a requester sees it. -/
def cntWord (s : State) (who : Requester) (c : Counter) (hi : Bool) : Word :=
  let v := cntShown s who c
  if hi then toW (v.1 / 2 ^ 32 + 2 ^ 16 * b2n v.2) else toW v.1

/-- PMU_CFG of a counter. -/
def cfgWord (c : Counter) : Word :=
  toW (c.event + 2 ^ 11 * c.owner + 2 ^ 16 * c.mode + 2 ^ 20 * b2n c.enable + 2 ^ 24 * c.part + 2 ^ 28 * b2n c.filter)

/-- The PMU block (13 R444). -/
def readPmu (s : State) (who : Requester) (o : Nat) : Word :=
  let cnt := fun i => tgetD s.dbg.cnt i Counter.free
  if o = 0x00 then (reg s 0x60000 &&& 5#32) ||| toW (2 * b2n s.aon.frozen + 8 * b2n s.aon.adjDone)
  else if o = 0x30 then toW s.aon.ts
  else if o = 0x34 then toW (s.aon.ts / 2 ^ 32)
  else if o = 0x50 then toW s.aon.stopCount
  else if o = 0x54 then toW s.aon.stopStart
  else if o = 0x58 then toW (s.aon.stopStart / 2 ^ 32)
  else if o = 0x5C then toW s.aon.stopLen
  else if o = 0x60 then toW (s.aon.stopLen / 2 ^ 32)
  else if 0x800 ≤ o ∧ o < 0xA00 ∧ o % 4 = 0 then cfgWord (cnt ((o - 0x800) / 4))
  else if 0x1000 ≤ o ∧ o < 0x1400 ∧ o % 4 = 0 then cntWord s who (cnt ((o - 0x1000) / 8)) (o % 8 == 4)
  else if 0x1800 ≤ o ∧ o < 0x1C00 ∧ o % 4 = 0 then
    let c := cnt ((o - 0x1800) / 8)
    let v := if seesFull s who then c.snap else coarse c.cSnap
    toW (if o % 8 = 4 then v / 2 ^ 32 else v)
  else if 0x2000 ≤ o ∧ o < 0x2040 ∧ o % 4 = 0 then
    let j := (o - 0x2000) / 8
    let v := if seesFull s who then tgetD s.aon.cnt j 0 else coarse (tgetD s.dbg.cAon j 0)
    toW (if o % 8 = 4 then v / 2 ^ 32 else v)
  else reg s (0x60000 + o)

/-- A partition's view page (13 R445). -/
def readView (s : State) (who : Requester) (p o : Nat) : Word :=
  if o = 0x00 then toW s.aon.ts
  else if o = 0x04 then toW (s.aon.ts / 2 ^ 32)
  else if o = 0x08 then toW (b2n (wbit (reg s (ptOff p 8)) 1) + 2 * b2n (holdsLevel s (p + 1) 1) + 4 * b2n s.aon.frozen)
  else if 0x100 ≤ o ∧ o < 0x500 ∧ o % 4 = 0 then
    let c := tgetD s.dbg.cnt ((o - 0x100) / 8) Counter.free
    if c.owner = p + 1 then cntWord s who c (o % 8 == 4) else 0
  else 0

/-- A watchpoint's registers (13 R446). -/
def readWatch (s : State) (i o : Nat) : Word :=
  let w := tgetD s.dbg.watch i Watch.free
  if o = 0x00 then reg s (0x70100 + 0x20 * i)
  else if o = 0x04 then toW w.mAddr
  else if o = 0x08 then toW (w.mAddr / 2 ^ 32)
  else if o = 0x0C then toW (w.mPasid + 2 ^ 20 * w.mPort + 2 ^ 24 * b2n w.mWrite + 2 ^ 25 * b2n w.mGap)
  else if o = 0x10 then toW w.mTs
  else if o = 0x14 then toW (w.mTs / 2 ^ 32)
  else 0

/-- The debug block (13 R446). -/
def readDebug (s : State) (o : Nat) : Word :=
  if o = 0x00 then toW (anyLevels s + 32 * b2n s.aon.testRoot + 64 * b2n (s.hub.run == .halted) + 2 ^ 8 * s.dbg.arms.length)
  else if o = 0x1C then toW s.dbg.ringWr
  else if 0x100 ≤ o ∧ o < 0x200 then readWatch s ((o - 0x100) / 0x20) (o % 0x20)
  else reg s (0x70000 + o)

/-- The repair block (12 R420). -/
def readRepair (s : State) (o : Nat) : Word :=
  if o = 0x00 then toW (aesSparesAll s + 2 ^ 7 * adderSparesAll s + 2 ^ 17 * b2n (spareCore s).isSome +
    2 ^ 18 * ((List.range 3).map (fun c => if isMapped s (.core c) then 0 else 2 ^ c)).foldl (· + ·) 0)
  else if o = 0x04 then toW (s.ladder.field.length + 2 ^ 14 * b2n s.ladder.fieldFull)
  else if o = 0x08 then toW s.ladder.factoryCount
  else if o = 0x0C then toW (msOut s)
  else reg s (0x80000 + o)

/-- The Tandem block (12 R421); it reads 0 in a single TVD-64, and its mir-domain field without a mirror clock. -/
def readTandem (s : State) (o : Nat) : Word :=
  if !s.tandemEn then 0
  else if o = 0x04 then toW (b2n s.tandemId + 2 * b2n (s.td.owner && !s.td.fenceIn) + 4 * b2n s.td.synced + 8 * b2n s.td.syncing +
    16 * b2n s.td.syncErr + 32 * s.td.modeActive + 128 * b2n s.td.alive + 2 ^ 8 * s.td.lastCause)
  else if o = 0x08 then if s.aon.clkStopped.contains .mir then 0 else toW s.td.syncKib
  else if o = 0x10 then toW s.td.failovers
  else reg s (0xF0000 + o)

/-- What a register reads as. -/
def regLive (s : State) (who : Requester) (off : Nat) : Word :=
  match regBlk off with
  | .ident => if off = 0 then tvdIdW else if off = 4 then ipVersionW else if off = 8 then configW s else 0
  | .global => readGlobal s off
  | .mbox m => readMbox s m (off % 0x100)
  | .life => readLife s (off % 0x1000)
  | .alarm => readAlarm s (off % 0x1000)
  | .port n => readPort s n (off % 0x1000)
  | .drl => readDrl s off
  | .sc => readFt s off
  | .ft => readFt s off
  | .ms => readMs s (off - 0x20000)
  | .kid => readKid s (off - 0x24000)
  | .rt => readRt s (off - 0x30000)
  | .up => readUp s (off - 0x31000)
  | .part p => readPart s who p (off % 0x1000)
  | .slot n => readSlot s n (off % 0x100)
  | .back => if off = 0x5F008 then toW s.parts.ctx.length else reg s off
  | .pmu => readPmu s who (off - 0x60000)
  | .view p => readView s who p (off % 0x800)
  | .debug => readDebug s (off - 0x70000)
  | .repair => readRepair s (off - 0x80000)
  | .tandem => readTandem s (off - 0xF0000)
  | .unmapped => 0

/-! Reads that act. -/

/-- Counters that a read clears (14 R455). -/
def isRc (off : Nat) : Bool :=
  match regBlk off with
  | .port _ => 0x20 ≤ off % 0x1000 && off % 0x1000 ≤ 0x38
  | .sc => off == 0x19010
  | .ft => 0x1A030 ≤ off && off ≤ 0x1A040
  | .ms => 0x20020 ≤ off && off ≤ 0x20038
  | .rt => 0x30020 ≤ off && off ≤ 0x3002C
  | .up => 0x31020 ≤ off && off ≤ 0x31038
  | .alarm => 0x5050 ≤ off && off ≤ 0x505C
  | .repair => off == 0x80010 || off == 0x80014
  | .tandem => off == 0xF0014 || off == 0xF0018
  | .debug => off == 0x70030 || (0x70100 ≤ off && off < 0x70200 && off % 0x20 == 0)
  | _ => false

/-- The registers that a read captures (14 R456). -/
def captures (off : Nat) : List Nat :=
  let one := [off + 4]
  match regBlk off with
  | .global => if off = 0x18 ∨ off = 0x34 then one else []
  | .part _ => if 0x80 ≤ off % 0x1000 ∧ off % 0x1000 < 0xC0 ∧ off % 8 = 0 then one else []
  | .pmu =>
    if off = 0x60030 ∨ off = 0x60054 ∨ off = 0x6005C then one
    else if off % 8 = 0 ∧ ((0x61000 ≤ off ∧ off < 0x61400) ∨ (0x61800 ≤ off ∧ off < 0x61C00) ∨ (0x62000 ≤ off ∧ off < 0x62040)) then one
    else []
  | .view _ =>
    if off % 0x800 = 0 ∨ (0x100 ≤ off % 0x800 ∧ off % 0x800 < 0x500 ∧ off % 8 = 0) then one else []
  | .debug => if 0x70100 ≤ off ∧ off < 0x70200 ∧ off % 0x20 = 4 then [off + 4, off + 8, off + 12, off + 16] else []
  | _ => []

/-- A register whose value is the one captured. -/
def isCaptured (off : Nat) : Bool :=
  [4, 8, 12, 16].any (fun d => decide (d ≤ off) && (captures (off - d)).contains off)

/-- Where the capture of an identity stands. -/
def capKey (s : State) (who : Requester) (off : Nat) : Nat := capIdent s who * 2 ^ 20 + off

/-- Read a register: a captured one as captured, else as it is; a counter clears, a LO register captures its partners. Single-bit errors are
corrected and counted as they come: how many REP_SRAM_CE counts between two reads is free (12 R389; log 49). -/
def regRead (s : State) (who : Requester) (off : Nat) : Word × State :=
  if off = 0x80010 then let f := freeN s; (toW f.1, f.2) else
  let v := if isCaptured off then tgetD s.cap (capKey s who off) 0 else regLive s who off
  let s := if isRc off then setReg s off 0 else s
  (v, { s with cap := (captures off).foldl (fun c o => tset c (capKey s who o) (regLive s who o)) s.cap })

/-! The debug port (13 R442). -/

/-- The level of a register of the debug space: none where an access is always open. -/
def dpLevel (o : Nat) : Option Nat :=
  if o = 0x04 ∨ o = 0x10 ∨ o = 0x20 ∨ o = 0x24 ∨ (0x100 ≤ o ∧ o < 0x130) then some 3
  else if o = 0x08 then some 4
  else none

/-- What a register of the debug space reads as, but DP_RAM_DATA. -/
def dpRead (s : State) (o : Nat) : Word :=
  if o = 0x00 then toW (lcCode s.otp.lc + 16 * anyLevels s + 2 ^ 9 * b2n s.aon.testRoot + 2 ^ 10 * b2n (invasiveOn s) +
    2 ^ 11 * b2n (wbit (dpWord s 8) 0))
  else if o = 0x04 ∨ o = 0x08 ∨ o = 0x20 ∨ (0x100 ≤ o ∧ o < 0x130) then dpWord s o
  else if o = 0x14 then toW (b2n (s.hub.run == .halted) + 2 * b2n s.hub.drainLate + 4 * s.hub.bpHit)
  else 0

/-- An access of the debug space by the debug port: a read, or a write of a word. -/
def dpAccess (s : State) (o : Nat) (wr : Option Word) : State × Word × Bool :=
  if o = 0x24 then dpRam s wr
  else match wr with
    | none => (s, dpRead s o, false)
    | some w =>
      if o = 0x04 ∨ o = 0x08 then (dpLatch s o w, 0, false)
      else if o = 0x10 then (if wbit w 1 then hubResume s else if wbit w 0 then hubHalt s 15 else s, 0, false)
      else if o = 0x20 then (dpSet s o (w &&& 0xFFFFC#32), 0, false)
      else if 0x100 ≤ o ∧ o < 0x130 then (dpSet s o (w &&& 0x7FFFD#32), 0, false)
      else (s, 0, false)

/-- Run an access of the debug space. -/
def runSpace (o : Nat) (wr : Option Word) (s : State) : Host.Outcome State Fault Refusal :=
  match dpLevel o with
  | some l => runDp l (fun s => dpAccess s o wr) s
  | none => runAon (fun s => let r := dpAccess s o wr
                             emit r.1 (.dbgRsp r.2.1 r.2.2)) s

/-- A read through the register port, or, from offset 0x10_0000 up, of the debug space through the debug port. DESIGN CHOICE
(log 27). -/
def runRead (off : Nat) (who : Requester) (s : State) : Host.Outcome State Fault Refusal :=
  let off := off / 4 * 4
  if 0x100000 ≤ off then runSpace ((off - 0x100000) % 2 ^ 16) none s
  else runReg who off (fun s =>
    match regBlk off with
    | .mbox m => if off % 0x100 = 0xC then outRead s m who else emit s (.regRsp (regLive s who off) false)
    | _ =>
      let r := regRead s who off
      emit r.2 (.regRsp r.1 false)) s

/-- RC_COUNTER_READ (14 R455). -/
def execRcCounterRead (off : Nat) (who : Requester) (s : State) : Host.Outcome State Fault Refusal := runRead off who s

/-- LO_CAPTURE_READ (14 R456). -/
def execLoCaptureRead (off : Nat) (who : Requester) (s : State) : Host.Outcome State Fault Refusal := runRead off who s

end Sys2Proof.Machine
end

