-- ==== Sys2Proof/Machine/RegWrite.lean ====
section
/-! DEFINITION. What a write of each register of the window does (14 R454, R455 and the tables of the chapters; 06 R197, R198, R215;
08 R291; 12 R398). -/

namespace Sys2Proof.Machine

/-! Lanes (06 R197, R215; 12 R398). -/

/-- LANE_ALLOW: a bit that falls fences its lane, a bit that rises returns a lane fenced with cause 4. -/
def lpCtrl (s : State) (n : Nat) (w : Word) : State :=
  let old := reg s (lpOff n 0)
  let s := setReg s (lpOff n 0) (w &&& 0xFF#32)
  (List.range 8).foldl (fun s k =>
    let x := laneNo n k
    if wbit old k && !wbit w k then fenceLane s x 4
    else if !wbit old k && wbit w k && (laneAt s x).cause == 4 && !heldIsolated s n then returnLane s x
    else s) s

/-- LP_UNFENCE: each lane named that may return does. -/
def unfence (s : State) (n : Nat) (w : Word) : State :=
  (List.range 8).foldl (fun s k =>
    let x := laneNo n k
    let c := (laneAt s x).cause
    if wbit w k && (c == 2 || c == 3 || c == 6) && (laneAt s x).up && laneAllow s x && !heldIsolated s n then returnLane s x
    else s) s

/-! Plain registers. -/

/-- Bits that software writes and reads back, of registers whose write does nothing else. -/
def rwMask (off : Nat) : Word :=
  let o := off % 0x1000
  match regBlk off with
  | .mbox _ => if off % 0x100 = 0x18 then 1#32 else 0
  | .life => if o = 0x20 then 0x3FF#32 else if o = 0x24 then maskW 31 0 else 0
  | .port _ => if o = 0x14 then 0x1F#32 else 0
  | .drl => 0x000100FF#32
  | .ft => if o = 0x14 then 0xFF#32 else if o = 0x28 then 0xF#32 else 0
  | .ms => if off = 0x20008 then 0x7F#32 else 0
  | .rt => if o = 0 then 0xFFFFFF#32 else if o = 8 then 0x3F#32 else 0
  | .up => if o = 0x14 then 0x3F#32 else 0
  | .part _ =>
    if o = 0x20 then 0xFFFFF000#32
    else if o = 0x24 ∨ o = 0x28 ∨ o = 0x2C ∨ o = 0x30 then maskW 31 0
    else if o = 0x44 then 7#32
    else 0
  | .slot _ =>
    if off % 0x100 = 0x08 then 0xFFFFF#32 else if off % 0x100 = 0x18 then 3#32 else if off % 0x100 = 0x20 then 0xFF#32 else 0
  | .pmu => if off = 0x60038 ∨ off = 0x6003C then maskW 31 0 else 0
  | .debug =>
    if off = 0x70008 then 0xF#32 else if off = 0x70010 then 0xFFFFF000#32 else if off = 0x70014 then maskW 31 0
    else if off = 0x70020 then 0xFFFF#32 else 0
  | .tandem => if off = 0xF0000 then 3#32 else 0
  | _ => 0

/-- Bits that a 1 clears, of registers whose write does nothing else. -/
def w1cMask (off : Nat) : Word :=
  let o := off % 0x1000
  match regBlk off with
  | .mbox _ => if off % 0x100 = 0x08 ∨ off % 0x100 = 0x10 then 0x20000#32 else 0
  | .life => if o = 0x30 then 6#32 else 0
  | .alarm => if o = 0 then 0x10000#32 else 0
  | .port _ => if o = 0x10 then 0x1F#32 else 0
  | .sc => if off = 0x1900C then 0x20000#32 else 0
  | .ft => if o = 0x24 then 0xF#32 else 0
  | .ms => if off = 0x20004 then 0x7F#32 else 0
  | .rt => if o = 4 then 0x3F#32 else 0
  | .up => if o = 0x10 then 0x3F#32 else 0
  | .part _ => if o = 0x40 then 7#32 else if o = 0x48 then 0xFF#32 else 0
  | .slot _ => if off % 0x100 = 0x14 then 7#32 else 0
  | .pmu => if off = 0x60020 then 0xFF#32 else 0
  | .debug => if off = 0x70004 then 0xF#32 else 0
  | _ => 0

/-- A write of a register whose write does nothing else. -/
def plainWrite (s : State) (off : Nat) (w : Word) : State :=
  if rwMask off ≠ 0 then putBits s off (rwMask off) w
  else if w1cMask off ≠ 0 then putBits s off (w1cMask off &&& w) 0
  else s

/-! Registers with a rule of their own. -/

/-- An area register: accepted while nothing holds its area, and noted (11 R348 order 5). -/
def areaWrite (s : State) (off : Nat) (free : Bool) (m : Word) (top : Nat) (w : Word) : State :=
  if free && decide ((w &&& m).toNat ≤ top) then
    let s := setReg s off (w &&& m)
    if s.parts.areas.contains off then s else { s with parts := { s.parts with areas := s.parts.areas ++ [off] } }
  else s

/-- A register whose field has a range: a value outside it is ignored. -/
def rangeWrite (s : State) (off : Nat) (m : Word) (lo hi : Nat) (w : Word) : State :=
  if lo ≤ (w &&& m).toNat ∧ (w &&& m).toNat ≤ hi then setReg s off (w &&& m) else s

/-- LC_STATUS: ERROR is cleared bit by bit; 0xF also ends PHASE 3 (04 R135). -/
def lcStatusWrite (s : State) (w : Word) : State :=
  let e := fld w 7 4
  if e = 15 then { s with otp := { s.otp with error := 0, phase := if s.otp.phase = 3 then 0 else s.otp.phase } }
  else { s with otp := { s.otp with error := (BitVec.ofNat 4 s.otp.error &&& ~~~(BitVec.ofNat 4 e)).toNat } }

/-- The life-cycle block (04 R135). -/
def writeLife (s : State) (o : Nat) (w : Word) : State :=
  if o = 0x04 then lcWrite s w
  else if o = 0x08 then lcStatusWrite s w
  else if 0x10 ≤ o ∧ o < 0x20 ∧ o % 4 = 0 then { s with otp := { s.otp with token := lset s.otp.token ((o - 0x10) / 4) w } }
  else if o = 0x28 then otpCmd s w
  else plainWrite s (0x4000 + o) w

/-- The alarm and reset registers (12 R419). -/
def writeAlarm (s : State) (o : Nat) (w : Word) : State :=
  if o = 0x04 then
    let s := rangeWrite s 0x5004 0xFF#32 1 255 w
    if wbit w 8 then haltBlock s 6 else s
  else if o = 0x08 then if wbit w 0 then popAlarm s else s
  else if o = 0x40 then rangeWrite s 0x5040 0xFFFFFF#32 10000 10000000 w
  else if o = 0x44 then rstCmd s w []
  else plainWrite s (0x5000 + o) w

/-- A lane port's registers (06 R215). -/
def writePort (s : State) (n o : Nat) (w : Word) : State :=
  if !portOk s n then s
  else if o = 0x00 then lpCtrl s n w
  else if o = 0x0C then unfence s n w
  else plainWrite s (lpOff n o) w

/-- The stream context controls (06 R216). -/
def writeSc (s : State) (off : Nat) (w : Word) : State :=
  let free := s.links.egress.isEmpty && s.links.ingress.isEmpty
  if off = 0x19000 then if free then setReg s off (w &&& 0xFFFFF000#32) else s
  else if off = 0x19004 then if free then setReg s off w else s
  else if off = 0x19008 then if free then rangeWrite s off 0x1FFFFFF#32 0 16777216 w else s
  else plainWrite s off w

/-- The transaction unit (07 R230, R255). -/
def writeFt (s : State) (off : Nat) (w : Word) : State :=
  let free := s.fab.tags.isEmpty
  if off = 0x1A000 then if free then setReg s off (w &&& 0xFFF00000#32) else s
  else if off = 0x1A004 then if free then setReg s off w else s
  else if off = 0x1A008 then areaWrite s off free 0x7FF#32 1024 w
  else if off = 0x1A00C then rangeWrite s off 0xFFFFF#32 2000 1000000 w
  else if off = 0x1A010 then rangeWrite s off 0xF#32 1 15 w
  else plainWrite s off w

/-- MS_WEAR_SEL: the entry selected is captured (08 R291). -/
def wearSel (s : State) (w : Word) : State :=
  let s := setReg s 0x20100 (w &&& 0x3F#32)
  { s with mem := { s.mem with wearCap := tget s.mem.wear (fld w 5 0) } }

/-- The update unit (10 R325, R347). -/
def writeUp (s : State) (off : Nat) (w : Word) : State :=
  let free := !s.parts.part.any (fun p => p.2.live)
  if off = 0x31000 then areaWrite s off free 0xFFFFF000#32 0xFFFFFFFF w
  else if off = 0x31004 then areaWrite s off free 0xFFFFFFFF#32 0xFFFFFFFF w
  else if off = 0x31008 then areaWrite s off free 0x1FFF#32 4096 w
  else plainWrite s off w

/-- PT_CTRL.RESET (11 R380): not for the driver in CONFIG_LOCKED and RUN. -/
def ptResetBy (s : State) (p : Nat) (who : Requester) : State :=
  let t := (partAt s p).tdisp
  if who.priv && (t == 1 || t == 2) then s else startPartReset s p

/-- A partition's registers (11 R380). -/
def writePart (s : State) (who : Requester) (p o : Nat) (w : Word) : State :=
  if o = 0x08 then
    let s := if who.priv then putBits s (ptOff p 8) 2#32 w else s
    if wbit w 0 then ptResetBy s p who else s
  else if o = 0x34 then if wbit w 0 then winCommit s p who else s
  else plainWrite s (ptOff p o) w

/-- A slot's registers (11 R381). -/
def writeSlot (s : State) (who : Requester) (n o : Nat) (w : Word) : State :=
  if o = 0x00 then doorbell s n w
  else if o = 0x04 then
    if cmdIgnored s n who then s
    else if fld w 1 0 = 1 then cxCreate s n .ok
    else if fld w 1 0 = 2 then cxLoad s n (fld w 15 4) .ok
    else if fld w 1 0 = 3 then cxUnload s n .ok
    else s
  else if 0x24 ≤ o ∧ o ≤ 0x30 then qbaseWrite s n o w
  else if o = 0x34 then qcfgWrite s n w
  else if 0x40 ≤ o ∧ o < 0x60 ∧ o % 4 = 0 then ownKidWrite s n ((o - 0x40) / 4) w
  else plainWrite s (cxOff n o) w

/-- The context backing registers (11 R382). -/
def writeBack_ (s : State) (off : Nat) (w : Word) : State :=
  let free := s.parts.ctx.isEmpty
  if off = 0x5F000 then areaWrite s off free 0xFFF00000#32 0xFFFFFFFF w
  else if off = 0x5F004 then areaWrite s off free 0xFFFFFFFF#32 0xFFFFFFFF w
  else s

/-- PMU_OVF[k]: a 1 clears the sticky bit and the OVF bit of its counter (13 R425). -/
def ovfWrite (s : State) (k : Nat) (w : Word) : State :=
  let s := putBits s (0x60010 + 4 * k) w 0
  { s with dbg := { s.dbg with cnt := tmapV s.dbg.cnt (fun i c => if i / 32 = k ∧ wbit w (i % 32) then { c with ovf := false } else c) } }

/-- The PMU block (13 R444). -/
def writePmu (s : State) (off : Nat) (w : Word) : State :=
  if off = 0x60000 then refreeze (putBits s off (1#32 ||| (w &&& 4#32)) (w &&& 1#32))
  else if 0x60010 ≤ off ∧ off < 0x60020 then ovfWrite s ((off - 0x60010) / 4) w
  else if off = 0x60040 then if wbit w 0 then adjustTs s else s
  else plainWrite s off w

/-- The Tandem block (12 R421). -/
def writeTandem (s : State) (off : Nat) (w : Word) : State :=
  if !s.tandemEn then s
  else if off = 0xF000C then if wbit w 0 then startSync s else s
  else plainWrite s off w

/-- What a write does. Refused writes, which a mailbox bound to another identity makes, answer none. -/
def regWrite (s : State) (who : Requester) (off : Nat) (w : Word) : Option State :=
  match regBlk off with
  | .mbox m =>
    if off % 0x100 = 0 then if boundOther s m who then none else some (mbxIn s m w who)
    else if off % 0x100 = 4 then inCtrl s m w who
    else if off % 0x100 = 0x14 then outCtrl s m w who
    else some (plainWrite s off w)
  | .life => some (writeLife s (off % 0x1000) w)
  | .alarm => some (writeAlarm s (off % 0x1000) w)
  | .port n => some (writePort s n (off % 0x1000) w)
  | .sc => some (writeSc s off w)
  | .ft => some (writeFt s off w)
  | .ms => some (if off = 0x20100 then wearSel s w else plainWrite s off w)
  | .up => some (writeUp s off w)
  | .part p => some (writePart s who p (off % 0x1000) w)
  | .slot n => some (writeSlot s who n (off % 0x100) w)
  | .back => some (writeBack_ s off w)
  | .pmu => some (writePmu s off w)
  | .debug => some (if off = 0x70018 then ringRecords s w else plainWrite s off w)
  | .tandem => some (writeTandem s off w)
  | _ => some (plainWrite s off w)

/-! The commands. -/

/-- LP_CTRL_WRITE (06 R197, R215). -/
def execLpCtrlWrite (port : Nat) (w : Word) (who : Requester) (s : State) : Host.Outcome State Fault Refusal :=
  runWrite who (lpOff (port % 8) 0) (fun s => writePort s (port % 8) 0 w) s

/-- LP_UNFENCE (06 R215). -/
def execLpUnfence (port : Nat) (w : Word) (who : Requester) (s : State) : Host.Outcome State Fault Refusal :=
  runWrite who (lpOff (port % 8) 0xC) (fun s => writePort s (port % 8) 0xC w) s

/-- MS_WEAR_SEL_WRITE (08 R291). -/
def execMsWearSelWrite (w : Word) (who : Requester) (s : State) : Host.Outcome State Fault Refusal :=
  runWrite who 0x20100 (fun s => wearSel s w) s

/-- REGISTER_WRITE (14 R454); from offset 0x10_0000 up it is a write of the debug space through the debug port (log 27). A register
whose write has a row of its own is written as that row says. -/
def execRegisterWrite (off : Nat) (w : Word) (who : Requester) (s : State) : Host.Outcome State Fault Refusal :=
  let off := off / 4 * 4
  if 0x100000 ≤ off then runSpace ((off - 0x100000) % 2 ^ 16) (some w) s
  else runReg who off (fun s => orRefuse s (regWrite s who off w)) s

end Sys2Proof.Machine
end

