-- ==== Sys2Proof/Machine/Rekey.lean ====
section
/-! DEFINITION. The rekey of the domain and of single Chords (05 R171 to R176). -/

namespace Sys2Proof.Machine

/-- Change the rekey in progress. -/
def modRekey (s : State) (f : Rekey → Rekey) : State := { s with dom := { s.dom with rekey := s.dom.rekey.map f } }

/-- Sum of what the children have reported. -/
def childSum (s : State) (f : Child → Option Nat) : Nat := (s.dom.children.map (fun x => (f x.2).getD 0)).foldl (· + ·) 0

/-- Children that hold the domain's keys and so take part in a rekey: a DOMAIN_JOIN went to them. -/
def takesPart (c : Child) : Bool := c.link.sends != 0 || c.committed

/-- Every child that takes part has reported. -/
def childrenAll (s : State) (f : Child → Option Nat) : Bool := s.dom.children.all (fun x => !takesPart x.2 || (f x.2).isSome)

/-- A count for the parent: this member and those beneath it. -/
def countUp (s : State) (f : Child → Option Nat) : Bytes := leBytes 4 (b2n s.dom.member + childSum s f)

/-- Send a message to every child that takes part. -/
def toChildren (s : State) (code gen : Nat) : State :=
  s.dom.children.foldl (fun s x => if takesPart x.2 then pushCtl s x.1 code gen [] else s) s

/-- Send a message to the parent. -/
def toParent (s : State) (code gen : Nat) (body : Bytes) : State :=
  match s.dom.parent with
  | some l => pushCtl s l.peer code gen body
  | none => s

/-! Switch (05 R174). -/

/-- Chords of the old parity keep their generations and counts, since frames sealed under them may still arrive; the cache
is flushed and every Chord of the new generation starts at generation 1 (05 R171, R174, R175). DEDUCED (log 22). -/
def switchChords (s : State) (old : Bool) : State :=
  let keep := tkeep s.links.chord (fun k _ => (k % 2 == 1) == old)
  let saved := tkeep s.links.saved (fun k _ => (k % 2 == 1) == old)
  { s with links := { s.links with
      chord := [], chordLru := [], missC := [],
      saved := keep.foldl (fun t x => tset t x.1 (x.2.gen, x.2.count)) saved } }

/-- At one eng cycle: slot 3 moves to slot 4 under a new GEN, the pending key to slot 3, Chords restart. -/
def doSwitch (s : State) (target : Nat) : State :=
  let old := s.dom.gen % 2 == 1
  let k3 := slotAt s 3
  let k4 := slotAt s 4
  let k6 := slotAt s 6
  let s := setSlot s 4 { k3 with gen := min (k4.gen + 1) genMax }
  let s := setSlot s 3 { k6 with gen := min (k3.gen + 1) genMax }
  let s := setSlot s 6 (raiseGen k6 0)
  let s := switchChords s old
  let lead := s.dom.role == 2
  let s := { s with dom := { s.dom with
    gen := target, enrolled := if lead then [] else s.dom.enrolled, allMarked := s.dom.allMarked && !lead } }
  let s := modRekey s (fun r => { r with phase := .switching, switchAt := s.aon.ts })
  reduceSwitch (toChildren s 3 target)

/-- Vertices whose commit was withheld are answered (05 R176). -/
def releaseHeld (s : State) : State :=
  let vs := s.dom.held
  vs.foldl (fun s v => sendCommit { s with dom := { s.dom with enrolled := s.dom.enrolled ++ [v] } } v 0)
    { s with dom := { s.dom with held := [] } }

/-- The rekey goes on when every child has switched: the Lead replies, a member reports (05 R174). -/
def checkSwitch (s : State) : State :=
  match s.dom.rekey with
  | none => s
  | some r =>
    if r.phase ≠ .switching ∨ !childrenAll s (·.switched) then s
    else
      let s := modRekey s (fun r => { r with phase := .draining })
      match r.src with
      | some src =>
        let s := match packetOf s src .domainRekey with
          | some k => reply s src .domainRekey k.tag stOk [toW s.dom.gen, toW (childSum s (·.switched) % 2 ^ 17)]
          | none => s
        sendJoins (releaseHeld s)
      | none => sendJoins (toParent s 4 s.dom.gen (countUp s (·.switched)))

/-- The rekey goes on when every child holds the key: the Lead switches, a member reports (05 R174). -/
def checkDist (s : State) : State :=
  match s.dom.rekey with
  | none => s
  | some r =>
    if r.phase ≠ .distribute ∨ r.distSent ∨ !childrenAll s (·.dist) then s
    else match r.src with
      | some _ => checkSwitch (doSwitch s r.target)
      | none => toParent (modRekey s (fun r => { r with distSent := true, distAt := s.aon.ts })) 2 r.target (countUp s (·.dist))

/-! Distribute (05 R174). -/

/-- Hold a new DOMAIN_LINK pending in slot 6 and forward it to the children, each under its link record; a block whose lane ports
are all isolated has no channel to wrap with, and its children miss the phase (05 R137). -/
def distribute (s : State) (target : Nat) (key : BitVec 256) (src : Option Nat) : State :=
  let s := fillSlot s 6 key 4 4#16 0 0 0
  let r : Rekey := { phase := .distribute, target := target, src := src, distSent := false, distAt := 0,
                     switchAt := 0, ownDrained := false, drainSent := false }
  let s := { s with dom := { s.dom with
    rekey := some r
    children := tmapV s.dom.children (fun _ c => { c with dist := none, switched := none, drained := none }) } }
  let id := domainId s
  let s := s.dom.children.foldl (fun s x =>
    if takesPart x.2 && channelUp s then
      let l := sendLink s x.2.link
      pushCtl (modChild l.2 x.1 (fun c => { c with link := l.1 })) x.1 1 target (wrapKey l.1 1 id target key)
    else s) s
  checkDist s

/-- BCP_DOMAIN_REKEY, with its refusals in order (05 R176). Last, while the DRBG refuses: ST_INTERNAL, as the spec names no
status. DESIGN CHOICE (log 55). -/
def domainRekey (s : State) (src : Nat) (k : Packet) : State :=
  let target := (pw k.params 0).toNat
  let no := fun (st : Nat) => reply s src .domainRekey k.tag st []
  if s.dom.role ≠ 2 ∨ !s.dom.member then no stNotPermitted
  else if s.dom.gen = genMax then no stKeyExhausted
  else if target ≠ s.dom.gen + 1 then no stBadParam
  else if s.dom.rekey.isSome then no stBusy
  else if s.hub.drbgRefuse then no stInternal
  else
    let d := draw s 32
    distribute (startBg d.2 src .domainRekey [.domain]) target (keyOf d.1) (some src)

/-- BCP_DOMAIN_REKEY (05 R174). -/
def execBcpDomainRekey (src : Nat) (s : State) : Host.Outcome State Fault Refusal := runCmd src .domainRekey (fun s k => domainRekey s src k) s

/-- The parent of this block. -/
def fromParent (s : State) (v : Nat) : Bool := s.dom.parent.any (fun l => l.peer == v)

/-- REKEY_DIST_RX (05 R174). -/
def execRekeyDistRx (s : State) : Host.Outcome State Fault Refusal :=
  runFw (fun s => ctlRun 1 (s.dom.gen + 1) 80 (fun s v b =>
    if !fromParent s v ∨ s.dom.rekey.isSome then s
    else match s.dom.parent.bind (fun l => unwrapKey l.tk b 1 (domainId s) (s.dom.gen + 1) (s.dom.vertex.getD 0)) with
      | some key => distribute s (s.dom.gen + 1) key none
      | none => s) s) s

/-- A count from a child in a phase. -/
def childReport (s : State) (v : Nat) (f : Child → Child) : State := if s.dom.rekey.isSome then modChild s v f else s

/-- DIST_ACK_RX (05 R174). -/
def execDistAckRx (s : State) : Host.Outcome State Fault Refusal :=
  runFw (fun s => ctlRun 2 (s.dom.gen + 1) 4 (fun s v b =>
    checkDist (childReport s v (fun c => { c with dist := some (leAt b 0 4) }))) s) s

/-- SWITCH_RX (05 R174). -/
def execSwitchRx (s : State) : Host.Outcome State Fault Refusal :=
  runFw (fun s => ctlRun 3 (s.dom.gen + 1) 0 (fun s v _ =>
    match s.dom.rekey with
    | some r => if fromParent s v ∧ r.phase = .distribute then checkSwitch (doSwitch s r.target) else s
    | none => s) s) s

/-- SWITCH_ACK_RX (05 R174). -/
def execSwitchAckRx (s : State) : Host.Outcome State Fault Refusal :=
  runFw (fun s => ctlRun 4 s.dom.gen 4 (fun s v b =>
    checkSwitch (childReport s v (fun c => { c with switched := some (leAt b 0 4) }))) s) s

/-! Drain and retire (05 R174, R175; 06 R201). -/

/-- A key of a table by parity is of the generation before the current one. -/
def oldPar (s : State) (k : Nat) : Bool := (k % 2 == 1) != (s.dom.gen % 2 == 1)

/-- A stored frame sealed under the old generation. -/
def oldTag (s : State) (e : TagEnt) : Bool := !isModTag e && e.par != (s.dom.gen % 2 == 1)

/-- A queued frame that is to be sealed under a generation before the current one. -/
def queuedOld (s : State) (f : TxFrame) : Bool := f.under.any (· != s.dom.gen)

/-- No frame of the old generation is stored, or waits to be sealed under it. -/
def ownDrained (s : State) : Bool := !s.fab.tags.any (fun t => oldTag s t.2) && !s.fab.txq.any (queuedOld s)

/-- The old generation ends: slot 4 is invalidated, frames still unacknowledged fail with ST_TIMEOUT, its stream contexts
end. -/
def retireOld (s : State) : State :=
  let s := invalidateSlot s 4
  let s := (s.fab.tags.filter (fun t => oldTag s t.2)).foldl (fun s t => retire s t.1 stTimeout [] 0) s
  let gone := fun (k : Nat) => oldPar s k
  { s with
    fab := { s.fab with txq := s.fab.txq.filter (fun f => !queuedOld s f) }
    links := { s.links with
      egress := tkeep s.links.egress (fun k _ => !gone k), ingress := tkeep s.links.ingress (fun k _ => !gone k),
      scLru := s.links.scLru.filter (fun k => !gone (k / 2)), back := tkeep s.links.back (fun k _ => !gone (k / 2)), missS := s.links.missS.filter (fun k => !gone (k / 2)),
      saved := tkeep s.links.saved (fun k _ => !gone k) }
    dom := { s.dom with
      rekey := none, children := tmapV s.dom.children (fun _ c => { c with dist := none, switched := none, drained := none }) } }

/-- Send RETIRE down and end the old generation here. -/
def doRetire (s : State) : State := sendJoins (retireOld (toChildren s 6 s.dom.gen))

/-- The rekey goes on when this block and its subtree have drained: the Lead retires, a member reports. -/
def checkDrain (s : State) : State :=
  match s.dom.rekey with
  | none => s
  | some r =>
    if r.phase ≠ .draining ∨ !r.ownDrained ∨ r.drainSent ∨ !childrenAll s (·.drained) then s
    else match r.src with
      | some _ => doRetire s
      | none => toParent (modRekey s (fun r => { r with drainSent := true })) 5 s.dom.gen (countUp s (·.drained))

/-- REKEY_DRAIN_DONE (05 R174). -/
def execRekeyDrainDone (s : State) : Host.Outcome State Fault Refusal :=
  runFw (fun s => if ownDrained s then checkDrain (modRekey s (fun r => { r with ownDrained := true })) else s) s

/-- DRAINED_RX (05 R174). -/
def execDrainedRx (s : State) : Host.Outcome State Fault Refusal :=
  runFw (fun s => ctlRun 5 s.dom.gen 4 (fun s v b =>
    checkDrain (childReport s v (fun c => { c with drained := some (leAt b 0 4) }))) s) s

/-- RETIRE_RX (05 R174). -/
def execRetireRx (s : State) : Host.Outcome State Fault Refusal :=
  runFw (fun s => ctlRun 6 s.dom.gen 0 (fun s v _ =>
    if fromParent s v ∧ s.dom.rekey.any (fun r => r.phase != .distribute) then doRetire s else s) s) s

/-- REKEY_RETIRE_TIMEOUT (05 R174). -/
def execRekeyRetireTimeout (s : State) : Host.Outcome State Fault Refusal :=
  runFw (fun s => if s.dom.rekey.any (fun r => r.phase == .draining && r.src.isSome) then doRetire s else s) s

/-! Members left out (05 R176). -/

/-- A child that has not acknowledged the present phase is left out: it is told so under the generation it holds, and is
no child any more. No child is left out for want of DRAINED, which is a report and no acknowledgement, and which RETIRE does not
wait for beyond 10 ms. The COMMIT's header names the generation before TARGET, which seals it, so a child that has switched already
drops it. DESIGN CHOICE (log 46). -/
def leaveOut (s : State) (v : Nat) : State :=
  match s.dom.rekey, tget s.dom.children v with
  | some r, some c =>
    let missed := takesPart c && match r.phase with
      | .distribute => c.dist.isNone && !r.distSent
      | .switching => c.switched.isNone
      | .draining => false
    if !missed then s
    else
      let s := pushOld s v 9 (r.target - 1) (commitBody v 1)
      checkSwitch (checkDist { s with dom := { s.dom with children := tdel s.dom.children v } })
  | _, _ => s

/-- REKEY_CHILD_TIMEOUT (05 R176). -/
def execRekeyChildTimeout (vertex : Nat) (s : State) : Host.Outcome State Fault Refusal := runFw (fun s => leaveOut s vertex) s

/-- REKEY_SWITCH_TIMEOUT (05 R176): a member with a pending key and no SWITCH leaves with its subtree. -/
def execRekeySwitchTimeout (s : State) : Host.Outcome State Fault Refusal :=
  runFw (fun s => if s.dom.rekey.any (fun r => r.phase == .distribute && r.distSent) then leaveWithChildren s else s) s

/-! Chords (05 R171 to R173). -/

/-- The generation of the egress Chord toward a peer. -/
def egressGen (s : State) (k : Nat) : Nat :=
  match tget s.links.chord k with
  | some c => c.gen
  | none => (tgetD s.links.saved k (1, 0)).1

/-- Advance the egress Chord toward a peer by one generation; none at the last one (05 R172, R173). -/
def advanceChord (s : State) (v : Nat) : Option State :=
  let k := chordKey v 0 (s.dom.gen % 2 == 1)
  let g := egressGen s k
  if genMax ≤ g then none
  else some (match tget s.links.chord k with
    | some c => chordRoll s k c (g + 1)
    | none => { s with links := { s.links with saved := tset s.links.saved k (g + 1, 0) } })

/-- "Every peer" of ALL: every other vertex that the policy lets be a member (05 R172; 04: 4,095 peers of a domain of 4,096
vertices). DEDUCED (log 23). -/
def chordPeers (s : State) : List Nat := (List.range 65536).filter (otherMember s)

/-- BCP_CHORD_REKEY. -/
def chordRekey (s : State) (src : Nat) (k : Packet) : State :=
  let w := pw k.params 0
  let peer := fld w 15 0
  if !s.dom.member ∨ (!wbit w 18 && !otherMember s peer) then reply s src .chordRekey k.tag stNotPermitted []
  else
    let peers := if wbit w 18 then chordPeers s else [peer]
    let a := if wbit w 16 then peers.foldl (fun (a : State × Nat) v => match advanceChord a.1 v with
      | some t => (t, a.2 + 1)
      | none => a) (s, 0) else (s, 0)
    if !wbit w 17 then reply a.1 src .chordRekey k.tag stOk [toW (a.2 % 2 ^ 17)]
    else
      let s := peers.foldl (fun s v => pushCtl s v 7 s.dom.gen (leBytes 4 0)) a.1
      startBg { s with dom := { s.dom with chordWin := some (src, a.2, 0) } } src .chordRekey []

/-- BCP_CHORD_REKEY (05 R172). -/
def execBcpChordRekey (src : Nat) (s : State) : Host.Outcome State Fault Refusal := runCmd src .chordRekey (fun s k => chordRekey s src k) s

/-- CHORD_ADVANCE_RX (05 R172, R173): an ACK counts; a request advances the Chord and is answered with ACK, or without
it at the last generation. -/
def execChordAdvanceRx (s : State) : Host.Outcome State Fault Refusal :=
  runFw (fun s => ctlRun 7 s.dom.gen 4 (fun s v b =>
    if leAt b 0 4 % 2 = 1 then
      { s with dom := { s.dom with chordWin := s.dom.chordWin.map (fun x => (x.1, x.2.1, x.2.2 + 1)) } }
    else match advanceChord s v with
      | some t => pushCtl t v 7 t.dom.gen (leBytes 4 1)
      | none => pushCtl s v 7 s.dom.gen (leBytes 4 0)) s) s

/-- CHORD_REKEY_WINDOW_END (05 R172). -/
def execChordRekeyWindowEnd (s : State) : Host.Outcome State Fault Refusal :=
  runFw (fun s => match s.dom.chordWin with
    | none => s
    | some (src, n, a) =>
      let s := { s with dom := { s.dom with chordWin := none } }
      match packetOf s src .chordRekey with
      | some k => reply s src .chordRekey k.tag stOk [toW ((n + a) % 2 ^ 17)]
      | none => s) s

end Sys2Proof.Machine
end

