-- ==== Sys2Proof/Machine/Responses.lean ====
section
/-! DEFINITION. What comes back from outside: package memory, pool modules and the store; and the end of background commands
(02 R43, R48; 03 R94; 08 R262 to R272; 12 R390, R391). -/

namespace Sys2Proof.Machine

/-! Package memory (02 R43). -/

/-- The records of a frame have been read back, or not: a failed or poisoned record is never sent again, and the frame gives up
(12 R391). -/
def resendArrive (s : State) (t : Nat) (bad err : Bool) (addr : Nat) (data : Bytes) (pick : Nat) : State :=
  if bad then
    let e := tget s.fab.tags t
    let s := if err then ioEvent s 0xFF 0 stTimeout ((e.map (·.dst)).getD 0) ((e.bind (fun e => ownerPart e.owner)).getD 0) 0 addr else s
    giveUp s t
  else resendTag s t data pick

/-- The response to an access goes to whoever made it. -/
def pmAnswer (s : State) (p : Pm) (err : Bool) (poison : Nat) (data : Bytes) (pick : Nat) : State :=
  let data := (padTo p.len data).take p.len
  let own := match p.use with
    | .home _ => true
    | _ => false
  let s := if p.write && !err && !own then waitsTouched s p.pasid p.addr p.len else s
  let eaten := if p.write || err then s else poisonEaten s poison
  match p.use with
  | .home i => homeResponse s i err poison data
  | .copyRead e i => copyArrive eaten e i err poison data
  | .resend t => resendArrive s t (err || decide (poison ≠ 0)) err p.addr data pick
  | .localRead d i => localArrive eaten d i err poison data
  | .redWrite d => redWritten s d err p.addr
  | .gradRead d t => gradArrive eaten d t err poison data
  | .copyWrite d => updWritten s d err p.addr
  | .normRead d => normArrive eaten d err poison data
  | .normWrite d => updWritten s d err p.addr
  | .logEntry q => logAnswer s q err p.addr
  | .waitRead d => waitAnswer eaten d (if err then .err else if poison ≠ 0 then .poison else .ok) (ofLe data) p.addr
  | .dbgRing => if err then ioEvent s 0xFF 0 stInternal 0 0 0 p.addr else s

/-- INITIATOR_RESPONSE (02 R43): the access of number `id` is answered; `pick` chooses the lane of a frame sent again. -/
def execInitiatorResponse (id : Nat) (err : Bool) (poison : Nat) (data : Bytes) (pick : Nat) (s : State) :
    Host.Outcome State Fault Refusal :=
  runEng (fun s => match tget s.fab.pm id with
    | none => s
    | some p => pmAnswer { s with fab := { s.fab with pm := tdel s.fab.pm id } } p err poison data pick) s

/-! Pool modules (08 R262 to R264). -/

/-- A module's response: its status, its poisoned lines and its lines go to the request it names. A response without the lines
it owes fails as a module fault does. DEDUCED (log 29). -/
def moduleRsp (s : State) (f : InFrame) : State :=
  match moduleTag s f.hdr with
  | none => s
  | some t => match tget s.fab.tags t with
    | none => s
    | some e =>
      let read := f.hdr.op == opMdata
      let n := f.hdr.nlines + 1
      let mst := leAt f.payload 8 1
      let poison := leAt f.payload 0 8 % 2 ^ n
      let bad := mst != 0 || (read && f.payload.length != 16 + 64 * n)
      let status := if bad then stInternal else stOk
      let data := if bad then [] else f.payload.drop 16
      let s := bumpBy s 0x20038 (popcount 64 poison)
      let s := if mst ≠ 0 then setBits s 0x20004 0x20 else s
      let s := if bad && read then ioEvent s unitMem 0 stInternal f.hdr.src (((regionAt s f.hdr.kid).map (·.part)).getD 0) f.hdr.kid f.hdr.addr else s
      let s := retire s t status data poison
      match e.origin with
      | .module id _ => identityArrive s id status poison data
      | _ => s

/-- A response with the identity line that a create asked for, while the firmware does not act: it waits. -/
def forFw (s : State) (f : InFrame) : Bool :=
  !fwActs s && ((moduleTag s f.hdr).bind (tget s.fab.tags)).any (fun e => match e.origin with
    | .module id _ => (tget s.mem.idReq id).isSome
    | _ => false)

/-- MDATA_RX (08 R264, R269). -/
def execMdataRx (s : State) : Host.Outcome State Fault Refusal :=
  runEng (fun s => onFrame (fun f => f.hdr.op == opMdata && !forFw s f) moduleRsp s) s

/-- MDONE_RX (08 R264, R270, R272). -/
def execMdoneRx (s : State) : Host.Outcome State Fault Refusal :=
  runEng (onFrame (fun f => f.hdr.op == opMdone) moduleRsp) s

/-! The store (02 R48; 03 R78; 05 R143). -/

/-- The oldest store request is answered, and the command that waited for its last record goes on. -/
def storeArrive (s : State) (ok : Bool) : State :=
  let a := storeAnswer s ok
  match a.2 with
  | none => a.1
  | some src => match packetOf a.1 src .fwStage with
    | some k => if a.1.hub.bg.any (fun b => b.src == src) then fwContinue a.1 src k else a.1
    | none => if a.1.hub.bg.any (fun b => b.src == src && b.op == .spdm) then chainDone a.1 src else a.1

/-- STORE_RESPONSE (02 R48). What a read delivers is an operand of the boot commands. -/
def execStoreResponse (ok : Bool) (_data : Bytes) (s : State) : Host.Outcome State Fault Refusal :=
  runFw (fun s => storeArrive s ok) s

/-- HUB_SELFTEST_DONE (03 R71, R72); the firmware takes the results of the key port that came meanwhile. -/
def execHubSelftestDone (fails : List Nat) (s : State) : Host.Outcome State Fault Refusal :=
  runEng (fun s => when_ s.hub.selfTest (fun s => takeAcks (afterSelfTest s fails true)) s) s

/-! Background commands (03 R94). -/

/-- The command of a source goes on, and ends if nothing it waits for is left. Those that end with an event of their own (a
store or key port answer, a message, a timer) are not here. -/
def bgEnd (s : State) (src : Nat) (op : Op) : State :=
  let with_ := fun (f : State → Nat → Packet → State) => match packetOf s src op with
    | some k => f s src k
    | none => s
  match op with
  | .regionDestroy => with_ endRegionDestroy
  | .regionRekey => with_ endRegionRekey
  | .contextReset => with_ endContextReset
  | .contextTeardown => with_ endTeardown
  | .partitionDestroy => with_ endDestroy
  | .migFreeze => with_ endFreeze
  | .migLogStart => with_ endLogStop
  | .domainEnrol => endEnrol s src
  | .tandemFailover => endFailover s src
  | _ => s

/-- BACKGROUND_COMMAND_DONE (03 R94). -/
def execBackgroundCommandDone (src : Nat) (s : State) : Host.Outcome State Fault Refusal :=
  runFw (fun s => match s.hub.bg.find? (fun b => b.src == src) with
    | some b => bgEnd s src b.op
    | none => s) s

end Sys2Proof.Machine
end

