-- ==== Sys2Proof/Machine/Dispatch.lean ====
section
/-! DEFINITION. One arm per command: its meaning, on everything but the queue. -/

namespace Sys2Proof.Machine

def exec (i : Instr) (s : State) : Host.Outcome State Fault Refusal :=
  match i with
  | .coldReset rise tandemEn tandemId env => Sys2Proof.Machine.execColdReset rise tandemEn tandemId env s
  | .bootImageCheck a b img v => Sys2Proof.Machine.execBootImageCheck a b img v s
  | .firmwareStart env => Sys2Proof.Machine.execFirmwareStart env s
  | .warmReset env => Sys2Proof.Machine.execWarmReset env s
  | .clkStopRequest => Sys2Proof.Machine.execClkStopRequest s
  | .clkStopAck => Sys2Proof.Machine.execClkStopAck s
  | .clkStopWithdraw => Sys2Proof.Machine.execClkStopWithdraw s
  | .clkStopQuiesceTimeout => Sys2Proof.Machine.execClkStopQuiesceTimeout s
  | .freezeTrigger bit on => Sys2Proof.Machine.execFreezeTrigger bit on s
  | .scanEnable => Sys2Proof.Machine.execScanEnable s
  | .clockFault clk f => Sys2Proof.Machine.execClockFault clk f s
  | .laneUpFall port lane => Sys2Proof.Machine.execLaneUpFall port lane s
  | .laneUpRise port lane => Sys2Proof.Machine.execLaneUpRise port lane s
  | .laneStart port lane => Sys2Proof.Machine.execLaneStart port lane s
  | .initSendTimer port lane => Sys2Proof.Machine.execInitSendTimer port lane s
  | .initTimeout port lane => Sys2Proof.Machine.execInitTimeout port lane s
  | .flitRx port lane data => Sys2Proof.Machine.execFlitRx port lane data s
  | .initRx port lane => Sys2Proof.Machine.execInitRx port lane s
  | .ackRx port lane fseq => Sys2Proof.Machine.execAckRx port lane fseq s
  | .nakRx port lane busy fseq => Sys2Proof.Machine.execNakRx port lane busy fseq s
  | .replayRx port lane fseq => Sys2Proof.Machine.execReplayRx port lane fseq s
  | .nakBusyWaitEnd port lane => Sys2Proof.Machine.execNakBusyWaitEnd port lane s
  | .ackTimer port lane => Sys2Proof.Machine.execAckTimer port lane s
  | .hopReplayTimeout port lane => Sys2Proof.Machine.execHopReplayTimeout port lane s
  | .frameRx port lane => Sys2Proof.Machine.execFrameRx port lane s
  | .gapRx port lane => Sys2Proof.Machine.execGapRx port lane s
  | .bootFrameRx port lane msg sid => Sys2Proof.Machine.execBootFrameRx port lane msg sid s
  | .combinedRx port lane => Sys2Proof.Machine.execCombinedRx port lane s
  | .chordMissFill key => Sys2Proof.Machine.execChordMissFill key s
  | .streamContextMissFill key acc => Sys2Proof.Machine.execStreamContextMissFill key acc s
  | .csTargetRequest port req => Sys2Proof.Machine.execCsTargetRequest port req s
  | .parkRelease part => Sys2Proof.Machine.execParkRelease part s
  | .targetResponse port tid => Sys2Proof.Machine.execTargetResponse port tid s
  | .frameEgressSeal pick => Sys2Proof.Machine.execFrameEgressSeal pick s
  | .retxRecordWriteDone tag ok => Sys2Proof.Machine.execRetxRecordWriteDone tag ok s
  | .homeRequest => Sys2Proof.Machine.execHomeRequest s
  | .rspRx => Sys2Proof.Machine.execRspRx s
  | .eackRx => Sys2Proof.Machine.execEackRx s
  | .eackFlush peer tc => Sys2Proof.Machine.execEackFlush peer tc s
  | .ackStreamGap peer tc => Sys2Proof.Machine.execAckStreamGap peer tc s
  | .e2eTimerExpiry tag => Sys2Proof.Machine.execE2eTimerExpiry tag s
  | .streamGapSend key => Sys2Proof.Machine.execStreamGapSend key s
  | .initiatorResponse id err poison data pick => Sys2Proof.Machine.execInitiatorResponse id err poison data pick s
  | .hotlineIdleWriteback kid line => Sys2Proof.Machine.execHotlineIdleWriteback kid line s
  | .mdataRx => Sys2Proof.Machine.execMdataRx s
  | .mdoneRx => Sys2Proof.Machine.execMdoneRx s
  | .counterCacheFill id victim => Sys2Proof.Machine.execCounterCacheFill id victim s
  | .pageReencryptDone id => Sys2Proof.Machine.execPageReencryptDone id s
  | .resealSweep kid => Sys2Proof.Machine.execResealSweep kid s
  | .regionKeyMiss kid => Sys2Proof.Machine.execRegionKeyMiss kid s
  | .orphanSweep => Sys2Proof.Machine.execOrphanSweep s
  | .entropyHealthFail => Sys2Proof.Machine.execEntropyHealthFail s
  | .hubLockstepMismatch => Sys2Proof.Machine.execHubLockstepMismatch s
  | .hubSelftestDone fails => Sys2Proof.Machine.execHubSelftestDone fails s
  | .heartbeatTimeout => Sys2Proof.Machine.execHeartbeatTimeout s
  | .mbxInData m w who => Sys2Proof.Machine.execMbxInData m w who s
  | .mbxClear m who => Sys2Proof.Machine.execMbxClear m who s
  | .mbxOutDataRead m who => Sys2Proof.Machine.execMbxOutDataRead m who s
  | .mbxDone m who => Sys2Proof.Machine.execMbxDone m who s
  | .mbxStreamPacket => Sys2Proof.Machine.execMbxStreamPacket s
  | .backgroundCommandDone src => Sys2Proof.Machine.execBackgroundCommandDone src s
  | .bcpGetInfo src => Sys2Proof.Machine.execBcpGetInfo src s
  | .bcpQuery src meas => Sys2Proof.Machine.execBcpQuery src meas s
  | .bcpDebugAuth src sigs => Sys2Proof.Machine.execBcpDebugAuth src sigs s
  | .bcpKeyDerive src => Sys2Proof.Machine.execBcpKeyDerive src s
  | .bcpKeyInvalidate src => Sys2Proof.Machine.execBcpKeyInvalidate src s
  | .bcpKeyInfo src => Sys2Proof.Machine.execBcpKeyInfo src s
  | .bcpSpdm src req sid => Sys2Proof.Machine.execBcpSpdm src req sid s
  | .bcpDomainEnrol src sigs => Sys2Proof.Machine.execBcpDomainEnrol src sigs s
  | .bcpDomainRekey src => Sys2Proof.Machine.execBcpDomainRekey src s
  | .bcpChordRekey src => Sys2Proof.Machine.execBcpChordRekey src s
  | .bcpRegionCreate src => Sys2Proof.Machine.execBcpRegionCreate src s
  | .bcpRegionDestroy src => Sys2Proof.Machine.execBcpRegionDestroy src s
  | .bcpRegionRekey src => Sys2Proof.Machine.execBcpRegionRekey src s
  | .bcpPgdWrite src => Sys2Proof.Machine.execBcpPgdWrite src s
  | .bcpPgdRead src => Sys2Proof.Machine.execBcpPgdRead src s
  | .bcpPartitionCreate src => Sys2Proof.Machine.execBcpPartitionCreate src s
  | .bcpPartitionDestroy src => Sys2Proof.Machine.execBcpPartitionDestroy src s
  | .bcpContextTeardown src => Sys2Proof.Machine.execBcpContextTeardown src s
  | .bcpContextReset src => Sys2Proof.Machine.execBcpContextReset src s
  | .bcpMigLogStart src => Sys2Proof.Machine.execBcpMigLogStart src s
  | .bcpMigFreeze src => Sys2Proof.Machine.execBcpMigFreeze src s
  | .bcpMigSave src => Sys2Proof.Machine.execBcpMigSave src s
  | .bcpMigRestore src => Sys2Proof.Machine.execBcpMigRestore src s
  | .bcpPmuConfig src => Sys2Proof.Machine.execBcpPmuConfig src s
  | .bcpDumpArm src => Sys2Proof.Machine.execBcpDumpArm src s
  | .bcpWatchSet src => Sys2Proof.Machine.execBcpWatchSet src s
  | .bcpRepairStatus src => Sys2Proof.Machine.execBcpRepairStatus src s
  | .bcpSelftest src fails => Sys2Proof.Machine.execBcpSelftest src fails s
  | .bcpFwStage src v => Sys2Proof.Machine.execBcpFwStage src v s
  | .bcpTandemFailover src => Sys2Proof.Machine.execBcpTandemFailover src s
  | .storeResponse ok data => Sys2Proof.Machine.execStoreResponse ok data s
  | .keyPortAck status => Sys2Proof.Machine.execKeyPortAck status s
  | .keyPortTimeout => Sys2Proof.Machine.execKeyPortTimeout s
  | .spdmKeyExchange conn requester fin => Sys2Proof.Machine.execSpdmKeyExchange conn requester fin s
  | .spdmEndSession conn sid joined => Sys2Proof.Machine.execSpdmEndSession conn sid joined s
  | .hybKem conn sid ek ct kpq => Sys2Proof.Machine.execHybKem conn sid ek ct kpq s
  | .hybSign conn sid ok peer => Sys2Proof.Machine.execHybSign conn sid ok peer s
  | .hybChain conn sid => Sys2Proof.Machine.execHybChain conn sid s
  | .hybSetChain src sid chain => Sys2Proof.Machine.execHybSetChain src sid chain s
  | .hybGetKey conn sid => Sys2Proof.Machine.execHybGetKey conn sid s
  | .spdmGetCsr conn sid => Sys2Proof.Machine.execSpdmGetCsr conn sid s
  | .spdmSetCertificate src sid chain => Sys2Proof.Machine.execSpdmSetCertificate src sid chain s
  | .spdmGetMeasurements conn sid index sig => Sys2Proof.Machine.execSpdmGetMeasurements conn sid index sig s
  | .domainJoin sid msg => Sys2Proof.Machine.execDomainJoin sid msg s
  | .enrolSessionTimeout => Sys2Proof.Machine.execEnrolSessionTimeout s
  | .enrolSessionRetry => Sys2Proof.Machine.execEnrolSessionRetry s
  | .enrolledRx => Sys2Proof.Machine.execEnrolledRx s
  | .commitRx => Sys2Proof.Machine.execCommitRx s
  | .rekeyDistRx => Sys2Proof.Machine.execRekeyDistRx s
  | .distAckRx => Sys2Proof.Machine.execDistAckRx s
  | .switchRx => Sys2Proof.Machine.execSwitchRx s
  | .switchAckRx => Sys2Proof.Machine.execSwitchAckRx s
  | .drainedRx => Sys2Proof.Machine.execDrainedRx s
  | .retireRx => Sys2Proof.Machine.execRetireRx s
  | .rekeyDrainDone => Sys2Proof.Machine.execRekeyDrainDone s
  | .rekeyRetireTimeout => Sys2Proof.Machine.execRekeyRetireTimeout s
  | .rekeyChildTimeout vertex => Sys2Proof.Machine.execRekeyChildTimeout vertex s
  | .rekeySwitchTimeout => Sys2Proof.Machine.execRekeySwitchTimeout s
  | .chordAdvanceRx => Sys2Proof.Machine.execChordAdvanceRx s
  | .chordRekeyWindowEnd => Sys2Proof.Machine.execChordRekeyWindowEnd s
  | .ideKmQuery sid port => Sys2Proof.Machine.execIdeKmQuery sid port s
  | .ideKmKeyProg sid port key data iv => Sys2Proof.Machine.execIdeKmKeyProg sid port key data iv s
  | .ideKmKSetGo sid port key => Sys2Proof.Machine.execIdeKmKSetGo sid port key s
  | .ideKmKSetStop sid port key => Sys2Proof.Machine.execIdeKmKSetStop sid port key s
  | .tdispLockInterface tdi sid => Sys2Proof.Machine.execTdispLockInterface tdi sid s
  | .tdispStartInterface tdi sid => Sys2Proof.Machine.execTdispStartInterface tdi sid s
  | .tdispStopInterface tdi sid => Sys2Proof.Machine.execTdispStopInterface tdi sid s
  | .tdispGetInterfaceReport tdi sid => Sys2Proof.Machine.execTdispGetInterfaceReport tdi sid s
  | .tdispErrorEntry part => Sys2Proof.Machine.execTdispErrorEntry part s
  | .pipelineRotation port rx pass => Sys2Proof.Machine.execPipelineRotation port rx pass s
  | .adderRotation port fails => Sys2Proof.Machine.execAdderRotation port fails s
  | .memsealPipeRotation pass => Sys2Proof.Machine.execMemsealPipeRotation pass s
  | .creditTick => Sys2Proof.Machine.execCreditTick s
  | .descriptorFetch ctx queue raw acc => Sys2Proof.Machine.execDescriptorFetch ctx queue raw acc s
  | .descriptorStart acc => Sys2Proof.Machine.execDescriptorStart acc s
  | .completionRecord desc acc => Sys2Proof.Machine.execCompletionRecord desc acc s
  | .wdCopyAsync desc => Sys2Proof.Machine.execWdCopyAsync desc s
  | .copyChunkSend eng => Sys2Proof.Machine.execCopyChunkSend eng s
  | .wdReduce desc => Sys2Proof.Machine.execWdReduce desc s
  | .wdUpdate desc acc => Sys2Proof.Machine.execWdUpdate desc acc s
  | .wdPublish desc => Sys2Proof.Machine.execWdPublish desc s
  | .wdInvalidate desc => Sys2Proof.Machine.execWdInvalidate desc s
  | .wdFence desc => Sys2Proof.Machine.execWdFence desc s
  | .wdSignal desc => Sys2Proof.Machine.execWdSignal desc s
  | .wdWait desc => Sys2Proof.Machine.execWdWait desc s
  | .waitPoll desc acc value => Sys2Proof.Machine.execWaitPoll desc acc value s
  | .waitTimeout desc => Sys2Proof.Machine.execWaitTimeout desc s
  | .wdDumpMark desc => Sys2Proof.Machine.execWdDumpMark desc s
  | .wdAbort desc => Sys2Proof.Machine.execWdAbort desc s
  | .sharedSignalAbandon desc => Sys2Proof.Machine.execSharedSignalAbandon desc s
  | .reduceStartRx => Sys2Proof.Machine.execReduceStartRx s
  | .reduceReadyRx => Sys2Proof.Machine.execReduceReadyRx s
  | .reduceBusyRx => Sys2Proof.Machine.execReduceBusyRx s
  | .reduceStartRetry desc => Sys2Proof.Machine.execReduceStartRetry desc s
  | .reduceAbortRx => Sys2Proof.Machine.execReduceAbortRx s
  | .reduceDataRx => Sys2Proof.Machine.execReduceDataRx s
  | .chunkRun desc u1 u2 => Sys2Proof.Machine.execChunkRun desc u1 u2 s
  | .reduceStageComplete desc => Sys2Proof.Machine.execReduceStageComplete desc s
  | .reduceIdleTimeout desc => Sys2Proof.Machine.execReduceIdleTimeout desc s
  | .fuseBind desc => Sys2Proof.Machine.execFuseBind desc s
  | .fuseBindTimeout desc => Sys2Proof.Machine.execFuseBindTimeout desc s
  | .updateTile desc u1 u2 => Sys2Proof.Machine.execUpdateTile desc u1 u2 s
  | .updateComplete desc => Sys2Proof.Machine.execUpdateComplete desc s
  | .cadenceFlush => Sys2Proof.Machine.execCadenceFlush s
  | .cxCreate slot who acc => Sys2Proof.Machine.execCxCreate slot who acc s
  | .cxLoad slot ctx who acc => Sys2Proof.Machine.execCxLoad slot ctx who acc s
  | .cxUnload slot who acc => Sys2Proof.Machine.execCxUnload slot who acc s
  | .cxDoorbell slot w who => Sys2Proof.Machine.execCxDoorbell slot w who s
  | .cxQcfgWrite slot w who => Sys2Proof.Machine.execCxQcfgWrite slot w who s
  | .cxOwnKidWrite slot idx w who => Sys2Proof.Machine.execCxOwnKidWrite slot idx w who s
  | .ptWinCommit part who => Sys2Proof.Machine.execPtWinCommit part who s
  | .ptReset part who => Sys2Proof.Machine.execPtReset part who s
  | .partitionDrainDone part => Sys2Proof.Machine.execPartitionDrainDone part s
  | .migFreezeTimeout part => Sys2Proof.Machine.execMigFreezeTimeout part s
  | .dirtyPageLog part => Sys2Proof.Machine.execDirtyPageLog part s
  | .almPop who => Sys2Proof.Machine.execAlmPop who s
  | .almHalt who => Sys2Proof.Machine.execAlmHalt who s
  | .watchdogExpiry unit => Sys2Proof.Machine.execWatchdogExpiry unit s
  | .rstL1 unit fails => Sys2Proof.Machine.execRstL1 unit fails s
  | .rstL2 t => Sys2Proof.Machine.execRstL2 t s
  | .rstPortReturn port who fails => Sys2Proof.Machine.execRstPortReturn port who fails s
  | .portAutoReturn port => Sys2Proof.Machine.execPortAutoReturn port s
  | .rstL3 env => Sys2Proof.Machine.execRstL3 env s
  | .resetDeadlineMiss => Sys2Proof.Machine.execResetDeadlineMiss s
  | .resetLevelEnd => Sys2Proof.Machine.execResetLevelEnd s
  | .sramUncorrectable m => Sys2Proof.Machine.execSramUncorrectable m s
  | .tdSyncStart who => Sys2Proof.Machine.execTdSyncStart who s
  | .tandemSynced => Sys2Proof.Machine.execTandemSynced s
  | .mirrorHeartbeat => Sys2Proof.Machine.execMirrorHeartbeat s
  | .mirrorRecordRx r => Sys2Proof.Machine.execMirrorRecordRx r s
  | .handoverRx cause => Sys2Proof.Machine.execHandoverRx cause s
  | .standbyMirrorSilence => Sys2Proof.Machine.execStandbyMirrorSilence s
  | .standbyTakeoverGiveup => Sys2Proof.Machine.execStandbyTakeoverGiveup s
  | .ownerMirrorSilence => Sys2Proof.Machine.execOwnerMirrorSilence s
  | .takeover => Sys2Proof.Machine.execTakeover s
  | .fenceInChange level => Sys2Proof.Machine.execFenceInChange level s
  | .compareMismatch => Sys2Proof.Machine.execCompareMismatch s
  | .compareKatDone failA failB => Sys2Proof.Machine.execCompareKatDone failA failB s
  | .coarsenTick => Sys2Proof.Machine.execCoarsenTick s
  | .tsAdjGo who => Sys2Proof.Machine.execTsAdjGo who s
  | .dumpFrameRx => Sys2Proof.Machine.execDumpFrameRx s
  | .dbgRingEnable w who => Sys2Proof.Machine.execDbgRingEnable w who s
  | .dpInvasiveWrite w => Sys2Proof.Machine.execDpInvasiveWrite w s
  | .dpScanAuthWrite w => Sys2Proof.Machine.execDpScanAuthWrite w s
  | .dpHubHalt => Sys2Proof.Machine.execDpHubHalt s
  | .hubBreakpoint n => Sys2Proof.Machine.execHubBreakpoint n s
  | .hubDrainDone late => Sys2Proof.Machine.execHubDrainDone late s
  | .dpHubResume => Sys2Proof.Machine.execDpHubResume s
  | .dpRamDataAccess wr => Sys2Proof.Machine.execDpRamDataAccess wr s
  | .lcTransitionGo w failAt who => Sys2Proof.Machine.execLcTransitionGo w failAt who s
  | .otpRead who => Sys2Proof.Machine.execOtpRead who s
  | .otpProgram who => Sys2Proof.Machine.execOtpProgram who s
  | .otpWriteDone blown => Sys2Proof.Machine.execOtpWriteDone blown s
  | .lpUnfence port w who => Sys2Proof.Machine.execLpUnfence port w who s
  | .lpCtrlWrite port w who => Sys2Proof.Machine.execLpCtrlWrite port w who s
  | .msWearSelWrite w who => Sys2Proof.Machine.execMsWearSelWrite w who s
  | .rcCounterRead off who => Sys2Proof.Machine.execRcCounterRead off who s
  | .loCaptureRead off who => Sys2Proof.Machine.execLoCaptureRead off who s
  | .registerWrite off w who => Sys2Proof.Machine.execRegisterWrite off w who s
  | .mbxGo m who => Sys2Proof.Machine.execMbxGo m who s
  | .warmResetAssert => Sys2Proof.Machine.execWarmResetAssert s
  | .clockReturnInRange clk => Sys2Proof.Machine.execClockReturnInRange clk s
  | .entropyStartupPass => Sys2Proof.Machine.execEntropyStartupPass s
  | .identityLineTimeout src => Sys2Proof.Machine.execIdentityLineTimeout src s

end Sys2Proof.Machine
end

