-- ==== Sys2Proof/Machine/Tick.lean ====
section
/-! DEFINITION. One cycle of tvd_aon_clk without a command: the timestamp and the counters of clock cycles (13 R424, R427, R431).
DESIGN CHOICE (log 13). -/

namespace Sys2Proof.Machine

/-- The engine clock runs. -/
def engClk (s : State) : Bool := s.aon.rstN && s.aon.clkPhase != .acked && !s.aon.clkStopped.contains .eng

/-- A cycle of tvd_aon_clk is 10 ns. Between 8 and 11 cycles of tvd_eng_clk fall into it (02 R57), in a part of which some unit has
pending work: free values. -/
def aonCycle (s : State) : State :=
  let s := countEv { s with aon := { s.aon with ts := (s.aon.ts + 10) % 2 ^ 64 } } 0x002 none 1
  if engClk s then
    let a := freeN s
    let b := freeN a.2
    let n := 8 + a.1 % 4
    let s := countEv b.2 0x001 none n
    if engUp s && s.aon.stage == 6 then countAon s 2 (b.1 % (n + 1)) else s
  else s

/-- Idling: an aon cycle while tvd_por_n is high, and nothing at all while it is low. Nothing is presented. -/
def idle (s : State) : State := quiet (if s.aon.porN then aonCycle s else s)

end Sys2Proof.Machine
end

