-- ==== Sys2Proof/Safety.lean ====
section
/-! DEFINITION. The terms statements use: when commands of a domain act, when nothing waits to complete of itself, and what
a halted block must look like. -/

namespace Sys2Proof.Machine

/-- Nothing waits to complete of itself: no context is to fault, no stored frame that moves is ready, no home operation or
publish is over, every fence still covers a write, no update has failed, and the mailbox stream and the membership rest. -/
def calm (s : State) : Bool :=
  s.parts.faultDue.isEmpty && s.fab.tags.all (fun p => !p.2.move || p.2.recs == 0) &&
  s.fab.homes.all (fun p => !(p.2.phase == 5 && p.2.wait == 0)) &&
  s.mem.drains.all (fun x => x.ops.any (fun i => (tget s.mem.ops i).isSome)) &&
  s.fab.fences.all (fun f => fenceOpen s f) && s.upd.runs.all (fun p => p.2.failed.isNone) &&
  ((mb s 17).replies.isEmpty || (decide ((mb s 17).rd ≠ 0) && replyOut s)) && !s.dom.leaving

/-- The block neither is halted nor feeds a standby's mirror. -/
def single (s : State) : Bool := !s.aon.haltReq && !mirrors s

/-- A command that is a new level of an input pin, which the pin keeps under tvd_por_n (log 48). -/
def pinCommand : Instr → Bool
  | .warmReset _ | .warmResetAssert | .freezeTrigger false _ | .clkStopRequest | .clkStopWithdraw | .fenceInChange _
  | .laneUpRise _ _ | .laneUpFall _ _ => true
  | _ => false

/-- A register access is taken, and its block answers it and its requester may reach it (14 R450, R452). -/
def opens (s : State) (who : Requester) (off : Nat) : Bool := regOpen s && decide (off < 0x100000) && regOk (quiet s) who off

/-- A register access is taken and refused (14 R450 to R452). -/
def closed (s : State) (who : Requester) (off : Nat) : Bool := regOpen s && decide (off < 0x100000) && !regOk (quiet s) who off

/-- The Hub takes the admitted packet `k` of a source, an opcode's, no derivation has to wait, and orders 9 and 10 of 03 R90
refuse nothing. -/
def takes (s : State) (src : Nat) (op : Op) (k : Packet) : Bool :=
  engUp s && packetOf s src op == some k && hubTakes s src && !(derives op && missPending s) &&
  admitScope s src op k.params == none

/-- The state in which a packet of a source runs: it has been taken (03 R94). -/
def taken (s : State) (src : Nat) : State := hubTook (quiet s) src

/-- A BCP_SPDM packet of a mailbox carries a whole message, with SECURED as given, and the Hub may take it (05 R146). -/
def heard (s : State) (src : Nat) (secured : Bool) : Bool :=
  engUp s && (packetOf s src .spdm).any (fun k => !k.more && wbit (pw k.params 0) 0 == secured) && hubTakes s src

/-- Such a message outside a session, or in the session `sid` past FINISH, with the management channel up (05 R137, R149). -/
def asks (s : State) (src : Nat) (sid : Option Nat) : Bool :=
  heard s src sid.isSome && match sid with
  | some n => channelUp s && finished s (.mbox src) n
  | none => true

/-- The state in which such a message is handled: its packet has been taken, and its session is in hub RAM (05 R150). -/
def joined (s : State) (src : Nat) : Option Nat → State
  | some n => loadSession (taken s src) n
  | none => taken s src

/-- The state `t` that the handling left, with the response given; a message of a session leaves it used (05 R151). -/
def said (s : State) (src : Nat) (sid : Option Nat) (t : State) (r : SpdmRsp) : State :=
  finish s (spdmSay (match sid with
    | some n => markUsed t (.mbox src) n
    | none => t) (.mbox src) r)

/-- The one frame at hand is a domain control message of a code, for this block's domain, of a generation, with a body of `len`
bytes, and the firmware takes it (05 R170). -/
def ctlIn (s : State) (f : InFrame) (code gen len : Nat) : Bool :=
  engUp s && fwActs s && decide (s.fab.inbox = [f]) && f.hdr.op == opMgmt && !f.hdr.mbxs && isCtl f && leAt f.payload 0 1 == code &&
  leAt f.payload 4 8 == domainId s && s.dom.policy.isSome && leAt f.payload 12 4 == gen && f.payload.length == 16 + len

/-- The state after that message has left the inbox. -/
def ctlOut (s : State) : State := { quiet s with fab := { s.fab with inbox := [] } }

/-- The heads that may be tried, in their turn (11 R360). -/
def turns (s : State) : List Cand := (candidates s).insertionSort (fun a b => candRank s a ≤ candRank s b)

/-- A descriptor of an opcode may be tried: it stands at its queue's head, nothing holds it back, it is its turn, and the
dispatcher runs (11 R353, R360). -/
def tries (s : State) (d : Nat) (x : Desc) (op : Nat) : Bool :=
  engUp s && descAt s d == some x && x.opcode == op && startable s d x && dispatchUp s && (turns s).head?.any (·.desc == d)

/-- Such a descriptor that has not waited yet and passes the common checks (11 R364). -/
def starts (s : State) (d : Nat) (x : Desc) (op : Nat) : Bool :=
  tries s d x op && !x.checked && (headCheck s ((ctxPart s x.ctx).getD 0) op x.raw).isNone

/-- What a halted block holds: no key, no chord, no context of a stream, no pinned line, no region, no membership and no lane
in service, and it is not ready (12 R400). -/
def zeroed (s : State) : Prop :=
  s.aon.haltReq = true → s.keys = KeyStore.reset ∧ s.links.chord = [] ∧ s.links.egress = [] ∧ s.links.ingress = [] ∧
    s.fab.hot = [] ∧ s.mem.region = [] ∧ s.mem.cc = [] ∧ s.red.stages = [] ∧ s.dom = Domain.reset ∧ s.aon.ready = false ∧
    ∀ p ∈ s.links.lane, p.2.started = false ∧ p.2.inService = false

/-- A latch that has risen stays up: tvd_halt_req and the test root (02 R51, R55). -/
def latched (s t : State) : Prop :=
  (s.aon.haltReq = true → t.aon.haltReq = true) ∧ (s.aon.testRoot = true → t.aon.testRoot = true)

/-- The ranges of an ingress context rise, are not empty, start above LOW and do not touch (06 R204). -/
def rangesOk : List (Nat × Nat) → Bool
  | [] => true
  | (a, n) :: t => decide (0 < a) && decide (0 < n) && (match t with
      | [] => true
      | (b, _) :: _ => decide (a + n < b)) && rangesOk t

/-- A sequence has been delivered, or lies below what a GAP has closed (06 R204, R205). -/
def seen (c : Ingress) (n : Nat) : Prop := n < c.low ∨ inRanges c.ranges (n - c.low) = true

end Sys2Proof.Machine
end

