-- ==== Sys2Proof/WellFormed.lean ====
section
/-! DEFINITION. Which operands a command can carry: the widths of the ports and fields that bring them, and the numbers that
exist in the largest size. A meaning is total all the same, and a number that the sampled size lacks finds nothing. -/

namespace Sys2Proof

/-- tvd_reg_req_pasid has 20 bits (02 R44). -/
def Requester.wf (w : Requester) : Bool := decide (w.pasid < 2 ^ 20)

/-- A lane clock is that of one of 8 ports (00 R4). -/
def Clk.wf : Clk → Bool
  | .lane n => decide (n < 8)
  | _ => true

/-- A connection is a mailbox source, 0 to 17, or a vertex of 16 bits (03 R81; 06 R182). -/
def Conn.wf : Conn → Bool
  | .mbox src => decide (src < 18)
  | .peer v => decide (v < 2 ^ 16)

/-- Stream and key fields of IDE_KM (05 R155). -/
def IdeKey.wf (k : IdeKey) : Bool := decide (k.stream < 256) && decide (k.dir < 2) && decide (k.sub < 8) && decide (k.set < 2)

/-- A target request: the widths of its signals, and beats of 128 bytes with their byte enables (02 R38). -/
def CsTarget.wf (r : CsTarget) : Bool :=
  decide (r.tid < 4096) && decide (r.op < 4) && decide (r.aop < 16) && decide (r.addr < 2 ^ 64) && decide (r.kid < 4096) &&
  decide (r.pasid < 2 ^ 20) && decide (1 ≤ r.beats) && decide (r.beats ≤ 32) &&
  r.data.length == r.beats * 128 && r.be.length == r.beats * 128

/-- Measured clocks and power as their reply words hold them (11 R379). -/
def Meas.wf (m : Meas) : Bool :=
  decide (m.engKHz < 2 ^ 32) && decide (m.csKHz < 2 ^ 32) && decide (m.hubKHz < 2 ^ 32) && decide (m.regKHz < 2 ^ 32) &&
  decide (m.powerMw < 2 ^ 32) && decide (m.power10 < 2 ^ 32) && decide (m.limitMw < 2 ^ 32)

/-- BODY_DIGEST has 64 bytes, and a root digest the form of LICENSEE_ROOT_DIGEST: 48 bytes, then 16 zero bytes (05 R142, R154,
R161). -/
def PeerShown.wf (p : PeerShown) : Bool :=
  decide (p.ipVersion < 2 ^ 32) && decide (p.svn < 2 ^ 16) && p.digest.length == 64 && p.root.length == 64

/-- Records of 64 bytes, whose index has 26 bits (02 R48). -/
def flashOk (f : Flash) : Bool := f.all (fun p => decide (p.1 < 2 ^ 26) && p.2.length == 64)

/-- What boot finds: a write that fails is one of a transition's. -/
def BootEnv.wf (e : BootEnv) : Bool := flashOk e.flash && e.failAt.all (fun k => decide (k < 128))

/-- What the firmware start finds: a digest of 48 bytes. -/
def StartEnv.wf (e : StartEnv) : Bool := e.rootDigest.length == 48 && flashOk e.flash && e.failAt.all (fun k => decide (k < 128))

/-- A part the repair map can name (12 R404). -/
def Part.wf : Part → Bool
  | .aes port _ pipe => decide (port < 8) && decide (pipe < 36)
  | .adder port lane => decide (port < 8) && decide (lane < 576)
  | .msPipe n => decide (n < 160)
  | .sramRow mac row => decide (mac < 1024) && decide (row < 1024)
  | .sramCol mac col => decide (mac < 1024) && decide (col < 1024)
  | .core c => decide (c < 3)

/-- What a self-test finds names parts that exist (12 R407). -/
def SelfFails.wf (f : SelfFails) : Bool := f.cores.all (fun c => decide (c < 3)) && f.parts.all Part.wf

/-- An SRAM word that exists (12 R389). -/
def Sram.wf : Sram → Bool
  | .replay port lane fseq => decide (port < 8) && decide (lane < 8) && decide (fseq < 4096)
  | .hotLine kid _ => decide (kid < 4096)
  | .counter kid _ _ => decide (kid < 4096)
  | .keySlot n => decide (n < 2048)
  | _ => true

/-- A mirror record names entries that exist (12 R409). -/
def Mirror.wf : Mirror → Bool
  | .key n _ => decide (n < 2048)
  | .handover c => decide (c < 16)
  | .tag t _ => decide (t < 2 ^ 18)
  | .stored ts => ts.all (fun t => decide (t < 2 ^ 18))
  | .retired ts => ts.all (fun t => decide (t < 2 ^ 18))
  | .node kid _ _ _ => decide (kid < 4096)
  | .root kid _ => decide (kid < 4096)
  | .hot kid _ _ => decide (kid < 4096)
  | .region kid _ => decide (kid < 4096)
  | .part p _ => decide (p < 16)
  | .ctx c _ => decide (c < 4096)
  | .pgd p g data => decide (p < 16) && decide (g < 4096) && data.length == 128
  | _ => true

/-- An aligned offset of the register window, or of the debug space above it (14 R445; 13 R442; log 27). -/
def offOk (off : Nat) : Bool := off % 4 == 0 && decide (off < 0x110000)

/-- The operands of a command fit the ports and fields that bring them. -/
def Instr.wf : Instr → Bool
  | .coldReset _ _ _ env => env.wf
  | .bootImageCheck a b img _ => decide (a.length ≤ 64) && decide (b.length ≤ 64) && flashOk img
  | .firmwareStart env => env.wf
  | .warmReset env => env.wf
  | .clkStopRequest => true
  | .clkStopAck => true
  | .clkStopWithdraw => true
  | .clkStopQuiesceTimeout => true
  | .freezeTrigger _ _ => true
  | .scanEnable => true
  | .clockFault clk _ => clk.wf
  | .laneUpFall port lane => decide (port < 8) && decide (lane < 8)
  | .laneUpRise port lane => decide (port < 8) && decide (lane < 8)
  | .laneStart port lane => decide (port < 8) && decide (lane < 8)
  | .initSendTimer port lane => decide (port < 8) && decide (lane < 8)
  | .initTimeout port lane => decide (port < 8) && decide (lane < 8)
  | .flitRx port lane data => decide (port < 8) && decide (lane < 8) && data.length == 256
  | .initRx port lane => decide (port < 8) && decide (lane < 8)
  | .ackRx port lane fseq => decide (port < 8) && decide (lane < 8) && decide (fseq < 4096)
  | .nakRx port lane _ fseq => decide (port < 8) && decide (lane < 8) && decide (fseq < 4096)
  | .replayRx port lane fseq => decide (port < 8) && decide (lane < 8) && decide (fseq < 4096)
  | .nakBusyWaitEnd port lane => decide (port < 8) && decide (lane < 8)
  | .ackTimer port lane => decide (port < 8) && decide (lane < 8)
  | .hopReplayTimeout port lane => decide (port < 8) && decide (lane < 8)
  | .frameRx port lane => decide (port < 8) && decide (lane < 8)
  | .gapRx port lane => decide (port < 8) && decide (lane < 8)
  | .bootFrameRx port lane _ sid => decide (port < 8) && decide (lane < 8) && sid.all (fun i => decide (i < 2 ^ 32))
  | .combinedRx port lane => decide (port < 8) && decide (lane < 8)
  | .chordMissFill key => decide (key < 2 ^ 18)
  | .streamContextMissFill key _ => decide (key < 2 ^ 33)
  | .csTargetRequest port req => decide (port < 16) && req.wf
  | .parkRelease part => decide (part < 16)
  | .targetResponse port tid => decide (port < 16) && decide (tid < 4096)
  | .frameEgressSeal _ => true
  | .retxRecordWriteDone tag _ => decide (tag < 2 ^ 18)
  | .homeRequest => true
  | .rspRx => true
  | .eackRx => true
  | .eackFlush peer tc => decide (peer < 2 ^ 16) && decide (tc < 8)
  | .ackStreamGap peer tc => decide (peer < 2 ^ 16) && decide (tc < 8)
  | .e2eTimerExpiry tag => decide (tag < 2 ^ 18)
  | .streamGapSend key => decide (key < 2 ^ 33)
  | .initiatorResponse _ _ _ _ _ => true
  | .hotlineIdleWriteback kid line => decide (kid < 4096) && decide (line < 2 ^ 64)
  | .mdataRx => true
  | .mdoneRx => true
  | .counterCacheFill _ _ => true
  | .pageReencryptDone _ => true
  | .resealSweep kid => decide (kid < 4096)
  | .regionKeyMiss kid => decide (kid < 4096)
  | .orphanSweep => true
  | .entropyHealthFail => true
  | .hubLockstepMismatch => true
  | .hubSelftestDone fails => fails.all (fun c => decide (c < 3))
  | .heartbeatTimeout => true
  | .mbxInData m _ who => decide (m < 17) && who.wf
  | .mbxClear m who => decide (m < 17) && who.wf
  | .mbxOutDataRead m who => decide (m < 17) && who.wf
  | .mbxDone m who => decide (m < 17) && who.wf
  | .mbxStreamPacket => true
  | .backgroundCommandDone src => decide (src < 18)
  | .bcpGetInfo src => decide (src < 18)
  | .bcpQuery src meas => decide (src < 18) && meas.wf
  | .bcpDebugAuth src _ => decide (src < 18)
  | .bcpKeyDerive src => decide (src < 18)
  | .bcpKeyInvalidate src => decide (src < 18)
  | .bcpKeyInfo src => decide (src < 18)
  | .bcpSpdm src _ sid => decide (src < 18) && sid.all (fun i => decide (i < 2 ^ 32))
  | .bcpDomainEnrol src _ => decide (src < 18)
  | .bcpDomainRekey src => decide (src < 18)
  | .bcpChordRekey src => decide (src < 18)
  | .bcpRegionCreate src => decide (src < 18)
  | .bcpRegionDestroy src => decide (src < 18)
  | .bcpRegionRekey src => decide (src < 18)
  | .bcpPgdWrite src => decide (src < 18)
  | .bcpPgdRead src => decide (src < 18)
  | .bcpPartitionCreate src => decide (src < 18)
  | .bcpPartitionDestroy src => decide (src < 18)
  | .bcpContextTeardown src => decide (src < 18)
  | .bcpContextReset src => decide (src < 18)
  | .bcpMigLogStart src => decide (src < 18)
  | .bcpMigFreeze src => decide (src < 18)
  | .bcpMigSave src => decide (src < 18)
  | .bcpMigRestore src => decide (src < 18)
  | .bcpPmuConfig src => decide (src < 18)
  | .bcpDumpArm src => decide (src < 18)
  | .bcpWatchSet src => decide (src < 18)
  | .bcpRepairStatus src => decide (src < 18)
  | .bcpSelftest src fails => decide (src < 18) && fails.wf
  | .bcpFwStage src _ => decide (src < 18)
  | .bcpTandemFailover src => decide (src < 18)
  | .storeResponse _ _ => true
  | .keyPortAck status => decide (status < 16)
  | .keyPortTimeout => true
  | .spdmKeyExchange conn _ _ => conn.wf
  | .spdmEndSession conn sid _ => conn.wf && decide (sid < 2 ^ 32)
  | .hybKem conn sid _ _ _ => conn.wf && decide (sid < 2 ^ 32)
  | .hybSign conn sid _ peer => conn.wf && decide (sid < 2 ^ 32) && peer.wf
  | .hybChain conn sid => conn.wf && sid.all (fun i => decide (i < 2 ^ 32))
  | .hybSetChain src sid _ => decide (src < 18) && sid.all (fun i => decide (i < 2 ^ 32))
  | .hybGetKey conn sid => conn.wf && sid.all (fun i => decide (i < 2 ^ 32))
  | .spdmGetCsr conn sid => conn.wf && sid.all (fun i => decide (i < 2 ^ 32))
  | .spdmSetCertificate src sid _ => decide (src < 18) && sid.all (fun i => decide (i < 2 ^ 32))
  | .spdmGetMeasurements conn sid index _ => conn.wf && sid.all (fun i => decide (i < 2 ^ 32)) && decide (index < 256)
  | .domainJoin sid _ => decide (sid < 2 ^ 32)
  | .enrolSessionTimeout => true
  | .enrolSessionRetry => true
  | .enrolledRx => true
  | .commitRx => true
  | .rekeyDistRx => true
  | .distAckRx => true
  | .switchRx => true
  | .switchAckRx => true
  | .drainedRx => true
  | .retireRx => true
  | .rekeyDrainDone => true
  | .rekeyRetireTimeout => true
  | .rekeyChildTimeout vertex => decide (vertex < 2 ^ 16)
  | .rekeySwitchTimeout => true
  | .chordAdvanceRx => true
  | .chordRekeyWindowEnd => true
  | .ideKmQuery sid port => decide (sid < 2 ^ 32) && decide (port < 256)
  | .ideKmKeyProg sid port key _ iv => decide (sid < 2 ^ 32) && decide (port < 256) && key.wf && decide (iv < 2 ^ 64)
  | .ideKmKSetGo sid port key => decide (sid < 2 ^ 32) && decide (port < 256) && key.wf
  | .ideKmKSetStop sid port key => decide (sid < 2 ^ 32) && decide (port < 256) && key.wf
  | .tdispLockInterface tdi sid => decide (tdi.part < 16) && decide (tdi.rid < 2 ^ 16) && sid.all (fun i => decide (i < 2 ^ 32))
  | .tdispStartInterface tdi sid => decide (tdi.part < 16) && decide (tdi.rid < 2 ^ 16) && sid.all (fun i => decide (i < 2 ^ 32))
  | .tdispStopInterface tdi sid => decide (tdi.part < 16) && decide (tdi.rid < 2 ^ 16) && sid.all (fun i => decide (i < 2 ^ 32))
  | .tdispGetInterfaceReport tdi sid => decide (tdi.part < 16) && decide (tdi.rid < 2 ^ 16) && sid.all (fun i => decide (i < 2 ^ 32))
  | .tdispErrorEntry part => decide (part < 16)
  | .pipelineRotation port _ _ => decide (port < 8)
  | .adderRotation port fails => decide (port < 8) && fails.all (fun l => decide (l < 576))
  | .memsealPipeRotation _ => true
  | .creditTick => true
  | .descriptorFetch ctx queue _ _ => decide (ctx < 4096) && decide (queue < 256)
  | .descriptorStart _ => true
  | .completionRecord _ _ => true
  | .wdCopyAsync _ => true
  | .copyChunkSend eng => decide (eng < 64)
  | .wdReduce _ => true
  | .wdUpdate _ _ => true
  | .wdPublish _ => true
  | .wdInvalidate _ => true
  | .wdFence _ => true
  | .wdSignal _ => true
  | .wdWait _ => true
  | .waitPoll _ _ value => decide (value < 2 ^ 64)
  | .waitTimeout _ => true
  | .wdDumpMark _ => true
  | .wdAbort _ => true
  | .sharedSignalAbandon _ => true
  | .reduceStartRx => true
  | .reduceReadyRx => true
  | .reduceBusyRx => true
  | .reduceStartRetry _ => true
  | .reduceAbortRx => true
  | .reduceDataRx => true
  | .chunkRun _ _ _ => true
  | .reduceStageComplete _ => true
  | .reduceIdleTimeout _ => true
  | .fuseBind _ => true
  | .fuseBindTimeout _ => true
  | .updateTile _ _ _ => true
  | .updateComplete _ => true
  | .cadenceFlush => true
  | .cxCreate slot who _ => decide (slot < 64) && who.wf
  | .cxLoad slot ctx who _ => decide (slot < 64) && decide (ctx < 4096) && who.wf
  | .cxUnload slot who _ => decide (slot < 64) && who.wf
  | .cxDoorbell slot _ who => decide (slot < 64) && who.wf
  | .cxQcfgWrite slot _ who => decide (slot < 64) && who.wf
  | .cxOwnKidWrite slot idx _ who => decide (slot < 64) && decide (idx < 16) && who.wf
  | .ptWinCommit part who => decide (part < 16) && who.wf
  | .ptReset part who => decide (part < 16) && who.wf
  | .partitionDrainDone part => decide (part < 16)
  | .migFreezeTimeout part => decide (part < 16)
  | .dirtyPageLog part => decide (part < 16)
  | .almPop who => who.wf
  | .almHalt who => who.wf
  | .watchdogExpiry unit => decide (unit < 256)
  | .rstL1 unit fails => decide (unit < 256) && fails.all Part.wf
  | .rstL2 t => decide (t.port < 8) && t.fails.all Part.wf
  | .rstPortReturn port who fails => decide (port < 8) && who.wf && fails.all Part.wf
  | .portAutoReturn port => decide (port < 8)
  | .rstL3 env => env.wf
  | .resetDeadlineMiss => true
  | .resetLevelEnd => true
  | .sramUncorrectable m => m.wf
  | .tdSyncStart who => who.wf
  | .tandemSynced => true
  | .mirrorHeartbeat => true
  | .mirrorRecordRx r => r.wf
  | .handoverRx cause => decide (cause < 16)
  | .standbyMirrorSilence => true
  | .standbyTakeoverGiveup => true
  | .ownerMirrorSilence => true
  | .takeover => true
  | .fenceInChange _ => true
  | .compareMismatch => true
  | .compareKatDone _ _ => true
  | .coarsenTick => true
  | .tsAdjGo who => who.wf
  | .dumpFrameRx => true
  | .dbgRingEnable _ who => who.wf
  | .dpInvasiveWrite _ => true
  | .dpScanAuthWrite _ => true
  | .dpHubHalt => true
  | .hubBreakpoint n => decide (n < 12)
  | .hubDrainDone _ => true
  | .dpHubResume => true
  | .dpRamDataAccess _ => true
  | .lcTransitionGo _ _ who => who.wf
  | .otpRead who => who.wf
  | .otpProgram who => who.wf
  | .otpWriteDone _ => true
  | .lpUnfence port _ who => decide (port < 8) && who.wf
  | .lpCtrlWrite port _ who => decide (port < 8) && who.wf
  | .msWearSelWrite _ who => who.wf
  | .rcCounterRead off who => offOk off && who.wf
  | .loCaptureRead off who => offOk off && who.wf
  | .registerWrite off _ who => offOk off && who.wf
  | .mbxGo m who => decide (m < 17) && who.wf
  | .warmResetAssert => true
  | .clockReturnInRange clk => clk.wf
  | .entropyStartupPass => true
  | .identityLineTimeout src => decide (src < 18)

end Sys2Proof
end

