-- ==== Sys2Proof/Certificates/Slice0/Obligations.lean ====
section
/-! DEFINITION. What is stated of the model. `quiet s` is `s` with the outputs of the command before gone; `finish s u` is the
effect `u` of a command followed by what completes of itself (`Machine/Settle.lean`), and `Obligations.FinishCalm` says when
that is nothing. -/

open Sys2Proof Sys2Proof.Machine

/-! The machine as a whole. -/

/-- A step runs the command at the front of the queue, with the queue's rest. -/
def Obligations.StepRunsFront : Prop :=
  ∀ (c : Instr) (s : State), step { s with pending := c :: s.pending } = exec c s

/-- On an empty queue a cycle of tvd_aon_clk passes while tvd_por_n is high: the timestamp counts 10 ns (13 R431). While it is low nothing
changes. Nothing is presented. The model's choice (log 13). -/
def Obligations.IdleStep : Prop :=
  ∀ s : State, s.pending = [] → ∃ t, step s = .next t ∧ t.out = [] ∧ t.pending = [] ∧
    (s.aon.porN = false → t = quiet s) ∧
    (s.aon.porN = true → t.aon.ts = (s.aon.ts + 10) % 2 ^ 64 ∧ t.keys = s.keys ∧ t.links = s.links ∧ t.mem = s.mem ∧
      t.fab = s.fab ∧ t.parts = s.parts ∧ t.dom = s.dom ∧ t.otp = s.otp ∧ t.hub = s.hub ∧ t.aon.stage = s.aon.stage ∧
      t.aon.alarms = s.aon.alarms)

/-- The state right after reset: tvd_por_n is low, boot stands at stage 0x0, no output is active, no key slot is filled and no object
exists (02 R53, R61, R62); LP_CTRL, FT_E2E_TIMEOUT, ALM_CTRL and ERR_WDOG_TIMEOUT read their reset values (06 R215; 07 R255; 12 R419). -/
def Obligations.ResetState : Prop :=
  State.reset.pending = [] ∧ State.reset.out = [] ∧ State.reset.aon.porN = false ∧ State.reset.aon.stage = 0 ∧
  State.reset.aon.ready = false ∧ State.reset.aon.haltReq = false ∧ State.reset.aon.testRoot = false ∧
  State.reset.aon.alarms = [] ∧ State.reset.aon.ts = 0 ∧ State.reset.keys.slots = [] ∧ State.reset.dom.member = false ∧
  State.reset.parts.part = [] ∧ State.reset.parts.ctx = [] ∧ State.reset.mem.region = [] ∧ State.reset.links.lane = [] ∧
  State.reset.fab.tags = [] ∧ State.reset.red.stages = [] ∧ State.reset.upd.runs = [] ∧ zeroed State.reset ∧
  reg State.reset 0x10000 = 0xFF#32 ∧ reg State.reset 0x1A00C = 0x4E20#32 ∧ reg State.reset 0x5004 = 0x10#32 ∧
  reg State.reset 0x5040 = 0xC350#32

/-- Every command is answered with a next state in every state: the spec leaves no command without an effect. None takes another out of the
queue of waiting commands, or puts one in. -/
def Obligations.EveryCommandAnswers : Prop := ∀ (c : Instr) (s : State), ∃ t, exec c s = .next t ∧ t.pending = s.pending

/-- tvd_halt_req, once risen, falls with tvd_por_n alone, and so does the latched test root (02 R51, R55): every step but a fall of
tvd_por_n keeps both. -/
def Obligations.LatchesHold : Prop :=
  ∀ (c : Instr) (s t : State), exec c s = .next t →
    (∀ a b env, c ≠ .coldReset false a b env) → latched s t

/-- A halted block holds no key, Chord, stream context, pinned line, region or membership, keeps no lane in service and is not ready (12
R400): every step keeps this, from every state that has it. -/
def Obligations.HaltedHoldsNothing : Prop := ∀ s t : State, zeroed s → step s = .next t → zeroed t

/-- While tvd_por_n is low, every command but its own rise and fall leaves the block as it is (02 R61), and presents nothing; the pins
that keep a level of their own, tvd_rst_n, tvd_freeze, tvd_clk_stop_req, the fence input and tvd_lp_lane_up, take it, and nothing else
changes (log 48). -/
def Obligations.PorHoldsAll : Prop :=
  ∀ s : State, s.aon.porN = false →
    (∀ c : Instr, pinCommand c = false → (∀ r a b env, c ≠ .coldReset r a b env) → exec c s = .next (quiet s)) ∧
    (∀ env, exec (.warmReset env) s = .next { quiet s with aon := { s.aon with rstN := true } }) ∧
    exec .warmResetAssert s = .next { quiet s with aon := { s.aon with rstN := false } } ∧
    (∀ b, exec (.freezeTrigger false b) s = .next { quiet s with aon := { s.aon with freezePin := b } }) ∧
    exec .clkStopRequest s = .next { quiet s with aon := { s.aon with clkReq := true } } ∧
    exec .clkStopWithdraw s = .next { quiet s with aon := { s.aon with clkReq := false } } ∧
    (∀ b, exec (.fenceInChange b) s = .next { quiet s with td := { s.td with fenceIn := b } }) ∧
    ∀ port lane, laneOk s port lane = true → let k := laneNo port lane
      exec (.laneUpRise port lane) s = .next (setLane (quiet s) k { laneAt s k with up := true }) ∧
      exec (.laneUpFall port lane) s = .next (setLane (quiet s) k { laneAt s k with up := false })

/-- Where nothing waits to complete of itself, the block is not halted and no standby listens, nothing follows a command's effect. -/
def Obligations.FinishCalm : Prop :=
  ∀ s t : State, calm t = true → single s = true → single t = true → t.pending = s.pending → t.aon.testRoot = s.aon.testRoot →
    finish s t = t

/-! Resets, boot and clocks. -/

/-- COLD_RESET (02 R61, R62, R65; 04 R132). The fall aborts every domain, lowers the latches, and, with no fuse write under way, keeps the
fuses. The rise samples the straps; with tvd_rst_n high and no transition pending boot runs to stage 0x4, with the life-cycle state that OTP
holds and the field map that the store holds, and with tvd_rst_n low it waits at stage 0x1. A rise while tvd_por_n is high is no event.
WARM_RESET_ASSERT and WARM_RESET (02 R61, R64; 14 R457): with tvd_por_n high a fall of tvd_rst_n clears keys, domain, partitions, contexts,
tags, regions, Chords and mailboxes and keeps fuses, life-cycle state, alarm records, timestamp and latches. Its rise, without a pending
transition, runs boot to stage 0x4 with no key slot filled; with tvd_rst_n high already it is no event. -/
def Obligations.Resets : Prop :=
  (∀ (s : State) (a b : Bool) (env : BootEnv),
    (∃ t, exec (.coldReset false a b env) s = .next t ∧
      t.aon = { Aon.reset with rstN := s.aon.rstN, freezePin := s.aon.freezePin, clkReq := s.aon.clkReq } ∧
      t.keys = KeyStore.reset ∧ t.dom = Domain.reset ∧ t.links.chord = [] ∧ t.links.egress = [] ∧ t.mem.region = [] ∧
      t.parts.part = [] ∧ t.parts.ctx = [] ∧ t.fab.tags = [] ∧ t.win = [] ∧ t.out = [] ∧
      (s.otp.busy = none → t.otp.fuse = s.otp.fuse)) ∧
    (s.aon.porN = true → exec (.coldReset true a b env) s = .next (quiet s)) ∧
    (s.aon.porN = false → ∃ t, exec (.coldReset true a b env) s = .next t ∧ t.aon.porN = true ∧
      t.tandemEn = (a && s.size == Size.tvd64) ∧ t.tandemId = (b && t.tandemEn) ∧
      (s.aon.rstN = false → t.aon.stage = 1 ∧ t.otp.lc = (lcScan s).1) ∧
      (s.aon.rstN = true → (lcScan s).2 = none → t.aon.stage = 4 ∧ t.otp.lc = (lcScan s).1 ∧
        t.ladder.field = (fieldRead { s with otp := { s.otp with lc := (lcScan s).1 } } env.flash).take fieldCap))) ∧
  (∀ s : State, s.aon.porN = true →
    (∃ t, exec .warmResetAssert s = .next t ∧ t.aon.rstN = false ∧ t.aon.stage = 0 ∧ t.aon.ready = false ∧
      t.keys = KeyStore.reset ∧ t.dom = Domain.reset ∧ t.parts.part = [] ∧ t.parts.ctx = [] ∧ t.fab.tags = [] ∧
      t.mem.region = [] ∧ t.links.chord = [] ∧ t.hub.mbox = [] ∧ t.otp.fuse = s.otp.fuse ∧ t.otp.lc = s.otp.lc ∧
      t.aon.alarms = s.aon.alarms ∧ t.aon.ts = s.aon.ts ∧ t.aon.haltReq = s.aon.haltReq ∧ t.aon.testRoot = s.aon.testRoot) ∧
    (∀ env : BootEnv, s.aon.rstN = false → (lcScan s).2 = none → ∃ t, exec (.warmReset env) s = .next t ∧
      t.aon.rstN = true ∧ t.aon.stage = 4 ∧ t.aon.ready = false ∧ t.keys.slots = [] ∧ t.dom = Domain.reset ∧
      t.otp.fuse = s.otp.fuse ∧ t.aon.alarms = s.aon.alarms ∧
      t.ladder.field = (fieldRead { s with keys := KeyStore.reset } env.flash).take fieldCap) ∧
    (∀ env : BootEnv, s.aon.rstN = true → exec (.warmReset env) s = .next (finish s (quiet s))))

/-- BOOT_IMAGE_CHECK (03 R74, R76; 15 R462): at stage 0x4, in a state in which firmware runs, an image that is read, as the pointer or, with
no pointer that opens, the factory form directs, and that passes the checks leads to stage 0x5 with its SVN and digest; an image that is not
read, that fails its checks, or that has factory form in a state other than TEST_UNLOCKED and MANUF leads to stage 0xF. At another stage,
and in a state without firmware, nothing happens. FIRMWARE_START (03 R77; 04 R110; 05 R157; 15 R462): at stage 0x5, where a root bank is
found or generated, boot reaches stage 0x6; tvd_ready rises unless the data path must stay stopped, no IDE key of before is left and no
factory image waits; without a root boot fails; at another stage nothing happens. -/
def Obligations.Boot : Prop :=
  (∀ (s : State) (a b : Bytes) (img : Flash) (v : FwVerdict), engUp s = true →
    let f : Flash := (0, a) :: (1, b) :: img
    let p := pickPtr s f
    (s.aon.stage = 4 → fwRuns s.otp.lc = true → ∃ u, exec (.bootImageCheck a b img v) s = .next (finish s u) ∧ u.hub.ptr = p ∧
      (∀ raw, readImage s f p = some raw → (p.isSome || factoryOk s.otp.lc) = true → imageOk s (imageOf raw) v = true →
        u.aon.stage = 5 ∧ u.hub.svn = (imageOf raw).svn ∧ u.hub.digest = (imageOf raw).bodyDigest ∧
        u.hub.slot = (p.map (·.1)).getD 0 ∧ u.hub.factory = p.isNone ∧ u.hub.image = (if p.isNone then raw else []) ∧
        u.aon.alarms = s.aon.alarms ∧ u.aon.haltReq = s.aon.haltReq ∧ u.otp = s.otp ∧ u.keys.slots = s.keys.slots ∧ u.dom = s.dom) ∧
      (readImage s f p = none ∨ (p.isSome || factoryOk s.otp.lc) = false ∨
        (∃ raw, readImage s f p = some raw ∧ imageOk s (imageOf raw) v = false) → u.aon.stage = 15)) ∧
    (s.aon.stage ≠ 4 ∨ fwRuns s.otp.lc = false → exec (.bootImageCheck a b img v) s = .next (finish s (quiet s)))) ∧
  (∀ (s : State) (env : StartEnv), engUp s = true →
    (s.aon.stage = 5 → (selectRoot (quiet s) env).2 = true → ∃ u, exec (.firmwareStart env) s = .next (finish s u) ∧ u.aon.stage = 6 ∧
      u.aon.ready = !u.aon.dataStopped ∧ u.ident.ide = [] ∧ u.hub.image = []) ∧
    (s.aon.stage = 5 → (selectRoot (quiet s) env).2 = false → ∃ u, exec (.firmwareStart env) s = .next (finish s u) ∧ u.aon.stage = 15) ∧
    (s.aon.stage ≠ 5 → exec (.firmwareStart env) s = .next (finish s (quiet s))))

/-- CLK_STOP_REQUEST, CLK_STOP_ACK, CLK_STOP_WITHDRAW and CLK_STOP_QUIESCE_TIMEOUT (02 R66, R67; 13 R432). A request quiesces an idle block
that is not halted, and takes every lane out of service; the grant comes once no access of the block and no released frame is outstanding,
and not before; its withdrawal ends the attempt, and after a grant counts the stop; a late quiesce fails the attempt with a CLOCK_STOP
event, placed while the queue has room. CLOCK_FAULT and CLOCK_RETURN_IN_RANGE (02 R57; 12 R388), without a grant for a clock that has
stopped: a clock above its range halts the block with cause 5; the clock of a lane port that is not isolated asks for an L2 of the port; a
stopped clock of an isolated port is only noted; a clock of the engines, the core-side ports, the Hub or the registers is bad until it
returns, and its return asks for an L3; the mirror clock of a pair that holds nothing back ends its synchronisation. -/
def Obligations.Clocks : Prop :=
  (∀ s : State, s.aon.porN = true →
    (s.aon.clkReq = false → s.aon.clkPhase = .idle → s.aon.haltReq = false →
      ∃ u, exec .clkStopRequest s = .next (finish s u) ∧ u.aon = { s.aon with clkReq := true, clkPhase := .quiesce } ∧
        (∀ p ∈ u.links.lane, p.2.started = false ∧ p.2.inService = false ∧ p.2.replay = []) ∧ u.keys = s.keys ∧
        u.mem = s.mem ∧ u.parts = s.parts ∧ u.dom = s.dom ∧ u.links.chord = s.links.chord) ∧
    (s.aon.clkPhase = .quiesce → s.fab.pm = [] → s.fab.inbox = [] → s.aon.haltReq = false →
      exec .clkStopAck s = .next (finish s { quiet s with aon := { s.aon with clkPhase := .acked, stopStart := s.aon.ts } })) ∧
    (s.aon.clkPhase ≠ .quiesce ∨ s.fab.pm ≠ [] ∨ s.fab.inbox ≠ [] → exec .clkStopAck s = .next (finish s (quiet s))) ∧
    (s.aon.clkPhase = .acked →
      exec .clkStopWithdraw s = .next (finish s { quiet s with aon := { s.aon with
        clkReq := false, clkPhase := .idle, stopLen := s.aon.ts - s.aon.stopStart, stopCount := (s.aon.stopCount + 1) % 2 ^ 32
        clkStopped := [], gapAlarm := true, gapDump := true, gapWatch := true } })) ∧
    (s.aon.clkPhase ≠ .acked →
      exec .clkStopWithdraw s = .next (finish s { quiet s with aon := { s.aon with clkReq := false, clkPhase := .idle } })) ∧
    (s.aon.clkPhase = .quiesce → ∃ u, exec .clkStopQuiesceTimeout s = .next (finish s u) ∧ u.aon.clkPhase = .failed ∧
      (s.aon.alarms.length < 256 → u.aon.haltReq = s.aon.haltReq ∧ u.keys = s.keys ∧ u.links = s.links ∧
        ∃ r, u.aon.alarms.getLast? = some r ∧ r.cls = 0x16 ∧ r.unit = 0x1E))) ∧
  (∀ (s : State) (f : ClkFault), s.aon.porN = true → (f = .stopped → s.aon.clkPhase ≠ .acked) →
    (∀ c : Clk, c ≠ .mir ∨ s.tandemEn = true → ∃ u, exec (.clockFault c .above) s = .next (finish s u) ∧ u.aon.haltReq = true ∧
      (s.aon.haltReq = false → s.aon.alarms.length < 256 → u.aon.haltCause = 5)) ∧
    (∀ n, f ≠ .above → portOk s n = true → portIsolated s n = false → s.aon.alarms.length < 256 →
      ∃ u, exec (.clockFault (.lane n) f) s = .next (finish s u) ∧ u.aon.haltReq = s.aon.haltReq ∧
        ∃ q, u.ladder.queue = s.ladder.queue ++ [q] ∧ q.level = 2 ∧ q.port = n ∧ q.cause = 4) ∧
    (∀ n, f = .stopped → portIsolated s n = true → ∃ u, exec (.clockFault (.lane n) f) s = .next (finish s u) ∧
      u.ladder = s.ladder ∧ u.aon.alarms = s.aon.alarms ∧ Clk.lane n ∈ u.aon.clkStopped) ∧
    (∀ c : Clk, c ∈ [Clk.eng, Clk.cs, Clk.hub, Clk.reg] → f ≠ .above → s.aon.alarms.length < 256 →
      ∃ u, exec (.clockFault c f) s = .next (finish s u) ∧ u.aon.clkBad.contains c = true ∧ u.ladder = s.ladder) ∧
    (f ≠ .above → s.tandemEn = true → s.td.held = [] → s.aon.alarms.length < 256 → ∃ u, exec (.clockFault .mir f) s = .next (finish s u) ∧
      u.td.synced = false ∧ u.td.syncing = false ∧ u.ladder = s.ladder) ∧
    (∀ c : Clk, s.aon.clkBad.contains c = false → exec (.clockReturnInRange c) s = .next (finish s { quiet s with aon := { s.aon with
      clkBad := s.aon.clkBad.filter (· != c), clkStopped := s.aon.clkStopped.filter (· != c) } })) ∧
    (∀ c : Clk, s.aon.clkBad.contains c = true → ∃ u, exec (.clockReturnInRange c) s = .next (finish s u) ∧
      u.aon.clkBad.contains c = false ∧ ∃ q, u.ladder.queue = s.ladder.queue ++ [q] ∧ q.level = 3 ∧ q.cause = 4))

/-- FREEZE_TRIGGER (02 R56; 13 R430): counting is frozen while tvd_freeze or PMU_CTRL.FREEZE is 1. SCAN_ENABLE (02 R51): the Chords and the
stream contexts are zeroed and the test root is latched; without DP_SCAN_AUTH.EN it is a SECURITY alarm, placed while the queue has room and
the halt window is not exceeded; with it no alarm is raised. The key store is zeroed. -/
def Obligations.FreezeAndScan : Prop :=
  (∀ (s : State) (on : Bool), s.aon.porN = true →
    exec (.freezeTrigger false on) s = .next (finish s { quiet s with aon := { s.aon with
      freezePin := on, frozen := on || wbit (reg s 0x60000) 0 } }) ∧
    ∃ u, exec (.freezeTrigger true on) s = .next (finish s u) ∧ wbit (reg u 0x60000) 0 = on ∧
      u.aon.frozen = (s.aon.freezePin || on) ∧ (∀ o, o ≠ 0x60000 → reg u o = reg s o)) ∧
  (∀ s : State, s.aon.porN = true → ∃ u, exec .scanEnable s = .next (finish s u) ∧ u.aon.scanEn = true ∧
    u.aon.testRoot = true ∧ u.links.chord = [] ∧ u.links.egress = [] ∧ u.links.ingress = [] ∧
    (s.aon.testRoot = true ∨ (s.otp.lc ≠ .manuf ∧ s.otp.lc ≠ .prod) → u.keys = KeyStore.reset) ∧
    (wbit (dpWord s 8) 0 = true → u.aon.alarms = s.aon.alarms ∧ u.aon.haltReq = s.aon.haltReq) ∧
    (wbit (dpWord s 8) 0 = false → s.aon.alarms.length < 256 → (secWindow s).length < (reg s 0x5004).toNat % 256 →
      ∃ r, u.aon.alarms.getLast? = some r ∧ r.cls = 1))

/-! Lanes and Spokes. -/

/-- LANE_UP_FALL, LANE_UP_RISE, LANE_START, INIT_SEND_TIMER, INIT_TIMEOUT, INIT_RX (06 R197, R198; 02 R37). A lane that has started and
loses its far end is fenced with cause 1, and keeps only its complete frames; it returns, where no isolation holds its port, as the far end
comes back, or is fenced with cause 4 where its LANE_ALLOW bit is 0 (06 R215). A lane that may start sends INIT, sends it again at its
timer, is fenced with cause 3 at its timeout, and is in service, numbered from 0, when INIT arrives. ACK_RX, NAK_RX, REPLAY_RX,
NAK_BUSY_WAIT_END, ACK_TIMER, HOP_REPLAY_TIMEOUT (06 R194 to R196), on a lane in service: an ACK or a NAK frees the buffer up to its flit; a
NAK that is busy makes the sender wait, another is followed by the replay; a REPLAY no higher than E renumbers what follows it; the timers
send ACK of E - 1 and REPLAY from the oldest flit. FLIT_RX (06 R180, R193, R195): on a lane in service that has room a data flit is accepted
as E, and E rises by one, but the rest of a frame that a reset of its unit discarded is not kept; a flit that fails its check is answered
with NAK of E - 1; a lane not started takes nothing. -/
def Obligations.Lanes : Prop :=
  (∀ (s : State) (port lane : Nat), engUp s = true → laneOk s port lane = true →
    let k := laneNo port lane
    let l := laneAt s k
    (l.started = false → exec (.laneUpFall port lane) s = .next (finish s (setLane (quiet s) k { l with up := false }))) ∧
    (l.started = true → l.cause = 0 → ∃ u, exec (.laneUpFall port lane) s = .next (finish s u) ∧
      laneAt u k = { Lane.down with cause := 1, staging := keepWhole 20 l.staging } ∧
      ∀ j, j ≠ k → laneAt u j = laneAt s j) ∧
    (l.cause ≠ 1 ∨ heldIsolated s port = true → exec (.laneUpRise port lane) s = .next (finish s (setLane (quiet s) k { l with up := true }))) ∧
    (l.cause = 1 → heldIsolated s port = false → ∃ u, exec (.laneUpRise port lane) s = .next (finish s u) ∧
      (laneAt u k).up = true ∧ (laneAt u k).cause = if laneAllow s k then 0 else 4) ∧
    ((s.aon.ready && drivesLanes s && clkRuns s && l.up && laneAllow s k && l.cause == 0 && !l.started &&
        !portIsolated s (k / 8) && !isolating s (k / 8)) = true →
      exec (.laneStart port lane) s = .next (finish s (sendCtl (setLane (quiet s) k
        { l with started := true, startAt := s.aon.ts }) k 1 false 0))) ∧
    (l.started = true → l.inService = false →
      exec (.initSendTimer port lane) s = .next (finish s (sendCtl (quiet s) k 1 false 0)) ∧
      (l.cause = 0 → ∃ u, exec (.initTimeout port lane) s = .next (finish s u) ∧
        (s.aon.alarms.length < 256 → (laneAt u k).started = false ∧ (laneAt u k).cause = 3)) ∧
      exec (.initRx port lane) s = .next (finish s (markMoves (setLane (quiet s) k { l with
        inService := true, txSeq := 0, replay := [], replayTimes := [], busyWait := none, e := 0, discard := false, num := none
        unacked := 0, staging := keepWhole 20 l.staging, skip := 0 }) [])))) ∧
  (∀ (s : State) (port lane f : Nat), engUp s = true → laneOk s port lane = true → f < 4096 →
    (laneAt s (laneNo port lane)).inService = true →
    let k := laneNo port lane
    let l := laneAt s k
    (∀ i, repIdx l f = some i → exec (.ackRx port lane f) s = .next (finish s (setLane (quiet s) k { l with
      replay := (l.replay.drop (i + 1)).map (fun x => { x with replays := 0, at_ := s.aon.ts }), busyWait := none }))) ∧
    (repIdx l f = none → exec (.ackRx port lane f) s = .next (finish s (quiet s))) ∧
    (∀ i, repIdx l f = some i → exec (.nakRx port lane true f) s = .next (finish s (setLane (setLane (quiet s) k { l with
      replay := (l.replay.drop (i + 1)).map (fun x => { x with replays := 0, at_ := s.aon.ts }), busyWait := none }) k { l with
      replay := (l.replay.drop (i + 1)).map (fun x => { x with replays := 0, at_ := s.aon.ts })
      busyWait := some ((f + 1) % 4096) }))) ∧
    (∃ u, exec (.nakRx port lane false f) s = .next (finish s u) ∧ u = replayFrom (ackLane (quiet s) k f) k
      ((repIdx (laneAt (ackLane (quiet s) k f) k) ((f + 1) % 4096)).getD 0)) ∧
    (2048 ≤ (f + 4096 - l.e) % 4096 ∨ (f + 4096 - l.e) % 4096 = 0 →
      exec (.replayRx port lane f) s = .next (finish s (setLane (quiet s) k { l with num := some f }))) ∧
    (∀ g, l.busyWait = some g → exec (.nakBusyWaitEnd port lane) s = .next (finish s (replayFrom (quiet s) k ((repIdx l g).getD 0)))) ∧
    (0 < l.unacked → exec (.ackTimer port lane) s = .next (finish s (sendCtl (setLane (quiet s) k { l with unacked := 0 }) k 2 false
      (l.e + 4095)))) ∧
    (l.replay ≠ [] → exec (.hopReplayTimeout port lane) s = .next (finish s (replayFrom (quiet s) k 0)))) ∧
  (∀ (s : State) (port lane : Nat) (d : Bytes), engUp s = true → laneOk s port lane = true →
    let k := laneNo port lane
    let l := laneAt s k
    (l.started = false → exec (.flitRx port lane d) s = .next (finish s (quiet s))) ∧
    (l.started = true → flitClass d = .failed → ∃ u, exec (.flitRx port lane d) s = .next (finish s u) ∧
      (l.inService = true → (laneAt u k).discard = true ∧ (laneAt u k).e = l.e ∧ (laneAt u k).staging = l.staging ∧
        u.out = [.ctl (k / 8) (k % 8) 3 false ((l.e + 4095) % 4096)])) ∧
    (l.started = true → flitClass d = .data → l.inService = true → l.discard = false → l.num = none → l.unacked < 127 →
      l.staging.length < 20 →
      ∃ u, exec (.flitRx port lane d) s = .next (finish s u) ∧ laneAt u k = { l with
        e := (l.e + 1) % 4096, unacked := l.unacked + 1, skip := l.skip - 1
        staging := if l.skip = 0 then l.staging ++ [d.take 252] else l.staging }))

/-! The way in. -/

/-- The window of an ingress context keeps its form, remembers what it delivered, and delivers nothing twice (06 R204, R205). A Spoke
releases a sealed frame only where it is addressed to this block, its source is admitted, its tag verifies under the Chord its CGEN
selects, its sequence is within the window, and it was not delivered before; what it releases is the payload opened under that Chord (06
R206 steps 2 to 8). -/
def Obligations.Reception : Prop :=
  (∀ (c c' : Ingress) (n : Nat) (gap : Bool), rangesOk c.ranges = true → windowPut c n gap = .ok c' →
    rangesOk c'.ranges = true ∧ c'.ranges.length ≤ max 16 c.ranges.length ∧ ¬ seen c n ∧ seen c' n ∧
    (∀ m, seen c m → seen c' m) ∧ (gap = false → ∀ m, seen c' m → seen c m ∨ m = n) ∧ windowPut c' n gap = .dup) ∧
  (∀ (s s' : State) (k : Nat) (h : Hdr) (content : Bytes) (f : InFrame), rxSealed s k h content = (s', some f) →
    ownVertex s h.dst = true ∧ srcAdmitted s h = true ∧ f.hdr = h ∧ f.port = k / 8 ∧
    let c := (tget s.links.ingress (streamKey h.src h.stream h.dgen)).getD Ingress.new
    f.seqN = rebuildSeq c.low h.seqLo ∧ f.seqN < c.low + (if h.op == opGap then 2048 else 1024) ∧
    (∃ c', windowPut c f.seqN (h.op == opGap) = .ok c' ∧ tget s'.links.ingress (streamKey h.src h.stream h.dgen) = some c') ∧
    ∃ ch g, tget s.links.chord (chordKey h.src 1 h.dgen) = some ch ∧ cgenPick ch.gen h.cgen = some g ∧
      let key := if g = ch.gen then ch.key else (deriveChord s h.src true ch.slot g).1
      tagOk key h f.seqN content = true ∧ f.payload = openFrame key h f.seqN content)

/-- FRAME_RX, GAP_RX, BOOT_FRAME_RX, COMBINED_RX (06 R186, R205 to R207; 05 R147, R149; 07 R224, R240, R250; 09 R316): a complete frame of
the row's kind leaves the lane's staging and is counted. A malformed plain frame is a protocol error; one that misses its stream context or
Chord, or whose input of a reduction has no slot, waits in staging; one that passes its checks is released; a GAP that passes is
acknowledged. A BOOT frame waits while the firmware does not act; one that passes is answered where it completes a request, and GET_VERSION
of a vertex that opens a connection is remembered. The records of a COMBINED frame that pass are applied in their order, open atomics as a
group whose responses leave together; a malformed COMBINED frame applies nothing. -/
def Obligations.FrameArrives : Prop :=
  ∀ (s : State) (port lane : Nat) (c : Bytes), engUp s = true → laneOk s port lane = true →
    let k := laneNo port lane
    let h := Hdr.parse (c.take 32)
    let q := quiet s
    (stagedOf s k .plain = some c →
      (hdrOk (c.take 32) = false →
        exec (.frameRx port lane) s = .next (finish s (protoErr (dropStaged (countRx q k c) k) k h.src))) ∧
      (hdrOk (c.take 32) = true → h.smode = 2 → ownVertex s h.dst = true → (moduleTag s h).isSome = true →
        exec (.frameRx port lane) s = .next (finish s (inboxPush (countEv (dropStaged (countRx q k c) k) (0x038 + k / 8) none 1)
          { hdr := h, payload := slice c 32 h.plen, port := k / 8, seqN := 0, comb := none }))) ∧
      (hdrOk (c.take 32) = true → h.smode ≠ 2 → ∀ w, rxMisses q h = (w, true) →
        exec (.frameRx port lane) s = .next (finish s w)) ∧
      (hdrOk (c.take 32) = true → h.smode ≠ 2 → inputHolds s h = true →
        exec (.frameRx port lane) s = .next (finish s (rxMisses q h).1)) ∧
      (hdrOk (c.take 32) = true → h.smode ≠ 2 → inputHolds s h = false → ∀ w r f, rxMisses q h = (w, false) →
        rxSealed (dropStaged (countRx w k c) k) k h c = (r, some f) →
        exec (.frameRx port lane) s = .next (finish s (release r f)))) ∧
    (stagedOf s k .gap = some c → hdrOk (c.take 32) = true → h.plen = 0 → ∀ w r f, rxMisses q h = (w, false) →
      rxSealed (dropStaged (countRx w k c) k) k h c = (r, some f) →
      exec (.gapRx port lane) s = .next (finish s (pushEack r h.src h.tc (ackTag h f.payload) stOk false))) ∧
    (stagedOf s k .boot = some c → ∀ (msg : Option SpdmReq) (sid : Option Nat),
      (fwActs s = false → exec (.bootFrameRx port lane msg sid) s = .next (finish s (quiet s))) ∧
      (fwActs s = true →
        let r := rxBoot q k c msg.isSome (msg == some .getVersion)
        let d := dropStaged (countRx q k c) k
        (msg = none ∨ r.2 = false → exec (.bootFrameRx port lane msg sid) s = .next (finish s r.1)) ∧
        (∀ m, msg = some m → r.2 = true → exec (.bootFrameRx port lane msg sid) s = .next (finish s (peerAnswer r.1 h.src m sid))) ∧
        (∀ m, msg = some m → hdrOk (c.take 32) = true → h.mbxs = false → ownVertex d h.dst = true →
          bootAdmitted d h.src (msg == some .getVersion) = true → tagOk 0 h h.seqLo c = true → r.2 = true ∧
            (m = .getVersion → (d.dom.enrol.any (fun e => e.parent == h.src && !e.committed)) = false → h.src ∈ r.1.dom.opening)))) ∧
    (stagedFrame s k = some c → rxKind (c.take 32) = .combined → s.fab.inbox = [] →
      (hdrOk (c.take 32) = false → ∃ u, exec (.combinedRx port lane) s = .next (finish s u) ∧
        u.fab.inbox = [] ∧ u.fab.homes = s.fab.homes ∧ u.fab.combN = s.fab.combN + 1) ∧
      (∀ r f, rxCombined q k c = (r, [f]) → mirrored r = false → r.fab.inbox = [] →
        let r' := { r with fab := { r.fab with combN := r.fab.combN + 1 } }
        (f.hdr.op = opRsp → exec (.combinedRx port lane) s = .next (finish s (rspRx r' f))) ∧
        (f.hdr.op = opReq → leAt f.payload 4 1 % 16 ≠ kAtomic →
          exec (.combinedRx port lane) s = .next (finish s (homeReq r' f))) ∧
        (f.hdr.op = opReq → leAt f.payload 4 1 % 16 = kAtomic → 128 ≤ leAt f.payload 4 1 →
          exec (.combinedRx port lane) s = .next (finish s (homeReq r' { f with comb := some (r.fab.combN, 0, 1) })))) ∧
      (∀ r f g, rxCombined q k c = (r, [f, g]) → mirrored r = false → r.fab.inbox = [] →
        (∀ x ∈ [f, g], x.hdr.op = opReq ∧ leAt x.payload 4 1 % 16 = kAtomic ∧ 128 ≤ leAt x.payload 4 1) →
        exec (.combinedRx port lane) s = .next (finish s (homeReq
          (homeReq { r with fab := { r.fab with combN := r.fab.combN + 1 } } { f with comb := some (r.fab.combN, 0, 2) })
          { g with comb := some (r.fab.combN, 1, 2) }))))

/-- CHORD_MISS_FILL, STREAM_CONTEXT_MISS_FILL (06 R192, R202; 05 R171, R175; 12 R391). In a cache with room the missing Chord is derived
from the slot of the frame's domain key generation, at generation 1 or at the one it was evicted with; no other Chord changes. A context
comes back and is resident, or, where it cannot be read, the block asks for an L3, with an IO event for a read that failed. -/
def Obligations.MissesFilled : Prop :=
  ∀ (s : State) (key : Nat), engUp s = true →
    (s.links.missC.contains key = true → tget s.links.chord key = none → s.links.chord.length < chordCap →
      ∀ n, chordSlot s (key % 2 == 1) = some n → ∃ u, exec (.chordMissFill key) s = .next (finish s u) ∧
        (∃ c, tget u.links.chord key = some c ∧ (c.gen, c.count) = tgetD s.links.saved key (1, 0) ∧ c.slot = n ∧
          c.slotGen = (slotAt s n).gen) ∧ u.links.missC.contains key = false ∧ (∀ j, j ≠ key → tget u.links.chord j = tget s.links.chord j)) ∧
    (s.links.missS.contains key = true →
      (∃ u, exec (.streamContextMissFill key .ok) s = .next (finish s u) ∧ u.links.missS.contains key = false ∧
        u.links.scLru.getLast? = some key ∧
        (∀ c, key % 2 = 1 → tget s.links.ingress (key / 2) = some c → tget u.links.ingress (key / 2) = some { c with resident := true }) ∧
        (∀ c, key % 2 = 0 → tget s.links.egress (key / 2) = some c → tget u.links.egress (key / 2) = some { c with resident := true })) ∧
      (∃ u, exec (.streamContextMissFill key .poison) s = .next (finish s u) ∧ u.links.missS.contains key = false ∧
        ∃ r, u.ladder.queue = s.ladder.queue ++ [r] ∧ r.level = 3 ∧ r.cause = 0x17) ∧
      (s.aon.alarms.length < 256 → ∃ u, exec (.streamContextMissFill key .err) s = .next (finish s u) ∧
        (∃ r, u.ladder.queue = s.ladder.queue ++ [r] ∧ r.level = 3 ∧ r.cause = 0x17) ∧
        ∃ a, u.aon.alarms.getLast? = some a ∧ a.cls = 0x17 ∧ a.status = stInternal))

/-! The fabric. -/

/-- CS_TARGET_REQUEST, PARK_RELEASE, TARGET_RESPONSE (02 R40, R41; 07 R217 to R221, R229): a request that breaks a rule is refused with its
status; one for a remote vertex leaves as frames, or is parked behind its partition's share; while ready is low nothing is taken. A park
whose one request fits the share again empties into the queue. A response leaves once every segment has come back: the first failing status
with tvd_cs_rsp_err, or success, with the data of a LOAD of several beats. -/
def Obligations.TargetRequests : Prop :=
  ∀ (s : State) (port : Nat), engUp s = true →
    (∀ req : CsTarget, let w := watchSee (quiet s) port req
      let ready := dataUp s && decide (port < csCount s.size) && drivesLanes s && !parkFull s port &&
        decide (s.fab.tags.length < tagTotal s.size)
      (ready = false → exec (.csTargetRequest port req) s = .next (finish s (quiet s))) ∧
      (ready = true → ∀ st, csCheck w port req = .inl st →
        exec (.csTargetRequest port req) s = .next (finish s (csRefuse w port req.tid req.op req.beats st))) ∧
      (ready = true → ∀ p c st, csCheck w port req = .inr (p, c, .refuse st) →
        exec (.csTargetRequest port req) s = .next (finish s (csRefuse w port req.tid req.op req.beats st))) ∧
      (ready = true → ∀ p c d, csCheck w port req = .inr (p, c, .frames d) → ∃ u, exec (.csTargetRequest port req) s = .next (finish s u) ∧
        (∃ r, tget u.fab.reqs (csKey port req.tid) = some r ∧ r.op = req.op ∧ r.beats = req.beats ∧ ∀ x ∈ r.segs, x.status = none) ∧
        let xs := (segsOf (req.op == 1) req.be req.beats 33 0).zipIdx
        let fs := xs.map (fun x => segFrame req port p c (epochOf w c) d x.2 (x.2 + 1 == xs.length) x.1)
        (u.fab.txq = s.fab.txq ++ fs ∧ u.fab.parks = s.fab.parks ∨
          u.fab.txq = s.fab.txq ∧ tgetD u.fab.parks (parkKey port p) [] =
            tgetD s.fab.parks (parkKey port p) [] ++ [{ tid := req.tid, frames := fs }]))) ∧
    (∀ (part : Nat) (x : Parked), part < 16 → s.fab.parks.filter (fun p => p.1 % 16 == part) = [(parkKey port part, [x])] →
      tget s.fab.parks (parkKey port part) = some [x] →
      shareRoom s (part + 1) x.frames.length ((x.frames.map (fun f => flitsOf f.payload.length)).foldl (· + ·) 0) = true →
      ∃ u, exec (.parkRelease part) s = .next (finish s u) ∧ u.fab.txq = s.fab.txq ++ x.frames ∧
        tgetD u.fab.parks (parkKey port part) [] = [] ∧ u.fab.tags = s.fab.tags) ∧
    (∀ (tid : Nat) (r : CsReq), tget s.fab.reqs (csKey port tid) = some r → (∀ x ∈ r.segs, x.status.isSome = true) →
      (∀ st, (r.segs.filterMap (·.status)).find? (· != stOk) = some st →
        ∃ u pm, exec (.targetResponse port tid) s = .next (finish s u) ∧ tget u.fab.reqs (csKey port tid) = none ∧
          u.out = [.csRsp port tid [] (if r.op = 0 then r.beats else 1) true st pm]) ∧
      ((r.segs.filterMap (·.status)).find? (· != stOk) = none → r.op = 1 →
        ∃ u, exec (.targetResponse port tid) s = .next (finish s u) ∧ tget u.fab.reqs (csKey port tid) = none ∧
          u.out = [.csRsp port tid [] 1 false stOk 0]) ∧
      ((r.segs.filterMap (·.status)).find? (· != stOk) = none → r.op = 0 → r.beats ≠ 1 →
        128 * r.beats ≤ (r.segs.flatMap (·.data)).length →
        ∃ u, exec (.targetResponse port tid) s = .next (finish s u) ∧ tget u.fab.reqs (csKey port tid) = none ∧
          u.out = [.csRsp port tid ((r.segs.flatMap (·.data)).take (128 * r.beats)) r.beats false stOk
            (joinPoison (r.segs.map (·.poison)) r.segBeats 0)]))

/-- FRAME_EGRESS_SEAL (06 R190; 07 R227 to R230): the one queued frame, when it may go and no other has a turn, takes the lowest free tag
with the next generation and leaves the queue; the entry stands for it, waiting or sent. RETX_RECORD_WRITE_DONE (07 R231; 12 R391): the
entry notes that its records stand in memory, or that their write failed, with an IO event. E2E_TIMER_EXPIRY (07 R232): after the last retry
the frame gives up; one that waits in STATE 1 counts the expiry. STREAM_GAP_SEND (07 R234): a closing stream of the present parity with no
frame stored sends its GAP. ACK_STREAM_GAP, EACK_FLUSH (07 R224, R226): the GAP of an acknowledgement stream, and the gathered records in
one frame. -/
def Obligations.FramesSent : Prop :=
  (∀ (s : State) (pick t : Nat) (f : TxFrame), engUp s = true → drivesLanes s = true → clkRuns s = true →
    s.fab.txq = [f] → (∀ p ∈ s.fab.tags, p.2.state ≠ 1) → s.fab.combOut = [] → txReady (quiet s) f = .go → isStored f = true → f.comb = none →
    lowestFrom (fun i => (tget s.fab.tags i).isNone) (tagTotal s.size) 0 = some t →
    ∃ u e, exec (.frameEgressSeal pick) s = .next (finish s u) ∧ u.fab.txq = [] ∧ tget u.fab.tags t = some e ∧
      (e.state = 1 ∨ e.state = 2) ∧ e.gen = (tgetD s.fab.tagGen t 0 + 1) % 2 ^ 14 ∧ e.dst = f.dst ∧ e.op = f.op ∧ e.tc = f.tc ∧
      e.stream = txStream f ∧ e.origin = f.origin ∧ e.owner = shareOf s f.owner ∧ e.cover = f.cover ∧ e.sends = 0 ∧
      (∀ i, i ≠ t → tget u.fab.tags i = tget s.fab.tags i)) ∧
  (∀ (s : State) (t : Nat) (e : TagEnt), engUp s = true →
    (tget s.fab.tags t = some e → e.recs = 0 → e.retx ≠ 0 →
      exec (.retxRecordWriteDone t true) s = .next (finish s (mirrorRec (setTag (quiet s) t { e with recs := 1 }) (.stored [t]))) ∧
      ∃ u, exec (.retxRecordWriteDone t false) s = .next (finish s u) ∧
        (s.aon.alarms.length < 256 → tget u.fab.tags t = some { e with recs := 2 } ∧
          ∃ r, u.aon.alarms.getLast? = some r ∧ r.cls = 0x17 ∧ r.status = stTimeout)) ∧
    (clkRuns s = true → tget s.fab.tags t = some e →
      (fld (reg s 0x1A010) 3 0 ≤ e.sends → exec (.e2eTimerExpiry t) s = .next (finish s (giveUp (quiet s) t))) ∧
      (e.sends < fld (reg s 0x1A010) 3 0 → e.recs ≠ 2 → e.state = 1 →
        exec (.e2eTimerExpiry t) s = .next (finish s (setTag (quiet s) t { e with
          sends := e.sends + 1, deadline := s.aon.ts + e2eTimeout s })))) ∧
    (∀ key c, tget s.links.egress key = some c → c.closing = true → c.gap = none →
      (∀ p ∈ s.fab.tags, isModTag p.2 = true ∨ tagStream p.2 ≠ key) → key % 2 = s.dom.gen % 2 →
      s.fab.txq = [] → exec (.streamGapSend key) s = .next (finish s (pushTx (quiet s) { TxFrame.blank with
        dst := key / 131072, owner := ownerOf (key / 2 % 65536), tc := key / 2 % 65536 / 256 % 8, sub := subOf (key / 2 % 65536)
        op := opGap, origin := .gap }))) ∧
    (∀ peer tc, tc < 8 → tgetD s.fab.ackSince (peer * 8 + tc) 0 ≠ 0 → ackGapOut s peer tc = false →
      exec (.ackStreamGap peer tc) s = .next (finish s (pushTx (quiet s) { TxFrame.blank with
        dst := peer, tc := tc, sub := 0xFF, op := opGap, origin := .gap }))) ∧
    (∀ peer tc q, tc < 8 → tget s.fab.eackQ (peer * 8 + tc) = some q → q ≠ [] → q.length ≤ 498 →
      exec (.eackFlush peer tc) s = .next (finish s (pushTx { quiet s with fab := { s.fab with
        eackQ := tdel s.fab.eackQ (peer * 8 + tc) } } { TxFrame.blank with
          dst := peer, tc := tc, sub := 0xFF, op := opEack
          payload := q.flatMap (fun r => leBytes 4 r.rtag ++ leBytes 1 r.status ++ leBytes 1 (b2n r.dup) ++ [0, 0]) }))))

/-- RSP_RX, EACK_RX (07 R223, R224, R228, R233), of the one released frame: a response, or a frame of one record, that names no outstanding
tag of its peer counts as stale and does nothing else, but that the response is acknowledged; one that names a tag retires it with the
status it carries (a response that breaks its layout with ST_BAD_PARAM), and a DUP marks a request applied and retires another frame. The
response of an atomic is not described here. -/
def Obligations.Acknowledged : Prop :=
  ∀ (s : State) (f : InFrame), engUp s = true → s.fab.inbox = [f] →
    let q := { quiet s with fab := { s.fab with inbox := [] } }
    (f.hdr.op = opRsp →
      let a := pushEack q f.hdr.src f.hdr.tc (leAt f.payload 8 4) stOk false
      (tagByRtag s f.hdr.src (leAt f.payload 0 4) (fun o => o == opReq) = none →
        exec .rspRx s = .next (finish s (bump a 0x1A038))) ∧
      ∀ t e, tagByRtag s f.hdr.src (leAt f.payload 0 4) (fun o => o == opReq) = some (t, e) →
        (rspBad f.hdr f.payload e = true → exec .rspRx s = .next (finish s (retire a t stBadParam [] 0))) ∧
        (rspBad f.hdr f.payload e = false → leAt f.payload 5 1 ≠ stOk →
          exec .rspRx s = .next (finish s (retire a t (leAt f.payload 5 1) [] 0))) ∧
        (rspBad f.hdr f.payload e = false → leAt f.payload 5 1 = stOk → e.kind ≠ kAtomic →
          exec .rspRx s = .next (finish s (retire a t stOk (f.payload.drop 16) (leAt f.payload 12 4))))) ∧
    (f.hdr.op = opEack → f.payload.length = 8 → tagBySeq s f.hdr.src f.hdr.tc (leAt f.payload 0 4) = none →
      (tagByRtag s f.hdr.src (leAt f.payload 0 4) (fun o => o == opReq || o == opRsp) = none →
        exec .eackRx s = .next (finish s (bump q 0x1A038))) ∧
      ∀ t e, tagByRtag s f.hdr.src (leAt f.payload 0 4) (fun o => o == opReq || o == opRsp) = some (t, e) →
        (leAt f.payload 5 1 % 2 = 0 → exec .eackRx s = .next (finish s (retire q t (leAt f.payload 4 1) [] 0))) ∧
        (leAt f.payload 5 1 % 2 = 1 → e.op = opReq → exec .eackRx s = .next (finish s (setTag q t { e with state := 3 }))) ∧
        (leAt f.payload 5 1 % 2 = 1 → e.op ≠ opReq → exec .eackRx s = .next (finish s (retire q t stOk [] 0))))

/-- HOME_REQUEST (07 R219, R222, R243; 08 R280): a malformed request is answered ST_BAD_PARAM, one outside its owner's scope with the status
of the first check it fails, and one for a reserved key ID ST_NOT_PERMITTED; a request in scope is taken by the home, at a home at rest,
once and with the operands the frame carries, and a LOAD or STORE makes its access to package memory at once; one for a region homed here
goes to the memory seal engine. -/
def Obligations.HomeTakes : Prop :=
  ∀ (s : State) (f : InFrame), engUp s = true → s.fab.inbox = [f] → f.hdr.op = opReq → f.hdr.mbxs = false →
    let q := { quiet s with fab := { s.fab with inbox := [] } }
    let r := reqOf f
    let base := (partAt s (r.owner - 1)).fwinBase
    let pasid := lowestPasid (partAt s (r.owner - 1))
    (reqBad f.hdr f.payload = true → exec .homeRequest s = .next (finish s (refuseReq q r stBadParam))) ∧
    (reqBad f.hdr f.payload = false → r.kid = 0 →
      (homeScope s r.owner r.addr r.len r.opn ≠ stOk →
        exec .homeRequest s = .next (finish s (refuseReq q r (homeScope s r.owner r.addr r.len r.opn)))) ∧
      (homeScope s r.owner r.addr r.len r.opn = stOk → s.fab.homes = [] →
        ∃ u o, exec .homeRequest s = .next (finish s u) ∧ tget u.fab.homes s.fab.nextHome = some o ∧ o.part = r.owner - 1 ∧
          o.kind = r.kind ∧ o.addr = r.addr ∧ o.len = r.len ∧ o.data = r.data ∧ o.base = base ∧ o.pasid = pasid ∧ o.phase ≠ 0 ∧
          u.fab.inbox = [] ∧ u.fab.nextHome = s.fab.nextHome + 1 ∧
          (r.kind = kLoad → u.out = mreqOuts s false (base + r.addr) r.len [] [] (some pasid)) ∧
          (r.kind = kStore → u.out = mreqOuts s true (base + r.addr) r.len r.data r.mask (some pasid)))) ∧
    (reqBad f.hdr f.payload = false → 0 < r.kid → r.kid < 16 →
      exec .homeRequest s = .next (finish s (refuseReq q r stNotPermitted))) ∧
    (reqBad f.hdr f.payload = false → 16 ≤ r.kid →
      (poolScope s r.owner r.kid r.addr r.len ≠ stOk →
        exec .homeRequest s = .next (finish s (refuseReq q r (poolScope s r.owner r.kid r.addr r.len)))) ∧
      ∀ g, poolScope s r.owner r.kid r.addr r.len = stOk → regionAt s r.kid = some g →
        exec .homeRequest s = .next (finish s (poolReq q r g)))

/-! Package memory, pool modules and their keys. -/

/-- INITIATOR_RESPONSE (02 R43; 07 R220, R232, R238, R243; 12 R391): an answer that no access awaits changes nothing. The home answers a
LOAD with its bytes, applies an atomic to the old bytes and writes the beat, answers a written store, adds one to an arrival counter, and
ends an access that failed with ST_INTERNAL and an IO event; a stored frame whose records come back poisoned gives up. MDATA_RX, MDONE_RX
(08 R262 to R264, R269, R270, R272): a module response that answers no outstanding request is dropped; one that answers a request of the
memory seal engine retires its tag, with its lines, or as ST_INTERNAL where the module reports a fault of a write. -/
def Obligations.MemoryResponses : Prop :=
  (∀ (s : State) (id pick poison : Nat) (data : Bytes) (err : Bool), engUp s = true →
    (tget s.fab.pm id = none → exec (.initiatorResponse id err poison data pick) s = .next (finish s (quiet s))) ∧
    ∀ p, tget s.fab.pm id = some p →
      let q := { quiet s with fab := { s.fab with pm := tdel s.fab.pm id } }
      let d := (padTo p.len data).take p.len
      (∀ i o, p.use = .home i → tget s.fab.homes i = some o →
        (err = true → exec (.initiatorResponse id err poison data pick) s = .next (finish s (endHome
          (ioEvent q 0xFF 0 stInternal 0 o.part o.ctx (o.base + o.addr)) i o stInternal [] 0))) ∧
        (err = false → o.phase = 1 → o.kind = kLoad →
          exec (.initiatorResponse id err poison data pick) s = .next (finish s (endHome q i o stOk d poison))) ∧
        (err = false → o.phase = 1 → o.kind = kAtomic → poison ≠ 0 →
          exec (.initiatorResponse id err poison data pick) s = .next (finish s (endHome q i o stPoisoned [] 0))) ∧
        (err = false → o.phase = 1 → o.kind = kAtomic → poison = 0 → ∃ u, exec (.initiatorResponse id err poison data pick) s = .next (finish s u) ∧
          u.out = mreqOuts s true (o.base + o.addr / 128 * 128) 128
            (putIn d (o.addr % 128) (aopWidth o.aop) (aopApply o.aop (leAt d (o.addr % 128) (aopWidth o.aop)) o.operand))
            (maskAt (o.addr % 128) (aopWidth o.aop)) (some o.pasid) ∧
          ∃ o', tget u.fab.homes i = some o' ∧ o'.phase = 2 ∧ o'.old = leBytes (aopWidth o.aop) (leAt d (o.addr % 128) (aopWidth o.aop))) ∧
        (err = false → o.phase = 2 → o.kind = kStore → o.arrival = none → s.fab.waits = [] →
          exec (.initiatorResponse id err poison data pick) s = .next (finish s (endHome q i o stOk [] 0))) ∧
        (err = false → o.phase = 3 → poison = 0 → ∃ u, exec (.initiatorResponse id err poison data pick) s = .next (finish s u) ∧
          let a := o.arrival.getD 0
          u.out = mreqOuts s true (o.base + a / 128 * 128) 128 (putIn d (a % 128) 8 ((leAt d (a % 128) 8 + 1) % 2 ^ 64))
            (maskAt (a % 128) 8) (some o.pasid))) ∧
      (∀ t, p.use = .resend t → p.write = false → err = false → poison ≠ 0 →
        exec (.initiatorResponse id err poison data pick) s = .next (finish s (giveUp q t))) ∧
      (∀ n, p.use = .waitRead n → p.write = false → err = false → poison = 0 →
        exec (.initiatorResponse id err poison data pick) s = .next (finish s (waitSees q n (ofLe d)))) ∧
      (p.use = .dbgRing → p.pasid = none → err = false →
        exec (.initiatorResponse id err poison data pick) s = .next (finish s q))) ∧
  (∀ (s : State) (f : InFrame), engUp s = true → s.fab.inbox = [f] →
    let q := { quiet s with fab := { s.fab with inbox := [] } }
    (moduleTag s f.hdr = none →
      (f.hdr.op = opMdata → exec .mdataRx s = .next (finish s q)) ∧ (f.hdr.op = opMdone → exec .mdoneRx s = .next (finish s q))) ∧
    ∀ t e id part, fwActs s = true → moduleTag s f.hdr = some t → tget s.fab.tags t = some e → e.origin = .module id part →
      let n := popcount 64 (leAt f.payload 0 8 % 2 ^ (f.hdr.nlines + 1))
      let p := leAt f.payload 0 8 % 2 ^ (f.hdr.nlines + 1)
      (f.hdr.op = opMdata → leAt f.payload 8 1 = 0 → f.payload.length = 16 + 64 * (f.hdr.nlines + 1) →
        exec .mdataRx s = .next (finish s (identityArrive (retire (bumpBy q 0x20038 n) t stOk (f.payload.drop 16) p) id stOk p
          (f.payload.drop 16)))) ∧
      (f.hdr.op = opMdone → leAt f.payload 8 1 = 0 →
        exec .mdoneRx s = .next (finish s (identityArrive (retire (bumpBy q 0x20038 n) t stOk (f.payload.drop 16) p) id stOk p
          (f.payload.drop 16)))) ∧
      (f.hdr.op = opMdone → leAt f.payload 8 1 ≠ 0 →
        exec .mdoneRx s = .next (finish s (identityArrive (retire (setBits (bumpBy q 0x20038 n) 0x20004 0x20) t stInternal [] p) id
          stInternal p []))))

/-- HOTLINE_IDLE_WRITEBACK, COUNTER_CACHE_FILL, PAGE_REENCRYPT_DONE, RESEAL_SWEEP (07 R253; 08 R273, R274, R276, R279): a pinned line is
written back, unless it is being written back already; a fill whose reads have come and whose region has its key installs its block and lets
what waited go on, fails it where the block does not verify, or stays while the ways have no room; a re-seal job whose writes have come
ends; a sweep that has passed the last page frees the old key and says so. -/
def Obligations.MemoryEngine : Prop :=
  ∀ (s : State) (kid : Nat), engUp s = true →
    (∀ line, hotAt s kid line = none → exec (.hotlineIdleWriteback kid line) s = .next (finish s (pumpMem (quiet s)))) ∧
    (∀ line h, hotAt s kid line = some h → h.wb = true → exec (.hotlineIdleWriteback kid line) s = .next (finish s (pumpMem (quiet s)))) ∧
    (∀ line h, hotAt s kid line = some h → h.wb = false → exec (.hotlineIdleWriteback kid line) s = .next (finish s (pumpMem
      (pushOp (hotMod (quiet s) kid line (fun h => { h with wb := true, again := false }))
        { who := .hot kid line, kid := kid, line := line, lines := 1, write := true, atomic := none, data := h.data, mask := []
          epoch := 0, phase := .waiting, status := stOk, poison := 0, parts := [], ctx := 0, fepoch := 0, cover := false, ord := 0 })))) ∧
    (∀ id v f r n, tget s.mem.fills id = some f → allDone f.parts = true → regionAt s f.kid = some r →
      regionSlot s f.kid r.gen0 r = some n →
      let k := useRegionKey (quiet s) n
      ((fillInstall k.2 id f r k.1 v).2 = none ∨ (fillInstall k.2 id f r k.1 v).2 = some stOk →
        exec (.counterCacheFill id v) s = .next (finish s (pumpMem (fillInstall k.2 id f r k.1 v).1))) ∧
      (∀ st, (fillInstall k.2 id f r k.1 v).2 = some st → st ≠ stOk → exec (.counterCacheFill id v) s = .next (finish s (pumpMem
        (failPage (fillInstall k.2 id f r k.1 v).1 f.kid f.page st))))) ∧
    (∀ id j r, tget s.mem.jobs id = some j → j.started = true → j.reading = false → allDone j.parts = true →
      regionAt s j.kid = some r → j.op = none → j.reseal = true →
      exec (.pageReencryptDone id) s = .next (finish s (pumpMem (loseLines { quiet s with mem := { s.mem with jobs := tdel s.mem.jobs id } }
        j.kid r j.page j.parts ((List.range 64).map (64 * j.page + ·)))))) ∧
    (∀ r p, regionAt s kid = some r → r.sweep = some p → r.lost = false → r.invalid = false → rPages r ≤ p →
      exec (.resealSweep kid) s = .next (finish s (setBits (dropRegionKey (setRegion (quiet s) kid { r with sweep := none }) kid
        (r.keyGen - 1)) 0x20004 8)))

/-- REGION_KEY_MISS, ORPHAN_SWEEP, ENTROPY_HEALTH_FAIL, ENTROPY_STARTUP_PASS (04 R109, R117, R123): a missing region key is derived into the
lowest free slot; orphaned slots are zeroed and freed with their generation kept; a failed health test makes the DRBG refuse, with an event,
until the start-up tests pass. -/
def Obligations.KeyUpkeep : Prop :=
  ∀ s : State, engUp s = true →
    (∀ kid g, s.mem.missK.filter (fun p => p.1 == kid) = [(kid, g)] →
      exec (.regionKeyMiss kid) s = .next (finish s (pumpMem (fillRegionKey (quiet s) kid g))) ∧
      ∀ r n, regionAt s kid = some r → regionLive s r = true → regionSlot s kid g r = none → lowestFree s = some n →
        (slotAt (fillRegionKey (quiet s) kid g) n).state = 1 ∧ (slotAt (fillRegionKey (quiet s) kid g) n).typ = 6 ∧
        (slotAt (fillRegionKey (quiet s) kid g) n).parent = 5 ∧ (slotAt (fillRegionKey (quiet s) kid g) n).ownerKid = kid ∧
        (slotAt (fillRegionKey (quiet s) kid g) n).gen = (slotAt s n).gen) ∧
    (∃ u, exec .orphanSweep s = .next (finish s u) ∧ (∀ n k, tget s.keys.slots n = some k →
      tget u.keys.slots n = some (if k.state = 2 then { k with key := 0, state := 0 } else k)) ∧ u.keys.recency = s.keys.recency ∧
      u.links = s.links ∧ u.mem = s.mem ∧ u.fab = s.fab) ∧
    exec .entropyStartupPass s = .next (finish s { quiet s with hub := { s.hub with drbgRefuse := false, drbgCount := 0 } }) ∧
    (s.hub.drbgRefuse = true → exec .entropyHealthFail s = .next (finish s (quiet s))) ∧
    (s.hub.drbgRefuse = false → s.aon.alarms.length < 256 → ∃ u r, exec .entropyHealthFail s = .next (finish s u) ∧
      u.hub.drbgRefuse = true ∧ u.aon.alarms.getLast? = some r ∧ r.cls = 0x12 ∧ u.keys = s.keys)

/-! The Hub, its mailboxes and the replies. -/

/-- HUB_LOCKSTEP_MISMATCH, HUB_SELFTEST_DONE, HEARTBEAT_TIMEOUT (03 R70 to R73): a mismatch starts the self-test, with a HUB event; a core
of the pair that failed gives its place to the spare, and without a spare the block halts; where no core failed, the time of the mismatch
is kept. -/
def Obligations.HubPair : Prop :=
  ∀ s : State, engUp s = true →
    (hubUp s = true → s.hub.selfTest = false → s.aon.alarms.length < 256 → ∃ u r, exec .hubLockstepMismatch s = .next (finish s u) ∧
      u.hub.selfTest = true ∧ u.hub.pairA = s.hub.pairA ∧ u.hub.pairB = s.hub.pairB ∧
      u.aon.alarms.getLast? = some r ∧ r.cls = 0x11 ∧ r.unit = 0x1B) ∧
    (s.hub.selfTest = true → s.hub.pairA < 3 → s.hub.pairA ≠ s.hub.pairB → s.ident.acks = [] → (∀ n, n < 18 → unadmitted (mb s n) = false) →
      (∀ x, spareCore s = some x → ∃ u, exec (.hubSelftestDone [s.hub.pairA]) s = .next (finish s u) ∧ u.hub.pairA = x ∧
        u.hub.pairB = s.hub.pairB ∧ u.hub.selfTest = false) ∧
      (spareCore s = none → ∃ u, exec (.hubSelftestDone [s.hub.pairA]) s = .next (finish s u) ∧ u.aon.haltReq = true) ∧
      (recentMismatch s = false → ∃ u, exec (.hubSelftestDone []) s = .next (finish s u) ∧
        u.hub.lastMismatch = some s.aon.ts ∧ u.hub.pairA = s.hub.pairA ∧ u.hub.pairB = s.hub.pairB ∧ u.hub.selfTest = false)) ∧
    (s.aon.stage = 6 → s.hub.selfTest = false → s.aon.alarms.length < 256 → (∀ n, n < 18 → (mb s n).packet = none) →
      (∀ n, n < 18 → unadmitted (mb s n) = false) → recentMismatch s = false →
      ∃ u, exec .heartbeatTimeout s = .next (finish s u) ∧ u.hub.lastMismatch = some s.aon.ts ∧ u.hub.pairA = s.hub.pairA ∧
        u.hub.pairB = s.hub.pairB)

/-- MBX_IN_DATA, MBX_CLEAR, MBX_OUT_DATA_READ, MBX_DONE (03 R82 to R84, R89): a word joins the input buffer and binds a free mailbox; a
busy or full one drops it; CLEAR frees it; a read gives the next word of the present fragment, and 0 with UNDERRUN when none is left; DONE
releases the fragment, and with the last one the mailbox. Another identity is refused. A reply is appended to the fragments of its source
under the command's opcode and tag, its status and its words; the command is over and holds nothing any more, and no other source sees a
change (03 R86, R89, R94). -/
def Obligations.MailboxReplies : Prop :=
  (∀ (s : State) (m : Nat) (w : Word) (who : Requester),
    let b := mb s m
    (opens s who (mbxReg m 0) = true →
      (boundOther s m who = true → exec (.mbxInData m w who) s = .next (finish s (emit (quiet s) (.regRsp 0 true)))) ∧
      (boundOther s m who = false → b.busy = false → b.words.length < 4098 →
        exec (.mbxInData m w who) s = .next (finish s (emit (setMb (quiet s) m { b with
          words := b.words ++ [w], bound := some (b.bound.getD (identOf who)) }) (.regRsp 0 false)))) ∧
      (boundOther s m who = false → b.busy = true →
        exec (.mbxInData m w who) s = .next (finish s (emit (setDropped (quiet s) m) (.regRsp 0 false))))) ∧
    (opens s who (mbxReg m 4) = true → (boundOther s m who = false ∨ who.priv = true) → b.busy = false →
      exec (.mbxClear m who) s = .next (finish s (emit (setMb (quiet s) m { b with words := [], blob := none, bound := none })
        (.regRsp 0 false)))) ∧
    (opens s who (mbxReg m 0xC) = true → boundOther s m who = false →
      (wleft b ≠ 0 → exec (.mbxOutDataRead m who) s = .next (finish s (emit (setMb (quiet s) m { b with rd := b.rd + 1 })
        (.regRsp ((b.replies.headD []).getD b.rd 0) false)))) ∧
      (wleft b = 0 → exec (.mbxOutDataRead m who) s = .next (finish s (emit (setBits (quiet s) (mbOff m 0x10) 0x20000#32)
        (.regRsp 0 false))))) ∧
    (opens s who (mbxReg m 0x14) = true → (boundOther s m who = false ∨ who.priv = true) →
      (∀ r, b.replies = [r] → exec (.mbxDone m who) s = .next (finish s (emit (setMb (quiet s) m { b with
        replies := [], rd := 0, released := false, busy := false, submitted := 0, words := []
        bound := if b.blob.isSome then b.bound else none }) (.regRsp 0 false)))) ∧
      (∀ r r' rest, b.replies = r :: r' :: rest → exec (.mbxDone m who) s = .next (finish s (emit (noteSaved (setMb (quiet s) m { b with
        replies := r' :: rest, rd := 0, released := true }) m) (.regRsp 0 false)))))) ∧
  (∀ (s : State) (src : Nat) (op : Op) (tag : Word) (st : Nat) (ps : List Word),
    let u := reply s src op tag st ps
    (mb u src).replies = (mb s src).replies ++ [replyWords (opVal op) st tag ps] ∧ (mb u src).packet = none ∧
    (∀ b ∈ u.hub.bg, b.src ≠ src) ∧ (∀ n, n ≠ src → mb u n = mb s n) ∧ u.keys = s.keys ∧ u.mem = s.mem ∧ u.parts = s.parts ∧
    u.dom = s.dom ∧ u.links = s.links ∧ u.fab = s.fab ∧ u.otp = s.otp ∧ u.win = s.win ∧ u.out = s.out ∧
    (st ≠ stBadLength → st ≠ stBusy → st ≠ stPending → (mb u src).retTag = some tag ∧
      (mb u src).retReply = some (op, replyWords (opVal op) st tag ps)))

/-- MBX_GO, MBX_STREAM_PACKET (03 R83, R88 to R90, R95): the packet of a free mailbox with no blob open that the Hub may take is checked in
the order of 03 R90: its length, its opcode, the rights of its source, the life-cycle state, its FLAGS, the length and the fields of its
layout; the first check that fails gives the reply's status; one that passes, with no blob to follow, becomes the source's admitted packet.
A whole packet of the stream in one frame is submitted as source 17. -/
def Obligations.PacketAdmitted : Prop :=
  ∀ (s : State) (m : Nat) (who : Requester), hubAdmits s = true →
    let b := mb s m
    let h := (pw b.words 0).toNat
    let tag := pw b.words 1
    (opens s who (mbxReg m 4) = true → boundOther s m who = false → b.busy = false → b.blob = none → b.replies = [] →
      2 ≤ b.words.length →
      (b.words.length ≠ h % 2 ^ 16 + 2 → ∃ u, exec (.mbxGo m who) s = .next (finish s u) ∧
        (mb u m).replies = [replyWords (h / 2 ^ 24) stBadLength tag []] ∧ (mb u m).packet = none) ∧
      (b.words.length = h % 2 ^ 16 + 2 → opOf (h / 2 ^ 24) = none → ∃ u, exec (.mbxGo m who) s = .next (finish s u) ∧
        (mb u m).replies = [replyWords (h / 2 ^ 24) stBadOpcode tag []] ∧ (mb u m).retTag = some tag) ∧
      ∀ op, b.words.length = h % 2 ^ 16 + 2 → opOf (h / 2 ^ 24) = some op → b.retTag ≠ some tag →
        (opRight s m op = false → ∃ u, exec (.mbxGo m who) s = .next (finish s u) ∧
          (mb u m).replies = [replyWords (opVal op) stNotPermitted tag []]) ∧
        (opRight s m op = true → opInState op s.otp.lc = false → ∃ u, exec (.mbxGo m who) s = .next (finish s u) ∧
          (mb u m).replies = [replyWords (opVal op) stLcState tag []]) ∧
        (opRight s m op = true → opInState op s.otp.lc = true → flagsOk op (h / 2 ^ 16 % 256) false = false →
          ∃ u, exec (.mbxGo m who) s = .next (finish s u) ∧ (mb u m).replies = [replyWords (opVal op) stBadParam tag []]) ∧
        (opRight s m op = true → opInState op s.otp.lc = true → flagsOk op (h / 2 ^ 16 % 256) false = true →
          lenOk op (b.words.drop 2) = false →
          ∃ u, exec (.mbxGo m who) s = .next (finish s u) ∧ (mb u m).replies = [replyWords (opVal op) stBadLength tag []]) ∧
        (opRight s m op = true → opInState op s.otp.lc = true → flagsOk op (h / 2 ^ 16 % 256) false = true →
          lenOk op (b.words.drop 2) = true →
          (fieldsOk op (b.words.drop 2) && blobOk op (b.words.drop 2) none (blobBytes op (b.words.drop 2))) = false →
          ∃ u, exec (.mbxGo m who) s = .next (finish s u) ∧ (mb u m).replies = [replyWords (opVal op) stBadParam tag []]) ∧
        (opRight s m op = true → opInState op s.otp.lc = true → h / 2 ^ 16 % 256 = 0 → lenOk op (b.words.drop 2) = true →
          fieldsOk op (b.words.drop 2) = true → blobOk op (b.words.drop 2) none (blobBytes op (b.words.drop 2)) = true →
          ∃ u, exec (.mbxGo m who) s = .next (finish s u) ∧ (mb u m).busy = true ∧ (mb u m).replies = [] ∧
            (mb u m).packet = some { op := op, tag := tag, params := b.words.drop 2, more := false
                                     blob := blobBytes op (b.words.drop 2) } ∧ u.out = [.regRsp 0 false])) ∧
    (∀ f, engUp s = true → s.fab.inbox = [f] → isStreamFrame f = true → (mb s 17).busy = false →
      let ws := bytesWords f.payload
      ws.length = fld (ws.headD 0) 15 0 + 2 → ws.length ≤ 4098 →
      exec .mbxStreamPacket s = .next (finish s (submit (setMb { quiet s with fab := { s.fab with inbox := [] } } 17
        { mb s 17 with words := ws, vertex := f.hdr.src }) 17)))

/-! Commands of the Hub on its own state, on keys, regions and parameter groups. -/

/-- Orders 9 and 10 of 03 R90 stand before every command's own checks: a packet outside its source's scope, one that a TDISP lock withholds,
or one that names what another command holds is answered with that status and has no other effect, but that its source has had its turn; and
a packet waits, unchanged, while the Hub may not take it, or while its derivation waits for a miss of the data path (01 R23). What guards an
SPDM request in a session of a mailbox (05 R137, R146, R149): without its message at hand nothing happens; the management channel must work,
the session must be the connection's own, and for a request with a row of its own it must be past FINISH. -/
def Obligations.HubGuards : Prop :=
  (∀ (s : State) (src : Nat) (m : Meas) (v : FwVerdict) (x : SelfFails) (g : Bool), engUp s = true →
    ∀ p ∈ ([(.bcpGetInfo src, Op.getInfo), (.bcpQuery src m, Op.query), (.bcpDebugAuth src g, Op.debugAuth), (.bcpKeyDerive src, Op.keyDerive),
        (.bcpKeyInvalidate src, Op.keyInvalidate), (.bcpKeyInfo src, Op.keyInfo), (.bcpDomainEnrol src g, Op.domainEnrol),
        (.bcpDomainRekey src, Op.domainRekey), (.bcpChordRekey src, Op.chordRekey), (.bcpRegionCreate src, Op.regionCreate),
        (.bcpRegionDestroy src, Op.regionDestroy), (.bcpRegionRekey src, Op.regionRekey), (.bcpPgdWrite src, Op.pgdWrite),
        (.bcpPgdRead src, Op.pgdRead), (.bcpPartitionCreate src, Op.partitionCreate), (.bcpPartitionDestroy src, Op.partitionDestroy),
        (.bcpContextTeardown src, Op.contextTeardown), (.bcpContextReset src, Op.contextReset), (.bcpMigLogStart src, Op.migLogStart),
        (.bcpMigFreeze src, Op.migFreeze), (.bcpMigSave src, Op.migSave), (.bcpMigRestore src, Op.migRestore), (.bcpPmuConfig src, Op.pmuConfig),
        (.bcpDumpArm src, Op.dumpArm), (.bcpWatchSet src, Op.watchSet), (.bcpRepairStatus src, Op.repairStatus), (.bcpSelftest src x, Op.selftest),
        (.bcpFwStage src v, Op.fwStage), (.bcpTandemFailover src, Op.tandemFailover)] : List (Instr × Op)),
      (packetOf s src p.2 = none → exec p.1 s = .next (finish s (quiet s))) ∧
      ∀ k, packetOf s src p.2 = some k →
        (hubTakes s src = false ∨ (derives p.2 = true ∧ missPending s = true) → exec p.1 s = .next (finish s (quiet s))) ∧
        ∀ st, hubTakes s src = true → (derives p.2 && missPending s) = false → admitScope s src p.2 k.params = some st →
          exec p.1 s = .next (finish s (reply (taken s src) src p.2 k.tag st []))) ∧
  (∀ (s : State) (src n i : Nat) (sig ok : Bool) (a b c : Bytes) (req : SpdmReq) (peer : PeerShown), engUp s = true →
    ∀ r ∈ ([.hybKem (.mbox src) n a b c, .hybSign (.mbox src) n ok peer, .spdmEndSession (.mbox src) n ok, .hybChain (.mbox src) (some n),
        .hybSetChain src (some n) a, .hybGetKey (.mbox src) (some n), .spdmGetCsr (.mbox src) (some n), .spdmSetCertificate src (some n) a,
        .spdmGetMeasurements (.mbox src) (some n) i sig] : List Instr),
      (packetOf s src .spdm = none → exec r s = .next (finish s (quiet s)) ∧ exec (.bcpSpdm src req (some n)) s = .next (finish s (quiet s))) ∧
      (heard s src true = true → channelUp s = false → exec r s = .next (finish s (spdmSay (taken s src) (.mbox src) (.error .unspecified))) ∧
        exec (.bcpSpdm src req (some n)) s = .next (finish s (spdmSay (taken s src) (.mbox src) (.error .unspecified)))) ∧
      (heard s src true = true → channelUp s = true → sessionOf s (.mbox src) n = none →
        exec r s = .next (finish s (spdmSay (taken s src) (.mbox src) (.error .unexpected))) ∧
        exec (.bcpSpdm src req (some n)) s = .next (finish s (spdmSay (taken s src) (.mbox src) (.error .unexpected)))) ∧
      (heard s src true = true → channelUp s = true → (sessionOf s (.mbox src) n).isSome = true → finished s (.mbox src) n = false →
        exec r s = .next (finish s (spdmSay (loadSession (taken s src) n) (.mbox src) (.error .unexpected)))))

/-- BCP_GET_INFO, BCP_QUERY, BCP_REPAIR_STATUS, BCP_KEY_INFO, BCP_SELFTEST (03 R98, R99, R104; 11 R379; 12 R407): each answers ST_OK with
its words; a query of a partition is shown clocks and power in coarse steps, the power as its first query of these 10 ms found it; a slot
below 16 is not shown; a self-test of the SRAMs is refused while a partition exists, and one in which nothing fails passes every part it
selects. BCP_PGD_WRITE, BCP_PGD_READ (03 R101; 10 R325, R327): a group beyond the area's, a group of no partition and a PGD of a wrong form
are refused; one without parameters needs no form; an accepted PGD is what a read then gives. -/
def Obligations.QueriesAndGroups : Prop :=
  (∀ (s : State) (src : Nat) (k : Packet) (m : Meas),
    (takes s src .getInfo k = true → exec (.bcpGetInfo src) s = .next (finish s (reply (taken s src) src .getInfo k.tag stOk
      [0x0000C6B5#32, 0x00030200#32, configW s,
       toW (lcCode s.otp.lc + 16 * tokensSpent s + 256 * b2n s.aon.testRoot + 512 * b2n (invasiveOn s)),
       (if s.aon.stage = 15 then 0 else toW (s.hub.svn % 64 + 256 * s.hub.slot + 512 * b2n s.hub.stagedPending)),
       toW (domainId s), toW (domainId s / 2 ^ 32), toW (s.dom.vertex.getD 0 + 2 ^ 16 * b2n (isMember s))]))) ∧
    (takes s src .query k = true → (isM src = true →
      exec (.bcpQuery src m) s = .next (finish s (reply (taken s src) src .query k.tag stOk
        [toW m.engKHz, toW m.csKHz, toW m.hubKHz, toW m.regKHz, m.hot, m.cool, toW m.powerMw, toW m.limitMw,
         reg s 0x5004, reg s 0x1A00C, reg s 0x5040, reg s 0x1A014]))) ∧
      (isM src = false → ∃ ws, exec (.bcpQuery src m) s = .next (finish s (reply
          { taken s src with hub := { (taken s src).hub with shown := some (shownNow s m) } } src .query k.tag stOk ws)) ∧
        ws.getD 0 0 = toW (m.engKHz / 50000 * 50000) ∧ ws.getD 6 0 = toW ((shownNow s m).2.2.2 / 1000 * 1000) ∧
        ((∀ x, s.hub.shown = some x → x.1 ≠ s.aon.ts / 10000000) → (shownNow s m).2.2.2 = m.power10) ∧
        (∀ x, s.hub.shown = some x → x.1 = s.aon.ts / 10000000 → shownNow s m = x))) ∧
    (takes s src .repairStatus k = true →
      exec (.bcpRepairStatus src) s = .next (finish s (reply (taken s src) src .repairStatus k.tag stOk (repairWords s)))) ∧
    (takes s src .keyInfo k = true → let n := fld (pw k.params 0) 10 0
      (n < 16 → exec (.bcpKeyInfo src) s = .next (finish s (reply (taken s src) src .keyInfo k.tag stNotPermitted []))) ∧
      (16 ≤ n → let x := slotAt s n
        exec (.bcpKeyInfo src) s = .next (finish s (reply (taken s src) src .keyInfo k.tag stOk
          [toW (x.typ + 2 ^ 8 * x.uses.toNat + 2 ^ 24 * x.state), toW x.parent, toW x.parentGen, toW x.gen, toW x.useCount,
           toW (x.useCount / 2 ^ 32), toW x.useLimit, toW (x.useLimit / 2 ^ 32), toW x.ownerKid])))) ∧
    (takes s src .selftest k = true → let none_ : SelfFails := { cores := [], mac := false, pk := false, drbg := false, parts := [] }
      let scope := fld (pw k.params 0) 6 0
      (scope / 64 % 2 = 1 → s.parts.part.any (fun p => p.2.live) = true → ∀ x,
        exec (.bcpSelftest src x) s = .next (finish s (reply (taken s src) src .selftest k.tag stBusy []))) ∧
      (scope / 64 % 2 = 0 ∨ s.parts.part.any (fun p => p.2.live) = false →
        exec (.bcpSelftest src none_) s = .next (finish s (reply (taken s src) src .selftest k.tag stOk [toW scope, 0]))))) ∧
  (∀ (s : State) (src : Nat) (k : Packet), let g := fld (pw k.params 0) 15 0; let p := fld (pw k.params 0) 19 16; let b := wordBytes (k.params.drop 1)
    (takes s src .pgdWrite k = true → groupHeld s p g = false →
      (pgdGroups s ≤ g → exec (.bcpPgdWrite src) s = .next (finish s (reply (taken s src) src .pgdWrite k.tag stBadParam []))) ∧
      (g < pgdGroups s → (partAt s p).live = false → exec (.bcpPgdWrite src) s = .next (finish s (reply (taken s src) src .pgdWrite k.tag stStaleHandle []))) ∧
      (g < pgdGroups s → (partAt s p).live = true → pgdN b ≠ 0 → pgdForm b = false →
        exec (.bcpPgdWrite src) s = .next (finish s (reply (taken s src) src .pgdWrite k.tag stBadParam []))) ∧
      (g < pgdGroups s → (partAt s p).live = true → (pgdN b = 0 ∨ (pgdForm b = true ∧ pgdRanges b = true ∧ (pgdRule b = 2 → pgdSrc b = 0) ∧ pgdRegions s p b = none)) →
        exec (.bcpPgdWrite src) s = .next (finish s (reply (setPgd (taken s src) p g b) src .pgdWrite k.tag stOk [])) ∧
        pgdAt (setPgd (taken s src) p g b) p g = padTo 128 (b.take 128))) ∧
    (takes s src .pgdRead k = true →
      (pgdGroups s ≤ g → exec (.bcpPgdRead src) s = .next (finish s (reply (taken s src) src .pgdRead k.tag stBadParam []))) ∧
      (g < pgdGroups s → (partAt s p).live = false → exec (.bcpPgdRead src) s = .next (finish s (reply (taken s src) src .pgdRead k.tag stStaleHandle []))) ∧
      (g < pgdGroups s → (partAt s p).live = true →
        exec (.bcpPgdRead src) s = .next (finish s (reply (taken s src) src .pgdRead k.tag stOk (bytesWords (pgdAt s p g)))))))

/-- BCP_KEY_DERIVE, BCP_KEY_INVALIDATE (04 R114 to R118, R121, R123): a derivation checks the types, the parent, its usage and depth, the
usages, the limit and the room, in this order; it takes the slot asked for or the lowest free one, whose generation stays, one depth below
its parent and bound to the parent's generation, with the key of KMAC-256 under the parent's key. An invalidation of a slot below 16 or of a
region key is refused; any other zeroes the key and raises the generation. -/
def Obligations.KeyCommands : Prop :=
  ∀ (s : State) (src : Nat) (k : Packet),
    (takes s src .keyDerive k = true → let p := k.params
      (∀ st, deriveCheck s p = some st → exec (.bcpKeyDerive src) s = .next (finish s (reply (taken s src) src .keyDerive k.tag st []))) ∧
      (fld (pw p 0) 10 0 ≠ 0 → fld (pw p 0) 10 0 ≠ 5 → fld (pw p 0) 10 0 < 16 → deriveCheck s p = some stNotPermitted) ∧
      (fld (pw p 1) 7 0 = 8 → 16 ≤ fld (pw p 0) 10 0 → fld (pw p 2) 15 0 = 0xFFFF → (slotAt s (fld (pw p 0) 10 0)).state = 2 →
        deriveCheck s p = some stKeyOrphaned) ∧
      (∀ n, deriveCheck s p = none → (if fld (pw p 2) 15 0 = 0xFFFF then lowestFree s else some (fld (pw p 2) 15 0)) = some n →
        ∃ u, exec (.bcpKeyDerive src) s = .next (finish s u) ∧
          (mb u src).replies = (mb s src).replies ++ [replyWords (opVal .keyDerive) stOk k.tag [toW n, toW (slotAt s n).gen]] ∧
          slotAt u n = {
            key := keyOf (kmac (keyBytes (slotAt s (fld (pw p 0) 10 0)).key)
              (ascii "usr." ++ fragBytes p 6 (fld (pw p 5) 8 0) ++ [0]) 32)
            typ := fld (pw p 1) 7 0, uses := BitVec.ofNat 16 (fld (pw p 1) 23 8), parent := fld (pw p 0) 10 0, state := 1
            depth := (slotAt s (fld (pw p 0) 10 0)).depth + 1, parentGen := (slotAt s (fld (pw p 0) 10 0)).gen, gen := (slotAt s n).gen
            useCount := 0, useLimit := if pw64 p 3 = 0 then 2 ^ 40 else pw64 p 3, ownerKid := 0 } ∧
          (∀ i, i ≠ n → slotAt u i = slotAt s i) ∧ u.links = s.links ∧ u.mem = s.mem ∧ u.dom = s.dom)) ∧
    (takes s src .keyInvalidate k = true → let n := fld (pw k.params 0) 10 0
      (n < 16 ∨ (slotAt s n).typ = 6 →
        exec (.bcpKeyInvalidate src) s = .next (finish s (reply (taken s src) src .keyInvalidate k.tag stNotPermitted []))) ∧
      (16 ≤ n → (slotAt s n).typ ≠ 6 → ∃ u, exec (.bcpKeyInvalidate src) s = .next (finish s u) ∧
        ((slotAt s n).gen < 0xFFFFFFFF → slotAt u n = { slotAt s n with key := 0, gen := (slotAt s n).gen + 1, state := 0 }) ∧
        ((slotAt s n).gen = 0xFFFFFFFF → slotAt u n = { slotAt s n with key := 0, state := 3 }) ∧
        (mb u src).replies = (mb s src).replies ++ [replyWords (opVal .keyInvalidate) stOk k.tag [toW (slotAt u n).gen]] ∧
        (∀ q ∈ u.links.chord, q ∈ s.links.chord ∧ (slotAt u q.2.slot).state = 1 ∧ (slotAt u q.2.slot).gen = q.2.slotGen)))

/-- BCP_REGION_CREATE, IDENTITY_LINE_TIMEOUT, BCP_REGION_DESTROY, BCP_REGION_REKEY (08 R258 to R260, R263, R279, R280, R287): a create is
checked in the order of 08 R259; one that does not reach its module is installed with generation 0; any other first reads the module's
identity line, and fails when that does not come in time. A destroyed reader's record goes at once; other regions are invalidated and held
until their module writes are over. A rekey without pinned lines puts the next generation in force: a PRIVATE region starts its sweep, a
SHARED_READ region its epochs anew. -/
def Obligations.RegionCommands : Prop :=
  ∀ (s : State) (src : Nat) (k : Packet), let kid := fld (pw k.params 0) 11 0; let part := fld (pw k.params 0) 19 16; let q := regionReq k.params
    (takes s src .regionCreate k = true →
      (∀ st, regionCheck s q = some st → exec (.bcpRegionCreate src) s = .next (finish s (reply (taken s src) src .regionCreate k.tag st []))) ∧
      (kidInGrant (partAt s part) kid = true → (regionAt s kid).isSome = true → regionCheck s q = some stNoResource) ∧
      (regionCheck s q = none → reachesModule s q = true →
        exec (.bcpRegionCreate src) s = .next (finish s (askIdentity (taken s src) src (q.base / 2 ^ 48)))) ∧
      (regionCheck s q = none → reachesModule s q = false → ∃ u r, exec (.bcpRegionCreate src) s = .next (finish s u) ∧
        regionAt u kid = some r ∧ r.part = part ∧ r.gen0 = 0 ∧ r.authority = false ∧ r.base = q.base ∧ r.size = q.size ∧
        r.handleGen = (slotAt s 5).gen ∧ (∀ i, i ≠ kid → regionAt u i = regionAt s i) ∧
        (mb u src).replies = (mb s src).replies ++ [replyWords (opVal .regionCreate) stOk k.tag [0, toW r.levels]])) ∧
    (engUp s = true → (∀ id, fwActs s = true → s.mem.idReq = [(id, src)] → packetOf s src .regionCreate = some k →
        exec (.identityLineTimeout src) s = .next (finish s (reply { quiet s with mem := { s.mem with idReq := [] } } src .regionCreate k.tag stTimeout []))) ∧
      (s.mem.idReq = [] → exec (.identityLineTimeout src) s = .next (finish s (quiet s)))) ∧
    (takes s src .regionDestroy k = true →
      (regionAt s kid = none → exec (.bcpRegionDestroy src) s = .next (finish s (reply (taken s src) src .regionDestroy k.tag
        (if kidInGrant (partAt s part) kid = true then stStaleHandle else stNotPermitted) []))) ∧
      (∀ r, regionAt s kid = some r → (r.part ≠ part →
          exec (.bcpRegionDestroy src) s = .next (finish s (reply (taken s src) src .regionDestroy k.tag stNotPermitted []))) ∧
        (r.part = part → r.kind = 1 → r.authority = false →
          exec (.bcpRegionDestroy src) s = .next (finish s (reply (purgeRegion (taken s src) kid) src .regionDestroy k.tag stOk [])) ∧
          regionAt (purgeRegion (taken s src) kid) kid = none) ∧
        (r.part = part → r.kind ≠ 1 ∨ r.authority = true →
          exec (.bcpRegionDestroy src) s = .next (finish s (startBg (invalidateRegion (taken s src) kid) src .regionDestroy [.part part, .region kid]))))) ∧
    (takes s src .regionRekey k = true →
      (regionAt s kid = none → exec (.bcpRegionRekey src) s = .next (finish s (reply (taken s src) src .regionRekey k.tag
        (if kidInGrant (partAt s part) kid = true then stStaleHandle else stNotPermitted) []))) ∧
      (∀ r, regionAt s kid = some r → r.part = part → (r.kind = 1 → r.authority = true) →
        (r.sweep.isSome = true → exec (.bcpRegionRekey src) s = .next (finish s (reply (taken s src) src .regionRekey k.tag stBusy []))) ∧
        (r.sweep = none → r.kind = 1 → (∀ h ∈ s.fab.hot, h.kid ≠ kid) → ∃ u, exec (.bcpRegionRekey src) s = .next (finish s u) ∧
          regionAt u kid = some { r with keyGen := r.keyGen + 1, readOnly := false, sweep := some 0 } ∧
          tget u.mem.regGen kid = some (r.keyGen + 1) ∧
          (mb u src).replies = (mb s src).replies ++ [replyWords (opVal .regionRekey) stOk k.tag [toW (r.keyGen + 1)]]) ∧
        (r.sweep = none → r.kind = 2 → (∀ h ∈ s.fab.hot, h.kid ≠ kid) → ∃ u g, exec (.bcpRegionRekey src) s = .next (finish s u) ∧
          regionAt u kid = some g ∧ g.keyGen = r.keyGen + 1 ∧ g.epoch = 0 ∧
          (mb u src).replies = (mb s src).replies ++ [replyWords (opVal .regionRekey) stOk k.tag [toW (r.keyGen + 1)]])))

/-! Partitions, their contexts, and their migration. -/

/-- BCP_PARTITION_CREATE, BCP_PARTITION_DESTROY, PT_RESET, PARTITION_DRAIN_DONE, TDISP_ERROR_ENTRY (05 R160; 11 R348, R349, R372, R373,
R380): a create checks in order and installs its grant, with the lowest free slots and ways, the PGDs zeroed and the generation one
higher. A destruction, a PT_RESET that no TDISP lock withholds and an entry into ERROR squash the partition's work; the reset ends once
its records are out, with PT_INT.RESET_DONE. -/
def Obligations.PartitionLife : Prop :=
  ∀ (s : State) (src p : Nat) (k : Packet) (who : Requester), p < 16 →
    let r := partAt s p; let g := grantOf k.params
    (takes s src .partitionCreate k = true → fld (pw k.params 0) 3 0 = p →
      (∀ st, createCheck s p g = some st → exec (.bcpPartitionCreate src) s = .next (finish s (reply (taken s src) src .partitionCreate k.tag st []))) ∧
      (r.live = true → createCheck s p g = some stBusy) ∧
      (r.live = false → r.tdisp = 0 → g.kidBase < 16 → createCheck s p g = some stBadParam) ∧
      (createCheck s p g = none → ∃ u, exec (.bcpPartitionCreate src) s = .next (finish s u) ∧ (partAt u p).live = true ∧
        (partAt u p).gen = (r.gen + 1) % 2 ^ 32 ∧ (partAt u p).kidBase = g.kidBase ∧ (partAt u p).kidCount = g.kidCount ∧
        (partAt u p).slots = (freeSlotNos s).take g.slots ∧ (partAt u p).ways = (freeWayNos s).take g.ways ∧ (partAt u p).pasids = g.pasids ∧
        (partAt u p).tdisp = 0 ∧ (∀ i, i ≠ p → partAt u i = partAt s i) ∧ (∀ x ∈ u.upd.pgd, x.1 / 4096 ≠ p) ∧
        u.mem = s.mem ∧ u.keys = s.keys ∧ u.links = s.links ∧ u.dom = s.dom ∧ u.parts.ctx = s.parts.ctx ∧
        (mb u src).replies = (mb s src).replies ++ [replyWords (opVal .partitionCreate) stOk k.tag [toW ((r.gen + 1) % 2 ^ 32)]])) ∧
    (takes s src .partitionDestroy k = true → fld (pw k.params 0) 3 0 = p →
      (r.live = false → exec (.bcpPartitionDestroy src) s = .next (finish s (reply (taken s src) src .partitionDestroy k.tag stStaleHandle []))) ∧
      (r.live = true → exec (.bcpPartitionDestroy src) s = .next (finish s (startPartReset
        (setPart (startBg (taken s src) src .partitionDestroy [.part p]) p { r with destroying := true, tdisp := 3 }) p)))) ∧
    (opens s who (ptOff p 8) = true →
      (who.priv = true → r.tdisp = 1 ∨ r.tdisp = 2 → exec (.ptReset p who) s = .next (finish s (emit (quiet s) (.regRsp 0 false)))) ∧
      (who.priv = false ∨ (r.tdisp ≠ 1 ∧ r.tdisp ≠ 2) →
        exec (.ptReset p who) s = .next (finish s (emit (startPartReset (quiet s) p) (.regRsp 0 false))))) ∧
    (engUp s = true →
      (r.resetting = false → exec (.partitionDrainDone p) s = .next (finish s (quiet s))) ∧
      (r.resetting = true → ctxsOf s p = [] → ownerTags s p = [] → r.destroying = false →
        exec (.partitionDrainDone p) s = .next (finish s (setBits (setPart (quiet s) p
          { r with resetting := false, stopping := false, tdisp := if r.stopping = true then 0 else r.tdisp }) (ptOff p 0x40) 1))) ∧
      (s.parts.errDue.contains p = false → exec (.tdispErrorEntry p) s = .next (finish s (quiet s))) ∧
      (s.parts.errDue.contains p = true → r.live = true →
        exec (.tdispErrorEntry p) s = .next (finish s (startPartReset (setPart
          { quiet s with parts := { s.parts with errDue := s.parts.errDue.filter (· != p) } } p { r with tdisp := 3 }) p)))) ∧
    (r.live = true → r.resetting = false → ctxsOf s p = [] → s.fab.parks = [] →
      startPartReset s p = setPart s p { r with resetting := true }) ∧
    ((r.live = false ∨ r.resetting = true) → startPartReset s p = s)

/-- BCP_CONTEXT_TEARDOWN, BCP_CONTEXT_RESET, SHARED_SIGNAL_ABANDON, BACKGROUND_COMMAND_DONE (03 R94; 09 R309; 11 R369 to R373; 12 R396): a
context that does not exist is stale. A reset without descriptors and with every unit confirmed ends at once, every enabled queue's HEAD at
its TAIL and the context out of FAULTED. A torn-down context without descriptors and key IDs of its own stops, and is freed as its command
ends. A destroyed region goes once its writes are over; a partition without regions and contexts goes once its reset and its log are over.
An abandoned signal, unless a reduction holds its SUB, first adds 1 to its ABANDONED word, 8 bytes on, then its VALUE. -/
def Obligations.ContextEnds : Prop :=
  ∀ (s : State) (src : Nat) (k : Packet), let c := fld (pw k.params 0) 11 0
    (takes s src .contextReset k = true →
      (ctxAt s c = none → exec (.bcpContextReset src) s = .next (finish s (reply (taken s src) src .contextReset k.tag stStaleHandle []))) ∧
      (∀ x, ctxAt s c = some x → (∀ d ∈ s.parts.desc, d.2.ctx ≠ c) → (∀ l ∈ s.ladder.late, l.1 ≠ c) → ∃ u y, exec (.bcpContextReset src) s = .next (finish s u) ∧
        ctxAt u c = some y ∧ y.faulted = false ∧ y.part = x.part ∧ y.pasid = x.pasid ∧ y.slot = x.slot ∧
        y.queues = tmapV x.queues (fun _ q => if q.enabled then { q with head := q.tail } else q) ∧ (∀ i, i ≠ c → ctxAt u i = ctxAt s i) ∧
        (mb u src).replies = (mb s src).replies ++ [replyWords (opVal .contextReset) stOk k.tag []])) ∧
    (takes s src .contextTeardown k = true →
      (ctxAt s c = none → exec (.bcpContextTeardown src) s = .next (finish s (reply (taken s src) src .contextTeardown k.tag stStaleHandle []))) ∧
      (∀ x, ctxAt s c = some x → (∀ d ∈ s.parts.desc, d.2.ctx ≠ c) → x.own = [] → exec (.bcpContextTeardown src) s = .next (finish s
        (startBg (setCtx (taken s src) c { x with stopped := true, tearing := true }) src .contextTeardown [.part x.part])))) ∧
    (engUp s = true → (∀ b ∈ s.hub.bg, b.src ≠ src) ∨ fwActs s = false → exec (.backgroundCommandDone src) s = .next (finish s (quiet s))) ∧
    (engUp s = true → fwActs s = true → packetOf s src .contextTeardown = some k →
      ∀ x, ctxAt s c = some x → s.hub.bg = [{ src := src, op := .contextTeardown, holds := [.part x.part] }] → ∃ u, exec (.backgroundCommandDone src) s = .next (finish s u) ∧ u = reply (freeCtx (quiet s) c) src .contextTeardown k.tag stOk
        [toW (s.parts.desc.countP (fun d => d.2.ctx == c && d.2.quiet) % 2 ^ 16), 0] ∧ ctxAt u c = none ∧ u.hub.bg = []) ∧
    (engUp s = true → fwActs s = true → ∀ h kid, s.hub.bg = [{ src := src, op := .regionDestroy, holds := h }] → packetOf s src .regionDestroy = some k →
      fld (pw k.params 0) 11 0 = kid →
      (regionQuiet s kid = true → exec (.backgroundCommandDone src) s = .next (finish s (reply (purgeRegion (quiet s) kid) src .regionDestroy k.tag stOk []))) ∧
      (regionQuiet s kid = false → exec (.backgroundCommandDone src) s = .next (finish s (quiet s)))) ∧
    (engUp s = true → ∀ d, (s.parts.abandon.find? (fun a => a.1 == d) = none → exec (.sharedSignalAbandon d) s = .next (finish s (quiet s))) ∧
      ∀ x, descAt s d = some x → let part := (partOfPasid s x.pasid).getD 0
        (subTaken s part (leAt x.raw 8 2) (leAt x.raw 10 1) = true → exec (.sharedSignalAbandon d) s = .next (finish s (quiet s))) ∧
        (subTaken s part (leAt x.raw 8 2) (leAt x.raw 10 1) = false →
        (s.parts.abandon.find? (fun a => a.1 == d) = some (d, false) → x.phase = .fetched → exec (.sharedSignalAbandon d) s = .next (finish s
          (sendSignal (setDesc (quiet s) d { x with phase := .running }) d part 4096 (leAt x.raw 8 2) (leAt x.raw 10 1) (leAt x.raw 16 6 + 8) 1))) ∧
        (s.parts.abandon.find? (fun a => a.1 == d) = some (d, true) → exec (.sharedSignalAbandon d) s = .next (finish s
          (sendSignal { quiet s with parts := { s.parts with abandon := s.parts.abandon.filter (fun a => a.1 != d) } } d part 4096
            (leAt x.raw 8 2) (leAt x.raw 10 1) (leAt x.raw 16 6) (leAt x.raw 24 8)))))) ∧
    (engUp s = true → fwActs s = true → ∀ h, let p := fld (pw k.params 0) 3 0; let r := partAt s p
      s.hub.bg = [{ src := src, op := .partitionDestroy, holds := h }] → packetOf s src .partitionDestroy = some k →
      (∀ x ∈ s.mem.region, x.2.part ≠ p) → ctxsOf s p = [] →
      (r.resetting = true ∨ r.log.active = true → exec (.backgroundCommandDone src) s = .next (finish s (quiet s))) ∧
      (r.resetting = false → r.log.active = false → exec (.backgroundCommandDone src) s = .next (finish s (reply (setPart (quiet s) p (partGone r)) src
        .partitionDestroy k.tag stOk []))))

/-- BCP_MIG_LOG_START, DIRTY_PAGE_LOG, INITIATOR_RESPONSE, BCP_MIG_FREEZE, MIG_FREEZE_TIMEOUT (11 R374, R375): a log starts empty at its
base; a page that is due is written as the next 8-byte entry, and once that write is answered COUNT rises and is written; where no room is
left OVERFLOW is set once with PT_INT; a STOP waits for the pages that are due. A freeze ends when nothing runs and everything is written
back; a partition whose work has not ended in time thaws with ST_TIMEOUT. BCP_MIG_SAVE, BCP_MIG_RESTORE (11 R376 to R378): a save is refused
without a freeze, without a key or without a salt, and marks the partition SAVED as its last fragment stands at the source. A restore
refuses a blob of another form, of another destination or source, one whose salt was used and one that does not verify, and installs its
partition frozen, with its contexts IDLE. What one block seals in segments, the other opens to the same bytes. -/
def Obligations.FreezeAndMigration : Prop :=
  (∀ (s : State) (src p : Nat) (k : Packet), p < 16 → let r := partAt s p
    (takes s src .migLogStart k = true → fld (pw k.params 0) 3 0 = p →
      (r.live = false → exec (.bcpMigLogStart src) s = .next (finish s (reply (taken s src) src .migLogStart k.tag stStaleHandle []))) ∧
      (r.live = true → wbit (pw k.params 0) 8 = true → r.log.active = false →
        exec (.bcpMigLogStart src) s = .next (finish s (reply (modLog (taken s src) p (fun l => { l with ending := false })) src .migLogStart
          k.tag stOk []))) ∧
      (r.live = true → wbit (pw k.params 0) 8 = true → r.log.active = true → r.log.due ≠ [] →
        exec (.bcpMigLogStart src) s = .next (finish s (startBg (modLog (taken s src) p (fun l => { l with ending := true })) src .migLogStart
          [.part p]))) ∧
      (r.live = true → wbit (pw k.params 0) 8 = true → r.log.active = true → r.log.due = [] → r.log.out = none →
        ∃ u, exec (.bcpMigLogStart src) s = .next (finish s u) ∧ (partAt u p).log.active = false ∧
          u.out = mreqOuts s true r.log.base 64 (leBytes 8 r.log.count ++ leBytes 1 (b2n r.log.overflow) ++ List.replicate 55 0) [] none) ∧
      (r.live = true → wbit (pw k.params 0) 8 = false → ∃ u, exec (.bcpMigLogStart src) s = .next (finish s u) ∧
        (partAt u p).log = { DirtyLog.off with active := true, base := pw64 k.params 1, pages := (pw k.params 3).toNat } ∧
        u.out = mreqOuts s true (pw64 k.params 1) 64 (leBytes 8 0 ++ [2#8] ++ List.replicate 55 0) [] none ∧
        (∀ i, i ≠ p → partAt u i = partAt s i))) ∧
    (engUp s = true → (r.log.due = [] ∨ r.log.active = false ∨ r.log.out.isSome = true → exec (.dirtyPageLog p) s = .next (finish s (quiet s))) ∧
      ∀ g i rest, r.log.due = (g, i) :: rest → r.log.active = true → r.log.out = none →
        (r.log.count < (r.log.pages * 4096 - 64) / 8 → ∃ u, exec (.dirtyPageLog p) s = .next (finish s u) ∧
          (partAt u p).log.count = r.log.count ∧ (partAt u p).log.due = rest ∧ (partAt u p).log.out = some (g, i) ∧
          u.out = mreqOuts s true (r.log.base + 64 + 8 * r.log.count) 8 (leBytes 8 (i % 16 + 16 * (g % 2 ^ 52))) [] none) ∧
        ((r.log.pages * 4096 - 64) / 8 ≤ r.log.count → r.log.overflow = false → ∃ u, exec (.dirtyPageLog p) s = .next (finish s u) ∧
          (partAt u p).log.overflow = true ∧ (partAt u p).log.count = r.log.count ∧ reg u (ptOff p 0x40) = reg s (ptOff p 0x40) ||| 2)) ∧
    (engUp s = true → ∀ id e x pick, tget s.fab.pm id = some e → e.use = .logEntry p → e.pasid = none → r.log.out = some x →
      r.log.ending = false → ∃ u, exec (.initiatorResponse id false 0 [] pick) s = .next (finish s u) ∧
        (partAt u p).log.count = r.log.count + 1 ∧ (partAt u p).log.out = none ∧
        u.out = mreqOuts s true r.log.base 64 (leBytes 8 (r.log.count + 1) ++
          leBytes 1 (b2n r.log.overflow + 2 * b2n r.log.active) ++ List.replicate 55 0) [] none) ∧
    (takes s src .migFreeze k = true → fld (pw k.params 0) 3 0 = p →
      (r.live = false → exec (.bcpMigFreeze src) s = .next (finish s (reply (taken s src) src .migFreeze k.tag stStaleHandle []))) ∧
      (r.live = true → wbit (pw k.params 0) 8 = true → r.saved = true →
        exec (.bcpMigFreeze src) s = .next (finish s (reply (taken s src) src .migFreeze k.tag stNotPermitted []))) ∧
      (r.live = true → wbit (pw k.params 0) 8 = true → r.saved = false → exec (.bcpMigFreeze src) s = .next (finish s
        (reply (setPart (taken s src) p { r with frozen := false, freezing := false }) src .migFreeze k.tag stOk []))) ∧
      (r.live = true → wbit (pw k.params 0) 8 = false → r.frozen = false → s.fab.waits = [] → exec (.bcpMigFreeze src) s = .next (finish s
        (endFreeze (startBg (setPart (taken s src) p { r with freezing := true }) src .migFreeze [.part p]) src k)))) ∧
    (fld (pw k.params 0) 3 0 = p → (partRuns s p = true → endFreeze s src k = s) ∧
      (partRuns s p = false → pinsOf s p = [] → pinsOf (pumpMem s) p = [] → dirtyItems (pumpMem s) p = [] → wbsOut (pumpMem s) p = false →
        endFreeze s src k = reply (setPart (pumpMem s) p { r with freezing := false, frozen := true }) src .migFreeze k.tag stOk [])) ∧
    (engUp s = true → (∀ b ∈ s.hub.bg, b.op ≠ .migFreeze) → exec (.migFreezeTimeout p) s = .next (finish s (quiet s))) ∧
    (engUp s = true → s.hub.bg = [{ src := src, op := .migFreeze, holds := [.part p] }] → packetOf s src .migFreeze = some k → partRuns s p = true →
      exec (.migFreezeTimeout p) s = .next (finish s (reply (setPart (quiet s) p { r with freezing := false }) src .migFreeze k.tag stTimeout [])))) ∧
  ((∀ (s : State) (src : Nat) (k : Packet), let p := fld (pw k.params 0) 3 0; let dst := fld (pw k.params 1) 15 0
    let own := s.dom.vertex.getD 0
    (takes s src .migSave k = true →
      ((partAt s p).live = false → exec (.bcpMigSave src) s = .next (finish s (reply (taken s src) src .migSave k.tag stStaleHandle []))) ∧
      ((partAt s p).live = true → (partAt s p).frozen = false →
        exec (.bcpMigSave src) s = .next (finish s (reply (taken s src) src .migSave k.tag stNotPermitted []))) ∧
      ((partAt s p).live = true → (partAt s p).frozen = true → (slotAt s 5).state = 2 →
        exec (.bcpMigSave src) s = .next (finish s (reply (taken s src) src .migSave k.tag stKeyOrphaned []))) ∧
      ((partAt s p).live = true → (partAt s p).frozen = true → (useKey s 5 0).1 = stOk → channelUp s = false ∨ s.hub.drbgRefuse = true →
        exec (.bcpMigSave src) s = .next (finish s (reply (taken s src) src .migSave k.tag stInternal []))) ∧
      ((partAt s p).live = true → (partAt s p).frozen = true → (useKey s 5 0).1 = stOk → channelUp s = true → s.hub.drbgRefuse = false →
        let d := draw (useKey (taken s src) 5 0).2 16
        let body := blobBody s p
        let head := blobHead own dst p d.1 body.length
        ∀ segs t, sealSegs (migrationKey d.2 (migCtx own dst p d.1)) head (ceilDiv body.length 4096) 0 body = (some segs, t) →
          ∃ u, exec (.bcpMigSave src) s = .next (finish s u) ∧ ((partAt u p).saved = true ∨ (mb u src).saving = some p) ∧
            (partAt u p).frozen = true ∧ (mb u src).packet = none ∧ u.mem = s.mem ∧ u.parts.ctx = s.parts.ctx ∧ u.upd = s.upd)) ∧
    (takes s src .migRestore k = true → let head := k.blob.take 64; let v := fld (pw k.params 1) 15 0
      (leAt head 0 4 ≠ 0x424D5654 ∨ leAt head 4 2 ≠ 1 ∨ ownVertex s (leAt head 8 2) = false ∨ leAt head 6 2 ≠ v →
        exec (.bcpMigRestore src) s = .next (finish s (reply (taken s src) src .migRestore k.tag stNotPermitted []))) ∧
      (leAt head 0 4 = 0x424D5654 → leAt head 4 2 = 1 → ownVertex s (leAt head 8 2) = true → leAt head 6 2 = v →
        (useKey s 5 0).1 = stOk → channelUp s = true →
        let len := leAt head 32 4
        let d := (useTimes (migrationKey (useKey (taken s src) 5 0).2 (migCtx v own (leAt head 10 1) (slice head 16 16))) migSlot 7
          (ceilDiv len 4096)).2
        let opened := openSegs (slotAt d migSlot).key head (ceilDiv len 4096) 0 len (k.blob.drop 64)
        (opened = none ∨ s.parts.salts.contains (slice head 16 16) = true →
          exec (.bcpMigRestore src) s = .next (finish s (reply d src .migRestore k.tag stNotPermitted []))) ∧
        (∀ body, opened = some body → s.parts.salts.contains (slice head 16 16) = false →
          let recs := blobRecs body.length body
          let g := grantFrom (((recs.find? (fun x => x.1 == 1)).map (·.2)).getD [])
          (∀ st, createCheck d p g = some st → exec (.bcpMigRestore src) s = .next (finish s (reply d src .migRestore k.tag st []))) ∧
          (createCheck d p g = none → s.parts.ctx.length + recs.countP (fun x => x.1 == 2) ≤ 4096 → ∃ u, exec (.bcpMigRestore src) s = .next (finish s u) ∧
            u.parts.salts.contains (slice head 16 16) = true ∧ (partAt u p).live = true ∧ (partAt u p).frozen = true ∧
            (∀ c y, ctxAt u c = some y → ctxAt s c = some y ∨ (y.part = p ∧ y.faulted = false ∧ y.stopped = false)) ∧
            (mb u src).replies = (mb s src).replies ++ [replyWords (opVal .migRestore) stOk k.tag []]))))) ∧
  ∀ (s t : State) (head body segs : Bytes), sealSegs s head (ceilDiv body.length 4096) 0 body = (some segs, t) →
    openSegs (slotAt s migSlot).key head (ceilDiv body.length 4096) 0 body.length segs = some body)

/-! Debug: authorization, counters, dumps, watchpoints, and the debug port. -/

/-- BCP_DEBUG_AUTH (13 R433 to R435): levels 3 and 4 are an M source's; a challenge without a qualifying session is refused, and one that is
granted keeps its nonce. A respond spends the nonce; without a fitting one, or where the signatures fail, it is refused and sets AUTH_FAIL;
one that passes adds its levels, and latches the test root first for levels 3 and 4. A revoke takes levels away. -/
def Obligations.DebugLevels : Prop :=
  ∀ (s : State) (src : Nat) (k : Packet) (sigs : Bool), takes s src .debugAuth k = true →
    let l := BitVec.ofNat 5 (fld (pw k.params 1) 4 0); let op := fld (pw k.params 0) 7 0
    (isM src = false → l.getLsbD 3 = true ∨ l.getLsbD 4 = true → levelsOk s src l = false) ∧
    (l.getLsbD 0 = true → isMember s = false → levelsOk s src l = false) ∧
    (op = 0 → (levelsOk s src l = false ∨ authSession s src = none →
        exec (.bcpDebugAuth src sigs) s = .next (finish s (reply (taken s src) src .debugAuth k.tag stNotPermitted []))) ∧
      (levelsOk s src l = true → (authSession s src).isSome = true → s.hub.drbgRefuse = true →
        exec (.bcpDebugAuth src sigs) s = .next (finish s (reply (taken s src) src .debugAuth k.tag stInternal []))) ∧
      (levelsOk s src l = true → (authSession s src).isSome = true → s.hub.drbgRefuse = false → ∃ u b, exec (.bcpDebugAuth src sigs) s = .next (finish s u) ∧
        b.length = 32 ∧ (dbgGrantOf u src).nonce = some (b, s.aon.ts) ∧ (dbgGrantOf u src).made = (dbgGrantOf s src).made ∧
        (mb u src).replies = (mb s src).replies ++ [replyWords (opVal .debugAuth) stOk k.tag (bytesWords b)])) ∧
    (op = 1 → (levelsOk s src l = false ∨ nonceFits s src (wordBytes (slice k.params 2 8)) = false ∨ sigs = false ∨ authSession s src = none →
        ∃ u, exec (.bcpDebugAuth src sigs) s = .next (finish s u) ∧ (dbgGrantOf u src).nonce = none ∧ (dbgGrantOf u src).made = (dbgGrantOf s src).made ∧
          wbit (reg u 0x70004) 3 = true ∧ u.aon = s.aon ∧
          (mb u src).replies = (mb s src).replies ++ [replyWords (opVal .debugAuth) stNotPermitted k.tag []]) ∧
      (∀ sid, levelsOk s src l = true → nonceFits s src (wordBytes (slice k.params 2 8)) = true → sigs = true → authSession s src = some sid →
        ∃ u, exec (.bcpDebugAuth src sigs) s = .next (finish s u) ∧ (dbgGrantOf u src).nonce = none ∧
          (∀ i, l.getLsbD i = true → holdsLevel u src i = true) ∧ (l.getLsbD 3 = true ∨ l.getLsbD 4 = true → u.aon.testRoot = true) ∧
          (l.getLsbD 3 = false → l.getLsbD 4 = false → u.aon = s.aon ∧ u.keys = s.keys ∧
            (∀ i, holdsLevel s src i = true → holdsLevel u src i = true)))) ∧
    (2 ≤ op → ∃ u, exec (.bcpDebugAuth src sigs) s = .next (finish s u) ∧ (∀ i, l.getLsbD i = true → holdsLevel u src i = false) ∧
      (∀ i, l.getLsbD i = false → holdsLevel u src i = holdsLevel s src i) ∧ (∀ i j, i ≠ src → holdsLevel u i j = holdsLevel s i j))

/-- BCP_PMU_CONFIG, BCP_DUMP_ARM, BCP_WATCH_SET, COARSEN_TICK, TS_ADJ_GO (13 R423, R424, R429, R431, R436, R441): a counter takes a listed
event, its owner's alone; a partition counts its own work only. Arming a dump needs level 0 and a free slot, a watchpoint level 2 and a
range that is not empty. At a millisecond the coarsened views follow; the timestamp moves forward once. DBG_RING_ENABLE, DUMP_FRAME_RX (13
R439): a write below 2 disables the ring and drops its key; one that enables it restarts its records. A DUMP frame without a key, without
level 0, in a full ring or at an exhausted key is dropped, counted in DBG_RING_LOST, and sets RING_FULL; any other takes the next record. -/
def Obligations.DebugSettingsAndRing : Prop :=
  (∀ (s : State) (src : Nat) (k : Packet) (who : Requester), let p := k.params
    (takes s src .pmuConfig k = true → let i := fld (pw p 0) 6 0; let old := tgetD s.dbg.cnt i Counter.free
      (∀ st, pmuCheck s src p = some st → exec (.bcpPmuConfig src) s = .next (finish s (reply (taken s src) src .pmuConfig k.tag st []))) ∧
      (eventListed (fld (pw p 1) 9 0) = false → pmuCheck s src p = some stBadParam) ∧
      (pmuCheck s src p = none → wbit (pw p 1) 20 = true → ∃ u c, exec (.bcpPmuConfig src) s = .next (finish s u) ∧ tget u.dbg.cnt i = some c ∧
        c.owner = src ∧ c.event = fld (pw p 1) 9 0 ∧ c.enable = true ∧ c.val = 0 ∧ c.ovf = false ∧ c.filter = wbit (pw p 2) 4 ∧
        (∀ j, j ≠ i → tget u.dbg.cnt j = tget s.dbg.cnt j) ∧ wbit (reg u (0x60010 + 4 * (i / 32))) (i % 32) = false) ∧
      (pmuCheck s src p = none → wbit (pw p 1) 20 = false → exec (.bcpPmuConfig src) s = .next (finish s (reply
        { taken s src with dbg := { s.dbg with cnt := tset s.dbg.cnt i { old with owner := 31, enable := false } } } src .pmuConfig k.tag stOk [])))) ∧
    (takes s src .dumpArm k = true → let dest := fld (pw p 3) 15 0
      (holdsLevel s src 0 = false → exec (.bcpDumpArm src) s = .next (finish s (reply (taken s src) src .dumpArm k.tag stNotPermitted []))) ∧
      (holdsLevel s src 0 = true → wbit (pw p 4) 0 = false → ownVertex s dest = true ∨ otherMember s dest = true →
        (∀ i, lowestFrom (fun i => (tget s.dbg.arms i).isNone) 8 0 = some i → exec (.bcpDumpArm src) s = .next (finish s (reply
          { taken s src with dbg := { s.dbg with arms := tset s.dbg.arms i { tag := (pw p 0).toNat, step := pw64 p 1, dest := dest, src := src } } }
          src .dumpArm k.tag stOk [toW i]))) ∧
        (lowestFrom (fun i => (tget s.dbg.arms i).isNone) 8 0 = none →
          exec (.bcpDumpArm src) s = .next (finish s (reply (taken s src) src .dumpArm k.tag stNoResource [])))) ∧
      (holdsLevel s src 0 = true → wbit (pw p 4) 0 = true → (∀ a ∈ s.dbg.arms, a.2.tag ≠ (pw p 0).toNat) →
        exec (.bcpDumpArm src) s = .next (finish s (reply (taken s src) src .dumpArm k.tag stBadParam [])))) ∧
    (takes s src .watchSet k = true → let i := fld (pw p 0) 2 0; let old := tgetD s.dbg.watch i Watch.free
      (holdsLevel s src 2 = false → exec (.bcpWatchSet src) s = .next (finish s (reply (taken s src) src .watchSet k.tag stNotPermitted []))) ∧
      (holdsLevel s src 2 = true → pw64 p 4 < pw64 p 2 → exec (.bcpWatchSet src) s = .next (finish s (reply (taken s src) src .watchSet k.tag stBadParam []))) ∧
      (holdsLevel s src 2 = true → pw64 p 2 ≤ pw64 p 4 → fld (pw p 1) 7 4 < csCount s.size → (old.owner = 31 ∨ old.owner = src) → ∃ u w,
        exec (.bcpWatchSet src) s = .next (finish s u) ∧ tget u.dbg.watch i = some w ∧ w.enable = wbit (pw p 1) 2 ∧
        (w.enable = true → w.owner = src ∧ w.base = pw64 p 2 ∧ w.limit = pw64 p 4 ∧ w.port = fld (pw p 1) 7 4) ∧ (w.enable = false → w.owner = 31) ∧
        (∀ j, j ≠ i → tget u.dbg.watch j = tget s.dbg.watch j))) ∧
    (s.aon.porN = true → ∃ u, exec .coarsenTick s = .next (finish s u) ∧ u.dbg.cAon = s.aon.cnt ∧
      u.dbg.cnt = tmapV s.dbg.cnt (fun _ c => { c with cVal := c.val, cOvf := c.ovf, cSnap := c.snap }) ∧
      u.parts.part = tmapV s.parts.part (fun _ r => { r with cBw := r.bw }) ∧ u.aon = s.aon ∧ u.win = s.win) ∧
    (opens s who 0x60040 = true → let t := (reg s 0x60038).toNat + 2 ^ 32 * (reg s 0x6003C).toNat
      (s.aon.adjDone = false → s.aon.ts < t → exec (.tsAdjGo who) s = .next (finish s (emit
        { quiet s with aon := { s.aon with ts := t, adjDone := true } } (.regRsp 0 false)))) ∧
      (s.aon.adjDone = true ∨ t ≤ s.aon.ts → exec (.tsAdjGo who) s = .next (finish s (emit (setBits (quiet s) 0x60000 4) (.regRsp 0 false)))))) ∧
  (∀ (s : State) (w : Word) (who : Requester) (f : InFrame),
    (opens s who 0x70018 = true →
      (fld w 15 0 < 2 → ∃ u, exec (.dbgRingEnable w who) s = .next (finish s u) ∧ u.dbg.ringKey = none ∧ ringCount u = fld w 15 0 ∧ u.out = [.regRsp 0 false]) ∧
      (2 ≤ fld w 15 0 → 2 ≤ ringCount s → exec (.dbgRingEnable w who) s = .next (finish s (emit (quiet s) (.regRsp 0 false)))) ∧
      (2 ≤ fld w 15 0 → ringCount s < 2 → ∃ u, exec (.dbgRingEnable w who) s = .next (finish s u) ∧ ringCount u = fld w 15 0 ∧
        u.dbg.ringWr = 1 ∧ u.dbg.ringSeq = 0 ∧ (exportGrant s = none ∨ s.hub.drbgRefuse = true → u.dbg.ringKey = none) ∧
        (∀ g x, exportGrant s = some g → tget s.ident.sessions g.1 = some x → (useKey s 5 0).1 = stOk → s.hub.drbgRefuse = false → channelUp s = true →
          u.dbg.ringKey = some (slotAt u exportSlot).gen ∧ (slotAt u exportSlot).typ = 7 ∧ (slotAt u exportSlot).parent = 5 ∧
          (slotAt u exportSlot).state = 1 ∧ (slotAt u exportSlot).useCount = 0 ∧ u.dbg.ringGen = s.dbg.ringGen + 1))) ∧
    (engUp s = true → s.fab.inbox = [f] → f.hdr.op = opDump →
      let q := { quiet s with fab := { s.fab with inbox := [] } }
      (s.dbg.ringKey = none ∨ s.dbg.ringKey ≠ some (slotAt s exportSlot).gen ∨ mLevel s 0 = false ∨ ringCount s < 2 ∨
          ringNext s s.dbg.ringWr = ringRd s ∨ (useKey s exportSlot 6).1 ≠ stOk →
        exec .dumpFrameRx s = .next (finish s (setBits (bump q 0x70030) 0x70004 4))) ∧
      (s.dbg.ringKey = some (slotAt s exportSlot).gen → mLevel s 0 = true → 2 ≤ ringCount s → ringNext s s.dbg.ringWr ≠ ringRd s →
        (useKey s exportSlot 6).1 = stOk → ∃ u, exec .dumpFrameRx s = .next (finish s u) ∧ u.dbg.ringWr = ringNext s s.dbg.ringWr ∧
          u.dbg.ringSeq = s.dbg.ringSeq + 1 ∧ u.keys = (useKey s exportSlot 6).2.keys ∧
          ((slotAt s exportSlot).useLimit ≠ 0 → (slotAt u exportSlot).useCount = (slotAt s exportSlot).useCount + 1) ∧
          u.fab.inbox = [] ∧ u.aon.gapDump = false ∧ u.win = s.win ∧ ∃ b, u.out = mreqOuts s true
            ((reg s 0x70010).toNat + 2 ^ 32 * (reg s 0x70014).toNat + 4096 * s.dbg.ringWr) 4096 (padTo 4096 b) [] none)))

/-- DP_INVASIVE_WRITE, DP_SCAN_AUTH_WRITE, DP_HUB_HALT, HUB_BREAKPOINT, HUB_DRAIN_DONE, DP_HUB_RESUME, DP_RAM_DATA_ACCESS (13 R442, R443; 04
R127): below its level the debug port answers with an error and does nothing. Invasive debug and scan latch the test root before their bit
is set. A halt takes the Hub from RUNNING to DRAINING, the end of the drain to HALTED, RESUME back; only a halted Hub's RAM is read and
written. -/
def Obligations.DebugPort : Prop :=
  ∀ (s : State) (w : Word) (wr : Option Word) (n : Nat) (late : Bool), s.aon.porN = true →
    (dpOpen s 3 = false → (∀ c ∈ ([.dpInvasiveWrite w, .dpHubHalt, .dpHubResume, .dpRamDataAccess wr] : List Instr),
      exec c s = .next (finish s (emit (quiet s) (.dbgRsp 0 true))))) ∧
    (dpOpen s 4 = false → exec (.dpScanAuthWrite w) s = .next (finish s (emit (quiet s) (.dbgRsp 0 true)))) ∧
    (dpOpen s 3 = true → (∃ u, exec (.dpInvasiveWrite w) s = .next (finish s u) ∧ u.aon.testRoot = true ∧ invasiveOn u = wbit w 0 ∧
        (s.aon.testRoot = true → u.keys = s.keys ∧ u.out = [.dbgRsp 0 false])) ∧
      (invasiveOn s = true → s.hub.run = .running → ∃ u, exec .dpHubHalt s = .next (finish s u) ∧ u.hub.run = .draining ∧ u.hub.bpHit = 15 ∧ u.keys = s.keys) ∧
      (invasiveOn s = false ∨ s.hub.run ≠ .running → exec .dpHubHalt s = .next (finish s (emit (quiet s) (.dbgRsp 0 false)))) ∧
      (s.hub.run = .halted → exec .dpHubResume s = .next (finish s (emit (takeAcks (admitAll
        { quiet s with hub := { s.hub with run := .running, ram := [] } })) (.dbgRsp 0 false)))) ∧
      (s.hub.run ≠ .halted → exec .dpHubResume s = .next (finish s (emit (quiet s) (.dbgRsp 0 false)))) ∧
      (s.hub.run ≠ .halted → exec (.dpRamDataAccess wr) s = .next (finish s (emit (quiet s) (.dbgRsp 0 true)))) ∧
      (s.hub.run = .halted → ∀ v, wr = some v → ∃ u, exec (.dpRamDataAccess wr) s = .next (finish s u) ∧
        tget u.hub.ram (fld (dpWord s 0x20) 19 2) = some v ∧ u.out = [.dbgRsp 0 false]) ∧
      (s.hub.run = .halted → wr = none → ∃ u v, exec (.dpRamDataAccess wr) s = .next (finish s u) ∧ u.out = [.dbgRsp v false] ∧
        tget u.hub.ram (fld (dpWord s 0x20) 19 2) = some v ∧ (∀ x, tget s.hub.ram (fld (dpWord s 0x20) 19 2) = some x → v = x))) ∧
    (dpOpen s 4 = true → ∃ u, exec (.dpScanAuthWrite w) s = .next (finish s u) ∧ u.aon.testRoot = true ∧ wbit (dpWord u 8) 0 = wbit w 0) ∧
    (engUp s = true → (bpArmed s n = false → exec (.hubBreakpoint n) s = .next (finish s (quiet s))) ∧
      (bpArmed s n = true → invasiveOn s = true → s.hub.run = .running →
        exec (.hubBreakpoint n) s = .next (finish s { quiet s with hub := { s.hub with run := .draining, bpHit := n, drainLate := false } })) ∧
      (s.hub.run = .draining → exec (.hubDrainDone late) s = .next (finish s { quiet s with hub := { s.hub with run := .halted, drainLate := late } })) ∧
      (s.hub.run ≠ .draining → exec (.hubDrainDone late) s = .next (finish s (quiet s))))

/-! Identity, SPDM, and the host link. -/

/-- STORE_RESPONSE, BCP_FW_STAGE, KEY_PORT_ACK, KEY_PORT_TIMEOUT (02 R46 to R48; 03 R74, R76, R78; 05 R156): without a STORE key an image
is refused; only an image that passes every check, its SVN at least OTP's minimum, is made pending, once both copies of the pointer are
written. While the firmware does not act, a result waits. The key port answers its oldest transfer: a GO marks the key, a STOP or a failed
program drops it, a failure is answered and reported. IDE_KM_QUERY, IDE_KM_KEY_PROG, IDE_KM_K_SET_GO, IDE_KM_K_SET_STOP (02 R46; 05 R153,
R155 to R158, R160): in a session of mailbox 0 that may run IDE_KM, with PortIndex 0, the query answers 16 streams, a key, once no miss is
pending (01 R23), goes to the key port once and is kept with its check value, a second program of it is compared alone, and GO and STOP go
to the key port; a STOP makes the partitions locked on the stream due for ERROR. -/
def Obligations.HostKeysAndStore : Prop :=
  (∀ (s : State) (src : Nat) (k : Packet) (v : FwVerdict) (ok : Bool) (data : Bytes) (st : Nat),
    (takes s src .fwStage k = true →
      (storeReady s = false → k.more = true → exec (.bcpFwStage src v) s = .next (finish s (reply (taken s src) src .fwStage k.tag stNotPermitted []))) ∧
      (storeReady s = false → k.more = false → exec (.bcpFwStage src v) s = .next (finish s (reply
        (absorbZero (taken s src) (9 + (imageOf k.blob).body.length)) src .fwStage k.tag stNotPermitted []))) ∧
      (storeReady s = true → exec (.bcpFwStage src v) s = .next (finish s (fwStage (taken s src) src k v)))) ∧
    (imageOk s (imageOf k.blob) v = true → v.keys = true ∧ v.mldsa = true ∧ v.ecdsa = true ∧ leAt k.blob 0 4 = 0x57465654 ∧ leAt k.blob 4 4 = 1 ∧
      minSvn s ≤ leAt k.blob 8 4 ∧ leAt k.blob 12 4 ≤ 0x00030200 ∧ leAt k.blob 16 4 % 64 = 0 ∧ leAt k.blob 16 4 ≤ 385024 ∧
      measure 1 (slice k.blob 0x2000 (leAt k.blob 16 4)) = slice k.blob 0x20 64) ∧
    (engUp s = true → fwActs s = false → exec (.storeResponse ok data) s = .next (finish s (quiet s))) ∧
    (engUp s = true → fwActs s = true → let q := { quiet s with hub := { s.hub with store := [] } }
      (s.hub.store = [] → exec (.storeResponse ok data) s = .next (finish s (quiet s))) ∧
      (∀ r, s.hub.store = [r] → r.src = none → exec (.storeResponse true data) s = .next (finish s q)) ∧
      (∀ r h, s.hub.store = [r] → r.src = some src → s.hub.storeFailed = [] → packetOf s src .fwStage = some k →
        s.hub.bg = [{ src := src, op := .fwStage, holds := h }] →
        (s.hub.stagedLast = none → exec (.storeResponse true data) s = .next (finish s (replyPending q src k []))) ∧
        (∀ n, s.hub.stagedLast = some (0, n) → exec (.storeResponse true data) s = .next (finish s (reply q src .fwStage k.tag stNotPermitted []))) ∧
        (∀ n, s.hub.stagedLast = some (2, n) → exec (.storeResponse true data) s = .next (finish s (reply
          { q with hub := { q.hub with stagedPending := true } } src .fwStage k.tag stOk [toW n, toW ((s.hub.ptr.map (·.1)).getD 0)]))) ∧
        (∃ u, exec (.storeResponse false data) s = .next (finish s u) ∧
          (s.aon.alarms.length < 256 → (mb u src).replies = (mb s src).replies ++ [replyWords (opVal .fwStage) stInternal k.tag []] ∧ u.hub.stagedPending = s.hub.stagedPending)))) ∧
    (engUp s = true → fwActs s = false → exec .keyPortTimeout s = .next (finish s (quiet s)) ∧
      exec (.keyPortAck st) s = .next (finish s { quiet s with ident := { s.ident with acks := s.ident.acks ++ [st] } })) ∧
    (engUp s = true → fwActs s = true → (s.ident.keyQ = [] → exec (.keyPortAck st) s = .next (finish s (quiet s)) ∧ exec .keyPortTimeout s = .next (finish s (quiet s))) ∧
      ∀ x rest, s.ident.keyQ = x :: rest → let q := { quiet s with ident := { s.ident with keyQ := rest } }
        (x.op = 0 → x.fromBlock = false → exec (.keyPortAck 0) s = .next (finish s (spdmSay q (.mbox 0) (.kpAck .ok)))) ∧
        (x.op = 1 → x.fromBlock = false → exec (.keyPortAck 0) s = .next (finish s (spdmSay { q with ident := { q.ident with
          ide := s.ident.ide.map (fun e => if e.key = x.key then { e with go := true } else e) } } (.mbox 0) .goStopAck))) ∧
        (x.op = 2 → ∃ u, exec (.keyPortAck 0) s = .next (finish s u) ∧ (∀ e ∈ u.ident.ide, e.key ≠ x.key) ∧
          (x.fromBlock = false → .spdm (.mbox 0) .goStopAck ∈ u.out)) ∧
        (x.op = 0 → st ≠ 0 → ∃ u, exec (.keyPortAck st) s = .next (finish s u) ∧ (∀ e ∈ u.ident.ide, e.key ≠ x.key) ∧
          (x.fromBlock = false → .spdm (.mbox 0) (.kpAck .unspecified) ∈ u.out)) ∧
        (x.op ≠ 0 → x.fromBlock = false → exec .keyPortTimeout s = .next (finish s
          (spdmSay (ioEvent q 0xFF 0 stTimeout 0 0 0 0) (.mbox 0) (.error .unspecified)))))) ∧
  (∀ (s : State) (n port iv : Nat) (key : IdeKey) (data : BitVec 256) (x : Session), asks s 0 (some n) = true → sessionOf s (.mbox 0) n = some x →
    let say := fun (r : SpdmRsp) => said s 0 (some n) (joined s 0 (some n)) r
    let all : List Instr := [.ideKmQuery n port, .ideKmKeyProg n port key data iv, .ideKmKSetGo n port key, .ideKmKSetStop n port key]
    (missPending s = true → exec (.ideKmKeyProg n port key data iv) s = .next (finish s (quiet s))) ∧
    (ideAllowed s x = false → ∀ r ∈ all, (missPending s = true → r ≠ .ideKmKeyProg n port key data iv) → exec r s = .next (say (.kpAck .unspecified))) ∧
    (ideAllowed s x = true → port ≠ 0 → ∀ r ∈ all, (missPending s = true → r ≠ .ideKmKeyProg n port key data iv) → exec r s = .next (say (.kpAck .unsupportedPort))) ∧
    (ideAllowed s x = true → port = 0 →
      exec (.ideKmQuery n port) s = .next (say (.ideQuery 0 16)) ∧
      (ideKeyOk key = false → ∀ r ∈ all.drop 1, (missPending s = true → r ≠ .ideKmKeyProg n port key data iv) → exec r s = .next (say (.kpAck .unsupportedValue))) ∧
      (missPending s = false → ideKeyOk key = true → (slotAt s 2).state ≠ 1 → exec (.ideKmKeyProg n port key data iv) s = .next (say (.kpAck .unspecified))) ∧
      (missPending s = false → ideKeyOk key = true → (slotAt s 2).state = 1 → ∀ e, s.ident.ide.find? (fun e => e.key == key) = some e →
        ∃ u, exec (.ideKmKeyProg n port key data iv) s = .next (finish s u) ∧ u.ident.ide = s.ident.ide ∧ u.ident.keyQ = s.ident.keyQ ∧ u.out = [.spdm (.mbox 0) (.kpAck
          (if e.check = deriveKey (keyBytes (slotAt s 2).key) "ide" (ideCtx key data (iv % 2 ^ 64)) then .ok else .unsupportedValue))]) ∧
      (missPending s = false → ideKeyOk key = true → (slotAt s 2).state = 1 → (∀ e ∈ s.ident.ide, e.key ≠ key) → (ideStreams s).length < 16 → ∀ m, lowestFree s = some m →
        ∃ u, exec (.ideKmKeyProg n port key data iv) s = .next (finish s u) ∧ (slotAt u m).typ = 0xA ∧ (slotAt u m).state = 1 ∧ (slotAt u m).parent = 2 ∧
          (∃ e ∈ u.ident.ide, e.key = key ∧ e.slot = m ∧ e.go = false) ∧ .keyReq 0 key data (iv % 2 ^ 64) ∈ u.out) ∧
      (ideKeyOk key = true → ∃ u, exec (.ideKmKSetGo n port key) s = .next (finish s u) ∧ u.out = [.keyReq 1 key 0 0] ∧
        u.ident.keyQ = s.ident.keyQ ++ [{ op := 1, key := key, hold := 0, iv := 0, fromBlock := false }] ∧ u.parts = s.parts) ∧
      (ideKeyOk key = true → ∃ u, exec (.ideKmKSetStop n port key) s = .next (finish s u) ∧ u.out = [.keyReq 2 key 0 0] ∧
        u.ident.keyQ = s.ident.keyQ ++ [{ op := 2, key := key, hold := 0, iv := 0, fromBlock := false }] ∧
        ∀ p ∈ s.parts.part, p.2.live = true → p.2.ideStream = some key.stream → p.2.tdisp = 1 ∨ p.2.tdisp = 2 → u.parts.errDue.contains p.1 = true)))

/-- BCP_SPDM, SPDM_KEY_EXCHANGE, SPDM_END_SESSION, HYB_KEM, HYB_SIGN on a mailbox (05 R144, R146, R148 to R152): a key exchange needs the
identity and one of 32 sessions, and opens a session under a new number, in hub RAM. A session that is used comes into hub RAM; beyond 8
there, one goes to its record, whose writes are counted. FINISH settles a session or ends it; HYB_KEM comes once, first after FINISH, with
its lengths; HYB_SIGN makes the session hybrid with TK and answers the block's own signature, or ends it. An ended session's debug grants
end with it. -/
def Obligations.SpdmSessions : Prop :=
  ∀ (s : State) (src n : Nat) (ek ct kpq : Bytes) (peer : PeerShown) (ok : Bool) (f : SpdmFinish),
    (asks s src none = true → let q := taken s src; let say := said s src none
      (s.ident.avail = false ∨ s.hub.drbgRefuse = true → exec (.spdmKeyExchange (.mbox src) false none) s = .next (say q (.error .unspecified))) ∧
      (s.ident.avail = true → s.hub.drbgRefuse = false → 32 ≤ s.ident.sessions.length →
        exec (.spdmKeyExchange (.mbox src) false none) s = .next (say q (.error .sessionLimit))) ∧
      (s.ident.avail = true → s.hub.drbgRefuse = false → s.ident.sessions.length < 32 → ∃ u x, exec (.spdmKeyExchange (.mbox src) false none) s = .next (finish s u) ∧
        u.out = [.spdm (.mbox src) (.session s.ident.nextSession)] ∧ tget u.ident.sessions s.ident.nextSession = some x ∧ x.conn = .mbox src ∧
        x.finish = false ∧ x.hybrid = false ∧ u.ident.nextSession = s.ident.nextSession + 1 ∧ tget u.ident.records s.ident.nextSession = none ∧
        ((residents s).length < 8 → u.keys = s.keys)) ∧
      exec (.bcpSpdm src .getVersion none) s = .next (say q (.content [0x12#8, 0x13#8])) ∧
      exec (.bcpSpdm src (.negotiate true) none) s = .next (say q (.content spdmAlgorithms)) ∧
      exec (.bcpSpdm src (.negotiate false) none) s = .next (say q (.error .unspecified)) ∧
      exec (.bcpSpdm src .unsupported none) s = .next (say q (.error .unsupportedRequest)) ∧
      (s.ident.avail = true → exec (.bcpSpdm src .getCertificate none) s = .next (say q (.content (certChain s)))) ∧
      (s.ident.avail = false → exec (.bcpSpdm src .getCertificate none) s = .next (say q (.error .unspecified)))) ∧
    (∀ x, tget s.ident.sessions n = some x → let j := joined s src (some n)
      tget j.ident.records n = none ∧ j.ident.sessions = s.ident.sessions ∧ slotAt j 2 = slotAt s 2 ∧
      ((tget s.ident.records n).isSome = true → 8 ≤ (residents s).length → ∀ i, (residents s).find? (· != n) = some i →
        (tget j.ident.records i).isSome = true ∧ tgetD j.ident.recCount i 0 = tgetD s.ident.recCount i 0 + 1)) ∧
    (heard s src true = true → channelUp s = true → ∀ x, sessionOf s (.mbox src) n = some x → x.finish = false →
      (f.ok = true → exec (.bcpSpdm src (.finish f) (some n)) s = .next (finish s (spdmSay (setSession (joined s src (some n)) n { x with
        finish := true, mutualAuth := f.mutualAuth, th2 := f.th2, ems := f.ems, leaf := f.leaf, rooted := f.rooted }) (.mbox src) (.content [])))) ∧
      (f.ok = false → exec (.bcpSpdm src (.finish f) (some n)) s = .next (finish s (spdmSay (endSession (joined s src (some n)) (.mbox src) n) (.mbox src)
        (.error .unspecified))))) ∧
    (asks s src (some n) = true → let j := joined s src (some n); let say := said s src (some n)
      ∀ x, sessionOf s (.mbox src) n = some x →
      (x.kem = true ∨ x.hybrid = true ∨ x.used = true → exec (.hybKem (.mbox src) n ek ct kpq) s = .next (say j (.error .unexpected))) ∧
      (x.kem = false → x.hybrid = false → x.used = false → ek.length ≠ 1568 ∨ ct.length ≠ 1568 ∨ s.hub.drbgRefuse = true →
        exec (.hybKem (.mbox src) n ek ct kpq) s = .next (say j (.error .unspecified))) ∧
      (x.kem = false → x.hybrid = false → x.used = false → ek.length = 1568 → ct.length = 1568 → s.hub.drbgRefuse = false →
        ∃ u, exec (.hybKem (.mbox src) n ek ct kpq) s = .next (finish s u) ∧
        sessionOf u (.mbox src) n = some { x with kem := true, transcript := [1#8, 0#8] ++ ek ++ [1#8, 0#8] ++ ct, kpq := kpq, used := true } ∧
        u.out = [.spdm (.mbox src) (.content ct)]) ∧
      (x.kem = false ∨ x.hybrid = true → exec (.hybSign (.mbox src) n ok peer) s = .next (say j (.error .unexpected))) ∧
      (x.kem = true → x.hybrid = false → exec (.hybSign (.mbox src) n false peer) s = .next (say (endSession j (.mbox src) n) (.error .unspecified))) ∧
      (x.kem = true → x.hybrid = false → let th := sha3 (x.th2 ++ x.transcript); exec (.hybSign (.mbox src) n true peer) s = .next
        (say (setSession (freeN j).2 n { x with hybrid := true, thHyb := th, tk := transferKey x th }) (.content (mldsaSig (aliasSeed s) th (freeN j).1)))) ∧
      exec (.spdmEndSession (.mbox src) n ok) s = .next (say (endSession j (.mbox src) n) (.content [])) ∧
      tget (endSession j (.mbox src) n).ident.sessions n = none ∧
      (∀ g ∈ (endSession j (.mbox src) n).dbg.grants, tget g.2.made n = none))

/-- HYB_CHAIN, HYB_SET_CHAIN, HYB_GET_KEY, SPDM_GET_CSR, SPDM_SET_CERTIFICATE, SPDM_GET_MEASUREMENTS (05 R141, R143, R145, R149, R151,
R154): chains are stored, the DeviceID key shown and requests for certificates answered in MANUF alone; a hybrid chain ends with the alias
link of this boot, over the alias certificate's digest. There are eight measurements; an unsigned answer is given in a session only. -/
def Obligations.SpdmAnswers : Prop :=
  ∀ (s : State) (src i : Nat) (sid : Option Nat) (chain : Bytes), asks s src sid = true → let j := joined s src sid; let say := said s src sid
    exec (.hybChain (.mbox src) sid) s = .next (say j (.content (s.ident.hybrid ++ aliasLink s))) ∧
    (∃ l, l.length = 2592 ∧ aliasLink s = [2#8, 0#8, 0#8, 0#8] ++ sha3 s.ident.aliasCert ++ List.replicate 12 0#8 ++ l ++ s.ident.aliasSig ++ [0#8]) ∧
    (s.otp.lc ≠ .manuf → ∀ r ∈ ([.hybSetChain src sid chain, .hybGetKey (.mbox src) sid, .spdmGetCsr (.mbox src) sid,
      .spdmSetCertificate src sid chain] : List Instr), exec r s = .next (say j (.error .unsupportedRequest))) ∧
    (s.otp.lc = .manuf →
      (s.ident.devId = none → exec (.hybGetKey (.mbox src) sid) s = .next (say j (.error .unspecified))) ∧
      (∀ d, s.ident.devId = some d → ∃ sig, sig.length = 4627 ∧
        exec (.hybGetKey (.mbox src) sid) s = .next (say (freeN j).2 (.content (mldsaPub d.1 ++ sig)))) ∧
      (∃ u b, exec (.spdmGetCsr (.mbox src) sid) s = .next (finish s u) ∧ u.out = [.spdm (.mbox src) (.content b)]) ∧
      (49152 < chain.length → exec (.hybSetChain src sid chain) s = .next (say j (.error .unspecified))) ∧
      (chain.length ≤ 49152 → ∃ u, exec (.hybSetChain src sid chain) s = .next (finish s u) ∧ u.ident.hybrid = chain ∧ u.ident.x509 = s.ident.x509) ∧
      (46080 < chain.length → exec (.spdmSetCertificate src sid chain) s = .next (say j (.error .unspecified))) ∧
      (chain.length ≤ 46080 → ∃ u, exec (.spdmSetCertificate src sid chain) s = .next (finish s u) ∧ u.ident.x509 = chain ∧ u.ident.hybrid = s.ident.hybrid)) ∧
    (sid = none → exec (.spdmGetMeasurements (.mbox src) sid i false) s = .next (say j (.error .unsupportedRequest))) ∧
    (s.ident.avail = false → exec (.spdmGetMeasurements (.mbox src) sid i true) s = .next (say j (.error .unspecified))) ∧
    (∀ sig, (sig = true → s.ident.avail = true) → (sig = false → sid.isSome = true) →
      exec (.spdmGetMeasurements (.mbox src) sid 0 sig) s = .next (say j (.content [8#8])) ∧
      exec (.spdmGetMeasurements (.mbox src) sid 3 sig) s = .next (say j (.content ([3#8, 7#8, 1#8, 8#8, 0#8] ++ leBytes 4 s.hub.svn ++ leBytes 4 (minSvn s)))) ∧
      (8 < i → i ≠ 0xFF → exec (.spdmGetMeasurements (.mbox src) sid i sig) s = .next (say j (.error .unspecified))))

/-- TDISP_LOCK_INTERFACE, TDISP_START_INTERFACE, TDISP_STOP_INTERFACE, TDISP_GET_INTERFACE_REPORT (05 R159, R160): LOCK takes
CONFIG_UNLOCKED to CONFIG_LOCKED while a stream has keys GO both ways, START takes CONFIG_LOCKED to RUN, STOP starts the partition's reset,
and a report is not given in ERROR; a Requester ID that is not the partition's, a partition that does not exist, and another state, are
answered with an error and keep theirs. -/
def Obligations.TdispStates : Prop :=
  ∀ (s : State) (t : Tdi) (sid : Option Nat), t.part < 16 → asks s (t.part + 1) sid = true → let p := t.part; let r := partAt s p
    let j := joined s (p + 1) sid; let say := said s (p + 1) sid
    (r.live = false ∨ t.rid ≠ ridOf s p → ∀ c ∈ ([.tdispLockInterface t sid, .tdispStartInterface t sid, .tdispStopInterface t sid,
      .tdispGetInterfaceReport t sid] : List Instr), exec c s = .next (say j .tdispError)) ∧
    (r.live = true → t.rid = ridOf s p →
      (∀ st, streamReady s = some st → r.tdisp = 0 → exec (.tdispLockInterface t sid) s = .next (say (setPart j p { r with tdisp := 1, ideStream := some st }) .tdispOk)) ∧
      (streamReady s = none ∨ r.tdisp ≠ 0 → exec (.tdispLockInterface t sid) s = .next (say j .tdispError)) ∧
      (r.tdisp = 1 → exec (.tdispStartInterface t sid) s = .next (say (setPart j p { r with tdisp := 2 }) .tdispOk)) ∧
      (r.tdisp ≠ 1 → exec (.tdispStartInterface t sid) s = .next (say j .tdispError)) ∧
      exec (.tdispStopInterface t sid) s = .next (say (startPartReset (setPart j p { r with stopping := true }) p) .tdispOk) ∧
      (r.tdisp = 3 → exec (.tdispGetInterfaceReport t sid) s = .next (say j .tdispError)) ∧
      (r.tdisp ≠ 3 → exec (.tdispGetInterfaceReport t sid) s = .next (say j (.content (reportBytes s p r)))))

/-! The domain: enrolment, its control messages, and rekeys. -/

/-- Domain control messages (05 R170): none at hand, or the firmware at rest, nothing happens; one of another domain, generation or length
is dropped. Every WD_ command (11 R353, R360, R364): a descriptor of another opcode, one that may not start, or a dispatcher that does not
run, changes nothing; the first of the common checks that fails ends the descriptor with its status. -/
def Obligations.UnitGuards : Prop :=
  (∀ (s : State) (f : InFrame), engUp s = true →
    ∀ r ∈ ([(.enrolledRx, 8, s.dom.gen, 4), (.commitRx, 9, s.dom.gen, 4), (.rekeyDistRx, 1, s.dom.gen + 1, 80), (.distAckRx, 2, s.dom.gen + 1, 4),
        (.switchRx, 3, s.dom.gen + 1, 0), (.switchAckRx, 4, s.dom.gen, 4), (.drainedRx, 5, s.dom.gen, 4), (.retireRx, 6, s.dom.gen, 0),
        (.chordAdvanceRx, 7, s.dom.gen, 4)] : List (Instr × Nat × Nat × Nat)),
      (s.fab.inbox = [] ∨ fwActs s = false → exec r.1 s = .next (finish s (quiet s))) ∧
      (fwActs s = true → s.fab.inbox = [f] → f.hdr.op = opMgmt → f.hdr.mbxs = false → isCtl f = true → leAt f.payload 0 1 = r.2.1 →
        leAt f.payload 4 8 ≠ domainId s ∨ leAt f.payload 12 4 ≠ r.2.2.1 ∨ f.payload.length ≠ 16 + r.2.2.2 →
        exec r.1 s = .next (finish s (ctlOut s)))) ∧
  (∀ (s : State) (d : Nat), engUp s = true →
    ∀ r ∈ ([(.wdCopyAsync d, 1), (.wdReduce d, 2), (.wdUpdate d .ok, 3), (.wdPublish d, 4), (.wdInvalidate d, 5), (.wdFence d, 6), (.wdSignal d, 7),
        (.wdWait d, 8), (.wdDumpMark d, 9), (.wdAbort d, 10)] : List (Instr × Nat)),
      (descAt s d = none ∨ dispatchUp s = false → exec r.1 s = .next (finish s (quiet s))) ∧
      ∀ x, descAt s d = some x →
        (x.opcode ≠ r.2 ∨ (∀ k ∈ candidates s, k.desc ≠ d) → exec r.1 s = .next (finish s (quiet s))) ∧
        (tries s d x r.2 = true → x.checked = false → ∀ st, headCheck s ((ctxPart s x.ctx).getD 0) r.2 x.raw = some st → ∃ u y, exec r.1 s = .next (finish s u) ∧
          descAt u d = some y ∧ y.phase = .done ∧ y.status = st ∧ y.raw = x.raw ∧ u.mem = s.mem ∧ u.fab = s.fab ∧ u.red = s.red ∧ u.upd = s.upd))

/-- BCP_DOMAIN_ENROL, ENROL_SESSION_TIMEOUT, ENROL_SESSION_RETRY (05 R162 to R164, R167; 07 R230): the checks refuse in order; the Lead of
a new domain draws its keys and is committed at generation 1; any other block opens a session with its parent, again until it is accepted,
and holds nothing of the domain when the enrolment fails. DOMAIN_JOIN, ENROLLED_RX, COMMIT_RX (05 R164 to R168, R176): a child takes the
keys its parent wrapped for it and reports itself; keys that do not open are refused. The Lead commits a vertex once, a member passes the
report up. A commit makes the child a member; a refusal of a vertex ends its enrolment; others are passed on. -/
def Obligations.Enrolment : Prop :=
  (∀ (s : State) (src : Nat) (k : Packet) (sigs : Bool), let v := fld (pw k.params 1) 15 0; let parent := fld (pw k.params 2) 15 0
    (takes s src .domainEnrol k = true →
      (k.more = true → exec (.bcpDomainEnrol src sigs) s = .next (finish s (replyPending (taken s src) src k (repeatedWords .domainEnrol k.params)))) ∧
      (k.more = false → ∀ st, enrolCheck s k sigs = some st → exec (.bcpDomainEnrol src sigs) s = .next (finish s (reply (taken s src) src .domainEnrol k.tag st []))) ∧
      (sigs = false → fld (reg s 0x1A008) 10 0 ≥ 16 → enrolCheck s k sigs = some stNotPermitted) ∧
      (k.more = false → enrolCheck s k sigs = none → s.dom.member = false → fld (pw k.params 0) 1 0 = 1 → s.hub.drbgRefuse = false →
        ∃ u, exec (.bcpDomainEnrol src sigs) s = .next (finish s u) ∧ u.dom.member = true ∧ u.dom.role = 2 ∧ u.dom.gen = 1 ∧ u.dom.vertex = some v ∧
          u.dom.enrolled = [v] ∧ u.dom.policy = some (parsePolicy k.blob) ∧ (slotAt u 3).state = 1 ∧ (slotAt u 3).typ = 4 ∧
          (slotAt u 5).state = 1 ∧ (slotAt u 5).typ = 5 ∧ isHeld u .domain = true ∧ u.parts = s.parts) ∧
      (k.more = false → enrolCheck s k sigs = none → s.dom.member = false → fld (pw k.params 0) 1 0 ≠ 1 →
        ∃ u e, exec (.bcpDomainEnrol src sigs) s = .next (finish s u) ∧ u.dom.enrol = some e ∧ e.parent = parent ∧ e.joined = false ∧ e.committed = false ∧
          u.dom.vertex = some v ∧ u.dom.member = false ∧ u.keys = s.keys ∧ isHeld u .domain = true) ∧
      (k.more = false → enrolCheck s k sigs = none → s.dom.member = false → fld (pw k.params 0) 1 0 = 1 → s.hub.drbgRefuse = true →
        ∃ u, exec (.bcpDomainEnrol src sigs) s = .next (finish s u) ∧ u.dom.member = false ∧ u.dom.vertex = none ∧ u.dom.policy = none ∧
          (mb u src).replies = (mb s src).replies ++ [replyWords (opVal .domainEnrol) stInternal k.tag []]) ∧
      (k.more = false → enrolCheck s k sigs = none → s.dom.member = true → ∃ u e, exec (.bcpDomainEnrol src sigs) s = .next (finish s u) ∧
        u.dom.enrol = some e ∧ u.dom.member = true ∧ u.dom.gen = s.dom.gen ∧ u.dom.policy = s.dom.policy ∧ u.keys = s.keys ∧
        (fld (pw k.params 0) 1 0 = 1 → e.committed = true ∧ u.dom.role = 2 ∧ u.dom.allMarked = true ∧ u.dom.parent = none) ∧
        (fld (pw k.params 0) 1 0 ≠ 1 → e.reparent = true ∧ e.parent = parent ∧ e.joined = false ∧ u.dom.role = s.dom.role))) ∧
    (engUp s = true → fwActs s = false → exec .enrolSessionTimeout s = .next (finish s (quiet s)) ∧ exec .enrolSessionRetry s = .next (finish s (quiet s))) ∧
    (engUp s = true → fwActs s = true → (s.dom.enrol = none → exec .enrolSessionTimeout s = .next (finish s (quiet s)) ∧ exec .enrolSessionRetry s = .next (finish s (quiet s))) ∧
      ∀ e, s.dom.enrol = some e →
        (e.accepted = true → exec .enrolSessionTimeout s = .next (finish s (quiet s)) ∧ exec .enrolSessionRetry s = .next (finish s (quiet s))) ∧
        (e.accepted = false → exec .enrolSessionRetry s = .next (finish s (spdmSend (quiet s) e.parent))) ∧
        (e.accepted = false → s.dom.member = false → packetOf s e.src .domainEnrol = some k → ∃ u, exec .enrolSessionTimeout s = .next (finish s u) ∧
          u.dom = Domain.reset ∧ u.links.chord = [] ∧ u.links.egress = [] ∧ u.links.ingress = [] ∧
          (mb u e.src).replies = (mb s e.src).replies ++ [replyWords (opVal .domainEnrol) stTimeout k.tag []]))) ∧
  (∀ (s : State) (f : InFrame) (n : Nat) (msg : Bytes),
    (engUp s = true → (s.dom.enrol = none → exec (.domainJoin n msg) s = .next (finish s (quiet s))) ∧
      ∀ e x, s.dom.enrol = some e → e.joined = false → e.committed = false → fwActs s = true → s.fab.inbox = [] → channelUp s = true →
        sessionOf s (.peer e.parent) n = some x → x.finish = true → x.hybrid = true → x.requester = true →
        let no := finish s (spdmSay (markUsed (loadSession (quiet s) n) (.peer e.parent) n) (.peer e.parent) (.content [1#8, 0#8, 0#8, 0#8]))
        (joinKeys s x msg = none → exec (.domainJoin n msg) s = .next no) ∧
        (∀ g a b, joinKeys s x msg = some (g, a, b) → e.reparent = true →
          ((slotAt s 3).key ≠ a ∨ (slotAt s 5).key ≠ b ∨ s.dom.gen ≠ g → exec (.domainJoin n msg) s = .next no) ∧
          ((slotAt s 3).key = a → (slotAt s 5).key = b → s.dom.gen = g → ∃ u l, exec (.domainJoin n msg) s = .next (finish s u) ∧
            u.dom.parent = some l ∧ l.peer = e.parent ∧ l.tk = x.tk ∧ u.dom.role = 1 ∧ u.dom.enrol = some { e with joined := true, committed := true })) ∧
        (∀ g a b, joinKeys s x msg = some (g, a, b) → e.reparent = false → ∃ u l, exec (.domainJoin n msg) s = .next (finish s u) ∧
          (slotAt u 3).key = a ∧ (slotAt u 3).state = 1 ∧ (slotAt u 5).key = b ∧ (slotAt u 5).state = 1 ∧ u.dom.gen = g ∧ u.dom.parent = some l ∧
          l.peer = e.parent ∧ l.tk = x.tk ∧ l.sends = 0 ∧ u.dom.enrol = some { e with joined := true } ∧ u.dom.member = s.dom.member)) ∧
    (ctlIn s f 8 s.dom.gen 4 = true → let v := leAt (f.payload.drop 16) 0 2
      (tget s.dom.children f.hdr.src = none → exec .enrolledRx s = .next (finish s (ctlOut s))) ∧
      (∀ c, s.dom.children = [(v, c)] → f.hdr.src = v → s.dom.role = 2 → s.dom.rekey = none →
        (s.dom.allMarked = false → s.dom.enrolled.contains v = false → s.dom.held.contains v = false → ∃ u, exec .enrolledRx s = .next (finish s u) ∧
          u.dom.enrolled = s.dom.enrolled ++ [v] ∧ u.dom.children = [(v, { c with committed := true })]) ∧
        (s.dom.enrolled.contains v = true → ∃ u, exec .enrolledRx s = .next (finish s u) ∧ u.dom.enrolled = s.dom.enrolled ∧ u.dom.children = [])) ∧
      (∀ c l, s.dom.children = [(v, c)] → f.hdr.src = v → s.dom.role ≠ 2 → s.dom.parent = some l →
        exec .enrolledRx s = .next (finish s (pushCtl { ctlOut s with dom := { s.dom with asked := tset s.dom.asked v v } } l.peer 8 s.dom.gen (leBytes 2 v ++ [0#8, 0#8]))))) ∧
    (ctlIn s f 9 s.dom.gen 4 = true → let v := leAt (f.payload.drop 16) 0 2; let result := leAt (f.payload.drop 16) 2 1
      (fromParent s f.hdr.src = false → exec .commitRx s = .next (finish s (ctlOut s))) ∧
      (fromParent s f.hdr.src = true → ownVertex s v = false → exec .commitRx s = .next (finish s (sendCommit (ctlOut s) v result))) ∧
      (∀ e, fromParent s f.hdr.src = true → ownVertex s v = true → result = 0 → s.dom.enrol = some e → e.joined = true → e.committed = false →
        s.dom.children = [] → ∃ u, exec .commitRx s = .next (finish s u) ∧ u.dom.member = true ∧ u.dom.role = 1 ∧
          u.dom.enrol = some { e with committed := true } ∧ u.keys = s.keys) ∧
      (fromParent s f.hdr.src = true → ownVertex s v = true → result ≠ 0 → s.dom.member = false →
        exec .commitRx s = .next (finish s (failEnrol (ctlOut s) stNotPermitted))) ∧
      (fromParent s f.hdr.src = true → ownVertex s v = true → result ≠ 0 → s.dom.member = true → s.dom.children = [] →
        exec .commitRx s = .next (finish s { ctlOut s with dom := { s.dom with leaving := true } }))))

/-- BCP_DOMAIN_REKEY, REKEY_DIST_RX, DIST_ACK_RX, SWITCH_RX, SWITCH_ACK_RX (05 R171, R174, R176): only the Lead rekeys, to the next
generation, one at a time. A new key is held in slot 6 and passed on under each child's link; when the subtree holds it the block
switches: slot 3 moves to slot 4, the new key to slot 3, and every Chord starts anew. REKEY_DRAIN_DONE, DRAINED_RX, RETIRE_RX,
REKEY_RETIRE_TIMEOUT, REKEY_CHILD_TIMEOUT, REKEY_SWITCH_TIMEOUT (05 R174 to R176): a block reports its drain when no frame of the old
generation is left in it and beneath it; the Lead then retires, at the latest when its time has passed. Retiring zeroes slot 4 and ends
the old generation's stream contexts. A child that did not answer in time is left out; a member without its SWITCH leaves. -/
def Obligations.Rekeys : Prop :=
  ((∀ (t : State) (n : Nat), let u := doSwitch t n
    u.dom.gen = n ∧ (slotAt u 4).key = (slotAt t 3).key ∧ (slotAt u 3).key = (slotAt t 6).key ∧ (slotAt u 6).key = 0 ∧ u.links.chord = [] ∧
    u.dom.member = t.dom.member ∧ u.dom.vertex = t.dom.vertex ∧ u.mem = t.mem ∧ u.parts = t.parts ∧
    (∀ i, i ≠ 3 → i ≠ 4 → i ≠ 6 → slotAt u i = slotAt t i)) ∧
  ∀ (s : State) (src : Nat) (k : Packet) (f : InFrame),
    (takes s src .domainRekey k = true →
      (s.dom.role ≠ 2 ∨ s.dom.member = false → exec (.bcpDomainRekey src) s = .next (finish s (reply (taken s src) src .domainRekey k.tag stNotPermitted []))) ∧
      (s.dom.role = 2 → s.dom.member = true → s.dom.gen = 0xFFFFFFFF →
        exec (.bcpDomainRekey src) s = .next (finish s (reply (taken s src) src .domainRekey k.tag stKeyExhausted []))) ∧
      (s.dom.role = 2 → s.dom.member = true → s.dom.gen ≠ 0xFFFFFFFF → (pw k.params 0).toNat ≠ s.dom.gen + 1 →
        exec (.bcpDomainRekey src) s = .next (finish s (reply (taken s src) src .domainRekey k.tag stBadParam []))) ∧
      (s.dom.role = 2 → s.dom.member = true → s.dom.gen ≠ 0xFFFFFFFF → (pw k.params 0).toNat = s.dom.gen + 1 → s.dom.rekey.isSome = true →
        exec (.bcpDomainRekey src) s = .next (finish s (reply (taken s src) src .domainRekey k.tag stBusy []))) ∧
      (s.dom.role = 2 → s.dom.member = true → s.dom.gen ≠ 0xFFFFFFFF → (pw k.params 0).toNat = s.dom.gen + 1 → s.dom.rekey = none → s.hub.drbgRefuse = false →
        s.dom.children = [] → s.dom.held = [] → ∃ u r, exec (.bcpDomainRekey src) s = .next (finish s u) ∧ u.dom.gen = s.dom.gen + 1 ∧ u.dom.rekey = some r ∧
          r.phase = .draining ∧ (slotAt u 4).key = (slotAt s 3).key ∧
          (mb u src).replies = (mb s src).replies ++ [replyWords (opVal .domainRekey) stOk k.tag [toW (s.dom.gen + 1), 0]]) ∧
      (s.dom.role = 2 → s.dom.member = true → s.dom.gen ≠ 0xFFFFFFFF → (pw k.params 0).toNat = s.dom.gen + 1 → s.dom.rekey = none → s.hub.drbgRefuse = true →
        exec (.bcpDomainRekey src) s = .next (finish s (reply (taken s src) src .domainRekey k.tag stInternal [])))) ∧
    (ctlIn s f 1 (s.dom.gen + 1) 80 = true →
      (fromParent s f.hdr.src = false ∨ s.dom.rekey.isSome = true → exec .rekeyDistRx s = .next (finish s (ctlOut s))) ∧
      (∀ l, s.dom.parent = some l → l.peer = f.hdr.src → s.dom.rekey = none →
        (unwrapKey l.tk (f.payload.drop 16) 1 (domainId s) (s.dom.gen + 1) (s.dom.vertex.getD 0) = none → exec .rekeyDistRx s = .next (finish s (ctlOut s))) ∧
        (∀ key, unwrapKey l.tk (f.payload.drop 16) 1 (domainId s) (s.dom.gen + 1) (s.dom.vertex.getD 0) = some key →
          exec .rekeyDistRx s = .next (finish s (distribute (ctlOut s) (s.dom.gen + 1) key none)) ∧
          (s.dom.children = [] → ∃ r, (distribute (ctlOut s) (s.dom.gen + 1) key none).dom.rekey = some r ∧ r.phase = .distribute ∧ r.distSent = true ∧
            (slotAt (distribute (ctlOut s) (s.dom.gen + 1) key none) 6).key = key)))) ∧
    (ctlIn s f 2 (s.dom.gen + 1) 4 = true →
      (s.dom.rekey = none → exec .distAckRx s = .next (finish s (ctlOut s))) ∧
      (s.dom.rekey.isSome = true → exec .distAckRx s = .next (finish s (checkDist (modChild (ctlOut s) f.hdr.src
        (fun c => { c with dist := some (leAt (f.payload.drop 16) 0 4) })))))) ∧
    (ctlIn s f 3 (s.dom.gen + 1) 0 = true →
      (∀ r, s.dom.rekey = some r → fromParent s f.hdr.src = true → r.phase = .distribute →
        exec .switchRx s = .next (finish s (checkSwitch (doSwitch (ctlOut s) r.target)))) ∧
      (s.dom.rekey = none ∨ fromParent s f.hdr.src = false → exec .switchRx s = .next (finish s (ctlOut s)))) ∧
    (ctlIn s f 4 s.dom.gen 4 = true →
      (s.dom.rekey = none → exec .switchAckRx s = .next (finish s (ctlOut s))) ∧
      (s.dom.rekey.isSome = true → exec .switchAckRx s = .next (finish s (checkSwitch (modChild (ctlOut s) f.hdr.src
        (fun c => { c with switched := some (leAt (f.payload.drop 16) 0 4) }))))))) ∧
  (∀ (s : State) (f : InFrame) (v : Nat),
    (s.fab.tags = [] → s.dom.children = [] → let u := doRetire s
      u.dom.rekey = none ∧ ((slotAt s 4).state ≠ 0 → (slotAt u 4).key = 0) ∧ (∀ e ∈ u.links.egress, oldPar s e.1 = false) ∧ (∀ e ∈ u.links.ingress, oldPar s e.1 = false) ∧
      (∀ x ∈ u.fab.txq, queuedOld u x = false) ∧ u.dom.gen = s.dom.gen ∧
      ((slotAt s 3).depth ≤ (slotAt s 4).depth → slotAt u 3 = slotAt s 3)) ∧
    (engUp s = true → fwActs s = false → ∀ c ∈ ([.rekeyDrainDone, .rekeyRetireTimeout, .rekeySwitchTimeout, .rekeyChildTimeout v] : List Instr),
      exec c s = .next (finish s (quiet s))) ∧
    (engUp s = true → fwActs s = true →
      (ownDrained s = false → exec .rekeyDrainDone s = .next (finish s (quiet s))) ∧
      (ownDrained s = true → s.dom.rekey = none → exec .rekeyDrainDone s = .next (finish s (quiet s))) ∧
      (∀ r l, ownDrained s = true → s.dom.rekey = some r → r.phase = .draining → r.drainSent = false → s.dom.children = [] → r.src = none → s.dom.parent = some l →
        exec .rekeyDrainDone s = .next (finish s (pushCtl { quiet s with dom := { s.dom with rekey := some { r with ownDrained := true, drainSent := true } } }
          l.peer 5 s.dom.gen (leBytes 4 (b2n s.dom.member))))) ∧
      (∀ r n, s.dom.rekey = some r → r.phase = .draining → r.src = some n → exec .rekeyRetireTimeout s = .next (finish s (doRetire (quiet s)))) ∧
      ((∀ r, s.dom.rekey = some r → r.phase ≠ .draining ∨ r.src = none) → exec .rekeyRetireTimeout s = .next (finish s (quiet s))) ∧
      (∀ r, s.dom.rekey = some r → r.phase = .distribute → r.distSent = true →
        exec .rekeySwitchTimeout s = .next (finish s (leaveWithChildren (quiet s))) ∧ (leaveWithChildren (quiet s)).dom.leaving = true) ∧
      (s.dom.rekey = none → exec .rekeySwitchTimeout s = .next (finish s (quiet s)) ∧ exec (.rekeyChildTimeout v) s = .next (finish s (quiet s))) ∧
      (∀ r c, s.dom.rekey = some r → r.phase = .switching → s.dom.children = [(v, c)] → takesPart c = true → c.switched = none → r.src = none → s.dom.held = [] →
        ∃ u x, exec (.rekeyChildTimeout v) s = .next (finish s u) ∧ u.dom.children = [] ∧ u.dom.member = s.dom.member ∧
          x ∈ u.fab.txq ∧ x.dst = v ∧ x.under = some (r.target - 1)) ∧
      (∀ r c, s.dom.rekey = some r → s.dom.children = [(v, c)] → r.phase = .draining → exec (.rekeyChildTimeout v) s = .next (finish s (quiet s)))) ∧
    (ctlIn s f 5 s.dom.gen 4 = true → s.dom.rekey.isSome = true → exec .drainedRx s = .next (finish s (checkDrain (modChild (ctlOut s) f.hdr.src
      (fun c => { c with drained := some (leAt (f.payload.drop 16) 0 4) }))))) ∧
    (ctlIn s f 5 s.dom.gen 4 = true → s.dom.rekey = none → exec .drainedRx s = .next (finish s (ctlOut s))) ∧
    (ctlIn s f 6 s.dom.gen 0 = true →
      (fromParent s f.hdr.src = true → (∃ r, s.dom.rekey = some r ∧ r.phase ≠ .distribute) → exec .retireRx s = .next (finish s (doRetire (ctlOut s)))) ∧
      (fromParent s f.hdr.src = false ∨ s.dom.rekey = none → exec .retireRx s = .next (finish s (ctlOut s)))))

/-- BCP_CHORD_REKEY, CHORD_ADVANCE_RX, CHORD_REKEY_WINDOW_END (05 R172, R173): the egress Chord toward a member advances by one generation
at once, with ALL that toward every other vertex the policy admits; its peers are asked to advance theirs, and their answers counted until
the window ends. A request of a peer advances the Chord toward it, and is answered. -/
def Obligations.ChordRekey : Prop :=
  ∀ (s : State) (src : Nat) (k : Packet) (f : InFrame), let w := pw k.params 0; let peer := fld w 15 0
    (∀ v t c, tget s.links.chord (chordKey v 0 (s.dom.gen % 2 == 1)) = some c → advanceChord s v = some t →
      ∃ c', tget t.links.chord (chordKey v 0 (s.dom.gen % 2 == 1)) = some c' ∧ c'.gen = c.gen + 1 ∧ c'.count = 0 ∧ c'.slot = c.slot) ∧
    (∀ v c, tget s.links.chord (chordKey v 0 (s.dom.gen % 2 == 1)) = some c → 0xFFFFFFFF ≤ c.gen → advanceChord s v = none) ∧
    (takes s src .chordRekey k = true →
      (s.dom.member = false ∨ (wbit w 18 = false ∧ otherMember s peer = false) →
        exec (.bcpChordRekey src) s = .next (finish s (reply (taken s src) src .chordRekey k.tag stNotPermitted []))) ∧
      (s.dom.member = true → wbit w 18 = false → otherMember s peer = true → wbit w 17 = false → wbit w 16 = true →
        (∀ t, advanceChord (taken s src) peer = some t → exec (.bcpChordRekey src) s = .next (finish s (reply t src .chordRekey k.tag stOk [1]))) ∧
        (advanceChord (taken s src) peer = none → exec (.bcpChordRekey src) s = .next (finish s (reply (taken s src) src .chordRekey k.tag stOk [0])))) ∧
      (s.dom.member = true → wbit w 18 = true → wbit w 17 = false → wbit w 16 = true → ∃ u, exec (.bcpChordRekey src) s = .next (finish s u) ∧
        ∀ v, v < 65536 → otherMember s v = true → let key := chordKey v 0 (s.dom.gen % 2 == 1)
          (egressGen s key < 0xFFFFFFFF → egressGen u key = egressGen s key + 1) ∧ (0xFFFFFFFF ≤ egressGen s key → egressGen u key = egressGen s key)) ∧
      (s.dom.member = true → wbit w 18 = false → otherMember s peer = true → wbit w 17 = true → wbit w 16 = false →
        ∃ u, exec (.bcpChordRekey src) s = .next (finish s u) ∧ u.dom.chordWin = some (src, 0, 0) ∧
          u.fab.txq = (pushCtl (quiet s) peer 7 s.dom.gen [0#8, 0#8, 0#8, 0#8]).fab.txq ∧ u.keys = s.keys)) ∧
    (ctlIn s f 7 s.dom.gen 4 = true →
      (leAt (f.payload.drop 16) 0 4 % 2 = 1 → ∃ u, exec .chordAdvanceRx s = .next (finish s u) ∧
        u.dom.chordWin = s.dom.chordWin.map (fun x => (x.1, x.2.1, x.2.2 + 1)) ∧ u.links = s.links ∧ u.keys = s.keys) ∧
      (leAt (f.payload.drop 16) 0 4 % 2 = 0 →
        (∀ t, advanceChord (ctlOut s) f.hdr.src = some t → exec .chordAdvanceRx s = .next (finish s (pushCtl t f.hdr.src 7 t.dom.gen [1#8, 0#8, 0#8, 0#8]))) ∧
        (advanceChord (ctlOut s) f.hdr.src = none → exec .chordAdvanceRx s = .next (finish s (pushCtl (ctlOut s) f.hdr.src 7 s.dom.gen [0#8, 0#8, 0#8, 0#8]))))) ∧
    (engUp s = true → fwActs s = false → exec .chordRekeyWindowEnd s = .next (finish s (quiet s))) ∧
    (engUp s = true → fwActs s = true → (s.dom.chordWin = none → exec .chordRekeyWindowEnd s = .next (finish s (quiet s))) ∧
      ∀ n a, s.dom.chordWin = some (src, n, a) → packetOf s src .chordRekey = some k → exec .chordRekeyWindowEnd s = .next (finish s
        (reply { quiet s with dom := { s.dom with chordWin := none } } src .chordRekey k.tag stOk [toW ((n + a) % 2 ^ 17)])))

/-! Contexts, queues, and the dispatcher. -/

/-- CX_CREATE, CX_LOAD, CX_UNLOAD, PT_WIN_COMMIT (11 R351, R354, R371): a command of a slot without a grant, of a locked partition's
driver, or of a context being torn down is ignored. CREATE gives the slot the lowest free context, LOAD one of its partition, UNLOAD frees
it while its queues are idle, each with an access to the context's record; where that fails, the context becomes FAULTED. CX_CUR shows how
it went. A commit takes both staged windows, unless the open one does not lie in the other. CX_DOORBELL, CX_QCFG_WRITE, CX_OWN_KID_WRITE
(11 R356, R358, R359, R372): a doorbell moves TAIL, is ignored while the partition resets, and sets CX_INT.DB_DROPPED where it does not
fit. A queue is enabled with HEAD and TAIL 0 and disabled only while it is idle; a size beyond 2^4 to 2^20 is ignored. An owned key ID
lies in the partition's grant. -/
def Obligations.ContextsAndQueues : Prop :=
  (∀ (s : State) (sl c p : Nat) (who : Requester), sl < 64 → c < 4096 → p < 16 →
    let rsp := fun (t : State) => finish s (emit t (.regRsp 0 false))
    let rec_ := fun (n : Nat) => (reg s 0x5F000).toNat + 2 ^ 32 * (reg s 0x5F004).toNat + 16384 * n
    (∀ t x acc, acc ≠ .ok → ctxAt t c = some x → tget (recordAnswer t sl c acc).parts.cmdStatus sl = some stInternal ∧
      ∃ y, ctxAt (recordAnswer t sl c acc) c = some y ∧ y.faulted = true) ∧
    (opens s who (cxOff sl 4) = true →
      (cmdIgnored s sl who = true → ∀ r ∈ ([.cxCreate sl who .ok, .cxLoad sl c who .ok, .cxUnload sl who .ok] : List Instr), exec r s = .next (rsp (quiet s))) ∧
      (cmdIgnored s sl who = false → slotPart s sl = some p → let pasid := (reg s (cxOff sl 8)).toNat % 2 ^ 20
        ((slotCtx s sl).isSome = true → exec (.cxCreate sl who .ok) s = .next (rsp (setCmd (quiet s) sl stBusy)) ∧
          exec (.cxLoad sl c who .ok) s = .next (rsp (setCmd (quiet s) sl stBusy))) ∧
        (slotCtx s sl = none → (partAt s p).pasids.contains pasid = false → exec (.cxCreate sl who .ok) s = .next (rsp (setCmd (quiet s) sl stNotPermitted))) ∧
        (slotCtx s sl = none → (partAt s p).pasids.contains pasid = true → ∀ n, lowestFrom (fun c => (ctxAt s c).isNone) 4096 0 = some n →
          ∃ u x, exec (.cxCreate sl who .ok) s = .next (finish s u) ∧ ctxAt u n = some x ∧ x.part = p ∧ x.pasid = pasid ∧ x.slot = some sl ∧ x.faulted = false ∧
            x.queues = [] ∧ x.own = [] ∧ tget u.parts.cmdStatus sl = some stOk ∧ (∀ i, i ≠ n → ctxAt u i = ctxAt s i) ∧
            ∃ b, u.out = mreqOuts s true (rec_ n) 16384 b [] none ++ [.regRsp 0 false]) ∧
        (slotCtx s sl = none → ctxAt s c = none → exec (.cxLoad sl c who .ok) s = .next (rsp (setCmd (quiet s) sl stStaleHandle))) ∧
        (slotCtx s sl = none → ∀ x, ctxAt s c = some x →
          (x.part ≠ p → exec (.cxLoad sl c who .ok) s = .next (rsp (setCmd (quiet s) sl stNotPermitted))) ∧
          (x.part = p → x.slot.isSome = true ∨ x.tearing = true → exec (.cxLoad sl c who .ok) s = .next (rsp (setCmd (quiet s) sl stBusy))) ∧
          (x.part = p → x.slot = none → x.tearing = false →
            exec (.cxLoad sl c who .ok) s = .next (rsp (setCmd (setCtx (ctxRecord (quiet s) false c) c { x with slot := some sl }) sl stOk)) ∧
            ∀ acc, acc ≠ .ok → exec (.cxLoad sl c who acc) s = .next (rsp (recordAnswer (ctxRecord (quiet s) false c) sl c acc)))) ∧
        (slotCtx s sl = none → exec (.cxUnload sl who .ok) s = .next (rsp (setCmd (quiet s) sl stStaleHandle))) ∧
        (∀ n x, slotCtx s sl = some n → ctxAt s n = some x →
          (x.faulted = false → ctxRuns s n none = true ∨ x.queues.any (fun q => q.2.enabled && q.2.head != q.2.tail) = true →
            exec (.cxUnload sl who .ok) s = .next (rsp (setCmd (quiet s) sl stBusy))) ∧
          (x.faulted = true ∨ (ctxRuns s n none = false ∧ x.queues.any (fun q => q.2.enabled && q.2.head != q.2.tail) = false) →
            exec (.cxUnload sl who .ok) s = .next (rsp (setCmd (setCtx (ctxRecord (quiet s) true n) n { x with slot := none }) sl stOk)) ∧
            ∀ acc, acc ≠ .ok → exec (.cxUnload sl who acc) s = .next (rsp (recordAnswer (ctxRecord (quiet s) true n) sl n acc)))))) ∧
    (opens s who (ptOff p 0x34) = true → let r := partAt s p; let v := fun o => (reg s (ptOff p o)).toNat
      (r.live = false ∨ (who.priv = true ∧ r.tdisp ≠ 0) → exec (.ptWinCommit p who) s = .next (rsp (quiet s))) ∧
      (r.live = true → who.priv = false ∨ r.tdisp = 0 → v 0x30 ≠ 0 → v 0x28 < v 0x2C + v 0x30 →
        exec (.ptWinCommit p who) s = .next (rsp (setPart (quiet s) p { r with winErr := true }))) ∧
      (r.live = true → who.priv = false ∨ r.tdisp = 0 → v 0x30 = 0 ∨ v 0x2C + v 0x30 ≤ v 0x28 →
        exec (.ptWinCommit p who) s = .next (rsp (setPart (quiet s) p { r with
          fwinBase := v 0x20 + 2 ^ 32 * v 0x24, fwinPages := v 0x28, owinBase := v 0x2C, owinPages := v 0x30, winErr := false }))))) ∧
  (∀ (s : State) (sl c i : Nat) (x : Ctx) (w : Word) (who : Requester), sl < 64 → i < 8 → slotCtx s sl = some c → ctxAt s c = some x →
    let rsp := fun (t : State) => finish s (emit t (.regRsp 0 false))
    (opens s who (cxOff sl 0) = true → let q := fld w 7 0; let tail := fld w 31 8; let still := (slotPart s sl).any (fun p => (partAt s p).resetting)
      (still = true → exec (.cxDoorbell sl w who) s = .next (rsp (quiet s))) ∧
      (still = false → x.faulted = true ∨ x.stopped = true ∨ (queueAt x q).enabled = false ∨ 2 ^ (queueAt x q).log2 ≤ tail ∨ (partAt s x.part).tdisp = 1 →
        exec (.cxDoorbell sl w who) s = .next (rsp (setBits (quiet s) (cxOff sl 0x14) 4))) ∧
      (still = false → x.faulted = false → x.stopped = false → (queueAt x q).enabled = true → tail < 2 ^ (queueAt x q).log2 → (partAt s x.part).tdisp ≠ 1 →
        ∃ u y, exec (.cxDoorbell sl w who) s = .next (finish s u) ∧ ctxAt u c = some y ∧ queueAt y q = { queueAt x q with tail := tail } ∧
          (∀ j, j ≠ q → queueAt y j = queueAt x j) ∧ u.out = [.regRsp 0 false])) ∧
    (opens s who (cxOff sl 0x34) = true → let q := slotQueue s sl; let k := fld w 4 0
      (k < 4 ∨ 20 < k → exec (.cxQcfgWrite sl w who) s = .next (rsp (quiet s))) ∧
      (4 ≤ k → k ≤ 20 → (queueAt x q).enabled = true →
        (wbit w 8 = false → (queueAt x q).head = (queueAt x q).tail → ctxRuns s c (some q) = false → ∃ u y, exec (.cxQcfgWrite sl w who) s = .next (finish s u) ∧
          ctxAt u c = some y ∧ queueAt y q = { queueAt x q with enabled := false }) ∧
        (wbit w 8 = true ∨ (queueAt x q).head ≠ (queueAt x q).tail ∨ ctxRuns s c (some q) = true → exec (.cxQcfgWrite sl w who) s = .next (rsp (quiet s)))) ∧
      (4 ≤ k → k ≤ 20 → (queueAt x q).enabled = false → wbit w 8 = true → ∃ u y, exec (.cxQcfgWrite sl w who) s = .next (finish s u) ∧ ctxAt u c = some y ∧
        queueAt y q = { queueAt x q with log2 := k, prio := fld w 10 9, enabled := true, head := 0, tail := 0 }) ∧
      (4 ≤ k → k ≤ 20 → (queueAt x q).enabled = false → wbit w 8 = false → exec (.cxQcfgWrite sl w who) s = .next (rsp (setCtx (quiet s) c
        { x with queues := tset x.queues q { queueAt x q with log2 := k, prio := fld w 10 9 } })))) ∧
    (opens s who (cxOff sl (0x40 + 4 * i)) = true → let v := (w &&& 0x80000FFF).toNat; let r := partAt s x.part
      (wbit w 31 = true → v % 4096 < r.kidBase ∨ r.kidBase + r.kidCount ≤ v % 4096 → exec (.cxOwnKidWrite sl i w who) s = .next (rsp (quiet s))) ∧
      (wbit w 31 = false ∨ (r.kidBase ≤ v % 4096 ∧ v % 4096 < r.kidBase + r.kidCount) →
        exec (.cxOwnKidWrite sl i w who) s = .next (rsp (setCtx (quiet s) c { x with own := tset x.own i v }))))) ∧
  (∀ (s : State) (sl i : Nat) (w : Word) (who : Requester), sl < 64 → i < 8 → slotCtx s sl = none →
    let rsp := fun (t : State) => finish s (emit t (.regRsp 0 false))
    (opens s who (cxOff sl 0) = true → (slotPart s sl).any (fun p => (partAt s p).resetting) = false →
      exec (.cxDoorbell sl w who) s = .next (rsp (setBits (quiet s) (cxOff sl 0x14) 4))) ∧
    (opens s who (cxOff sl 0x34) = true → exec (.cxQcfgWrite sl w who) s = .next (rsp (quiet s))) ∧
    (opens s who (cxOff sl (0x40 + 4 * i)) = true → exec (.cxOwnKidWrite sl i w who) s = .next (rsp (quiet s))))

/-- DESCRIPTOR_FETCH, DESCRIPTOR_START, COMPLETION_RECORD, CREDIT_TICK (11 R352, R353, R357, R359 to R361; 12 R390): a fetch reads the
entry at HEAD and moves HEAD on; one that fails faults its context. The dispatcher starts the first head in turn that may start. A record
is written once, with CX_INT.CMPL where IRQ asks for it. Ten nanoseconds bring each class of a partition its budget, up to 10 µs of it. -/
def Obligations.DispatcherRuns : Prop :=
  ∀ (s : State) (c q d : Nat) (raw : Bytes) (acc : Access), engUp s = true →
    (q < 256 → (fetchable s c q = false ∨ dispatchOpen s = false → exec (.descriptorFetch c q raw acc) s = .next (finish s (quiet s))) ∧
      ∀ x, fetchable s c q = true → dispatchOpen s = true → ctxAt s c = some x → let u := queueAt x q; let at_ := u.ring + 64 * u.head
        (∃ t y e, exec (.descriptorFetch c q raw .ok) s = .next (finish s t) ∧ t.out = mreqOuts s false at_ 64 [] [] (some x.pasid) ∧
          descAt t s.parts.nextDesc = some e ∧ e.raw = padTo 64 (raw.take 64) ∧ e.ctx = c ∧ e.queue = q ∧ e.index = u.head ∧ e.phase = .fetched ∧
          e.opcode = leAt e.raw 0 1 ∧ t.parts.nextDesc = s.parts.nextDesc + 1 ∧ ctxAt t c = some y ∧ (queueAt y q).head = (u.head + 1) % 2 ^ u.log2 ∧
          (queueAt y q).tail = u.tail) ∧
        exec (.descriptorFetch c q raw .poison) s = .next (finish s (faultCtx (emitMreq (quiet s) false at_ 64 [] [] (some x.pasid)) c stInternal q u.head)) ∧
        exec (.descriptorFetch c q raw .err) s = .next (finish s (faultCtx (ioEvent (emitMreq (quiet s) false at_ 64 [] [] (some x.pasid))
          0xFF 0 stInternal 0 x.part c at_) c stInternal q u.head))) ∧
    (dispatchUp s = false ∨ candidates s = [] → exec (.descriptorStart acc) s = .next (finish s (quiet s))) ∧
    (dispatchUp s = true → (∀ k ∈ turns s, tryStart (quiet s) k.desc acc = none) → exec (.descriptorStart acc) s = .next (finish s (quiet s))) ∧
    (dispatchUp s = true → ∀ pre k rest t, turns s = pre ++ k :: rest → (∀ j ∈ pre, tryStart (quiet s) j.desc acc = none) →
      tryStart (quiet s) k.desc acc = some t → exec (.descriptorStart acc) s = .next (finish s { t with parts := { t.parts with
        rrPart := k.part, rrSlot := tset t.parts.rrSlot k.part k.slot, rrQueue := tset t.parts.rrQueue (4 * k.slot + k.prio % 4) k.queue } })) ∧
    (∀ x, descAt s d = some x →
      (x.phase ≠ .done → exec (.completionRecord d acc) s = .next (finish s (quiet s))) ∧
      (x.phase = .done → ∃ u, exec (.completionRecord d .ok) s = .next (finish s u) ∧ descAt u d = some { x with phase := .recorded } ∧
        u.out = mreqOuts s true x.recAddr 16 (leBytes 1 x.status ++ leBytes 1 x.opcode ++ [0#8, 0#8] ++ leBytes 4 x.user ++ leBytes 8 x.result) [] (some x.pasid) ∧
        (x.irq = false → tget s.upd.cadDue d = none → u.win = s.win) ∧ tget u.upd.cadDue d = none ∧
        (∀ y sl, x.irq = true → ctxAt s x.ctx = some y → y.slot = some sl → reg u (cxOff sl 0x14) = reg s (cxOff sl 0x14) ||| 1))) ∧
    ((∀ p ∈ s.parts.part, p.2.live = false) → exec .creditTick s = .next (finish s (quiet s))) ∧
    (∀ p r, s.parts.part = [(p, r)] → r.live = true → ∃ u, exec .creditTick s = .next (finish s u) ∧ u.parts = s.parts ∧ u.keys = s.keys ∧
      (∀ k, 1 ≤ k → k ≤ 6 → tgetD u.fab.credit (p * 8 + k) 0 =
        min (tgetD s.fab.credit (p * 8 + k) 0 + 5 * ((r.budgets.getD k 0 : Nat) : Int)) (5000 * ((r.budgets.getD k 0 : Nat) : Int))) ∧
      (∀ k, k / 8 ≠ p → tget u.fab.credit k = tget s.fab.credit k))

/-- WD_COPY_ASYNC, COPY_CHUNK_SEND, WD_SIGNAL, WD_FENCE, WD_WAIT, WAIT_POLL, WAIT_TIMEOUT, WD_DUMP_MARK (07 R242, R243, R245 to R248; 11
R355; 13 R437): a copy takes the lowest free engine, and waits while all 32 work; its chunks go to their home. A signal adds to its word
as an open atomic. A fence closes the epochs of its context and its PASID's core context; a wait reads its counter as it is armed, and is
armed until that reaches its threshold; when its time ends the counter is read once more; a mark names the next reduction or update of its
queue. WD_PUBLISH, WD_INVALIDATE, WD_ABORT (08 R283 to R285; 11 R367): a publish of a region of another kind, of a reader, or at the last
epoch is refused with the epoch; an accepted one waits for the writes of the next epoch. An invalidate goes forward only. An abort ends
the descriptor last fetched from its index, unless it is over. -/
def Obligations.FabricAndEpochWork : Prop :=
  (∀ (s : State) (d e v : Nat) (x : Desc), let b := x.raw; let p := (ctxPart s x.ctx).getD 0
    (starts s d x 1 = true →
      (∀ n, lowestFrom (fun e => (tget s.fab.copies e).isNone) 32 0 = some n → ∃ u k, exec (.wdCopyAsync d) s = .next (finish s u) ∧ tget u.fab.copies n = some k ∧
        k.desc = d ∧ k.src = leAt b 8 8 ∧ k.dst = leAt b 16 8 % 2 ^ 48 ∧ k.len = leAt b 24 8 ∧ k.beats = leAt b 36 1 ∧ (∃ y, descAt u d = some y ∧ y.phase = .running)) ∧
      (lowestFrom (fun e => (tget s.fab.copies e).isNone) 32 0 = none → exec (.wdCopyAsync d) s = .next (finish s (quiet s)))) ∧
    (engUp s = true →
      (tget s.fab.copies e = none ∨ clkRuns s = false → exec (.copyChunkSend e) s = .next (finish s (quiet s))) ∧
      (∀ k i data rest, clkRuns s = true → tget s.fab.copies e = some k → k.ready = (i, data) :: rest → descAt s k.desc = some x →
        let q := { quiet s with fab := { s.fab with copies := tset s.fab.copies e { k with ready := rest } } }
        let shared := k.kid ≠ 0 ∧ (regionAt s k.kid).any (fun r => r.kind == 2) = true
        (chunkStale s k = true → exec (.copyChunkSend e) s = .next (finish s (chunkDone q e i stStaleHandle))) ∧
        (chunkStale s k = false → ¬ shared → ownVertex s k.vertex = false → ∃ f, exec (.copyChunkSend e) s = .next (finish s (pushTx q f)) ∧
          f.dst = k.vertex ∧ f.owner = p + 1 ∧ f.tc = (if k.kid = 0 then 2 else 4) ∧ f.op = opReq ∧
          f.origin = .copy e i ∧ f.cover = true ∧ f.fepoch = epochOf s x.ctx) ∧
        (chunkStale s k = false → ¬ shared → ownVertex s k.vertex = true → ∃ h, exec (.copyChunkSend e) s = .next (finish s (applyReq q h)) ∧
          h.who = .chunk e i ∧ h.owner = p + 1 ∧ h.kind = kCopy ∧ h.addr = k.dst + i * k.beats * 128 ∧ h.data = data ∧ h.kid = k.kid ∧
          h.arrival = (if k.arrivalEn then some k.arrival else none)) ∧
        (∀ r, chunkStale s k = false → k.kid ≠ 0 → regionAt s k.kid = some r → r.kind = 2 →
          (0xFFFFFFFF ≤ r.epoch → ∃ u, exec (.copyChunkSend e) s = .next (finish s (chunkDone u e i stEpochExhausted)) ∧ u.fab.copies = q.fab.copies) ∧
          (r.epoch < 0xFFFFFFFF → ∃ u m, exec (.copyChunkSend e) s = .next (finish s (memSubmit u m false)) ∧ u.fab.copies = q.fab.copies ∧ m.kid = k.kid ∧
            m.write = true ∧ m.epoch = r.epoch + 1 ∧ m.data = data ∧ m.line = (k.dst + i * k.beats * 128 - rData r) / 64)))) ∧
    (starts s d x 7 = true →
      (subTaken s p (leAt b 8 2) (leAt b 10 1) = true → ∃ u y, exec (.wdSignal d) s = .next (finish s u) ∧ descAt u d = some y ∧ y.phase = .done ∧ y.status = stBusy ∧ u.fab = s.fab) ∧
      (subTaken s p (leAt b 8 2) (leAt b 10 1) = false → ownVertex s (leAt b 8 2) = false → ∃ u f, exec (.wdSignal d) s = .next (finish s u) ∧ u.fab.txq = s.fab.txq ++ [f] ∧
        f.dst = leAt b 8 2 ∧ f.owner = p + 1 ∧ f.tc = 3 ∧ f.sub = leAt b 10 1 ∧ f.aop = 9 ∧ f.addr = leAt b 16 6 ∧ f.operand = leAt b 24 8 ∧ f.cover = true) ∧
      (subTaken s p (leAt b 8 2) (leAt b 10 1) = false → ownVertex s (leAt b 8 2) = true → ∃ u t h, exec (.wdSignal d) s = .next (finish s u) ∧
        u.fab = (applyReq t h).fab ∧ t.fab = s.fab ∧ h.who = .signal d ∧ h.owner = p + 1 ∧ h.kind = kAtomic ∧ h.aop = 9 ∧ h.addr = leAt b 16 6 ∧
        h.operand.take 8 = leBytes 8 (leAt b 24 8))) ∧
    (starts s d x 6 = true → let cs := fenceCtxs s x.ctx x.pasid
      ((∀ c ∈ cs, s.fab.fences.countP (fun f => f.ctx == c) < 15) → ∃ u, exec (.wdFence d) s = .next (finish s u) ∧
        u.fab.fences = s.fab.fences ++ cs.map (fun c => { desc := d, ctx := c, epoch := epochOf s c, scope := leAt b 8 1, vertex := leAt b 10 2 }) ∧
        x.ctx ∈ cs ∧ (∀ c ∈ cs, epochOf u c = epochOf s c + 1) ∧ u.fab.tags = s.fab.tags) ∧
      (∀ c ∈ cs, 15 ≤ s.fab.fences.countP (fun f => f.ctx == c) → exec (.wdFence d) s = .next (finish s (quiet s)))) ∧
    (starts s d x 8 = true → let r := partAt s p
      (4096 ≤ s.fab.waits.length → exec (.wdWait d) s = .next (finish s (quiet s))) ∧
      (s.fab.waits.length < 4096 → ∃ u, exec (.wdWait d) s = .next (finish s u) ∧ u.fab.waits = s.fab.waits ++
        [{ desc := d, part := p, addr := leAt b 16 6, threshold := leAt b 24 8, expired := false
           until_ := if leAt b 32 4 = 0 then none else some (s.aon.ts + 1000 * leAt b 32 4) }] ∧
        u.out = mreqOuts s false (r.fwinBase + leAt b 16 6) 8 [] [] (some (lowestPasid r)))) ∧
    (starts s d x 9 = true → ∃ u y, exec (.wdDumpMark d) s = .next (finish s u) ∧ tget u.parts.marks (x.ctx * 256 + x.queue) = some (leAt b 8 4, leAt b 16 8) ∧
      descAt u d = some y ∧ y.phase = .done ∧ y.status = stOk ∧ y.result = 0) ∧
    (engUp s = true → let gone := fun (t : State) => { t with fab := { t.fab with waits := t.fab.waits.filter (fun w => w.desc != d) } }
      ((∀ w ∈ s.fab.waits, w.desc ≠ d) → exec (.waitPoll d .ok v) s = .next (finish s (quiet s)) ∧ exec (.waitTimeout d) s = .next (finish s (quiet s))) ∧
      (∀ w, s.fab.waits.find? (fun w => w.desc == d) = some w →
        let m := emitMreq (quiet s) false ((partAt s w.part).fwinBase + w.addr) 8 [] [] (some (lowestPasid (partAt s w.part)))
        (w.expired = false → v % 2 ^ 64 < w.threshold → exec (.waitPoll d .ok v) s = .next (finish s m)) ∧
        (w.expired = false → w.threshold ≤ v % 2 ^ 64 → exec (.waitPoll d .ok v) s = .next (finish s (completeDesc (gone m) d stOk (v % 2 ^ 64)))) ∧
        (w.expired = true → exec (.waitPoll d .ok v) s = .next (finish s (completeDesc (gone m) d stTimeout (v % 2 ^ 64)))) ∧
        (w.expired = false → exec (.waitPoll d .poison v) s = .next (finish s (completeDesc (gone m) d stPoisoned 0)))) ∧
      (∀ w, s.fab.waits.find? (fun w => w.desc == d && w.until_.isSome && !w.expired) = some w → exec (.waitTimeout d) s = .next (finish s (readWait
        { quiet s with fab := { s.fab with waits := s.fab.waits.map (fun w => if w.desc = d then { w with expired := true } else w) } } w))) ∧
      (s.fab.waits.find? (fun w => w.desc == d && w.until_.isSome && !w.expired) = none → exec (.waitTimeout d) s = .next (finish s (quiet s))))) ∧
  (∀ (s : State) (d : Nat) (x : Desc), let b := x.raw; let kid := leAt b 8 2 % 4096
    let ends := fun (c : Instr) (st res : Nat) => ∃ u y, exec c s = .next (finish s u) ∧ descAt u d = some y ∧ y.phase = .done ∧ y.status = st ∧ y.result = res ∧ u.mem = s.mem
    (∀ r, starts s d x 4 = true → regionAt s kid = some r →
      (r.kind ≠ 2 → ends (.wdPublish d) stBadParam r.epoch) ∧
      (r.kind = 2 → r.authority = false → ends (.wdPublish d) stNotPermitted r.epoch) ∧
      (r.kind = 2 → r.authority = true → 0xFFFFFFFF ≤ r.epoch → ends (.wdPublish d) stEpochExhausted r.epoch) ∧
      (r.kind = 2 → r.authority = true → r.epoch < 0xFFFFFFFF → ∃ u, exec (.wdPublish d) s = .next (finish s u) ∧ u.mem.drains = s.mem.drains ++
        [{ desc := d, kid := kid, publish := true, target := 0, ops := opsOn s kid (r.epoch + 1) true, status := stOk }] ∧ regionAt u kid = some r)) ∧
    (∀ r, starts s d x 5 = true → regionAt s kid = some r → let e := leAt b 12 4
      (r.kind ≠ 2 ∨ (r.authority = true ∧ e ≠ r.epoch) ∨ e < r.epoch → ends (.wdInvalidate d) stBadParam r.epoch) ∧
      (r.kind = 2 → e = r.epoch → ends (.wdInvalidate d) stOk r.epoch) ∧
      (r.kind = 2 → r.authority = false → r.epoch < e → ∃ u, exec (.wdInvalidate d) s = .next (finish s u) ∧ regionAt u kid = some { r with epoch := e } ∧
        u.mem.drains = s.mem.drains ++ [{ desc := d, kid := kid, publish := false, target := e, ops := opsOn s kid r.epoch false, status := stOk }])) ∧
    (starts s d x 10 = true → let hit := fun (y : Nat × Desc) => y.2.ctx == x.ctx && y.2.queue == leAt b 8 1 && y.2.index == leAt b 12 4
      ((∀ y ∈ s.parts.desc, hit y = false) → ends (.wdAbort d) stBadParam 0) ∧
      (∀ y, s.parts.desc.filter hit = [y] → y.1 ≠ d → descAt s y.1 = some y.2 →
        (y.2.user ≠ leAt b 16 4 ∨ y.2.opcode = 10 → ends (.wdAbort d) stBadParam 0) ∧
        (y.2.user = leAt b 16 4 → y.2.opcode ≠ 10 → y.2.phase = .done ∨ y.2.phase = .recorded ∨ y.2.phase = .squashed → ends (.wdAbort d) stAbortTooLate 0) ∧
        (y.2.user = leAt b 16 4 → y.2.opcode ≠ 10 → y.2.phase = .fetched ∨ y.2.phase = .running → ∃ t, exec (.wdAbort d) s = .next (finish s (completeDesc (squashDesc t y.1 stAborted) d stOk 0)) ∧
          descAt t y.1 = some y.2 ∧ t.fab = s.fab ∧ t.red = s.red ∧ t.upd = s.upd ∧ t.mem = s.mem))))

/-! Reduction and update. -/

/-- WD_REDUCE, REDUCE_START_RX, REDUCE_READY_RX, REDUCE_BUSY_RX, REDUCE_START_RETRY (09 R296, R307 to R311, R315): a reduction is checked,
waits for its slots, and arms. A START that matches its stage binds its input and is answered READY, one of other fields ends the stage,
any other waits in the park table, or is answered BUSY when that is full. READY lets data frames leave; BUSY has the START sent again. -/
def Obligations.ReductionStarts : Prop :=
  ∀ (s : State) (d : Nat) (x : Desc) (f : InFrame), let p := (ctxPart s x.ctx).getD 0; let g := stageOf x.ctx p x.raw
    (starts s d x 2 = true →
      (∀ st, reduceCheck s x.raw g = some st → ∃ u y, exec (.wdReduce d) s = .next (finish s u) ∧
        descAt u d = some y ∧ y.phase = .done ∧ y.status = st ∧ u.red.stages = s.red.stages) ∧
      (reduceCheck s x.raw g = none → g.update = false → 64 < slotsUsed s g.port + stageSlots g → exec (.wdReduce d) s = .next (finish s (quiet s))) ∧
      (reduceCheck s x.raw g = none → g.update = false → slotsUsed s g.port + stageSlots g ≤ 64 → s.red.parked = [] → ∃ u h, exec (.wdReduce d) s = .next (finish s u) ∧
        tget u.red.stages d = some h ∧ h.port = g.port ∧ h.elements = g.elements ∧ h.op = g.op ∧ h.inputs = g.inputs ∧ h.next = 0 ∧ h.started = g.forward ∧ h.ready = false) ∧
      (reduceCheck s x.raw g = none → g.update = true → fuseAt s p (g.outAddr % 2 ^ 32) = none →
        (16 ≤ s.upd.fuses.length → exec (.wdReduce d) s = .next (finish s (quiet s))) ∧
        (s.upd.fuses.length < 16 → slotsUsed s g.port + stageSlots g ≤ 64 → s.red.parked = [] → ∃ u h, exec (.wdReduce d) s = .next (finish s u) ∧
          tget u.red.stages d = some h ∧ h.elements = g.elements ∧ h.inputs = g.inputs ∧ h.next = 0 ∧
          u.upd.fuses = s.upd.fuses ++ [{ part := p, tag := g.outAddr % 2 ^ 32, red := some d, upd := none, discard := false }]))) ∧
    (engUp s = true → s.fab.inbox = [f] → let q := { quiet s with fab := { s.fab with inbox := [] } }; let r := f.payload
      (ctlFrame f 1 = true → r.length ≠ 32 ∨ leAt r 0 1 ≠ 1 → exec .reduceStartRx s = .next (finish s q)) ∧
      (ctlFrame f 1 = true → r.length = 32 → leAt r 0 1 = 1 → stageBelow s f.hdr.src f.hdr.stream = none → s.red.parked = [] →
        ∃ u k, exec .reduceStartRx s = .next (finish s u) ∧ u.red.parked = [k] ∧ k.src = f.hdr.src ∧ k.rec_ = r ∧ k.par = f.hdr.dgen ∧ u.fab.txq = s.fab.txq ∧ u.red.stages = s.red.stages) ∧
      (∀ e h, ctlFrame f 1 = true → r.length = 32 → leAt r 0 1 = 1 → stageBelow s f.hdr.src f.hdr.stream = some (e, h) → leAt r 4 4 = h.xfer → tget s.red.stages e = some h →
        (leAt r 1 1 ≠ h.inFmt ∨ leAt r 2 1 ≠ h.op ∨ leAt r 24 8 ≠ h.elements → exec .reduceStartRx s = .next (finish s (failStage q e stBadParam))) ∧
        (leAt r 1 1 = h.inFmt → leAt r 2 1 = h.op → leAt r 24 8 = h.elements → ∃ u t, exec .reduceStartRx s = .next (finish s u) ∧ u.fab.txq = s.fab.txq ++ [t] ∧
          t.dst = f.hdr.src ∧ t.payload = ctlRec 2 0 0 h.xfer (leAt r 8 8) (leAt r 16 8) 0 ∧ t.sub = h.inSub + 0x80)) ∧
      (ctlFrame f 2 = true → stageAbove s f.hdr.src f.hdr.stream = none → exec .reduceReadyRx s = .next (finish s q)) ∧
      (∀ e h, ctlFrame f 2 = true → stageAbove s f.hdr.src f.hdr.stream = some (e, h) →
        (echoes h r = false → exec .reduceReadyRx s = .next (finish s q)) ∧
        (echoes h r = true → exec .reduceReadyRx s = .next (finish s (pumpOut (h.outBuf.length + 1) (setStage q e { h with ready := true, busyWait := false }) e)))) ∧
      (∀ e h, ctlFrame f 4 = true → stageAbove s f.hdr.src f.hdr.stream = some (e, h) → echoes h r = true → h.ready = false →
        exec .reduceBusyRx s = .next (finish s (setStage q e { h with busyWait := true }))) ∧
      (ctlFrame f 4 = true → stageAbove s f.hdr.src f.hdr.stream = none → exec .reduceBusyRx s = .next (finish s q))) ∧
    (engUp s = true → (tget s.red.stages d = none → exec (.reduceStartRetry d) s = .next (finish s (quiet s))) ∧
      ∀ h, tget s.red.stages d = some h → (h.busyWait = false → exec (.reduceStartRetry d) s = .next (finish s (quiet s))) ∧
        (h.busyWait = true → ∃ u t k, exec (.reduceStartRetry d) s = .next (finish s u) ∧ tget u.red.stages d = some k ∧ k.started = true ∧ k.ready = false ∧ k.busyWait = false ∧
          k.firstFrame = h.frame ∧ u.fab.txq = s.fab.txq ++ [t] ∧ t.dst = h.outV ∧ t.payload = ctlRec 1 h.outFmt h.op h.xfer k.baseSeq h.frame h.elements))

/-- Sums in a chunk (09 R302): SUM folds the operands of an element from the first, with binary32 addition; MIN and MAX take the least and
the greatest. REDUCE_DATA_RX, REDUCE_ABORT_RX, CHUNK_RUN, REDUCE_STAGE_COMPLETE, REDUCE_IDLE_TIMEOUT (09 R302, R313, R314, R318 to R322):
a data frame takes its slot; without a binding it counts in RT_UNBOUND. An ABORT ends the stage with ST_ABORTED and goes on with its
origin. A chunk waits for every operand; with a poisoned one the stage ends; results that pass the checks are released, at once or after
one replay, and results that fail both times are released nowhere. A stage completes when all its results are handed on. -/
def Obligations.ReductionRuns : Prop :=
  (∀ (g : Stage) (a : Nat) (t : List Nat),
    ((g.op = 0 ∨ g.op = 1) → elemResult g (a :: t) = t.foldl f32.add a) ∧ (g.op = 2 → elemResult g (a :: t) = t.foldl f32.minOf a) ∧
    (g.op = 3 → elemResult g (a :: t) = t.foldl f32.maxOf a) ∧ (g.op < 4 → elemResult g [a] = a) ∧
    (g.op = 4 → g.localEn = true → elemResult g (a :: t) = t.foldl f32.add a)) ∧
  (∀ (s : State) (d : Nat) (f : InFrame) (u1 u2 : Option (Nat × Nat)), engUp s = true →
    let q := { quiet s with fab := { s.fab with inbox := [] } }
    (∀ e h x, tget s.red.stages e = some h → descAt s e = some x → x.phase = .running → s.upd.fuses = [] → ∀ st, ∃ y, descAt (failStage s e st) e = some y ∧ y.phase = .done ∧
      y.status = st ∧ tget (failStage s e st).red.stages e = none ∧ (∀ i, i ≠ e → tget (failStage s e st).red.stages i = tget s.red.stages i)) ∧
    (s.fab.inbox = [f] → dataFrame f = true →
      (stageFor s f.hdr = none → s.red.aborted.contains (f.hdr.src, f.hdr.stream) = true → exec .reduceDataRx s = .next (finish s q)) ∧
      (stageFor s f.hdr = none → s.red.aborted.contains (f.hdr.src, f.hdr.stream) = false → exec .reduceDataRx s = .next (finish s (unboundRx q f)) ∧
        reg (unboundRx q f) 0x30028 = toW (min ((reg s 0x30028).toNat + 1) 0xFFFFFFFF)) ∧
      (∀ e h i b, stageFor s f.hdr = some (e, h, i, b) → 8 ≤ i.frames.length → exec .reduceDataRx s = .next (finish s (quiet s))) ∧
      (∀ e h i b, stageFor s f.hdr = some (e, h, i, b) → i.frames.length < 8 → let n := f.seqN - b.baseSeq + b.first
        (f.seqN < b.baseSeq ∨ stageFrames h h.inFmt ≤ n ∨ (tget i.frames n).isSome = true ∨ n < (chunkFrames h h.inFmt h.next).1 → exec .reduceDataRx s = .next (finish s q)) ∧
        (b.baseSeq ≤ f.seqN → n < stageFrames h h.inFmt → tget i.frames n = none → (chunkFrames h h.inFmt h.next).1 ≤ n → frameBytes h h.inFmt n ≤ f.payload.length →
          ∃ u k, exec .reduceDataRx s = .next (finish s u) ∧ tget u.red.stages e = some k ∧
            k.inputs = h.inputs.map (fun j => if j.vertex = f.hdr.src then { j with frames := tset i.frames n (f.payload.take (frameBytes h h.inFmt n)) } else j) ∧
            k.next = h.next ∧ u.parts = s.parts))) ∧
    (s.fab.inbox = [f] → ctlFrame f 3 = true → let c := leAt f.payload 24 8
      (stageBelow s f.hdr.src f.hdr.stream = none → stageAbove s f.hdr.src f.hdr.stream = none → exec .reduceAbortRx s = .next (finish s q)) ∧
      (∀ e h, stageBelow s f.hdr.src f.hdr.stream = some (e, h) → ∃ t, exec .reduceAbortRx s = .next (finish s (completeDesc (abortStage t e stAborted (c / 65536 % 65536) (c % 256) none) e stAborted 0)) ∧
        t.red.lastV = c / 65536 % 65536 ∧ t.red.lastS = c % 256 ∧ t.red.stages = s.red.stages ∧ reg t 0x30004 = reg s 0x30004 ||| 4)) ∧
    (tget s.red.stages d = none → exec (.chunkRun d u1 u2) s = .next (finish s (quiet s)) ∧ exec (.reduceStageComplete d) s = .next (finish s (quiet s)) ∧
      exec (.reduceIdleTimeout d) s = .next (finish s (quiet s))) ∧
    (∀ h, tget s.red.stages d = some h → h.update = false →
      let ops := chunkOperands h h.next; let r0 := ops.map (elemResult h); let poisoned := h.localEn && localPoison h h.next
      (chunkReady h = false ∨ clkRuns s = false → exec (.chunkRun d u1 u2) s = .next (finish s (quiet s))) ∧
      (clkRuns s = true → chunkReady h = true → poisoned = true → exec (.chunkRun d u1 u2) s = .next (finish s (failStage (quiet s) d stPoisoned))) ∧
      (clkRuns s = true → chunkReady h = true → poisoned = false → chunkCheck h h.next ops (upset r0 u1) = 0 → exec (.chunkRun d u1 u2) s = .next (finish s (releaseChunk (quiet s) d h (upset r0 u1)))) ∧
      (clkRuns s = true → chunkReady h = true → poisoned = false → chunkCheck h h.next ops (upset r0 u1) ≠ 0 → chunkCheck h h.next ops (upset r0 u2) = 0 → ∃ t, exec (.chunkRun d u1 u2) s = .next (finish s (releaseChunk t d h (upset r0 u2))) ∧
        t.red.fCheck = chunkCheck h h.next ops (upset r0 u1) ∧ t.red.fAgree = (upset r0 u1 == upset r0 u2) ∧ t.red.fFinal = false ∧ t.red.fChunk = h.next ∧ t.red.stages = s.red.stages) ∧
      (clkRuns s = true → chunkReady h = true → poisoned = false → chunkCheck h h.next ops (upset r0 u1) ≠ 0 → chunkCheck h h.next ops (upset r0 u2) ≠ 0 → ∃ t, t.red.stages = s.red.stages ∧ t.red.fFinal = true ∧
        exec (.chunkRun d u1 u2) s = .next (finish s (arithFault (failStage t d stPlausibility) (upset r0 u1 == upset r0 u2) h.port h.port (chunkCheck h h.next ops (upset r0 u2)) h.ctx h.part))) ∧
      (stageOver s d h = false → exec (.reduceStageComplete d) s = .next (finish s (quiet s))) ∧
      (∀ x, stageOver s d h = true → descAt s d = some x → x.phase = .running → ∃ u y, exec (.reduceStageComplete d) s = .next (finish s u) ∧ tget u.red.stages d = none ∧
        descAt u d = some y ∧ y.phase = .done ∧ y.status = stOk) ∧
      (fld (reg s 0x30000) 23 0 = 0 → exec (.reduceIdleTimeout d) s = .next (finish s (quiet s))) ∧
      (fld (reg s 0x30000) 23 0 ≠ 0 → exec (.reduceIdleTimeout d) s = .next (finish s (failStage (setBits (quiet s) 0x30004 0x20) d stTimeout)))))

/-- WD_UPDATE, FUSE_BIND, FUSE_BIND_TIMEOUT (10 R330 to R332, R337, R338): an update is checked in order; one whose STEP is not the next
is refused with UP_INT.STEP_SKEW and a Cadence record, one of a frozen group ends ST_OK_FROZEN without touching it; any other runs, or
waits its turn at its queue's head. A reduction and its update bind when their lengths agree, else both end; neither waits longer than the
timer. -/
def Obligations.UpdateStarts : Prop :=
  ∀ (s : State) (d : Nat) (x : Desc), let p := (ctxPart s x.ctx).getD 0; let b := x.raw; let pgd := pgdAt s p (leAt b 16 2)
    (starts s d x 3 = true → tget s.upd.runs d = none →
      (∀ st, updCheck s p b .ok = some st → ∃ u y, exec (.wdUpdate d .ok) s = .next (finish s u) ∧ descAt u d = some y ∧ y.phase = .done ∧ y.status = st ∧ u.upd = s.upd) ∧
      (updCheck s p b .ok = none → pgdStep pgd + 1 ≠ leAt b 8 8 → leAt b 28 4 = 0 → ∃ u y, exec (.wdUpdate d .ok) s = .next (finish s u) ∧ descAt u d = some y ∧
        y.status = stStepSkew ∧ u.upd.skewGroup = leAt b 16 2 ∧ u.upd.skewPart = p ∧ u.upd.runs = s.upd.runs ∧ u.upd.pgd = s.upd.pgd) ∧
      (updCheck s p b .ok = none → pgdStep pgd + 1 = leAt b 8 8 → pgdFrozen pgd = true → leAt b 28 4 = 0 → leAt b 18 1 = 1 → ∃ u y, exec (.wdUpdate d .ok) s = .next (finish s u) ∧ descAt u d = some y ∧
        y.status = stOkFrozen ∧ u.upd.runs = s.upd.runs ∧ u.upd.pgd = s.upd.pgd ∧ u.mem = s.mem) ∧
      (updCheck s p b .ok = none → pgdStep pgd + 1 = leAt b 8 8 → pgdFrozen pgd = false → leAt b 28 4 ≠ 0 → fuseAt s p (leAt b 28 4) = none → s.upd.fuses.length < 16 →
        updRunning s < 4 → pgdSrc pgd = 1 → leAt b 18 1 ≠ 2 → ∃ u r y, exec (.wdUpdate d .ok) s = .next (finish s u) ∧
        tget u.upd.runs d = some r ∧ r.running = true ∧ r.step = leAt b 8 8 ∧ r.group = leAt b 16 2 ∧ r.part = p ∧ r.pgd = pgd ∧ r.doneT = 0 ∧ descAt u d = some y ∧ y.phase = .running) ∧
      (updCheck s p b .ok = none → pgdStep pgd + 1 = leAt b 8 8 → pgdFrozen pgd = false → leAt b 28 4 = 0 → 4 ≤ updRunning s → ∃ u r y, exec (.wdUpdate d .ok) s = .next (finish s u) ∧
        tget u.upd.runs d = some r ∧ r.running = false ∧ descAt u d = some y ∧ y.phase = .fetched ∧ y.checked = true)) ∧
    (engUp s = true →
      (fuseOf s d = none → exec (.fuseBind d) s = .next (finish s (quiet s)) ∧ exec (.fuseBindTimeout d) s = .next (finish s (quiet s))) ∧
      (∀ f e g r u, fuseOf s d = some f → f.red = some e → f.upd = some r → tget s.red.stages e = some g → tget s.upd.runs r = some u → f.discard = false → u.bound = false →
        (g.elements ≠ pgdN u.pgd → exec (.fuseBind d) s = .next (finish s (failStage (quiet s) e stBadParam))) ∧
        (g.elements = pgdN u.pgd → exec (.fuseBind d) s = .next (finish s (setUpd (quiet s) r { u with bound := true })))) ∧
      (∀ f, fuseOf s d = some f → fld (reg s 0x30000) 23 0 = 0 → exec (.fuseBindTimeout d) s = .next (finish s (quiet s))) ∧
      (∀ f, fuseOf s d = some f → fld (reg s 0x30000) 23 0 ≠ 0 → f.red = some d → f.upd = none → f.discard = false →
        exec (.fuseBindTimeout d) s = .next (finish s (failStage (setBits (quiet s) 0x30004 0x20) d stTimeout))) ∧
      (∀ f u, fuseOf s d = some f → fld (reg s 0x30000) 23 0 ≠ 0 → f.upd = some d → f.red = none → f.discard = false → tget s.upd.runs d = some u → u.bound = false →
        exec (.fuseBindTimeout d) s = .next (finish s (failUpdate (quiet s) d stTimeout))))

/-- UPDATE_TILE, UPDATE_COMPLETE, CADENCE_FLUSH (10 R333, R341 to R345): a tile waits for its inputs, ends the update with poison among
them, and is written only when every slice passes, at once or after one replay. An update is over when all its tiles are done and written:
its PGD takes its STEP, and once its completion record is written Cadence tells the manager; up to 123 records leave in one message. -/
def Obligations.UpdateRuns : Prop :=
  ∀ (s : State) (d : Nat) (u1 u2 : Option (Nat × Nat)), engUp s = true →
    (tget s.upd.runs d = none → exec (.updateTile d u1 u2) s = .next (finish s (quiet s)) ∧ exec (.updateComplete d) s = .next (finish s (quiet s))) ∧
    (∀ u, tget s.upd.runs d = some u →
      (tget u.tiles u.doneT = none ∨ clkRuns s = false → exec (.updateTile d u1 u2) s = .next (finish s (quiet s))) ∧
      (∀ x, tget u.tiles u.doneT = some x → u.running = false ∨ tileReady u x = false → exec (.updateTile d u1 u2) s = .next (finish s (quiet s))) ∧
      (∀ x, clkRuns s = true → tget u.tiles u.doneT = some x → u.running = true → tileReady u x = true →
        (x.poisoned = true → exec (.updateTile d u1 u2) s = .next (finish s (failUpdate (quiet s) d stPoisoned))) ∧
        (x.poisoned = false → (tileIns u u.doneT x).countP (fun i => gradBad u i.2.2.2) = 0 →
          (∀ n, runSlices u 8 (tileIns u u.doneT x) 0 u1 u2 [] 0 = .bad true n → ∃ t, exec (.updateTile d u1 u2) s = .next (finish s
            (occur (failUpdate t d stPlausibility) (mkRec 0x10 0x19 0 0 stPlausibility 0x80 0 u.ctx u.part 0) none)) ∧ t.upd = s.upd ∧ t.mem = s.mem ∧ wbit (reg t 0x31010) 3 = true) ∧
          (∀ l, runSlices u 8 (tileIns u u.doneT x) 0 u1 u2 [] 0 = .ok l 0 → u.pass = 0 → u.doneT + 1 < pgdTiles u.pgd → pgdSrc u.pgd = 1 → ∃ t r, exec (.updateTile d u1 u2) s = .next (finish s t) ∧
            tget t.upd.runs d = some r ∧ r.doneT = u.doneT + 1 ∧ r.pass = 0 ∧ r.wOut = u.wOut ∧ t.mem = s.mem))) ∧
      (updOver s d u = false → exec (.updateComplete d) s = .next (finish s (quiet s))) ∧
      (∀ x, updOver s d u = true → u.phase ≠ 1 → descAt s d = some x → x.phase = .running → ∃ t y, exec (.updateComplete d) s = .next (finish s t) ∧ tget t.upd.runs d = none ∧
        pgdAt t u.part u.group = padTo 128 ((pgdAfter u).take 128) ∧ descAt t d = some y ∧ y.phase = .done ∧ y.status = stOk ∧ t.mem = s.mem ∧ (tget t.upd.cadDue d).isSome = true)) ∧
    (s.upd.cadence = [] → exec .cadenceFlush s = .next (finish s (quiet s))) ∧
    (s.upd.cadence ≠ [] → isMember s = false → ∃ t, exec .cadenceFlush s = .next (finish s t) ∧ t.upd.cadence = [] ∧
      reg t 0x31038 = toW (min ((reg s 0x31038).toNat + s.upd.cadence.length) 0xFFFFFFFF) ∧ t.fab = s.fab) ∧
    (∀ p, s.upd.cadence ≠ [] → isMember s = true → s.dom.policy = some p → p.manager ≠ 0xFFFF → ∃ t f, exec .cadenceFlush s = .next (finish s t) ∧
      t.upd.cadence = s.upd.cadence.drop 123 ∧ t.fab.txq = s.fab.txq ++ [f] ∧ f.dst = p.manager ∧
      reg t 0x31034 = toW (min ((reg s 0x31034).toNat + min 123 s.upd.cadence.length) 0xFFFFFFFF))

/-! Spares and the repair map, the Tandem, alarms and the ladder of resets, the life cycle, registers, and tables. -/

/-- An entry of the repair map names the part it was written for (12 R404): its KIND, its LOCATION and its odd parity say which, for every
part of the block. PIPELINE_ROTATION, ADDER_ROTATION, MEMSEAL_PIPE_ROTATION (06 R214; 12 R402, R403): each tests the next part in turn
that is not mapped out, and a part that fails is mapped out. -/
def Obligations.PartsRotate : Prop :=
  (∀ p : Part, (match p with
    | .aes port _ pipe => port < 8 ∧ pipe < 64
    | .adder port lane => port < 8 ∧ lane < 1024
    | .msPipe n => n < 256
    | .sramRow mac row => mac < 1024 ∧ row < 1024
    | .sramCol mac col => mac < 1024 ∧ col < 1024
    | .core c => c < 4) → wordPart (partWord p) = some p) ∧
  (∀ (s : State) (port : Nat) (rx pass : Bool), engUp s = true →
    (portOk s port = false → (∀ l, exec (.adderRotation port l) s = .next (finish s (quiet s))) ∧ exec (.pipelineRotation port rx pass) s = .next (finish s (quiet s))) ∧
    (portOk s port = true → let k := port * 2 + b2n rx; let g := tgetD s.ladder.rotAdder port 0
      (∀ p, nextGood 36 (tgetD s.ladder.rotAes k 0) (fun p => isMapped s (.aes port rx p)) = some p →
        exec (.pipelineRotation port rx true) s = .next (finish s { quiet s with ladder := { s.ladder with rotAes := tset s.ladder.rotAes k ((p + 1) % 36) } }) ∧
        (s.aon.alarms.length < 256 → ∃ u, exec (.pipelineRotation port rx false) s = .next (finish s u) ∧ u.ladder.mapped = s.ladder.mapped ++ [.aes port rx p] ∧
          u.ladder.rotAes = tset s.ladder.rotAes k ((p + 1) % 36) ∧ wbit (reg u (lpOff port 0x10)) 3 = true)) ∧
      exec (.adderRotation port []) s = .next (finish s { quiet s with ladder := { s.ladder with rotAdder := tset s.ladder.rotAdder port ((g + 1) % 9) } }) ∧
      (∀ l, l / 64 = g → isMapped s (.adder port l) = false → s.aon.alarms.length < 256 → ∃ u, exec (.adderRotation port [l]) s = .next (finish s u) ∧
        u.ladder.mapped = s.ladder.mapped ++ [.adder port l] ∧ u.ladder.rotAdder = tset s.ladder.rotAdder port ((g + 1) % 9))) ∧
    (∀ p, nextGood 160 s.ladder.rotMs (fun p => isMapped s (.msPipe p)) = some p →
      exec (.memsealPipeRotation true) s = .next (finish s { quiet s with ladder := { s.ladder with rotMs := (p + 1) % 160 } }) ∧
      (s.aon.alarms.length < 256 → ∃ u, exec (.memsealPipeRotation false) s = .next (finish s u) ∧ u.ladder.mapped = s.ladder.mapped ++ [.msPipe p] ∧
        ∀ i, i ≠ 1 → slotAt u i = slotAt s i)) ∧
    (nextGood 160 s.ladder.rotMs (fun p => isMapped s (.msPipe p)) = none → exec (.memsealPipeRotation pass) s = .next (finish s (quiet s))))

/-- TD_SYNC_START, TANDEM_SYNCED, MIRROR_HEARTBEAT, MIRROR_RECORD_RX, STANDBY_MIRROR_SILENCE, STANDBY_TAKEOVER_GIVEUP, OWNER_MIRROR_SILENCE,
FENCE_IN_CHANGE (02 R53; 12 R408 to R413): a pair in mirror mode synchronises once, and sends heartbeats in stage 0x6. A standby applies
each record and confirms it by number, an owner notes what is confirmed, answers a synchronisation with the copy and gives the lanes away
when it is asked to; any record shows that the partner lives. Silence at a synchronised standby
with AUTO makes it ready to take over, and at an owner ends the pair. -/
def Obligations.TandemMirror : Prop :=
  ∀ (s : State) (who : Requester) (r : Mirror) (level : Bool),
    (opens s who 0xF000C = true →
      (mirrorMode s = true → s.td.synced = false → s.td.syncing = false → exec (.tdSyncStart who) s = .next (finish s (emit (emit
        { quiet s with td := { s.td with syncing := true, syncErr := false, syncKib := 0, got := 0 } } (.mirror (.sync true))) (.regRsp 0 false)))) ∧
      (mirrorMode s = false ∨ s.td.synced = true ∨ s.td.syncing = true → exec (.tdSyncStart who) s = .next (finish s (emit (quiet s) (.regRsp 0 false))))) ∧
    (s.aon.porN = true → exec (.fenceInChange level) s = .next (finish s { quiet s with td := { s.td with fenceIn := level } })) ∧
    (engUp s = true → mirrorMode s = false → ∀ c ∈ ([.tandemSynced, .mirrorHeartbeat, .mirrorRecordRx r, .standbyMirrorSilence, .standbyTakeoverGiveup,
      .ownerMirrorSilence, .takeover] : List Instr), exec c s = .next (finish s (quiet s))) ∧
    (engUp s = true → mirrorMode s = true → let live := { quiet s with td := { s.td with alive := true, silent := false } }
      (s.td.syncing = true → exec .tandemSynced s = .next (finish s { quiet s with td := { s.td with syncing := false, synced := true, syncKib := 11728 } })) ∧
      (s.td.syncing = false → exec .tandemSynced s = .next (finish s (quiet s))) ∧
      (s.aon.stage = 6 → exec .mirrorHeartbeat s = .next (finish s (emit (quiet s) (.mirror .heartbeat)))) ∧
      exec (.mirrorRecordRx .heartbeat) s = .next (finish s live) ∧
      (s.td.owner = true → ∀ n, exec (.mirrorRecordRx (.confirm n)) s = .next (finish s (releaseAfterHold { live with td := { live.td with confirmed := max s.td.confirmed n } } n))) ∧
      (s.td.owner = true → exec (.mirrorRecordRx (.sync true)) s = .next (finish s (sendCopy live)) ∧ exec (.mirrorRecordRx .ask) s = .next (finish s (handOver live 1))) ∧
      (s.td.owner = false → exec (.mirrorRecordRx (.sync true)) s = .next (finish s live)) ∧
      exec (.mirrorRecordRx (.sync false)) s = .next (finish s { live with td := { live.td with syncing := false, syncErr := true } }) ∧
      (s.td.owner = false → carries r = true →
        (s.td.syncing = false → s.td.synced = false → exec (.mirrorRecordRx r) s = .next (finish s live)) ∧
        (s.td.syncing = true ∨ s.td.synced = true → exec (.mirrorRecordRx r) s = .next (finish s (emit (applyMirror { live with
          td := { live.td with got := s.td.got + 1 } } r) (.mirror (.confirm (s.td.got + 1))))))) ∧
      (s.td.owner = false →
        exec .standbyMirrorSilence s = .next (finish s { quiet s with td := { s.td with alive := false, silent := s.td.synced && wbit (reg s 0xF0000) 1 } }) ∧
        (s.td.synced = true → s.td.fenceOut = false → s.aon.alarms.length < 256 → ∃ u a, exec .standbyTakeoverGiveup s = .next (finish s u) ∧ u.td.silent = false ∧ u.td.synced = false ∧
          u.td.owner = false ∧ u.aon.alarms.getLast? = some a ∧ a.cls = 7 ∧ a.unit = 0x1D ∧ u.keys = s.keys)) ∧
      (s.td.owner = true → s.td.alive = true ∨ s.td.synced = true →
        exec .ownerMirrorSilence s = .next (finish s (dropPartner (mirrorAlarm (quiet s)))))) ∧
    (∀ n k, 3 ≤ n → slotAt (applyMirror s (.key n k)) n = k) ∧ (∀ k c, tget (applyMirror s (.chord k (some c))).links.chord k = some c) ∧
    (∀ k e, tget (applyMirror s (.egress k e)).links.egress k = some e) ∧ (∀ t e, tget (applyMirror s (.tag t e)).fab.tags t = some e) ∧
    (∀ p v, (applyMirror s (.part p v)).parts.part = tset s.parts.part p v) ∧ (∀ kid v, regionAt (applyMirror s (.region kid v)) kid = v) ∧
    (∀ c v, ctxAt (applyMirror s (.ctx c v)) c = v) ∧ (∀ d v, descAt (applyMirror s (.desc d v)) d = v) ∧ (∀ p g b, pgdAt (applyMirror s (.pgd p g b)) p g = b)

/-- TAKEOVER, HANDOVER_RX, BCP_TANDEM_FAILOVER, COMPARE_MISMATCH, COMPARE_KAT_DONE (12 R414 to R417): a synchronised standby that takes over
owns the lanes and raises its fence; what was running ends with ST_CONTEXT_RESET, waits, fences and copies are gone, sessions end, and every
stream counts on past what it could have sent. A failover command is refused outside a synchronised pair. In lockstep-compare a mismatch
holds every output; the tests then leave one instance running, or halt the block. -/
def Obligations.Takeover : Prop :=
  ∀ (s : State) (src cause : Nat) (k : Packet) (a b : Bool),
    (engUp s = true → isStandby s = false ∨ s.td.synced = false → exec .takeover s = .next (finish s (quiet s)) ∧ exec (.handoverRx cause) s = .next (finish s (quiet s))) ∧
    (engUp s = true → isStandby s = true → s.td.synced = true → s.td.silent = false → exec .takeover s = .next (finish s (quiet s))) ∧
    (engUp s = true → isStandby s = true → s.td.synced = true → s.fab.tags = [] → s.aon.alarms.length < 256 →
      ∀ x ∈ ([(.takeover, 5), (.handoverRx cause, cause % 16)] : List (Instr × Nat)), (x.1 = .takeover → s.td.silent = true) →
        ∃ u, exec x.1 s = .next (finish s u) ∧ u = takeOver (quiet s) x.2 ∧ u.td.owner = true ∧ u.td.fenceOut = true ∧ u.td.synced = false ∧ u.td.lastCause = x.2 ∧
          u.td.failovers = min (s.td.failovers + 1) 0xFFFFFFFF ∧ u.fab.waits = [] ∧ u.fab.fences = [] ∧ u.fab.copies = [] ∧ u.ident.sessions = [] ∧ u.keys = s.keys ∧
          (∀ e ∈ u.links.egress, e.2.jump = true ∧ e.2.closing = true) ∧
          (∀ d y, descAt s d = some y → y.phase = .running → ∃ z, descAt u d = some z ∧ z.phase = .done ∧ z.status = stContextReset)) ∧
    (takes s src .tandemFailover k = true →
      (s.td.syncing = true → exec (.bcpTandemFailover src) s = .next (finish s (reply (taken s src) src .tandemFailover k.tag stBusy []))) ∧
      (s.td.syncing = false → mirrorMode s = false ∨ s.td.synced = false →
        exec (.bcpTandemFailover src) s = .next (finish s (reply (taken s src) src .tandemFailover k.tag stNotPermitted []))) ∧
      (s.td.syncing = false → mirrorMode s = true → s.td.synced = true →
        (s.td.owner = true → exec (.bcpTandemFailover src) s = .next (finish s (startBg (taken s src) src .tandemFailover []))) ∧
        (s.td.owner = false → exec (.bcpTandemFailover src) s = .next (finish s (emit (startBg (taken s src) src .tandemFailover []) (.mirror .ask)))))) ∧
    (engUp s = true → fwActs s = false → exec (.backgroundCommandDone src) s = .next (finish s (quiet s))) ∧
    (engUp s = true → fwActs s = true → s.hub.bg = [{ src := src, op := .tandemFailover, holds := [] }] → mirrored s = true →
      exec (.backgroundCommandDone src) s = .next (finish s (failoverDone (handOver (quiet s) 1) src)) ∧ (handOver (quiet s) 1).td.owner = false ∧
      (handOver (quiet s) 1).td.synced = false ∧ (handOver (quiet s) 1).out = [.mirror (.handover 1)]) ∧
    (engUp s = true → (s.tandemEn = false ∨ s.td.modeActive ≠ 1 → exec .compareMismatch s = .next (finish s (quiet s))) ∧
      (s.tandemEn = true → s.td.modeActive = 1 → s.aon.alarms.length < 256 → ∃ u r, exec .compareMismatch s = .next (finish s u) ∧ u.td.outHeld = true ∧
        u.aon.alarms.getLast? = some r ∧ r.cls = 7 ∧ u.keys = s.keys ∧ u.fab = s.fab)) ∧
    (s.aon.porN = true →
      (s.td.outHeld = false ∨ s.aon.haltReq = true → exec (.compareKatDone a b) s = .next (finish s (quiet s))) ∧
      (s.td.outHeld = true → s.aon.haltReq = false →
        (∃ u, exec (.compareKatDone true true) s = .next (finish s u) ∧ u.aon.haltReq = true ∧ u.aon.haltCause = 7) ∧
        (a = false ∨ b = false → s.tandemId = (b || !a) → exec (.compareKatDone a b) s = .next (finish s
          { quiet s with td := { s.td with owner := false, fenceIn := true } })) ∧
        (a = false ∨ b = false → s.tandemId ≠ (b || !a) → exec (.compareKatDone a b) s = .next (finish s
          { quiet s with td := { s.td with outHeld := false, owner := true, fenceOut := true, modeActive := 2 } }))))

/-- ALM_POP, ALM_HALT, WATCHDOG_EXPIRY, SRAM_UNCORRECTABLE (12 R385, R389, R393, R400): a pop takes the oldest record; ALM_CTRL.HALT halts
the block with cause 6; the watchdog of a unit with pending work asks for an L1 of the unit, with a WATCHDOG record; an uncorrectable
error is counted, and costs what the macro held: a slot below 16 or a vital array an L3, another slot its key. -/
def Obligations.AlarmActions : Prop :=
  ∀ (s : State) (who : Requester) (unit n d : Nat),
    (opens s who 0x5008 = true → exec (.almPop who) s = .next (finish s (emit { quiet s with aon := { s.aon with alarms := s.aon.alarms.drop 1 } } (.regRsp 0 false)))) ∧
    (opens s who 0x5004 = true → s.aon.haltReq = false → ∃ u, exec (.almHalt who) s = .next (finish s u) ∧ u.aon.haltReq = true ∧ u.aon.haltCause = 6 ∧ u.keys = KeyStore.reset ∧
      u.dom = Domain.reset ∧ u.otp = s.otp) ∧
    (engUp s = true →
      (s.aon.stage ≠ 6 ∨ unitOk s unit = false ∨ unitPending s unit = false ∨ s.hub.run ≠ .running → exec (.watchdogExpiry unit) s = .next (finish s (quiet s))) ∧
      (s.aon.stage = 6 → unitOk s unit = true → unitPending s unit = true → s.hub.run = .running → s.aon.alarms.length < 256 → ∃ u q r, exec (.watchdogExpiry unit) s = .next (finish s u) ∧
        u.ladder.queue = s.ladder.queue ++ [q] ∧ q.level = 1 ∧ q.unit = unit ∧ q.cause = 0x13 ∧ u.aon.alarms.getLast? = some r ∧ r.cls = 0x13 ∧ r.unit = unit ∧ u.keys = s.keys) ∧
      (s.aon.alarms.length < 256 →
        (∃ u, exec (.sramUncorrectable .cached) s = .next (finish s u) ∧ reg u 0x80014 = toW (min ((reg s 0x80014).toNat + 1) 0xFFFFFFFF) ∧ u.ladder = s.ladder ∧ u.keys = s.keys ∧
          u.mem = s.mem ∧ u.fab = s.fab ∧ u.links = s.links) ∧
        (∃ u q, exec (.sramUncorrectable .vital) s = .next (finish s u) ∧ u.ladder.queue = s.ladder.queue ++ [q] ∧ q.level = 3 ∧ q.cause = 0x18) ∧
        (n < 16 → ∃ u q, exec (.sramUncorrectable (.keySlot n)) s = .next (finish s u) ∧ u.ladder.queue = s.ladder.queue ++ [q] ∧ q.level = 3 ∧ u.keys = s.keys) ∧
        (16 ≤ n → (slotAt s n).gen < 0xFFFFFFFF → ∃ u, exec (.sramUncorrectable (.keySlot n)) s = .next (finish s u) ∧ u.ladder = s.ladder ∧
          slotAt u n = { slotAt s n with key := 0, gen := (slotAt s n).gen + 1, state := 0 }) ∧
        (∀ g x, tget s.red.stages d = some g → descAt s d = some x → x.phase = .running → s.upd.fuses = [] → ∃ u y, exec (.sramUncorrectable (.hold d)) s = .next (finish s u) ∧
          tget u.red.stages d = none ∧ descAt u d = some y ∧ y.status = stPoisoned)))

/-- RST_L1, RST_L2, RST_PORT_RETURN, PORT_AUTO_RETURN, RST_L3, RESET_LEVEL_END, RESET_DEADLINE_MISS (12 R394 to R399, R468): an L1 of a
reduce unit ends the unit's work and maps out its failing parts; it leads to the next rung where a part has no spare, and is that rung
instead where the unit had four within a second. An L2 isolates its port and maps out its failing parts. A port returns by command, or by
itself when it was isolated for its last lane and a lane is back. An L3 waits for its notice and for its writebacks, and boots the block
anew, its fuses and alarms kept. A level that ends leaves its record; one that misses its deadline starts the next rung, and the last one
halts; an L0 that misses its own asks for an L1 of every unit that has not confirmed. -/
def Obligations.ResetLadder : Prop :=
  ∀ (s : State) (unit port : Nat) (who : Requester) (env : BootEnv) (q : ResetReq) (rest : List ResetReq) (fails : List Part) (pt : PortTest),
    (engUp s = true → nextReset s = some q →
      (q.level ≠ 1 ∨ q.unit ≠ unit → exec (.rstL1 unit fails) s = .next (finish s (quiet s))) ∧
      (q.level = 1 → q.unit = unit → 4 ≤ l1Recent s unit → exec (.rstL1 unit fails) s = .next (finish s (setReset (quiet s) [nextRung s q]))) ∧
      (q.level = 1 → q.unit = unit → unit < 8 → l1Recent s unit < 4 → ∃ u, exec (.rstL1 unit fails) s = .next (finish s u) ∧
        u.ladder.queue = putReset s.ladder.queue [if unspared s unit fails then nextRung s q else { q with done := true }] ∧
        u.ladder.lastLevel = 1 ∧ u.ladder.lastUnit = unit ∧ (unit, s.aon.ts) ∈ u.ladder.l1Times ∧
        (∀ p ∈ u.red.stages, p.2.port ≠ unit) ∧ (∀ p ∈ fails, (partUnit p).1 = unit → isMapped u p = true) ∧ (fails = [] → u.keys = s.keys)) ∧
      (q.level ≠ 2 ∨ q.port ≠ pt.port → exec (.rstL2 pt) s = .next (finish s (quiet s))) ∧
      (pt.port = port → q.level = 2 → q.port = port → ∃ u, exec (.rstL2 pt) s = .next (finish s u) ∧ portIsolated u port = true ∧ u.ladder.queue = putReset s.ladder.queue [{ q with done := true }] ∧
        (∀ k ∈ lanesOf port, (laneAt u k).cause ≠ 0 ∨ (q.byLast = true ∧ laneBack s k = true)) ∧ (∀ p ∈ u.red.stages, p.2.port ≠ port) ∧
        (∀ p ∈ pt.fails, (partUnit p).1 = port ∨ (partUnit p).1 = 0x08 + port ∨ (partUnit p).1 = 0x10 + port → isMapped u p = true))) ∧
    (opens s who 0x5044 = true → let p := port % 8
      (resetBusy s = true ∨ portOk s p = false → exec (.rstPortReturn port who []) s = .next (finish s (emit (quiet s) (.regRsp 0 false)))) ∧
      (resetBusy s = false → portOk s p = true → exec (.rstPortReturn port who []) s = .next (finish s (emit (returnPort (quiet s) p []) (.regRsp 0 false))) ∧
        portIsolated (returnPort (quiet s) p []) p = false)) ∧
    (engUp s = true → let back := (lanesOf port).any (fun k => (laneAt s k).cause == 0)
      (s.ladder.isoAuto.contains port = false ∨ back = false → exec (.portAutoReturn port) s = .next (finish s (quiet s))) ∧
      (s.ladder.isoAuto.contains port = true → back = true → ∃ u, exec (.portAutoReturn port) s = .next (finish s u) ∧ portIsolated u port = false ∧ u.ladder.isoAuto.contains port = false)) ∧
    (s.aon.porN = true → s.aon.rstN = true → s.aon.haltReq = false → nextReset s = some q →
      (q.level ≠ 3 → exec (.rstL3 env) s = .next (finish s (quiet s))) ∧
      (q.level = 3 → q.step = 0 → noticeOut (beginL3 (quiet s) q) = true → exec (.rstL3 env) s = .next (finish s (beginL3 (quiet s) q))) ∧
      (q.level = 3 → q.step = 1 → (stopL3 (quiet s) q).fab.hot ≠ [] → exec (.rstL3 env) s = .next (finish s (stopL3 (quiet s) q)) ∧
        (stopL3 (quiet s) q).aon.dataStopped = true) ∧
      (q.level = 3 → q.step = 2 → (lcScan s).2 = none → ∃ u, exec (.rstL3 env) s = .next (finish s u) ∧ u.aon.stage = 4 ∧ u.aon.ready = false ∧
        u.otp.fuse = s.otp.fuse ∧ u.aon.alarms = s.aon.alarms ∧ u.keys.slots = [] ∧ u.dom = Domain.reset ∧ u.parts.part = [] ∧ u.fab.tags = [] ∧
        u.ladder.field = (fieldRead { s with keys := KeyStore.reset } env.flash).take fieldCap)) ∧
    (s.aon.porN = true → s.aon.haltReq = false → s.ladder.queue = q :: rest →
      (q.done = true → q.level ≠ 3 ∨ s.aon.stage = 6 → exec .resetDeadlineMiss s = .next (finish s (quiet s)) ∧ (s.aon.alarms.length < 256 →
        ∃ u r, exec .resetLevelEnd s = .next (finish s u) ∧ u.ladder.queue = rest ∧ u.aon.alarms.getLast? = some r ∧ r.cls = 0x13 ∧ u.aon.haltReq = false)) ∧
      (q.done = false ∨ (q.level = 3 ∧ s.aon.stage ≠ 6) → exec .resetLevelEnd s = .next (finish s (quiet s)) ∧ (s.aon.alarms.length < 256 →
        (q.level ≠ 3 → ∃ u, exec .resetDeadlineMiss s = .next (finish s u) ∧ u.ladder.queue = nextRung s q :: rest ∧ u.ladder.escalated = true ∧ u.aon.haltReq = false) ∧
        (q.level = 3 → ∃ u, exec .resetDeadlineMiss s = .next (finish s u) ∧ u.aon.haltReq = true ∧ u.aon.haltCause = 4)))) ∧
    (s.aon.porN = true → s.ladder.queue = [] → exec .resetLevelEnd s = .next (finish s (quiet s)) ∧
      (s.aon.haltReq = false → exec .resetDeadlineMiss s = .next (finish s (missL0 (quiet s)))) ∧ (s.ladder.late = [] → missL0 (quiet s) = quiet s) ∧
      (∀ x ∈ s.ladder.late, ∃ r ∈ (missL0 (quiet s)).ladder.queue, r.level = 1 ∧ r.unit = x.2))

/-- A write of RST_CMD starts nothing, counts nothing, places no record, sends no notice and leaves RST_STATUS unchanged in the cases of 12
R467: OP is 0 or from 5 to 7, OP 1 names a unit that is not listed or whose port is absent, OP 2 or 3 a port that is absent, or a reset is
in progress. -/
def Obligations.ResetCommandIgnored : Prop :=
  ∀ (s : State) (w : Word) (who : Requester), opens s who 0x5044 = true →
    (fld w 2 0 = 0 ∨ 5 ≤ fld w 2 0) ∨ (fld w 2 0 = 1 ∧ unitOk s (fld w 12 8) = false) ∨
      ((fld w 2 0 = 2 ∨ fld w 2 0 = 3) ∧ portOk s (fld w 18 16) = false) ∨ resetBusy s = true →
    exec (.registerWrite 0x5044 w who) s = .next (finish s (emit (quiet s) (.regRsp 0 false)))

/-- LC_TRANSITION_GO, OTP_READ, OTP_PROGRAM, OTP_WRITE_DONE (04 R106, R107, R129 to R133): a write of LC_TRANSITION acts only with GO. A
transition that is not in the table, one to PROD at stage 0xF without a usable bank, one that has no record left or fails its token is
refused with its error; one accepted writes its intent, its commit word and, for a state without keys, the key words; the present state
stays until reset. Words are read and programmed only where the table allows it. A word write adds bits and takes none away, is retried
once, and then fails. -/
def Obligations.LifeCycle : Prop :=
  ∀ (s : State) (w : Word) (who : Requester) (failAt : Option Nat) (i : Nat),
    (fuseW (blow s i w) i = fuseW s i ||| w ∧ ∀ j, j ≠ i → fuseW (blow s i w) j = fuseW s j) ∧
    (opens s who 0x4004 = true → let target := fld w 3 0; let idx := fld w 7 4; let n := nextPair s
      let absorbed := if s.otp.wrongTokens < 3 ∧ idx < 8 then absorbZero (quiet s) 26 else quiet s
      let refused := fun (e : Nat) (t : State) => finish s (emit { t with otp := { t.otp with phase := 3, error := e, token := [0, 0, 0, 0] } } (.regRsp 0 false))
      (s.otp.phase = 1 ∨ s.otp.phase = 2 ∨ s.otp.busy.isSome = true → exec (.lcTransitionGo w failAt who) s = .next (finish s (emit (quiet s) (.regRsp 0 false)))) ∧
      (s.otp.phase ≠ 1 → s.otp.phase ≠ 2 → s.otp.busy = none →
        ((lcOf target).bind (lcPermits s) = none → exec (.lcTransitionGo w failAt who) s = .next (refused 1 (quiet s))) ∧
        (∀ tok, (lcOf target).bind (lcPermits s) = some tok →
          (n = 32 → exec (.lcTransitionGo w failAt who) s = .next (refused 4 (quiet s))) ∧
          (n ≠ 32 → tok = true → ∀ e, tokenError s idx = some e → exec (.lcTransitionGo w failAt who) s = .next (refused e { absorbed with otp := { s.otp with
            wrongTokens := if e = 2 ∧ s.otp.wrongTokens < 3 then s.otp.wrongTokens + 1 else s.otp.wrongTokens } })) ∧
          (n < 32 → tok = false ∨ tokenError s idx = none → let k := if tok = true then idx else 15
            (∃ u, exec (.lcTransitionGo w none who) s = .next (finish s u) ∧ u.otp.phase = 2 ∧ u.otp.error = 0 ∧ u.otp.lc = s.otp.lc ∧ u.aon.ready = false ∧ u.aon.dataStopped = true ∧
              (s.dom.vertex.isSome = true → u.dom.member = false) ∧ fuseW u (2 * n) = fuseW s (2 * n) ||| intentWord target k ∧ fuseW u (2 * n + 1) = 0xFFFFFFFF#32 ∧
              (target = 6 ∨ target = 7 → u.keys = KeyStore.reset ∧ u.links.chord = [] ∧ ∀ j, j < 16 → fuseW u (0xC0 + j) = 0xFFFFFFFF#32 ∧ fuseW u (0xD1 + j) = 0xFFFFFFFF#32)) ∧
            (∃ u, exec (.lcTransitionGo w (some 0) who) s = .next (finish s u) ∧ u.otp.phase = 3 ∧ u.otp.error = 5 ∧ u.otp.lc = s.otp.lc ∧ u.aon.dataStopped = true))))) ∧
    (opens s who 0x4004 = true → exec (.registerWrite 0x4004 w who) s = (if wbit w 8 then exec (.lcTransitionGo w none who) s
      else .next (finish s (emit (quiet s) (.regRsp 0 false))))) ∧
    (s.aon.stage = 15 → s.otp.lc = .manuf → noBank s = true → lcPermits s .prod = none) ∧
    (opens s who 0x4028 = true → let rsp := fun (t : State) => finish s (emit t (.regRsp 0 false))
      (s.otp.busy.isSome = true → exec (.otpRead who) s = .next (rsp (quiet s)) ∧ exec (.otpProgram who) s = .next (rsp (quiet s))) ∧
      (s.otp.busy = none →
        (otpReadable (otpAddr s) = true → exec (.otpRead who) s = .next (rsp { quiet s with otp := { s.otp with rdata := fuseW s (otpAddr s) } })) ∧
        (otpReadable (otpAddr s) = false → exec (.otpRead who) s = .next (rsp (setBits { quiet s with otp := { s.otp with rdata := 0 } } 0x4030 2))) ∧
        (otpProgrammable s.otp.lc (otpAddr s) = true → exec (.otpProgram who) s = .next (rsp { quiet s with otp := { s.otp with
          busy := some { word := otpAddr s, val := reg s 0x4024, retried := false } } })) ∧
        (otpProgrammable s.otp.lc (otpAddr s) = false → exec (.otpProgram who) s = .next (rsp (setBits (quiet s) 0x4030 2))))) ∧
    (s.aon.porN = true →
      (s.otp.busy = none → exec (.otpWriteDone w) s = .next (finish s (quiet s))) ∧
      (∀ b, s.otp.busy = some b → let t := blow (quiet s) b.word (w &&& b.val); let idle := { t with otp := { t.otp with busy := none } }
        (fuseW t b.word &&& b.val = b.val → exec (.otpWriteDone w) s = .next (finish s idle)) ∧
        (fuseW t b.word &&& b.val ≠ b.val → b.retried = false → exec (.otpWriteDone w) s = .next (finish s { t with otp := { t.otp with busy := some { b with retried := true } } })) ∧
        (fuseW t b.word &&& b.val ≠ b.val → b.retried = true → exec (.otpWriteDone w) s = .next (finish s (setBits idle 0x4030 4)))))

/-- Register accesses (02 R45; 14 R450 to R454): one that its requester may not make, or whose block does not answer, is answered with an
error and 0 and changes nothing; while tvd_reg_req_ready is low none is taken. A plain register takes the bits that software writes, keeps
its others, and clears the bits that a 1 clears. REGISTER_WRITE, RC_COUNTER_READ, LO_CAPTURE_READ, MS_WEAR_SEL_WRITE, LP_CTRL_WRITE,
LP_UNFENCE (06 R197, R215; 08 R291; 14 R454 to R456): a counter's read gives its value and clears it; a read of a LO register captures its
HI, which a later read then gives. LANE_ALLOW and LP_UNFENCE fence and return lanes. A range register keeps its value where the value
written is outside its range. -/
def Obligations.Registers : Prop :=
  ((∀ (s : State) (who : Requester) (w : Word) (a b : Nat) (acc : Access) (fa : Option Nat) (l : List Part),
    ∀ r ∈ ([(.mbxInData a w who, mbxReg a 0), (.mbxClear a who, mbxReg a 4), (.mbxGo a who, mbxReg a 4), (.mbxOutDataRead a who, mbxReg a 0xC), (.mbxDone a who, mbxReg a 0x14),
        (.lcTransitionGo w fa who, 0x4004), (.otpRead who, 0x4028), (.otpProgram who, 0x4028), (.almHalt who, 0x5004), (.almPop who, 0x5008), (.rstPortReturn a who l, 0x5044),
        (.lpCtrlWrite a w who, lpOff (a % 8) 0), (.lpUnfence a w who, lpOff (a % 8) 0xC), (.msWearSelWrite w who, 0x20100), (.dbgRingEnable w who, 0x70018), (.tsAdjGo who, 0x60040),
        (.tdSyncStart who, 0xF000C), (.ptReset a who, ptOff (a % 16) 8), (.ptWinCommit a who, ptOff (a % 16) 0x34), (.cxDoorbell a w who, cxOff (a % 64) 0),
        (.cxCreate a who acc, cxOff (a % 64) 4), (.cxLoad a b who acc, cxOff (a % 64) 4), (.cxUnload a who acc, cxOff (a % 64) 4), (.cxQcfgWrite a w who, cxOff (a % 64) 0x34),
        (.cxOwnKidWrite a b w who, cxOff (a % 64) (0x40 + 4 * (b % 8))), (.rcCounterRead (4 * b) who, 4 * b), (.loCaptureRead (4 * b) who, 4 * b), (.registerWrite (4 * b) w who, 4 * b)] : List (Instr × Nat)),
      (closed s who r.2 = true → exec r.1 s = .next (finish s (emit (quiet s) (.regRsp 0 true)))) ∧
      (regOpen s = false → r.2 < 0x100000 → exec r.1 s = .next (quiet s))) ∧
  (∀ (s : State) (off : Nat) (w : Word) (i : Nat), i < 32 →
    (wbit (rwMask off) i = true → wbit (reg (plainWrite s off w) off) i = wbit w i) ∧
    (rwMask off = 0 → wbit (w1cMask off) i = true → wbit (reg (plainWrite s off w) off) i = (wbit (reg s off) i && !wbit w i)) ∧
    (wbit (rwMask off) i = false → (rwMask off ≠ 0 ∨ wbit (w1cMask off) i = false) → wbit (reg (plainWrite s off w) off) i = wbit (reg s off) i)) ∧
  (∀ (s : State) (off o : Nat) (w : Word), o ≠ off → reg (plainWrite s off w) o = reg s o)) ∧
  (∀ (s : State) (who : Requester) (off port k : Nat) (w : Word), off % 4 = 0 →
    let rsp := fun (t : State) => finish s (emit t (.regRsp 0 false))
    (opens s who off = true →
      (isRc off = true → isCaptured off = false → off ≠ 0x80010 → ∃ u, exec (.rcCounterRead off who) s = .next (finish s u) ∧ u.out = [.regRsp (regLive (quiet s) who off) false] ∧ reg u off = 0 ∧
        (∀ o, o ≠ off → reg u o = reg s o) ∧ u.keys = s.keys ∧ u.mem = s.mem ∧ u.fab = s.fab ∧ u.parts = s.parts) ∧
      (off = 0x80010 → exec (.rcCounterRead off who) s = .next (finish s (emit (freeN (quiet s)).2 (.regRsp (toW (freeN (quiet s)).1) false)))) ∧
      (∀ o ∈ captures off, isCaptured off = false → isRc off = false → (∀ m, regBlk off ≠ .mbox m) → ∃ u, exec (.loCaptureRead off who) s = .next (finish s u) ∧
        u.out = [.regRsp (regLive (quiet s) who off) false] ∧ (regRead u who o).1 = regLive (quiet s) who o ∧ u.win = s.win) ∧
      (off = 0x1A010 → (1 ≤ fld w 3 0 → exec (.registerWrite off w who) s = .next (rsp (setReg (quiet s) off (w &&& 0xF#32)))) ∧
        (fld w 3 0 = 0 → exec (.registerWrite off w who) s = .next (rsp (quiet s)))) ∧
      (off = 0x30008 → exec (.registerWrite off w who) s = .next (rsp (plainWrite (quiet s) off w))) ∧
      (regBlk off = .ident → exec (.registerWrite off w who) s = .next (rsp (quiet s)))) ∧
    (opens s who 0x20100 = true → exec (.msWearSelWrite w who) s = .next (rsp { setReg (quiet s) 0x20100 (w &&& 0x3F#32) with
      mem := { s.mem with wearCap := tget s.mem.wear (fld w 5 0) } })) ∧
    (port < 8 → opens s who (lpOff port 0) = true →
      (portOk s port = false → exec (.lpCtrlWrite port w who) s = .next (rsp (quiet s))) ∧
      (portOk s port = true → exec (.lpCtrlWrite port w who) s = .next (rsp (lpCtrl (quiet s) port w)) ∧
        ((∀ j, j < 8 → wbit w j = wbit (reg s (lpOff port 0)) j) → lpCtrl s port w = setReg s (lpOff port 0) (w &&& 0xFF#32)))) ∧
    (port < 8 → k < 8 → opens s who (lpOff port 0xC) = true →
      (portOk s port = false → exec (.lpUnfence port w who) s = .next (rsp (quiet s))) ∧
      (portOk s port = true → w = BitVec.ofNat 32 (2 ^ k) → let c := (laneAt s (laneNo port k)).cause
        (c = 2 ∨ c = 3 ∨ c = 6 → (laneAt s (laneNo port k)).up = true → laneAllow s (laneNo port k) = true → heldIsolated s port = false →
          exec (.lpUnfence port w who) s = .next (rsp (returnLane (quiet s) (laneNo port k)))) ∧
        (c ≠ 2 → c ≠ 3 → c ≠ 6 → exec (.lpUnfence port w who) s = .next (rsp (quiet s))))))

/-- The tables State holds keep their keys strictly rising under every operation on them, and a read finds what the last write of its key
put there. -/
def Obligations.TablesSorted : Prop :=
  ∀ (α : Type) (t : Tbl α) (i j : Nat) (v : α) (f : Nat → α → α) (p : Nat → α → Bool), tsorted t = true →
    tsorted (tset t i v) = true ∧ tsorted (tdel t i) = true ∧ tsorted (tmapV t f) = true ∧ tsorted (tkeep t p) = true ∧
    tget (tset t i v) i = some v ∧ (j ≠ i → tget (tset t i v) j = tget t j) ∧ tget (tdel t i) i = none ∧ (j ≠ i → tget (tdel t i) j = tget t j) ∧
    tget (tmapV t f) i = (tget t i).map (f i) ∧ tget (tkeep t p) i = (tget t i).filter (p i) ∧ (i < j → tset (tset t i v) j v = tset (tset t j v) i v)
end

