-- ==== Sys2Proof/Laws/Settle.lean ====
section
/-! SUPPORT. What follows a command where nothing waits, and the frames in which commands run. -/

namespace Sys2Proof.Machine

/-- A fold whose every step leaves the state alone leaves it alone. -/
theorem foldl_fixed {α : Type} (l : List α) (f : State → α → State) (s : State) (h : ∀ x ∈ l, f s x = s) : l.foldl f s = s := by
  induction l with
  | nil => rfl
  | cons x xs ih =>
    rw [List.foldl_cons, h x (by simp)]
    exact ih (fun y hy => h y (by simp [hy]))

theorem settleFaults_none (s : State) (h : s.parts.faultDue = []) : settleFaults s = s := by
  have e : ({ s with parts := { s.parts with faultDue := [] } } : State) = s := by rw [← h]
  simp only [settleFaults, e, h, List.foldl_nil]

theorem settleMoves_none (s : State) (h : ∀ p ∈ s.fab.tags, p.2.move = true → p.2.recs = 0) : settleMoves s = s := by
  unfold settleMoves
  refine foldl_fixed _ _ s fun p hp => ?_
  obtain ⟨hm, hv⟩ := List.mem_filter.mp hp
  simp [h p hm hv]

theorem settleHomes_none (s : State) (h : ∀ p ∈ s.fab.homes, ¬(p.2.phase = 5 ∧ p.2.wait = 0)) : settleHomes s = s := by
  have e : s.fab.homes.filter (fun p => p.2.phase == 5 && p.2.wait == 0) = [] := by
    simpa [List.filter_eq_nil_iff] using h
  simp only [settleHomes, e, List.foldl_nil]

theorem settleDrains_none (s : State) (h : ∀ x ∈ s.mem.drains, ∃ i ∈ x.ops, (tget s.mem.ops i).isSome = true) :
    settleDrains s = s := by
  have e : s.mem.drains.filter (fun x => !x.ops.any (fun i => (tget s.mem.ops i).isSome)) = [] := by
    rw [List.filter_eq_nil_iff]
    intro x hx
    obtain ⟨i, hi, hs⟩ := h x hx
    have ha : (x.ops.any fun i => (tget s.mem.ops i).isSome) = true := List.any_eq_true.mpr ⟨i, hi, hs⟩
    simp only [ha, Bool.not_true, Bool.false_eq_true, not_false_eq_true]
  simp only [settleDrains, e, List.foldl_nil]

theorem settleFences_none (s : State) (h : ∀ f ∈ s.fab.fences, fenceOpen s f = true) : settleFences s = s := by
  unfold settleFences
  refine foldl_fixed _ _ s fun d hd => ?_
  rw [List.mem_dedup, List.mem_map] at hd
  obtain ⟨f, hf, rfl⟩ := hd
  have : s.fab.fences.any (fun g => g.desc == f.desc && fenceOpen s g) = true :=
    List.any_eq_true.mpr ⟨f, hf, by simp [h f hf]⟩
  simp [this]

/-- The entry a table answers with is one of its entries. -/
theorem tget_mem {α : Type} (t : Tbl α) (k : Nat) (v : α) (h : tget t k = some v) : ∃ p ∈ t, p.2 = v := by
  induction t with
  | nil => simp [tget] at h
  | cons p t ih =>
    obtain ⟨i, w⟩ := p
    simp only [tget] at h
    split at h
    · exact ⟨(i, w), by simp, by simpa using h⟩
    · obtain ⟨q, hq, hv⟩ := ih h
      exact ⟨q, by simp [hq], hv⟩

theorem settleUpdates_none (s : State) (h : ∀ p ∈ s.upd.runs, p.2.failed = none) : settleUpdates s = s := by
  unfold settleUpdates
  refine foldl_fixed _ _ s fun p _ => ?_
  cases hv : tget s.upd.runs p.1 with
  | none => simp
  | some v =>
    obtain ⟨q, hq, rfl⟩ := tget_mem _ _ _ hv
    simp [h q hq]

theorem settleStream_none (s : State) (h : (mb s 17).replies = [] ∨ ((mb s 17).rd ≠ 0 ∧ replyOut s = true)) :
    settleStream s = s := by
  unfold settleStream
  rcases h with h | ⟨h1, h2⟩
  · simp [h]
  · cases e : (mb s 17).replies <;> simp [h1, h2, e]

theorem settleLeave_none (s : State) (h : s.dom.leaving = false) : settleLeave s = s := by simp [settleLeave, h]

/-- What `calm` says, part by part. -/
theorem calm_faults (s : State) (h : calm s = true) : settleFaults s = s := by
  refine settleFaults_none s ?_
  simpa using (show s.parts.faultDue.isEmpty = true by simp_all [calm])

theorem calm_moves (s : State) (h : calm s = true) : settleMoves s = s :=
  settleMoves_none s fun p hp hm => by
    have := (show s.fab.tags.all (fun p => !p.2.move || p.2.recs == 0) = true by simp only [calm, Bool.and_eq_true] at h; tauto)
    simpa [hm] using List.all_eq_true.mp this p hp

theorem calm_homes (s : State) (h : calm s = true) : settleHomes s = s :=
  settleHomes_none s fun p hp => by
    have := (show s.fab.homes.all (fun p => !(p.2.phase == 5 && p.2.wait == 0)) = true by
      simp only [calm, Bool.and_eq_true] at h; tauto)
    rintro ⟨a, b⟩
    simpa [a, b] using List.all_eq_true.mp this p hp

theorem calm_drains (s : State) (h : calm s = true) : settleDrains s = s :=
  settleDrains_none s fun x hx => by
    have := (show s.mem.drains.all (fun x => x.ops.any (fun i => (tget s.mem.ops i).isSome)) = true by
      simp only [calm, Bool.and_eq_true] at h; tauto)
    simpa using List.all_eq_true.mp this x hx

theorem calm_fences (s : State) (h : calm s = true) : settleFences s = s :=
  settleFences_none s fun f hf => by
    have := (show s.fab.fences.all (fun f => fenceOpen s f) = true by simp only [calm, Bool.and_eq_true] at h; tauto)
    exact List.all_eq_true.mp this f hf

theorem calm_updates (s : State) (h : calm s = true) : settleUpdates s = s :=
  settleUpdates_none s fun p hp => by
    have := (show s.upd.runs.all (fun p => p.2.failed.isNone) = true by simp only [calm, Bool.and_eq_true] at h; tauto)
    simpa using List.all_eq_true.mp this p hp

theorem calm_stream (s : State) (h : calm s = true) : settleStream s = s := by
  refine settleStream_none s ?_
  have := (show ((mb s 17).replies.isEmpty || (decide ((mb s 17).rd ≠ 0) && replyOut s)) = true by
    simp only [calm, Bool.and_eq_true] at h; tauto)
  simpa using this

theorem calm_leave (s : State) (h : calm s = true) : settleLeave s = s := by
  refine settleLeave_none s ?_
  simpa using (show (!s.dom.leaving) = true by simp only [calm, Bool.and_eq_true] at h; tauto)

/-- Where nothing waits to complete of itself, settling changes nothing. -/
theorem settle_calm (s : State) (h : calm s = true) : settle s = s := by
  simp only [settle, calm_faults s h, calm_moves s h, calm_homes s h, calm_drains s h, calm_fences s h, calm_updates s h,
    calm_stream s h, calm_leave s h]

/-- A block that is not halted is not clamped. -/
theorem haltClamp_up (t : State) (h : t.aon.haltReq = false) : haltClamp t = t := by simp [haltClamp, h]

/-- An owner that feeds no standby sends nothing over the mirror. -/
theorem mirrorSetup_single (s t : State) (h : mirrors t = false) : mirrorSetup s t = t := by simp [mirrorSetup, h]

/-- The queue and the latches stand as the command left them. -/
theorem latch_same (s t : State) (hp : t.pending = s.pending) (hh : t.aon.haltReq = s.aon.haltReq)
    (hr : t.aon.testRoot = s.aon.testRoot) : latch s t = t := by
  cases t with
  | mk pending out fresh draws size tandemEn tandemId win cap aon =>
    cases aon
    simp_all [latch]

/-- Where nothing waits, the block is not halted and no standby listens, a command's effect is all that happens. -/
theorem finish_calm (s t : State) (hc : calm t = true) (hm : mirrors t = false) (hh : t.aon.haltReq = false)
    (hs : s.aon.haltReq = false) (hp : t.pending = s.pending) (hr : t.aon.testRoot = s.aon.testRoot) : finish s t = t := by
  rw [finish, settle_calm t hc, mirrorSetup_single s t hm, latch_same s t hp (hh.trans hs.symm) hr, haltClamp_up t hh]

/-! The frames. -/

theorem runEng_up (f : State → State) (s : State) (h : engUp s = true) : runEng f s = .next (present f s) := by simp [runEng, h]

theorem runEng_down (f : State → State) (s : State) (h : engUp s = false) : runEng f s = .next (quiet s) := by simp [runEng, h]

theorem runAon_up (f : State → State) (s : State) (h : s.aon.porN = true) : runAon f s = .next (present f s) := by
  simp [runAon, h]

theorem runAon_down (f : State → State) (s : State) (h : s.aon.porN = false) : runAon f s = .next (quiet s) := by
  simp [runAon, h]

/-- `calm` does not look at what was presented. -/
@[simp] theorem calm_quiet (s : State) : calm (quiet s) = calm s := rfl

@[simp] theorem quiet_quiet (s : State) : quiet (quiet s) = quiet s := rfl

/-- The clamp leaves the queue and the latches. -/
theorem haltClamp_keeps (t : State) : (haltClamp t).pending = t.pending ∧ (haltClamp t).aon.haltReq = t.aon.haltReq ∧
    (haltClamp t).aon.testRoot = t.aon.testRoot := by
  by_cases h : t.aon.haltReq = true <;> simp only [haltClamp, h] <;> exact ⟨rfl, by simp_all, rfl⟩

/-- The clamp zeroes a halted block. -/
theorem haltClamp_zeroed (t : State) : zeroed (haltClamp t) := by
  intro h
  have hh : t.aon.haltReq = true := (haltClamp_keeps t).2.1 ▸ h
  simp only [haltClamp, hh, if_true]
  refine ⟨?_, ?_, ?_, ?_, ?_, ?_, ?_, ?_, ?_, ?_, ?_⟩
  case refine_11 =>
    intro p hp
    simp only [tmapV, List.mem_map] at hp
    obtain ⟨q, _, rfl⟩ := hp
    exact ⟨rfl, rfl⟩
  all_goals trivial

/-- What a command leaves of the queue and the latches, whatever it does. -/
theorem finish_keeps (s t : State) : (finish s t).pending = s.pending ∧ latched s (finish s t) := by
  unfold finish
  generalize mirrorSetup s (settle t) = u
  have k := haltClamp_keeps (latch s u)
  refine ⟨k.1, fun h => ?_, fun h => ?_⟩
  · rw [k.2.1]; simp [latch, h]
  · rw [k.2.2]; simp [latch, h]

/-- A halted block is zeroed after a command. -/
theorem finish_zeroed (s t : State) : zeroed (finish s t) := haltClamp_zeroed _

end Sys2Proof.Machine
end

