-- ==== Sys2Proof/Laws/Ops.lean ====
section
/-! SUPPORT. What the shared operations can do, said once for each. -/

namespace Sys2Proof.Machine

/-- A fold of steps that write the register window writes the register window. -/
theorem foldl_win {α : Type} (l : List α) (f : State → α → State) (h : ∀ t x, ∃ w, f t x = { t with win := w }) (s : State) :
    ∃ w, l.foldl f s = { s with win := w } := by
  induction l generalizing s with
  | nil => exact ⟨s.win, rfl⟩
  | cons x xs ih =>
    obtain ⟨w, hw⟩ := h s x
    obtain ⟨v, hv⟩ := ih (f s x)
    exact ⟨v, by rw [List.foldl_cons, hv, hw]⟩

/-- `t` is `s` but for counters, their overflow bits in the register window, and free values drawn. -/
def Counts (s t : State) : Prop :=
  ∃ c n w f, t = { s with aon := { s.aon with cnt := c }, dbg := { s.dbg with cnt := n }, win := w, fresh := f }

theorem Counts.rfl (s : State) : Counts s s := ⟨s.aon.cnt, s.dbg.cnt, s.win, s.fresh, Eq.refl s⟩

theorem Counts.trans {s t u : State} (h : Counts s t) (g : Counts t u) : Counts s u := by
  obtain ⟨c, n, w, f, rfl⟩ := h
  obtain ⟨c', n', w', f', rfl⟩ := g
  exact ⟨c', n', w', f', Eq.refl _⟩

/-- An event changes counters and their overflow bits. -/
theorem countEv_counts (s : State) (ev : Nat) (p : Option Nat) (n : Nat) : Counts s (countEv s ev p n) := by
  unfold countEv
  split
  · exact Counts.rfl s
  · dsimp only
    generalize hd : tmapV s.dbg.cnt _ = d
    obtain ⟨w, hw⟩ := foldl_win s.dbg.cnt (fun t q =>
      if (q.2.enable && q.2.event == ev && (!q.2.filter || p == some q.2.part)) && (wrap48 q.2.val n).2 then
        setBits t (0x60010 + 4 * (q.1 / 32)) (toW (2 ^ (q.1 % 32))) else t)
      (fun t x => by
        split
        · exact ⟨_, Eq.refl _⟩
        · exact ⟨t.win, Eq.refl _⟩) { s with dbg := { s.dbg with cnt := d } }
    exact ⟨s.aon.cnt, d, w, s.fresh, hw⟩

/-- An always-on counter changes itself and its overflow bit. -/
theorem countAon_counts (s : State) (j n : Nat) : Counts s (countAon s j n) := by
  unfold countAon
  split
  · exact Counts.rfl s
  · dsimp only
    split
    · exact ⟨_, s.dbg.cnt, _, s.fresh, Eq.refl _⟩
    · exact ⟨_, s.dbg.cnt, s.win, s.fresh, Eq.refl _⟩

theorem freeN_counts (s : State) : Counts s (freeN s).2 := ⟨s.aon.cnt, s.dbg.cnt, s.win, s.fresh + 1, Eq.refl _⟩

/-- A cycle of tvd_aon_clk moves the timestamp on, and counts. -/
theorem aonCycle_counts (s : State) :
    Counts { s with aon := { s.aon with ts := (s.aon.ts + 10) % 2 ^ 64 } } (aonCycle s) := by
  unfold aonCycle
  dsimp only
  generalize hz : countEv _ 0x002 none 1 = z
  have h1 := hz ▸ countEv_counts { s with aon := { s.aon with ts := (s.aon.ts + 10) % 2 ^ 64 } } 0x002 none 1
  split
  · have h2 := (h1.trans (freeN_counts z)).trans (freeN_counts (freeN z).2)
    have h3 := h2.trans (countEv_counts (freeN (freeN z).2).2 0x001 none (8 + (freeN z).1 % 4))
    split
    · exact h3.trans (countAon_counts _ _ _)
    · exact h3
  · exact h1

/-- A fault that is no SECURITY alarm, while the queue has room, is recorded and does nothing else: the newest record is its own, or one
it folded into (12 R385). -/
theorem occur_room (s : State) (r : AlarmRec) (ch : Option Nat) (hc : r.cls ≠ 1) (hl : s.aon.alarms.length < 256) :
    ∃ c w al q g, occur s r ch = { s with aon := { s.aon with cnt := c, alarms := al, seq := q, gapAlarm := g }, win := w } ∧
      ∃ x, al.getLast? = some x ∧ x.cls = r.cls ∧ x.unit = r.unit ∧ x.port = r.port ∧ x.lane = r.lane ∧ x.status = r.status ∧
        x.cause = r.cause := by
  have hb : (r.cls == 0x01) = false := by simp [hc]
  obtain ⟨c, w, hca⟩ : ∃ c w, countAon s 6 1 = { s with aon := { s.aon with cnt := c }, win := w } := by
    unfold countAon
    split
    · exact ⟨s.aon.cnt, s.win, rfl⟩
    · dsimp only
      split
      · exact ⟨_, _, rfl⟩
      · exact ⟨_, s.win, rfl⟩
  unfold occur
  simp only [hb, Bool.false_eq_true, if_false, Bool.false_and, hca]
  cases ch <;>
  · dsimp only
    cases hg : s.aon.alarms.getLast? with
    | none =>
      simp only [Bool.false_eq_true, if_false, hl, if_true]
      exact ⟨c, w, _, _, _, rfl, _, List.getLast?_concat, rfl, rfl, rfl, rfl, rfl, rfl⟩
    | some l =>
      by_cases hf : foldsWith l r = true
      · simp only [hf, if_true, foldRec, hg]
        refine ⟨c, w, _, s.aon.seq, s.aon.gapAlarm, rfl, _, List.getLast?_concat, ?_⟩
        simp only [foldsWith, Bool.and_eq_true, beq_iff_eq] at hf
        exact ⟨hf.1.1.1.1.1.1, hf.1.1.1.1.1.2, hf.1.1.1.1.2, hf.1.1.1.2, hf.1.1.2, hf.1.2⟩
      · simp only [hf, Bool.false_eq_true, if_false, hl, if_true]
        exact ⟨c, w, _, _, _, rfl, _, List.getLast?_concat, rfl, rfl, rfl, rfl, rfl, rfl⟩

end Sys2Proof.Machine
end

