-- ==== Sys2Proof/Laws/Outcome.lean ====
section
/-! SUPPORT. In which of three ways a command answers: it changes nothing and presents nothing, or its effect follows and what
completes of itself, or a pin has a new level under tvd_por_n. -/

namespace Sys2Proof.Machine

/-- A pin takes a level under tvd_por_n: nothing else changes. -/
def PinMove (s u : State) : Prop :=
  (∃ b, u = { quiet s with aon := { s.aon with rstN := b } }) ∨ (∃ b, u = { quiet s with aon := { s.aon with freezePin := b } }) ∨
  (∃ b, u = { quiet s with aon := { s.aon with clkReq := b } }) ∨ (∃ b, u = { quiet s with td := { s.td with fenceIn := b } }) ∨
  ∃ k b, u = setLane (quiet s) k { laneAt s k with up := b }

/-- A command changes nothing, or, with tvd_por_n high, it is its effect `u` and what follows; with tvd_por_n low it may be
the new level of a pin. -/
def Shape (s : State) (o : Host.Outcome State Fault Refusal) : Prop :=
  o = .next (quiet s) ∨ (s.aon.porN = true ∧ ∃ u, o = .next (finish s u)) ∨ s.aon.porN = false ∧ ∃ u, o = .next u ∧ PinMove s u

theorem shape_eng (f : State → State) (s : State) : Shape s (runEng f s) := by
  unfold runEng
  split
  · rename_i h
    simp only [engUp, Bool.and_eq_true] at h
    exact .inr (.inl ⟨h.1.1.1.1, _, rfl⟩)
  · exact .inl rfl

theorem shape_fw (f : State → State) (s : State) : Shape s (runFw f s) := shape_eng _ _

theorem shape_aon (f : State → State) (s : State) : Shape s (runAon f s) := by
  unfold runAon
  split
  · rename_i h
    exact .inr (.inl ⟨h, _, rfl⟩)
  · exact .inl rfl

theorem shape_reg (w : Requester) (o : Nat) (f : State → State) (s : State) : Shape s (runReg w o f s) := by
  unfold runReg
  split
  · rename_i h
    simp only [regOpen, Bool.and_eq_true] at h
    exact .inr (.inl ⟨h.1.1.1.1.1.1.1, _, rfl⟩)
  · exact .inl rfl

theorem shape_write (w : Requester) (o : Nat) (f : State → State) (s : State) : Shape s (runWrite w o f s) := shape_reg _ _ _ _

theorem shape_cmd (n : Nat) (op : Op) (f : State → Packet → State) (s : State) : Shape s (runCmd n op f s) := shape_eng _ _

theorem shape_lane (p l : Nat) (f : State → Nat → State) (s : State) : Shape s (onLane p l f s) := shape_eng _ _

theorem shape_pin (p l : Nat) (up : Bool) (f : State → Nat → State) (s : State) : Shape s (onLanePin p l up f s) := by
  unfold onLanePin
  split
  · exact shape_lane _ _ _ _
  · split
    · exact .inl rfl
    · split
      · rename_i h
        exact .inr (.inl ⟨h, _, rfl⟩)
      · rename_i h
        exact .inr (.inr ⟨by simpa using h, _, rfl, .inr (.inr (.inr (.inr ⟨_, _, rfl⟩)))⟩)

theorem shape_dp (l : Nat) (f : State → State × Word × Bool) (s : State) : Shape s (runDp l f s) := shape_aon _ _

theorem shape_space (o : Nat) (w : Option Word) (s : State) : Shape s (runSpace o w s) := by
  unfold runSpace
  split
  · exact shape_dp _ _ _
  · exact shape_aon _ _

theorem shape_read (o : Nat) (w : Requester) (s : State) : Shape s (runRead o w s) := by
  unfold runRead
  dsimp only
  split
  · exact shape_space _ _ _
  · exact shape_reg _ _ _ _

/-! One lemma for each command but COLD_RESET. -/

theorem execBootImageCheck_shape (s : State) (a b img v) : Shape s (execBootImageCheck a b img v s) := shape_eng _ _
theorem execFirmwareStart_shape (s : State) (env) : Shape s (execFirmwareStart env s) := shape_eng _ _
theorem execWarmReset_shape (s : State) (env) : Shape s (execWarmReset env s) := by
  unfold execWarmReset
  split
  · exact shape_aon _ _
  · rename_i h
    exact .inr (.inr ⟨by simpa using h, _, rfl, .inl ⟨_, rfl⟩⟩)
theorem execClkStopRequest_shape (s : State) : Shape s (execClkStopRequest s) := by
  unfold execClkStopRequest
  split
  · exact shape_aon _ _
  · rename_i h
    exact .inr (.inr ⟨by simpa using h, _, rfl, .inr (.inr (.inl ⟨_, rfl⟩))⟩)
theorem execClkStopAck_shape (s : State) : Shape s (execClkStopAck s) := shape_aon _ _
theorem execClkStopWithdraw_shape (s : State) : Shape s (execClkStopWithdraw s) := by
  unfold execClkStopWithdraw
  split
  · exact shape_aon _ _
  · rename_i h
    exact .inr (.inr ⟨by simpa using h, _, rfl, .inr (.inr (.inl ⟨_, rfl⟩))⟩)
theorem execClkStopQuiesceTimeout_shape (s : State) : Shape s (execClkStopQuiesceTimeout s) := shape_aon _ _
theorem execFreezeTrigger_shape (s : State) (bit on) : Shape s (execFreezeTrigger bit on s) := by
  unfold execFreezeTrigger
  split
  · rename_i h
    simp only [Bool.and_eq_true, Bool.not_eq_true'] at h
    exact .inr (.inr ⟨h.1, _, rfl, .inr (.inl ⟨_, rfl⟩)⟩)
  · exact shape_aon _ _
theorem execScanEnable_shape (s : State) : Shape s (execScanEnable s) := shape_aon _ _
theorem execClockFault_shape (s : State) (clk f) : Shape s (execClockFault clk f s) := shape_aon _ _
theorem execLaneUpFall_shape (s : State) (port lane) : Shape s (execLaneUpFall port lane s) := shape_pin _ _ _ _ _
theorem execLaneUpRise_shape (s : State) (port lane) : Shape s (execLaneUpRise port lane s) := shape_pin _ _ _ _ _
theorem execLaneStart_shape (s : State) (port lane) : Shape s (execLaneStart port lane s) := shape_lane _ _ _ _
theorem execInitSendTimer_shape (s : State) (port lane) : Shape s (execInitSendTimer port lane s) := shape_lane _ _ _ _
theorem execInitTimeout_shape (s : State) (port lane) : Shape s (execInitTimeout port lane s) := shape_lane _ _ _ _
theorem execFlitRx_shape (s : State) (port lane data) : Shape s (execFlitRx port lane data s) := shape_lane _ _ _ _
theorem execInitRx_shape (s : State) (port lane) : Shape s (execInitRx port lane s) := shape_lane _ _ _ _
theorem execAckRx_shape (s : State) (port lane fseq) : Shape s (execAckRx port lane fseq s) := shape_lane _ _ _ _
theorem execNakRx_shape (s : State) (port lane busy fseq) : Shape s (execNakRx port lane busy fseq s) := shape_lane _ _ _ _
theorem execReplayRx_shape (s : State) (port lane fseq) : Shape s (execReplayRx port lane fseq s) := shape_lane _ _ _ _
theorem execNakBusyWaitEnd_shape (s : State) (port lane) : Shape s (execNakBusyWaitEnd port lane s) := shape_lane _ _ _ _
theorem execAckTimer_shape (s : State) (port lane) : Shape s (execAckTimer port lane s) := shape_lane _ _ _ _
theorem execHopReplayTimeout_shape (s : State) (port lane) : Shape s (execHopReplayTimeout port lane s) := shape_lane _ _ _ _
theorem execFrameRx_shape (s : State) (port lane) : Shape s (execFrameRx port lane s) := shape_lane _ _ _ _
theorem execGapRx_shape (s : State) (port lane) : Shape s (execGapRx port lane s) := shape_lane _ _ _ _
theorem execBootFrameRx_shape (s : State) (port lane msg sid) : Shape s (execBootFrameRx port lane msg sid s) := shape_lane _ _ _ _
theorem execCombinedRx_shape (s : State) (port lane) : Shape s (execCombinedRx port lane s) := shape_eng _ _
theorem execChordMissFill_shape (s : State) (key) : Shape s (execChordMissFill key s) := shape_eng _ _
theorem execStreamContextMissFill_shape (s : State) (key acc) : Shape s (execStreamContextMissFill key acc s) := shape_eng _ _
theorem execCsTargetRequest_shape (s : State) (port req) : Shape s (execCsTargetRequest port req s) := shape_eng _ _
theorem execParkRelease_shape (s : State) (part) : Shape s (execParkRelease part s) := shape_eng _ _
theorem execTargetResponse_shape (s : State) (port tid) : Shape s (execTargetResponse port tid s) := shape_eng _ _
theorem execFrameEgressSeal_shape (s : State) (pick) : Shape s (execFrameEgressSeal pick s) := shape_eng _ _
theorem execRetxRecordWriteDone_shape (s : State) (tag ok) : Shape s (execRetxRecordWriteDone tag ok s) := shape_eng _ _
theorem execHomeRequest_shape (s : State) : Shape s (execHomeRequest s) := shape_eng _ _
theorem execRspRx_shape (s : State) : Shape s (execRspRx s) := shape_eng _ _
theorem execEackRx_shape (s : State) : Shape s (execEackRx s) := shape_eng _ _
theorem execEackFlush_shape (s : State) (peer tc) : Shape s (execEackFlush peer tc s) := shape_eng _ _
theorem execAckStreamGap_shape (s : State) (peer tc) : Shape s (execAckStreamGap peer tc s) := shape_eng _ _
theorem execE2eTimerExpiry_shape (s : State) (tag) : Shape s (execE2eTimerExpiry tag s) := shape_eng _ _
theorem execStreamGapSend_shape (s : State) (key) : Shape s (execStreamGapSend key s) := shape_eng _ _
theorem execInitiatorResponse_shape (s : State) (id err poison data pick) : Shape s (execInitiatorResponse id err poison data pick s) := shape_eng _ _
theorem execHotlineIdleWriteback_shape (s : State) (kid line) : Shape s (execHotlineIdleWriteback kid line s) := shape_eng _ _
theorem execMdataRx_shape (s : State) : Shape s (execMdataRx s) := shape_eng _ _
theorem execMdoneRx_shape (s : State) : Shape s (execMdoneRx s) := shape_eng _ _
theorem execCounterCacheFill_shape (s : State) (id victim) : Shape s (execCounterCacheFill id victim s) := shape_eng _ _
theorem execPageReencryptDone_shape (s : State) (id) : Shape s (execPageReencryptDone id s) := shape_eng _ _
theorem execResealSweep_shape (s : State) (kid) : Shape s (execResealSweep kid s) := shape_eng _ _
theorem execRegionKeyMiss_shape (s : State) (kid) : Shape s (execRegionKeyMiss kid s) := shape_eng _ _
theorem execOrphanSweep_shape (s : State) : Shape s (execOrphanSweep s) := shape_eng _ _
theorem execEntropyHealthFail_shape (s : State) : Shape s (execEntropyHealthFail s) := shape_eng _ _
theorem execHubLockstepMismatch_shape (s : State) : Shape s (execHubLockstepMismatch s) := shape_eng _ _
theorem execHubSelftestDone_shape (s : State) (fails) : Shape s (execHubSelftestDone fails s) := shape_eng _ _
theorem execHeartbeatTimeout_shape (s : State) : Shape s (execHeartbeatTimeout s) := shape_eng _ _
theorem execMbxInData_shape (s : State) (m w who) : Shape s (execMbxInData m w who s) := shape_reg _ _ _ _
theorem execMbxClear_shape (s : State) (m who) : Shape s (execMbxClear m who s) := shape_reg _ _ _ _
theorem execMbxOutDataRead_shape (s : State) (m who) : Shape s (execMbxOutDataRead m who s) := shape_reg _ _ _ _
theorem execMbxDone_shape (s : State) (m who) : Shape s (execMbxDone m who s) := shape_reg _ _ _ _
theorem execMbxStreamPacket_shape (s : State) : Shape s (execMbxStreamPacket s) := shape_eng _ _
theorem execBackgroundCommandDone_shape (s : State) (src) : Shape s (execBackgroundCommandDone src s) := shape_fw _ _
theorem execBcpGetInfo_shape (s : State) (src) : Shape s (execBcpGetInfo src s) := shape_cmd _ _ _ _
theorem execBcpQuery_shape (s : State) (src meas) : Shape s (execBcpQuery src meas s) := shape_cmd _ _ _ _
theorem execBcpDebugAuth_shape (s : State) (src sigs) : Shape s (execBcpDebugAuth src sigs s) := shape_cmd _ _ _ _
theorem execBcpKeyDerive_shape (s : State) (src) : Shape s (execBcpKeyDerive src s) := shape_cmd _ _ _ _
theorem execBcpKeyInvalidate_shape (s : State) (src) : Shape s (execBcpKeyInvalidate src s) := shape_cmd _ _ _ _
theorem execBcpKeyInfo_shape (s : State) (src) : Shape s (execBcpKeyInfo src s) := shape_cmd _ _ _ _
theorem execBcpSpdm_shape (s : State) (src req sid) : Shape s (execBcpSpdm src req sid s) := shape_eng _ _
theorem execBcpDomainEnrol_shape (s : State) (src sigs) : Shape s (execBcpDomainEnrol src sigs s) := shape_cmd _ _ _ _
theorem execBcpDomainRekey_shape (s : State) (src) : Shape s (execBcpDomainRekey src s) := shape_cmd _ _ _ _
theorem execBcpChordRekey_shape (s : State) (src) : Shape s (execBcpChordRekey src s) := shape_cmd _ _ _ _
theorem execBcpRegionCreate_shape (s : State) (src) : Shape s (execBcpRegionCreate src s) := shape_cmd _ _ _ _
theorem execBcpRegionDestroy_shape (s : State) (src) : Shape s (execBcpRegionDestroy src s) := shape_cmd _ _ _ _
theorem execBcpRegionRekey_shape (s : State) (src) : Shape s (execBcpRegionRekey src s) := shape_cmd _ _ _ _
theorem execBcpPgdWrite_shape (s : State) (src) : Shape s (execBcpPgdWrite src s) := shape_cmd _ _ _ _
theorem execBcpPgdRead_shape (s : State) (src) : Shape s (execBcpPgdRead src s) := shape_cmd _ _ _ _
theorem execBcpPartitionCreate_shape (s : State) (src) : Shape s (execBcpPartitionCreate src s) := shape_cmd _ _ _ _
theorem execBcpPartitionDestroy_shape (s : State) (src) : Shape s (execBcpPartitionDestroy src s) := shape_cmd _ _ _ _
theorem execBcpContextTeardown_shape (s : State) (src) : Shape s (execBcpContextTeardown src s) := shape_cmd _ _ _ _
theorem execBcpContextReset_shape (s : State) (src) : Shape s (execBcpContextReset src s) := shape_cmd _ _ _ _
theorem execBcpMigLogStart_shape (s : State) (src) : Shape s (execBcpMigLogStart src s) := shape_cmd _ _ _ _
theorem execBcpMigFreeze_shape (s : State) (src) : Shape s (execBcpMigFreeze src s) := shape_cmd _ _ _ _
theorem execBcpMigSave_shape (s : State) (src) : Shape s (execBcpMigSave src s) := shape_cmd _ _ _ _
theorem execBcpMigRestore_shape (s : State) (src) : Shape s (execBcpMigRestore src s) := shape_cmd _ _ _ _
theorem execBcpPmuConfig_shape (s : State) (src) : Shape s (execBcpPmuConfig src s) := shape_cmd _ _ _ _
theorem execBcpDumpArm_shape (s : State) (src) : Shape s (execBcpDumpArm src s) := shape_cmd _ _ _ _
theorem execBcpWatchSet_shape (s : State) (src) : Shape s (execBcpWatchSet src s) := shape_cmd _ _ _ _
theorem execBcpRepairStatus_shape (s : State) (src) : Shape s (execBcpRepairStatus src s) := shape_cmd _ _ _ _
theorem execBcpSelftest_shape (s : State) (src fails) : Shape s (execBcpSelftest src fails s) := shape_cmd _ _ _ _
theorem execBcpFwStage_shape (s : State) (src v) : Shape s (execBcpFwStage src v s) := shape_cmd _ _ _ _
theorem execBcpTandemFailover_shape (s : State) (src) : Shape s (execBcpTandemFailover src s) := shape_cmd _ _ _ _
theorem execStoreResponse_shape (s : State) (ok data) : Shape s (execStoreResponse ok data s) := shape_fw _ _
theorem execKeyPortAck_shape (s : State) (status) : Shape s (execKeyPortAck status s) := shape_eng _ _
theorem execKeyPortTimeout_shape (s : State) : Shape s (execKeyPortTimeout s) := shape_fw _ _
theorem execSpdmKeyExchange_shape (s : State) (conn requester fin) : Shape s (execSpdmKeyExchange conn requester fin s) := shape_eng _ _
theorem execSpdmEndSession_shape (s : State) (conn sid joined) : Shape s (execSpdmEndSession conn sid joined s) := shape_eng _ _
theorem execHybKem_shape (s : State) (conn sid ek ct kpq) : Shape s (execHybKem conn sid ek ct kpq s) := shape_eng _ _
theorem execHybSign_shape (s : State) (conn sid ok peer) : Shape s (execHybSign conn sid ok peer s) := shape_eng _ _
theorem execHybChain_shape (s : State) (conn sid) : Shape s (execHybChain conn sid s) := shape_eng _ _
theorem execHybSetChain_shape (s : State) (src sid chain) : Shape s (execHybSetChain src sid chain s) := shape_eng _ _
theorem execHybGetKey_shape (s : State) (conn sid) : Shape s (execHybGetKey conn sid s) := shape_eng _ _
theorem execSpdmGetCsr_shape (s : State) (conn sid) : Shape s (execSpdmGetCsr conn sid s) := shape_eng _ _
theorem execSpdmSetCertificate_shape (s : State) (src sid chain) : Shape s (execSpdmSetCertificate src sid chain s) := shape_eng _ _
theorem execSpdmGetMeasurements_shape (s : State) (conn sid index sig) : Shape s (execSpdmGetMeasurements conn sid index sig s) := shape_eng _ _
theorem execDomainJoin_shape (s : State) (sid msg) : Shape s (execDomainJoin sid msg s) := shape_eng _ _
theorem execEnrolSessionTimeout_shape (s : State) : Shape s (execEnrolSessionTimeout s) := shape_fw _ _
theorem execEnrolSessionRetry_shape (s : State) : Shape s (execEnrolSessionRetry s) := shape_fw _ _
theorem execEnrolledRx_shape (s : State) : Shape s (execEnrolledRx s) := shape_fw _ _
theorem execCommitRx_shape (s : State) : Shape s (execCommitRx s) := shape_fw _ _
theorem execRekeyDistRx_shape (s : State) : Shape s (execRekeyDistRx s) := shape_fw _ _
theorem execDistAckRx_shape (s : State) : Shape s (execDistAckRx s) := shape_fw _ _
theorem execSwitchRx_shape (s : State) : Shape s (execSwitchRx s) := shape_fw _ _
theorem execSwitchAckRx_shape (s : State) : Shape s (execSwitchAckRx s) := shape_fw _ _
theorem execDrainedRx_shape (s : State) : Shape s (execDrainedRx s) := shape_fw _ _
theorem execRetireRx_shape (s : State) : Shape s (execRetireRx s) := shape_fw _ _
theorem execRekeyDrainDone_shape (s : State) : Shape s (execRekeyDrainDone s) := shape_fw _ _
theorem execRekeyRetireTimeout_shape (s : State) : Shape s (execRekeyRetireTimeout s) := shape_fw _ _
theorem execRekeyChildTimeout_shape (s : State) (vertex) : Shape s (execRekeyChildTimeout vertex s) := shape_fw _ _
theorem execRekeySwitchTimeout_shape (s : State) : Shape s (execRekeySwitchTimeout s) := shape_fw _ _
theorem execChordAdvanceRx_shape (s : State) : Shape s (execChordAdvanceRx s) := shape_fw _ _
theorem execChordRekeyWindowEnd_shape (s : State) : Shape s (execChordRekeyWindowEnd s) := shape_fw _ _
theorem execIdeKmQuery_shape (s : State) (sid port) : Shape s (execIdeKmQuery sid port s) := shape_eng _ _
theorem execIdeKmKeyProg_shape (s : State) (sid port key data iv) : Shape s (execIdeKmKeyProg sid port key data iv s) := shape_eng _ _
theorem execIdeKmKSetGo_shape (s : State) (sid port key) : Shape s (execIdeKmKSetGo sid port key s) := shape_eng _ _
theorem execIdeKmKSetStop_shape (s : State) (sid port key) : Shape s (execIdeKmKSetStop sid port key s) := shape_eng _ _
theorem execTdispLockInterface_shape (s : State) (tdi sid) : Shape s (execTdispLockInterface tdi sid s) := shape_eng _ _
theorem execTdispStartInterface_shape (s : State) (tdi sid) : Shape s (execTdispStartInterface tdi sid s) := shape_eng _ _
theorem execTdispStopInterface_shape (s : State) (tdi sid) : Shape s (execTdispStopInterface tdi sid s) := shape_eng _ _
theorem execTdispGetInterfaceReport_shape (s : State) (tdi sid) : Shape s (execTdispGetInterfaceReport tdi sid s) := shape_eng _ _
theorem execTdispErrorEntry_shape (s : State) (part) : Shape s (execTdispErrorEntry part s) := shape_eng _ _
theorem execPipelineRotation_shape (s : State) (port rx pass) : Shape s (execPipelineRotation port rx pass s) := shape_eng _ _
theorem execAdderRotation_shape (s : State) (port fails) : Shape s (execAdderRotation port fails s) := shape_eng _ _
theorem execMemsealPipeRotation_shape (s : State) (pass) : Shape s (execMemsealPipeRotation pass s) := shape_eng _ _
theorem execCreditTick_shape (s : State) : Shape s (execCreditTick s) := shape_eng _ _
theorem execDescriptorFetch_shape (s : State) (ctx queue raw acc) : Shape s (execDescriptorFetch ctx queue raw acc s) := shape_eng _ _
theorem execDescriptorStart_shape (s : State) (acc) : Shape s (execDescriptorStart acc s) := shape_eng _ _
theorem execCompletionRecord_shape (s : State) (desc acc) : Shape s (execCompletionRecord desc acc s) := shape_eng _ _
theorem execWdCopyAsync_shape (s : State) (desc) : Shape s (execWdCopyAsync desc s) := shape_eng _ _
theorem execCopyChunkSend_shape (s : State) (eng) : Shape s (execCopyChunkSend eng s) := shape_eng _ _
theorem execWdReduce_shape (s : State) (desc) : Shape s (execWdReduce desc s) := shape_eng _ _
theorem execWdUpdate_shape (s : State) (desc acc) : Shape s (execWdUpdate desc acc s) := shape_eng _ _
theorem execWdPublish_shape (s : State) (desc) : Shape s (execWdPublish desc s) := shape_eng _ _
theorem execWdInvalidate_shape (s : State) (desc) : Shape s (execWdInvalidate desc s) := shape_eng _ _
theorem execWdFence_shape (s : State) (desc) : Shape s (execWdFence desc s) := shape_eng _ _
theorem execWdSignal_shape (s : State) (desc) : Shape s (execWdSignal desc s) := shape_eng _ _
theorem execWdWait_shape (s : State) (desc) : Shape s (execWdWait desc s) := shape_eng _ _
theorem execWaitPoll_shape (s : State) (desc acc value) : Shape s (execWaitPoll desc acc value s) := shape_eng _ _
theorem execWaitTimeout_shape (s : State) (desc) : Shape s (execWaitTimeout desc s) := shape_eng _ _
theorem execWdDumpMark_shape (s : State) (desc) : Shape s (execWdDumpMark desc s) := shape_eng _ _
theorem execWdAbort_shape (s : State) (desc) : Shape s (execWdAbort desc s) := shape_eng _ _
theorem execSharedSignalAbandon_shape (s : State) (desc) : Shape s (execSharedSignalAbandon desc s) := shape_eng _ _
theorem execReduceStartRx_shape (s : State) : Shape s (execReduceStartRx s) := shape_eng _ _
theorem execReduceReadyRx_shape (s : State) : Shape s (execReduceReadyRx s) := shape_eng _ _
theorem execReduceBusyRx_shape (s : State) : Shape s (execReduceBusyRx s) := shape_eng _ _
theorem execReduceStartRetry_shape (s : State) (desc) : Shape s (execReduceStartRetry desc s) := shape_eng _ _
theorem execReduceAbortRx_shape (s : State) : Shape s (execReduceAbortRx s) := shape_eng _ _
theorem execReduceDataRx_shape (s : State) : Shape s (execReduceDataRx s) := shape_eng _ _
theorem execChunkRun_shape (s : State) (desc u1 u2) : Shape s (execChunkRun desc u1 u2 s) := shape_eng _ _
theorem execReduceStageComplete_shape (s : State) (desc) : Shape s (execReduceStageComplete desc s) := shape_eng _ _
theorem execReduceIdleTimeout_shape (s : State) (desc) : Shape s (execReduceIdleTimeout desc s) := shape_eng _ _
theorem execFuseBind_shape (s : State) (desc) : Shape s (execFuseBind desc s) := shape_eng _ _
theorem execFuseBindTimeout_shape (s : State) (desc) : Shape s (execFuseBindTimeout desc s) := shape_eng _ _
theorem execUpdateTile_shape (s : State) (desc u1 u2) : Shape s (execUpdateTile desc u1 u2 s) := shape_eng _ _
theorem execUpdateComplete_shape (s : State) (desc) : Shape s (execUpdateComplete desc s) := shape_eng _ _
theorem execCadenceFlush_shape (s : State) : Shape s (execCadenceFlush s) := shape_eng _ _
theorem execCxCreate_shape (s : State) (slot who acc) : Shape s (execCxCreate slot who acc s) := shape_write _ _ _ _
theorem execCxLoad_shape (s : State) (slot ctx who acc) : Shape s (execCxLoad slot ctx who acc s) := shape_write _ _ _ _
theorem execCxUnload_shape (s : State) (slot who acc) : Shape s (execCxUnload slot who acc s) := shape_write _ _ _ _
theorem execCxDoorbell_shape (s : State) (slot w who) : Shape s (execCxDoorbell slot w who s) := shape_write _ _ _ _
theorem execCxQcfgWrite_shape (s : State) (slot w who) : Shape s (execCxQcfgWrite slot w who s) := shape_write _ _ _ _
theorem execCxOwnKidWrite_shape (s : State) (slot idx w who) : Shape s (execCxOwnKidWrite slot idx w who s) := shape_write _ _ _ _
theorem execPtWinCommit_shape (s : State) (part who) : Shape s (execPtWinCommit part who s) := shape_write _ _ _ _
theorem execPtReset_shape (s : State) (part who) : Shape s (execPtReset part who s) := shape_write _ _ _ _
theorem execPartitionDrainDone_shape (s : State) (part) : Shape s (execPartitionDrainDone part s) := shape_eng _ _
theorem execMigFreezeTimeout_shape (s : State) (part) : Shape s (execMigFreezeTimeout part s) := shape_eng _ _
theorem execDirtyPageLog_shape (s : State) (part) : Shape s (execDirtyPageLog part s) := shape_eng _ _
theorem execAlmPop_shape (s : State) (who) : Shape s (execAlmPop who s) := shape_write _ _ _ _
theorem execAlmHalt_shape (s : State) (who) : Shape s (execAlmHalt who s) := shape_write _ _ _ _
theorem execWatchdogExpiry_shape (s : State) (unit) : Shape s (execWatchdogExpiry unit s) := shape_eng _ _
theorem execRstL1_shape (s : State) (unit fails) : Shape s (execRstL1 unit fails s) := shape_eng _ _
theorem execRstL2_shape (s : State) (t) : Shape s (execRstL2 t s) := shape_eng _ _
theorem execRstPortReturn_shape (s : State) (port who fails) : Shape s (execRstPortReturn port who fails s) := shape_write _ _ _ _
theorem execPortAutoReturn_shape (s : State) (port) : Shape s (execPortAutoReturn port s) := shape_eng _ _
theorem execRstL3_shape (s : State) (env) : Shape s (execRstL3 env s) := shape_aon _ _
theorem execResetDeadlineMiss_shape (s : State) : Shape s (execResetDeadlineMiss s) := shape_aon _ _
theorem execResetLevelEnd_shape (s : State) : Shape s (execResetLevelEnd s) := shape_aon _ _
theorem execSramUncorrectable_shape (s : State) (m) : Shape s (execSramUncorrectable m s) := shape_eng _ _
theorem execTdSyncStart_shape (s : State) (who) : Shape s (execTdSyncStart who s) := shape_write _ _ _ _
theorem execTandemSynced_shape (s : State) : Shape s (execTandemSynced s) := shape_eng _ _
theorem execMirrorHeartbeat_shape (s : State) : Shape s (execMirrorHeartbeat s) := shape_eng _ _
theorem execMirrorRecordRx_shape (s : State) (r) : Shape s (execMirrorRecordRx r s) := shape_eng _ _
theorem execHandoverRx_shape (s : State) (cause) : Shape s (execHandoverRx cause s) := shape_eng _ _
theorem execStandbyMirrorSilence_shape (s : State) : Shape s (execStandbyMirrorSilence s) := shape_eng _ _
theorem execStandbyTakeoverGiveup_shape (s : State) : Shape s (execStandbyTakeoverGiveup s) := shape_eng _ _
theorem execOwnerMirrorSilence_shape (s : State) : Shape s (execOwnerMirrorSilence s) := shape_eng _ _
theorem execTakeover_shape (s : State) : Shape s (execTakeover s) := shape_eng _ _
theorem execFenceInChange_shape (s : State) (level) : Shape s (execFenceInChange level s) := by
  unfold execFenceInChange
  split
  · exact shape_aon _ _
  · rename_i h
    exact .inr (.inr ⟨by simpa using h, _, rfl, .inr (.inr (.inr (.inl ⟨_, rfl⟩)))⟩)
theorem execCompareMismatch_shape (s : State) : Shape s (execCompareMismatch s) := shape_eng _ _
theorem execCompareKatDone_shape (s : State) (failA failB) : Shape s (execCompareKatDone failA failB s) := shape_aon _ _
theorem execCoarsenTick_shape (s : State) : Shape s (execCoarsenTick s) := shape_aon _ _
theorem execTsAdjGo_shape (s : State) (who) : Shape s (execTsAdjGo who s) := shape_write _ _ _ _
theorem execDumpFrameRx_shape (s : State) : Shape s (execDumpFrameRx s) := shape_eng _ _
theorem execDbgRingEnable_shape (s : State) (w who) : Shape s (execDbgRingEnable w who s) := shape_write _ _ _ _
theorem execDpInvasiveWrite_shape (s : State) (w) : Shape s (execDpInvasiveWrite w s) := shape_dp _ _ _
theorem execDpScanAuthWrite_shape (s : State) (w) : Shape s (execDpScanAuthWrite w s) := shape_dp _ _ _
theorem execDpHubHalt_shape (s : State) : Shape s (execDpHubHalt s) := shape_dp _ _ _
theorem execHubBreakpoint_shape (s : State) (n) : Shape s (execHubBreakpoint n s) := shape_eng _ _
theorem execHubDrainDone_shape (s : State) (late) : Shape s (execHubDrainDone late s) := shape_eng _ _
theorem execDpHubResume_shape (s : State) : Shape s (execDpHubResume s) := shape_dp _ _ _
theorem execDpRamDataAccess_shape (s : State) (wr) : Shape s (execDpRamDataAccess wr s) := shape_dp _ _ _
theorem execLcTransitionGo_shape (s : State) (w failAt who) : Shape s (execLcTransitionGo w failAt who s) := shape_write _ _ _ _
theorem execOtpRead_shape (s : State) (who) : Shape s (execOtpRead who s) := shape_write _ _ _ _
theorem execOtpProgram_shape (s : State) (who) : Shape s (execOtpProgram who s) := shape_write _ _ _ _
theorem execOtpWriteDone_shape (s : State) (blown) : Shape s (execOtpWriteDone blown s) := shape_aon _ _
theorem execLpUnfence_shape (s : State) (port w who) : Shape s (execLpUnfence port w who s) := shape_write _ _ _ _
theorem execLpCtrlWrite_shape (s : State) (port w who) : Shape s (execLpCtrlWrite port w who s) := shape_write _ _ _ _
theorem execMsWearSelWrite_shape (s : State) (w who) : Shape s (execMsWearSelWrite w who s) := shape_write _ _ _ _
theorem execRcCounterRead_shape (s : State) (off who) : Shape s (execRcCounterRead off who s) := shape_read _ _ _
theorem execLoCaptureRead_shape (s : State) (off who) : Shape s (execLoCaptureRead off who s) := shape_read _ _ _
theorem execRegisterWrite_shape (s : State) (off w who) : Shape s (execRegisterWrite off w who s) := by
  unfold execRegisterWrite
  dsimp only
  split
  · exact shape_space _ _ _
  · exact shape_reg _ _ _ _
theorem execMbxGo_shape (s : State) (m who) : Shape s (execMbxGo m who s) := shape_reg _ _ _ _
theorem execWarmResetAssert_shape (s : State) : Shape s (execWarmResetAssert s) := by
  unfold execWarmResetAssert
  split
  · exact shape_aon _ _
  · rename_i h
    exact .inr (.inr ⟨by simpa using h, _, rfl, .inl ⟨_, rfl⟩⟩)
theorem execClockReturnInRange_shape (s : State) (clk) : Shape s (execClockReturnInRange clk s) := shape_aon _ _
theorem execEntropyStartupPass_shape (s : State) : Shape s (execEntropyStartupPass s) := shape_eng _ _
theorem execIdentityLineTimeout_shape (s : State) (src) : Shape s (execIdentityLineTimeout src s) := shape_fw _ _

/-- Every command but COLD_RESET answers in one of the three ways. -/
theorem exec_shape (c : Instr) (s : State) (h : ∀ r a b env, c ≠ .coldReset r a b env) : Shape s (exec c s) :=
  match c, h with
  | .coldReset r a b env, h => absurd rfl (h r a b env)
  | .bootImageCheck a b img v, _ => execBootImageCheck_shape s a b img v
  | .firmwareStart env, _ => execFirmwareStart_shape s env
  | .warmReset env, _ => execWarmReset_shape s env
  | .clkStopRequest, _ => execClkStopRequest_shape s
  | .clkStopAck, _ => execClkStopAck_shape s
  | .clkStopWithdraw, _ => execClkStopWithdraw_shape s
  | .clkStopQuiesceTimeout, _ => execClkStopQuiesceTimeout_shape s
  | .freezeTrigger bit on, _ => execFreezeTrigger_shape s bit on
  | .scanEnable, _ => execScanEnable_shape s
  | .clockFault clk f, _ => execClockFault_shape s clk f
  | .laneUpFall port lane, _ => execLaneUpFall_shape s port lane
  | .laneUpRise port lane, _ => execLaneUpRise_shape s port lane
  | .laneStart port lane, _ => execLaneStart_shape s port lane
  | .initSendTimer port lane, _ => execInitSendTimer_shape s port lane
  | .initTimeout port lane, _ => execInitTimeout_shape s port lane
  | .flitRx port lane data, _ => execFlitRx_shape s port lane data
  | .initRx port lane, _ => execInitRx_shape s port lane
  | .ackRx port lane fseq, _ => execAckRx_shape s port lane fseq
  | .nakRx port lane busy fseq, _ => execNakRx_shape s port lane busy fseq
  | .replayRx port lane fseq, _ => execReplayRx_shape s port lane fseq
  | .nakBusyWaitEnd port lane, _ => execNakBusyWaitEnd_shape s port lane
  | .ackTimer port lane, _ => execAckTimer_shape s port lane
  | .hopReplayTimeout port lane, _ => execHopReplayTimeout_shape s port lane
  | .frameRx port lane, _ => execFrameRx_shape s port lane
  | .gapRx port lane, _ => execGapRx_shape s port lane
  | .bootFrameRx port lane msg sid, _ => execBootFrameRx_shape s port lane msg sid
  | .combinedRx port lane, _ => execCombinedRx_shape s port lane
  | .chordMissFill key, _ => execChordMissFill_shape s key
  | .streamContextMissFill key acc, _ => execStreamContextMissFill_shape s key acc
  | .csTargetRequest port req, _ => execCsTargetRequest_shape s port req
  | .parkRelease part, _ => execParkRelease_shape s part
  | .targetResponse port tid, _ => execTargetResponse_shape s port tid
  | .frameEgressSeal pick, _ => execFrameEgressSeal_shape s pick
  | .retxRecordWriteDone tag ok, _ => execRetxRecordWriteDone_shape s tag ok
  | .homeRequest, _ => execHomeRequest_shape s
  | .rspRx, _ => execRspRx_shape s
  | .eackRx, _ => execEackRx_shape s
  | .eackFlush peer tc, _ => execEackFlush_shape s peer tc
  | .ackStreamGap peer tc, _ => execAckStreamGap_shape s peer tc
  | .e2eTimerExpiry tag, _ => execE2eTimerExpiry_shape s tag
  | .streamGapSend key, _ => execStreamGapSend_shape s key
  | .initiatorResponse id err poison data pick, _ => execInitiatorResponse_shape s id err poison data pick
  | .hotlineIdleWriteback kid line, _ => execHotlineIdleWriteback_shape s kid line
  | .mdataRx, _ => execMdataRx_shape s
  | .mdoneRx, _ => execMdoneRx_shape s
  | .counterCacheFill id victim, _ => execCounterCacheFill_shape s id victim
  | .pageReencryptDone id, _ => execPageReencryptDone_shape s id
  | .resealSweep kid, _ => execResealSweep_shape s kid
  | .regionKeyMiss kid, _ => execRegionKeyMiss_shape s kid
  | .orphanSweep, _ => execOrphanSweep_shape s
  | .entropyHealthFail, _ => execEntropyHealthFail_shape s
  | .hubLockstepMismatch, _ => execHubLockstepMismatch_shape s
  | .hubSelftestDone fails, _ => execHubSelftestDone_shape s fails
  | .heartbeatTimeout, _ => execHeartbeatTimeout_shape s
  | .mbxInData m w who, _ => execMbxInData_shape s m w who
  | .mbxClear m who, _ => execMbxClear_shape s m who
  | .mbxOutDataRead m who, _ => execMbxOutDataRead_shape s m who
  | .mbxDone m who, _ => execMbxDone_shape s m who
  | .mbxStreamPacket, _ => execMbxStreamPacket_shape s
  | .backgroundCommandDone src, _ => execBackgroundCommandDone_shape s src
  | .bcpGetInfo src, _ => execBcpGetInfo_shape s src
  | .bcpQuery src meas, _ => execBcpQuery_shape s src meas
  | .bcpDebugAuth src sigs, _ => execBcpDebugAuth_shape s src sigs
  | .bcpKeyDerive src, _ => execBcpKeyDerive_shape s src
  | .bcpKeyInvalidate src, _ => execBcpKeyInvalidate_shape s src
  | .bcpKeyInfo src, _ => execBcpKeyInfo_shape s src
  | .bcpSpdm src req sid, _ => execBcpSpdm_shape s src req sid
  | .bcpDomainEnrol src sigs, _ => execBcpDomainEnrol_shape s src sigs
  | .bcpDomainRekey src, _ => execBcpDomainRekey_shape s src
  | .bcpChordRekey src, _ => execBcpChordRekey_shape s src
  | .bcpRegionCreate src, _ => execBcpRegionCreate_shape s src
  | .bcpRegionDestroy src, _ => execBcpRegionDestroy_shape s src
  | .bcpRegionRekey src, _ => execBcpRegionRekey_shape s src
  | .bcpPgdWrite src, _ => execBcpPgdWrite_shape s src
  | .bcpPgdRead src, _ => execBcpPgdRead_shape s src
  | .bcpPartitionCreate src, _ => execBcpPartitionCreate_shape s src
  | .bcpPartitionDestroy src, _ => execBcpPartitionDestroy_shape s src
  | .bcpContextTeardown src, _ => execBcpContextTeardown_shape s src
  | .bcpContextReset src, _ => execBcpContextReset_shape s src
  | .bcpMigLogStart src, _ => execBcpMigLogStart_shape s src
  | .bcpMigFreeze src, _ => execBcpMigFreeze_shape s src
  | .bcpMigSave src, _ => execBcpMigSave_shape s src
  | .bcpMigRestore src, _ => execBcpMigRestore_shape s src
  | .bcpPmuConfig src, _ => execBcpPmuConfig_shape s src
  | .bcpDumpArm src, _ => execBcpDumpArm_shape s src
  | .bcpWatchSet src, _ => execBcpWatchSet_shape s src
  | .bcpRepairStatus src, _ => execBcpRepairStatus_shape s src
  | .bcpSelftest src fails, _ => execBcpSelftest_shape s src fails
  | .bcpFwStage src v, _ => execBcpFwStage_shape s src v
  | .bcpTandemFailover src, _ => execBcpTandemFailover_shape s src
  | .storeResponse ok data, _ => execStoreResponse_shape s ok data
  | .keyPortAck status, _ => execKeyPortAck_shape s status
  | .keyPortTimeout, _ => execKeyPortTimeout_shape s
  | .spdmKeyExchange conn requester fin, _ => execSpdmKeyExchange_shape s conn requester fin
  | .spdmEndSession conn sid joined, _ => execSpdmEndSession_shape s conn sid joined
  | .hybKem conn sid ek ct kpq, _ => execHybKem_shape s conn sid ek ct kpq
  | .hybSign conn sid ok peer, _ => execHybSign_shape s conn sid ok peer
  | .hybChain conn sid, _ => execHybChain_shape s conn sid
  | .hybSetChain src sid chain, _ => execHybSetChain_shape s src sid chain
  | .hybGetKey conn sid, _ => execHybGetKey_shape s conn sid
  | .spdmGetCsr conn sid, _ => execSpdmGetCsr_shape s conn sid
  | .spdmSetCertificate src sid chain, _ => execSpdmSetCertificate_shape s src sid chain
  | .spdmGetMeasurements conn sid index sig, _ => execSpdmGetMeasurements_shape s conn sid index sig
  | .domainJoin sid msg, _ => execDomainJoin_shape s sid msg
  | .enrolSessionTimeout, _ => execEnrolSessionTimeout_shape s
  | .enrolSessionRetry, _ => execEnrolSessionRetry_shape s
  | .enrolledRx, _ => execEnrolledRx_shape s
  | .commitRx, _ => execCommitRx_shape s
  | .rekeyDistRx, _ => execRekeyDistRx_shape s
  | .distAckRx, _ => execDistAckRx_shape s
  | .switchRx, _ => execSwitchRx_shape s
  | .switchAckRx, _ => execSwitchAckRx_shape s
  | .drainedRx, _ => execDrainedRx_shape s
  | .retireRx, _ => execRetireRx_shape s
  | .rekeyDrainDone, _ => execRekeyDrainDone_shape s
  | .rekeyRetireTimeout, _ => execRekeyRetireTimeout_shape s
  | .rekeyChildTimeout vertex, _ => execRekeyChildTimeout_shape s vertex
  | .rekeySwitchTimeout, _ => execRekeySwitchTimeout_shape s
  | .chordAdvanceRx, _ => execChordAdvanceRx_shape s
  | .chordRekeyWindowEnd, _ => execChordRekeyWindowEnd_shape s
  | .ideKmQuery sid port, _ => execIdeKmQuery_shape s sid port
  | .ideKmKeyProg sid port key data iv, _ => execIdeKmKeyProg_shape s sid port key data iv
  | .ideKmKSetGo sid port key, _ => execIdeKmKSetGo_shape s sid port key
  | .ideKmKSetStop sid port key, _ => execIdeKmKSetStop_shape s sid port key
  | .tdispLockInterface tdi sid, _ => execTdispLockInterface_shape s tdi sid
  | .tdispStartInterface tdi sid, _ => execTdispStartInterface_shape s tdi sid
  | .tdispStopInterface tdi sid, _ => execTdispStopInterface_shape s tdi sid
  | .tdispGetInterfaceReport tdi sid, _ => execTdispGetInterfaceReport_shape s tdi sid
  | .tdispErrorEntry part, _ => execTdispErrorEntry_shape s part
  | .pipelineRotation port rx pass, _ => execPipelineRotation_shape s port rx pass
  | .adderRotation port fails, _ => execAdderRotation_shape s port fails
  | .memsealPipeRotation pass, _ => execMemsealPipeRotation_shape s pass
  | .creditTick, _ => execCreditTick_shape s
  | .descriptorFetch ctx queue raw acc, _ => execDescriptorFetch_shape s ctx queue raw acc
  | .descriptorStart acc, _ => execDescriptorStart_shape s acc
  | .completionRecord desc acc, _ => execCompletionRecord_shape s desc acc
  | .wdCopyAsync desc, _ => execWdCopyAsync_shape s desc
  | .copyChunkSend eng, _ => execCopyChunkSend_shape s eng
  | .wdReduce desc, _ => execWdReduce_shape s desc
  | .wdUpdate desc acc, _ => execWdUpdate_shape s desc acc
  | .wdPublish desc, _ => execWdPublish_shape s desc
  | .wdInvalidate desc, _ => execWdInvalidate_shape s desc
  | .wdFence desc, _ => execWdFence_shape s desc
  | .wdSignal desc, _ => execWdSignal_shape s desc
  | .wdWait desc, _ => execWdWait_shape s desc
  | .waitPoll desc acc value, _ => execWaitPoll_shape s desc acc value
  | .waitTimeout desc, _ => execWaitTimeout_shape s desc
  | .wdDumpMark desc, _ => execWdDumpMark_shape s desc
  | .wdAbort desc, _ => execWdAbort_shape s desc
  | .sharedSignalAbandon desc, _ => execSharedSignalAbandon_shape s desc
  | .reduceStartRx, _ => execReduceStartRx_shape s
  | .reduceReadyRx, _ => execReduceReadyRx_shape s
  | .reduceBusyRx, _ => execReduceBusyRx_shape s
  | .reduceStartRetry desc, _ => execReduceStartRetry_shape s desc
  | .reduceAbortRx, _ => execReduceAbortRx_shape s
  | .reduceDataRx, _ => execReduceDataRx_shape s
  | .chunkRun desc u1 u2, _ => execChunkRun_shape s desc u1 u2
  | .reduceStageComplete desc, _ => execReduceStageComplete_shape s desc
  | .reduceIdleTimeout desc, _ => execReduceIdleTimeout_shape s desc
  | .fuseBind desc, _ => execFuseBind_shape s desc
  | .fuseBindTimeout desc, _ => execFuseBindTimeout_shape s desc
  | .updateTile desc u1 u2, _ => execUpdateTile_shape s desc u1 u2
  | .updateComplete desc, _ => execUpdateComplete_shape s desc
  | .cadenceFlush, _ => execCadenceFlush_shape s
  | .cxCreate slot who acc, _ => execCxCreate_shape s slot who acc
  | .cxLoad slot ctx who acc, _ => execCxLoad_shape s slot ctx who acc
  | .cxUnload slot who acc, _ => execCxUnload_shape s slot who acc
  | .cxDoorbell slot w who, _ => execCxDoorbell_shape s slot w who
  | .cxQcfgWrite slot w who, _ => execCxQcfgWrite_shape s slot w who
  | .cxOwnKidWrite slot idx w who, _ => execCxOwnKidWrite_shape s slot idx w who
  | .ptWinCommit part who, _ => execPtWinCommit_shape s part who
  | .ptReset part who, _ => execPtReset_shape s part who
  | .partitionDrainDone part, _ => execPartitionDrainDone_shape s part
  | .migFreezeTimeout part, _ => execMigFreezeTimeout_shape s part
  | .dirtyPageLog part, _ => execDirtyPageLog_shape s part
  | .almPop who, _ => execAlmPop_shape s who
  | .almHalt who, _ => execAlmHalt_shape s who
  | .watchdogExpiry unit, _ => execWatchdogExpiry_shape s unit
  | .rstL1 unit fails, _ => execRstL1_shape s unit fails
  | .rstL2 t, _ => execRstL2_shape s t
  | .rstPortReturn port who fails, _ => execRstPortReturn_shape s port who fails
  | .portAutoReturn port, _ => execPortAutoReturn_shape s port
  | .rstL3 env, _ => execRstL3_shape s env
  | .resetDeadlineMiss, _ => execResetDeadlineMiss_shape s
  | .resetLevelEnd, _ => execResetLevelEnd_shape s
  | .sramUncorrectable m, _ => execSramUncorrectable_shape s m
  | .tdSyncStart who, _ => execTdSyncStart_shape s who
  | .tandemSynced, _ => execTandemSynced_shape s
  | .mirrorHeartbeat, _ => execMirrorHeartbeat_shape s
  | .mirrorRecordRx r, _ => execMirrorRecordRx_shape s r
  | .handoverRx cause, _ => execHandoverRx_shape s cause
  | .standbyMirrorSilence, _ => execStandbyMirrorSilence_shape s
  | .standbyTakeoverGiveup, _ => execStandbyTakeoverGiveup_shape s
  | .ownerMirrorSilence, _ => execOwnerMirrorSilence_shape s
  | .takeover, _ => execTakeover_shape s
  | .fenceInChange level, _ => execFenceInChange_shape s level
  | .compareMismatch, _ => execCompareMismatch_shape s
  | .compareKatDone failA failB, _ => execCompareKatDone_shape s failA failB
  | .coarsenTick, _ => execCoarsenTick_shape s
  | .tsAdjGo who, _ => execTsAdjGo_shape s who
  | .dumpFrameRx, _ => execDumpFrameRx_shape s
  | .dbgRingEnable w who, _ => execDbgRingEnable_shape s w who
  | .dpInvasiveWrite w, _ => execDpInvasiveWrite_shape s w
  | .dpScanAuthWrite w, _ => execDpScanAuthWrite_shape s w
  | .dpHubHalt, _ => execDpHubHalt_shape s
  | .hubBreakpoint n, _ => execHubBreakpoint_shape s n
  | .hubDrainDone late, _ => execHubDrainDone_shape s late
  | .dpHubResume, _ => execDpHubResume_shape s
  | .dpRamDataAccess wr, _ => execDpRamDataAccess_shape s wr
  | .lcTransitionGo w failAt who, _ => execLcTransitionGo_shape s w failAt who
  | .otpRead who, _ => execOtpRead_shape s who
  | .otpProgram who, _ => execOtpProgram_shape s who
  | .otpWriteDone blown, _ => execOtpWriteDone_shape s blown
  | .lpUnfence port w who, _ => execLpUnfence_shape s port w who
  | .lpCtrlWrite port w who, _ => execLpCtrlWrite_shape s port w who
  | .msWearSelWrite w who, _ => execMsWearSelWrite_shape s w who
  | .rcCounterRead off who, _ => execRcCounterRead_shape s off who
  | .loCaptureRead off who, _ => execLoCaptureRead_shape s off who
  | .registerWrite off w who, _ => execRegisterWrite_shape s off w who
  | .mbxGo m who, _ => execMbxGo_shape s m who
  | .warmResetAssert, _ => execWarmResetAssert_shape s
  | .clockReturnInRange clk, _ => execClockReturnInRange_shape s clk
  | .entropyStartupPass, _ => execEntropyStartupPass_shape s
  | .identityLineTimeout src, _ => execIdentityLineTimeout_shape s src

end Sys2Proof.Machine
end

