-- ==== Sys2Proof/Laws/State.lean ====
section
/-! SUPPORT. What an update of one part of State leaves: for each update, each field it does not touch, and the field it does. No
later proof unfolds a record update. -/

namespace Sys2Proof.Machine

/-! `quiet` changes `out`. -/

@[simp] theorem quiet_pending (s : State) : (quiet s).pending = s.pending := rfl
@[simp] theorem quiet_out (s : State) : (quiet s).out = [] := rfl
@[simp] theorem quiet_fresh (s : State) : (quiet s).fresh = s.fresh := rfl
@[simp] theorem quiet_draws (s : State) : (quiet s).draws = s.draws := rfl
@[simp] theorem quiet_size (s : State) : (quiet s).size = s.size := rfl
@[simp] theorem quiet_tandemEn (s : State) : (quiet s).tandemEn = s.tandemEn := rfl
@[simp] theorem quiet_tandemId (s : State) : (quiet s).tandemId = s.tandemId := rfl
@[simp] theorem quiet_win (s : State) : (quiet s).win = s.win := rfl
@[simp] theorem quiet_cap (s : State) : (quiet s).cap = s.cap := rfl
@[simp] theorem quiet_aon (s : State) : (quiet s).aon = s.aon := rfl
@[simp] theorem quiet_otp (s : State) : (quiet s).otp = s.otp := rfl
@[simp] theorem quiet_hub (s : State) : (quiet s).hub = s.hub := rfl
@[simp] theorem quiet_keys (s : State) : (quiet s).keys = s.keys := rfl
@[simp] theorem quiet_ident (s : State) : (quiet s).ident = s.ident := rfl
@[simp] theorem quiet_dom (s : State) : (quiet s).dom = s.dom := rfl
@[simp] theorem quiet_links (s : State) : (quiet s).links = s.links := rfl
@[simp] theorem quiet_fab (s : State) : (quiet s).fab = s.fab := rfl
@[simp] theorem quiet_mem (s : State) : (quiet s).mem = s.mem := rfl
@[simp] theorem quiet_red (s : State) : (quiet s).red = s.red := rfl
@[simp] theorem quiet_upd (s : State) : (quiet s).upd = s.upd := rfl
@[simp] theorem quiet_parts (s : State) : (quiet s).parts = s.parts := rfl
@[simp] theorem quiet_ladder (s : State) : (quiet s).ladder = s.ladder := rfl
@[simp] theorem quiet_td (s : State) : (quiet s).td = s.td := rfl
@[simp] theorem quiet_dbg (s : State) : (quiet s).dbg = s.dbg := rfl

/-! `emit` changes `out`. -/

@[simp] theorem emit_pending (s : State) (o : Output) : (emit s o).pending = s.pending := rfl
@[simp] theorem emit_out (s : State) (o : Output) : (emit s o).out = s.out ++ [o] := rfl
@[simp] theorem emit_fresh (s : State) (o : Output) : (emit s o).fresh = s.fresh := rfl
@[simp] theorem emit_draws (s : State) (o : Output) : (emit s o).draws = s.draws := rfl
@[simp] theorem emit_size (s : State) (o : Output) : (emit s o).size = s.size := rfl
@[simp] theorem emit_tandemEn (s : State) (o : Output) : (emit s o).tandemEn = s.tandemEn := rfl
@[simp] theorem emit_tandemId (s : State) (o : Output) : (emit s o).tandemId = s.tandemId := rfl
@[simp] theorem emit_win (s : State) (o : Output) : (emit s o).win = s.win := rfl
@[simp] theorem emit_cap (s : State) (o : Output) : (emit s o).cap = s.cap := rfl
@[simp] theorem emit_aon (s : State) (o : Output) : (emit s o).aon = s.aon := rfl
@[simp] theorem emit_otp (s : State) (o : Output) : (emit s o).otp = s.otp := rfl
@[simp] theorem emit_hub (s : State) (o : Output) : (emit s o).hub = s.hub := rfl
@[simp] theorem emit_keys (s : State) (o : Output) : (emit s o).keys = s.keys := rfl
@[simp] theorem emit_ident (s : State) (o : Output) : (emit s o).ident = s.ident := rfl
@[simp] theorem emit_dom (s : State) (o : Output) : (emit s o).dom = s.dom := rfl
@[simp] theorem emit_links (s : State) (o : Output) : (emit s o).links = s.links := rfl
@[simp] theorem emit_fab (s : State) (o : Output) : (emit s o).fab = s.fab := rfl
@[simp] theorem emit_mem (s : State) (o : Output) : (emit s o).mem = s.mem := rfl
@[simp] theorem emit_red (s : State) (o : Output) : (emit s o).red = s.red := rfl
@[simp] theorem emit_upd (s : State) (o : Output) : (emit s o).upd = s.upd := rfl
@[simp] theorem emit_parts (s : State) (o : Output) : (emit s o).parts = s.parts := rfl
@[simp] theorem emit_ladder (s : State) (o : Output) : (emit s o).ladder = s.ladder := rfl
@[simp] theorem emit_td (s : State) (o : Output) : (emit s o).td = s.td := rfl
@[simp] theorem emit_dbg (s : State) (o : Output) : (emit s o).dbg = s.dbg := rfl

/-! `emits` changes `out`. -/

@[simp] theorem emits_pending (s : State) (o : List Output) : (emits s o).pending = s.pending := rfl
@[simp] theorem emits_out (s : State) (o : List Output) : (emits s o).out = s.out ++ o := rfl
@[simp] theorem emits_fresh (s : State) (o : List Output) : (emits s o).fresh = s.fresh := rfl
@[simp] theorem emits_draws (s : State) (o : List Output) : (emits s o).draws = s.draws := rfl
@[simp] theorem emits_size (s : State) (o : List Output) : (emits s o).size = s.size := rfl
@[simp] theorem emits_tandemEn (s : State) (o : List Output) : (emits s o).tandemEn = s.tandemEn := rfl
@[simp] theorem emits_tandemId (s : State) (o : List Output) : (emits s o).tandemId = s.tandemId := rfl
@[simp] theorem emits_win (s : State) (o : List Output) : (emits s o).win = s.win := rfl
@[simp] theorem emits_cap (s : State) (o : List Output) : (emits s o).cap = s.cap := rfl
@[simp] theorem emits_aon (s : State) (o : List Output) : (emits s o).aon = s.aon := rfl
@[simp] theorem emits_otp (s : State) (o : List Output) : (emits s o).otp = s.otp := rfl
@[simp] theorem emits_hub (s : State) (o : List Output) : (emits s o).hub = s.hub := rfl
@[simp] theorem emits_keys (s : State) (o : List Output) : (emits s o).keys = s.keys := rfl
@[simp] theorem emits_ident (s : State) (o : List Output) : (emits s o).ident = s.ident := rfl
@[simp] theorem emits_dom (s : State) (o : List Output) : (emits s o).dom = s.dom := rfl
@[simp] theorem emits_links (s : State) (o : List Output) : (emits s o).links = s.links := rfl
@[simp] theorem emits_fab (s : State) (o : List Output) : (emits s o).fab = s.fab := rfl
@[simp] theorem emits_mem (s : State) (o : List Output) : (emits s o).mem = s.mem := rfl
@[simp] theorem emits_red (s : State) (o : List Output) : (emits s o).red = s.red := rfl
@[simp] theorem emits_upd (s : State) (o : List Output) : (emits s o).upd = s.upd := rfl
@[simp] theorem emits_parts (s : State) (o : List Output) : (emits s o).parts = s.parts := rfl
@[simp] theorem emits_ladder (s : State) (o : List Output) : (emits s o).ladder = s.ladder := rfl
@[simp] theorem emits_td (s : State) (o : List Output) : (emits s o).td = s.td := rfl
@[simp] theorem emits_dbg (s : State) (o : List Output) : (emits s o).dbg = s.dbg := rfl

/-! `setReg` changes `win`. -/

@[simp] theorem setReg_pending (s : State) (off : Nat) (w : Word) : (setReg s off w).pending = s.pending := rfl
@[simp] theorem setReg_out (s : State) (off : Nat) (w : Word) : (setReg s off w).out = s.out := rfl
@[simp] theorem setReg_fresh (s : State) (off : Nat) (w : Word) : (setReg s off w).fresh = s.fresh := rfl
@[simp] theorem setReg_draws (s : State) (off : Nat) (w : Word) : (setReg s off w).draws = s.draws := rfl
@[simp] theorem setReg_size (s : State) (off : Nat) (w : Word) : (setReg s off w).size = s.size := rfl
@[simp] theorem setReg_tandemEn (s : State) (off : Nat) (w : Word) : (setReg s off w).tandemEn = s.tandemEn := rfl
@[simp] theorem setReg_tandemId (s : State) (off : Nat) (w : Word) : (setReg s off w).tandemId = s.tandemId := rfl
@[simp] theorem setReg_win (s : State) (off : Nat) (w : Word) : (setReg s off w).win = tset s.win off w := rfl
@[simp] theorem setReg_cap (s : State) (off : Nat) (w : Word) : (setReg s off w).cap = s.cap := rfl
@[simp] theorem setReg_aon (s : State) (off : Nat) (w : Word) : (setReg s off w).aon = s.aon := rfl
@[simp] theorem setReg_otp (s : State) (off : Nat) (w : Word) : (setReg s off w).otp = s.otp := rfl
@[simp] theorem setReg_hub (s : State) (off : Nat) (w : Word) : (setReg s off w).hub = s.hub := rfl
@[simp] theorem setReg_keys (s : State) (off : Nat) (w : Word) : (setReg s off w).keys = s.keys := rfl
@[simp] theorem setReg_ident (s : State) (off : Nat) (w : Word) : (setReg s off w).ident = s.ident := rfl
@[simp] theorem setReg_dom (s : State) (off : Nat) (w : Word) : (setReg s off w).dom = s.dom := rfl
@[simp] theorem setReg_links (s : State) (off : Nat) (w : Word) : (setReg s off w).links = s.links := rfl
@[simp] theorem setReg_fab (s : State) (off : Nat) (w : Word) : (setReg s off w).fab = s.fab := rfl
@[simp] theorem setReg_mem (s : State) (off : Nat) (w : Word) : (setReg s off w).mem = s.mem := rfl
@[simp] theorem setReg_red (s : State) (off : Nat) (w : Word) : (setReg s off w).red = s.red := rfl
@[simp] theorem setReg_upd (s : State) (off : Nat) (w : Word) : (setReg s off w).upd = s.upd := rfl
@[simp] theorem setReg_parts (s : State) (off : Nat) (w : Word) : (setReg s off w).parts = s.parts := rfl
@[simp] theorem setReg_ladder (s : State) (off : Nat) (w : Word) : (setReg s off w).ladder = s.ladder := rfl
@[simp] theorem setReg_td (s : State) (off : Nat) (w : Word) : (setReg s off w).td = s.td := rfl
@[simp] theorem setReg_dbg (s : State) (off : Nat) (w : Word) : (setReg s off w).dbg = s.dbg := rfl

/-! `setMb` changes `hub`. -/

@[simp] theorem setMb_pending (s : State) (src : Nat) (m : Mbox) : (setMb s src m).pending = s.pending := rfl
@[simp] theorem setMb_out (s : State) (src : Nat) (m : Mbox) : (setMb s src m).out = s.out := rfl
@[simp] theorem setMb_fresh (s : State) (src : Nat) (m : Mbox) : (setMb s src m).fresh = s.fresh := rfl
@[simp] theorem setMb_draws (s : State) (src : Nat) (m : Mbox) : (setMb s src m).draws = s.draws := rfl
@[simp] theorem setMb_size (s : State) (src : Nat) (m : Mbox) : (setMb s src m).size = s.size := rfl
@[simp] theorem setMb_tandemEn (s : State) (src : Nat) (m : Mbox) : (setMb s src m).tandemEn = s.tandemEn := rfl
@[simp] theorem setMb_tandemId (s : State) (src : Nat) (m : Mbox) : (setMb s src m).tandemId = s.tandemId := rfl
@[simp] theorem setMb_win (s : State) (src : Nat) (m : Mbox) : (setMb s src m).win = s.win := rfl
@[simp] theorem setMb_cap (s : State) (src : Nat) (m : Mbox) : (setMb s src m).cap = s.cap := rfl
@[simp] theorem setMb_aon (s : State) (src : Nat) (m : Mbox) : (setMb s src m).aon = s.aon := rfl
@[simp] theorem setMb_otp (s : State) (src : Nat) (m : Mbox) : (setMb s src m).otp = s.otp := rfl
@[simp] theorem setMb_hub (s : State) (src : Nat) (m : Mbox) : (setMb s src m).hub = { s.hub with mbox := tset s.hub.mbox src m } := rfl
@[simp] theorem setMb_keys (s : State) (src : Nat) (m : Mbox) : (setMb s src m).keys = s.keys := rfl
@[simp] theorem setMb_ident (s : State) (src : Nat) (m : Mbox) : (setMb s src m).ident = s.ident := rfl
@[simp] theorem setMb_dom (s : State) (src : Nat) (m : Mbox) : (setMb s src m).dom = s.dom := rfl
@[simp] theorem setMb_links (s : State) (src : Nat) (m : Mbox) : (setMb s src m).links = s.links := rfl
@[simp] theorem setMb_fab (s : State) (src : Nat) (m : Mbox) : (setMb s src m).fab = s.fab := rfl
@[simp] theorem setMb_mem (s : State) (src : Nat) (m : Mbox) : (setMb s src m).mem = s.mem := rfl
@[simp] theorem setMb_red (s : State) (src : Nat) (m : Mbox) : (setMb s src m).red = s.red := rfl
@[simp] theorem setMb_upd (s : State) (src : Nat) (m : Mbox) : (setMb s src m).upd = s.upd := rfl
@[simp] theorem setMb_parts (s : State) (src : Nat) (m : Mbox) : (setMb s src m).parts = s.parts := rfl
@[simp] theorem setMb_ladder (s : State) (src : Nat) (m : Mbox) : (setMb s src m).ladder = s.ladder := rfl
@[simp] theorem setMb_td (s : State) (src : Nat) (m : Mbox) : (setMb s src m).td = s.td := rfl
@[simp] theorem setMb_dbg (s : State) (src : Nat) (m : Mbox) : (setMb s src m).dbg = s.dbg := rfl

/-! `startBg` changes `hub`. -/

@[simp] theorem startBg_pending (s : State) (src : Nat) (op : Op) (holds : List Hold) : (startBg s src op holds).pending = s.pending := rfl
@[simp] theorem startBg_out (s : State) (src : Nat) (op : Op) (holds : List Hold) : (startBg s src op holds).out = s.out := rfl
@[simp] theorem startBg_fresh (s : State) (src : Nat) (op : Op) (holds : List Hold) : (startBg s src op holds).fresh = s.fresh := rfl
@[simp] theorem startBg_draws (s : State) (src : Nat) (op : Op) (holds : List Hold) : (startBg s src op holds).draws = s.draws := rfl
@[simp] theorem startBg_size (s : State) (src : Nat) (op : Op) (holds : List Hold) : (startBg s src op holds).size = s.size := rfl
@[simp] theorem startBg_tandemEn (s : State) (src : Nat) (op : Op) (holds : List Hold) : (startBg s src op holds).tandemEn = s.tandemEn := rfl
@[simp] theorem startBg_tandemId (s : State) (src : Nat) (op : Op) (holds : List Hold) : (startBg s src op holds).tandemId = s.tandemId := rfl
@[simp] theorem startBg_win (s : State) (src : Nat) (op : Op) (holds : List Hold) : (startBg s src op holds).win = s.win := rfl
@[simp] theorem startBg_cap (s : State) (src : Nat) (op : Op) (holds : List Hold) : (startBg s src op holds).cap = s.cap := rfl
@[simp] theorem startBg_aon (s : State) (src : Nat) (op : Op) (holds : List Hold) : (startBg s src op holds).aon = s.aon := rfl
@[simp] theorem startBg_otp (s : State) (src : Nat) (op : Op) (holds : List Hold) : (startBg s src op holds).otp = s.otp := rfl
@[simp] theorem startBg_hub (s : State) (src : Nat) (op : Op) (holds : List Hold) : (startBg s src op holds).hub = { s.hub with bg := s.hub.bg ++ [{ src := src, op := op, holds := holds }] } := rfl
@[simp] theorem startBg_keys (s : State) (src : Nat) (op : Op) (holds : List Hold) : (startBg s src op holds).keys = s.keys := rfl
@[simp] theorem startBg_ident (s : State) (src : Nat) (op : Op) (holds : List Hold) : (startBg s src op holds).ident = s.ident := rfl
@[simp] theorem startBg_dom (s : State) (src : Nat) (op : Op) (holds : List Hold) : (startBg s src op holds).dom = s.dom := rfl
@[simp] theorem startBg_links (s : State) (src : Nat) (op : Op) (holds : List Hold) : (startBg s src op holds).links = s.links := rfl
@[simp] theorem startBg_fab (s : State) (src : Nat) (op : Op) (holds : List Hold) : (startBg s src op holds).fab = s.fab := rfl
@[simp] theorem startBg_mem (s : State) (src : Nat) (op : Op) (holds : List Hold) : (startBg s src op holds).mem = s.mem := rfl
@[simp] theorem startBg_red (s : State) (src : Nat) (op : Op) (holds : List Hold) : (startBg s src op holds).red = s.red := rfl
@[simp] theorem startBg_upd (s : State) (src : Nat) (op : Op) (holds : List Hold) : (startBg s src op holds).upd = s.upd := rfl
@[simp] theorem startBg_parts (s : State) (src : Nat) (op : Op) (holds : List Hold) : (startBg s src op holds).parts = s.parts := rfl
@[simp] theorem startBg_ladder (s : State) (src : Nat) (op : Op) (holds : List Hold) : (startBg s src op holds).ladder = s.ladder := rfl
@[simp] theorem startBg_td (s : State) (src : Nat) (op : Op) (holds : List Hold) : (startBg s src op holds).td = s.td := rfl
@[simp] theorem startBg_dbg (s : State) (src : Nat) (op : Op) (holds : List Hold) : (startBg s src op holds).dbg = s.dbg := rfl

/-! `setGrant` changes `dbg`. -/

@[simp] theorem setGrant_pending (s : State) (src : Nat) (g : Grant) : (setGrant s src g).pending = s.pending := rfl
@[simp] theorem setGrant_out (s : State) (src : Nat) (g : Grant) : (setGrant s src g).out = s.out := rfl
@[simp] theorem setGrant_fresh (s : State) (src : Nat) (g : Grant) : (setGrant s src g).fresh = s.fresh := rfl
@[simp] theorem setGrant_draws (s : State) (src : Nat) (g : Grant) : (setGrant s src g).draws = s.draws := rfl
@[simp] theorem setGrant_size (s : State) (src : Nat) (g : Grant) : (setGrant s src g).size = s.size := rfl
@[simp] theorem setGrant_tandemEn (s : State) (src : Nat) (g : Grant) : (setGrant s src g).tandemEn = s.tandemEn := rfl
@[simp] theorem setGrant_tandemId (s : State) (src : Nat) (g : Grant) : (setGrant s src g).tandemId = s.tandemId := rfl
@[simp] theorem setGrant_win (s : State) (src : Nat) (g : Grant) : (setGrant s src g).win = s.win := rfl
@[simp] theorem setGrant_cap (s : State) (src : Nat) (g : Grant) : (setGrant s src g).cap = s.cap := rfl
@[simp] theorem setGrant_aon (s : State) (src : Nat) (g : Grant) : (setGrant s src g).aon = s.aon := rfl
@[simp] theorem setGrant_otp (s : State) (src : Nat) (g : Grant) : (setGrant s src g).otp = s.otp := rfl
@[simp] theorem setGrant_hub (s : State) (src : Nat) (g : Grant) : (setGrant s src g).hub = s.hub := rfl
@[simp] theorem setGrant_keys (s : State) (src : Nat) (g : Grant) : (setGrant s src g).keys = s.keys := rfl
@[simp] theorem setGrant_ident (s : State) (src : Nat) (g : Grant) : (setGrant s src g).ident = s.ident := rfl
@[simp] theorem setGrant_dom (s : State) (src : Nat) (g : Grant) : (setGrant s src g).dom = s.dom := rfl
@[simp] theorem setGrant_links (s : State) (src : Nat) (g : Grant) : (setGrant s src g).links = s.links := rfl
@[simp] theorem setGrant_fab (s : State) (src : Nat) (g : Grant) : (setGrant s src g).fab = s.fab := rfl
@[simp] theorem setGrant_mem (s : State) (src : Nat) (g : Grant) : (setGrant s src g).mem = s.mem := rfl
@[simp] theorem setGrant_red (s : State) (src : Nat) (g : Grant) : (setGrant s src g).red = s.red := rfl
@[simp] theorem setGrant_upd (s : State) (src : Nat) (g : Grant) : (setGrant s src g).upd = s.upd := rfl
@[simp] theorem setGrant_parts (s : State) (src : Nat) (g : Grant) : (setGrant s src g).parts = s.parts := rfl
@[simp] theorem setGrant_ladder (s : State) (src : Nat) (g : Grant) : (setGrant s src g).ladder = s.ladder := rfl
@[simp] theorem setGrant_td (s : State) (src : Nat) (g : Grant) : (setGrant s src g).td = s.td := rfl
@[simp] theorem setGrant_dbg (s : State) (src : Nat) (g : Grant) : (setGrant s src g).dbg = { s.dbg with grants := tset s.dbg.grants src g } := rfl

/-! `setSlot` changes `keys`. -/

@[simp] theorem setSlot_pending (s : State) (n : Nat) (k : Slot) : (setSlot s n k).pending = s.pending := rfl
@[simp] theorem setSlot_out (s : State) (n : Nat) (k : Slot) : (setSlot s n k).out = s.out := rfl
@[simp] theorem setSlot_fresh (s : State) (n : Nat) (k : Slot) : (setSlot s n k).fresh = s.fresh := rfl
@[simp] theorem setSlot_draws (s : State) (n : Nat) (k : Slot) : (setSlot s n k).draws = s.draws := rfl
@[simp] theorem setSlot_size (s : State) (n : Nat) (k : Slot) : (setSlot s n k).size = s.size := rfl
@[simp] theorem setSlot_tandemEn (s : State) (n : Nat) (k : Slot) : (setSlot s n k).tandemEn = s.tandemEn := rfl
@[simp] theorem setSlot_tandemId (s : State) (n : Nat) (k : Slot) : (setSlot s n k).tandemId = s.tandemId := rfl
@[simp] theorem setSlot_win (s : State) (n : Nat) (k : Slot) : (setSlot s n k).win = s.win := rfl
@[simp] theorem setSlot_cap (s : State) (n : Nat) (k : Slot) : (setSlot s n k).cap = s.cap := rfl
@[simp] theorem setSlot_aon (s : State) (n : Nat) (k : Slot) : (setSlot s n k).aon = s.aon := rfl
@[simp] theorem setSlot_otp (s : State) (n : Nat) (k : Slot) : (setSlot s n k).otp = s.otp := rfl
@[simp] theorem setSlot_hub (s : State) (n : Nat) (k : Slot) : (setSlot s n k).hub = s.hub := rfl
@[simp] theorem setSlot_keys (s : State) (n : Nat) (k : Slot) : (setSlot s n k).keys = { s.keys with slots := tset s.keys.slots n k } := rfl
@[simp] theorem setSlot_ident (s : State) (n : Nat) (k : Slot) : (setSlot s n k).ident = s.ident := rfl
@[simp] theorem setSlot_dom (s : State) (n : Nat) (k : Slot) : (setSlot s n k).dom = s.dom := rfl
@[simp] theorem setSlot_links (s : State) (n : Nat) (k : Slot) : (setSlot s n k).links = s.links := rfl
@[simp] theorem setSlot_fab (s : State) (n : Nat) (k : Slot) : (setSlot s n k).fab = s.fab := rfl
@[simp] theorem setSlot_mem (s : State) (n : Nat) (k : Slot) : (setSlot s n k).mem = s.mem := rfl
@[simp] theorem setSlot_red (s : State) (n : Nat) (k : Slot) : (setSlot s n k).red = s.red := rfl
@[simp] theorem setSlot_upd (s : State) (n : Nat) (k : Slot) : (setSlot s n k).upd = s.upd := rfl
@[simp] theorem setSlot_parts (s : State) (n : Nat) (k : Slot) : (setSlot s n k).parts = s.parts := rfl
@[simp] theorem setSlot_ladder (s : State) (n : Nat) (k : Slot) : (setSlot s n k).ladder = s.ladder := rfl
@[simp] theorem setSlot_td (s : State) (n : Nat) (k : Slot) : (setSlot s n k).td = s.td := rfl
@[simp] theorem setSlot_dbg (s : State) (n : Nat) (k : Slot) : (setSlot s n k).dbg = s.dbg := rfl

/-! `clearKeys` changes `keys`. -/

@[simp] theorem clearKeys_pending (s : State) : (clearKeys s).pending = s.pending := rfl
@[simp] theorem clearKeys_out (s : State) : (clearKeys s).out = s.out := rfl
@[simp] theorem clearKeys_fresh (s : State) : (clearKeys s).fresh = s.fresh := rfl
@[simp] theorem clearKeys_draws (s : State) : (clearKeys s).draws = s.draws := rfl
@[simp] theorem clearKeys_size (s : State) : (clearKeys s).size = s.size := rfl
@[simp] theorem clearKeys_tandemEn (s : State) : (clearKeys s).tandemEn = s.tandemEn := rfl
@[simp] theorem clearKeys_tandemId (s : State) : (clearKeys s).tandemId = s.tandemId := rfl
@[simp] theorem clearKeys_win (s : State) : (clearKeys s).win = s.win := rfl
@[simp] theorem clearKeys_cap (s : State) : (clearKeys s).cap = s.cap := rfl
@[simp] theorem clearKeys_aon (s : State) : (clearKeys s).aon = s.aon := rfl
@[simp] theorem clearKeys_otp (s : State) : (clearKeys s).otp = s.otp := rfl
@[simp] theorem clearKeys_hub (s : State) : (clearKeys s).hub = s.hub := rfl
@[simp] theorem clearKeys_keys (s : State) : (clearKeys s).keys = KeyStore.reset := rfl
@[simp] theorem clearKeys_ident (s : State) : (clearKeys s).ident = s.ident := rfl
@[simp] theorem clearKeys_dom (s : State) : (clearKeys s).dom = s.dom := rfl
@[simp] theorem clearKeys_links (s : State) : (clearKeys s).links = s.links := rfl
@[simp] theorem clearKeys_fab (s : State) : (clearKeys s).fab = s.fab := rfl
@[simp] theorem clearKeys_mem (s : State) : (clearKeys s).mem = s.mem := rfl
@[simp] theorem clearKeys_red (s : State) : (clearKeys s).red = s.red := rfl
@[simp] theorem clearKeys_upd (s : State) : (clearKeys s).upd = s.upd := rfl
@[simp] theorem clearKeys_parts (s : State) : (clearKeys s).parts = s.parts := rfl
@[simp] theorem clearKeys_ladder (s : State) : (clearKeys s).ladder = s.ladder := rfl
@[simp] theorem clearKeys_td (s : State) : (clearKeys s).td = s.td := rfl
@[simp] theorem clearKeys_dbg (s : State) : (clearKeys s).dbg = s.dbg := rfl

/-! `clearChords` changes `links`. -/

@[simp] theorem clearChords_pending (s : State) : (clearChords s).pending = s.pending := rfl
@[simp] theorem clearChords_out (s : State) : (clearChords s).out = s.out := rfl
@[simp] theorem clearChords_fresh (s : State) : (clearChords s).fresh = s.fresh := rfl
@[simp] theorem clearChords_draws (s : State) : (clearChords s).draws = s.draws := rfl
@[simp] theorem clearChords_size (s : State) : (clearChords s).size = s.size := rfl
@[simp] theorem clearChords_tandemEn (s : State) : (clearChords s).tandemEn = s.tandemEn := rfl
@[simp] theorem clearChords_tandemId (s : State) : (clearChords s).tandemId = s.tandemId := rfl
@[simp] theorem clearChords_win (s : State) : (clearChords s).win = s.win := rfl
@[simp] theorem clearChords_cap (s : State) : (clearChords s).cap = s.cap := rfl
@[simp] theorem clearChords_aon (s : State) : (clearChords s).aon = s.aon := rfl
@[simp] theorem clearChords_otp (s : State) : (clearChords s).otp = s.otp := rfl
@[simp] theorem clearChords_hub (s : State) : (clearChords s).hub = s.hub := rfl
@[simp] theorem clearChords_keys (s : State) : (clearChords s).keys = s.keys := rfl
@[simp] theorem clearChords_ident (s : State) : (clearChords s).ident = s.ident := rfl
@[simp] theorem clearChords_dom (s : State) : (clearChords s).dom = s.dom := rfl
@[simp] theorem clearChords_links (s : State) : (clearChords s).links = { s.links with chord := [], chordLru := [], saved := [], missC := [] } := rfl
@[simp] theorem clearChords_fab (s : State) : (clearChords s).fab = s.fab := rfl
@[simp] theorem clearChords_mem (s : State) : (clearChords s).mem = s.mem := rfl
@[simp] theorem clearChords_red (s : State) : (clearChords s).red = s.red := rfl
@[simp] theorem clearChords_upd (s : State) : (clearChords s).upd = s.upd := rfl
@[simp] theorem clearChords_parts (s : State) : (clearChords s).parts = s.parts := rfl
@[simp] theorem clearChords_ladder (s : State) : (clearChords s).ladder = s.ladder := rfl
@[simp] theorem clearChords_td (s : State) : (clearChords s).td = s.td := rfl
@[simp] theorem clearChords_dbg (s : State) : (clearChords s).dbg = s.dbg := rfl

/-! `clearStreams` changes `links`. -/

@[simp] theorem clearStreams_pending (s : State) : (clearStreams s).pending = s.pending := rfl
@[simp] theorem clearStreams_out (s : State) : (clearStreams s).out = s.out := rfl
@[simp] theorem clearStreams_fresh (s : State) : (clearStreams s).fresh = s.fresh := rfl
@[simp] theorem clearStreams_draws (s : State) : (clearStreams s).draws = s.draws := rfl
@[simp] theorem clearStreams_size (s : State) : (clearStreams s).size = s.size := rfl
@[simp] theorem clearStreams_tandemEn (s : State) : (clearStreams s).tandemEn = s.tandemEn := rfl
@[simp] theorem clearStreams_tandemId (s : State) : (clearStreams s).tandemId = s.tandemId := rfl
@[simp] theorem clearStreams_win (s : State) : (clearStreams s).win = s.win := rfl
@[simp] theorem clearStreams_cap (s : State) : (clearStreams s).cap = s.cap := rfl
@[simp] theorem clearStreams_aon (s : State) : (clearStreams s).aon = s.aon := rfl
@[simp] theorem clearStreams_otp (s : State) : (clearStreams s).otp = s.otp := rfl
@[simp] theorem clearStreams_hub (s : State) : (clearStreams s).hub = s.hub := rfl
@[simp] theorem clearStreams_keys (s : State) : (clearStreams s).keys = s.keys := rfl
@[simp] theorem clearStreams_ident (s : State) : (clearStreams s).ident = s.ident := rfl
@[simp] theorem clearStreams_dom (s : State) : (clearStreams s).dom = s.dom := rfl
@[simp] theorem clearStreams_links (s : State) : (clearStreams s).links = { s.links with egress := [], ingress := [], scLru := [], back := [], missS := [] } := rfl
@[simp] theorem clearStreams_fab (s : State) : (clearStreams s).fab = s.fab := rfl
@[simp] theorem clearStreams_mem (s : State) : (clearStreams s).mem = s.mem := rfl
@[simp] theorem clearStreams_red (s : State) : (clearStreams s).red = s.red := rfl
@[simp] theorem clearStreams_upd (s : State) : (clearStreams s).upd = s.upd := rfl
@[simp] theorem clearStreams_parts (s : State) : (clearStreams s).parts = s.parts := rfl
@[simp] theorem clearStreams_ladder (s : State) : (clearStreams s).ladder = s.ladder := rfl
@[simp] theorem clearStreams_td (s : State) : (clearStreams s).td = s.td := rfl
@[simp] theorem clearStreams_dbg (s : State) : (clearStreams s).dbg = s.dbg := rfl

/-! `setSession` changes `ident`. -/

@[simp] theorem setSession_pending (s : State) (sid : Nat) (x : Session) : (setSession s sid x).pending = s.pending := rfl
@[simp] theorem setSession_out (s : State) (sid : Nat) (x : Session) : (setSession s sid x).out = s.out := rfl
@[simp] theorem setSession_fresh (s : State) (sid : Nat) (x : Session) : (setSession s sid x).fresh = s.fresh := rfl
@[simp] theorem setSession_draws (s : State) (sid : Nat) (x : Session) : (setSession s sid x).draws = s.draws := rfl
@[simp] theorem setSession_size (s : State) (sid : Nat) (x : Session) : (setSession s sid x).size = s.size := rfl
@[simp] theorem setSession_tandemEn (s : State) (sid : Nat) (x : Session) : (setSession s sid x).tandemEn = s.tandemEn := rfl
@[simp] theorem setSession_tandemId (s : State) (sid : Nat) (x : Session) : (setSession s sid x).tandemId = s.tandemId := rfl
@[simp] theorem setSession_win (s : State) (sid : Nat) (x : Session) : (setSession s sid x).win = s.win := rfl
@[simp] theorem setSession_cap (s : State) (sid : Nat) (x : Session) : (setSession s sid x).cap = s.cap := rfl
@[simp] theorem setSession_aon (s : State) (sid : Nat) (x : Session) : (setSession s sid x).aon = s.aon := rfl
@[simp] theorem setSession_otp (s : State) (sid : Nat) (x : Session) : (setSession s sid x).otp = s.otp := rfl
@[simp] theorem setSession_hub (s : State) (sid : Nat) (x : Session) : (setSession s sid x).hub = s.hub := rfl
@[simp] theorem setSession_keys (s : State) (sid : Nat) (x : Session) : (setSession s sid x).keys = s.keys := rfl
@[simp] theorem setSession_ident (s : State) (sid : Nat) (x : Session) : (setSession s sid x).ident = { s.ident with sessions := tset s.ident.sessions sid x } := rfl
@[simp] theorem setSession_dom (s : State) (sid : Nat) (x : Session) : (setSession s sid x).dom = s.dom := rfl
@[simp] theorem setSession_links (s : State) (sid : Nat) (x : Session) : (setSession s sid x).links = s.links := rfl
@[simp] theorem setSession_fab (s : State) (sid : Nat) (x : Session) : (setSession s sid x).fab = s.fab := rfl
@[simp] theorem setSession_mem (s : State) (sid : Nat) (x : Session) : (setSession s sid x).mem = s.mem := rfl
@[simp] theorem setSession_red (s : State) (sid : Nat) (x : Session) : (setSession s sid x).red = s.red := rfl
@[simp] theorem setSession_upd (s : State) (sid : Nat) (x : Session) : (setSession s sid x).upd = s.upd := rfl
@[simp] theorem setSession_parts (s : State) (sid : Nat) (x : Session) : (setSession s sid x).parts = s.parts := rfl
@[simp] theorem setSession_ladder (s : State) (sid : Nat) (x : Session) : (setSession s sid x).ladder = s.ladder := rfl
@[simp] theorem setSession_td (s : State) (sid : Nat) (x : Session) : (setSession s sid x).td = s.td := rfl
@[simp] theorem setSession_dbg (s : State) (sid : Nat) (x : Session) : (setSession s sid x).dbg = s.dbg := rfl

/-! `modChild` changes `dom`. -/

@[simp] theorem modChild_pending (s : State) (v : Nat) (f : Child → Child) : (modChild s v f).pending = s.pending := rfl
@[simp] theorem modChild_out (s : State) (v : Nat) (f : Child → Child) : (modChild s v f).out = s.out := rfl
@[simp] theorem modChild_fresh (s : State) (v : Nat) (f : Child → Child) : (modChild s v f).fresh = s.fresh := rfl
@[simp] theorem modChild_draws (s : State) (v : Nat) (f : Child → Child) : (modChild s v f).draws = s.draws := rfl
@[simp] theorem modChild_size (s : State) (v : Nat) (f : Child → Child) : (modChild s v f).size = s.size := rfl
@[simp] theorem modChild_tandemEn (s : State) (v : Nat) (f : Child → Child) : (modChild s v f).tandemEn = s.tandemEn := rfl
@[simp] theorem modChild_tandemId (s : State) (v : Nat) (f : Child → Child) : (modChild s v f).tandemId = s.tandemId := rfl
@[simp] theorem modChild_win (s : State) (v : Nat) (f : Child → Child) : (modChild s v f).win = s.win := rfl
@[simp] theorem modChild_cap (s : State) (v : Nat) (f : Child → Child) : (modChild s v f).cap = s.cap := rfl
@[simp] theorem modChild_aon (s : State) (v : Nat) (f : Child → Child) : (modChild s v f).aon = s.aon := rfl
@[simp] theorem modChild_otp (s : State) (v : Nat) (f : Child → Child) : (modChild s v f).otp = s.otp := rfl
@[simp] theorem modChild_hub (s : State) (v : Nat) (f : Child → Child) : (modChild s v f).hub = s.hub := rfl
@[simp] theorem modChild_keys (s : State) (v : Nat) (f : Child → Child) : (modChild s v f).keys = s.keys := rfl
@[simp] theorem modChild_ident (s : State) (v : Nat) (f : Child → Child) : (modChild s v f).ident = s.ident := rfl
@[simp] theorem modChild_dom (s : State) (v : Nat) (f : Child → Child) : (modChild s v f).dom = { s.dom with children := tmod s.dom.children v f } := rfl
@[simp] theorem modChild_links (s : State) (v : Nat) (f : Child → Child) : (modChild s v f).links = s.links := rfl
@[simp] theorem modChild_fab (s : State) (v : Nat) (f : Child → Child) : (modChild s v f).fab = s.fab := rfl
@[simp] theorem modChild_mem (s : State) (v : Nat) (f : Child → Child) : (modChild s v f).mem = s.mem := rfl
@[simp] theorem modChild_red (s : State) (v : Nat) (f : Child → Child) : (modChild s v f).red = s.red := rfl
@[simp] theorem modChild_upd (s : State) (v : Nat) (f : Child → Child) : (modChild s v f).upd = s.upd := rfl
@[simp] theorem modChild_parts (s : State) (v : Nat) (f : Child → Child) : (modChild s v f).parts = s.parts := rfl
@[simp] theorem modChild_ladder (s : State) (v : Nat) (f : Child → Child) : (modChild s v f).ladder = s.ladder := rfl
@[simp] theorem modChild_td (s : State) (v : Nat) (f : Child → Child) : (modChild s v f).td = s.td := rfl
@[simp] theorem modChild_dbg (s : State) (v : Nat) (f : Child → Child) : (modChild s v f).dbg = s.dbg := rfl

/-! `modRekey` changes `dom`. -/

@[simp] theorem modRekey_pending (s : State) (f : Rekey → Rekey) : (modRekey s f).pending = s.pending := rfl
@[simp] theorem modRekey_out (s : State) (f : Rekey → Rekey) : (modRekey s f).out = s.out := rfl
@[simp] theorem modRekey_fresh (s : State) (f : Rekey → Rekey) : (modRekey s f).fresh = s.fresh := rfl
@[simp] theorem modRekey_draws (s : State) (f : Rekey → Rekey) : (modRekey s f).draws = s.draws := rfl
@[simp] theorem modRekey_size (s : State) (f : Rekey → Rekey) : (modRekey s f).size = s.size := rfl
@[simp] theorem modRekey_tandemEn (s : State) (f : Rekey → Rekey) : (modRekey s f).tandemEn = s.tandemEn := rfl
@[simp] theorem modRekey_tandemId (s : State) (f : Rekey → Rekey) : (modRekey s f).tandemId = s.tandemId := rfl
@[simp] theorem modRekey_win (s : State) (f : Rekey → Rekey) : (modRekey s f).win = s.win := rfl
@[simp] theorem modRekey_cap (s : State) (f : Rekey → Rekey) : (modRekey s f).cap = s.cap := rfl
@[simp] theorem modRekey_aon (s : State) (f : Rekey → Rekey) : (modRekey s f).aon = s.aon := rfl
@[simp] theorem modRekey_otp (s : State) (f : Rekey → Rekey) : (modRekey s f).otp = s.otp := rfl
@[simp] theorem modRekey_hub (s : State) (f : Rekey → Rekey) : (modRekey s f).hub = s.hub := rfl
@[simp] theorem modRekey_keys (s : State) (f : Rekey → Rekey) : (modRekey s f).keys = s.keys := rfl
@[simp] theorem modRekey_ident (s : State) (f : Rekey → Rekey) : (modRekey s f).ident = s.ident := rfl
@[simp] theorem modRekey_dom (s : State) (f : Rekey → Rekey) : (modRekey s f).dom = { s.dom with rekey := s.dom.rekey.map f } := rfl
@[simp] theorem modRekey_links (s : State) (f : Rekey → Rekey) : (modRekey s f).links = s.links := rfl
@[simp] theorem modRekey_fab (s : State) (f : Rekey → Rekey) : (modRekey s f).fab = s.fab := rfl
@[simp] theorem modRekey_mem (s : State) (f : Rekey → Rekey) : (modRekey s f).mem = s.mem := rfl
@[simp] theorem modRekey_red (s : State) (f : Rekey → Rekey) : (modRekey s f).red = s.red := rfl
@[simp] theorem modRekey_upd (s : State) (f : Rekey → Rekey) : (modRekey s f).upd = s.upd := rfl
@[simp] theorem modRekey_parts (s : State) (f : Rekey → Rekey) : (modRekey s f).parts = s.parts := rfl
@[simp] theorem modRekey_ladder (s : State) (f : Rekey → Rekey) : (modRekey s f).ladder = s.ladder := rfl
@[simp] theorem modRekey_td (s : State) (f : Rekey → Rekey) : (modRekey s f).td = s.td := rfl
@[simp] theorem modRekey_dbg (s : State) (f : Rekey → Rekey) : (modRekey s f).dbg = s.dbg := rfl

/-! `setLane` changes `links`. -/

@[simp] theorem setLane_pending (s : State) (k : Nat) (l : Lane) : (setLane s k l).pending = s.pending := rfl
@[simp] theorem setLane_out (s : State) (k : Nat) (l : Lane) : (setLane s k l).out = s.out := rfl
@[simp] theorem setLane_fresh (s : State) (k : Nat) (l : Lane) : (setLane s k l).fresh = s.fresh := rfl
@[simp] theorem setLane_draws (s : State) (k : Nat) (l : Lane) : (setLane s k l).draws = s.draws := rfl
@[simp] theorem setLane_size (s : State) (k : Nat) (l : Lane) : (setLane s k l).size = s.size := rfl
@[simp] theorem setLane_tandemEn (s : State) (k : Nat) (l : Lane) : (setLane s k l).tandemEn = s.tandemEn := rfl
@[simp] theorem setLane_tandemId (s : State) (k : Nat) (l : Lane) : (setLane s k l).tandemId = s.tandemId := rfl
@[simp] theorem setLane_win (s : State) (k : Nat) (l : Lane) : (setLane s k l).win = s.win := rfl
@[simp] theorem setLane_cap (s : State) (k : Nat) (l : Lane) : (setLane s k l).cap = s.cap := rfl
@[simp] theorem setLane_aon (s : State) (k : Nat) (l : Lane) : (setLane s k l).aon = s.aon := rfl
@[simp] theorem setLane_otp (s : State) (k : Nat) (l : Lane) : (setLane s k l).otp = s.otp := rfl
@[simp] theorem setLane_hub (s : State) (k : Nat) (l : Lane) : (setLane s k l).hub = s.hub := rfl
@[simp] theorem setLane_keys (s : State) (k : Nat) (l : Lane) : (setLane s k l).keys = s.keys := rfl
@[simp] theorem setLane_ident (s : State) (k : Nat) (l : Lane) : (setLane s k l).ident = s.ident := rfl
@[simp] theorem setLane_dom (s : State) (k : Nat) (l : Lane) : (setLane s k l).dom = s.dom := rfl
@[simp] theorem setLane_links (s : State) (k : Nat) (l : Lane) : (setLane s k l).links = { s.links with lane := tset s.links.lane k l } := rfl
@[simp] theorem setLane_fab (s : State) (k : Nat) (l : Lane) : (setLane s k l).fab = s.fab := rfl
@[simp] theorem setLane_mem (s : State) (k : Nat) (l : Lane) : (setLane s k l).mem = s.mem := rfl
@[simp] theorem setLane_red (s : State) (k : Nat) (l : Lane) : (setLane s k l).red = s.red := rfl
@[simp] theorem setLane_upd (s : State) (k : Nat) (l : Lane) : (setLane s k l).upd = s.upd := rfl
@[simp] theorem setLane_parts (s : State) (k : Nat) (l : Lane) : (setLane s k l).parts = s.parts := rfl
@[simp] theorem setLane_ladder (s : State) (k : Nat) (l : Lane) : (setLane s k l).ladder = s.ladder := rfl
@[simp] theorem setLane_td (s : State) (k : Nat) (l : Lane) : (setLane s k l).td = s.td := rfl
@[simp] theorem setLane_dbg (s : State) (k : Nat) (l : Lane) : (setLane s k l).dbg = s.dbg := rfl

/-! `egMod` changes `links`. -/

@[simp] theorem egMod_pending (s : State) (key : Nat) (f : Egress → Egress) : (egMod s key f).pending = s.pending := rfl
@[simp] theorem egMod_out (s : State) (key : Nat) (f : Egress → Egress) : (egMod s key f).out = s.out := rfl
@[simp] theorem egMod_fresh (s : State) (key : Nat) (f : Egress → Egress) : (egMod s key f).fresh = s.fresh := rfl
@[simp] theorem egMod_draws (s : State) (key : Nat) (f : Egress → Egress) : (egMod s key f).draws = s.draws := rfl
@[simp] theorem egMod_size (s : State) (key : Nat) (f : Egress → Egress) : (egMod s key f).size = s.size := rfl
@[simp] theorem egMod_tandemEn (s : State) (key : Nat) (f : Egress → Egress) : (egMod s key f).tandemEn = s.tandemEn := rfl
@[simp] theorem egMod_tandemId (s : State) (key : Nat) (f : Egress → Egress) : (egMod s key f).tandemId = s.tandemId := rfl
@[simp] theorem egMod_win (s : State) (key : Nat) (f : Egress → Egress) : (egMod s key f).win = s.win := rfl
@[simp] theorem egMod_cap (s : State) (key : Nat) (f : Egress → Egress) : (egMod s key f).cap = s.cap := rfl
@[simp] theorem egMod_aon (s : State) (key : Nat) (f : Egress → Egress) : (egMod s key f).aon = s.aon := rfl
@[simp] theorem egMod_otp (s : State) (key : Nat) (f : Egress → Egress) : (egMod s key f).otp = s.otp := rfl
@[simp] theorem egMod_hub (s : State) (key : Nat) (f : Egress → Egress) : (egMod s key f).hub = s.hub := rfl
@[simp] theorem egMod_keys (s : State) (key : Nat) (f : Egress → Egress) : (egMod s key f).keys = s.keys := rfl
@[simp] theorem egMod_ident (s : State) (key : Nat) (f : Egress → Egress) : (egMod s key f).ident = s.ident := rfl
@[simp] theorem egMod_dom (s : State) (key : Nat) (f : Egress → Egress) : (egMod s key f).dom = s.dom := rfl
@[simp] theorem egMod_links (s : State) (key : Nat) (f : Egress → Egress) : (egMod s key f).links = { s.links with egress := tmod s.links.egress key f } := rfl
@[simp] theorem egMod_fab (s : State) (key : Nat) (f : Egress → Egress) : (egMod s key f).fab = s.fab := rfl
@[simp] theorem egMod_mem (s : State) (key : Nat) (f : Egress → Egress) : (egMod s key f).mem = s.mem := rfl
@[simp] theorem egMod_red (s : State) (key : Nat) (f : Egress → Egress) : (egMod s key f).red = s.red := rfl
@[simp] theorem egMod_upd (s : State) (key : Nat) (f : Egress → Egress) : (egMod s key f).upd = s.upd := rfl
@[simp] theorem egMod_parts (s : State) (key : Nat) (f : Egress → Egress) : (egMod s key f).parts = s.parts := rfl
@[simp] theorem egMod_ladder (s : State) (key : Nat) (f : Egress → Egress) : (egMod s key f).ladder = s.ladder := rfl
@[simp] theorem egMod_td (s : State) (key : Nat) (f : Egress → Egress) : (egMod s key f).td = s.td := rfl
@[simp] theorem egMod_dbg (s : State) (key : Nat) (f : Egress → Egress) : (egMod s key f).dbg = s.dbg := rfl

/-! `scTouch` changes `links`. -/

@[simp] theorem scTouch_pending (s : State) (k : Nat) : (scTouch s k).pending = s.pending := rfl
@[simp] theorem scTouch_out (s : State) (k : Nat) : (scTouch s k).out = s.out := rfl
@[simp] theorem scTouch_fresh (s : State) (k : Nat) : (scTouch s k).fresh = s.fresh := rfl
@[simp] theorem scTouch_draws (s : State) (k : Nat) : (scTouch s k).draws = s.draws := rfl
@[simp] theorem scTouch_size (s : State) (k : Nat) : (scTouch s k).size = s.size := rfl
@[simp] theorem scTouch_tandemEn (s : State) (k : Nat) : (scTouch s k).tandemEn = s.tandemEn := rfl
@[simp] theorem scTouch_tandemId (s : State) (k : Nat) : (scTouch s k).tandemId = s.tandemId := rfl
@[simp] theorem scTouch_win (s : State) (k : Nat) : (scTouch s k).win = s.win := rfl
@[simp] theorem scTouch_cap (s : State) (k : Nat) : (scTouch s k).cap = s.cap := rfl
@[simp] theorem scTouch_aon (s : State) (k : Nat) : (scTouch s k).aon = s.aon := rfl
@[simp] theorem scTouch_otp (s : State) (k : Nat) : (scTouch s k).otp = s.otp := rfl
@[simp] theorem scTouch_hub (s : State) (k : Nat) : (scTouch s k).hub = s.hub := rfl
@[simp] theorem scTouch_keys (s : State) (k : Nat) : (scTouch s k).keys = s.keys := rfl
@[simp] theorem scTouch_ident (s : State) (k : Nat) : (scTouch s k).ident = s.ident := rfl
@[simp] theorem scTouch_dom (s : State) (k : Nat) : (scTouch s k).dom = s.dom := rfl
@[simp] theorem scTouch_links (s : State) (k : Nat) : (scTouch s k).links = { s.links with scLru := s.links.scLru.filter (· != k) ++ [k] } := rfl
@[simp] theorem scTouch_fab (s : State) (k : Nat) : (scTouch s k).fab = s.fab := rfl
@[simp] theorem scTouch_mem (s : State) (k : Nat) : (scTouch s k).mem = s.mem := rfl
@[simp] theorem scTouch_red (s : State) (k : Nat) : (scTouch s k).red = s.red := rfl
@[simp] theorem scTouch_upd (s : State) (k : Nat) : (scTouch s k).upd = s.upd := rfl
@[simp] theorem scTouch_parts (s : State) (k : Nat) : (scTouch s k).parts = s.parts := rfl
@[simp] theorem scTouch_ladder (s : State) (k : Nat) : (scTouch s k).ladder = s.ladder := rfl
@[simp] theorem scTouch_td (s : State) (k : Nat) : (scTouch s k).td = s.td := rfl
@[simp] theorem scTouch_dbg (s : State) (k : Nat) : (scTouch s k).dbg = s.dbg := rfl

/-! `pushTx` changes `fab`. -/

@[simp] theorem pushTx_pending (s : State) (f : TxFrame) : (pushTx s f).pending = s.pending := rfl
@[simp] theorem pushTx_out (s : State) (f : TxFrame) : (pushTx s f).out = s.out := rfl
@[simp] theorem pushTx_fresh (s : State) (f : TxFrame) : (pushTx s f).fresh = s.fresh := rfl
@[simp] theorem pushTx_draws (s : State) (f : TxFrame) : (pushTx s f).draws = s.draws := rfl
@[simp] theorem pushTx_size (s : State) (f : TxFrame) : (pushTx s f).size = s.size := rfl
@[simp] theorem pushTx_tandemEn (s : State) (f : TxFrame) : (pushTx s f).tandemEn = s.tandemEn := rfl
@[simp] theorem pushTx_tandemId (s : State) (f : TxFrame) : (pushTx s f).tandemId = s.tandemId := rfl
@[simp] theorem pushTx_win (s : State) (f : TxFrame) : (pushTx s f).win = s.win := rfl
@[simp] theorem pushTx_cap (s : State) (f : TxFrame) : (pushTx s f).cap = s.cap := rfl
@[simp] theorem pushTx_aon (s : State) (f : TxFrame) : (pushTx s f).aon = s.aon := rfl
@[simp] theorem pushTx_otp (s : State) (f : TxFrame) : (pushTx s f).otp = s.otp := rfl
@[simp] theorem pushTx_hub (s : State) (f : TxFrame) : (pushTx s f).hub = s.hub := rfl
@[simp] theorem pushTx_keys (s : State) (f : TxFrame) : (pushTx s f).keys = s.keys := rfl
@[simp] theorem pushTx_ident (s : State) (f : TxFrame) : (pushTx s f).ident = s.ident := rfl
@[simp] theorem pushTx_dom (s : State) (f : TxFrame) : (pushTx s f).dom = s.dom := rfl
@[simp] theorem pushTx_links (s : State) (f : TxFrame) : (pushTx s f).links = s.links := rfl
@[simp] theorem pushTx_fab (s : State) (f : TxFrame) : (pushTx s f).fab = { s.fab with txq := s.fab.txq ++ [f] } := rfl
@[simp] theorem pushTx_mem (s : State) (f : TxFrame) : (pushTx s f).mem = s.mem := rfl
@[simp] theorem pushTx_red (s : State) (f : TxFrame) : (pushTx s f).red = s.red := rfl
@[simp] theorem pushTx_upd (s : State) (f : TxFrame) : (pushTx s f).upd = s.upd := rfl
@[simp] theorem pushTx_parts (s : State) (f : TxFrame) : (pushTx s f).parts = s.parts := rfl
@[simp] theorem pushTx_ladder (s : State) (f : TxFrame) : (pushTx s f).ladder = s.ladder := rfl
@[simp] theorem pushTx_td (s : State) (f : TxFrame) : (pushTx s f).td = s.td := rfl
@[simp] theorem pushTx_dbg (s : State) (f : TxFrame) : (pushTx s f).dbg = s.dbg := rfl

/-! `inboxPush` changes `fab`. -/

@[simp] theorem inboxPush_pending (s : State) (f : InFrame) : (inboxPush s f).pending = s.pending := rfl
@[simp] theorem inboxPush_out (s : State) (f : InFrame) : (inboxPush s f).out = s.out := rfl
@[simp] theorem inboxPush_fresh (s : State) (f : InFrame) : (inboxPush s f).fresh = s.fresh := rfl
@[simp] theorem inboxPush_draws (s : State) (f : InFrame) : (inboxPush s f).draws = s.draws := rfl
@[simp] theorem inboxPush_size (s : State) (f : InFrame) : (inboxPush s f).size = s.size := rfl
@[simp] theorem inboxPush_tandemEn (s : State) (f : InFrame) : (inboxPush s f).tandemEn = s.tandemEn := rfl
@[simp] theorem inboxPush_tandemId (s : State) (f : InFrame) : (inboxPush s f).tandemId = s.tandemId := rfl
@[simp] theorem inboxPush_win (s : State) (f : InFrame) : (inboxPush s f).win = s.win := rfl
@[simp] theorem inboxPush_cap (s : State) (f : InFrame) : (inboxPush s f).cap = s.cap := rfl
@[simp] theorem inboxPush_aon (s : State) (f : InFrame) : (inboxPush s f).aon = s.aon := rfl
@[simp] theorem inboxPush_otp (s : State) (f : InFrame) : (inboxPush s f).otp = s.otp := rfl
@[simp] theorem inboxPush_hub (s : State) (f : InFrame) : (inboxPush s f).hub = s.hub := rfl
@[simp] theorem inboxPush_keys (s : State) (f : InFrame) : (inboxPush s f).keys = s.keys := rfl
@[simp] theorem inboxPush_ident (s : State) (f : InFrame) : (inboxPush s f).ident = s.ident := rfl
@[simp] theorem inboxPush_dom (s : State) (f : InFrame) : (inboxPush s f).dom = s.dom := rfl
@[simp] theorem inboxPush_links (s : State) (f : InFrame) : (inboxPush s f).links = s.links := rfl
@[simp] theorem inboxPush_fab (s : State) (f : InFrame) : (inboxPush s f).fab = { s.fab with inbox := s.fab.inbox ++ [f] } := rfl
@[simp] theorem inboxPush_mem (s : State) (f : InFrame) : (inboxPush s f).mem = s.mem := rfl
@[simp] theorem inboxPush_red (s : State) (f : InFrame) : (inboxPush s f).red = s.red := rfl
@[simp] theorem inboxPush_upd (s : State) (f : InFrame) : (inboxPush s f).upd = s.upd := rfl
@[simp] theorem inboxPush_parts (s : State) (f : InFrame) : (inboxPush s f).parts = s.parts := rfl
@[simp] theorem inboxPush_ladder (s : State) (f : InFrame) : (inboxPush s f).ladder = s.ladder := rfl
@[simp] theorem inboxPush_td (s : State) (f : InFrame) : (inboxPush s f).td = s.td := rfl
@[simp] theorem inboxPush_dbg (s : State) (f : InFrame) : (inboxPush s f).dbg = s.dbg := rfl

/-! `setTag` changes `fab`. -/

@[simp] theorem setTag_pending (s : State) (t : Nat) (e : TagEnt) : (setTag s t e).pending = s.pending := rfl
@[simp] theorem setTag_out (s : State) (t : Nat) (e : TagEnt) : (setTag s t e).out = s.out := rfl
@[simp] theorem setTag_fresh (s : State) (t : Nat) (e : TagEnt) : (setTag s t e).fresh = s.fresh := rfl
@[simp] theorem setTag_draws (s : State) (t : Nat) (e : TagEnt) : (setTag s t e).draws = s.draws := rfl
@[simp] theorem setTag_size (s : State) (t : Nat) (e : TagEnt) : (setTag s t e).size = s.size := rfl
@[simp] theorem setTag_tandemEn (s : State) (t : Nat) (e : TagEnt) : (setTag s t e).tandemEn = s.tandemEn := rfl
@[simp] theorem setTag_tandemId (s : State) (t : Nat) (e : TagEnt) : (setTag s t e).tandemId = s.tandemId := rfl
@[simp] theorem setTag_win (s : State) (t : Nat) (e : TagEnt) : (setTag s t e).win = s.win := rfl
@[simp] theorem setTag_cap (s : State) (t : Nat) (e : TagEnt) : (setTag s t e).cap = s.cap := rfl
@[simp] theorem setTag_aon (s : State) (t : Nat) (e : TagEnt) : (setTag s t e).aon = s.aon := rfl
@[simp] theorem setTag_otp (s : State) (t : Nat) (e : TagEnt) : (setTag s t e).otp = s.otp := rfl
@[simp] theorem setTag_hub (s : State) (t : Nat) (e : TagEnt) : (setTag s t e).hub = s.hub := rfl
@[simp] theorem setTag_keys (s : State) (t : Nat) (e : TagEnt) : (setTag s t e).keys = s.keys := rfl
@[simp] theorem setTag_ident (s : State) (t : Nat) (e : TagEnt) : (setTag s t e).ident = s.ident := rfl
@[simp] theorem setTag_dom (s : State) (t : Nat) (e : TagEnt) : (setTag s t e).dom = s.dom := rfl
@[simp] theorem setTag_links (s : State) (t : Nat) (e : TagEnt) : (setTag s t e).links = s.links := rfl
@[simp] theorem setTag_fab (s : State) (t : Nat) (e : TagEnt) : (setTag s t e).fab = { s.fab with tags := tset s.fab.tags t e } := rfl
@[simp] theorem setTag_mem (s : State) (t : Nat) (e : TagEnt) : (setTag s t e).mem = s.mem := rfl
@[simp] theorem setTag_red (s : State) (t : Nat) (e : TagEnt) : (setTag s t e).red = s.red := rfl
@[simp] theorem setTag_upd (s : State) (t : Nat) (e : TagEnt) : (setTag s t e).upd = s.upd := rfl
@[simp] theorem setTag_parts (s : State) (t : Nat) (e : TagEnt) : (setTag s t e).parts = s.parts := rfl
@[simp] theorem setTag_ladder (s : State) (t : Nat) (e : TagEnt) : (setTag s t e).ladder = s.ladder := rfl
@[simp] theorem setTag_td (s : State) (t : Nat) (e : TagEnt) : (setTag s t e).td = s.td := rfl
@[simp] theorem setTag_dbg (s : State) (t : Nat) (e : TagEnt) : (setTag s t e).dbg = s.dbg := rfl

/-! `markMoves` changes `fab`. -/

@[simp] theorem markMoves_pending (s : State) (tags : List Nat) : (markMoves s tags).pending = s.pending := rfl
@[simp] theorem markMoves_out (s : State) (tags : List Nat) : (markMoves s tags).out = s.out := rfl
@[simp] theorem markMoves_fresh (s : State) (tags : List Nat) : (markMoves s tags).fresh = s.fresh := rfl
@[simp] theorem markMoves_draws (s : State) (tags : List Nat) : (markMoves s tags).draws = s.draws := rfl
@[simp] theorem markMoves_size (s : State) (tags : List Nat) : (markMoves s tags).size = s.size := rfl
@[simp] theorem markMoves_tandemEn (s : State) (tags : List Nat) : (markMoves s tags).tandemEn = s.tandemEn := rfl
@[simp] theorem markMoves_tandemId (s : State) (tags : List Nat) : (markMoves s tags).tandemId = s.tandemId := rfl
@[simp] theorem markMoves_win (s : State) (tags : List Nat) : (markMoves s tags).win = s.win := rfl
@[simp] theorem markMoves_cap (s : State) (tags : List Nat) : (markMoves s tags).cap = s.cap := rfl
@[simp] theorem markMoves_aon (s : State) (tags : List Nat) : (markMoves s tags).aon = s.aon := rfl
@[simp] theorem markMoves_otp (s : State) (tags : List Nat) : (markMoves s tags).otp = s.otp := rfl
@[simp] theorem markMoves_hub (s : State) (tags : List Nat) : (markMoves s tags).hub = s.hub := rfl
@[simp] theorem markMoves_keys (s : State) (tags : List Nat) : (markMoves s tags).keys = s.keys := rfl
@[simp] theorem markMoves_ident (s : State) (tags : List Nat) : (markMoves s tags).ident = s.ident := rfl
@[simp] theorem markMoves_dom (s : State) (tags : List Nat) : (markMoves s tags).dom = s.dom := rfl
@[simp] theorem markMoves_links (s : State) (tags : List Nat) : (markMoves s tags).links = s.links := rfl
@[simp] theorem markMoves_fab (s : State) (tags : List Nat) : (markMoves s tags).fab = { s.fab with tags := tmapV s.fab.tags (fun t e => if tags.contains t then { e with move := true } else e) } := rfl
@[simp] theorem markMoves_mem (s : State) (tags : List Nat) : (markMoves s tags).mem = s.mem := rfl
@[simp] theorem markMoves_red (s : State) (tags : List Nat) : (markMoves s tags).red = s.red := rfl
@[simp] theorem markMoves_upd (s : State) (tags : List Nat) : (markMoves s tags).upd = s.upd := rfl
@[simp] theorem markMoves_parts (s : State) (tags : List Nat) : (markMoves s tags).parts = s.parts := rfl
@[simp] theorem markMoves_ladder (s : State) (tags : List Nat) : (markMoves s tags).ladder = s.ladder := rfl
@[simp] theorem markMoves_td (s : State) (tags : List Nat) : (markMoves s tags).td = s.td := rfl
@[simp] theorem markMoves_dbg (s : State) (tags : List Nat) : (markMoves s tags).dbg = s.dbg := rfl

/-! `hotMod` changes `fab`. -/

@[simp] theorem hotMod_pending (s : State) (kid line : Nat) (f : HotLine → HotLine) : (hotMod s kid line f).pending = s.pending := rfl
@[simp] theorem hotMod_out (s : State) (kid line : Nat) (f : HotLine → HotLine) : (hotMod s kid line f).out = s.out := rfl
@[simp] theorem hotMod_fresh (s : State) (kid line : Nat) (f : HotLine → HotLine) : (hotMod s kid line f).fresh = s.fresh := rfl
@[simp] theorem hotMod_draws (s : State) (kid line : Nat) (f : HotLine → HotLine) : (hotMod s kid line f).draws = s.draws := rfl
@[simp] theorem hotMod_size (s : State) (kid line : Nat) (f : HotLine → HotLine) : (hotMod s kid line f).size = s.size := rfl
@[simp] theorem hotMod_tandemEn (s : State) (kid line : Nat) (f : HotLine → HotLine) : (hotMod s kid line f).tandemEn = s.tandemEn := rfl
@[simp] theorem hotMod_tandemId (s : State) (kid line : Nat) (f : HotLine → HotLine) : (hotMod s kid line f).tandemId = s.tandemId := rfl
@[simp] theorem hotMod_win (s : State) (kid line : Nat) (f : HotLine → HotLine) : (hotMod s kid line f).win = s.win := rfl
@[simp] theorem hotMod_cap (s : State) (kid line : Nat) (f : HotLine → HotLine) : (hotMod s kid line f).cap = s.cap := rfl
@[simp] theorem hotMod_aon (s : State) (kid line : Nat) (f : HotLine → HotLine) : (hotMod s kid line f).aon = s.aon := rfl
@[simp] theorem hotMod_otp (s : State) (kid line : Nat) (f : HotLine → HotLine) : (hotMod s kid line f).otp = s.otp := rfl
@[simp] theorem hotMod_hub (s : State) (kid line : Nat) (f : HotLine → HotLine) : (hotMod s kid line f).hub = s.hub := rfl
@[simp] theorem hotMod_keys (s : State) (kid line : Nat) (f : HotLine → HotLine) : (hotMod s kid line f).keys = s.keys := rfl
@[simp] theorem hotMod_ident (s : State) (kid line : Nat) (f : HotLine → HotLine) : (hotMod s kid line f).ident = s.ident := rfl
@[simp] theorem hotMod_dom (s : State) (kid line : Nat) (f : HotLine → HotLine) : (hotMod s kid line f).dom = s.dom := rfl
@[simp] theorem hotMod_links (s : State) (kid line : Nat) (f : HotLine → HotLine) : (hotMod s kid line f).links = s.links := rfl
@[simp] theorem hotMod_fab (s : State) (kid line : Nat) (f : HotLine → HotLine) : (hotMod s kid line f).fab = { s.fab with hot := s.fab.hot.map (fun h => if h.kid = kid ∧ h.line = line then f h else h) } := rfl
@[simp] theorem hotMod_mem (s : State) (kid line : Nat) (f : HotLine → HotLine) : (hotMod s kid line f).mem = s.mem := rfl
@[simp] theorem hotMod_red (s : State) (kid line : Nat) (f : HotLine → HotLine) : (hotMod s kid line f).red = s.red := rfl
@[simp] theorem hotMod_upd (s : State) (kid line : Nat) (f : HotLine → HotLine) : (hotMod s kid line f).upd = s.upd := rfl
@[simp] theorem hotMod_parts (s : State) (kid line : Nat) (f : HotLine → HotLine) : (hotMod s kid line f).parts = s.parts := rfl
@[simp] theorem hotMod_ladder (s : State) (kid line : Nat) (f : HotLine → HotLine) : (hotMod s kid line f).ladder = s.ladder := rfl
@[simp] theorem hotMod_td (s : State) (kid line : Nat) (f : HotLine → HotLine) : (hotMod s kid line f).td = s.td := rfl
@[simp] theorem hotMod_dbg (s : State) (kid line : Nat) (f : HotLine → HotLine) : (hotMod s kid line f).dbg = s.dbg := rfl

/-! `setRegion` changes `mem`. -/

@[simp] theorem setRegion_pending (s : State) (kid : Nat) (r : Region) : (setRegion s kid r).pending = s.pending := rfl
@[simp] theorem setRegion_out (s : State) (kid : Nat) (r : Region) : (setRegion s kid r).out = s.out := rfl
@[simp] theorem setRegion_fresh (s : State) (kid : Nat) (r : Region) : (setRegion s kid r).fresh = s.fresh := rfl
@[simp] theorem setRegion_draws (s : State) (kid : Nat) (r : Region) : (setRegion s kid r).draws = s.draws := rfl
@[simp] theorem setRegion_size (s : State) (kid : Nat) (r : Region) : (setRegion s kid r).size = s.size := rfl
@[simp] theorem setRegion_tandemEn (s : State) (kid : Nat) (r : Region) : (setRegion s kid r).tandemEn = s.tandemEn := rfl
@[simp] theorem setRegion_tandemId (s : State) (kid : Nat) (r : Region) : (setRegion s kid r).tandemId = s.tandemId := rfl
@[simp] theorem setRegion_win (s : State) (kid : Nat) (r : Region) : (setRegion s kid r).win = s.win := rfl
@[simp] theorem setRegion_cap (s : State) (kid : Nat) (r : Region) : (setRegion s kid r).cap = s.cap := rfl
@[simp] theorem setRegion_aon (s : State) (kid : Nat) (r : Region) : (setRegion s kid r).aon = s.aon := rfl
@[simp] theorem setRegion_otp (s : State) (kid : Nat) (r : Region) : (setRegion s kid r).otp = s.otp := rfl
@[simp] theorem setRegion_hub (s : State) (kid : Nat) (r : Region) : (setRegion s kid r).hub = s.hub := rfl
@[simp] theorem setRegion_keys (s : State) (kid : Nat) (r : Region) : (setRegion s kid r).keys = s.keys := rfl
@[simp] theorem setRegion_ident (s : State) (kid : Nat) (r : Region) : (setRegion s kid r).ident = s.ident := rfl
@[simp] theorem setRegion_dom (s : State) (kid : Nat) (r : Region) : (setRegion s kid r).dom = s.dom := rfl
@[simp] theorem setRegion_links (s : State) (kid : Nat) (r : Region) : (setRegion s kid r).links = s.links := rfl
@[simp] theorem setRegion_fab (s : State) (kid : Nat) (r : Region) : (setRegion s kid r).fab = s.fab := rfl
@[simp] theorem setRegion_mem (s : State) (kid : Nat) (r : Region) : (setRegion s kid r).mem = { s.mem with region := tset s.mem.region kid r } := rfl
@[simp] theorem setRegion_red (s : State) (kid : Nat) (r : Region) : (setRegion s kid r).red = s.red := rfl
@[simp] theorem setRegion_upd (s : State) (kid : Nat) (r : Region) : (setRegion s kid r).upd = s.upd := rfl
@[simp] theorem setRegion_parts (s : State) (kid : Nat) (r : Region) : (setRegion s kid r).parts = s.parts := rfl
@[simp] theorem setRegion_ladder (s : State) (kid : Nat) (r : Region) : (setRegion s kid r).ladder = s.ladder := rfl
@[simp] theorem setRegion_td (s : State) (kid : Nat) (r : Region) : (setRegion s kid r).td = s.td := rfl
@[simp] theorem setRegion_dbg (s : State) (kid : Nat) (r : Region) : (setRegion s kid r).dbg = s.dbg := rfl

/-! `setOp` changes `mem`. -/

@[simp] theorem setOp_pending (s : State) (id : Nat) (o : MemOp) : (setOp s id o).pending = s.pending := rfl
@[simp] theorem setOp_out (s : State) (id : Nat) (o : MemOp) : (setOp s id o).out = s.out := rfl
@[simp] theorem setOp_fresh (s : State) (id : Nat) (o : MemOp) : (setOp s id o).fresh = s.fresh := rfl
@[simp] theorem setOp_draws (s : State) (id : Nat) (o : MemOp) : (setOp s id o).draws = s.draws := rfl
@[simp] theorem setOp_size (s : State) (id : Nat) (o : MemOp) : (setOp s id o).size = s.size := rfl
@[simp] theorem setOp_tandemEn (s : State) (id : Nat) (o : MemOp) : (setOp s id o).tandemEn = s.tandemEn := rfl
@[simp] theorem setOp_tandemId (s : State) (id : Nat) (o : MemOp) : (setOp s id o).tandemId = s.tandemId := rfl
@[simp] theorem setOp_win (s : State) (id : Nat) (o : MemOp) : (setOp s id o).win = s.win := rfl
@[simp] theorem setOp_cap (s : State) (id : Nat) (o : MemOp) : (setOp s id o).cap = s.cap := rfl
@[simp] theorem setOp_aon (s : State) (id : Nat) (o : MemOp) : (setOp s id o).aon = s.aon := rfl
@[simp] theorem setOp_otp (s : State) (id : Nat) (o : MemOp) : (setOp s id o).otp = s.otp := rfl
@[simp] theorem setOp_hub (s : State) (id : Nat) (o : MemOp) : (setOp s id o).hub = s.hub := rfl
@[simp] theorem setOp_keys (s : State) (id : Nat) (o : MemOp) : (setOp s id o).keys = s.keys := rfl
@[simp] theorem setOp_ident (s : State) (id : Nat) (o : MemOp) : (setOp s id o).ident = s.ident := rfl
@[simp] theorem setOp_dom (s : State) (id : Nat) (o : MemOp) : (setOp s id o).dom = s.dom := rfl
@[simp] theorem setOp_links (s : State) (id : Nat) (o : MemOp) : (setOp s id o).links = s.links := rfl
@[simp] theorem setOp_fab (s : State) (id : Nat) (o : MemOp) : (setOp s id o).fab = s.fab := rfl
@[simp] theorem setOp_mem (s : State) (id : Nat) (o : MemOp) : (setOp s id o).mem = { s.mem with ops := tset s.mem.ops id o } := rfl
@[simp] theorem setOp_red (s : State) (id : Nat) (o : MemOp) : (setOp s id o).red = s.red := rfl
@[simp] theorem setOp_upd (s : State) (id : Nat) (o : MemOp) : (setOp s id o).upd = s.upd := rfl
@[simp] theorem setOp_parts (s : State) (id : Nat) (o : MemOp) : (setOp s id o).parts = s.parts := rfl
@[simp] theorem setOp_ladder (s : State) (id : Nat) (o : MemOp) : (setOp s id o).ladder = s.ladder := rfl
@[simp] theorem setOp_td (s : State) (id : Nat) (o : MemOp) : (setOp s id o).td = s.td := rfl
@[simp] theorem setOp_dbg (s : State) (id : Nat) (o : MemOp) : (setOp s id o).dbg = s.dbg := rfl

/-! `setJob` changes `mem`. -/

@[simp] theorem setJob_pending (s : State) (id : Nat) (j : PageJob) : (setJob s id j).pending = s.pending := rfl
@[simp] theorem setJob_out (s : State) (id : Nat) (j : PageJob) : (setJob s id j).out = s.out := rfl
@[simp] theorem setJob_fresh (s : State) (id : Nat) (j : PageJob) : (setJob s id j).fresh = s.fresh := rfl
@[simp] theorem setJob_draws (s : State) (id : Nat) (j : PageJob) : (setJob s id j).draws = s.draws := rfl
@[simp] theorem setJob_size (s : State) (id : Nat) (j : PageJob) : (setJob s id j).size = s.size := rfl
@[simp] theorem setJob_tandemEn (s : State) (id : Nat) (j : PageJob) : (setJob s id j).tandemEn = s.tandemEn := rfl
@[simp] theorem setJob_tandemId (s : State) (id : Nat) (j : PageJob) : (setJob s id j).tandemId = s.tandemId := rfl
@[simp] theorem setJob_win (s : State) (id : Nat) (j : PageJob) : (setJob s id j).win = s.win := rfl
@[simp] theorem setJob_cap (s : State) (id : Nat) (j : PageJob) : (setJob s id j).cap = s.cap := rfl
@[simp] theorem setJob_aon (s : State) (id : Nat) (j : PageJob) : (setJob s id j).aon = s.aon := rfl
@[simp] theorem setJob_otp (s : State) (id : Nat) (j : PageJob) : (setJob s id j).otp = s.otp := rfl
@[simp] theorem setJob_hub (s : State) (id : Nat) (j : PageJob) : (setJob s id j).hub = s.hub := rfl
@[simp] theorem setJob_keys (s : State) (id : Nat) (j : PageJob) : (setJob s id j).keys = s.keys := rfl
@[simp] theorem setJob_ident (s : State) (id : Nat) (j : PageJob) : (setJob s id j).ident = s.ident := rfl
@[simp] theorem setJob_dom (s : State) (id : Nat) (j : PageJob) : (setJob s id j).dom = s.dom := rfl
@[simp] theorem setJob_links (s : State) (id : Nat) (j : PageJob) : (setJob s id j).links = s.links := rfl
@[simp] theorem setJob_fab (s : State) (id : Nat) (j : PageJob) : (setJob s id j).fab = s.fab := rfl
@[simp] theorem setJob_mem (s : State) (id : Nat) (j : PageJob) : (setJob s id j).mem = { s.mem with jobs := tset s.mem.jobs id j } := rfl
@[simp] theorem setJob_red (s : State) (id : Nat) (j : PageJob) : (setJob s id j).red = s.red := rfl
@[simp] theorem setJob_upd (s : State) (id : Nat) (j : PageJob) : (setJob s id j).upd = s.upd := rfl
@[simp] theorem setJob_parts (s : State) (id : Nat) (j : PageJob) : (setJob s id j).parts = s.parts := rfl
@[simp] theorem setJob_ladder (s : State) (id : Nat) (j : PageJob) : (setJob s id j).ladder = s.ladder := rfl
@[simp] theorem setJob_td (s : State) (id : Nat) (j : PageJob) : (setJob s id j).td = s.td := rfl
@[simp] theorem setJob_dbg (s : State) (id : Nat) (j : PageJob) : (setJob s id j).dbg = s.dbg := rfl

/-! `ccPut` changes `mem`. -/

@[simp] theorem ccPut_pending (s : State) (kid level idx : Nat) (b : Bytes) (dirty : Bool) : (ccPut s kid level idx b dirty).pending = s.pending := rfl
@[simp] theorem ccPut_out (s : State) (kid level idx : Nat) (b : Bytes) (dirty : Bool) : (ccPut s kid level idx b dirty).out = s.out := rfl
@[simp] theorem ccPut_fresh (s : State) (kid level idx : Nat) (b : Bytes) (dirty : Bool) : (ccPut s kid level idx b dirty).fresh = s.fresh := rfl
@[simp] theorem ccPut_draws (s : State) (kid level idx : Nat) (b : Bytes) (dirty : Bool) : (ccPut s kid level idx b dirty).draws = s.draws := rfl
@[simp] theorem ccPut_size (s : State) (kid level idx : Nat) (b : Bytes) (dirty : Bool) : (ccPut s kid level idx b dirty).size = s.size := rfl
@[simp] theorem ccPut_tandemEn (s : State) (kid level idx : Nat) (b : Bytes) (dirty : Bool) : (ccPut s kid level idx b dirty).tandemEn = s.tandemEn := rfl
@[simp] theorem ccPut_tandemId (s : State) (kid level idx : Nat) (b : Bytes) (dirty : Bool) : (ccPut s kid level idx b dirty).tandemId = s.tandemId := rfl
@[simp] theorem ccPut_win (s : State) (kid level idx : Nat) (b : Bytes) (dirty : Bool) : (ccPut s kid level idx b dirty).win = s.win := rfl
@[simp] theorem ccPut_cap (s : State) (kid level idx : Nat) (b : Bytes) (dirty : Bool) : (ccPut s kid level idx b dirty).cap = s.cap := rfl
@[simp] theorem ccPut_aon (s : State) (kid level idx : Nat) (b : Bytes) (dirty : Bool) : (ccPut s kid level idx b dirty).aon = s.aon := rfl
@[simp] theorem ccPut_otp (s : State) (kid level idx : Nat) (b : Bytes) (dirty : Bool) : (ccPut s kid level idx b dirty).otp = s.otp := rfl
@[simp] theorem ccPut_hub (s : State) (kid level idx : Nat) (b : Bytes) (dirty : Bool) : (ccPut s kid level idx b dirty).hub = s.hub := rfl
@[simp] theorem ccPut_keys (s : State) (kid level idx : Nat) (b : Bytes) (dirty : Bool) : (ccPut s kid level idx b dirty).keys = s.keys := rfl
@[simp] theorem ccPut_ident (s : State) (kid level idx : Nat) (b : Bytes) (dirty : Bool) : (ccPut s kid level idx b dirty).ident = s.ident := rfl
@[simp] theorem ccPut_dom (s : State) (kid level idx : Nat) (b : Bytes) (dirty : Bool) : (ccPut s kid level idx b dirty).dom = s.dom := rfl
@[simp] theorem ccPut_links (s : State) (kid level idx : Nat) (b : Bytes) (dirty : Bool) : (ccPut s kid level idx b dirty).links = s.links := rfl
@[simp] theorem ccPut_fab (s : State) (kid level idx : Nat) (b : Bytes) (dirty : Bool) : (ccPut s kid level idx b dirty).fab = s.fab := rfl
@[simp] theorem ccPut_mem (s : State) (kid level idx : Nat) (b : Bytes) (dirty : Bool) : (ccPut s kid level idx b dirty).mem = { s.mem with cc := tset s.mem.cc (ccKey kid level idx) { data := b, dirty := dirty } } := rfl
@[simp] theorem ccPut_red (s : State) (kid level idx : Nat) (b : Bytes) (dirty : Bool) : (ccPut s kid level idx b dirty).red = s.red := rfl
@[simp] theorem ccPut_upd (s : State) (kid level idx : Nat) (b : Bytes) (dirty : Bool) : (ccPut s kid level idx b dirty).upd = s.upd := rfl
@[simp] theorem ccPut_parts (s : State) (kid level idx : Nat) (b : Bytes) (dirty : Bool) : (ccPut s kid level idx b dirty).parts = s.parts := rfl
@[simp] theorem ccPut_ladder (s : State) (kid level idx : Nat) (b : Bytes) (dirty : Bool) : (ccPut s kid level idx b dirty).ladder = s.ladder := rfl
@[simp] theorem ccPut_td (s : State) (kid level idx : Nat) (b : Bytes) (dirty : Bool) : (ccPut s kid level idx b dirty).td = s.td := rfl
@[simp] theorem ccPut_dbg (s : State) (kid level idx : Nat) (b : Bytes) (dirty : Bool) : (ccPut s kid level idx b dirty).dbg = s.dbg := rfl

/-! `setStage` changes `red`. -/

@[simp] theorem setStage_pending (s : State) (d : Nat) (g : Stage) : (setStage s d g).pending = s.pending := rfl
@[simp] theorem setStage_out (s : State) (d : Nat) (g : Stage) : (setStage s d g).out = s.out := rfl
@[simp] theorem setStage_fresh (s : State) (d : Nat) (g : Stage) : (setStage s d g).fresh = s.fresh := rfl
@[simp] theorem setStage_draws (s : State) (d : Nat) (g : Stage) : (setStage s d g).draws = s.draws := rfl
@[simp] theorem setStage_size (s : State) (d : Nat) (g : Stage) : (setStage s d g).size = s.size := rfl
@[simp] theorem setStage_tandemEn (s : State) (d : Nat) (g : Stage) : (setStage s d g).tandemEn = s.tandemEn := rfl
@[simp] theorem setStage_tandemId (s : State) (d : Nat) (g : Stage) : (setStage s d g).tandemId = s.tandemId := rfl
@[simp] theorem setStage_win (s : State) (d : Nat) (g : Stage) : (setStage s d g).win = s.win := rfl
@[simp] theorem setStage_cap (s : State) (d : Nat) (g : Stage) : (setStage s d g).cap = s.cap := rfl
@[simp] theorem setStage_aon (s : State) (d : Nat) (g : Stage) : (setStage s d g).aon = s.aon := rfl
@[simp] theorem setStage_otp (s : State) (d : Nat) (g : Stage) : (setStage s d g).otp = s.otp := rfl
@[simp] theorem setStage_hub (s : State) (d : Nat) (g : Stage) : (setStage s d g).hub = s.hub := rfl
@[simp] theorem setStage_keys (s : State) (d : Nat) (g : Stage) : (setStage s d g).keys = s.keys := rfl
@[simp] theorem setStage_ident (s : State) (d : Nat) (g : Stage) : (setStage s d g).ident = s.ident := rfl
@[simp] theorem setStage_dom (s : State) (d : Nat) (g : Stage) : (setStage s d g).dom = s.dom := rfl
@[simp] theorem setStage_links (s : State) (d : Nat) (g : Stage) : (setStage s d g).links = s.links := rfl
@[simp] theorem setStage_fab (s : State) (d : Nat) (g : Stage) : (setStage s d g).fab = s.fab := rfl
@[simp] theorem setStage_mem (s : State) (d : Nat) (g : Stage) : (setStage s d g).mem = s.mem := rfl
@[simp] theorem setStage_red (s : State) (d : Nat) (g : Stage) : (setStage s d g).red = { s.red with stages := tset s.red.stages d g } := rfl
@[simp] theorem setStage_upd (s : State) (d : Nat) (g : Stage) : (setStage s d g).upd = s.upd := rfl
@[simp] theorem setStage_parts (s : State) (d : Nat) (g : Stage) : (setStage s d g).parts = s.parts := rfl
@[simp] theorem setStage_ladder (s : State) (d : Nat) (g : Stage) : (setStage s d g).ladder = s.ladder := rfl
@[simp] theorem setStage_td (s : State) (d : Nat) (g : Stage) : (setStage s d g).td = s.td := rfl
@[simp] theorem setStage_dbg (s : State) (d : Nat) (g : Stage) : (setStage s d g).dbg = s.dbg := rfl

/-! `setUpd` changes `upd`. -/

@[simp] theorem setUpd_pending (s : State) (d : Nat) (u : Upd) : (setUpd s d u).pending = s.pending := rfl
@[simp] theorem setUpd_out (s : State) (d : Nat) (u : Upd) : (setUpd s d u).out = s.out := rfl
@[simp] theorem setUpd_fresh (s : State) (d : Nat) (u : Upd) : (setUpd s d u).fresh = s.fresh := rfl
@[simp] theorem setUpd_draws (s : State) (d : Nat) (u : Upd) : (setUpd s d u).draws = s.draws := rfl
@[simp] theorem setUpd_size (s : State) (d : Nat) (u : Upd) : (setUpd s d u).size = s.size := rfl
@[simp] theorem setUpd_tandemEn (s : State) (d : Nat) (u : Upd) : (setUpd s d u).tandemEn = s.tandemEn := rfl
@[simp] theorem setUpd_tandemId (s : State) (d : Nat) (u : Upd) : (setUpd s d u).tandemId = s.tandemId := rfl
@[simp] theorem setUpd_win (s : State) (d : Nat) (u : Upd) : (setUpd s d u).win = s.win := rfl
@[simp] theorem setUpd_cap (s : State) (d : Nat) (u : Upd) : (setUpd s d u).cap = s.cap := rfl
@[simp] theorem setUpd_aon (s : State) (d : Nat) (u : Upd) : (setUpd s d u).aon = s.aon := rfl
@[simp] theorem setUpd_otp (s : State) (d : Nat) (u : Upd) : (setUpd s d u).otp = s.otp := rfl
@[simp] theorem setUpd_hub (s : State) (d : Nat) (u : Upd) : (setUpd s d u).hub = s.hub := rfl
@[simp] theorem setUpd_keys (s : State) (d : Nat) (u : Upd) : (setUpd s d u).keys = s.keys := rfl
@[simp] theorem setUpd_ident (s : State) (d : Nat) (u : Upd) : (setUpd s d u).ident = s.ident := rfl
@[simp] theorem setUpd_dom (s : State) (d : Nat) (u : Upd) : (setUpd s d u).dom = s.dom := rfl
@[simp] theorem setUpd_links (s : State) (d : Nat) (u : Upd) : (setUpd s d u).links = s.links := rfl
@[simp] theorem setUpd_fab (s : State) (d : Nat) (u : Upd) : (setUpd s d u).fab = s.fab := rfl
@[simp] theorem setUpd_mem (s : State) (d : Nat) (u : Upd) : (setUpd s d u).mem = s.mem := rfl
@[simp] theorem setUpd_red (s : State) (d : Nat) (u : Upd) : (setUpd s d u).red = s.red := rfl
@[simp] theorem setUpd_upd (s : State) (d : Nat) (u : Upd) : (setUpd s d u).upd = { s.upd with runs := tset s.upd.runs d u } := rfl
@[simp] theorem setUpd_parts (s : State) (d : Nat) (u : Upd) : (setUpd s d u).parts = s.parts := rfl
@[simp] theorem setUpd_ladder (s : State) (d : Nat) (u : Upd) : (setUpd s d u).ladder = s.ladder := rfl
@[simp] theorem setUpd_td (s : State) (d : Nat) (u : Upd) : (setUpd s d u).td = s.td := rfl
@[simp] theorem setUpd_dbg (s : State) (d : Nat) (u : Upd) : (setUpd s d u).dbg = s.dbg := rfl

/-! `setPart` changes `parts`. -/

@[simp] theorem setPart_pending (s : State) (p : Nat) (r : PartRec) : (setPart s p r).pending = s.pending := rfl
@[simp] theorem setPart_out (s : State) (p : Nat) (r : PartRec) : (setPart s p r).out = s.out := rfl
@[simp] theorem setPart_fresh (s : State) (p : Nat) (r : PartRec) : (setPart s p r).fresh = s.fresh := rfl
@[simp] theorem setPart_draws (s : State) (p : Nat) (r : PartRec) : (setPart s p r).draws = s.draws := rfl
@[simp] theorem setPart_size (s : State) (p : Nat) (r : PartRec) : (setPart s p r).size = s.size := rfl
@[simp] theorem setPart_tandemEn (s : State) (p : Nat) (r : PartRec) : (setPart s p r).tandemEn = s.tandemEn := rfl
@[simp] theorem setPart_tandemId (s : State) (p : Nat) (r : PartRec) : (setPart s p r).tandemId = s.tandemId := rfl
@[simp] theorem setPart_win (s : State) (p : Nat) (r : PartRec) : (setPart s p r).win = s.win := rfl
@[simp] theorem setPart_cap (s : State) (p : Nat) (r : PartRec) : (setPart s p r).cap = s.cap := rfl
@[simp] theorem setPart_aon (s : State) (p : Nat) (r : PartRec) : (setPart s p r).aon = s.aon := rfl
@[simp] theorem setPart_otp (s : State) (p : Nat) (r : PartRec) : (setPart s p r).otp = s.otp := rfl
@[simp] theorem setPart_hub (s : State) (p : Nat) (r : PartRec) : (setPart s p r).hub = s.hub := rfl
@[simp] theorem setPart_keys (s : State) (p : Nat) (r : PartRec) : (setPart s p r).keys = s.keys := rfl
@[simp] theorem setPart_ident (s : State) (p : Nat) (r : PartRec) : (setPart s p r).ident = s.ident := rfl
@[simp] theorem setPart_dom (s : State) (p : Nat) (r : PartRec) : (setPart s p r).dom = s.dom := rfl
@[simp] theorem setPart_links (s : State) (p : Nat) (r : PartRec) : (setPart s p r).links = s.links := rfl
@[simp] theorem setPart_fab (s : State) (p : Nat) (r : PartRec) : (setPart s p r).fab = s.fab := rfl
@[simp] theorem setPart_mem (s : State) (p : Nat) (r : PartRec) : (setPart s p r).mem = s.mem := rfl
@[simp] theorem setPart_red (s : State) (p : Nat) (r : PartRec) : (setPart s p r).red = s.red := rfl
@[simp] theorem setPart_upd (s : State) (p : Nat) (r : PartRec) : (setPart s p r).upd = s.upd := rfl
@[simp] theorem setPart_parts (s : State) (p : Nat) (r : PartRec) : (setPart s p r).parts = { s.parts with part := tset s.parts.part p r } := rfl
@[simp] theorem setPart_ladder (s : State) (p : Nat) (r : PartRec) : (setPart s p r).ladder = s.ladder := rfl
@[simp] theorem setPart_td (s : State) (p : Nat) (r : PartRec) : (setPart s p r).td = s.td := rfl
@[simp] theorem setPart_dbg (s : State) (p : Nat) (r : PartRec) : (setPart s p r).dbg = s.dbg := rfl

/-! `setCtx` changes `parts`. -/

@[simp] theorem setCtx_pending (s : State) (c : Nat) (x : Ctx) : (setCtx s c x).pending = s.pending := rfl
@[simp] theorem setCtx_out (s : State) (c : Nat) (x : Ctx) : (setCtx s c x).out = s.out := rfl
@[simp] theorem setCtx_fresh (s : State) (c : Nat) (x : Ctx) : (setCtx s c x).fresh = s.fresh := rfl
@[simp] theorem setCtx_draws (s : State) (c : Nat) (x : Ctx) : (setCtx s c x).draws = s.draws := rfl
@[simp] theorem setCtx_size (s : State) (c : Nat) (x : Ctx) : (setCtx s c x).size = s.size := rfl
@[simp] theorem setCtx_tandemEn (s : State) (c : Nat) (x : Ctx) : (setCtx s c x).tandemEn = s.tandemEn := rfl
@[simp] theorem setCtx_tandemId (s : State) (c : Nat) (x : Ctx) : (setCtx s c x).tandemId = s.tandemId := rfl
@[simp] theorem setCtx_win (s : State) (c : Nat) (x : Ctx) : (setCtx s c x).win = s.win := rfl
@[simp] theorem setCtx_cap (s : State) (c : Nat) (x : Ctx) : (setCtx s c x).cap = s.cap := rfl
@[simp] theorem setCtx_aon (s : State) (c : Nat) (x : Ctx) : (setCtx s c x).aon = s.aon := rfl
@[simp] theorem setCtx_otp (s : State) (c : Nat) (x : Ctx) : (setCtx s c x).otp = s.otp := rfl
@[simp] theorem setCtx_hub (s : State) (c : Nat) (x : Ctx) : (setCtx s c x).hub = s.hub := rfl
@[simp] theorem setCtx_keys (s : State) (c : Nat) (x : Ctx) : (setCtx s c x).keys = s.keys := rfl
@[simp] theorem setCtx_ident (s : State) (c : Nat) (x : Ctx) : (setCtx s c x).ident = s.ident := rfl
@[simp] theorem setCtx_dom (s : State) (c : Nat) (x : Ctx) : (setCtx s c x).dom = s.dom := rfl
@[simp] theorem setCtx_links (s : State) (c : Nat) (x : Ctx) : (setCtx s c x).links = s.links := rfl
@[simp] theorem setCtx_fab (s : State) (c : Nat) (x : Ctx) : (setCtx s c x).fab = s.fab := rfl
@[simp] theorem setCtx_mem (s : State) (c : Nat) (x : Ctx) : (setCtx s c x).mem = s.mem := rfl
@[simp] theorem setCtx_red (s : State) (c : Nat) (x : Ctx) : (setCtx s c x).red = s.red := rfl
@[simp] theorem setCtx_upd (s : State) (c : Nat) (x : Ctx) : (setCtx s c x).upd = s.upd := rfl
@[simp] theorem setCtx_parts (s : State) (c : Nat) (x : Ctx) : (setCtx s c x).parts = { s.parts with ctx := tset s.parts.ctx c x } := rfl
@[simp] theorem setCtx_ladder (s : State) (c : Nat) (x : Ctx) : (setCtx s c x).ladder = s.ladder := rfl
@[simp] theorem setCtx_td (s : State) (c : Nat) (x : Ctx) : (setCtx s c x).td = s.td := rfl
@[simp] theorem setCtx_dbg (s : State) (c : Nat) (x : Ctx) : (setCtx s c x).dbg = s.dbg := rfl

/-! `setDesc` changes `parts`. -/

@[simp] theorem setDesc_pending (s : State) (d : Nat) (x : Desc) : (setDesc s d x).pending = s.pending := rfl
@[simp] theorem setDesc_out (s : State) (d : Nat) (x : Desc) : (setDesc s d x).out = s.out := rfl
@[simp] theorem setDesc_fresh (s : State) (d : Nat) (x : Desc) : (setDesc s d x).fresh = s.fresh := rfl
@[simp] theorem setDesc_draws (s : State) (d : Nat) (x : Desc) : (setDesc s d x).draws = s.draws := rfl
@[simp] theorem setDesc_size (s : State) (d : Nat) (x : Desc) : (setDesc s d x).size = s.size := rfl
@[simp] theorem setDesc_tandemEn (s : State) (d : Nat) (x : Desc) : (setDesc s d x).tandemEn = s.tandemEn := rfl
@[simp] theorem setDesc_tandemId (s : State) (d : Nat) (x : Desc) : (setDesc s d x).tandemId = s.tandemId := rfl
@[simp] theorem setDesc_win (s : State) (d : Nat) (x : Desc) : (setDesc s d x).win = s.win := rfl
@[simp] theorem setDesc_cap (s : State) (d : Nat) (x : Desc) : (setDesc s d x).cap = s.cap := rfl
@[simp] theorem setDesc_aon (s : State) (d : Nat) (x : Desc) : (setDesc s d x).aon = s.aon := rfl
@[simp] theorem setDesc_otp (s : State) (d : Nat) (x : Desc) : (setDesc s d x).otp = s.otp := rfl
@[simp] theorem setDesc_hub (s : State) (d : Nat) (x : Desc) : (setDesc s d x).hub = s.hub := rfl
@[simp] theorem setDesc_keys (s : State) (d : Nat) (x : Desc) : (setDesc s d x).keys = s.keys := rfl
@[simp] theorem setDesc_ident (s : State) (d : Nat) (x : Desc) : (setDesc s d x).ident = s.ident := rfl
@[simp] theorem setDesc_dom (s : State) (d : Nat) (x : Desc) : (setDesc s d x).dom = s.dom := rfl
@[simp] theorem setDesc_links (s : State) (d : Nat) (x : Desc) : (setDesc s d x).links = s.links := rfl
@[simp] theorem setDesc_fab (s : State) (d : Nat) (x : Desc) : (setDesc s d x).fab = s.fab := rfl
@[simp] theorem setDesc_mem (s : State) (d : Nat) (x : Desc) : (setDesc s d x).mem = s.mem := rfl
@[simp] theorem setDesc_red (s : State) (d : Nat) (x : Desc) : (setDesc s d x).red = s.red := rfl
@[simp] theorem setDesc_upd (s : State) (d : Nat) (x : Desc) : (setDesc s d x).upd = s.upd := rfl
@[simp] theorem setDesc_parts (s : State) (d : Nat) (x : Desc) : (setDesc s d x).parts = { s.parts with desc := tset s.parts.desc d x } := rfl
@[simp] theorem setDesc_ladder (s : State) (d : Nat) (x : Desc) : (setDesc s d x).ladder = s.ladder := rfl
@[simp] theorem setDesc_td (s : State) (d : Nat) (x : Desc) : (setDesc s d x).td = s.td := rfl
@[simp] theorem setDesc_dbg (s : State) (d : Nat) (x : Desc) : (setDesc s d x).dbg = s.dbg := rfl

/-! `setCmd` changes `parts`. -/

@[simp] theorem setCmd_pending (s : State) (sl st : Nat) : (setCmd s sl st).pending = s.pending := rfl
@[simp] theorem setCmd_out (s : State) (sl st : Nat) : (setCmd s sl st).out = s.out := rfl
@[simp] theorem setCmd_fresh (s : State) (sl st : Nat) : (setCmd s sl st).fresh = s.fresh := rfl
@[simp] theorem setCmd_draws (s : State) (sl st : Nat) : (setCmd s sl st).draws = s.draws := rfl
@[simp] theorem setCmd_size (s : State) (sl st : Nat) : (setCmd s sl st).size = s.size := rfl
@[simp] theorem setCmd_tandemEn (s : State) (sl st : Nat) : (setCmd s sl st).tandemEn = s.tandemEn := rfl
@[simp] theorem setCmd_tandemId (s : State) (sl st : Nat) : (setCmd s sl st).tandemId = s.tandemId := rfl
@[simp] theorem setCmd_win (s : State) (sl st : Nat) : (setCmd s sl st).win = s.win := rfl
@[simp] theorem setCmd_cap (s : State) (sl st : Nat) : (setCmd s sl st).cap = s.cap := rfl
@[simp] theorem setCmd_aon (s : State) (sl st : Nat) : (setCmd s sl st).aon = s.aon := rfl
@[simp] theorem setCmd_otp (s : State) (sl st : Nat) : (setCmd s sl st).otp = s.otp := rfl
@[simp] theorem setCmd_hub (s : State) (sl st : Nat) : (setCmd s sl st).hub = s.hub := rfl
@[simp] theorem setCmd_keys (s : State) (sl st : Nat) : (setCmd s sl st).keys = s.keys := rfl
@[simp] theorem setCmd_ident (s : State) (sl st : Nat) : (setCmd s sl st).ident = s.ident := rfl
@[simp] theorem setCmd_dom (s : State) (sl st : Nat) : (setCmd s sl st).dom = s.dom := rfl
@[simp] theorem setCmd_links (s : State) (sl st : Nat) : (setCmd s sl st).links = s.links := rfl
@[simp] theorem setCmd_fab (s : State) (sl st : Nat) : (setCmd s sl st).fab = s.fab := rfl
@[simp] theorem setCmd_mem (s : State) (sl st : Nat) : (setCmd s sl st).mem = s.mem := rfl
@[simp] theorem setCmd_red (s : State) (sl st : Nat) : (setCmd s sl st).red = s.red := rfl
@[simp] theorem setCmd_upd (s : State) (sl st : Nat) : (setCmd s sl st).upd = s.upd := rfl
@[simp] theorem setCmd_parts (s : State) (sl st : Nat) : (setCmd s sl st).parts = { s.parts with cmdStatus := tset s.parts.cmdStatus sl st } := rfl
@[simp] theorem setCmd_ladder (s : State) (sl st : Nat) : (setCmd s sl st).ladder = s.ladder := rfl
@[simp] theorem setCmd_td (s : State) (sl st : Nat) : (setCmd s sl st).td = s.td := rfl
@[simp] theorem setCmd_dbg (s : State) (sl st : Nat) : (setCmd s sl st).dbg = s.dbg := rfl

/-! `askReset` changes `ladder`. -/

@[simp] theorem askReset_pending (s : State) (level unit port cause : Nat) (byLast : Bool) : (askReset s level unit port cause byLast).pending = s.pending := rfl
@[simp] theorem askReset_out (s : State) (level unit port cause : Nat) (byLast : Bool) : (askReset s level unit port cause byLast).out = s.out := rfl
@[simp] theorem askReset_fresh (s : State) (level unit port cause : Nat) (byLast : Bool) : (askReset s level unit port cause byLast).fresh = s.fresh := rfl
@[simp] theorem askReset_draws (s : State) (level unit port cause : Nat) (byLast : Bool) : (askReset s level unit port cause byLast).draws = s.draws := rfl
@[simp] theorem askReset_size (s : State) (level unit port cause : Nat) (byLast : Bool) : (askReset s level unit port cause byLast).size = s.size := rfl
@[simp] theorem askReset_tandemEn (s : State) (level unit port cause : Nat) (byLast : Bool) : (askReset s level unit port cause byLast).tandemEn = s.tandemEn := rfl
@[simp] theorem askReset_tandemId (s : State) (level unit port cause : Nat) (byLast : Bool) : (askReset s level unit port cause byLast).tandemId = s.tandemId := rfl
@[simp] theorem askReset_win (s : State) (level unit port cause : Nat) (byLast : Bool) : (askReset s level unit port cause byLast).win = s.win := rfl
@[simp] theorem askReset_cap (s : State) (level unit port cause : Nat) (byLast : Bool) : (askReset s level unit port cause byLast).cap = s.cap := rfl
@[simp] theorem askReset_aon (s : State) (level unit port cause : Nat) (byLast : Bool) : (askReset s level unit port cause byLast).aon = s.aon := rfl
@[simp] theorem askReset_otp (s : State) (level unit port cause : Nat) (byLast : Bool) : (askReset s level unit port cause byLast).otp = s.otp := rfl
@[simp] theorem askReset_hub (s : State) (level unit port cause : Nat) (byLast : Bool) : (askReset s level unit port cause byLast).hub = s.hub := rfl
@[simp] theorem askReset_keys (s : State) (level unit port cause : Nat) (byLast : Bool) : (askReset s level unit port cause byLast).keys = s.keys := rfl
@[simp] theorem askReset_ident (s : State) (level unit port cause : Nat) (byLast : Bool) : (askReset s level unit port cause byLast).ident = s.ident := rfl
@[simp] theorem askReset_dom (s : State) (level unit port cause : Nat) (byLast : Bool) : (askReset s level unit port cause byLast).dom = s.dom := rfl
@[simp] theorem askReset_links (s : State) (level unit port cause : Nat) (byLast : Bool) : (askReset s level unit port cause byLast).links = s.links := rfl
@[simp] theorem askReset_fab (s : State) (level unit port cause : Nat) (byLast : Bool) : (askReset s level unit port cause byLast).fab = s.fab := rfl
@[simp] theorem askReset_mem (s : State) (level unit port cause : Nat) (byLast : Bool) : (askReset s level unit port cause byLast).mem = s.mem := rfl
@[simp] theorem askReset_red (s : State) (level unit port cause : Nat) (byLast : Bool) : (askReset s level unit port cause byLast).red = s.red := rfl
@[simp] theorem askReset_upd (s : State) (level unit port cause : Nat) (byLast : Bool) : (askReset s level unit port cause byLast).upd = s.upd := rfl
@[simp] theorem askReset_parts (s : State) (level unit port cause : Nat) (byLast : Bool) : (askReset s level unit port cause byLast).parts = s.parts := rfl
@[simp] theorem askReset_ladder (s : State) (level unit port cause : Nat) (byLast : Bool) : (askReset s level unit port cause byLast).ladder = { s.ladder with queue := s.ladder.queue ++ [{ level := level, unit := unit, port := port, cause := cause, start := s.aon.ts, byLast := byLast, step := 0, done := false }] } := rfl
@[simp] theorem askReset_td (s : State) (level unit port cause : Nat) (byLast : Bool) : (askReset s level unit port cause byLast).td = s.td := rfl
@[simp] theorem askReset_dbg (s : State) (level unit port cause : Nat) (byLast : Bool) : (askReset s level unit port cause byLast).dbg = s.dbg := rfl

/-! `setReset` changes `ladder`. -/

@[simp] theorem setReset_pending (s : State) (new : List ResetReq) : (setReset s new).pending = s.pending := rfl
@[simp] theorem setReset_out (s : State) (new : List ResetReq) : (setReset s new).out = s.out := rfl
@[simp] theorem setReset_fresh (s : State) (new : List ResetReq) : (setReset s new).fresh = s.fresh := rfl
@[simp] theorem setReset_draws (s : State) (new : List ResetReq) : (setReset s new).draws = s.draws := rfl
@[simp] theorem setReset_size (s : State) (new : List ResetReq) : (setReset s new).size = s.size := rfl
@[simp] theorem setReset_tandemEn (s : State) (new : List ResetReq) : (setReset s new).tandemEn = s.tandemEn := rfl
@[simp] theorem setReset_tandemId (s : State) (new : List ResetReq) : (setReset s new).tandemId = s.tandemId := rfl
@[simp] theorem setReset_win (s : State) (new : List ResetReq) : (setReset s new).win = s.win := rfl
@[simp] theorem setReset_cap (s : State) (new : List ResetReq) : (setReset s new).cap = s.cap := rfl
@[simp] theorem setReset_aon (s : State) (new : List ResetReq) : (setReset s new).aon = s.aon := rfl
@[simp] theorem setReset_otp (s : State) (new : List ResetReq) : (setReset s new).otp = s.otp := rfl
@[simp] theorem setReset_hub (s : State) (new : List ResetReq) : (setReset s new).hub = s.hub := rfl
@[simp] theorem setReset_keys (s : State) (new : List ResetReq) : (setReset s new).keys = s.keys := rfl
@[simp] theorem setReset_ident (s : State) (new : List ResetReq) : (setReset s new).ident = s.ident := rfl
@[simp] theorem setReset_dom (s : State) (new : List ResetReq) : (setReset s new).dom = s.dom := rfl
@[simp] theorem setReset_links (s : State) (new : List ResetReq) : (setReset s new).links = s.links := rfl
@[simp] theorem setReset_fab (s : State) (new : List ResetReq) : (setReset s new).fab = s.fab := rfl
@[simp] theorem setReset_mem (s : State) (new : List ResetReq) : (setReset s new).mem = s.mem := rfl
@[simp] theorem setReset_red (s : State) (new : List ResetReq) : (setReset s new).red = s.red := rfl
@[simp] theorem setReset_upd (s : State) (new : List ResetReq) : (setReset s new).upd = s.upd := rfl
@[simp] theorem setReset_parts (s : State) (new : List ResetReq) : (setReset s new).parts = s.parts := rfl
@[simp] theorem setReset_ladder (s : State) (new : List ResetReq) : (setReset s new).ladder = { s.ladder with queue := putReset s.ladder.queue new } := rfl
@[simp] theorem setReset_td (s : State) (new : List ResetReq) : (setReset s new).td = s.td := rfl
@[simp] theorem setReset_dbg (s : State) (new : List ResetReq) : (setReset s new).dbg = s.dbg := rfl

/-! `noteReset` changes `ladder`. -/

@[simp] theorem noteReset_pending (s : State) (level unit port : Nat) : (noteReset s level unit port).pending = s.pending := rfl
@[simp] theorem noteReset_out (s : State) (level unit port : Nat) : (noteReset s level unit port).out = s.out := rfl
@[simp] theorem noteReset_fresh (s : State) (level unit port : Nat) : (noteReset s level unit port).fresh = s.fresh := rfl
@[simp] theorem noteReset_draws (s : State) (level unit port : Nat) : (noteReset s level unit port).draws = s.draws := rfl
@[simp] theorem noteReset_size (s : State) (level unit port : Nat) : (noteReset s level unit port).size = s.size := rfl
@[simp] theorem noteReset_tandemEn (s : State) (level unit port : Nat) : (noteReset s level unit port).tandemEn = s.tandemEn := rfl
@[simp] theorem noteReset_tandemId (s : State) (level unit port : Nat) : (noteReset s level unit port).tandemId = s.tandemId := rfl
@[simp] theorem noteReset_win (s : State) (level unit port : Nat) : (noteReset s level unit port).win = s.win := rfl
@[simp] theorem noteReset_cap (s : State) (level unit port : Nat) : (noteReset s level unit port).cap = s.cap := rfl
@[simp] theorem noteReset_aon (s : State) (level unit port : Nat) : (noteReset s level unit port).aon = s.aon := rfl
@[simp] theorem noteReset_otp (s : State) (level unit port : Nat) : (noteReset s level unit port).otp = s.otp := rfl
@[simp] theorem noteReset_hub (s : State) (level unit port : Nat) : (noteReset s level unit port).hub = s.hub := rfl
@[simp] theorem noteReset_keys (s : State) (level unit port : Nat) : (noteReset s level unit port).keys = s.keys := rfl
@[simp] theorem noteReset_ident (s : State) (level unit port : Nat) : (noteReset s level unit port).ident = s.ident := rfl
@[simp] theorem noteReset_dom (s : State) (level unit port : Nat) : (noteReset s level unit port).dom = s.dom := rfl
@[simp] theorem noteReset_links (s : State) (level unit port : Nat) : (noteReset s level unit port).links = s.links := rfl
@[simp] theorem noteReset_fab (s : State) (level unit port : Nat) : (noteReset s level unit port).fab = s.fab := rfl
@[simp] theorem noteReset_mem (s : State) (level unit port : Nat) : (noteReset s level unit port).mem = s.mem := rfl
@[simp] theorem noteReset_red (s : State) (level unit port : Nat) : (noteReset s level unit port).red = s.red := rfl
@[simp] theorem noteReset_upd (s : State) (level unit port : Nat) : (noteReset s level unit port).upd = s.upd := rfl
@[simp] theorem noteReset_parts (s : State) (level unit port : Nat) : (noteReset s level unit port).parts = s.parts := rfl
@[simp] theorem noteReset_ladder (s : State) (level unit port : Nat) : (noteReset s level unit port).ladder = { s.ladder with lastLevel := level, lastUnit := unit, lastPort := port, escalated := false } := rfl
@[simp] theorem noteReset_td (s : State) (level unit port : Nat) : (noteReset s level unit port).td = s.td := rfl
@[simp] theorem noteReset_dbg (s : State) (level unit port : Nat) : (noteReset s level unit port).dbg = s.dbg := rfl

/-! `toStage` changes `aon`. -/

@[simp] theorem toStage_pending (s : State) (n : Nat) : (toStage s n).pending = s.pending := rfl
@[simp] theorem toStage_out (s : State) (n : Nat) : (toStage s n).out = s.out := rfl
@[simp] theorem toStage_fresh (s : State) (n : Nat) : (toStage s n).fresh = s.fresh := rfl
@[simp] theorem toStage_draws (s : State) (n : Nat) : (toStage s n).draws = s.draws := rfl
@[simp] theorem toStage_size (s : State) (n : Nat) : (toStage s n).size = s.size := rfl
@[simp] theorem toStage_tandemEn (s : State) (n : Nat) : (toStage s n).tandemEn = s.tandemEn := rfl
@[simp] theorem toStage_tandemId (s : State) (n : Nat) : (toStage s n).tandemId = s.tandemId := rfl
@[simp] theorem toStage_win (s : State) (n : Nat) : (toStage s n).win = s.win := rfl
@[simp] theorem toStage_cap (s : State) (n : Nat) : (toStage s n).cap = s.cap := rfl
@[simp] theorem toStage_aon (s : State) (n : Nat) : (toStage s n).aon = { s.aon with stage := n } := rfl
@[simp] theorem toStage_otp (s : State) (n : Nat) : (toStage s n).otp = s.otp := rfl
@[simp] theorem toStage_hub (s : State) (n : Nat) : (toStage s n).hub = s.hub := rfl
@[simp] theorem toStage_keys (s : State) (n : Nat) : (toStage s n).keys = s.keys := rfl
@[simp] theorem toStage_ident (s : State) (n : Nat) : (toStage s n).ident = s.ident := rfl
@[simp] theorem toStage_dom (s : State) (n : Nat) : (toStage s n).dom = s.dom := rfl
@[simp] theorem toStage_links (s : State) (n : Nat) : (toStage s n).links = s.links := rfl
@[simp] theorem toStage_fab (s : State) (n : Nat) : (toStage s n).fab = s.fab := rfl
@[simp] theorem toStage_mem (s : State) (n : Nat) : (toStage s n).mem = s.mem := rfl
@[simp] theorem toStage_red (s : State) (n : Nat) : (toStage s n).red = s.red := rfl
@[simp] theorem toStage_upd (s : State) (n : Nat) : (toStage s n).upd = s.upd := rfl
@[simp] theorem toStage_parts (s : State) (n : Nat) : (toStage s n).parts = s.parts := rfl
@[simp] theorem toStage_ladder (s : State) (n : Nat) : (toStage s n).ladder = s.ladder := rfl
@[simp] theorem toStage_td (s : State) (n : Nat) : (toStage s n).td = s.td := rfl
@[simp] theorem toStage_dbg (s : State) (n : Nat) : (toStage s n).dbg = s.dbg := rfl

/-! `setPhase` changes `aon`. -/

@[simp] theorem setPhase_pending (s : State) (p : ClkPhase) : (setPhase s p).pending = s.pending := rfl
@[simp] theorem setPhase_out (s : State) (p : ClkPhase) : (setPhase s p).out = s.out := rfl
@[simp] theorem setPhase_fresh (s : State) (p : ClkPhase) : (setPhase s p).fresh = s.fresh := rfl
@[simp] theorem setPhase_draws (s : State) (p : ClkPhase) : (setPhase s p).draws = s.draws := rfl
@[simp] theorem setPhase_size (s : State) (p : ClkPhase) : (setPhase s p).size = s.size := rfl
@[simp] theorem setPhase_tandemEn (s : State) (p : ClkPhase) : (setPhase s p).tandemEn = s.tandemEn := rfl
@[simp] theorem setPhase_tandemId (s : State) (p : ClkPhase) : (setPhase s p).tandemId = s.tandemId := rfl
@[simp] theorem setPhase_win (s : State) (p : ClkPhase) : (setPhase s p).win = s.win := rfl
@[simp] theorem setPhase_cap (s : State) (p : ClkPhase) : (setPhase s p).cap = s.cap := rfl
@[simp] theorem setPhase_aon (s : State) (p : ClkPhase) : (setPhase s p).aon = { s.aon with clkPhase := p } := rfl
@[simp] theorem setPhase_otp (s : State) (p : ClkPhase) : (setPhase s p).otp = s.otp := rfl
@[simp] theorem setPhase_hub (s : State) (p : ClkPhase) : (setPhase s p).hub = s.hub := rfl
@[simp] theorem setPhase_keys (s : State) (p : ClkPhase) : (setPhase s p).keys = s.keys := rfl
@[simp] theorem setPhase_ident (s : State) (p : ClkPhase) : (setPhase s p).ident = s.ident := rfl
@[simp] theorem setPhase_dom (s : State) (p : ClkPhase) : (setPhase s p).dom = s.dom := rfl
@[simp] theorem setPhase_links (s : State) (p : ClkPhase) : (setPhase s p).links = s.links := rfl
@[simp] theorem setPhase_fab (s : State) (p : ClkPhase) : (setPhase s p).fab = s.fab := rfl
@[simp] theorem setPhase_mem (s : State) (p : ClkPhase) : (setPhase s p).mem = s.mem := rfl
@[simp] theorem setPhase_red (s : State) (p : ClkPhase) : (setPhase s p).red = s.red := rfl
@[simp] theorem setPhase_upd (s : State) (p : ClkPhase) : (setPhase s p).upd = s.upd := rfl
@[simp] theorem setPhase_parts (s : State) (p : ClkPhase) : (setPhase s p).parts = s.parts := rfl
@[simp] theorem setPhase_ladder (s : State) (p : ClkPhase) : (setPhase s p).ladder = s.ladder := rfl
@[simp] theorem setPhase_td (s : State) (p : ClkPhase) : (setPhase s p).td = s.td := rfl
@[simp] theorem setPhase_dbg (s : State) (p : ClkPhase) : (setPhase s p).dbg = s.dbg := rfl

/-! `dpSet` changes `dbg`. -/

@[simp] theorem dpSet_pending (s : State) (off : Nat) (w : Word) : (dpSet s off w).pending = s.pending := rfl
@[simp] theorem dpSet_out (s : State) (off : Nat) (w : Word) : (dpSet s off w).out = s.out := rfl
@[simp] theorem dpSet_fresh (s : State) (off : Nat) (w : Word) : (dpSet s off w).fresh = s.fresh := rfl
@[simp] theorem dpSet_draws (s : State) (off : Nat) (w : Word) : (dpSet s off w).draws = s.draws := rfl
@[simp] theorem dpSet_size (s : State) (off : Nat) (w : Word) : (dpSet s off w).size = s.size := rfl
@[simp] theorem dpSet_tandemEn (s : State) (off : Nat) (w : Word) : (dpSet s off w).tandemEn = s.tandemEn := rfl
@[simp] theorem dpSet_tandemId (s : State) (off : Nat) (w : Word) : (dpSet s off w).tandemId = s.tandemId := rfl
@[simp] theorem dpSet_win (s : State) (off : Nat) (w : Word) : (dpSet s off w).win = s.win := rfl
@[simp] theorem dpSet_cap (s : State) (off : Nat) (w : Word) : (dpSet s off w).cap = s.cap := rfl
@[simp] theorem dpSet_aon (s : State) (off : Nat) (w : Word) : (dpSet s off w).aon = s.aon := rfl
@[simp] theorem dpSet_otp (s : State) (off : Nat) (w : Word) : (dpSet s off w).otp = s.otp := rfl
@[simp] theorem dpSet_hub (s : State) (off : Nat) (w : Word) : (dpSet s off w).hub = s.hub := rfl
@[simp] theorem dpSet_keys (s : State) (off : Nat) (w : Word) : (dpSet s off w).keys = s.keys := rfl
@[simp] theorem dpSet_ident (s : State) (off : Nat) (w : Word) : (dpSet s off w).ident = s.ident := rfl
@[simp] theorem dpSet_dom (s : State) (off : Nat) (w : Word) : (dpSet s off w).dom = s.dom := rfl
@[simp] theorem dpSet_links (s : State) (off : Nat) (w : Word) : (dpSet s off w).links = s.links := rfl
@[simp] theorem dpSet_fab (s : State) (off : Nat) (w : Word) : (dpSet s off w).fab = s.fab := rfl
@[simp] theorem dpSet_mem (s : State) (off : Nat) (w : Word) : (dpSet s off w).mem = s.mem := rfl
@[simp] theorem dpSet_red (s : State) (off : Nat) (w : Word) : (dpSet s off w).red = s.red := rfl
@[simp] theorem dpSet_upd (s : State) (off : Nat) (w : Word) : (dpSet s off w).upd = s.upd := rfl
@[simp] theorem dpSet_parts (s : State) (off : Nat) (w : Word) : (dpSet s off w).parts = s.parts := rfl
@[simp] theorem dpSet_ladder (s : State) (off : Nat) (w : Word) : (dpSet s off w).ladder = s.ladder := rfl
@[simp] theorem dpSet_td (s : State) (off : Nat) (w : Word) : (dpSet s off w).td = s.td := rfl
@[simp] theorem dpSet_dbg (s : State) (off : Nat) (w : Word) : (dpSet s off w).dbg = { s.dbg with dp := tset s.dbg.dp off w } := rfl

end Sys2Proof.Machine
end

