-- ==== Sys2Proof/Laws/Tables.lean ====
section
/-! SUPPORT. Sparse tables: what a read finds after a write. -/

namespace Sys2Proof.Machine

@[simp] theorem length_leBytes (n v : Nat) : (leBytes n v).length = n := by
  induction n generalizing v with
  | zero => rfl
  | succ n ih => simp [leBytes, ih]

/-- Bytes give back the number they were made from. -/
theorem ofLe_leBytes (n v : Nat) (h : v < 256 ^ n) : ofLe (leBytes n v) = v := by
  induction n generalizing v with
  | zero =>
    rw [Nat.pow_zero] at h
    rw [leBytes, ofLe]
    omega
  | succ n ih =>
    rw [leBytes, ofLe, ih (v / 256) (by rw [Nat.pow_succ] at h; omega), BitVec.toNat_ofNat]
    omega

/-- A slice within the first part of an append, and the second part itself. -/
theorem slice_append_left {α : Type} (a b : List α) (i n : Nat) (h : i + n ≤ a.length) : slice (a ++ b) i n = slice a i n := by
  unfold slice
  rw [List.drop_append_of_le_length (by omega), List.take_append_of_le_length (by simp; omega)]

theorem slice_append_right {α : Type} (a b : List α) : slice (a ++ b) a.length b.length = b := by simp [slice]

@[simp] theorem tget_tset_same {α : Type} (t : Tbl α) (i : Nat) (v : α) : tget (tset t i v) i = some v := by
  induction t with
  | nil => simp [tset, tget]
  | cons p t ih =>
    obtain ⟨k, w⟩ := p
    simp only [tset]
    split
    · simp [tget]
    · split
      · simp [tget]
      · rename_i h
        simp [tget, h, ih]

theorem tget_tset_other {α : Type} (t : Tbl α) (i j : Nat) (v : α) (h : j ≠ i) : tget (tset t i v) j = tget t j := by
  induction t with
  | nil => simp [tset, tget, h]
  | cons p t ih =>
    obtain ⟨k, w⟩ := p
    simp only [tset]
    split
    · simp [tget, h]
    · split
      · rename_i hk
        subst hk
        simp [tget, h]
      · simp [tget, ih]

@[simp] theorem tgetD_tset_same {α : Type} (t : Tbl α) (i : Nat) (v d : α) : tgetD (tset t i v) i d = v := by simp [tgetD]

theorem tgetD_tset_other {α : Type} (t : Tbl α) (i j : Nat) (v d : α) (h : j ≠ i) : tgetD (tset t i v) j d = tgetD t j d := by
  simp [tgetD, tget_tset_other t i j v h]

/-- The register written reads as what was written. -/
@[simp] theorem reg_setReg_same (s : State) (o : Nat) (w : Word) : reg (setReg s o w) o = w := by simp [reg, setReg]

/-- Every other register reads as before. -/
theorem reg_setReg_other (s : State) (o p : Nat) (w : Word) (h : p ≠ o) : reg (setReg s o w) p = reg s p := by
  simp [reg, setReg, tgetD_tset_other _ _ _ _ _ h]

end Sys2Proof.Machine
end

