-- ==== Sys2Proof/Laws/Store.lean ====
section
/-! SUPPORT. A record of the store opens to what was sealed into it, and records sealed in order read back in order (02 R49). -/

namespace Sys2Proof.Machine

/-- Exclusive or with the same bytes twice changes nothing. -/
theorem xorBytes_twice (p k : Bytes) : xorBytes (xorBytes p k) k = p := by
  induction p generalizing k with
  | nil => cases k <;> rfl
  | cons a s ih => cases k with
    | nil => rfl
    | cons b t => simp [xorBytes, ih]

@[simp] theorem xorBytes_length (p k : Bytes) : (xorBytes p k).length = p.length := by
  induction p generalizing k with
  | nil => cases k <;> rfl
  | cons a s ih => cases k with
    | nil => rfl
    | cons b t => simp [xorBytes, ih]

@[simp] theorem sivCrypt_length (k : BitVec 256) (n t p : Bytes) : (sivCrypt k n t p).length = p.length := by simp [sivCrypt]

theorem sivCrypt_twice (k : BitVec 256) (n t p : Bytes) : sivCrypt k n t (sivCrypt k n t p) = p := by
  unfold sivCrypt
  rw [xorBytes_length]
  exact xorBytes_twice _ _

@[simp] theorem sivTag_length (k : BitVec 256) (n a p : Bytes) : (sivTag k n a p).length = 16 := by simp [sivTag, blockBytes]

theorem pad48_length (p : Bytes) : (padTo 48 (p.take 48)).length = 48 := by simp [padTo]

/-- What follows a first part of a known length. -/
theorem split_append {α : Type} (a b : List α) (n : Nat) (h : a.length = n) : (a ++ b).take n = a ∧ (a ++ b).drop n = b := by
  subst h
  simp

/-- A sealed record opens to its payload. -/
theorem storeOpen_seal (k : BitVec 256) (i : Nat) (p : Bytes) : storeOpen k i (storeSeal k i p) = some (padTo 48 (p.take 48)) := by
  have h := pad48_length p
  unfold storeOpen storeSeal
  generalize padTo 48 (p.take 48) = q at h ⊢
  have ht := sivTag_length k (storeNonce i) (leBytes 4 i) q
  generalize hg : sivTag k (storeNonce i) (leBytes 4 i) q = t at ht ⊢
  have hc : (sivCrypt k (storeNonce i) t q).length = 48 := by rw [sivCrypt_length, h]
  obtain ⟨e1, e2⟩ := split_append (sivCrypt k (storeNonce i) t q) t 48 hc
  simp only [e1, e2, sivCrypt_twice, hg]
  rw [if_pos ⟨by rw [List.length_append, hc, ht], trivial⟩]

/-- Records that open one by one open in a row. -/
theorem openRecs_all (k : BitVec 256) (f : Flash) (base n : Nat) (p : Nat → Bytes)
    (h : ∀ i, i < n → openRec k f (base + i) = some (p i)) : openRecs k f base n = some ((List.range n).flatMap p) := by
  induction n with
  | zero => rfl
  | succ n ih =>
    have ih := ih (fun i hi => h i (by omega))
    unfold openRecs at ih ⊢
    rw [List.range_succ, List.foldl_append, ih]
    simp [h n (by omega)]

/-- Records that hold `n` payloads in order from `base` on. -/
def sealedRecs (k : BitVec 256) (base n : Nat) (p : Nat → Bytes) : Flash :=
  (List.range n).map (fun i => (base + i, storeSeal k (base + i) (p i)))

theorem tget_sealedRecs (k : BitVec 256) (base n : Nat) (p : Nat → Bytes) (i : Nat) (h : i < n) :
    tget (sealedRecs k base n p) (base + i) = some (storeSeal k (base + i) (p i)) := by
  have go : ∀ (l : List Nat), i ∈ l → tget (l.map (fun j => (base + j, storeSeal k (base + j) (p j)))) (base + i) =
      some (storeSeal k (base + i) (p i)) := by
    intro l
    induction l with
    | nil => simp
    | cons a l ih =>
      intro hm
      by_cases ha : a = i
      · simp [tget, ha]
      · have : i ∈ l := by simpa [Ne.symm ha] using hm
        simp [tget, Ne.symm ha, ih this]
  exact go _ (List.mem_range.mpr h)

/-- Records sealed in order read back in order. -/
theorem openRecs_sealed (k : BitVec 256) (base n m : Nat) (p : Nat → Bytes) (h : m ≤ n) :
    openRecs k (sealedRecs k base n p) base m = some ((List.range m).flatMap (fun i => padTo 48 ((p i).take 48))) :=
  openRecs_all _ _ _ _ _ fun i hi => by simp [openRec, tget_sealedRecs k base n p i (by omega), storeOpen_seal]

end Sys2Proof.Machine
end

