-- ==== Sys2Proof/Tests/Slice0.lean ====
section
/-! SUPPORT. The model's own tests: an ill-formed term for each check of WellFormed, and for each statement with hypotheses states and
operands that meet them. -/

open Sys2Proof Sys2Proof.Machine

namespace Sys2Proof.Tests

/-! Small states. -/

/-- A block in service. -/
def up : State :=
  { State.reset with
    aon := { Aon.reset with porN := true, stage := 6, ready := true }
    otp := { Otp.reset with lc := .prod } }

/-- The fabric manager's driver. -/
def drv : Requester := { priv := true, pasid := 0 }

/-- What boot finds when nothing is wrong. -/
def env : BootEnv := { flash := [], failAt := none }

/-- What the firmware start finds where the store is empty. -/
def start_ : StartEnv := { refused := 0, failAt := none, flash := [], rootDigest := List.replicate 48 0, keysMatch := true }

/-- A packet. -/
def pkt (op : Op) (params : List Word) : Packet := { op := op, tag := 7, params := params, more := false, blob := [] }

/-- A source whose packet is admitted. -/
def withPkt (s : State) (src : Nat) (k : Packet) : State := setMb s src { Mbox.empty with busy := true, packet := some k }

/-- The packet of a source is taken up. -/
def take (s : State) (src : Nat) (k : Packet) : Bool := takes (withPkt s src k) src k.op k

/-- At a boot stage. -/
def atStage (n : Nat) : State := { up with aon := { up.aon with stage := n, ready := false } }

/-- A clock-stop phase. -/
def atClk (p : ClkPhase) : State := { up with aon := { up.aon with clkPhase := p, clkReq := true } }

/-- Lane 0 of port 0 as given. -/
def withLane (l : Lane) : State := setLane up 0 l

/-- A lane in service with one flit in its replay buffer. -/
def lane1 : Lane :=
  { Lane.down with
    up := true
    started := true
    inService := true
    replay := [{ fseq := 5, data := [], tags := [], at_ := 0, replays := 0 }] }

/-- A policy of domain 9 whose bitmap has vertices 3 to 7, with vertex 3 in its lead set. -/
def pol : Policy :=
  { domainId := 9, serial := 1, flags := 3, leadSet := [3], minIp := 0, minSvn := 0, fw := [], roots := [], opKey := [], manager := 4
    bitmap := [0xF8#8], digest := [] }

/-- A link to a vertex. -/
def lnk (v : Nat) : Link := { peer := v, id := 1, tk := 0, sends := 0 }

/-- A member at vertex 3, generation 1, under vertex 5. -/
def memb : State :=
  { up with dom := { Domain.reset with policy := some pol, vertex := some 3, member := true, role := 1, gen := 1, parent := some (lnk 5) } }

/-- A committed child. -/
def child (v : Nat) : Child :=
  { link := lnk v, committed := true, below := 0, via := [], dist := none, switched := none, drained := none }

/-- A Lead at vertex 3. -/
def lead : State := { memb with dom := { memb.dom with role := 2, parent := none, enrolled := [3] } }

/-- A partition with one PASID, one slot, one way, a grant of key IDs and windows. -/
def prt : PartRec :=
  { PartRec.none with
    live := true
    gen := 1
    kidBase := 16
    kidCount := 4
    slots := [0]
    ways := [0]
    replay := 8
    retx := 8
    scLimit := 8
    pasids := [5]
    fwinPages := 16
    owinPages := 4
    budgets := [0, 100, 100, 100, 100, 100, 100, 0] }

/-- The state with partition 0 as given. -/
def withPart (s : State) (r : PartRec) : State := { s with parts := { s.parts with part := [(0, r)] } }

/-- Context 0 of partition 0, resident in slot 0, with queue 0 enabled. -/
def cx : Ctx :=
  { part := 0, pasid := 5, slot := some 0, faulted := false, fStatus := 0, fQueue := 0, fIndex := 0, own := []
    queues := [(0, { Queue.off with enabled := true, tail := 1 })], stopped := false, tearing := false }

/-- The state with context 0 as given. -/
def withCtx (s : State) (x : Ctx) : State := { s with parts := { s.parts with ctx := [(0, x)] } }

/-- A descriptor of context 0. -/
def dsc (op : Nat) (raw : Bytes) (ph : DescPhase) : Desc :=
  { ctx := 0, queue := 0, index := 0, opcode := op, user := 0, irq := false, ordered := false, shared := false, raw := raw, phase := ph
    status := 0, result := 0, checked := false, mark := none, quiet := false, recAddr := 0, pasid := 5 }

/-- The state with descriptor 1 as given. -/
def withDesc (s : State) (x : Desc) : State := { s with parts := { s.parts with desc := [(1, x)] } }

/-- A member with partition 0 and its context. -/
def work : State := withCtx (withPart memb prt) cx

/-- A header of zeros. -/
def hdr : Hdr :=
  { dst := 3, src := 4, tc := 0, cclass := 0, smode := 0, dgen := true, boot := false, mbxs := false, stream := 0, seqLo := 0, rtag := 0
    kid := 0, plen := 0, op := 0, cgen := 0, addr := 0, aop := 0, nlines := 0, operand := 0, epoch := 0 }

/-- A released frame. -/
def inf (h : Hdr) (p : Bytes) : InFrame := { hdr := h, payload := p, port := 0, seqN := 0, comb := none }

/-- The state with one frame in the inbox. -/
def withIn (s : State) (f : InFrame) : State := { s with fab := { s.fab with inbox := [f] } }

/-- A tag table entry. -/
def tagE (op dst : Nat) : TagEnt :=
  { state := 1, gen := 0, dst := dst, stream := 0, par := true, tc := 1, op := op, kind := 1, nfl := 1, ctx := 0, fepoch := 0, cover := false
    sends := 0, deadline := 0, origin := .own, content := [], seq := 0, recs := 0, move := false, port := 0, lane := 0, ord := 0, kid := 0
    addr := 0, nlines := 0, epoch := 0, beats := 0, owner := 1, retx := 1, rpos := 0 }

/-- The state with tag 0 as given. -/
def withTag (s : State) (e : TagEnt) : State := { s with fab := { s.fab with tags := [(0, e)] } }

/-- The state with a home operation of number 0. -/
def hop (kind phase : Nat) : HomeOp :=
  { who := .part 0, part := 0, base := 0, pages := 16, pasid := 5, kind := kind, aop := 0, addr := 0, len := 128, data := [], mask := [], operand := [], arrival := none
    phase := phase, old := [], ctx := 0, fepoch := 0, cover := false, ord := 0, tc := 0, wait := 0
    status := 0 }

/-- The state with access 0 of package memory outstanding. -/
def withPm (s : State) (u : PmUse) : State :=
  { s with fab := { s.fab with pm := [(0, { use := u, write := false, addr := 0, len := 128, pasid := some 5 })] } }

/-- A MULTICAST region of key ID 16, with authority. -/
def rgn : Region :=
  { kind := 2, part := 0, authority := true, home := 3, base := 0, size := 4096, meta_ := 0, moduleId := 0, levels := 1, handleGen := 0
    gen0 := 0, keyGen := 0, epoch := 1, readOnly := false, treeRo := false, sweep := none, root := 0, lost := false, invalid := false
    keys := [(0, (20, 0))], wFail := 0, serial := 0 }

/-- The state with region 16 as given, its key in slot 20 and the domain's memory key in slot 5. -/
def withRegion (s : State) (r : Region) : State :=
  { s with
    mem := { s.mem with region := [(16, r)] }
    keys := { s.keys with slots := [(5, { Slot.zero with state := 1, typ := 5 }), (20, { Slot.zero with state := 1, typ := 6, ownerKid := 16 })] } }

/-- A finished hybrid session of mailbox 0. -/
def ses : Session :=
  { conn := .mbox 0, requester := false, mutualAuth := true, finish := true, used := false, updates := 0, th2 := [], ems := [], kem := false, transcript := [], kpq := []
    hybrid := true, thHyb := [], tk := 0, leaf := [], rooted := true }

/-- The state with session 0 as given. -/
def withSes (s : State) (x : Session) : State := { s with ident := { s.ident with sessions := [(0, x)] } }

/-- An SPDM packet is at hand at mailbox 0: secured where the bit is set. -/
def spdmIn (s : State) (secured : Bool) (src : Nat) : State :=
  withPkt s src (pkt .spdm [if secured then 1#32 else 0#32, 0#32])

/-- An armed stage on port 0 with one input. -/
def stg : Stage :=
  { ctx := 0, part := 0, elements := 1, op := 0, inFmt := 0, localFmt := 0, outFmt := 0, port := 0, inSub := 1, outSub := 2, forward := true
    memory := false, update := false, sat := false, localEn := false, inputs := [{ vertex := 4, binds := [], frames := [] }], xfer := 7
    nfMax := 0, outV := 6, localAddr := 0, outAddr := 0, seed := 0, locals_ := [], localNext := 0, localOut := [], order := [], next := 0
    started := true, ready := false, baseSeq := 0, firstFrame := 0, frame := 0, busyWait := false, outBuf := [], memOut := 0, framesOut := 0 }

/-- The state with stage 1 as given. -/
def withStage (s : State) (g : Stage) : State := { s with red := { s.red with stages := [(1, g)] } }

/-- An update of descriptor 1. -/
def upd : Upd :=
  { ctx := 0, part := 0, group := 0, step := 1, phase := 0, pgd := [], found := 0, c1 := 0, c2 := 0, lrScale := 0, gradScale := 0, fuse := 0
    normAddr := 0, running := true, bound := false, pass := 0, r := 0, sumW := 0, sumU := 0, tiles := [], issued := 0, doneT := 0, wOut := 0
    wrote := false, normOk := true, failed := none, tail := [] }

/-- The state with update 1 as given. -/
def withUpd (s : State) (u : Upd) : State := { s with upd := { s.upd with runs := [(1, u)] } }

/-- A pair of blocks in mirror mode. -/
def pair_ (own : Bool) : State := { up with tandemEn := true, td := { Tandem.reset with owner := own, synced := true, alive := true } }

/-- A reset of the ladder. -/
def rst (level unit port : Nat) : ResetReq :=
  { level := level, unit := unit, port := port, cause := 4, start := 0, byLast := false, step := 0, done := false }

/-- The state with one reset in the ladder. -/
def withRst (s : State) (q : ResetReq) : State := { s with ladder := { s.ladder with queue := [q] } }

/-- A descriptor's 64 bytes: its opcode and fields of (offset, bytes, value). -/
def raw (op : Nat) (fs : List (Nat × Nat × Nat)) : Bytes :=
  ((0, 1, op) :: fs).foldl (fun b f => b.take f.1 ++ leBytes f.2.1 f.2.2 ++ b.drop (f.1 + f.2.1)) (List.replicate 64 0#8)

/-- A ready member with a descriptor in its queue 0. -/
def fetched (op : Nat) (fs : List (Nat × Nat × Nat)) : State := withDesc work (dsc op (raw op fs) .fetched)

/-- Descriptor 1 of `fetched` starts. -/
def go (op : Nat) (fs : List (Nat × Nat × Nat)) : Bool := starts (fetched op fs) 1 (dsc op (raw op fs) .fetched) op

/-- The state with a PGD of partition 0. -/
def withPgd (s : State) (b : Bytes) : State := { s with upd := { s.upd with pgd := [(0, b)] } }

/-- A PGD of one parameter in region 16. -/
def pgd1 (rule src step : Nat) : Bytes := raw rule [(1, 1, src), (4, 4, 1), (44, 2, 16), (48, 8, step)] ++ List.replicate 64 0

/-- A ready member with one parameter group and an update of it in its queue. -/
def updW (b : Bytes) (fs : List (Nat × Nat × Nat)) : State :=
  { withDesc (withPgd (withRegion work { rgn with kind := 1, size := 2 ^ 40 }) b) (dsc 3 (raw 3 fs) .fetched) with win := [(0x31008, 1#32)] }

/-- FinishCalm. -/
theorem test_witness_finish_calm :
    calm up = true ∧ single up = true :=
  by decide

/-- Resets: both levels of tvd_rst_n at the rise of tvd_por_n, and no transition pending. -/
theorem test_witness_resets :
    State.reset.otp.busy = none ∧
    State.reset.aon.porN = false ∧
    State.reset.aon.rstN = true ∧
    (lcScan State.reset).2 = none ∧
    up.aon.porN = true ∧
    { State.reset with aon := { Aon.reset with rstN := false } }.aon.rstN = false ∧
    { up with aon := { up.aon with rstN := false } }.aon.rstN = false ∧
    (lcScan up).2 = none :=
  by decide

/-- Boot: no pointer that opens, an image that is not read, a state without factory form, and a start with and without a root. -/
theorem test_witness_boot :
    engUp (atStage 4) = true ∧ fwRuns (atStage 4).otp.lc = true ∧ (atStage 4).aon.stage = 4 ∧
    factoryOk LcState.prod = false ∧ factoryOk LcState.manuf = true ∧ fwRuns LcState.scrap = false ∧
    engUp (atStage 5) = true ∧ (atStage 5).aon.stage = 5 ∧
    (selectRoot (quiet (atStage 5)) start_).2 = false ∧
    (selectRoot (quiet { atStage 5 with otp := { up.otp with lc := .testUnlocked } }) start_).2 = true :=
  by decide

/-- Clocks. -/
theorem test_witness_clocks :
    up.aon.porN = true ∧ up.aon.clkReq = false ∧ up.aon.clkPhase = .idle ∧ up.aon.haltReq = false ∧
    (atClk .quiesce).aon.clkPhase = .quiesce ∧ (atClk .quiesce).fab.pm = [] ∧ (atClk .quiesce).fab.inbox = [] ∧
      (atClk .quiesce).aon.haltReq = false ∧ (atClk .quiesce).aon.alarms.length < 256 ∧
    (withIn (atClk .quiesce) (inf hdr [])).fab.inbox ≠ [] ∧
    (atClk .acked).aon.clkPhase = .acked ∧ (atClk .failed).aon.clkPhase ≠ .acked ∧
    portOk up 7 = true ∧ portIsolated up 7 = false ∧
    portIsolated { up with ladder := { up.ladder with isolated := [7] } } 7 = true ∧
    (pair_ true).tandemEn = true ∧ (pair_ true).td.held = [] ∧ (pair_ true).aon.clkPhase ≠ .acked ∧
    up.aon.clkBad.contains .mir = false ∧
    { up with aon := { up.aon with clkBad := [.mir] } }.aon.clkBad.contains .mir = true :=
  by decide

/-- FreezeAndScan: with and without the authorization, and below the halt window. -/
theorem test_witness_freeze_and_scan :
    up.aon.porN = true ∧ up.aon.testRoot = false ∧ up.otp.lc = .prod ∧
    ({ up with otp := { up.otp with lc := .analysis } }).otp.lc ≠ .manuf ∧ ({ up with otp := { up.otp with lc := .analysis } }).otp.lc ≠ .prod ∧
    wbit (dpWord { up with dbg := { up.dbg with dp := [(8, 1)] } } 8) 0 = true ∧ wbit (dpWord up 8) 0 = false ∧
    up.aon.alarms.length < 256 ∧ (secWindow up).length < (reg up 0x5004).toNat % 256 :=
  by decide

/-- Lanes: a lane not started, started, fenced for each cause named, in service, and flits of each kind. -/
theorem test_witness_lanes :
    engUp up = true ∧ laneOk up 7 7 = true ∧
    (laneAt up 63).started = false ∧
    (laneAt (withLane lane1) 0).started = true ∧ (laneAt (withLane lane1) 0).cause = 0 ∧
    (laneAt (withLane { Lane.down with cause := 1 }) 0).cause = 1 ∧ heldIsolated (withLane { Lane.down with cause := 1 }) 0 = false ∧
    (let s := withLane { Lane.down with up := true };
      s.aon.ready && drivesLanes s && clkRuns s && (laneAt s 0).up && laneAllow s 0 && (laneAt s 0).cause == 0 && !(laneAt s 0).started &&
        !portIsolated s 0 && !isolating s 0) = true ∧
    heldIsolated { withLane { Lane.down with cause := 1 } with ladder := { up.ladder with isolated := [0] } } 0 = true ∧
    laneAllow { up with win := [(lpOff 0 0, 0#32)] } 0 = false ∧ laneAllow up 0 = true ∧
    (laneAt (withLane { lane1 with inService := false }) 0).inService = false ∧
    repIdx lane1 5 = some 0 ∧
    repIdx lane1 4095 = none ∧
    2048 ≤ (5 + 4096 - { lane1 with e := 10 }.e) % 4096 ∧
    (0 + 4096 - lane1.e) % 4096 = 0 ∧
    { lane1 with busyWait := some 5 }.busyWait = some 5 ∧
    0 < { lane1 with unacked := 126 }.unacked ∧ { lane1 with unacked := 126 }.unacked < 127 ∧
    lane1.replay ≠ [] ∧
    lane1.discard = false ∧ lane1.num = none ∧ lane1.staging.length < 20 ∧ flitClass [] = .failed :=
  by and_intros <;> decide +kernel

/-- Lanes: a flit that is sent as data is taken for data (06 R179, R180). -/
theorem test_witness_data_flit (b : Bytes) : flitClass (dataFlit b) = .data := by
  have hp : (padTo 252 (b.take 252)).length = 252 := by simp [padTo]
  unfold dataFlit
  generalize padTo 252 (b.take 252) = c at hp
  have hl : (crcRaw c ^^^ 0xFFFFFFFF#32).toNat < 256 ^ 4 := (crcRaw c ^^^ 0xFFFFFFFF#32).isLt
  have h4 : (leBytes 4 (crcRaw c ^^^ 0xFFFFFFFF#32).toNat).length = 4 := length_leBytes ..
  have a : (c ++ leBytes 4 (crcRaw c ^^^ 0xFFFFFFFF#32).toNat).take 252 = c := by rw [← hp, List.take_left]
  have e : leAt (c ++ leBytes 4 (crcRaw c ^^^ 0xFFFFFFFF#32).toNat) 252 4 = (crcRaw c ^^^ 0xFFFFFFFF#32).toNat := by
    have s := slice_append_right c (leBytes 4 (crcRaw c ^^^ 0xFFFFFFFF#32).toNat)
    rw [hp, h4] at s
    rw [leAt, s, ofLe_leBytes _ _ hl]
  rw [flitClass, List.length_append, hp, h4, a, e]
  simp [toW]

/-- IdleStep. -/
theorem test_witness_idle :
    up.pending = [] ∧ up.aon.porN = true ∧
    State.reset.pending = [] ∧ State.reset.aon.porN = false :=
  by decide

/-- LatchesHold: a command that is no fall of tvd_por_n. -/
theorem test_witness_latches_hold :
    (∀ a b env, Instr.clkStopAck ≠ .coldReset false a b env) :=
  fun _ _ _ h => nomatch h

/-- HaltedHoldsNothing: reset and a halted block. -/
theorem test_witness_halted :
    zeroed State.reset ∧
    zeroed { State.reset with aon := { Aon.reset with haltReq := true } } :=
  ⟨(fun h => nomatch h), (fun _ => by decide)⟩

/-- PorHoldsAll. -/
theorem test_witness_por_holds :
    State.reset.aon.porN = false ∧ pinCommand (.almPop drv) = false ∧
    (∀ r a b env, Instr.almPop drv ≠ .coldReset r a b env) ∧ laneOk State.reset 0 0 = true :=
  ⟨by decide, by decide, (fun _ _ _ _ h => nomatch h), by decide⟩

/-- Reception: numbers at both ends of the window, and a GAP. -/
theorem test_witness_reception :
    rangesOk [(1, 2), (5, 5)] = true ∧
    windowPut { low := 0, ranges := [(1, 2), (5, 5)], resident := true } 1023 false = .ok { low := 0, ranges := [(1, 2), (5, 5), (1023, 1)], resident := true } ∧
    windowPut { low := 0, ranges := [(1, 2), (5, 5)], resident := true } 0 false = .ok { low := 3, ranges := [(2, 5)], resident := true } ∧
    windowPut { low := 0, ranges := [], resident := true } 2047 true = .ok { low := 2048, ranges := [], resident := true } :=
  ⟨by decide, rfl, rfl, rfl⟩

/-- FrameArrives: a staged frame of each kind. -/
theorem test_witness_frame_arrives :
    stagedOf (withLane { lane1 with staging := [(({ hdr with op := 3, plen := 8 }).bytes ++ List.replicate 220 0#8)] }) 0 .plain = some (({ hdr with op := 3, plen := 8 }).bytes ++
      List.replicate 220 0#8) ∧
    hdrOk ({ hdr with op := 3, plen := 8 }).bytes = true ∧
    hdrOk ({ hdr with op := 0xF }).bytes = false ∧
    hdrOk ({ hdr with op := 0xC }).bytes = true ∧
    stagedOf (withLane { lane1 with staging := [(({ hdr with op := 0xC }).bytes ++ List.replicate 220 0#8)] }) 0 .gap = some (({ hdr with op := 0xC }).bytes ++
      List.replicate 220 0#8) ∧
    stagedOf (withLane { lane1 with staging := [(({ hdr with op := 3, boot := true, dgen := false, plen := 8 }).bytes ++ List.replicate 220 0#8)] }) 0 .boot = some (({ hdr with op := 3, boot := true, dgen := false, plen := 8 }).bytes ++
      List.replicate 220 0#8) ∧
    hdrOk ({ hdr with op := 3, boot := true, dgen := false, plen := 8 }).bytes = true ∧
    bootAdmitted memb 4 true = true ∧
    stagedFrame (withLane { lane1 with staging := [(({ hdr with op := 7 }).bytes ++ List.replicate 220 0#8)] }) 0 = some (({ hdr with op := 7 }).bytes ++
      List.replicate 220 0#8) ∧
    rxKind ({ hdr with op := 7 }).bytes = .combined ∧
    hdrOk ({ hdr with op := 7 }).bytes = false ∧
    hdrOk ({ hdr with op := 0xB, tc := 4, smode := 2, dgen := false, rtag := 0, plen := 16 }).bytes = true ∧
    (moduleTag (withTag memb (tagE 9 4)) { hdr with op := 0xB, smode := 2, dgen := false, plen := 16 }).isSome = true ∧
    (rxMisses { memb with keys := { memb.keys with slots := [(3, { Slot.zero with state := 1, typ := 4 })] } } { hdr with op := 3 }).2 = true ∧
    (rxMisses up { hdr with op := 3 }).2 = false ∧
    fwActs { memb with hub := { memb.hub with selfTest := true } } = false ∧
    (let g := { stg with inputs := [{ vertex := 4, binds := [{ par := true, baseSeq := 0, first := 0 }], frames := (List.range 8).map (·, []) }] };
      let h := { hdr with op := 4, stream := streamNo 1 0 1, plen := 4 };
      let c := h.bytes ++ List.replicate 220 0#8;
      inputHolds (withStage memb g) h = true ∧ hdrOk h.bytes = true ∧ h.smode ≠ 2 ∧
      stagedOf (setLane (withStage memb g) 0 { lane1 with staging := [c] }) 0 .plain = some c) :=
  by and_intros <;> decide +kernel

/-- MissesFilled. -/
theorem test_witness_misses_filled :
    ({ memb with links := { memb.links with missC := [9] } }).links.missC.contains 9 = true ∧ tget memb.links.chord 9 = none ∧
      memb.links.chord.length < chordCap ∧
    (chordSlot { memb with keys := { memb.keys with slots := [(3, { Slot.zero with state := 1, typ := 4 })] } } true).isSome = true ∧
    ({ memb with links := { memb.links with missS := [9] } }).links.missS.contains 9 = true ∧
    (let c : Ingress := { low := 0, ranges := [], resident := false };
      let s := { memb with links := { memb.links with missS := [9], ingress := [(4, c)] } };
      s.links.missS.contains 9 = true ∧ 9 % 2 = 1 ∧ tget s.links.ingress (9 / 2) = some c) ∧
    (let c : Egress := { next := 0, limit := 0, outstanding := 0, resident := false, closing := false, gap := none, jump := false };
      let s := { memb with links := { memb.links with missS := [8], egress := [(4, c)] } };
      s.links.missS.contains 8 = true ∧ 8 % 2 = 0 ∧ tget s.links.egress (8 / 2) = some c) :=
  by decide

/-- TargetRequests. -/
theorem test_witness_target_requests :
    (let s := work; dataUp s && decide (15 < csCount s.size) && drivesLanes s && !parkFull s 15 && decide (s.fab.tags.length < tagTotal s.size)) = true ∧
    ((match csCheck work 0 { tid := 0, op := 0, aop := 0, addr := 0, beats := 1, be := List.replicate 128 true, data := List.replicate 128 0, kid := 1, pasid := 5, steady := true } with | .inl st => st == stNotPermitted | _ => false) = true) ∧
    ((match csCheck work 0 { tid := 0, op := 0, aop := 0, addr := 0, beats := 1, be := List.replicate 128 true, data := List.replicate 128 0, kid := 15, pasid := 5, steady := true } with | .inl st => st == stNotPermitted | _ => false) = true) ∧
    ((match csCheck work 0 { tid := 0, op := 0, aop := 0, addr := 2 ^ 50, beats := 1, be := List.replicate 128 true, data := List.replicate 128 0, kid := 0, pasid := 5, steady := true } with | .inr (_, _, .frames d) => d == 4 | _ => false) = true) ∧
    (let x : Parked := { tid := 0, frames := [] }; let s := { work with fab := { work.fab with parks := [(parkKey 0 0, [x])] } };
      s.fab.parks.filter (fun p => p.1 % 16 == 0) = [(parkKey 0 0, [x])] ∧ tget s.fab.parks (parkKey 0 0) = some [x] ∧
      shareRoom s 1 0 0 = true) ∧
    (let r : CsReq := { op := 0, aop := 0, beats := 2, segs := [{ status := some 0, data := List.replicate 256 0, poison := 0 }], segBeats := [2], be := [] };
      tget ({ work with fab := { work.fab with reqs := [(csKey 0 0, r)] } }).fab.reqs (csKey 0 0) = some r ∧
      (∀ x ∈ r.segs, x.status.isSome = true) ∧ (r.segs.filterMap (·.status)).find? (· != stOk) = none ∧
      128 * r.beats ≤ (r.segs.flatMap (·.data)).length) ∧
    ([some 0x12, some 0].filterMap id).find? (· != stOk) = some 0x12 :=
  by and_intros <;> decide +kernel

/-- FramesSent. -/
theorem test_witness_frames_sent :
    (let f := { TxFrame.blank with dst := 5, tc := 0, op := 3, owner := 0, smode := 2 };
      let s := { withLane { lane1 with replay := [] } with fab := { memb.fab with txq := [f] }, dom := memb.dom }; engUp s = true ∧
      drivesLanes s = true ∧ clkRuns s = true ∧ s.fab.txq = [f] ∧ s.fab.tags = [] ∧ s.fab.combOut = [] ∧ txReady (quiet s) f = .go ∧ isStored f = true ∧ f.comb = none ∧
      lowestFrom (fun i => (tget s.fab.tags i).isNone) (tagTotal s.size) 0 = some 0) ∧
    (let s := withTag memb (tagE 0 4); tget s.fab.tags 0 = some (tagE 0 4) ∧ (tagE 0 4).recs = 0 ∧ (tagE 0 4).retx ≠ 0 ∧
      (tagE 0 4).recs ≠ 2 ∧ (tagE 0 4).state = 1 ∧ (tagE 0 4).sends < fld (reg s 0x1A010) 3 0) ∧
    fld (reg memb 0x1A010) 3 0 ≤ { tagE 0 4 with sends := 8 }.sends ∧
    (let c : Egress := { next := 3, limit := 100, outstanding := 0, resident := true, closing := true, gap := none, jump := false };
      tget ({ memb with links := { memb.links with egress := [(1, c)] } }).links.egress 1 = some c ∧ c.closing = true ∧ c.gap = none ∧
        1 % 2 = memb.dom.gen % 2 ∧ memb.fab.tags = [] ∧ memb.fab.txq = []) ∧
    (tgetD ({ memb with fab := { memb.fab with ackSince := [(7, 1)] } }).fab.ackSince (0 * 8 + 7) 0 ≠ 0 ∧ ackGapOut memb 0 7 = false) ∧
    (let q : List EackRec := List.replicate 498 { rtag := 0, status := 0, dup := false };
      tget ({ memb with fab := { memb.fab with eackQ := [(0, q)] } }).fab.eackQ 0 = some q ∧ q ≠ [] ∧ q.length ≤ 498) :=
  by and_intros <;> decide +kernel

/-- Acknowledged. -/
theorem test_witness_acknowledged :
    (let f := inf { hdr with op := 1 } (List.replicate 16 0); (withIn memb f).fab.inbox = [f] ∧
      tagByRtag (withIn memb f) 4 (leAt f.payload 0 4) (fun o => o == opReq) = none) ∧
    (let f := inf { hdr with op := 1, tc := 1, plen := 16 } (List.replicate 16 0);
      (tagByRtag (withTag (withIn memb f) (tagE 0 4)) 4 (leAt f.payload 0 4) (fun o => o == opReq)) = some (0, tagE 0 4)) ∧
    (let f := inf { hdr with op := 2 } (List.replicate 8 0); f.payload.length = 8 ∧ tagBySeq (withIn memb f) 4 0 0 = none ∧
      tagByRtag (withIn memb f) 4 0 (fun o => o == opReq || o == opRsp) = none ∧
      tagByRtag (withTag (withIn memb f) { tagE 0 4 with tc := 1 }) 4 0 (fun o => o == opReq || o == opRsp) = some (0, { tagE 0 4 with tc := 1 }) ∧
      tagBySeq (withTag (withIn memb f) { tagE 0 4 with tc := 1 }) 4 0 0 = none) ∧
    leAt [0#8, 0#8, 0#8, 0#8, 0#8, 1#8, 0#8, 0#8] 5 1 % 2 = 1 ∧ (tagE 0 4).op = opReq ∧
    rspBad { hdr with op := 1, tc := 1, plen := 144 } ([0#8, 0#8, 0#8, 0#8, 1#8] ++
      List.replicate 139 0) { tagE 0 4 with kind := 1, beats := 1 } = false ∧
    rspBad { hdr with op := 1, plen := 15 } (List.replicate 15 0) (tagE 0 4) = true :=
  by decide

/-- HomeTakes. -/
theorem test_witness_home_takes :
    reqBad { hdr with op := 0, tc := 1, plen := 16 } ([0#8, 0#8, 0#8, 0#8, 1#8] ++ List.replicate 11 0) = false ∧
    reqBad { hdr with op := 0, tc := 1, plen := 16 } (List.replicate 16 0xFF) = true ∧
    (let r := reqOf (inf { hdr with op := 0, tc := 1, plen := 16, stream := 2048 + 256 } ([0#8, 0#8, 0#8, 0#8, 1#8] ++
      List.replicate 11 0)); r.kid = 0 ∧ r.owner = 1 ∧ homeScope work r.owner r.addr r.len r.opn = stOk ∧ r.kind = kLoad) ∧
    homeScope work 1 (16 * 4096) 128 false ≠ stOk ∧
    homeScope work 1 (16 * 4096 - 128) 128 false = stOk ∧
    work.fab.homes = [] ∧
    (let r := reqOf (inf { hdr with op := 0, tc := 1, plen := 16, stream := 2048 + 256 } ([0#8, 0#8, 0#8, 0#8, 1#8, 0#8, 16#8] ++ List.replicate 9 0));
      let g := { rgn with kind := 1, home := 3 };
      r.kid = 16 ∧ poolScope work r.owner r.kid r.addr r.len ≠ stOk ∧
      poolScope (withRegion work g) 1 16 (rData g) 128 = stOk ∧ regionAt (withRegion work g) 16 = some g) ∧
    (reqOf (inf { hdr with op := 0, tc := 1, plen := 16 } ([0#8, 0#8, 0#8, 0#8, 1#8, 0#8, 15#8] ++ List.replicate 9 0))).kid = 15 ∧
    reqBad { hdr with op := 0, tc := 1, plen := 16 } ([0#8, 0#8, 0#8, 0#8, 1#8, 0#8, 15#8] ++ List.replicate 9 0) = false :=
  by decide

/-- MemoryResponses: an access of a home operation of each kind and phase, of a resend, of a wait, of the ring; responses of a module. -/
theorem test_witness_memory_responses :
    tget memb.fab.pm 0 = none ∧
    (∀ u ∈ [PmUse.home 0, .resend 0, .waitRead 1], tget (withPm memb u).fab.pm 0 = some { use := u, write := false, addr := 0, len := 128, pasid := some 5 }) ∧
    (let p : Pm := { use := .dbgRing, write := true, addr := 0, len := 128, pasid := none };
      tget ({ memb with fab := { memb.fab with pm := [(0, p)] } }).fab.pm 0 = some p ∧ p.use = .dbgRing ∧ p.pasid = none) ∧
    tget ({ memb with fab := { memb.fab with homes := [(0, hop kLoad 1)] } }).fab.homes 0 = some (hop kLoad 1) ∧ (hop kLoad 1).phase = 1 ∧
      (hop kLoad 1).kind = kLoad ∧
    (hop kAtomic 1).phase = 1 ∧ (hop kAtomic 1).kind = kAtomic ∧
    (hop kStore 2).phase = 2 ∧ (hop kStore 2).kind = kStore ∧ (hop kStore 2).arrival = none ∧ memb.fab.waits = [] ∧
    (hop kStore 3).phase = 3 ∧
    fwActs memb = true ∧
    moduleTag memb { hdr with op := 0xA, smode := 2, dgen := false } = none ∧
    (∀ x ∈ [(8, 0xA), (9, 0xB)], moduleTag (withTag memb (tagE x.1 4)) { hdr with op := x.2, smode := 2, dgen := false } = some 0) ∧
    tget (withTag memb { tagE 8 4 with origin := .module 0 0 }).fab.tags 0 = some { tagE 8 4 with origin := .module 0 0 } ∧
    (inf { hdr with op := 0xA, nlines := 0 } (List.replicate 80 0)).payload.length = 16 + 64 * (0 + 1) ∧
      leAt (List.replicate 80 0#8) 8 1 = 0 ∧ leAt (List.replicate 16 1#8) 8 1 ≠ 0 :=
  by and_intros <;> decide +kernel

/-- MemoryEngine. -/
theorem test_witness_memory_engine :
    hotAt memb 16 0 = none ∧
    hotAt { memb with fab := { memb.fab with hot := [{ kid := 16, line := 0, data := [], last := 0, wb := false, again := false }] } } 16 0 = some { kid := 16, line := 0, data := [], last := 0, wb := false, again := false } ∧
    allDone [] = true ∧ regionAt (withRegion memb rgn) 16 = some rgn ∧ regionSlot (withRegion memb rgn) 16 rgn.gen0 rgn = some 20 ∧
    tget ({ memb with mem := { memb.mem with fills := [(0, { kid := 16, page := 0, items := [], parts := [] })] } }).mem.fills 0 = some { kid := 16, page := 0, items := [], parts := [] } ∧
    (let j : PageJob := { kid := 16, page := 0, reseal := true, op := none, old := [], new := [], reading := false, started := true, parts := [] };
      tget ({ memb with mem := { memb.mem with jobs := [(0, j)] } }).mem.jobs 0 = some j) ∧
    (let r := { rgn with sweep := some 1, size := 4096 }; r.lost = false ∧ r.invalid = false ∧ rPages r ≤ 1) :=
  by and_intros <;> decide +kernel

/-- KeyUpkeep. -/
theorem test_witness_key_upkeep :
    (({ memb with mem := { memb.mem with missK := [(16, 1)] } }).mem.missK.filter (fun p => p.1 == 16) = [(16, 1)]) ∧
    regionLive (withRegion memb rgn) rgn = true ∧ regionSlot (withRegion memb rgn) 16 1 rgn = none ∧
      lowestFree (withRegion memb rgn) = some 16 ∧
    memb.hub.drbgRefuse = false ∧
    ({ memb with hub := { memb.hub with drbgRefuse := true } }).hub.drbgRefuse = true ∧
    engUp memb = true ∧ memb.aon.alarms.length < 256 ∧
    (let x : Slot := { Slot.zero with state := 2, typ := 8, parent := 5 };
      tget ({ memb with keys := { memb.keys with slots := [(20, x)] } }).keys.slots 20 = some x ∧ x.state = 2) :=
  by and_intros <;> decide +kernel

/-- HubPair: a pair in service, its self-test with a spare and without one, and no recent mismatch. -/
theorem test_witness_hub_pair :
    hubUp up = true ∧ up.hub.selfTest = false ∧ up.aon.alarms.length < 256 ∧
    (let s := { up with hub := { up.hub with selfTest := true } }; s.hub.selfTest = true ∧ s.hub.pairA < 3 ∧ s.hub.pairA ≠ s.hub.pairB ∧
      (∀ n, n < 18 → unadmitted (mb s n) = false) ∧ spareCore s = some 2 ∧ recentMismatch s = false) ∧
    (let s := { up with hub := { up.hub with selfTest := true }, ladder := { up.ladder with mapped := [.core 2] } }; spareCore s = none) ∧
    (up.aon.stage = 6 ∧ (∀ n, n < 18 → (mb up n).packet = none)) ∧
    up.ident.acks = [] ∧ (∀ n, n < 18 → unadmitted (mb up n) = false) ∧ recentMismatch up = false :=
  by and_intros <;> decide +kernel

/-- MailboxReplies: a free, bound, busy and full mailbox, and one with replies. -/
theorem test_witness_mailbox_replies :
    opens up drv (mbxReg 16 0) = true ∧ boundOther up 16 drv = false ∧ (mb up 16).busy = false ∧ (mb up 16).words.length < 4098 ∧
    boundOther (setMb up 0 { Mbox.empty with bound := some (.pasid 5) }) 0 drv = true ∧
    (let s := setMb up 0 { Mbox.empty with busy := true }; boundOther s 0 drv = false ∧ (mb s 0).busy = true) ∧
    opens up drv (mbxReg 16 4) = true ∧ opens up drv (mbxReg 16 0xC) = true ∧ opens up drv (mbxReg 16 0x14) = true ∧
    wleft (mb (setMb up 0 { Mbox.empty with replies := [[1#32]] }) 0) ≠ 0 ∧ wleft (mb up 0) = 0 ∧
    (mb (setMb up 0 { Mbox.empty with replies := [[1#32]] }) 0).replies = [[1#32]] ∧
    (mb (setMb up 0 { Mbox.empty with replies := [[1#32], [2#32], [3#32]] }) 0).replies = [1#32] :: [2#32] :: [[3#32]] ∧
    stNotPermitted ≠ stBadLength ∧ stNotPermitted ≠ stBusy ∧ stNotPermitted ≠ stPending :=
  by decide

/-- PacketAdmitted: packets that fail each check, and one that passes. -/
theorem test_witness_packet_admitted :
    (let s := setMb up 0 { Mbox.empty with words := [0x01000000#32, 7#32] }; hubAdmits s = true ∧ opens s drv (mbxReg 0 4) = true ∧
      boundOther s 0 drv = false ∧ (mb s 0).busy = false ∧ (mb s 0).blob = none ∧ (mb s 0).replies = [] ∧ 2 ≤ (mb s 0).words.length) ∧
    (let b := mb (setMb up 0 { Mbox.empty with words := [0x01000001#32, 7#32] }) 0; b.words.length ≠ (pw b.words 0).toNat % 2 ^ 16 + 2) ∧
    opOf (0xFF000000 / 2 ^ 24) = none ∧
    (let b := mb (setMb up 0 { Mbox.empty with words := [0x01000000#32, 7#32] }) 0; let h := (pw b.words 0).toNat;
      b.words.length = h % 2 ^ 16 + 2 ∧ opOf (h / 2 ^ 24) = some .getInfo ∧ b.retTag ≠ some 7 ∧ opRight up 0 .getInfo = true ∧
      opInState .getInfo up.otp.lc = true ∧ h / 2 ^ 16 % 256 = 0 ∧ lenOk .getInfo (b.words.drop 2) = true ∧
      fieldsOk .getInfo (b.words.drop 2) = true ∧ blobOk .getInfo (b.words.drop 2) none (blobBytes .getInfo (b.words.drop 2)) = true) ∧
    ((List.range 256).any (fun n => match opOf n with | some op => !opRight up 1 op | none => false) = true) ∧
    opInState .domainEnrol .manuf = false ∧ opRight up 0 .domainEnrol = true ∧
    (let f := inf { hdr with op := 3, mbxs := true } [0, 0, 0, 1, 7, 0, 0, 0]; isStreamFrame f = true ∧ (withIn up f).fab.inbox = [f] ∧
      (mb up 17).busy = false ∧ (bytesWords f.payload).length = fld ((bytesWords f.payload).headD 0) 15 0 + 2) ∧
    isM 1 = false ∧ opRight up 1 .domainEnrol = false ∧ opOf (opVal .domainEnrol) = some .domainEnrol ∧
    (let ws : List Word := [0x01FF0000#32, 7#32]; let h := (pw ws 0).toNat; ws.length = h % 2 ^ 16 + 2 ∧ opOf (h / 2 ^ 24) = some .getInfo ∧
      opRight up 0 .getInfo = true ∧ opInState .getInfo up.otp.lc = true ∧ flagsOk .getInfo (h / 2 ^ 16 % 256) false = false) ∧
    (flagsOk .keyInfo 0 false = true ∧ lenOk .keyInfo [] = false ∧ lenOk .keyInfo [0xFFFFFFFF#32] = true ∧
      (fieldsOk .keyInfo [0xFFFFFFFF#32] && blobOk .keyInfo [0xFFFFFFFF#32] none (blobBytes .keyInfo [0xFFFFFFFF#32])) = false) ∧
    (let f := inf { hdr with op := 3, mbxs := true } [0, 0, 0, 1, 7, 0, 0, 0]; (bytesWords f.payload).length ≤ 4098 ∧ hubAdmits up = true) :=
  by and_intros <;> decide +kernel

/-- HubGuards: no packet, one outside its scope, one that names what is held, while the Hub waits; an SPDM message without a channel, without its session, before FINISH. -/
theorem test_witness_hub_guards :
    packetOf up 0 .getInfo = none ∧
    (let k := pkt .contextReset [0#32]; let s := withPkt up 0 k; packetOf s 0 .contextReset = some k ∧ hubTakes s 0 = true) ∧
    hubTakes { up with hub := { up.hub with run := .halted } } 0 = false ∧
    admitScope (withPkt up 1 (pkt .partitionDestroy [1#32])) 1 .pgdRead [0x10000#32] = some stNotPermitted ∧
    admitScope { up with hub := { up.hub with bg := [{ src := 1, op := .regionDestroy, holds := [.region 16] }] } } 0 .regionDestroy [16#32] = some stBusy ∧
    (let s := spdmIn up true 0; heard s 0 true = true ∧ channelUp s = true ∧ sessionOf s (.mbox 0) 0 = none) ∧
    (let s := spdmIn { up with ladder := { up.ladder with isolated := List.range 8 } } true 0; heard s 0 true = true ∧
      channelUp s = false) ∧
    (let s := spdmIn (withSes up { ses with finish := false }) true 0; heard s 0 true = true ∧ channelUp s = true ∧
      finished s (.mbox 0) 0 = false) ∧
    (let s := { withPkt up 0 (pkt .keyDerive []) with mem := { up.mem with missK := [(16, 0)] } }; packetOf s 0 .keyDerive = some (pkt .keyDerive []) ∧
      derives .keyDerive = true ∧ missPending s = true) ∧
    (derives .pgdRead && missPending (withPkt up 1 (pkt .pgdRead [0x10000#32]))) = false ∧
      hubTakes (withPkt up 1 (pkt .pgdRead [0x10000#32])) 1 = true ∧
      admitScope (withPkt up 1 (pkt .pgdRead [0x10000#32])) 1 .pgdRead [0x10000#32] = some stNotPermitted ∧
    packetOf up 0 .spdm = none ∧
    (let s := spdmIn (withSes up { ses with finish := false }) true 0; (sessionOf s (.mbox 0) 0).isSome = true) :=
  by and_intros <;> decide +kernel

/-- QueriesAndGroups. -/
theorem test_witness_queries_and_groups :
    take (up) 0 (pkt .getInfo []) = true ∧
    take (up) 0 (pkt .query []) = true ∧
    take (withPart up prt) 1 (pkt .query []) = true ∧ isM 1 = false ∧ isM 0 = true ∧
    take (up) 0 (pkt .repairStatus []) = true ∧
    take (up) 0 (pkt .keyInfo [15#32]) = true ∧
    take (up) 0 (pkt .keyInfo [16#32]) = true ∧
    take (up) 0 (pkt .selftest [64#32]) = true ∧
    take (withPart up prt) 0 (pkt .selftest [64#32]) = true ∧
    ((withPart up prt).parts.part.any (fun p => p.2.live) = true ∧ up.parts.part.any (fun p => p.2.live) = false) ∧
    take up 0 (pkt .pgdWrite (0x0FFF#32 :: List.replicate 32 0)) = true ∧ groupHeld up 0 0xFFF = false ∧
    pgdGroups up ≤ 0xFFF ∧
    (partAt up 0).live = false ∧ (partAt (withPart up prt) 0).live = true ∧
    pgdN (wordBytes (List.replicate 32 0)) = 0 ∧
    0 < pgdGroups { up with win := [(0x31008, 1#32)] } ∧
    pgdN (wordBytes (List.replicate 32 0xFFFFFFFF)) ≠ 0 ∧ pgdForm (wordBytes (List.replicate 32 0xFFFFFFFF)) = false ∧
    take (withPart up prt) 0 (pkt .pgdRead [0#32]) = true ∧
    ((withPart up prt).hub.shown = none ∧
      let s := { withPart up prt with hub := { up.hub with shown := some (0, 1#32, 2#32, 3) } };
      take s 1 (pkt .query []) = true ∧ s.hub.shown = some (0, 1#32, 2#32, 3) ∧ 0 = s.aon.ts / 10000000) ∧
    (let s := { up with hub := { up.hub with shown := some (1, 1#32, 2#32, 3) } }; ∀ x, s.hub.shown = some x → x.1 ≠ s.aon.ts / 10000000) ∧
    (let b : Bytes := wordBytes ([0x1#32, 16#32] ++ List.replicate 30 0#32); pgdForm b = true ∧ pgdRanges b = true ∧ pgdRule b = 1) ∧
    (let b : Bytes := (raw 1 [(4, 4, 1), (44, 2, 16)] ++ List.replicate 64 0); let s := withRegion (withPart up prt) { rgn with kind := 1, size := 2 ^ 40 };
      pgdN b ≠ 0 ∧ pgdForm b = true ∧ pgdRanges b = true ∧ pgdRule b ≠ 2 ∧ pgdRegions s 0 b = none) :=
  by and_intros <;> decide +kernel

/-- KeyCommands: parents refused, orphaned and good; a slot below 16, a region key, and a slot at its last generation. -/
theorem test_witness_key_commands :
    take (up) 0 (pkt .keyDerive [6#32, 0x208#32, 0xFFFF#32, 0#32, 0#32, 1#32, 0x61#32]) = true ∧
    deriveCheck up [15#32, 8#32, 0xFFFF#32, 0#32, 0#32, 1#32, 0x61#32] = some stNotPermitted ∧
    (let s := { up with keys := { up.keys with slots := [(16, { Slot.zero with state := 2, typ := 8 })] } };
      deriveCheck s [16#32, 8#32, 0xFFFF#32, 0#32, 0#32, 1#32, 0x61#32] = some stKeyOrphaned) ∧
    (let s := { up with keys := { up.keys with slots := [(0, { Slot.zero with state := 1, typ := 1, uses := 0xFFFF, useLimit := 100 })] } };
      deriveCheck s [0#32, 0x208#32, 0xFFFF#32, 0#32, 0#32, 1#32, 0x61#32] = none ∧ lowestFree s = some 16) ∧
    take (up) 0 (pkt .keyInvalidate [15#32]) = true ∧
    take (up) 0 (pkt .keyInvalidate [16#32]) = true ∧
    (slotAt { up with keys := { up.keys with slots := [(16, { Slot.zero with gen := 0xFFFFFFFF })] } } 16).gen = 0xFFFFFFFF ∧
    (slotAt (withRegion up rgn) 20).typ = 6 ∧
    (slotAt up 16).typ ≠ 6 ∧ (slotAt up 16).gen < 0xFFFFFFFF ∧ fld 0#32 10 0 = 0 ∧ fld 5#32 10 0 = 5 ∧ fld 4#32 10 0 < 16 ∧ fld 4#32 10 0 ≠ 5 :=
  by and_intros <;> decide +kernel

/-- RegionCommands. -/
theorem test_witness_region_commands :
    ((let k := pkt .regionDestroy [16#32]; take (withRegion (withPart memb prt) rgn) 0 k) = true ∧ rgn.part = 0 ∧
      (rgn.kind ≠ 1 ∨ rgn.authority = true)) ∧
    take (withPart memb prt) 0 (pkt .regionDestroy [16#32]) = true ∧ regionAt (withPart memb prt) 16 = none ∧
    regionAt (withRegion memb { rgn with kind := 1, authority := false }) 16 = some { rgn with kind := 1, authority := false } ∧
    take (withRegion (withPart memb prt) rgn) 0 (pkt .regionRekey [16#32]) = true ∧
    (take (withRegion (withPart memb prt) { rgn with kind := 1, sweep := some 0 }) 0 (pkt .regionRekey [16#32]) = true ∧
      (∀ h ∈ memb.fab.hot, h.kid ≠ 16)) ∧
    kidInGrant prt 16 = true ∧ kidInGrant prt 19 = true ∧ kidInGrant prt 15 = false ∧ kidInGrant prt 20 = false ∧
    (let k := pkt .regionCreate (16#32 :: List.replicate 9 0); take (withPart memb prt) 0 k = true ∧
      (regionCheck (withPart memb prt) (regionReq k.params)).isSome = true) ∧
    (let s := { withPkt memb 0 (pkt .regionCreate []) with mem := { memb.mem with idReq := [(3, 0)] } }; s.mem.idReq = [(3, 0)] ∧
      packetOf s 0 .regionCreate = some (pkt .regionCreate [])) ∧
    memb.mem.idReq = [] ∧
    (let p := fun (v : Nat) => [0x00001010#32, BitVec.ofNat 32 v, 0#32, 0x00100000#32, 4096#32, 0#32, 0x2000#32, 0x00100000#32, 0#32, 0#32];
      let s := withPart memb prt; take s 0 (pkt .regionCreate (p 3)) = true ∧ take s 0 (pkt .regionCreate (p 4)) = true ∧
      regionCheck s (regionReq (p 3)) = none ∧ reachesModule s (regionReq (p 3)) = true ∧
      regionCheck s (regionReq (p 4)) = none ∧ reachesModule s (regionReq (p 4)) = false) ∧
    fwActs memb = true ∧
    (take (withRegion (withPart memb prt) { rgn with kind := 1, authority := false }) 0 (pkt .regionDestroy [16#32]) = true ∧
      ({ rgn with kind := 1, authority := false }).part ≠ 1 ∧ (fld (pw [0x10010#32] 0) 19 16) = 1) ∧
    (take (withRegion (withPart memb prt) { rgn with kind := 1 }) 0 (pkt .regionRekey [16#32]) = true ∧ ({ rgn with kind := 1 }).sweep = none ∧
      ({ rgn with kind := 1 }).authority = true) ∧
    (rgn.sweep = none ∧ rgn.kind = 2 ∧ (∀ h ∈ memb.fab.hot, h.kid ≠ 16)) ∧
    (kidInGrant (partAt (withRegion (withPart memb prt) rgn) 0) 16 = true ∧ (regionAt (withRegion (withPart memb prt) rgn) 16).isSome = true) :=
  by and_intros <;> decide +kernel

/-- PartitionLife: a create at each check and one that passes; a partition to destroy, to reset, draining, due for ERROR. -/
theorem test_witness_partition_life :
    (let g : PartGrant := { grantOf (List.replicate 14 0) with slots := 1, kidBase := 15, pasids := [5] };
      createCheck up 0 g = some stBadParam ∧ createCheck (withPart up prt) 0 g = some stBusy) ∧
    (let s := { up with win := [(0x1A008, 0x3FF#32)], parts := { up.parts with areas := [0x31000, 0x31004, 0x31008, 0x5F000, 0x5F004, 0x1A008] } };
      let g : PartGrant := { grantOf (List.replicate 14 0) with slots := 1, kidBase := 16, kidCount := 4, pasids := [5] };
      createCheck s 0 g = none) ∧
    take up 0 (pkt .partitionCreate (List.replicate 14 0)) = true ∧
    take up 0 (pkt .partitionDestroy [15#32]) = true ∧ fld 15#32 3 0 = 15 ∧
    opens up drv (ptOff 15 8) = true ∧ drv.priv = true ∧
    ({ prt with tdisp := 1 }).tdisp = 1 ∧
    (let s := withPart up { prt with resetting := true }; (partAt s 0).resetting = true ∧ ctxsOf s 0 = [] ∧ ownerTags s 0 = [] ∧
      (partAt s 0).destroying = false) ∧
    ({ up with parts := { up.parts with errDue := [15] } }).parts.errDue.contains 15 = true ∧ up.parts.errDue.contains 0 = false ∧
    (partAt (withPart up prt) 0).live = true ∧ (partAt (withPart up prt) 0).resetting = false ∧ up.fab.parks = [] ∧
    (let s := withPart up prt; take s 0 (pkt .partitionDestroy [0#32]) = true ∧ fld 0#32 3 0 = 0 ∧ prt.live = true) ∧
    (prt.tdisp = 0 ∧ opens (withPart up prt) drv (ptOff 0 8) = true ∧ prt.resetting = false) ∧
    (let s := { withPart up prt with parts := { (withPart up prt).parts with errDue := [0] } }; s.parts.errDue.contains 0 = true ∧
      (partAt s 0).live = true ∧ ctxsOf s 0 = []) ∧
    (let g : PartGrant := { grantOf (List.replicate 14 0) with kidBase := 15 }; (partAt up 15).live = false ∧ (partAt up 15).tdisp = 0 ∧
      createCheck up 15 g = some stBadParam) :=
  by and_intros <;> decide +kernel

/-- ContextEnds. -/
theorem test_witness_context_ends :
    (let s := withCtx (withPart up prt) { cx with faulted := true }; take s 0 (pkt .contextReset [0#32]) = true ∧
      ctxAt s 0 = some { cx with faulted := true } ∧ (∀ d ∈ s.parts.desc, d.2.ctx ≠ 0)) ∧
    take (withPart up prt) 0 (pkt .contextReset [0xFFF#32]) = true ∧ ctxAt (withPart up prt) 0xFFF = none ∧
    take (withCtx (withPart up prt) cx) 0 (pkt .contextTeardown [0#32]) = true ∧ cx.own = [] ∧
    (∀ b ∈ up.hub.bg, b.src ≠ 0) ∧
    (let s := withPkt { withCtx up cx with hub := { up.hub with bg := [{ src := 0, op := .contextTeardown, holds := [.part 0] }] } } 0 (pkt .contextTeardown [0#32]);
      s.hub.bg = [{ src := 0, op := .contextTeardown, holds := [.part 0] }] ∧
      packetOf s 0 .contextTeardown = some (pkt .contextTeardown [0#32])) ∧
    regionQuiet (withRegion up rgn) 16 = true ∧
    (let w : WriteBack := { kid := 16, part := { write := true, addr := 0, lines := 1, data := [], sent := true, done := false, status := 0, poison := 0 } };
      regionQuiet { withRegion up rgn with mem := { (withRegion up rgn).mem with wbs := [(0, w)] } } 16 = false) ∧
    (let x := dsc 7 (List.replicate 64 0) .fetched;
      let s := { withDesc up x with parts := { (withDesc up x).parts with abandon := [(1, false)] } };
      s.parts.abandon.find? (fun a => a.1 == 1) = some (1, false) ∧ descAt s 1 = some x ∧ x.phase = .fetched) ∧
    (let x := dsc 7 (List.replicate 64 0) .running;
      let s := { withDesc up x with parts := { (withDesc up x).parts with abandon := [(1, true)] } };
      s.parts.abandon.find? (fun a => a.1 == 1) = some (1, true)) ∧
    up.ladder.late = [] ∧ fwActs up = true ∧ fwActs { up with hub := { up.hub with run := .halted } } = false ∧
    (let x := dsc 7 (raw 7 [(8, 2, 6), (10, 1, 2)]) .fetched;
      let s := { withStage (withDesc (withPart up prt) x) stg with parts := { (withDesc (withPart up prt) x).parts with part := [(0, prt)], abandon := [(1, false)] } };
      descAt s 1 = some x ∧ (partOfPasid s x.pasid).getD 0 = 0 ∧ subTaken s 0 (leAt x.raw 8 2) (leAt x.raw 10 1) = true ∧
      subTaken (withPart up prt) 0 (leAt x.raw 8 2) (leAt x.raw 10 1) = false) ∧
    (let bg : Bg := { src := 0, op := .partitionDestroy, holds := [.part 0] };
      ∀ r ∈ [{ prt with destroying := true }, { prt with resetting := true }, { prt with log := { DirtyLog.off with active := true } }],
        let s := withPkt { withPart up r with hub := { up.hub with bg := [bg] } } 0 (pkt .partitionDestroy [0#32]);
        s.hub.bg = [bg] ∧ packetOf s 0 .partitionDestroy = some (pkt .partitionDestroy [0#32]) ∧ (∀ x ∈ s.mem.region, x.2.part ≠ 0) ∧
        ctxsOf s 0 = [] ∧ partAt s 0 = r) ∧
    (let s := withPkt { withRegion up rgn with hub := { up.hub with bg := [{ src := 0, op := .regionDestroy, holds := [] }] } } 0 (pkt .regionDestroy [16#32]);
      s.hub.bg = [{ src := 0, op := .regionDestroy, holds := [] }] ∧ packetOf s 0 .regionDestroy = some (pkt .regionDestroy [16#32]) ∧
      fld 16#32 11 0 = 16) :=
  by and_intros <;> decide +kernel

/-- FreezeAndMigration. -/
theorem test_witness_freeze_and_migration :
    take (withPart up prt) 0 (pkt .migLogStart [0#32, 0x10000#32, 0#32, 1#32]) = true ∧
      take (withPart up prt) 0 (pkt .migLogStart [0x100#32, 0#32, 0#32, 0#32]) = true ∧
    prt.log.active = false ∧ prt.log.due = [] ∧
    (let l : DirtyLog := { DirtyLog.off with active := true, pages := 1, due := [(4, 0)] };
      (partAt (withPart up { prt with log := l }) 0).log.due = (4, 0) :: [] ∧ l.count < (l.pages * 4096 - 64) / 8) ∧
    (1 * 4096 - 64) / 8 ≤ ({ DirtyLog.off with count := 504 }).count ∧
    take (withPart up prt) 0 (pkt .migFreeze [0#32]) = true ∧ take (withPart up prt) 0 (pkt .migFreeze [0x100#32]) = true ∧
    partRuns (withPart up prt) 0 = false ∧ pinsOf (withPart up prt) 0 = [] ∧ pinsOf (pumpMem (withPart up prt)) 0 = [] ∧
      dirtyItems (pumpMem (withPart up prt)) 0 = [] ∧ wbsOut (pumpMem (withPart up prt)) 0 = false ∧
    partRuns (withDesc work (dsc 1 [] .running)) 0 = true ∧
    (let s := withPkt { withDesc work (dsc 1 [] .running) with hub := { up.hub with bg := [{ src := 0, op := .migFreeze, holds := [.part 0] }] } } 0 (pkt .migFreeze [0#32]);
      s.hub.bg = [{ src := 0, op := .migFreeze, holds := [.part 0] }] ∧ packetOf s 0 .migFreeze = some (pkt .migFreeze [0#32]) ∧
      partRuns s 0 = true) ∧
    take (withPart memb prt) 0 (pkt .migSave [0#32, 4#32]) = true ∧
    (let s := { withPart memb { prt with frozen := true } with keys := { memb.keys with slots := [(5, { Slot.zero with state := 1, typ := 5, uses := 0xFFFF, useLimit := 100 })] } };
      (useKey s 5 0).1 = stOk ∧ channelUp s = true ∧ (slotAt s 5).state ≠ 2) ∧
    take memb 0 (pkt .migRestore [0#32, 4#32, 64#32]) = true ∧
    (let k := { pkt .migRestore [0#32, 4#32, 64#32] with blob := leBytes 4 0x424D5654 ++ leBytes 2 1 ++ leBytes 2 4 ++ leBytes 2 3 ++ List.replicate 54 0 };
      let h := k.blob.take 64; leAt h 0 4 = 0x424D5654 ∧ leAt h 4 2 = 1 ∧ ownVertex memb (leAt h 8 2) = true ∧
      leAt h 6 2 = fld (pw k.params 1) 15 0 ∧ memb.parts.salts.contains (slice h 16 16) = false) ∧
    (let l : DirtyLog := { DirtyLog.off with active := true, pages := 1, due := [(4, 0)] }; let s := withPart up { prt with log := l };
      take s 0 (pkt .migLogStart [0x100#32, 0#32, 0#32, 0#32]) = true ∧ wbit 0x100#32 8 = true ∧ l.due ≠ [] ∧ l.out = none ∧ l.ending = false) ∧
    (let l : DirtyLog := { DirtyLog.off with active := true, pages := 1 }; let s := withPart up { prt with log := l };
      take s 0 (pkt .migLogStart [0x100#32, 0#32, 0#32, 0#32]) = true ∧ l.due = [] ∧ l.out = none) ∧
    (let l : DirtyLog := { DirtyLog.off with active := true, pages := 1, count := 504, due := [(4, 0)] }; l.overflow = false ∧
      (l.pages * 4096 - 64) / 8 ≤ l.count) ∧
    (let l : DirtyLog := { DirtyLog.off with active := true, pages := 1, out := some (4, 0) };
      let e : Pm := { use := .logEntry 0, write := true, addr := 64, len := 8, pasid := none };
      let s := { withPart up { prt with log := l } with fab := { up.fab with pm := [(0, e)] } };
      tget s.fab.pm 0 = some e ∧ (partAt s 0).log.out = some (4, 0) ∧ (partAt s 0).log.ending = false) ∧
    ((partAt up 0).live = false ∧ take up 0 (pkt .migLogStart [0x100#32, 0#32, 0#32, 0#32]) = true ∧ take up 0 (pkt .migFreeze [0#32]) = true ∧
      take up 0 (pkt .migSave [0#32, 4#32]) = true) ∧
    (take (withPart up { prt with saved := true }) 0 (pkt .migFreeze [0x100#32]) = true ∧ wbit 0x100#32 8 = true ∧ prt.saved = false ∧
      prt.frozen = false ∧ up.fab.waits = []) ∧
    (∀ b ∈ up.hub.bg, b.op ≠ .migFreeze) ∧
    (let s := fun (st : Nat) => { withPart memb { prt with frozen := true } with keys := { memb.keys with slots := [(5, { Slot.zero with state := st, typ := 5, uses := 0xFFFF, useLimit := 100 })] } };
      take (s 1) 0 (pkt .migSave [0#32, 4#32]) = true ∧ take (s 2) 0 (pkt .migSave [0#32, 4#32]) = true ∧ (slotAt (s 2) 5).state = 2 ∧
      (s 1).hub.drbgRefuse = false ∧
      let t := { s 1 with hub := { (s 1).hub with drbgRefuse := true } }; take t 0 (pkt .migSave [0#32, 4#32]) = true ∧ (useKey t 5 0).1 = stOk ∧
      t.hub.drbgRefuse = true) ∧
    (let k := { pkt .migRestore [0#32, 4#32, 64#32] with blob := List.replicate 64 0 }; takes (withPkt memb 0 k) 0 .migRestore k = true ∧
      leAt (k.blob.take 64) 0 4 ≠ 0x424D5654) ∧
    (let k := { pkt .migRestore [0#32, 4#32, 64#32] with blob := leBytes 4 0x424D5654 ++ leBytes 2 1 ++ leBytes 2 4 ++ leBytes 2 3 ++ List.replicate 54 0 };
      let s := { memb with keys := { memb.keys with slots := [(5, { Slot.zero with state := 1, typ := 5, uses := 0xFFFF, useLimit := 100 })] }
                           parts := { memb.parts with salts := [List.replicate 16 0] } };
      takes (withPkt s 0 k) 0 .migRestore k = true ∧ (useKey s 5 0).1 = stOk ∧ channelUp s = true ∧ s.parts.salts.contains (slice (k.blob.take 64) 16 16) = true) :=
  by and_intros <;> decide +kernel

/-- DebugLevels: an M source with its session and a challenge, a source that may not, a member and none. -/
theorem test_witness_debug_levels :
    (let s := withSes up ses; take s 0 (pkt .debugAuth [0#32, 8#32]) = true ∧ levelsOk s 0 8#5 = true ∧ authSession s 0 = some 0 ∧
      s.hub.drbgRefuse = false) ∧
    (isM 1 = false ∧ (8#5).getLsbD 3 = true ∧ (16#5).getLsbD 4 = true ∧ isMember up = false ∧ (1#5).getLsbD 0 = true) ∧
    (take up 0 (pkt .debugAuth [2#32, 31#32]) = true ∧ fld 2#32 7 0 = 2) ∧
    (let b : Bytes := List.replicate 32 0;
      let s := { withSes up ses with dbg := { up.dbg with grants := [(0, { made := [], nonce := some (b, 0) })] } };
      nonceFits s 0 (wordBytes (slice (1#32 :: 8#32 :: List.replicate 1189 0) 2 8)) = true ∧ take s 0 (pkt .debugAuth (1#32 :: 8#32 ::
      List.replicate 1189 0)) = true) ∧
    (let s := { withSes up ses with hub := { up.hub with drbgRefuse := true } }; take s 0 (pkt .debugAuth [0#32, 8#32]) = true ∧
      levelsOk s 0 8#5 = true ∧ (authSession s 0).isSome = true ∧ s.hub.drbgRefuse = true) ∧
    (take up 0 (pkt .debugAuth [0#32, 8#32]) = true ∧ authSession up 0 = none ∧ levelsOk up 1 8#5 = false) ∧
    (let s := withSes up ses; take s 0 (pkt .debugAuth (1#32 :: 8#32 :: List.replicate 1189 0)) = true ∧
      nonceFits s 0 (wordBytes (slice (1#32 :: 8#32 :: List.replicate 1189 0) 2 8)) = false) ∧
    (let b : Bytes := List.replicate 32 0; let s := { withSes up ses with dbg := { up.dbg with grants := [(0, { made := [], nonce := some (b, 0) })] } };
      levelsOk s 0 8#5 = true ∧ levelsOk s 0 4#5 = true ∧ authSession s 0 = some 0) :=
  by and_intros <;> decide +kernel

/-- DebugSettingsAndRing. -/
theorem test_witness_debug_settings_and_ring :
    (let p := [0#32, 0x00100002#32, 0#32]; take up 0 (pkt .pmuConfig p) = true ∧ pmuCheck up 0 p = none ∧ wbit (pw p 1) 20 = true) ∧
    (let p := [127#32, 0x000003FF#32, 0#32]; take up 0 (pkt .pmuConfig p) = true ∧ eventListed (fld (pw p 1) 9 0) = false) ∧
    (let p := [0#32, 0x00000002#32, 0#32]; pmuCheck up 0 p = none ∧ wbit (pw p 1) 20 = false) ∧
    take up 0 (pkt .dumpArm (List.replicate 5 0)) = true ∧ holdsLevel up 0 0 = false ∧
    (let s := { up with dbg := { up.dbg with grants := [(0, { made := [(0, (31#5, 0))], nonce := none })] } }; holdsLevel s 0 0 = true ∧
      holdsLevel s 0 2 = true) ∧
    (ownVertex memb 3 = true ∧ otherMember memb 7 = true ∧ lowestFrom (fun i => (tget memb.dbg.arms i).isNone) 8 0 = some 0 ∧
      (∀ a ∈ memb.dbg.arms, a.2.tag ≠ 0)) ∧
    take up 0 (pkt .watchSet [0#32, 0xF4#32, 1#32, 0#32, 0#32, 0#32]) = true ∧
      pw64 [0#32, 0xF4#32, 1#32, 0#32, 0#32, 0#32] 4 < pw64 [0#32, 0xF4#32, 1#32, 0#32, 0#32, 0#32] 2 ∧
      fld 0xF4#32 7 4 < csCount up.size ∧ Watch.free.owner = 31 ∧
    opens up drv 0x60040 = true ∧ up.aon.adjDone = false ∧
      (({ up with win := [(0x60038, 1#32)] }).aon.ts < (reg { up with win := [(0x60038, 1#32)] } 0x60038).toNat) ∧
    opens up drv 0x70018 = true ∧ fld 1#32 15 0 < 2 ∧ 2 ≤ fld 2#32 15 0 ∧ ringCount up < 2 ∧
      2 ≤ ringCount { up with win := [(0x70018, 2#32)] } ∧
    (let f := inf { hdr with op := 6 } []; (withIn up f).fab.inbox = [f] ∧ f.hdr.op = opDump ∧ up.dbg.ringKey = none) ∧
    (let s := { { up with dbg := { up.dbg with grants := [(0, { made := [(0, (31#5, 0))], nonce := none })] } } with win := [(0x70018, 3#32), (0x70020, 1#32)] };
      mLevel s 0 = true ∧ 2 ≤ ringCount s ∧ ringNext s s.dbg.ringWr ≠ ringRd s) ∧
    (let s := { up with dbg := { up.dbg with grants := [(0, { made := [(0, (31#5, 0))], nonce := none })] } };
      take s 0 (pkt .dumpArm [1#32, 0#32, 0#32, 0#32, 1#32]) = true ∧ wbit 1#32 0 = true ∧ (∀ a ∈ s.dbg.arms, a.2.tag ≠ 1) ∧
      take s 0 (pkt .watchSet [0#32, 4#32, 1#32, 0#32, 2#32, 0#32]) = true ∧
      pw64 [0#32, 4#32, 1#32, 0#32, 2#32, 0#32] 2 ≤ pw64 [0#32, 4#32, 1#32, 0#32, 2#32, 0#32] 4 ∧ fld 4#32 7 4 < csCount up.size) ∧
    (let a : Arm := { tag := 1, step := 0, dest := 3, src := 0 };
      let s := { memb with dbg := { memb.dbg with grants := [(0, { made := [(0, (31#5, 0))], nonce := none })], arms := (List.range 8).map (fun i => (i, a)) } };
      take s 0 (pkt .dumpArm [1#32, 0#32, 0#32, 3#32, 0#32]) = true ∧ holdsLevel s 0 0 = true ∧ wbit 0#32 0 = false ∧ ownVertex s 3 = true ∧
      lowestFrom (fun i => (tget s.dbg.arms i).isNone) 8 0 = none) ∧
    take up 0 (pkt .watchSet [0#32, 4#32, 1#32, 0#32, 2#32, 0#32]) = true ∧ holdsLevel up 0 2 = false ∧ up.aon.porN = true ∧
    (let s := { withSes up ses with
                win := [(0x70018, 2#32)]
                keys := { up.keys with slots := [(5, { Slot.zero with state := 1, typ := 5, uses := 0xFFFF })] }
                dbg := { up.dbg with grants := [(0, { made := [(0, (31#5, 0))], nonce := none })] } };
      exportGrant s = some (0, 0) ∧ tget s.ident.sessions 0 = some ses ∧ (useKey s 5 0).1 = stOk ∧ s.hub.drbgRefuse = false ∧ channelUp s = true ∧
      exportGrant up = none) ∧
    (let s := { withSes up ses with
                win := [(0x70018, 3#32), (0x70020, 1#32)]
                keys := { up.keys with slots := [(7, { Slot.zero with state := 1, typ := 7, uses := 0x40, gen := 2, useLimit := 2 ^ 32 })] }
                dbg := { up.dbg with grants := [(0, { made := [(0, (31#5, 0))], nonce := none })], ringKey := some 2 } };
      s.dbg.ringKey = some (slotAt s exportSlot).gen ∧ mLevel s 0 = true ∧ 2 ≤ ringCount s ∧ ringNext s s.dbg.ringWr ≠ ringRd s ∧
      (useKey s exportSlot 6).1 = stOk ∧ (slotAt s exportSlot).useLimit ≠ 0 ∧
      (useKey { s with keys := { s.keys with slots := [(7, { slotAt s 7 with useCount := 2 ^ 32 })] } } exportSlot 6).1 ≠ stOk) :=
  by and_intros <;> decide +kernel

/-- DebugPort: below a level and at it, and the Hub running, draining and halted. -/
theorem test_witness_debug_port :
    dpOpen up 3 = false ∧ dpOpen up 4 = false ∧
    (let s := { up with otp := { up.otp with lc := .analysis } }; s.aon.porN = true ∧ dpOpen s 3 = true ∧ dpOpen s 4 = true) ∧
    (let s := { up with dbg := { up.dbg with dp := [(4, 1#32), (0x100, 1#32)] } }; up.hub.run = .running ∧ invasiveOn s = true ∧
      bpArmed s 0 = true) ∧
    invasiveOn up = false ∧ bpArmed up 11 = false ∧
    ({ up with hub := { up.hub with run := .halted } }).hub.run = .halted ∧
    up.hub.run ≠ .halted ∧ ({ up with hub := { up.hub with run := .draining } }).hub.run = .draining ∧ up.hub.run ≠ .draining :=
  by and_intros <;> decide +kernel

/-- HostKeysAndStore. -/
theorem test_witness_host_keys_and_store :
    take up 0 (pkt .fwStage [0#32]) = true ∧ storeReady up = false ∧
      storeReady { up with keys := { up.keys with slots := [(1, { Slot.zero with state := 1 })] } } = true ∧
    up.hub.store = [] ∧ ({ up with hub := { up.hub with store := [{ addr := 0, data := [], src := none }] } }).hub.store = [{ addr := 0, data := [], src := none }] ∧
    (let s := { withPkt up 0 (pkt .fwStage []) with hub := { (withPkt up 0 (pkt .fwStage [])).hub with store := [{ addr := 0, data := [], src := some 0 }], bg := [{ src := 0, op := .fwStage, holds := [] }], stagedLast := some (2, 5) } };
      s.hub.storeFailed = [] ∧ packetOf s 0 .fwStage = some (pkt .fwStage []) ∧ s.hub.stagedLast = some (2, 5)) ∧
    (up.ident.keyQ = [] ∧ ∀ op ∈ [0, 1, 2], ({ op := op, key := { stream := 255, dir := 1, sub := 2, set := 1 }, hold := 0, iv := 0, fromBlock := false } : KeyXfer).fromBlock = false) ∧
    (let s := spdmIn (withSes up ses) true 0; asks s 0 (some 0) = true ∧ sessionOf s (.mbox 0) 0 = some ses ∧ ideAllowed s ses = true) ∧
    ideAllowed { memb with dom := { memb.dom with policy := some { pol with flags := 2 } } } { ses with hybrid := false } = false ∧
    ideKeyOk { stream := 255, dir := 1, sub := 2, set := 1 } = true ∧ ideKeyOk { stream := 255, dir := 1, sub := 3, set := 1 } = false ∧
    ((slotAt up 2).state ≠ 1 ∧ (slotAt { up with keys := { up.keys with slots := [(2, { Slot.zero with state := 1 })] } } 2).state = 1 ∧
      (∀ e ∈ up.ident.ide, e.key ≠ { stream := 255, dir := 1, sub := 2, set := 1 }) ∧ (ideStreams up).length < 16 ∧
      lowestFree up = some 16) ∧
    (({ up with ident := { up.ident with ide := [({ key := { stream := 255, dir := 1, sub := 2, set := 1 }, slot := 16, slotGen := 0, check := 0, go := false } : IdeEnt)] } }).ident.ide.find? (fun (e : IdeEnt) => e.key == ({ stream := 255, dir := 1, sub := 2, set := 1 } : IdeKey)) = some ({ key := { stream := 255, dir := 1, sub := 2, set := 1 }, slot := 16, slotGen := 0, check := 0, go := false } : IdeEnt)) ∧
    fwActs { up with hub := { up.hub with run := .halted } } = false ∧ fwActs up = true ∧
    (let s := { withPkt up 0 (pkt .fwStage []) with hub := { (withPkt up 0 (pkt .fwStage [])).hub with store := [{ addr := 0, data := [], src := some 0 }], bg := [{ src := 0, op := .fwStage, holds := [] }] } };
      s.hub.stagedLast = none ∧ s.hub.store = [{ addr := 0, data := [], src := some 0 }] ∧ up.aon.alarms.length < 256 ∧
      ({ s with hub := { s.hub with stagedLast := some (0, 1) } }).hub.stagedLast = some (0, 1)) ∧
    (let k := { pkt .fwStage [0#32] with more := true }; takes (withPkt up 0 k) 0 .fwStage k = true ∧ k.more = true) ∧
    (let x : KeyXfer := { op := 1, key := { stream := 255, dir := 1, sub := 2, set := 1 }, hold := 0, iv := 0, fromBlock := false };
      ({ up with ident := { up.ident with keyQ := [x] } }).ident.keyQ = x :: [] ∧ x.op ≠ 0 ∧ x.fromBlock = false) ∧
    missPending up = false ∧ missPending { up with mem := { up.mem with missK := [(16, 0)] } } = true ∧
    (let r := { prt with ideStream := some 255, tdisp := 1 }; let s := withPart up r; (0, r) ∈ s.parts.part ∧ r.live = true ∧ r.ideStream = some 255) :=
  by and_intros <;> decide +kernel

/-- SpdmSessions. -/
theorem test_witness_spdm_sessions :
    asks (spdmIn up false 17) 17 none = true ∧
    (up.ident.avail = false ∧ ({ up with ident := { up.ident with avail := true } }).ident.avail = true ∧ up.hub.drbgRefuse = false ∧
      up.ident.sessions.length < 32) ∧
    (32 ≤ ({ up with ident := { up.ident with sessions := (List.range 32).map (fun i => (i, ses)) } }).ident.sessions.length) ∧
    (let s := spdmIn (withSes up { ses with finish := false }) true 0; heard s 0 true = true ∧ channelUp s = true ∧
      sessionOf s (.mbox 0) 0 = some { ses with finish := false }) ∧
    (let x := { ses with hybrid := false, kem := true }; let s := spdmIn (withSes up x) true 0; asks s 0 (some 0) = true ∧
      sessionOf s (.mbox 0) 0 = some x ∧ x.kem = true ∧ x.hybrid = false) ∧
    (let x := { ses with hybrid := false }; asks (spdmIn (withSes up x) true 0) 0 (some 0) = true ∧ x.kem = false) ∧
    (List.replicate 1568 0#8).length = 1568 ∧
    (let s := { spdmIn up false 17 with ident := { up.ident with avail := true } }; asks s 17 none = true ∧ (residents s).length < 8) ∧
    (let s := { up with ident := { up.ident with sessions := (List.range 9).map (fun i => (i, ses)), records := [(8, [])] } };
      tget s.ident.sessions 8 = some ses ∧ (tget s.ident.records 8).isSome = true ∧ 8 ≤ (residents s).length ∧
      (residents s).find? (· != 8) = some 0) ∧
    (let x := { ses with hybrid := false }; x.kem = false ∧ x.hybrid = false ∧ x.used = false ∧ ({ x with used := true }).used = true) ∧
    ({ up with hub := { up.hub with drbgRefuse := true } }).hub.drbgRefuse = true ∧
    (let s := spdmIn (withSes up { ses with finish := false }) true 0; sessionOf s (.mbox 0) 0 = some { ses with finish := false }) :=
  by and_intros <;> decide +kernel

/-- SpdmAnswers. -/
theorem test_witness_spdm_answers :
    asks (spdmIn up false 0) 0 none = true ∧ up.otp.lc ≠ .manuf ∧ up.ident.avail = false ∧
    (let s := spdmIn { up with otp := { up.otp with lc := .manuf }, ident := { up.ident with avail := true } } false 0;
      asks s 0 none = true ∧ s.otp.lc = .manuf ∧ s.ident.avail = true) ∧
    asks (spdmIn (withSes up ses) true 0) 0 (some 0) = true ∧
    8 < 9 ∧ 9 ≠ 0xFF ∧
    up.ident.devId = none ∧ (let d : Bytes × Bytes := ([], []); ({ up with ident := { up.ident with devId := some d } }).ident.devId = some d) ∧
    (let s := { spdmIn (withSes up ses) true 0 with ident := { (withSes up ses).ident with avail := true } }; asks s 0 (some 0) = true ∧ s.ident.avail = true) :=
  by and_intros <;> decide +kernel

/-- TdispStates. -/
theorem test_witness_tdisp_states :
    (asks (spdmIn (withSes up { ses with conn := .mbox 1 }) true 1) (0 + 1) (some 0) = true ∧ (partAt up 0).live = false) ∧
    (asks (spdmIn (withSes (withPart up prt) { ses with conn := .mbox 1 }) true 1) (0 + 1) (some 0) = true ∧
      (partAt (withPart up prt) 0).live = true ∧ prt.tdisp = 0) ∧
    streamReady up = none ∧
    (asks (spdmIn (withSes (withPart up { prt with tdisp := 3 }) { ses with conn := .mbox 1 }) true 1) 1 (some 0) = true ∧
      ({ prt with tdisp := 3 }).tdisp ≠ 1) ∧
    asks (spdmIn up false 16) (15 + 1) none = true ∧
    (let e := fun d => { key := { stream := 0, dir := d, sub := 0, set := 0 }, slot := 16, slotGen := 0, check := 0, go := true : IdeEnt };
      streamReady { up with ident := { up.ident with ide := [e 0, e 1] } } = some 0) ∧
    (ridOf (withPart up prt) 0 = 0 ∧ ({ part := 0, rid := 0 } : Tdi).rid = ridOf (withPart up prt) 0 ∧ ({ part := 0, rid := 1 } : Tdi).rid ≠ ridOf (withPart up prt) 0) ∧
    (let s := spdmIn (withSes (withPart up { prt with tdisp := 1 }) { ses with conn := .mbox 1 }) true 1; asks s 1 (some 0) = true ∧
      (partAt s 0).live = true ∧ (partAt s 0).tdisp = 1) :=
  by and_intros <;> decide +kernel

/-- UnitGuards: a domain control message of another domain; a descriptor of another opcode; one whose head is bad. -/
theorem test_witness_unit_guards :
    memb.fab.inbox = [] ∧
    (let f := inf { hdr with op := 3, src := 5 } ([8, 0, 5, 0] ++ leBytes 8 10 ++ leBytes 4 1 ++ List.replicate 4 0);
      (withIn memb f).fab.inbox = [f] ∧ f.hdr.op = opMgmt ∧ isCtl f = true ∧ leAt f.payload 0 1 = 8 ∧ leAt f.payload 4 8 ≠ domainId memb) ∧
    descAt work 1 = none ∧ dispatchUp up = true ∧
    (dsc 7 [] .fetched).opcode ≠ 1 ∧
    (let x := dsc 4 (raw 4 [(1, 1, 0xF8)]) .fetched; let s := withDesc work x; tries s 1 x 4 = true ∧ x.checked = false ∧
      headCheck s ((ctxPart s x.ctx).getD 0) 4 x.raw = some stBadParam) ∧
    fwActs memb = true ∧ fwActs { memb with hub := { memb.hub with run := .halted } } = false ∧ dispatchUp work = true ∧
    (let s := withDesc work (dsc 4 [] .running); descAt s 1 = some (dsc 4 [] .running) ∧ ∀ k ∈ candidates s, k.desc ≠ 1) :=
  by and_intros <;> decide +kernel

/-- Enrolment. -/
theorem test_witness_enrolment :
    take up 0 (pkt .domainEnrol [0#32, 3#32, 5#32, 0#32]) = true ∧
      enrolCheck up (pkt .domainEnrol [0#32, 3#32, 5#32, 0#32]) true = some stNotPermitted ∧
    (let e : Enrol := { src := 0, tag := 7, reparent := false, parent := 5, start := 0, accepted := false, joined := false, committed := false };
      ({ up with dom := { up.dom with enrol := some e } }).dom.enrol = some e ∧ e.accepted = false) ∧
    packetOf (withPkt up 0 (pkt .domainEnrol [])) 0 .domainEnrol = some (pkt .domainEnrol []) ∧
    (let x := { ses with conn := .peer 5, requester := true };
      let s := { withSes up x with dom := { up.dom with enrol := some { ({ src := 0, tag := 7, reparent := false, parent := 5, start := 0, accepted := false, joined := false, committed := false } : Enrol) with accepted := true } } };
      s.fab.inbox = [] ∧ channelUp s = true ∧ sessionOf s (.peer 5) 0 = some x ∧ x.finish = true ∧ x.hybrid = true ∧ x.requester = true) ∧
    (let f := inf { hdr with op := 3, src := 5 } ([8, 0, 5, 0] ++ leBytes 8 9 ++ leBytes 4 1 ++ List.replicate 4 0);
      ctlIn (withIn memb f) f 8 memb.dom.gen 4 = true ∧ tget memb.dom.children f.hdr.src = none) ∧
    (let s := { lead with dom := { lead.dom with children := [(5, child 5)] } };
      let f := inf { hdr with op := 3, src := 5 } ([8, 0, 5, 0] ++ leBytes 8 9 ++ leBytes 4 1 ++ [5, 0, 0, 0]);
      ctlIn (withIn s f) f 8 s.dom.gen 4 = true ∧ s.dom.children = [(leAt (f.payload.drop 16) 0 2, child 5)] ∧ s.dom.role = 2 ∧
      s.dom.rekey = none ∧ s.dom.allMarked = false ∧ s.dom.enrolled.contains 5 = false ∧ s.dom.held.contains 5 = false) ∧
    (let f := inf { hdr with op := 3, src := 5 } ([9, 0, 5, 0] ++ leBytes 8 9 ++ leBytes 4 1 ++ List.replicate 4 0);
      ctlIn (withIn memb f) f 9 memb.dom.gen 4 = true ∧ fromParent memb f.hdr.src = true ∧
      ownVertex memb (leAt (f.payload.drop 16) 0 2) = false ∧ fromParent lead 5 = false) ∧
    (let f := inf { hdr with op := 3, src := 5 } ([9, 0, 5, 0] ++ leBytes 8 9 ++ leBytes 4 1 ++ [3, 0, 1, 0]);
      ctlIn (withIn memb f) f 9 memb.dom.gen 4 = true ∧ ownVertex memb (leAt (f.payload.drop 16) 0 2) = true ∧
      leAt (f.payload.drop 16) 2 1 ≠ 0 ∧ memb.dom.member = true ∧ memb.dom.children = []) ∧
    memb.dom.role ≠ 2 ∧ memb.dom.parent = some (lnk 5) ∧
    (let k := { pkt .domainEnrol [0#32, 3#32, 5#32, 0#32] with more := true }; takes (withPkt up 0 k) 0 .domainEnrol k = true ∧ k.more = true) ∧
    fld (reg { up with win := [(0x1A008, 16#32)] } 0x1A008) 10 0 ≥ 16 ∧
    fwActs up = true ∧ fwActs { up with hub := { up.hub with run := .halted } } = false ∧ up.dom.enrol = none ∧
    (let e : Enrol := { src := 0, tag := 7, reparent := false, parent := 5, start := 0, accepted := true, joined := true, committed := false };
      let f := inf { hdr with op := 3, src := 5 } ([9, 0, 5, 0] ++ leBytes 8 9 ++ leBytes 4 1 ++ [3, 0, 0, 0]);
      let s := { memb with dom := { memb.dom with member := false, role := 0, enrol := some e } };
      ctlIn (withIn s f) f 9 s.dom.gen 4 = true ∧ fromParent s f.hdr.src = true ∧ ownVertex s (leAt (f.payload.drop 16) 0 2) = true ∧
      leAt (f.payload.drop 16) 2 1 = 0 ∧ s.dom.enrol = some e ∧ e.joined = true ∧ e.committed = false ∧ s.dom.children = [] ∧
      ({ s with dom := { s.dom with enrol := some { e with accepted := false } } }).dom.member = false) ∧
    (let f := inf { hdr with op := 3, src := 5 } ([8, 0, 5, 0] ++ leBytes 8 9 ++ leBytes 4 1 ++ [5, 0, 0, 0]);
      let s := { memb with dom := { memb.dom with children := [(5, child 5)], parent := some (lnk 6) } };
      ctlIn (withIn s f) f 8 s.dom.gen 4 = true ∧ s.dom.children = [(leAt (f.payload.drop 16) 0 2, child 5)] ∧ s.dom.role ≠ 2 ∧
      ({ lead with dom := { lead.dom with enrolled := [3, 5] } }).dom.enrolled.contains 5 = true) :=
  by and_intros <;> decide +kernel

/-- Rekeys. -/
theorem test_witness_rekeys :
    take memb 0 (pkt .domainRekey [2#32]) = true ∧ memb.dom.role ≠ 2 ∧
    take lead 0 (pkt .domainRekey [2#32]) = true ∧ lead.dom.role = 2 ∧ lead.dom.member = true ∧ lead.dom.gen ≠ 0xFFFFFFFF ∧
      (pw [2#32] 0).toNat = lead.dom.gen + 1 ∧ lead.dom.rekey = none ∧ lead.hub.drbgRefuse = false ∧ lead.dom.children = [] ∧
      lead.dom.held = [] ∧
    ({ lead with dom := { lead.dom with gen := 0xFFFFFFFF } }).dom.gen = 0xFFFFFFFF ∧
    (let f := inf { hdr with op := 3, src := 5 } ([1, 0, 5, 0] ++ leBytes 8 9 ++ leBytes 4 2 ++ List.replicate 80 0);
      ctlIn (withIn memb f) f 1 (memb.dom.gen + 1) 80 = true ∧ memb.dom.parent = some (lnk 5) ∧ (lnk 5).peer = f.hdr.src ∧
      memb.dom.rekey = none) ∧
    (let f := inf { hdr with op := 3, src := 5 } ([2, 0, 5, 0] ++ leBytes 8 9 ++ leBytes 4 2 ++ List.replicate 4 0);
      ctlIn (withIn memb f) f 2 (memb.dom.gen + 1) 4 = true) ∧
    (let f := inf { hdr with op := 3, src := 5 } ([3, 0, 5, 0] ++ leBytes 8 9 ++ leBytes 4 2 ++ List.replicate 0 0);
      ctlIn (withIn memb f) f 3 (memb.dom.gen + 1) 0 = true ∧ fromParent memb f.hdr.src = true) ∧
    (let f := inf { hdr with op := 3, src := 5 } ([4, 0, 5, 0] ++ leBytes 8 9 ++ leBytes 4 1 ++ List.replicate 4 0);
      ctlIn (withIn memb f) f 4 memb.dom.gen 4 = true) ∧
    (let f := inf { hdr with op := 3, src := 5 } ([5, 0, 5, 0] ++ leBytes 8 9 ++ leBytes 4 1 ++ List.replicate 4 0);
      ctlIn (withIn memb f) f 5 memb.dom.gen 4 = true) ∧
    (let f := inf { hdr with op := 3, src := 5 } ([6, 0, 5, 0] ++ leBytes 8 9 ++ leBytes 4 1 ++ List.replicate 0 0);
      ctlIn (withIn memb f) f 6 memb.dom.gen 0 = true ∧ fromParent memb f.hdr.src = true) ∧
    memb.fab.tags = [] ∧ memb.dom.children = [] ∧ ownDrained memb = true ∧
      ownDrained { memb with fab := { memb.fab with txq := [{ TxFrame.blank with under := some 0 }] } } = false ∧
    (let r : Rekey := { phase := .draining, target := 2, src := none, distSent := true, distAt := 0, switchAt := 0, ownDrained := false, drainSent := false };
      ({ memb with dom := { memb.dom with rekey := some r } }).dom.rekey = some r ∧ r.phase = .draining ∧ r.drainSent = false ∧
      r.src = none) ∧
    (let r : Rekey := { phase := .draining, target := 2, src := some 0, distSent := true, distAt := 0, switchAt := 0, ownDrained := false, drainSent := false };
      r.phase = .draining ∧ r.src = some 0) ∧
    (let r : Rekey := { phase := .distribute, target := 2, src := none, distSent := true, distAt := 0, switchAt := 0, ownDrained := false, drainSent := false };
      r.phase = .distribute ∧ r.distSent = true) ∧
    (let r : Rekey := { phase := .switching, target := 2, src := none, distSent := true, distAt := 0, switchAt := 0, ownDrained := false, drainSent := false };
      let s := { memb with dom := { memb.dom with rekey := some r, children := [(6, child 6)] } }; s.dom.rekey = some r ∧
      r.phase = .switching ∧ s.dom.children = [(6, child 6)] ∧ takesPart (child 6) = true ∧ (child 6).switched = none ∧ r.src = none ∧
      s.dom.held = []) ∧
    take lead 0 (pkt .domainRekey [3#32]) = true ∧ (pw [3#32] 0).toNat ≠ lead.dom.gen + 1 ∧
    (let s := { lead with hub := { lead.hub with drbgRefuse := true } }; take s 0 (pkt .domainRekey [2#32]) = true ∧ s.hub.drbgRefuse = true) ∧
    (let s := { lead with dom := { lead.dom with gen := 0xFFFFFFFF } }; take s 0 (pkt .domainRekey [2#32]) = true) ∧
    (let r : Rekey := { phase := .distribute, target := 2, src := none, distSent := true, distAt := 0, switchAt := 0, ownDrained := false, drainSent := false };
      let s := { memb with dom := { memb.dom with rekey := some r } }; s.dom.rekey.isSome = true ∧
      (let f := inf { hdr with op := 3, src := 5 } ([2, 0, 5, 0] ++ leBytes 8 9 ++ leBytes 4 2 ++ List.replicate 4 0); ctlIn (withIn s f) f 2 (s.dom.gen + 1) 4 = true) ∧
      (let f := inf { hdr with op := 3, src := 5 } ([3, 0, 5, 0] ++ leBytes 8 9 ++ leBytes 4 2); ctlIn (withIn s f) f 3 (s.dom.gen + 1) 0 = true ∧
        fromParent s f.hdr.src = true) ∧
      (let f := inf { hdr with op := 3, src := 5 } ([4, 0, 5, 0] ++ leBytes 8 9 ++ leBytes 4 1 ++ List.replicate 4 0); ctlIn (withIn s f) f 4 s.dom.gen 4 = true) ∧
      (let f := inf { hdr with op := 3, src := 5 } ([5, 0, 5, 0] ++ leBytes 8 9 ++ leBytes 4 1 ++ List.replicate 4 0); ctlIn (withIn s f) f 5 s.dom.gen 4 = true) ∧
      (let t := { s with dom := { s.dom with rekey := some { r with phase := .draining } } };
        let f := inf { hdr with op := 3, src := 5 } ([6, 0, 5, 0] ++ leBytes 8 9 ++ leBytes 4 1); ctlIn (withIn t f) f 6 t.dom.gen 0 = true ∧
        fromParent t f.hdr.src = true ∧ (∃ q, t.dom.rekey = some q ∧ q.phase ≠ .distribute)) ∧
      (let f := inf { hdr with op := 3, src := 5 } ([1, 0, 5, 0] ++ leBytes 8 9 ++ leBytes 4 2 ++ List.replicate 80 0); ctlIn (withIn s f) f 1 (s.dom.gen + 1) 80 = true)) ∧
    (let s := { memb with keys := { memb.keys with slots := [(3, { Slot.zero with state := 1, typ := 4 }), (4, { Slot.zero with state := 1, typ := 4 })] } };
      (slotAt s 4).state ≠ 0 ∧ (slotAt s 3).depth ≤ (slotAt s 4).depth ∧ s.fab.tags = []) ∧
    (let r : Rekey := { phase := .draining, target := 2, src := none, distSent := true, distAt := 0, switchAt := 0, ownDrained := false, drainSent := false };
      let s := { memb with dom := { memb.dom with rekey := some r, children := [(6, child 6)] } }; s.dom.rekey = some r ∧ s.dom.children = [(6, child 6)] ∧
      r.phase = .draining ∧ (∀ q, s.dom.rekey = some q → q.phase ≠ .draining ∨ q.src = none)) :=
  by and_intros <;> decide +kernel

/-- ChordRekey. -/
theorem test_witness_chord_rekey :
    (let c : Chord := { gen := 1, count := 0, key := 0, slot := 3, slotGen := 0 };
      tget ({ memb with links := { memb.links with chord := [(chordKey 5 0 true, c)] } }).links.chord (chordKey 5 0 (memb.dom.gen % 2 == 1)) = some c) ∧
    0xFFFFFFFF ≤ ({ gen := 0xFFFFFFFF, count := 0, key := 0, slot := 3, slotGen := 0 } : Chord).gen ∧
    take memb 0 (pkt .chordRekey [0x00010005#32]) = true ∧ memb.dom.member = true ∧ wbit 0x00010005#32 18 = false ∧
      otherMember memb (fld 0x00010005#32 15 0) = true ∧ wbit 0x00010005#32 17 = false ∧ wbit 0x00010005#32 16 = true ∧
      (advanceChord (quiet memb) 5).isSome = true ∧
    (advanceChord { memb with links := { memb.links with saved := [(chordKey 5 0 true, (0xFFFFFFFF, 0))] } } 5).isSome = false ∧
    take memb 0 (pkt .chordRekey [0x00020005#32]) = true ∧ wbit 0x00020005#32 17 = true ∧ wbit 0x00020005#32 16 = false ∧
    otherMember memb 3 = false ∧ otherMember memb 8 = false ∧
    (let f := inf { hdr with op := 3, src := 5 } ([7, 0, 5, 0] ++ leBytes 8 9 ++ leBytes 4 1 ++ List.replicate 4 0);
      ctlIn (withIn memb f) f 7 memb.dom.gen 4 = true ∧ leAt (f.payload.drop 16) 0 4 % 2 = 0) ∧
    (let s := { withPkt memb 0 (pkt .chordRekey []) with dom := { memb.dom with chordWin := some (0, 1, 0) } };
      s.dom.chordWin = some (0, 1, 0) ∧ packetOf s 0 .chordRekey = some (pkt .chordRekey [])) ∧
    take memb 0 (pkt .chordRekey [0x00050000#32]) = true ∧ wbit 0x00050000#32 18 = true ∧ wbit 0x00050000#32 17 = false ∧ wbit 0x00050000#32 16 = true ∧
      otherMember memb 7 = true ∧ egressGen memb (chordKey 7 0 true) < 0xFFFFFFFF ∧
    0xFFFFFFFF ≤ egressGen { memb with links := { memb.links with saved := [(chordKey 7 0 true, (0xFFFFFFFF, 0))] } } (chordKey 7 0 true) ∧
    (let f := inf { hdr with op := 3, src := 5 } ([7, 0, 5, 0] ++ leBytes 8 9 ++ leBytes 4 1 ++ [1, 0, 0, 0]);
      ctlIn (withIn memb f) f 7 memb.dom.gen 4 = true ∧ leAt (f.payload.drop 16) 0 4 % 2 = 1) ∧
    (let f := inf { hdr with op := 3, src := 5 } ([7, 0, 5, 0] ++ leBytes 8 9 ++ leBytes 4 1 ++ List.replicate 4 0);
      (advanceChord (ctlOut (withIn memb f)) f.hdr.src).isSome = true) ∧
    fwActs memb = true ∧ fwActs { memb with hub := { memb.hub with run := .halted } } = false ∧ memb.dom.chordWin = none ∧
    take up 0 (pkt .chordRekey [0x00010005#32]) = true ∧ up.dom.member = false :=
  by and_intros <;> decide +kernel

/-- ContextsAndQueues: a slot with a grant, with and without a context, a locked partition, windows, queues and owned key IDs. -/
theorem test_witness_contexts_and_queues :
    opens (withPart up prt) drv (cxOff 0 4) = true ∧ cmdIgnored (withPart up prt) 0 drv = false ∧ slotPart (withPart up prt) 0 = some 0 ∧
      slotCtx (withPart up prt) 0 = none ∧
    cmdIgnored up 63 drv = true ∧ cmdIgnored (withPart up { prt with tdisp := 1 }) 0 drv = true ∧
    ((slotCtx work 0).isSome = true ∧ ctxAt work 0 = some cx ∧ cx.faulted = false ∧ ctxRuns work 0 none = false ∧
      cx.queues.any (fun q => q.2.enabled && q.2.head != q.2.tail) = true) ∧
    (prt.pasids.contains 5 = true ∧ prt.pasids.contains 6 = false ∧ lowestFrom (fun c => (ctxAt up c).isNone) 4096 0 = some 0) ∧
    (let s := withCtx (withPart up prt) { cx with slot := none }; slotCtx s 0 = none ∧ ctxAt s 0 = some { cx with slot := none } ∧
      ctxAt s 4095 = none) ∧
    opens (withPart up prt) drv (ptOff 0 0x34) = true ∧ (partAt (withPart up prt) 0).tdisp = 0 ∧
    (let s := { withPart up prt with win := [(ptOff 0 0x30, 1#32)] }; (reg s (ptOff 0 0x30)).toNat ≠ 0 ∧
      (reg s (ptOff 0 0x28)).toNat < (reg s (ptOff 0 0x2C)).toNat + (reg s (ptOff 0 0x30)).toNat) ∧
    (slotCtx work 0 = some 0 ∧ opens work drv (cxOff 0 0) = true ∧ (slotPart work 0).any (fun p => (partAt work p).resetting) = false ∧
      (queueAt cx 0).enabled = true ∧ fld 0x00000F00#32 31 8 < 2 ^ (queueAt cx 0).log2 ∧ 2 ^ (queueAt cx 0).log2 ≤ fld 0x00001000#32 31 8) ∧
    opens work drv (cxOff 0 0x34) = true ∧ fld 3#32 4 0 < 4 ∧ 20 < fld 21#32 4 0 ∧ 4 ≤ fld 4#32 4 0 ∧ fld 20#32 4 0 ≤ 20 ∧
    opens work drv (cxOff 0 (0x40 + 4 * 7)) = true ∧ prt.kidBase ≤ (0x80000010#32 &&& 0x80000FFF#32).toNat % 4096 ∧
      (0x80000013#32 &&& 0x80000FFF#32).toNat % 4096 < prt.kidBase + prt.kidCount ∧
      prt.kidBase + prt.kidCount ≤ (0x80000014#32 &&& 0x80000FFF#32).toNat % 4096 ∧
    (let s := withCtx (withPart up prt) { cx with slot := none }; cmdIgnored s 0 drv = false ∧ slotCtx s 0 = none ∧ ctxAt s 0 = some { cx with slot := none } ∧
      cx.part = 0 ∧ cx.tearing = false ∧ Access.err ≠ .ok) ∧
    (let s := withCtx (withPart up prt) { cx with slot := none, part := 1 }; slotCtx s 0 = none ∧ ctxAt s 0 = some { cx with slot := none, part := 1 }) ∧
    (let s := withCtx (withPart up prt) { cx with slot := some 1 }; slotCtx s 0 = none ∧ ctxAt s 0 = some { cx with slot := some 1 }) ∧
    (let x := { cx with queues := [] }; let s := withCtx (withPart up prt) x; slotCtx s 0 = some 0 ∧ ctxAt s 0 = some x ∧ x.faulted = false ∧
      ctxRuns s 0 none = false ∧ x.queues.any (fun q => q.2.enabled && q.2.head != q.2.tail) = false) ∧
    (let s := withPart up { prt with resetting := true }; (slotPart s 0).any (fun p => (partAt s p).resetting) = true) ∧
    (let s := withPart up prt; opens s drv (cxOff 0 0) = true ∧ (slotPart s 0).any (fun p => (partAt s p).resetting) = false ∧ slotCtx s 0 = none) ∧
    (cx.stopped = false ∧ (partAt work cx.part).tdisp ≠ 1 ∧ (queueAt cx 1).enabled = false ∧ wbit 0x104#32 8 = true ∧ wbit 4#32 8 = false ∧
      (queueAt { cx with queues := [(0, { Queue.off with enabled := true })] } 0).head = (queueAt { cx with queues := [(0, { Queue.off with enabled := true })] } 0).tail) ∧
    (wbit 0x80000010#32 31 = true ∧ wbit 0x10#32 31 = false) :=
  by and_intros <;> decide +kernel

/-- DispatcherRuns. -/
theorem test_witness_dispatcher_runs :
    fetchable work 0 0 = true ∧ dispatchOpen work = true ∧ ctxAt work 0 = some cx ∧ fetchable work 0 255 = false ∧
    (candidates work = [] ∧ ((candidates (fetched 9 [])).insertionSort (fun a b => candRank (fetched 9 []) a ≤ candRank (fetched 9 []) b)).length = 1 ∧
      (tryStart (quiet (fetched 9 [])) 1 .ok).isSome = true) ∧
    descAt (withDesc work { dsc 9 [] .done with irq := true }) 1 = some { dsc 9 [] .done with irq := true } ∧ cx.slot = some 0 ∧
    ((∀ p ∈ up.parts.part, p.2.live = false) ∧ (withPart up prt).parts.part = [(0, prt)] ∧ prt.live = true) ∧
    (dsc 9 [] .fetched).phase ≠ .done ∧ (let s := fetched 9 []; turns s = [] ++ (turns s).headD { part := 0, slot := 0, queue := 0, prio := 0, desc := 0 } :: [] ∧ dispatchUp s = true) ∧
    (let s := withDesc work (dsc 8 (raw 8 []) .fetched); let t := { s with fab := { s.fab with waits := List.replicate 4096 ({ desc := 9, part := 0, addr := 0, threshold := 0, until_ := none, expired := false } : Wait) } };
      (turns s).length = 1 ∧ (tryStart (quiet s) 1 .ok).isSome = true ∧ t.fab.waits ≠ []) ∧
    (tget work.upd.cadDue 1 = none ∧ ctxAt work 0 = some cx ∧ cx.slot = some 0) ∧
    (2 / 8 ≠ 1 ∧ 1 ≤ 6) :=
  by and_intros <;> decide +kernel

/-- FabricAndEpochWork: a descriptor of each opcode that starts. -/
theorem test_witness_fabric_and_epoch_work :
    (go 1 [(16, 8, 4 * 2 ^ 48), (24, 8, 128), (36, 1, 30)] = true ∧
      lowestFrom (fun e => (tget (fetched 1 []).fab.copies e).isNone) 32 0 = some 0) ∧
    (let k : Copy := { desc := 1, src := 0, dst := 0, vertex := 4, len := 128, beats := 1, kid := 0, serial := 0, arrival := 0, arrivalEn := false, next := 1, out := 1, bad := none, poisoned := false, okN := 0, ready := [(0, [])], squash := false };
      let s := { withDesc work (dsc 1 [] .running) with fab := { work.fab with copies := [(31, k)] } }; tget s.fab.copies 31 = some k ∧
      k.ready = (0, []) :: [] ∧ descAt s 1 = some (dsc 1 [] .running) ∧ clkRuns s = true ∧ ownVertex s 4 = false) ∧
    go 7 [(8, 2, 4), (16, 6, 0), (24, 8, 1)] = true ∧ subTaken work 0 4 0 = false ∧ ownVertex work 4 = false ∧
    subTaken (withStage work { stg with outV := 4 }) 0 4 2 = true ∧
    (go 6 [] = true ∧ coreCtx work 5 = some 0 ∧ work.fab.fences.countP (fun f => f.ctx == 0) < 15) ∧
    (15 ≤ ({ work with fab := { work.fab with fences := List.replicate 15 ({ desc := 1, ctx := 0, epoch := 0, scope := 0, vertex := 0 } : Machine.Fence) } }).fab.fences.countP (fun (f : Machine.Fence) => f.ctx == 0)) ∧
    go 8 [] = true ∧ work.fab.waits.length < 4096 ∧
    go 9 [] = true ∧
    (let w : Wait := { desc := 1, part := 0, addr := 0, threshold := 1, until_ := some 5, expired := false };
      ({ work with fab := { work.fab with waits := [w] } }).fab.waits.find? (fun w => w.desc == 1) = some w ∧ 0 % 2 ^ 64 < w.threshold ∧
      w.threshold ≤ 1 % 2 ^ 64) ∧
    (let x := dsc 4 (raw 4 [(8, 4, 16)]) .fetched; let s := withDesc (withRegion work rgn) x; starts s 1 x 4 = true ∧
      regionAt s (leAt x.raw 8 2 % 4096) = some rgn ∧ rgn.epoch < 0xFFFFFFFF) ∧
    (let x := dsc 4 (raw 4 [(8, 4, 16)]) .fetched;
      ∀ r ∈ [{ rgn with kind := 1 }, { rgn with authority := false }, { rgn with epoch := 0xFFFFFFFF }], starts (withDesc (withRegion work r) x) 1 x 4 = true) ∧
    (let x := dsc 5 (raw 5 [(8, 4, 16), (12, 4, 2)]) .fetched; let r := { rgn with authority := false };
      let s := withDesc (withRegion work r) x; starts s 1 x 5 = true ∧ regionAt s (leAt x.raw 8 2 % 4096) = some r ∧
      r.epoch < leAt x.raw 12 4) ∧
    go 10 [] = true ∧
    (let x := dsc 10 (raw 10 [(12, 4, 1)]) .fetched; let y := { dsc 1 [] .running with index := 1 };
      let s := { work with parts := { work.parts with desc := [(1, y), (2, x)] } }; starts s 2 x 10 = true ∧
      s.parts.desc.filter (fun z => z.2.ctx == 0 && z.2.queue == 0 && z.2.index == 1) = [(1, y)] ∧ descAt s 1 = some y ∧
      y.user = leAt x.raw 16 4) ∧
    (let k : Copy := { desc := 1, src := 0, dst := 0, vertex := 3, len := 128, beats := 1, kid := 0, serial := 0, arrival := 64, arrivalEn := true, next := 1, out := 1, bad := none, poisoned := false, okN := 0, ready := [(0, [])], squash := false };
      chunkStale work k = false ∧ ownVertex work k.vertex = true ∧ ¬ (k.kid ≠ 0 ∧ (regionAt work k.kid).any (fun r => r.kind == 2) = true) ∧
      chunkStale work { k with kid := 16 } = true ∧ chunkStale (withRegion work { rgn with serial := 1 }) { k with kid := 16 } = true ∧
      chunkStale (withRegion work rgn) { k with kid := 16 } = false ∧ regionAt (withRegion work rgn) 16 = some rgn ∧ rgn.epoch < 0xFFFFFFFF ∧
      clkRuns { work with aon := { work.aon with clkPhase := .acked } } = false) ∧
    go 7 [(8, 2, 3), (16, 6, 0), (24, 8, 1)] = true ∧ ownVertex work 3 = true ∧ subTaken work 0 3 0 = false ∧
    (let x := dsc 7 (raw 7 [(8, 2, 6), (10, 1, 2)]) .fetched; let s := withStage (withDesc work x) stg; starts s 1 x 7 = true ∧ subTaken s 0 6 2 = true) ∧
    (∀ c ∈ fenceCtxs (fetched 6 []) 0 5, (fetched 6 []).fab.fences.countP (fun f => f.ctx == c) < 15) ∧
    (let s := { fetched 6 [] with fab := { work.fab with fences := List.replicate 15 ({ desc := 9, ctx := 0, epoch := 0, scope := 0, vertex := 0 } : Machine.Fence) } };
      starts s 1 (dsc 6 (raw 6 []) .fetched) 6 = true ∧ ∀ c ∈ fenceCtxs s 0 5, 15 ≤ s.fab.fences.countP (fun f => f.ctx == c)) ∧
    (let w : Wait := { desc := 1, part := 0, addr := 0, threshold := 1, until_ := some 5, expired := true };
      let s := { work with fab := { work.fab with waits := [w] } }; s.fab.waits.find? (fun w => w.desc == 1) = some w ∧ w.expired = true ∧
      s.fab.waits.find? (fun w => w.desc == 1 && w.until_.isSome && !w.expired) = none) ∧
    (let w : Wait := { desc := 1, part := 0, addr := 0, threshold := 1, until_ := some 5, expired := false };
      let s := { work with fab := { work.fab with waits := [w] } }; s.fab.waits.find? (fun w => w.desc == 1 && w.until_.isSome && !w.expired) = some w) ∧
    (let x := dsc 5 (raw 5 [(8, 4, 16), (12, 4, 1)]) .fetched; let s := withDesc (withRegion work rgn) x; starts s 1 x 5 = true ∧ rgn.kind = 2 ∧ leAt x.raw 12 4 = rgn.epoch) ∧
    (let x := dsc 10 (raw 10 [(12, 4, 1)]) .fetched;
      ∀ ph ∈ [DescPhase.fetched, .running, .done, .squashed], ∀ u ∈ [0, 9], let y := { dsc 1 [] ph with index := 1, user := u };
        let s := { work with parts := { work.parts with desc := [(1, y), (2, x)] } };
        (starts s 2 x 10 = true ∨ ph = .fetched) ∧ s.parts.desc.filter (fun z => z.2.ctx == 0 && z.2.queue == 0 && z.2.index == 1) = [(1, y)] ∧ descAt s 1 = some y) :=
  by and_intros <;> decide +kernel

/-- ReductionStarts. -/
theorem test_witness_reduction_starts :
    (let x := dsc 2 (raw 2 [(8, 8, 1), (20, 1, 16), (23, 1, 1), (24, 2, 4), (38, 2, 5), (21, 1, 1), (22, 1, 2)]) .fetched;
      let s := withDesc (withCtx (withPart memb { prt with ports := 1 }) cx) x; starts s 1 x 2 = true ∧
      reduceCheck s x.raw (stageOf 0 0 x.raw) = none ∧ (stageOf 0 0 x.raw).update = false ∧
      slotsUsed s 0 + stageSlots (stageOf 0 0 x.raw) ≤ 64 ∧ s.red.parked = []) ∧
    go 2 [] = true ∧ (reduceCheck work (raw 2 []) (stageOf 0 0 (raw 2 []))).isSome = true ∧
    (let f := (fun (k : Nat) => inf { hdr with op := 4, src := 4, stream := streamNo 1 0 129 } ([BitVec.ofNat 8 k, 0, 0, 0] ++
      leBytes 4 7 ++ List.replicate 24 0)) 1; ctlFrame f 1 = true ∧ f.payload.length = 32 ∧ leAt f.payload 0 1 = 1 ∧
      stageBelow memb f.hdr.src f.hdr.stream = none ∧ stageBelow (withStage memb stg) f.hdr.src f.hdr.stream = some (1, stg) ∧
      leAt f.payload 4 4 = stg.xfer ∧ tget (withStage memb stg).red.stages 1 = some stg ∧ leAt f.payload 24 8 ≠ stg.elements) ∧
    (let f := (fun (k : Nat) => inf { hdr with op := 4, src := 6, stream := streamNo 1 0 130 } ([BitVec.ofNat 8 k, 0, 0, 0] ++
      leBytes 4 7 ++ List.replicate 24 0)) 2; ctlFrame f 2 = true ∧ stageAbove memb f.hdr.src f.hdr.stream = none ∧
      stageAbove (withStage memb stg) f.hdr.src f.hdr.stream = some (1, stg) ∧ echoes stg f.payload = true) ∧
    (let f := (fun (k : Nat) => inf { hdr with op := 4, src := 6, stream := streamNo 1 0 130 } ([BitVec.ofNat 8 k, 0, 0, 0] ++
      leBytes 4 7 ++ List.replicate 24 0)) 4; ctlFrame f 4 = true ∧
      stageAbove (withStage memb stg) f.hdr.src f.hdr.stream = some (1, stg) ∧ stg.ready = false ∧ stg.busyWait = false ∧
      ({ stg with busyWait := true }).busyWait = true) ∧
    (let f := inf { hdr with op := 4, src := 4, stream := streamNo 1 0 0x81 } []; ctlFrame f 1 = true ∧ f.payload.length ≠ 32) ∧
    (let x := dsc 2 (raw 2 [(8, 8, 1), (20, 1, 16), (23, 1, 4), (24, 2, 4), (21, 1, 1), (48, 4, 7)]) .fetched;
      let s := withDesc (withCtx (withPart memb { prt with ports := 1 }) cx) x; starts s 1 x 2 = true ∧
      reduceCheck s x.raw (stageOf 0 0 x.raw) = none ∧ (stageOf 0 0 x.raw).update = true ∧ fuseAt s 0 ((stageOf 0 0 x.raw).outAddr % 2 ^ 32) = none ∧
      s.upd.fuses.length < 16 ∧ slotsUsed s 0 + stageSlots (stageOf 0 0 x.raw) ≤ 64 ∧ s.red.parked = [] ∧
      let t := { s with upd := { s.upd with fuses := List.replicate 16 ({ part := 0, tag := 1, red := some 9, upd := none, discard := false } : Fuse) } };
      starts t 1 x 2 = true ∧ fuseAt t 0 7 = none ∧ 16 ≤ t.upd.fuses.length ∧ reduceCheck t x.raw (stageOf 0 0 x.raw) = none) ∧
    (let x := dsc 2 (raw 2 [(8, 8, 1), (20, 1, 32), (23, 1, 1), (24, 2, 4), (26, 2, 7), (38, 2, 5), (21, 1, 1), (22, 1, 2)]) .fetched;
      let g : Stage := { stg with part := 1, localEn := true, inputs := List.replicate 4 { vertex := 4, binds := [], frames := [] } };
      let s := { withDesc (withCtx (withPart memb { prt with ports := 1 }) cx) x with red := { memb.red with stages := [(9, g)] } };
      starts s 1 x 2 = true ∧ reduceCheck s x.raw (stageOf 0 0 x.raw) = none ∧ 64 < slotsUsed s 0 + stageSlots (stageOf 0 0 x.raw)) ∧
    (let f := inf { hdr with op := 4, src := 4, stream := streamNo 1 0 129 } ([1#8, 0, 0, 0] ++ leBytes 4 7 ++ List.replicate 16 0 ++ leBytes 8 1);
      ctlFrame f 1 = true ∧ f.payload.length = 32 ∧ stageBelow (withStage memb stg) f.hdr.src f.hdr.stream = some (1, stg) ∧ leAt f.payload 1 1 = stg.inFmt ∧
      leAt f.payload 2 1 = stg.op ∧ leAt f.payload 24 8 = stg.elements) ∧
    tget memb.red.stages 1 = none ∧ tget (withStage memb { stg with busyWait := true }).red.stages 1 = some { stg with busyWait := true } :=
  by and_intros <;> decide +kernel

/-- ReductionRuns. -/
theorem test_witness_reduction_runs :
    (let x := dsc 2 [] .running; descAt (withStage (withDesc work x) stg) 1 = some x ∧
      tget (withStage (withDesc work x) stg).red.stages 1 = some stg ∧ work.upd.fuses = []) ∧
    (let f := inf { hdr with op := 4, src := 4, stream := streamNo 1 0 1 } (List.replicate 4 0); dataFrame f = true ∧
      stageFor memb f.hdr = none ∧ memb.red.aborted.contains (f.hdr.src, f.hdr.stream) = false) ∧
    (let b : Bind := { par := true, baseSeq := 0, first := 0 }; let i : StageIn := { vertex := 4, binds := [b], frames := [] };
      let g := { stg with inputs := [i] }; let f := inf { hdr with op := 4, src := 4, stream := streamNo 1 0 1 } (List.replicate 4 0);
      let n := f.seqN - b.baseSeq + b.first; stageFor (withStage memb g) f.hdr = some (1, g, i, b) ∧ i.frames.length < 8 ∧
      b.baseSeq ≤ f.seqN ∧ n < stageFrames g g.inFmt ∧ tget i.frames n = none ∧ (chunkFrames g g.inFmt g.next).1 ≤ n ∧
      frameBytes g g.inFmt n ≤ f.payload.length) ∧
    (let f := (fun (k : Nat) => inf { hdr with op := 4, src := 4, stream := streamNo 1 0 129 } ([BitVec.ofNat 8 k, 0, 0, 0] ++
      leBytes 4 7 ++ List.replicate 24 0)) 3; ctlFrame f 3 = true ∧ stageBelow memb f.hdr.src f.hdr.stream = none ∧
      stageAbove memb f.hdr.src f.hdr.stream = none ∧ stageBelow (withStage memb stg) f.hdr.src f.hdr.stream = some (1, stg)) ∧
    stg.update = false ∧ chunkReady stg = false ∧
    (let i : StageIn := { vertex := 4, binds := [], frames := [(0, [0, 0, 128, 63])] };
      let g := { stg with inputs := [i], order := [(0, 0)] }; let r := (chunkOperands g g.next).map (elemResult g); chunkReady g = true ∧
      chunkCheck g g.next (chunkOperands g g.next) (upset r none) = 0 ∧
      chunkCheck g g.next (chunkOperands g g.next) (upset r (some (0, 0x40000000))) ≠ 0) ∧
    (let g := { stg with localEn := true, inputs := [], locals_ := [(0, ([], 1))] }; chunkReady g = true ∧
      (chunkLocals g g.next).any (fun i => (tgetD g.locals_ i ([], 0)).2 != 0) = true) ∧
    (let g := { stg with next := 1, frame := 1 }; stageOver (withStage work g) 1 g = true ∧ stageOver (withStage work stg) 1 stg = false) ∧
    fld (reg { up with win := [(0x30000, 0xFFFFFF#32)] } 0x30000) 23 0 ≠ 0 ∧
      fld (reg { up with win := [(0x30000, 0#32)] } 0x30000) 23 0 = 0 ∧
    ({ memb with red := { memb.red with aborted := [(4, streamNo 1 0 1)] } }).red.aborted.contains (4, streamNo 1 0 1) = true ∧
    (let b : Bind := { par := true, baseSeq := 0, first := 0 };
      let i : StageIn := { vertex := 4, binds := [b], frames := (List.range 8).map (fun n => (n, [])) };
      let g := { stg with inputs := [i] }; let f := inf { hdr with op := 4, src := 4, stream := streamNo 1 0 1 } (List.replicate 4 0);
      stageFor (withStage memb g) f.hdr = some (1, g, i, b) ∧ 8 ≤ i.frames.length) ∧
    (let b : Bind := { par := true, baseSeq := 1, first := 0 }; let i : StageIn := { vertex := 4, binds := [b], frames := [] };
      let g := { stg with inputs := [i] }; let f := inf { hdr with op := 4, src := 4, stream := streamNo 1 0 1 } (List.replicate 4 0);
      stageFor (withStage memb g) f.hdr = some (1, g, i, b) ∧ i.frames.length < 8 ∧ f.seqN < b.baseSeq) ∧
    clkRuns memb = true ∧ clkRuns { memb with aon := { memb.aon with clkPhase := .acked } } = false ∧
    (let g := { stg with localEn := true, inputs := [], locals_ := [(0, ([0, 0, 128, 63], 1))] }; chunkReady g = true ∧ (g.localEn && localPoison g g.next) = true) ∧
    tget memb.red.stages 1 = none ∧
    (let g := { stg with next := 1, frame := 1 }; let x := dsc 2 [] .running; descAt (withStage (withDesc work x) g) 1 = some x ∧
      stageOver (withStage (withDesc work x) g) 1 g = true) :=
  by and_intros <;> decide +kernel

/-- UpdateStarts. -/
theorem test_witness_update_starts :
    go 3 [] = true ∧ (updCheck (fetched 3 []) 0 (raw 3 []) .ok).isSome = true ∧ tget work.upd.runs 1 = none ∧
    fuseOf up 1 = none ∧ let f : Fuse := { part := 0, tag := 1, red := some 1, upd := none, discard := false };
      fuseOf { up with upd := { up.upd with fuses := [f] } } 1 = some f ∧
    (let f : Fuse := { part := 0, tag := 1, red := some 2, upd := some 1, discard := false };
      let s := { withStage (withUpd up upd) stg with upd := { (withUpd up upd).upd with fuses := [f] }, red := { up.red with stages := [(2, stg)] } };
      fuseOf s 1 = some f ∧ tget s.red.stages 2 = some stg ∧ tget s.upd.runs 1 = some upd ∧ upd.bound = false ∧
      stg.elements ≠ pgdN upd.pgd ∧ ({ stg with elements := 0 }).elements = pgdN upd.pgd) ∧
    fld (reg { up with win := [(0x30000, 0xFFFFFF#32)] } 0x30000) 23 0 ≠ 0 ∧
    (let fs := [(8, 8, 2)]; let s := updW (pgd1 1 0 0) fs; starts s 1 (dsc 3 (raw 3 fs) .fetched) 3 = true ∧ updCheck s 0 (raw 3 fs) .ok = none ∧
      pgdStep (pgdAt s 0 0) + 1 ≠ 2 ∧ leAt (raw 3 fs) 28 4 = 0 ∧ tget s.upd.runs 1 = none) ∧
    (let fs := [(8, 8, 1), (18, 1, 1), (32, 8, 8)]; let s := updW (pgd1 18 0 0) fs; starts s 1 (dsc 3 (raw 3 fs) .fetched) 3 = true ∧
      updCheck s 0 (raw 3 fs) .ok = none ∧ pgdStep (pgdAt s 0 0) + 1 = 1 ∧ pgdFrozen (pgdAt s 0 0) = true) ∧
    (let fs := [(8, 8, 1), (28, 4, 7)]; let s := updW (pgd1 1 1 0) fs; starts s 1 (dsc 3 (raw 3 fs) .fetched) 3 = true ∧
      updCheck s 0 (raw 3 fs) .ok = none ∧ pgdStep (pgdAt s 0 0) + 1 = 1 ∧ pgdFrozen (pgdAt s 0 0) = false ∧ fuseAt s 0 7 = none ∧ s.upd.fuses.length < 16 ∧
      updRunning s < 4 ∧ pgdSrc (pgdAt s 0 0) = 1 ∧ leAt (raw 3 fs) 18 1 ≠ 2) ∧
    (let fs := [(8, 8, 1)]; let s := updW (pgd1 1 0 0) fs; let t := { s with upd := { s.upd with runs := (List.range 4).map (fun i => (i + 2, { upd with group := 9 })) } };
      starts t 1 (dsc 3 (raw 3 fs) .fetched) 3 = true ∧ updCheck t 0 (raw 3 fs) .ok = none ∧ 4 ≤ updRunning t ∧ tget t.upd.runs 1 = none) ∧
    (let f : Fuse := { part := 0, tag := 1, red := none, upd := some 1, discard := false };
      let s := { withUpd up upd with upd := { (withUpd up upd).upd with fuses := [f] } }; fuseOf s 1 = some f ∧ tget s.upd.runs 1 = some upd ∧ upd.bound = false) :=
  by and_intros <;> decide +kernel

/-- UpdateRuns. -/
theorem test_witness_update_runs :
    tget up.upd.runs 1 = none ∧ tget (withUpd up upd).upd.runs 1 = some upd ∧ tget upd.tiles upd.doneT = none ∧
    (let x : TileIn := { pages := [(0, []), (1, []), (2, [])], grad := some [], poisoned := false };
      let u := { upd with tiles := [(0, x)] }; tget u.tiles u.doneT = some x ∧ u.running = true ∧ tileReady u x = true ∧
      (tileIns u u.doneT x).countP (fun i => gradBad u i.2.2.2) = 0 ∧ ({ x with poisoned := true }).poisoned = true) ∧
    tileReady upd { pages := [], grad := none, poisoned := false } = false ∧
    (let u := { upd with phase := 2, pass := 1 }; updOver up 1 u = true ∧ u.phase ≠ 1 ∧ updOver up 1 upd = false) ∧
    up.upd.cadence = [] ∧ isMember up = false ∧
    (let s := { memb with upd := { memb.upd with cadence := [[]] } }; s.upd.cadence ≠ [] ∧ isMember s = true ∧ s.dom.policy = some pol ∧
      pol.manager ≠ 0xFFFF) ∧
    (let x : TileIn := { pages := [(0, []), (1, []), (2, [])], grad := some [], poisoned := false };
      let u := { upd with pgd := pgd1 1 0 0, pass := 1 }; tileReady u x = true ∧ (tileIns u 0 x).countP (fun i => gradBad u i.2.2.2) = 0 ∧
      (match runSlices u 8 (tileIns u 0 x) 0 (some (0, 0x7F800000)) (some (0, 0x7F800000)) [] 0 with | .bad same n => same && n == 1 | .ok _ _ => false) = true) ∧
    clkRuns up = true ∧ (let x := dsc 3 [] .running; let u := { upd with phase := 2, pass := 1 }; descAt (withUpd (withDesc work x) u) 1 = some x ∧
      updOver (withUpd (withDesc work x) u) 1 u = true) :=
  by and_intros <;> decide +kernel

/-- PartsRotate. -/
theorem test_witness_parts_rotate :
    (portOk up 7 = true ∧ portOk up 8 = false ∧ nextGood 36 (tgetD up.ladder.rotAes 15 0) (fun p => isMapped up (.aes 7 true p)) = some 0) ∧
    (575 / 64 = ({ up with ladder := { up.ladder with rotAdder := [(7, 8)] } }).ladder.rotAdder.length + 7 ∧
      isMapped up (.adder 7 575) = false) ∧
    (nextGood 160 159 (fun p => isMapped up (.msPipe p)) = some 159) ∧
    (nextGood 160 0 (fun _ => true) = none) ∧
    engUp up = true ∧ up.aon.alarms.length < 256 ∧ (∀ l ∈ [64 * 8, 575], l / 64 = 8 ∧ isMapped up (.adder 7 l) = false) :=
  by and_intros <;> decide +kernel

/-- TandemMirror: a synchronised owner and standby, a pair that is not, and one that synchronises. -/
theorem test_witness_tandem_mirror :
    opens (pair_ true) drv 0xF000C = true ∧ mirrorMode (pair_ true) = true ∧ (pair_ true).td.synced = true ∧
    (let s := { pair_ true with td := { (pair_ true).td with synced := false } }; s.td.synced = false ∧ s.td.syncing = false) ∧
    mirrorMode up = false ∧ engUp up = true ∧
    mirrorMode (pair_ false) = true ∧ (pair_ false).td.owner = false ∧ (pair_ false).td.fenceOut = false ∧ carries (.root 16 0) = true ∧
    ({ pair_ true with td := { (pair_ true).td with syncing := true } }).td.syncing = true ∧
    up.aon.porN = true ∧ (pair_ true).aon.stage = 6 ∧ (pair_ true).td.owner = true ∧ (pair_ true).td.alive = true ∧
    (let s := { pair_ false with td := { (pair_ false).td with syncing := true, synced := false } }; s.td.owner = false ∧ s.td.syncing = true) ∧
    (let s := { pair_ false with td := { (pair_ false).td with synced := false } }; s.td.owner = false ∧ s.td.syncing = false ∧ s.td.synced = false) ∧
    up.aon.alarms.length < 256 :=
  by and_intros <;> decide +kernel

/-- Takeover. -/
theorem test_witness_takeover :
    (let s := { pair_ false with td := { (pair_ false).td with silent := true } }; engUp s = true ∧ isStandby s = true ∧
      s.td.synced = true ∧ s.td.silent = true ∧ s.fab.tags = [] ∧ s.aon.alarms.length < 256) ∧
    isStandby up = false ∧ (pair_ false).td.silent = false ∧
    take (pair_ true) 0 (pkt .tandemFailover []) = true ∧ (pair_ true).td.syncing = false ∧ mirrorMode (pair_ true) = true ∧
      (pair_ true).td.owner = true ∧
    take up 0 (pkt .tandemFailover []) = true ∧ mirrorMode up = false ∧
    take (pair_ false) 0 (pkt .tandemFailover []) = true ∧
    (let s := { pair_ true with hub := { up.hub with bg := [{ src := 0, op := .tandemFailover, holds := [] }] } }; mirrored s = true) ∧
    (let s := { pair_ true with td := { (pair_ true).td with modeActive := 1 } }; s.tandemEn = true ∧ s.td.modeActive = 1) ∧
    (let s := { pair_ true with td := { (pair_ true).td with outHeld := true } }; s.td.outHeld = true ∧ s.aon.haltReq = false ∧
      s.tandemId = (false || !true) ∧ s.tandemId ≠ (true || !false)) ∧
    (let s := { pair_ false with td := { (pair_ false).td with silent := true } }; (∀ x ∈ ([(.takeover, 5), (.handoverRx 3, 3 % 16)] : List (Instr × Nat)),
      (x.1 = .takeover → s.td.silent = true))) ∧
    (let s := { pair_ true with td := { (pair_ true).td with syncing := true } }; take s 0 (pkt .tandemFailover []) = true ∧ s.td.syncing = true) ∧
    ((pair_ false).td.owner = false ∧ (pair_ false).td.synced = true ∧ (pair_ false).td.syncing = false ∧ mirrorMode (pair_ false) = true) ∧
    (let x := dsc 2 [] .running; descAt (withDesc (pair_ false) x) 1 = some x ∧ x.phase = .running) ∧
    fwActs up = true ∧ fwActs { up with hub := { up.hub with run := .halted } } = false ∧
    (up.tandemEn = false ∧ up.td.outHeld = false ∧ up.aon.porN = true) :=
  by and_intros <;> decide +kernel

/-- AlarmActions. -/
theorem test_witness_alarm_actions :
    opens up drv 0x5008 = true ∧ opens up drv 0x5004 = true ∧ up.aon.haltReq = false ∧
    unitOk up 0x1A = true ∧ unitOk up 0x1B = false ∧ unitOk up 0x17 = true ∧ up.hub.run = .running ∧
    (slotAt up 16).gen < 0xFFFFFFFF ∧
    (let x := dsc 2 [] .running; descAt (withStage (withDesc work x) stg) 1 = some x) ∧
    (let i : StageIn := { vertex := 4, binds := [], frames := [(0, [0, 0, 128, 63])] }; let s := withStage up { stg with inputs := [i], order := [(0, 0)] };
      unitOk s 0 = true ∧ unitPending s 0 = true ∧ s.aon.stage = 6 ∧ s.aon.alarms.length < 256) ∧
    unitPending up 0 = false ∧ up.upd.fuses = [] :=
  by and_intros <;> decide +kernel

/-- ResetLadder. -/
theorem test_witness_reset_ladder :
    nextReset (withRst up (rst 1 0 0)) = some (rst 1 0 0) ∧ l1Recent up 0 < 4 ∧ unspared up 0 [] = false ∧
    4 ≤ l1Recent { up with ladder := { up.ladder with l1Times := List.replicate 4 (7, 0) } } 7 ∧
    nextReset (withRst up (rst 2 0 7)) = some (rst 2 0 7) ∧
    opens up drv 0x5044 = true ∧ resetBusy up = false ∧ portOk up 7 = true ∧ resetBusy (withRst up (rst 2 0 7)) = true ∧
    (let s := withLane { Lane.down with up := true }; (lanesOf 0).any (fun k => (laneAt s k).cause == 0 && (laneAt s k).up) = true ∧
      ({ s with ladder := { s.ladder with isoAuto := [0] } }).ladder.isoAuto.contains 0 = true ∧ up.ladder.isoAuto.contains 0 = false) ∧
    (let q := { rst 3 0 0 with step := 2 }; nextReset (withRst up q) = some q ∧ (lcScan (withRst up q)).2 = none) ∧
    (withRst up { rst 3 0 0 with done := true }).ladder.queue = { rst 3 0 0 with done := true } :: [] ∧ up.aon.stage = 6 ∧
      up.ladder.queue = [] ∧
    unspared up 0 ((List.range 65).map (fun l => Part.adder 0 l)) = true ∧ l1Recent up 7 < 4 ∧
    (let q := rst 3 0 0; nextReset (withRst up q) = some q ∧ q.step = 0 ∧ noticeOut (beginL3 (quiet (withRst lead q)) q) = true) ∧
    (let q := { rst 3 0 0 with step := 1 }; let h : HotLine := { kid := 16, line := 0, data := [], last := 0, wb := true, again := false };
      let s := { withRst (withRegion up { rgn with kind := 1 }) q with fab := { up.fab with hot := [h] } }; nextReset s = some q ∧ q.step = 1 ∧
      (stopL3 (quiet s) q).fab.hot ≠ []) ∧
    up.aon.porN = true ∧ up.aon.rstN = true ∧ up.aon.haltReq = false ∧ up.ladder.late = [] ∧
    (withRst up (rst 2 0 7)).ladder.queue = rst 2 0 7 :: [] ∧ (rst 2 0 7).done = false ∧ (rst 2 0 7).level ≠ 3 ∧
    ({ up with ladder := { up.ladder with late := [(0, 3)] } }).ladder.late = [(0, 3)] :=
  by and_intros <;> decide +kernel

/-- ResetCommandIgnored: each of its cases at a boundary. -/
theorem test_witness_reset_command_ignored :
    opens up drv 0x5044 = true ∧
    fld 0#32 2 0 = 0 ∧ 5 ≤ fld 5#32 2 0 ∧ 5 ≤ fld 7#32 2 0 ∧
    fld 0x1B01#32 2 0 = 1 ∧ unitOk up (fld 0x1B01#32 12 8) = false ∧
    (let s := { up with size := .tvd16 }; opens s drv 0x5044 = true ∧ fld 0x70002#32 2 0 = 2 ∧ portOk s (fld 0x70002#32 18 16) = false ∧
      fld 0x70003#32 2 0 = 3) ∧
    opens (withRst up (rst 1 0 0)) drv 0x5044 = true ∧ resetBusy (withRst up (rst 1 0 0)) = true :=
  by decide

/-- LifeCycle. -/
theorem test_witness_life_cycle :
    opens up drv 0x4004 = true ∧ opens up drv 0x4028 = true ∧ up.otp.busy = none ∧ up.otp.phase = 0 ∧
    (lcOf (fld 4#32 3 0)).bind (lcAllowed up.otp.lc) = none ∧ (lcOf (fld 6#32 3 0)).bind (lcAllowed up.otp.lc) = some true ∧
      (lcOf (fld 7#32 3 0)).bind (lcAllowed up.otp.lc) = some false ∧ nextPair up < 32 ∧
    nextPair { up with otp := { up.otp with fuse := [(62, 1#32)] } } = 32 ∧
    tokenError up 8 = some 2 ∧ tokenError { up with otp := { up.otp with wrongTokens := 3 } } 0 = some 2 ∧
      tokenError { up with otp := { up.otp with fuse := [(0x40, 1#32)] } } 0 = some 3 ∧
    otpReadable 0xBF = true ∧ otpReadable 0xC0 = false ∧ otpReadable 0xD0 = true ∧ otpReadable 0xE0 = false ∧ otpReadable 0xE1 = true ∧
      otpProgrammable .manuf 0x300 = true ∧ otpProgrammable .manuf 0x3C0 = false ∧
    (let b : OtpWrite := { word := 0x300, val := 3, retried := false };
      ({ up with otp := { up.otp with busy := some b } }).otp.busy = some b ∧
      fuseW (blow up 0x300 (3 &&& b.val)) 0x300 &&& b.val = b.val ∧ fuseW (blow up 0x300 (1 &&& b.val)) 0x300 &&& b.val ≠ b.val) ∧
    (lcOf (fld 7#32 3 0)).bind (lcPermits up) = some false ∧ (lcOf (fld 6#32 3 0)).bind (lcPermits up) = some true ∧
    (lcOf (fld 4#32 3 0)).bind (lcPermits up) = none ∧ wbit 0x107#32 8 = true ∧ wbit 7#32 8 = false ∧
    ({ up with otp := { up.otp with phase := 1 } }).otp.phase = 1 ∧ isMember memb = true ∧ memb.dom.vertex.isSome = true ∧
    (let s := { up with aon := { up.aon with stage := 15 }, otp := { up.otp with lc := .manuf, fuse := [(0xC0, 1#32), (0xD1, 1#32)] } };
      s.aon.stage = 15 ∧ s.otp.lc = .manuf ∧ noBank s = true) ∧
    (let b : OtpWrite := { word := 0x300, val := 3, retried := true };
      fuseW (blow up 0x300 (1 &&& b.val)) 0x300 &&& b.val ≠ b.val ∧ b.retried = true) :=
  by and_intros <;> decide +kernel

/-- Registers: accesses that are open, refused and not taken. -/
theorem test_witness_registers :
    closed up { priv := false, pasid := 5 } 0x5004 = true ∧ opens up drv 0x5004 = true ∧
      regOpen { up with aon := { up.aon with stage := 3 } } = false ∧
    wbit (rwMask 0x30008) 5 = true ∧ rwMask 0x30004 = 0 ∧ wbit (w1cMask 0x30004) 5 = true ∧ wbit (rwMask 0x30008) 6 = false ∧
    opens up drv 0x5050 = true ∧ isRc 0x5050 = true ∧ isCaptured 0x5050 = false ∧
    opens up drv 0x18 = true ∧ 0x1C ∈ captures 0x18 ∧ isRc 0x18 = false ∧
    opens up drv 0x1A010 = true ∧ 1 ≤ fld 1#32 3 0 ∧ fld 0x10#32 3 0 = 0 ∧ opens up drv 0x30008 = true ∧ opens up drv 0 = true ∧
      regBlk 0 = .ident ∧ opens up drv 0x20100 = true ∧
    opens up drv (lpOff 7 0) = true ∧ opens up drv (lpOff 7 0xC) = true ∧ portOk up 7 = true ∧ portOk { up with size := .tvd16 } 7 = false ∧
    (let s := withLane { Lane.down with cause := 6, up := true }; (laneAt s (laneNo 0 0)).cause = 6 ∧ laneAllow s (laneNo 0 0) = true ∧
      heldIsolated s 0 = false ∧ 128#32 = BitVec.ofNat 32 (2 ^ 7)) ∧
    isRc 0x80010 = true ∧ opens up drv 0x80010 = true ∧ isRc 0x5050 = true ∧ regBlk 0x18 = .global ∧
    (∀ j, j < 8 → wbit (reg up (lpOff 7 0)) j = wbit (reg up (lpOff 7 0)) j) ∧ (laneAt up (laneNo 7 7)).cause ≠ 2 :=
  by and_intros <;> decide +kernel

/-- TablesSorted. -/
theorem test_witness_tables_sorted :
    tsorted [(1, true), (2, false)] = true ∧ tsorted ([] : Tbl Nat) = true :=
  by decide

/-- A PASID has 20 bits. -/
theorem test_wf_requester :
    Instr.wf (.almPop { priv := true, pasid := 0xFFFFF }) = true ∧
    Instr.wf (.almPop { priv := true, pasid := 0x100000 }) = false :=
  by decide

/-- A lane clock is that of one of 8 ports. -/
theorem test_wf_clk :
    Instr.wf (.clockFault (.lane 7) .below) = true ∧
    Instr.wf (.clockFault (.lane 8) .below) = false :=
  by decide

/-- A lane is one of 64. -/
theorem test_wf_lane :
    Instr.wf (.laneStart 7 7) = true ∧
    Instr.wf (.laneStart 8 0) = false ∧
    Instr.wf (.laneStart 0 8) = false :=
  by decide

/-- A flit has 256 bytes. -/
theorem test_wf_flit :
    Instr.wf (.flitRx 0 0 (List.replicate 256 0)) = true ∧
    Instr.wf (.flitRx 0 0 (List.replicate 255 0)) = false ∧
    Instr.wf (.flitRx 0 0 (List.replicate 257 0)) = false :=
  by and_intros <;> decide +kernel

/-- FSEQ has 12 bits. -/
theorem test_wf_fseq :
    Instr.wf (.ackRx 0 0 4095) = true ∧
    Instr.wf (.ackRx 0 0 4096) = false ∧
    Instr.wf (.nakRx 0 0 true 4096) = false ∧
    Instr.wf (.replayRx 0 0 4096) = false :=
  by decide

/-- Keys of a Chord and of a stream context. -/
theorem test_wf_keys :
    Instr.wf (.chordMissFill 0x3FFFF) = true ∧
    Instr.wf (.chordMissFill 0x40000) = false ∧
    Instr.wf (.streamContextMissFill (2 ^ 33) .ok) = false :=
  by decide

/-- A target request fits its signals. -/
theorem test_wf_target :
    Instr.wf (.csTargetRequest 15 { tid := 0, op := 0, aop := 0, addr := 0, beats := 1, be := List.replicate 128 true, data := List.replicate 128 0, kid := 0, pasid := 5, steady := true }) = true ∧
    Instr.wf (.csTargetRequest 16 { tid := 0, op := 0, aop := 0, addr := 0, beats := 1, be := List.replicate 128 true, data := List.replicate 128 0, kid := 0, pasid := 5, steady := true }) = false ∧
    Instr.wf (.csTargetRequest 0 { tid := 4096, op := 0, aop := 0, addr := 0, beats := 1, be := List.replicate 128 true, data := List.replicate 128 0, kid := 0, pasid := 5, steady := true }) = false ∧
    Instr.wf (.csTargetRequest 0 { tid := 0, op := 4, aop := 4, addr := 0, beats := 1, be := List.replicate 128 true, data := List.replicate 128 0, kid := 0, pasid := 5, steady := true }) = false ∧
    Instr.wf (.csTargetRequest 0 { tid := 0, op := 0, aop := 16, addr := 0, beats := 1, be := List.replicate 128 true, data := List.replicate 128 0, kid := 0, pasid := 5, steady := true }) = false ∧
    Instr.wf (.csTargetRequest 0 { tid := 0, op := 0, aop := 0, addr := 2 ^ 64, beats := 1, be := List.replicate 128 true, data := List.replicate 128 0, kid := 0, pasid := 5, steady := true }) = false ∧
    Instr.wf (.csTargetRequest 0 { tid := 0, op := 0, aop := 0, addr := 0, beats := 1, be := List.replicate 128 true, data := List.replicate 128 0, kid := 4096, pasid := 5, steady := true }) = false ∧
    Instr.wf (.csTargetRequest 0 { tid := 0, op := 0, aop := 0, addr := 0, beats := 1, be := List.replicate 128 true, data := List.replicate 128 0, kid := 0, pasid := 0x100000, steady := true }) = false ∧
    Instr.wf (.csTargetRequest 0 { tid := 0, op := 0, aop := 0, addr := 0, beats := 0, be := List.replicate 128 true, data := List.replicate 128 0, kid := 0, pasid := 5, steady := true }) = false ∧
    Instr.wf (.csTargetRequest 0 { tid := 0, op := 0, aop := 0, addr := 0, beats := 33, be := List.replicate 128 true, data := List.replicate 128 0, kid := 0, pasid := 5, steady := true }) = false ∧
    Instr.wf (.csTargetRequest 0 { tid := 0, op := 0, aop := 0, addr := 0, beats := 1, be := List.replicate 127 true, data := List.replicate 128 0, kid := 0, pasid := 5, steady := true }) = false ∧
    Instr.wf (.csTargetRequest 0 { tid := 0, op := 0, aop := 0, addr := 0, beats := 1, be := List.replicate 128 true, data := List.replicate 129 0, kid := 0, pasid := 5, steady := true }) = false :=
  by and_intros <;> decide +kernel

/-- A tag is one of 2^18. -/
theorem test_wf_tag :
    Instr.wf (.e2eTimerExpiry 0x3FFFF) = true ∧
    Instr.wf (.e2eTimerExpiry 0x40000) = false ∧
    Instr.wf (.retxRecordWriteDone 0x40000 true) = false :=
  by decide

/-- A peer has 16 bits, a class 3. -/
theorem test_wf_peer_tc :
    Instr.wf (.eackFlush 0xFFFF 7) = true ∧
    Instr.wf (.eackFlush 0x10000 0) = false ∧
    Instr.wf (.ackStreamGap 0 8) = false ∧
    Instr.wf (.streamGapSend (2 ^ 33)) = false :=
  by decide

/-- A key ID has 12 bits. -/
theorem test_wf_kid :
    Instr.wf (.resealSweep 4095) = true ∧
    Instr.wf (.resealSweep 4096) = false ∧
    Instr.wf (.regionKeyMiss 4096) = false ∧
    Instr.wf (.hotlineIdleWriteback 4096 0) = false ∧
    Instr.wf (.hotlineIdleWriteback 0 (2 ^ 64)) = false :=
  by decide

/-- A mailbox is one of 17, a source one of 18. -/
theorem test_wf_mailbox :
    Instr.wf (.mbxGo 16 drv) = true ∧
    Instr.wf (.mbxGo 17 drv) = false ∧
    Instr.wf (.mbxInData 17 0 drv) = false ∧
    Instr.wf (.bcpGetInfo 18) = false ∧
    Instr.wf (.identityLineTimeout 18) = false ∧
    Instr.wf (.backgroundCommandDone 18) = false :=
  by decide

/-- A partition is one of 16. -/
theorem test_wf_part :
    Instr.wf (.parkRelease 15) = true ∧
    Instr.wf (.parkRelease 16) = false ∧
    Instr.wf (.ptReset 16 drv) = false ∧
    Instr.wf (.ptWinCommit 16 drv) = false ∧
    Instr.wf (.partitionDrainDone 16) = false ∧
    Instr.wf (.migFreezeTimeout 16) = false ∧
    Instr.wf (.dirtyPageLog 16) = false ∧
    Instr.wf (.tdispErrorEntry 16) = false ∧
    Instr.wf (.tdispLockInterface { part := 15, rid := 0xFFFF } none) = true ∧
    Instr.wf (.tdispLockInterface { part := 16, rid := 0 } none) = false ∧
    Instr.wf (.tdispLockInterface { part := 0, rid := 2 ^ 16 } none) = false :=
  by decide

/-- A slot is one of 64, a context one of 4096, a queue one of 256, an owned key ID register one of 16. -/
theorem test_wf_slot :
    Instr.wf (.cxLoad 63 4095 drv .ok) = true ∧
    Instr.wf (.cxLoad 64 0 drv .ok) = false ∧
    Instr.wf (.cxLoad 0 4096 drv .ok) = false ∧
    Instr.wf (.cxCreate 64 drv .ok) = false ∧
    Instr.wf (.cxUnload 64 drv .ok) = false ∧
    Instr.wf (.cxDoorbell 64 0 drv) = false ∧
    Instr.wf (.cxQcfgWrite 64 0 drv) = false ∧
    Instr.wf (.cxOwnKidWrite 0 16 0 drv) = false ∧
    Instr.wf (.descriptorFetch 4096 0 [] .ok) = false ∧
    Instr.wf (.descriptorFetch 0 256 [] .ok) = false :=
  by and_intros <;> decide +kernel

/-- A connection is a mailbox source or a vertex. -/
theorem test_wf_conn :
    Instr.wf (.hybGetKey (.mbox 17) none) = true ∧
    Instr.wf (.hybGetKey (.mbox 18) none) = false ∧
    Instr.wf (.hybGetKey (.peer 0x10000) none) = false :=
  by decide

/-- A session number has 32 bits. -/
theorem test_wf_session :
    Instr.wf (.hybGetKey (.mbox 0) (some 0xFFFFFFFF)) = true ∧
    Instr.wf (.hybGetKey (.mbox 0) (some 0x100000000)) = false ∧
    Instr.wf (.domainJoin 0x100000000 []) = false ∧
    Instr.wf (.spdmGetMeasurements (.mbox 0) none 256 true) = false :=
  by and_intros <;> decide +kernel

/-- Fields of IDE_KM. -/
theorem test_wf_ide_key :
    Instr.wf (.ideKmKeyProg 0 255 { stream := 255, dir := 1, sub := 7, set := 1 } 0 0) = true ∧
    Instr.wf (.ideKmKSetGo 0 0 { stream := 256, dir := 1, sub := 7, set := 1 }) = false ∧
    Instr.wf (.ideKmKSetGo 0 0 { stream := 255, dir := 2, sub := 7, set := 1 }) = false ∧
    Instr.wf (.ideKmKSetGo 0 0 { stream := 255, dir := 1, sub := 8, set := 1 }) = false ∧
    Instr.wf (.ideKmKSetGo 0 0 { stream := 255, dir := 1, sub := 7, set := 2 }) = false ∧
    Instr.wf (.ideKmQuery 0 256) = false ∧
    Instr.wf (.ideKmKeyProg 0 0 { stream := 255, dir := 1, sub := 7, set := 1 } 0 (2 ^ 64)) = false ∧
    Instr.wf (.ideKmKSetStop 0 256 { stream := 255, dir := 1, sub := 7, set := 1 }) = false :=
  by and_intros <;> decide +kernel

/-- What a peer shows. -/
theorem test_wf_peer_shown :
    Instr.wf (.hybSign (.mbox 0) 0 true { prod := true, testRoot := false, invasive := false, ipVersion := 0, svn := 0, digest := List.replicate 64 0#8, root := List.replicate 64 0#8, member := true }) = true ∧
    Instr.wf (.hybSign (.mbox 0) 0 true { prod := true, testRoot := false, invasive := false, ipVersion := 2 ^ 32, svn := 0, digest := List.replicate 64 0#8, root := List.replicate 64 0#8, member := true }) = false ∧
    Instr.wf (.hybSign (.mbox 0) 0 true { prod := true, testRoot := false, invasive := false, ipVersion := 0, svn := 2 ^ 16, digest := List.replicate 64 0#8, root := List.replicate 64 0#8, member := true }) = false ∧
    Instr.wf (.hybSign (.mbox 0) 0 true { prod := true, testRoot := false, invasive := false, ipVersion := 0, svn := 0, digest := [], root := List.replicate 64 0#8, member := true }) = false ∧
    Instr.wf (.hybSign (.mbox 0) 0 true { prod := true, testRoot := false, invasive := false, ipVersion := 0, svn := 0, digest := List.replicate 64 0#8, root := [], member := true }) = false :=
  by and_intros <;> decide +kernel

/-- What boot finds. -/
theorem test_wf_boot :
    Instr.wf (.warmReset { flash := [], failAt := some 127 }) = true ∧
    Instr.wf (.warmReset { flash := [], failAt := some 128 }) = false ∧
    Instr.wf (.coldReset true true true { flash := [], failAt := some 128 }) = false ∧
    Instr.wf (.rstL3 { flash := [], failAt := some 128 }) = false ∧
    Instr.wf (.bootImageCheck (List.replicate 64 0) [] [(2 ^ 26 - 1, List.replicate 64 0)] { keys := true, mldsa := true, ecdsa := true }) = true ∧
    Instr.wf (.bootImageCheck (List.replicate 65 0) [] [] { keys := true, mldsa := true, ecdsa := true }) = false ∧
    Instr.wf (.bootImageCheck [] (List.replicate 65 0) [] { keys := true, mldsa := true, ecdsa := true }) = false ∧
    Instr.wf (.bootImageCheck [] [] [(2 ^ 26, List.replicate 64 0)] { keys := true, mldsa := true, ecdsa := true }) = false ∧
    Instr.wf (.warmReset { flash := [(0, [])], failAt := none }) = false :=
  by and_intros <;> decide +kernel

/-- What the firmware start finds. -/
theorem test_wf_start :
    Instr.wf (.firmwareStart start_) = true ∧
    Instr.wf (.firmwareStart { start_ with failAt := some 128 }) = false ∧
    Instr.wf (.firmwareStart { start_ with flash := [(2 ^ 26, List.replicate 64 0)] }) = false ∧
    Instr.wf (.firmwareStart { start_ with rootDigest := [] }) = false :=
  by and_intros <;> decide +kernel

/-- What nothing measures. -/
def meas0 : Meas :=
  { engKHz := 0, csKHz := 0, hubKHz := 0, regKHz := 0, hot := 0, cool := 0, powerMw := 0, limitMw := 0, hot10 := 0, cool10 := 0, power10 := 0 }

/-- Measured values are words. -/
theorem test_wf_meas :
    Instr.wf (.bcpQuery 0 meas0) = true ∧
    Instr.wf (.bcpQuery 0 { meas0 with engKHz := 2 ^ 32 }) = false ∧
    Instr.wf (.bcpQuery 0 { meas0 with csKHz := 2 ^ 32 }) = false ∧
    Instr.wf (.bcpQuery 0 { meas0 with hubKHz := 2 ^ 32 }) = false ∧
    Instr.wf (.bcpQuery 0 { meas0 with regKHz := 2 ^ 32 }) = false ∧
    Instr.wf (.bcpQuery 0 { meas0 with powerMw := 2 ^ 32 }) = false ∧
    Instr.wf (.bcpQuery 0 { meas0 with power10 := 2 ^ 32 }) = false ∧
    Instr.wf (.bcpQuery 0 { meas0 with limitMw := 2 ^ 32 }) = false :=
  by decide

/-- Parts that exist. -/
theorem test_wf_parts :
    Instr.wf (.rstL1 255 [.aes 7 true 35, .adder 7 575, .msPipe 159, .sramRow 1023 1023, .sramCol 1023 1023, .core 2]) = true ∧
    Instr.wf (.rstL1 0 [.aes 8 true 0]) = false ∧
    Instr.wf (.rstL1 0 [.aes 0 true 36]) = false ∧
    Instr.wf (.rstL1 0 [.adder 8 0]) = false ∧
    Instr.wf (.rstL1 0 [.adder 0 576]) = false ∧
    Instr.wf (.rstL1 0 [.msPipe 160]) = false ∧
    Instr.wf (.rstL1 0 [.sramRow 1024 0]) = false ∧
    Instr.wf (.rstL1 0 [.sramRow 0 1024]) = false ∧
    Instr.wf (.rstL1 0 [.sramCol 1024 0]) = false ∧
    Instr.wf (.rstL1 0 [.sramCol 0 1024]) = false ∧
    Instr.wf (.rstL1 0 [.core 3]) = false ∧
    Instr.wf (.rstL1 256 []) = false ∧
    Instr.wf (.adderRotation 0 [576]) = false ∧
    Instr.wf (.adderRotation 8 []) = false ∧
    Instr.wf (.pipelineRotation 8 true true) = false ∧
    Instr.wf (.hubSelftestDone [3]) = false :=
  by and_intros <;> decide +kernel

/-- A self-test names parts that exist. -/
theorem test_wf_self_fails :
    Instr.wf (.bcpSelftest 17 { cores := [2], mac := true, pk := true, drbg := true, parts := [.core 2] }) = true ∧
    Instr.wf (.bcpSelftest 0 { cores := [3], mac := true, pk := true, drbg := true, parts := [] }) = false ∧
    Instr.wf (.bcpSelftest 0 { cores := [], mac := true, pk := true, drbg := true, parts := [.core 3] }) = false :=
  by decide

/-- A port is one of 8. -/
theorem test_wf_port :
    Instr.wf (.rstL2 { port := 7, fails := [.aes 7 true 35] }) = true ∧
    Instr.wf (.rstL2 { port := 8, fails := [] }) = false ∧
    Instr.wf (.rstL2 { port := 0, fails := [.aes 8 true 0] }) = false ∧
    Instr.wf (.portAutoReturn 8) = false ∧
    Instr.wf (.rstPortReturn 8 drv []) = false ∧
    Instr.wf (.lpCtrlWrite 8 0 drv) = false ∧
    Instr.wf (.lpUnfence 8 0 drv) = false ∧
    Instr.wf (.watchdogExpiry 256) = false :=
  by and_intros <;> decide +kernel

/-- SRAM words that exist. -/
theorem test_wf_sram :
    Instr.wf (.sramUncorrectable (.replay 7 7 4095)) = true ∧
    Instr.wf (.sramUncorrectable (.replay 8 0 0)) = false ∧
    Instr.wf (.sramUncorrectable (.replay 0 8 0)) = false ∧
    Instr.wf (.sramUncorrectable (.replay 0 0 4096)) = false ∧
    Instr.wf (.sramUncorrectable (.hotLine 4096 0)) = false ∧
    Instr.wf (.sramUncorrectable (.counter 4096 0 0)) = false ∧
    Instr.wf (.sramUncorrectable (.keySlot 2048)) = false :=
  by decide

/-- Mirror records of entries that exist. -/
theorem test_wf_mirror :
    Instr.wf (.mirrorRecordRx (.root 4095 0)) = true ∧
    Instr.wf (.mirrorRecordRx (.key 2048 Slot.zero)) = false ∧
    Instr.wf (.mirrorRecordRx (.tag 0x40000 (tagE 0 0))) = false ∧
    Instr.wf (.mirrorRecordRx (.stored [0x40000])) = false ∧
    Instr.wf (.mirrorRecordRx (.retired [0x40000])) = false ∧
    Instr.wf (.mirrorRecordRx (.node 4096 0 0 [])) = false ∧
    Instr.wf (.mirrorRecordRx (.root 4096 0)) = false ∧
    Instr.wf (.mirrorRecordRx (.hot 4096 0 [])) = false ∧
    Instr.wf (.mirrorRecordRx (.region 4096 none)) = false ∧
    Instr.wf (.mirrorRecordRx (.part 16 prt)) = false ∧
    Instr.wf (.mirrorRecordRx (.ctx 4096 none)) = false ∧
    Instr.wf (.mirrorRecordRx (.pgd 16 0 (List.replicate 128 0))) = false ∧
    Instr.wf (.mirrorRecordRx (.pgd 0 4096 (List.replicate 128 0))) = false ∧
    Instr.wf (.mirrorRecordRx (.pgd 0 0 [])) = false ∧
    Instr.wf (.mirrorRecordRx (.handover 16)) = false ∧
    Instr.wf (.handoverRx 16) = false :=
  by and_intros <;> decide +kernel

/-- Other numbers. -/
theorem test_wf_rest :
    Instr.wf (.copyChunkSend 63) = true ∧
    Instr.wf (.copyChunkSend 64) = false ∧
    Instr.wf (.waitPoll 0 .ok (2 ^ 64)) = false ∧
    Instr.wf (.hubBreakpoint 12) = false ∧
    Instr.wf (.keyPortAck 16) = false ∧
    Instr.wf (.rekeyChildTimeout 0x10000) = false ∧
    Instr.wf (.targetResponse 16 0) = false ∧
    Instr.wf (.targetResponse 0 4096) = false :=
  by decide

/-- An aligned offset of the register window or of the debug space. -/
theorem test_wf_offset :
    Instr.wf (.registerWrite 0x10FFFC 0 drv) = true ∧
    Instr.wf (.registerWrite 2 0 drv) = false ∧
    Instr.wf (.registerWrite 0x110000 0 drv) = false ∧
    Instr.wf (.rcCounterRead 1 drv) = false ∧
    Instr.wf (.loCaptureRead 0x110000 drv) = false :=
  by decide

/-! Checks that rest on an algorithm of Config pass where the bytes are those the algorithm gives. -/

theorem length_gcmTag (k : BitVec 256) (iv a c : Bytes) : (gcmTag k iv a c).length = 16 := by simp [gcmTag, blockBytes]

/-- A frame of one flit whose payload is in the clear, or that has none, verifies where its tag is the one computed. -/
theorem frame_verifies (k : BitVec 256) (h : Hdr) (n : Nat) (p : Bytes) (hn : h.plen ≤ 188)
    (hc : h.smode = 0 → h.plen = 0) (hl : p.length = 236) (hz : (p.drop (32 + h.plen)).all (· == 0) = true) :
    tagOk k h n (p ++ gcmTag k (frameIv h.src h.stream n) (p.take 32) []) = true := by
  have e : flitsOf h.plen = 1 := by unfold flitsOf ceilDiv; omega
  have l := length_gcmTag k (frameIv h.src h.stream n) (p.take 32) []
  generalize hg : gcmTag k (frameIv h.src h.stream n) (p.take 32) [] = g at l
  have a : (p ++ g).take 32 = p.take 32 := List.take_append_of_le_length (by omega)
  have b : slice (p ++ g) (252 * 1 - 16) 16 = g := by rw [show 252 * 1 - 16 = p.length by omega, ← l, slice_append_right]
  have c : slice (p ++ g) (32 + h.plen) (252 * 1 - 48 - h.plen) = p.drop (32 + h.plen) := by
    rw [slice_append_left p g _ _ (by omega), slice, List.take_of_length_le (by simp [hl]; omega)]
  have z : (if h.smode = 0 then slice (p ++ g) 32 h.plen else []) = [] := by
    by_cases h0 : h.smode = 0
    · simp [h0, hc h0, slice]
    · simp [h0]
  simp only [tagOk, e, a, b, c, z, hg, hz, beq_self_eq_true, Bool.and_self]

/-- What the release of a frame under the generation of its Chord leaves, where its stream was not seen before. -/
def afterRelease (s : State) (k : Nat) (h : Hdr) (c : Ingress) : State :=
  let key := streamKey h.src h.stream h.dgen
  let s := scEvict (chordTouch s (chordKey h.src 1 h.dgen))
  let s := scTouch { s with links := { s.links with ingress := tset s.links.ingress key Ingress.new } } (scKey key true)
  countEv (mirrorRec { s with links := { s.links with ingress := tset s.links.ingress key c } } (.ingress key c)) (0x038 + k / 8)
    (ownerPart (ownerOf h.stream)) 1

/-- A frame that passes every check is released. -/
theorem rxSealed_some (s : State) (k : Nat) (h : Hdr) (c : Bytes) (ch : Chord) (c' : Ingress)
    (h1 : ownVertex s h.dst = true) (h2 : srcAdmitted s h = true) (h3 : tget s.links.ingress (streamKey h.src h.stream h.dgen) = none)
    (h4 : scRoom s = true) (h5 : tget s.links.chord (chordKey h.src 1 h.dgen) = some ch) (h6 : cgenPick ch.gen h.cgen = some ch.gen)
    (h7 : tagOk ch.key h h.seqLo c = true) (h8 : h.mbxs = false) (h9 : h.seqLo < 1024)
    (h10 : windowPut Ingress.new h.seqLo (h.op == opGap) = .ok c') :
    rxSealed s k h c = (afterRelease s k h c',
      some { hdr := h, payload := openFrame ch.key h h.seqLo c, port := k / 8, seqN := h.seqLo, comb := none }) := by
  have r : rebuildSeq Ingress.new.low h.seqLo = h.seqLo := by
    have a : Ingress.new.low = 0 := rfl
    rw [rebuildSeq, a, if_neg (by omega), if_neg (by omega)]
    omega
  have w : h.seqLo < Ingress.new.low + if h.op = opGap then 2048 else 1024 := by
    have a : Ingress.new.low = 0 := rfl
    rw [a]
    split <;> omega
  unfold rxSealed
  simp [h1, h2, h3, h4, h5, h6, h7, h8, h10, r, w, afterRelease]

/-- A header of a frame in the clear from vertex 4 to this block, under generation 1 of the Chord. -/
def frm (op plen : Nat) : Hdr := { hdr with op := op, tc := 1, smode := if plen = 0 then 0 else 1, plen := plen, cgen := 1 }

/-- The frame with its tag under the key 0. -/
def wire (h : Hdr) (pay : Bytes) : Bytes :=
  let p := padTo 236 (h.bytes ++ pay)
  p ++ gcmTag 0 (frameIv h.src h.stream h.seqLo) (p.take 32) []

/-- A member with the Chord from vertex 4, and a lane that has a frame staged. -/
def staged (c : Bytes) : State :=
  setLane { memb with links := { memb.links with chord := [(chordKey 4 1 true, { gen := 1, count := 0, key := 0, slot := 3, slotGen := 0 })] } } 0
    { lane1 with staging := [c] }

theorem wire_head (h : Hdr) (pay : Bytes) (hb : h.bytes.length = 32) (hp : pay.length ≤ 204) :
    (wire h pay).take 32 = h.bytes ∧ (padTo 236 (h.bytes ++ pay)).length = 236 ∧ (padTo 236 (h.bytes ++ pay)).take 32 = h.bytes := by
  have l : (padTo 236 (h.bytes ++ pay)).length = 236 := by simp [padTo, hb]; omega
  have t : (padTo 236 (h.bytes ++ pay)).take 32 = h.bytes := by
    rw [padTo, List.append_assoc, ← hb, List.take_left]
  refine ⟨?_, l, t⟩
  rw [wire, List.take_append_of_le_length (by omega), t]

theorem wire_ok (h : Hdr) (pay : Bytes) (hb : h.bytes.length = 32) (hn : h.plen ≤ 188) (hp : pay.length = h.plen)
    (hc : h.smode = 0 → h.plen = 0) : tagOk 0 h h.seqLo (wire h pay) = true := by
  refine frame_verifies 0 h h.seqLo _ hn hc (wire_head h pay hb (by omega)).2.1 ?_
  have e : (32 + h.plen) = (h.bytes ++ pay).length := by rw [List.length_append, hb, hp]
  rw [e, padTo, List.drop_left]
  simp

theorem stagedFrame_one (s : State) (k : Nat) (c : Bytes) (h : (laneAt s k).staging = [c]) (hn : nflOf c = 1) : stagedFrame s k = some c := by
  simp [stagedFrame, h, hn]

/-- Whatever lane 0 has staged, such a frame finds its Chord and no reduction. -/
theorem staged_open (c : Bytes) (op : Nat) (ho : op = 3 ∨ op = 0xC) :
    inputHolds (staged c) (frm op 0) = false ∧ (rxMisses (quiet (staged c)) (frm op 0)).2 = false := by
  rcases ho with rfl | rfl <;> exact ⟨rfl, rfl⟩

/-- FrameArrives, Reception: a frame in the clear and a GAP that are released. -/
theorem test_witness_released : ∀ x ∈ [(3, RxKind.plain), (0xC, RxKind.gap)],
    let h := frm x.1 0
    let c := wire h []
    let s := staged c
    stagedOf s 0 x.2 = some c ∧ hdrOk (c.take 32) = true ∧ Hdr.parse (c.take 32) = h ∧ h.smode ≠ 2 ∧ inputHolds s h = false ∧
    (rxMisses (quiet s) h).2 = false ∧
    ∃ r f, rxSealed (dropStaged (countRx (rxMisses (quiet s) h).1 0 c) 0) 0 h c = (r, some f) := by
  have go : ∀ op : Nat, (frm op 0).bytes.length = 32 := fun op => rfl
  have hw : ∀ op, (wire (frm op 0) []).take 32 = (frm op 0).bytes := fun op => (wire_head _ _ (go op) (by simp)).1
  have hk : ∀ op, tagOk 0 (frm op 0) 0 (wire (frm op 0) []) = true := fun op => wire_ok _ _ (go op) (Nat.zero_le _) rfl (fun _ => rfl)
  intro x hx
  simp only [List.mem_cons, List.not_mem_nil, or_false] at hx
  rcases hx with rfl | rfl
  · obtain ⟨so, sm⟩ := staged_open (wire (frm 3 0) []) 3 (Or.inl rfl)
    refine ⟨?_, ?_, ?_, by decide, so, sm, ?_⟩
    · rw [stagedOf, stagedFrame_one _ _ _ rfl rfl]; simp only [hw]; exact if_pos (by decide)
    · simp only [hw]; decide
    · simp only [hw]; decide
    · exact ⟨_, _, rxSealed_some _ _ _ _ { gen := 1, count := 0, key := 0, slot := 3, slotGen := 0 } { low := 1, ranges := [], resident := true }
        rfl rfl rfl rfl rfl rfl (hk 3) rfl (by decide) rfl⟩
  · obtain ⟨so, sm⟩ := staged_open (wire (frm 0xC 0) []) 0xC (Or.inr rfl)
    refine ⟨?_, ?_, ?_, by decide, so, sm, ?_⟩
    · rw [stagedOf, stagedFrame_one _ _ _ rfl rfl]; simp only [hw]; exact if_pos (by decide)
    · simp only [hw]; decide
    · simp only [hw]; decide
    · exact ⟨_, _, rxSealed_some _ _ _ _ { gen := 1, count := 0, key := 0, slot := 3, slotGen := 0 } { low := 1, ranges := [], resident := true }
        rfl rfl rfl rfl rfl rfl (hk 0xC) rfl (by decide) rfl⟩

/-- Admission at generation 0 looks at the membership alone. -/
theorem bootAdmitted_dom (s t : State) (v : Nat) (o : Bool) (h : s.dom = t.dom) : bootAdmitted s v o = bootAdmitted t v o := by
  simp only [bootAdmitted, isMember, inBitmap, ownVertex, h]
  rfl

/-- The header of a BOOT frame of vertex 4. -/
def bootH : Hdr := { frm 3 0 with tc := 0, boot := true, dgen := false, cgen := 0 }

/-- FrameArrives: a BOOT frame of a vertex that opens a connection. -/
theorem test_witness_boot_frame :
    let c := wire bootH []
    let s := staged c
    stagedOf s 0 .boot = some c ∧ fwActs s = true ∧ hdrOk (c.take 32) = true ∧ Hdr.parse (c.take 32) = bootH ∧ bootH.mbxs = false ∧
    ownVertex (dropStaged (countRx (quiet s) 0 c) 0) bootH.dst = true ∧
    bootAdmitted (dropStaged (countRx (quiet s) 0 c) 0) bootH.src true = true ∧ tagOk 0 bootH bootH.seqLo c = true := by
  have go : bootH.bytes.length = 32 := rfl
  have hw : (wire bootH []).take 32 = bootH.bytes := (wire_head _ _ go (by simp)).1
  have e : (dropStaged (countRx (quiet (staged (wire bootH []))) 0 (wire bootH [])) 0).dom = memb.dom := rfl
  refine ⟨?_, rfl, ?_, ?_, rfl, rfl, (bootAdmitted_dom _ _ _ _ e).trans (by decide), wire_ok bootH [] go (Nat.zero_le _) rfl (fun _ => rfl)⟩
  · rw [stagedOf, stagedFrame_one _ _ _ rfl rfl]; simp only [hw]; exact if_pos (by decide)
  · rw [hw]; decide
  · rw [hw]; decide

/-- A record of a COMBINED frame with its tag under the key 0. -/
def rec_ (h : Hdr) (pay : Bytes) : Bytes := h.bytes ++ pay ++ gcmTag 0 (frameIv h.src h.stream h.seqLo) h.bytes []

theorem rec_frame (h : Hdr) (pay : Bytes) (hb : h.bytes.length = 32) (hp : pay.length = 16) :
    recordFrame (rec_ h pay) = wire h pay := by
  have l := length_gcmTag 0 (frameIv h.src h.stream h.seqLo) h.bytes []
  have e := (wire_head h pay hb (by omega)).2.2
  have hh : (h.bytes ++ pay).length = 48 := by rw [List.length_append, hb, hp]
  rw [recordFrame, wire, e, rec_]
  generalize gcmTag 0 (frameIv h.src h.stream h.seqLo) h.bytes [] = g at l
  generalize h.bytes ++ pay = p at hh
  rw [← hh, List.take_left, ← l, slice_append_right]

/-- The header of a COMBINED frame of two records. -/
def combH : Hdr := { hdr with op := 7, tc := 1, cclass := 1, dgen := false, plen := 128, addr := 64, aop := 4 }

/-- A COMBINED frame of two records. -/
def comb2 (x y : Bytes) : Bytes :=
  padTo 236 (combH.bytes ++ x ++ y) ++ List.replicate 16 0

theorem comb2_records (x y : Bytes) (hx : x.length = 64) (hy : y.length = 64) :
    (comb2 x y).take 32 = combH.bytes ∧
    combRecords 2 (slice (comb2 x y) 32 128) = [x, y] := by
  generalize hg : combH.bytes = b
  have hb : b.length = 32 := by rw [← hg]; rfl
  have e : comb2 x y = b ++ (x ++ (y ++ (List.replicate 76 0 ++ List.replicate 16 0))) := by
    rw [comb2, hg, padTo]
    simp [hb, hx, hy, List.append_assoc]
  have t : slice (comb2 x y) 32 128 = x ++ y := by
    rw [e, slice, ← hb, List.drop_left, ← List.append_assoc, show 128 = (x ++ y).length by simp [hx, hy], List.take_left]
  refine ⟨?_, ?_⟩
  · rw [e, ← hb, List.take_left]
  · rw [t]
    simp only [combRecords]
    rw [← hx, List.take_left, List.drop_left]
    simp [hx, hy]

/-- The header of a record: its operation, stream and source. -/
def recH (op stream src : Nat) : Hdr := { frm op 16 with cclass := 1, addr := 64, aop := 4, stream := stream, src := src }

/-- A payload whose byte 4 is given. -/
def payOf (b : Nat) : Bytes := leBytes 5 (b * 2 ^ 32) ++ List.replicate 11 0

theorem rec_parts (op stream src b : Nat) : (rec_ (recH op stream src) (payOf b)).length = 64 ∧
    (rec_ (recH op stream src) (payOf b)).take 32 = (recH op stream src).bytes ∧
    recordFrame (rec_ (recH op stream src) (payOf b)) = wire (recH op stream src) (payOf b) ∧
    tagOk 0 (recH op stream src) 0 (wire (recH op stream src) (payOf b)) = true ∧
    openFrame 0 (recH op stream src) 0 (wire (recH op stream src) (payOf b)) = payOf b := by
  have hb : (recH op stream src).bytes.length = 32 := rfl
  have hp : (payOf b).length = 16 := rfl
  have l := length_gcmTag 0 (frameIv src stream 0) (recH op stream src).bytes []
  refine ⟨?_, ?_, rec_frame _ _ hb hp, wire_ok _ _ hb (by show 16 ≤ 188; omega) hp (fun h => absurd h (by show ¬ 1 = 0; omega)), ?_⟩
  · rw [rec_, List.length_append, List.length_append, hb, hp]
    exact congrArg (48 + ·) l
  · rw [rec_, List.append_assoc, ← hb, List.take_left]
  · have e : wire (recH op stream src) (payOf b) = (recH op stream src).bytes ++ (payOf b ++ (List.replicate 188 0 ++ gcmTag 0
        (frameIv src stream 0) ((padTo 236 ((recH op stream src).bytes ++ payOf b)).take 32) [])) := by
      rw [wire, padTo, List.length_append, hb, hp]
      simp only [List.append_assoc]
      rfl
    show slice _ 32 16 = _
    rw [e, slice, ← hb, List.drop_left, ← hp, List.take_left]

/-- Two records, of which the first is released and the second is from a vertex that is not admitted. -/
theorem rxCombined_one (s : State) (k : Nat) (c x y : Bytes) (h hx hy : Hdr) (t : State) (f : InFrame) (hp : Hdr.parse (c.take 32) = h)
    (hc : combOk s (c.take 32) = true) (he : combRecords (h.plen / 64) (slice c 32 h.plen) = [x, y])
    (hpx : Hdr.parse (x.take 32) = hx) (hpy : Hdr.parse (y.take 32) = hy) (fx : recFits h x = true) (fy : recFits h y = true)
    (hm : rxMisses s hx = (s, false)) (hn : rxMisses s hy = (s, false))
    (hs : rxSealed (bumpBy (dropStaged (countRx s k c) k) 0x1A040 2) k hx (recordFrame x) = (t, some f))
    (ho : ownVertex t hy.dst = true) (ha : srcAdmitted t hy = false) : rxCombined s k c = (bump t (lpOff (k / 8) 0x38), [f]) := by
  have hy' : rxSealed t k hy (recordFrame y) = (bump t (lpOff (k / 8) 0x38), none) := by simp [rxSealed, ho, ha]
  simp [rxCombined, hp, hc, he, fx, fy, recMisses, hpx, hpy, hm, hn, rxRecord, hs, hy']

/-- Two records that are released. -/
theorem rxCombined_both (s : State) (k : Nat) (c x y : Bytes) (h hx hy : Hdr) (t u : State) (f g : InFrame)
    (hp : Hdr.parse (c.take 32) = h) (hc : combOk s (c.take 32) = true) (he : combRecords (h.plen / 64) (slice c 32 h.plen) = [x, y])
    (hpx : Hdr.parse (x.take 32) = hx) (hpy : Hdr.parse (y.take 32) = hy) (fx : recFits h x = true) (fy : recFits h y = true)
    (hm : rxMisses s hx = (s, false)) (hn : rxMisses s hy = (s, false))
    (hs : rxSealed (bumpBy (dropStaged (countRx s k c) k) 0x1A040 2) k hx (recordFrame x) = (t, some f))
    (ht : rxSealed t k hy (recordFrame y) = (u, some g)) : rxCombined s k c = (u, [f, g]) := by
  simp [rxCombined, hp, hc, he, fx, fy, recMisses, hpx, hpy, hm, hn, rxRecord, hs, ht]

/-- Admission looks at the membership alone. -/
theorem srcAdmitted_memb (s : State) (op stream src : Nat) (hs : s.dom = memb.dom) :
    srcAdmitted s (recH op stream src) = srcAdmitted memb (recH 0 0 src) := by
  simp only [srcAdmitted, otherMember, ctlPeer, isMember, inBitmap, ownVertex, hs]
  rfl

theorem tget_other {α : Type} (k j : Nat) (v : α) (h : j ≠ k) : tget [(k, v)] j = none := by simp [tget, h]

theorem afterRelease_keeps (s : State) (k : Nat) (h : Hdr) (c : Ingress) (h2 : s.links.egress = []) (h1 : s.links.ingress = [])
    (h3 : s.dbg.cnt = []) (h4 : s.tandemEn = false) (h5 : s.size = .tvd64) :
    let t := afterRelease s k h c
    t.links.ingress = [(streamKey h.src h.stream h.dgen, c)] ∧ t.links.egress = [] ∧ t.links.chord = s.links.chord ∧ t.dom = s.dom ∧
    t.size = s.size ∧ t.tandemEn = false ∧ t.fab = s.fab := by
  have e : scEvict (chordTouch s (chordKey h.src 1 h.dgen)) = chordTouch s (chordKey h.src 1 h.dgen) := by
    simp [scEvict, chordTouch, scResident, h1, h2, h5, tcount, scCap]
  have m : ∀ t : State, t.tandemEn = false → mirrors t = false := fun t a => by simp [mirrors, a]
  unfold afterRelease
  rw [e]
  simp [chordTouch, scTouch, mirrorRec, m, countEv, h1, h2, h3, h4, tset]
  split <;> exact ⟨rfl, rfl, rfl, rfl, rfl, rfl, rfl⟩

theorem afterRelease_fab (s : State) (k : Nat) (h : Hdr) (c : Ingress) (h3 : scResident (chordTouch s (chordKey h.src 1 h.dgen)) < scCap s.size)
    (h4 : s.tandemEn = false) (h5 : s.dbg.cnt = []) :
    (afterRelease s k h c).tandemEn = false ∧ (afterRelease s k h c).fab = s.fab := by
  have e : scEvict (chordTouch s (chordKey h.src 1 h.dgen)) = chordTouch s (chordKey h.src 1 h.dgen) := if_pos h3
  have m : ∀ t : State, t.tandemEn = false → mirrors t = false := fun t a => by simp [mirrors, a]
  unfold afterRelease
  rw [e]
  simp [chordTouch, scTouch, mirrorRec, m, countEv, h4, h5]
  split <;> exact ⟨rfl, rfl⟩

/-- What a record released first leaves. -/
def first_ (op : Nat) (c : Bytes) : State :=
  afterRelease (bumpBy (dropStaged (countRx (quiet (staged c)) 0 c) 0) 0x1A040 2) 0 (recH op 0 4) { low := 1, ranges := [], resident := true }

theorem first_keeps (op : Nat) (c : Bytes) : let t := first_ op c
    t.links.ingress = [(streamKey 4 0 true, { low := 1, ranges := [], resident := true })] ∧ t.links.egress = [] ∧
    t.links.chord = (staged c).links.chord ∧ t.dom = memb.dom ∧ t.size = .tvd64 ∧ t.tandemEn = false ∧ t.fab = memb.fab ∧ t.dbg.cnt = [] := by
  obtain ⟨k1, k2, k3, k4, k5, k6, k7⟩ := afterRelease_keeps (bumpBy (dropStaged (countRx (quiet (staged c)) 0 c) 0) 0x1A040 2) 0 (recH op 0 4)
    { low := 1, ranges := [], resident := true } rfl rfl rfl rfl rfl
  exact ⟨k1, k2, k3, k4, k5, k6, k7, rfl⟩

theorem first_released (op b : Nat) (c x : Bytes) (fx : recordFrame x = wire (recH op 0 4) (payOf b)) (ho : op ≠ opGap) :
    rxSealed (bumpBy (dropStaged (countRx (quiet (staged c)) 0 c) 0) 0x1A040 2) 0 (recH op 0 4) (recordFrame x) = (first_ op c,
      some { hdr := recH op 0 4, payload := payOf b, port := 0, seqN := 0, comb := none }) := by
  obtain ⟨-, -, -, tx, ox⟩ := rec_parts op 0 4 b
  have hg : ((recH op 0 4).op == opGap) = false := beq_eq_false_iff_ne.mpr ho
  have r := rxSealed_some (bumpBy (dropStaged (countRx (quiet (staged c)) 0 c) 0) 0x1A040 2) 0 (recH op 0 4) (wire (recH op 0 4) (payOf b))
    { gen := 1, count := 0, key := 0, slot := 3, slotGen := 0 } { low := 1, ranges := [], resident := true }
    rfl ((srcAdmitted_memb _ op 0 4 rfl).trans (by decide)) rfl rfl rfl rfl tx rfl (by show 0 < 1024; omega) (by rw [hg]; rfl)
  rw [fx, r, show (recH op 0 4).seqLo = 0 from rfl, ox]
  rfl

/-- A record released second. -/
theorem second_released (op b : Nat) (c y : Bytes) (fy : recordFrame y = wire (recH op 1 4) (payOf b)) (ho : op ≠ opGap) :
    rxSealed (first_ op c) 0 (recH op 1 4) (recordFrame y) = (afterRelease (first_ op c) 0 (recH op 1 4)
      { low := 1, ranges := [], resident := true }, some { hdr := recH op 1 4, payload := payOf b, port := 0, seqN := 0, comb := none }) := by
  obtain ⟨-, -, -, tx, ox⟩ := rec_parts op 1 4 b
  have hg : ((recH op 1 4).op == opGap) = false := beq_eq_false_iff_ne.mpr ho
  obtain ⟨k1, k2, k3, k4, k5, -, -, -⟩ := first_keeps op c
  generalize first_ op c = t at k1 k2 k3 k4 k5
  have r := rxSealed_some t 0 (recH op 1 4) (wire (recH op 1 4) (payOf b))
    { gen := 1, count := 0, key := 0, slot := 3, slotGen := 0 } { low := 1, ranges := [], resident := true }
    (by rw [ownVertex, k4]; rfl) ((srcAdmitted_memb t op 1 4 k4).trans (by decide))
    (by rw [k1]; exact tget_other _ _ _ (by show streamKey 4 1 true ≠ streamKey 4 0 true; decide))
    (by simp [scRoom, scResident, k1, k2, k5, tcount, scCap]) (by rw [k3]; rfl) rfl tx rfl (by show 0 < 1024; omega) (by rw [hg]; rfl)
  rw [fy, r, show (recH op 1 4).seqLo = 0 from rfl, ox]

/-- Nothing is missing for a frame whose Chord is there and whose stream has no context yet. -/
theorem rxMisses_found (u : State) (h : Hdr) (hm : h.smode ≠ 2) (hb : h.boot = false) (ho : ownVertex u h.dst = true)
    (hs : srcAdmitted u h = true) (hi : tget u.links.ingress (streamKey h.src h.stream h.dgen) = none)
    (hc : (tget u.links.chord (chordKey h.src 1 h.dgen)).isNone = false) : rxMisses u h = (u, false) := by
  unfold rxMisses
  rw [if_neg (by simp [hm, hb, ho, hs])]
  simp only [hi, Option.any_none, Bool.false_eq_true, if_false, hc, Bool.false_and, Bool.false_or]

theorem record_found (op stream src : Nat) (c : Bytes) (hs : src = 4 ∨ src = 9) :
    rxMisses (quiet (staged c)) (recH op stream src) = (quiet (staged c), false) := by
  have e := srcAdmitted_memb (quiet (staged c)) op stream src rfl
  rcases hs with rfl | rfl
  · exact rxMisses_found _ _ (by show ¬ (1 = 2); omega) rfl rfl (e.trans (by decide)) rfl rfl
  · unfold rxMisses
    rw [if_pos (Or.inr (Or.inr (Or.inr (by rw [e.trans (by decide : _ = false)]; rfl))))]

theorem recH_parse (op stream src : Nat) (ho : op ∈ [opReq, opRsp]) (hs : (stream, src) ∈ [(0, 4), (1, 4), (1, 9)]) :
    Hdr.parse (recH op stream src).bytes = recH op stream src ∧ recFits combH (recH op stream src).bytes = true := by
  have h : ∀ o ∈ [opReq, opRsp], ∀ q ∈ [(0, 4), (1, 4), (1, 9)], Hdr.parse (recH o q.1 q.2).bytes = recH o q.1 q.2 ∧
      recFits combH (recH o q.1 q.2).bytes = true := by decide
  exact h op ho (stream, src) hs

theorem recFits_take (h : Hdr) (r : Bytes) : recFits h (r.take 32) = recFits h r := by
  simp only [recFits, List.take_take, min_self]

theorem comb2_staged (x y : Bytes) (hx : x.length = 64) (hy : y.length = 64) :
    stagedFrame (staged (comb2 x y)) 0 = some (comb2 x y) ∧ rxKind ((comb2 x y).take 32) = .combined ∧
    Hdr.parse ((comb2 x y).take 32) = combH ∧ combOk (quiet (staged (comb2 x y))) ((comb2 x y).take 32) = true := by
  obtain ⟨hc, -⟩ := comb2_records x y hx hy
  have hn : nflOf (comb2 x y) = 1 := by
    have e : nflOf (comb2 x y) = nflOf ((comb2 x y).take 32) := by
      simp only [nflOf, leAt, slice, List.drop_take]
      rfl
    rw [e, hc]
    decide
  rw [hc]
  exact ⟨stagedFrame_one _ _ _ rfl hn, by decide, by decide, rfl⟩

/-- FrameArrives: a COMBINED frame of which one record passes: a response, a request, an open atomic. -/
theorem test_witness_combined_one : ∀ q ∈ [(opRsp, 0), (opReq, kLoad), (opReq, 128 + kAtomic)],
    ∃ c r f, stagedFrame (staged c) 0 = some c ∧ rxKind (c.take 32) = .combined ∧ (staged c).fab.inbox = [] ∧
      rxCombined (quiet (staged c)) 0 c = (r, [f]) ∧ mirrored r = false ∧ r.fab.inbox = [] ∧ f.hdr.op = q.1 ∧ leAt f.payload 4 1 = q.2 := by
  have go : ∀ op b, op ∈ [opReq, opRsp] → op ≠ opGap → leAt (payOf b) 4 1 = b →
      ∃ c r f, stagedFrame (staged c) 0 = some c ∧ rxKind (c.take 32) = .combined ∧ (staged c).fab.inbox = [] ∧
      rxCombined (quiet (staged c)) 0 c = (r, [f]) ∧ mirrored r = false ∧ r.fab.inbox = [] ∧ f.hdr.op = op ∧ leAt f.payload 4 1 = b := by
    intro op b ho hg hb
    obtain ⟨lx, hx, fx, -, -⟩ := rec_parts op 0 4 b
    obtain ⟨ly, hy, -, -, -⟩ := rec_parts op 1 9 b
    obtain ⟨px, qx⟩ := recH_parse op 0 4 ho (by decide)
    obtain ⟨py, qy⟩ := recH_parse op 1 9 ho (by decide)
    rw [← hx] at px qx
    rw [← hy] at py qy
    rw [recFits_take] at qx qy
    obtain ⟨c1, c2, c4, c5⟩ := comb2_staged _ _ lx ly
    have he := (comb2_records _ _ lx ly).2
    have hf := first_released op b (comb2 (rec_ (recH op 0 4) (payOf b)) (rec_ (recH op 1 9) (payOf b))) _ fx hg
    obtain ⟨-, -, -, k4, -, k6, k7, -⟩ := first_keeps op (comb2 (rec_ (recH op 0 4) (payOf b)) (rec_ (recH op 1 9) (payOf b)))
    generalize first_ op (comb2 (rec_ (recH op 0 4) (payOf b)) (rec_ (recH op 1 9) (payOf b))) = t at hf k4 k6 k7
    refine ⟨_, _, _, c1, c2, rfl, rxCombined_one _ _ _ _ _ combH _ _ t _ c4 c5 he px py qx qy (record_found op 0 4 _ (.inl rfl))
      (record_found op 1 9 _ (.inr rfl)) hf (by rw [ownVertex, k4]; rfl) ((srcAdmitted_memb t op 1 9 k4).trans (by decide)), ?_, ?_, rfl, hb⟩
    · rw [mirrored, show (bump t (lpOff (0 / 8) 0x38)).tandemEn = t.tandemEn from rfl, k6]
      rfl
    · rw [show (bump t (lpOff (0 / 8) 0x38)).fab = t.fab from rfl, k7]
      rfl
  intro q hq
  simp only [List.mem_cons, List.not_mem_nil, or_false] at hq
  rcases hq with rfl | rfl | rfl <;> exact go _ _ (by decide) (by decide) (by decide)

/-- FrameArrives: a COMBINED frame of two open atomics that pass. -/
theorem test_witness_combined_both :
    ∃ c r f g, stagedFrame (staged c) 0 = some c ∧ rxKind (c.take 32) = .combined ∧ (staged c).fab.inbox = [] ∧
      rxCombined (quiet (staged c)) 0 c = (r, [f, g]) ∧ mirrored r = false ∧ r.fab.inbox = [] ∧
      ∀ x ∈ [f, g], x.hdr.op = opReq ∧ leAt x.payload 4 1 % 16 = kAtomic ∧ 128 ≤ leAt x.payload 4 1 := by
  obtain ⟨lx, hx, fx, -, -⟩ := rec_parts opReq 0 4 (128 + kAtomic)
  obtain ⟨ly, hy, fy, -, -⟩ := rec_parts opReq 1 4 (128 + kAtomic)
  obtain ⟨px, qx⟩ := recH_parse opReq 0 4 (by decide) (by decide)
  obtain ⟨py, qy⟩ := recH_parse opReq 1 4 (by decide) (by decide)
  rw [← hx] at px qx
  rw [← hy] at py qy
  rw [recFits_take] at qx qy
  obtain ⟨c1, c2, c4, c5⟩ := comb2_staged _ _ lx ly
  have he := (comb2_records _ _ lx ly).2
  generalize hc : comb2 (rec_ (recH opReq 0 4) (payOf (128 + kAtomic))) (rec_ (recH opReq 1 4) (payOf (128 + kAtomic))) = c at c1 c2 c4 c5 he
  have hf := first_released opReq _ c _ fx (by decide)
  have hs := second_released opReq _ c _ fy (by decide)
  obtain ⟨k1, k2, -, -, k5, k6, k7, k8⟩ := first_keeps opReq c
  generalize first_ opReq c = t at hf hs k1 k2 k5 k6 k7 k8
  have hr : scResident (chordTouch t (chordKey 4 1 true)) < scCap t.size := by simp [chordTouch, scResident, k1, k2, k5, tcount, scCap]
  obtain ⟨a1, a2⟩ := afterRelease_fab t 0 (recH opReq 1 4) { low := 1, ranges := [], resident := true } hr k6 k8
  refine ⟨c, _, _, _, c1, c2, rfl, rxCombined_both _ _ _ _ _ combH _ _ t _ _ _ c4 c5 he px py qx qy
    (record_found opReq 0 4 _ (.inl rfl)) (record_found opReq 1 4 _ (.inl rfl)) hf hs, ?_, ?_, ?_⟩
  · rw [mirrored, a1]
    rfl
  · rw [a2, k7]
    rfl
  · intro z hz
    simp only [List.mem_cons, List.not_mem_nil, or_false] at hz
    rcases hz with rfl | rfl <;> exact ⟨rfl, by decide, by decide⟩

/-- The header of an image without a body, up to its digest. -/
def imgHead : Bytes := leBytes 4 0x57465654 ++ leBytes 4 1 ++ List.replicate 24 0

/-- A block at stage 0x4 in TEST_UNLOCKED, where the test root serves. -/
def unlocked : State := { atStage 4 with otp := { up.otp with lc := .testUnlocked } }

/-- An image without a body whose digest is the one computed passes, where the public-key engine says so and OTP names no minimum. -/
theorem test_image_passes (t : Bytes) :
    imageOk unlocked (imageOf (imgHead ++ (measure 1 [] ++ t))) { keys := true, mldsa := true, ecdsa := true } = true := by
  have l : (measure 1 []).length = 64 := by simp [Machine.measure, kmac]
  generalize hg : measure 1 [] = g at l
  have hl : imgHead.length = 32 := by decide
  have a : ∀ i n, i + n ≤ 32 → leAt (imgHead ++ (g ++ t)) i n = leAt imgHead i n := fun i n h => by
    rw [leAt, slice_append_left _ _ _ _ (by omega), leAt]
  have b : slice (imgHead ++ (g ++ t)) 0x20 64 = g := by
    rw [show 0x20 = imgHead.length + 0 from by rw [hl], slice, ← List.drop_drop, List.drop_left, List.drop_zero, ← l, List.take_left]
  have z : slice (imgHead ++ (g ++ t)) 0x2000 0 = [] := by simp [slice]
  have i : imageOf (imgHead ++ (g ++ t)) =
      { magic := 0x57465654, hdrVersion := 1, svn := 0, minIp := 0, bodyLen := 0, bodyDigest := g, body := [] } := by
    unfold imageOf
    rw [a 0 4 (by omega), a 4 4 (by omega), a 8 4 (by omega), a 12 4 (by omega), a 16 4 (by omega), b]
    rw [show leAt imgHead 16 4 = 0 by decide, z]
    rfl
  rw [i]
  have m : minSvn unlocked = 0 := by decide
  simp [imageOk, hg, ipVersionW, m]

/-- Slices in a row are what they were cut from. -/
theorem slices_join (b : Bytes) (n : Nat) (h : 48 * n ≤ b.length) :
    (List.range n).flatMap (fun i => padTo 48 ((slice b (48 * i) 48).take 48)) = b.take (48 * n) := by
  induction n with
  | zero => simp
  | succ n ih =>
    have e : padTo 48 ((slice b (48 * n) 48).take 48) = (b.drop (48 * n)).take 48 := by
      have : ((b.drop (48 * n)).take 48).length = 48 := by rw [List.length_take, List.length_drop]; omega
      rw [slice, List.take_take, min_self, padTo, this]
      simp
    rw [List.range_succ, List.flatMap_append, ih (by omega), List.flatMap_singleton, e, Nat.mul_succ, List.take_add]

/-- The bytes of that image, padded to whole records. -/
def rawImage (z : Bytes) : Bytes := imgHead ++ (measure 1 [] ++ z)

/-- Its factory form in slot A of the store. -/
def factoryFlash (z : Bytes) : Flash :=
  sealedRecs (storeKeyOf (leBytes 64 Config.testRoot.toNat)) 0x4000 171 (fun i => slice (rawImage z) (48 * i) 48)

theorem pickPtr_unlocked (t : Flash) : pickPtr unlocked ((0, []) :: (1, []) :: t) = none := by
  simp [pickPtr, ptrCopy, openRec, tget, storeOpen]

theorem length_rawImage (z : Bytes) (hz : z.length = 8112) : (rawImage z).length = 8208 := by
  have a : (measure 1 []).length = 64 := by simp [Machine.measure, kmac]
  have b : imgHead.length = 32 := by decide
  simp only [rawImage, List.length_append, a, b, hz]

theorem openRecs_factory (z : Bytes) (hz : z.length = 8112) (m : Nat) (hm : m ≤ 171) :
    openRecs (storeKeyOf (leBytes 64 Config.testRoot.toNat)) ((0, []) :: (1, []) :: factoryFlash z) 0x4000 m =
      some ((rawImage z).take (48 * m)) := by
  have l := length_rawImage z hz
  have e := openRecs_sealed (storeKeyOf (leBytes 64 Config.testRoot.toNat)) 0x4000 171 m (fun i => slice (rawImage z) (48 * i) 48) hm
  rw [slices_join _ _ (by omega)] at e
  rw [← e, openRecs, openRecs, factoryFlash]
  congr 1
  funext a i
  have h0 : ¬ (0x4000 + i = 0) := by omega
  have h1 : ¬ (0x4000 + i = 1) := by omega
  simp only [openRec, tget, h0, h1, if_false]

/-- An image in factory form whose records open is read. -/
theorem readImage_factory (s : State) (f : Flash) (b : Bytes) (h : openRecs (storeKeyOf (leBytes 64 Config.testRoot.toNat)) f 0x4000 171 = some b)
    (hb : leAt b 16 4 = 0) : readImage s f none = some b := by
  have e : max headRecs (imageRecs 0) = 171 := by decide
  unfold readImage
  generalize storeKeyOf (leBytes 64 Config.testRoot.toNat) = k at h ⊢
  simp only [Option.isSome_none, Bool.false_eq_true, if_false, Option.map_none, Option.getD_none, slotBase, if_true]
  rw [h]
  simp only [hb]
  rw [e, h, if_neg (Nat.not_lt_zero _)]

/-- Boot: a factory image in TEST_UNLOCKED is read whole and passes. -/
theorem boot_image (z : Bytes) (hz : z.length = 8112) :
    let f : Flash := (0, []) :: (1, []) :: factoryFlash z
    pickPtr unlocked f = none ∧ readImage unlocked f (pickPtr unlocked f) = some (rawImage z) ∧
    ((pickPtr unlocked f).isSome || factoryOk unlocked.otp.lc) = true ∧
    imageOk unlocked (imageOf (rawImage z)) { keys := true, mldsa := true, ecdsa := true } = true := by
  have hb : leAt (rawImage z) 16 4 = 0 := by
    rw [leAt, rawImage, slice_append_left _ _ _ _ (by decide)]
    decide
  have ho := openRecs_factory z hz 171 (by omega)
  rw [List.take_of_length_le ((length_rawImage z hz).le.trans (by norm_num))] at ho
  have hr := readImage_factory unlocked ((0, []) :: (1, []) :: factoryFlash z) _ ho hb
  refine ⟨pickPtr_unlocked _, ?_, ?_, test_image_passes _⟩
  · rw [pickPtr_unlocked]; exact hr
  · rw [pickPtr_unlocked]; decide

/-- Boot: such an image, at stage 0x4. -/
theorem test_witness_boot_image :
    let z : Bytes := List.replicate 8112 0
    let f : Flash := (0, []) :: (1, []) :: factoryFlash z
    engUp unlocked = true ∧ unlocked.aon.stage = 4 ∧ fwRuns unlocked.otp.lc = true ∧
    readImage unlocked f (pickPtr unlocked f) = some (rawImage z) ∧
    ((pickPtr unlocked f).isSome || factoryOk unlocked.otp.lc) = true ∧
    imageOk unlocked (imageOf (rawImage z)) { keys := true, mldsa := true, ecdsa := true } = true :=
  ⟨by decide, by decide, by decide, (boot_image _ List.length_replicate).2⟩

/-- Boot: with an empty store no image is read. -/
theorem test_witness_boot_none : readImage unlocked [(0, []), (1, [])] (pickPtr unlocked [(0, []), (1, [])]) = none := by
  have h : ∀ n, openRecs (storeKeyOf (leBytes 64 Config.testRoot.toNat)) [(0, []), (1, [])] 0x4000 (n + 1) = none := fun n => by
    have e : openRec (storeKeyOf (leBytes 64 Config.testRoot.toNat)) [(0, []), (1, [])] (0x4000 + n) = none := by
      have h0 : ¬ (0x4000 + n = 0) := by omega
      have h1 : ¬ (0x4000 + n = 1) := by omega
      simp only [openRec, tget, h0, h1, if_false, Option.bind_none]
    rw [openRecs, List.range_succ, List.foldl_append, List.foldl_cons, List.foldl_nil, e]
    split <;> simp_all
  rw [pickPtr_unlocked]
  have h' := h 170
  unfold readImage
  generalize storeKeyOf (leBytes 64 Config.testRoot.toNat) = k at h' ⊢
  simp only [Option.isSome_none, Bool.false_eq_true, if_false, Option.map_none, Option.getD_none, slotBase, if_true]
  rw [h']

/-! Migration blobs that seal and open. -/

/-- A block whose domain's memory key is live, with every block-wide register a partition needs. -/
def migS : State :=
  { memb with
    win := [(0x1A008, 0x3FF#32)]
    keys := { memb.keys with slots := [(5, { Slot.zero with state := 1, typ := 5, uses := 0xFFFF, useLimit := 100 })] }
    parts := { memb.parts with areas := [0x31000, 0x31004, 0x31008, 0x5F000, 0x5F004, 0x1A008] } }

/-- The one record of a body: a grant of one slot, key IDs 16 to 19 and PASID 5. -/
def migBody : Bytes :=
  [1#8, 0#8, 0#8, 0#8, 88#8, 0#8, 0#8, 0#8] ++ ([0#8, 0#8, 0#8, 0#8, 16#8, 0#8, 4#8, 0#8] ++ List.replicate 4 0#8 ++ [1#8] ++ List.replicate 6 0#8 ++ [1#8] ++
  List.replicate 64 0#8 ++ [5#8, 0#8, 0#8, 0#8])

/-- The header of a blob from vertex 4 to vertex 3. -/
def migHead : Bytes := blobHead 4 3 0 (List.replicate 16 0) migBody.length

/-- The MIGRATION key of that blob. -/
def migK : BitVec 256 := (slotAt (migrationKey (useKey migS 5 0).2 (migCtx 4 3 (leAt migHead 10 1) (slice migHead 16 16))) migSlot).key

/-- The packet that carries it, sealed. -/
def migPkt : Packet :=
  let c := gcmCrypt migK (segIv 0) migBody
  { pkt .migRestore [0#32, 4#32, 64#32] with blob := migHead ++ (c ++ gcmTag migK (segIv 0) (migHead ++ leBytes 4 0) c) }

theorem gcmTag_length (k : BitVec 256) (iv a c : Bytes) : (gcmTag k iv a c).length = 16 := by simp [gcmTag, blockBytes]

/-- One segment opens to what was sealed into it. -/
theorem openSegs_one (k : BitVec 256) (head b : Bytes) (h0 : b ≠ []) (h : b.length ≤ 4096) :
    openSegs k head 1 0 b.length (gcmCrypt k (segIv 0) b ++ gcmTag k (segIv 0) (head ++ leBytes 4 0) (gcmCrypt k (segIv 0) b)) = some b := by
  have hc : (gcmCrypt k (segIv 0) b).length = b.length := by simp [gcmCrypt]
  have h1 : b.length ≠ 0 := by simpa using h0
  have hd : gcmCrypt k (segIv 0) (gcmCrypt k (segIv 0) b) = b := by
    rw [gcmCrypt, hc]; exact xorBytes_twice _ _
  obtain ⟨e1, e2⟩ := split_append (gcmCrypt k (segIv 0) b) (gcmTag k (segIv 0) (head ++ leBytes 4 0) (gcmCrypt k (segIv 0) b)) _ hc
  have e3 : slice (gcmCrypt k (segIv 0) b ++ gcmTag k (segIv 0) (head ++ leBytes 4 0) (gcmCrypt k (segIv 0) b)) b.length 16 =
      gcmTag k (segIv 0) (head ++ leBytes 4 0) (gcmCrypt k (segIv 0) b) := by
    rw [slice, e2, ← gcmTag_length k (segIv 0) (head ++ leBytes 4 0) (gcmCrypt k (segIv 0) b), List.take_length]
  unfold openSegs
  simp only [h1, if_false, Nat.min_eq_left h, e1, e3, hc]
  simp [openSegs, hd, ← List.drop_drop, e2, List.drop_of_length_le, gcmTag_length]

theorem useKey_live (s : State) (n bit : Nat) (h1 : (slotAt s n).state = 1) (h2 : (slotAt s n).uses.getLsbD bit = true)
    (h3 : (slotAt s n).useCount < (slotAt s n).useLimit) :
    useKey s n bit = (stOk, setSlot s n { slotAt s n with useCount := (slotAt s n).useCount + 1 }) := by
  unfold useKey
  simp [h1, h2, Nat.not_le.mpr h3, Nat.ne_of_gt (Nat.zero_lt_of_lt h3)]

@[simp] theorem slotAt_setSlot_same (s : State) (n : Nat) (k : Slot) : slotAt (setSlot s n k) n = k := by
  simp [slotAt, setSlot]

/-- The MIGRATION key's slot, and one use of it. -/
theorem useKey_migrationKey (s : State) (ctx : Bytes) :
    (slotAt (migrationKey s ctx) migSlot).key = keyOf (kmac (keyBytes (slotAt s 5).key) (kmacX "mig" ctx) 32) ∧
    ∃ u, useKey (migrationKey s ctx) migSlot 7 = (stOk, u) ∧ (slotAt u migSlot).key = (slotAt (migrationKey s ctx) migSlot).key := by
  have h : ∃ p q r, slotAt (migrationKey s ctx) migSlot = {
      key := keyOf (kmac (keyBytes (slotAt s 5).key) (kmacX "mig" ctx) 32), typ := 9
      uses := 0x80#16, parent := 5, state := 1, depth := p, parentGen := q, gen := r, useCount := 0, useLimit := 2 ^ 32, ownerKid := 0 } := by
    unfold migrationKey fillSlot
    rw [slotAt_setSlot_same]
    exact ⟨_, _, _, rfl⟩
  obtain ⟨p, q, r, h⟩ := h
  refine ⟨by rw [h], _, useKey_live _ _ _ (by rw [h]) (by rw [h]; exact (by decide : (0x80#16).getLsbD 7 = true)) (by rw [h]; exact Nat.two_pow_pos 32), by rw [slotAt_setSlot_same]⟩

/-- That blob as a packet at hand at mailbox 0. -/
def migIn : State := withPkt migS 0 migPkt

/-- The block with the key derived and used once. -/
def migD : State :=
  (useTimes (migrationKey (useKey (taken migIn 0) 5 0).2 (migCtx 4 3 (leAt migHead 10 1) (slice migHead 16 16))) migSlot 7
    (ceilDiv migBody.length 4096)).2

/-- The grant it carries. -/
def migG : PartGrant := grantFrom ((((blobRecs migBody.length migBody).find? (fun x => x.1 == 1)).map (·.2)).getD [])

theorem migD_key : (slotAt migD migSlot).key = migK := by
  have hn : ceilDiv migBody.length 4096 = 1 := by decide +kernel
  have h5 : (slotAt (useKey (taken migIn 0) 5 0).2 5).key = (slotAt (useKey migS 5 0).2 5).key := by decide +kernel
  have hk := useKey_migrationKey (useKey (taken migIn 0) 5 0).2 (migCtx 4 3 (leAt migHead 10 1) (slice migHead 16 16))
  have hm := (useKey_migrationKey (useKey migS 5 0).2 (migCtx 4 3 (leAt migHead 10 1) (slice migHead 16 16))).1
  obtain ⟨hk, u, hu, hku⟩ := hk
  unfold migD migK
  rw [hn, useTimes, hu]
  simp only [ne_eq, not_true_eq_false, if_false, useTimes]
  rw [hku, hk, hm, h5]

/-- FreezeAndMigration: a blob that opens, to a grant that may be created. -/
theorem test_witness_mig_restore :
    migPkt.blob.take 64 = migHead ∧ leAt migHead 32 4 = migBody.length ∧ takes migIn 0 .migRestore migPkt = true ∧ (useKey migIn 5 0).1 = stOk ∧
    channelUp migIn = true ∧
    openSegs (slotAt migD migSlot).key migHead (ceilDiv migBody.length 4096) 0 migBody.length (migPkt.blob.drop 64) = some migBody ∧
    migIn.parts.salts.contains (slice migHead 16 16) = false ∧ createCheck migD 0 migG = none ∧
    migIn.parts.ctx.length + (blobRecs migBody.length migBody).countP (fun x => x.1 == 2) ≤ 4096 := by
  have hh : migHead.length = 64 := by decide +kernel
  obtain ⟨e1, e2⟩ := split_append migHead
    (gcmCrypt migK (segIv 0) migBody ++ gcmTag migK (segIv 0) (migHead ++ leBytes 4 0) (gcmCrypt migK (segIv 0) migBody)) 64 hh
  have hn : ceilDiv migBody.length 4096 = 1 := by decide +kernel
  have hp : packetOf migIn 0 .migRestore = some migPkt := by
    simp only [packetOf, migIn, withPkt, mb, setMb, tgetD_tset_same]
    exact if_pos (by decide +kernel)
  have ht : takes migIn 0 .migRestore migPkt = true := by
    unfold takes
    rw [hp]
    simp only [BEq.rfl, Bool.and_true, Bool.and_eq_true]
    and_intros <;> decide +kernel
  refine ⟨e1, by decide +kernel, ht, by decide +kernel, by decide +kernel, ?_, by decide +kernel, by decide +kernel, by decide +kernel⟩
  have e3 : migPkt.blob.drop 64 = _ := e2
  rw [migD_key, hn, e3]
  exact openSegs_one _ _ _ (by decide +kernel) (by decide +kernel)

/-- A live MIGRATION key seals one segment. -/
theorem sealSegs_one (s u : State) (head b : Bytes) (hu : useKey s migSlot 7 = (stOk, u)) (h0 : b.isEmpty = false) :
    ∃ segs, sealSegs s head 1 0 b = (some segs, u) := by
  unfold sealSegs sealUnder
  simp only [h0, Bool.false_eq_true, if_false, hu, ne_eq, not_true_eq_false]
  simp only [sealSegs]
  exact ⟨_, rfl⟩

/-- A frozen partition with a packet that saves it. -/
def migOut : State := withPkt (withPart migS { prt with frozen := true }) 0 (pkt .migSave [0#32, 4#32])

/-- FreezeAndMigration: a frozen partition whose body seals. -/
theorem test_witness_mig_save :
    let d := draw (useKey (taken migOut 0) 5 0).2 16
    let body := blobBody migOut 0
    takes migOut 0 .migSave (pkt .migSave [0#32, 4#32]) = true ∧ (partAt migOut 0).live = true ∧ (partAt migOut 0).frozen = true ∧
    (useKey migOut 5 0).1 = stOk ∧ channelUp migOut = true ∧ migOut.hub.drbgRefuse = false ∧
    ∃ segs t, sealSegs (migrationKey d.2 (migCtx 3 4 0 d.1)) (blobHead 3 4 0 d.1 body.length) (ceilDiv body.length 4096) 0 body = (some segs, t) := by
  refine ⟨by decide +kernel, by decide +kernel, by decide +kernel, by decide +kernel, by decide +kernel, by decide +kernel, ?_⟩
  have hn : ceilDiv (blobBody migOut 0).length 4096 = 1 := by decide +kernel
  rw [hn]
  obtain ⟨_, u, hu, _⟩ := useKey_migrationKey (draw (useKey (taken migOut 0) 5 0).2 16).2 (migCtx 3 4 0 (draw (useKey (taken migOut 0) 5 0).2 16).1)
  obtain ⟨segs, h⟩ := sealSegs_one _ u (blobHead 3 4 0 (draw (useKey (taken migOut 0) 5 0).2 16).1 (blobBody migOut 0).length) (blobBody migOut 0) hu (by decide +kernel)
  exact ⟨segs, u, h⟩

/-! Enrolment: a policy that admits the block, and wrapped keys that open. -/

/-- The fields of a policy of domain 9 that admits vertices 3 to 7, with vertex 3 in its lead set. -/
def polHead : Bytes :=
  leBytes 4 0x4C505654 ++ (leBytes 4 1 ++ (leBytes 8 9 ++ (leBytes 4 1 ++ (leBytes 4 0 ++ (leBytes 8 3 ++ (leBytes 4 0 ++ (leBytes 4 0 ++ (leBytes 4 1 ++
  (leBytes 4 1 ++ (List.replicate 848 0 ++ [0xF8#8]))))))))))

/-- The policy. -/
def polBlob : Bytes := polHead ++ List.replicate 15615 0

theorem length_polHead : polHead.length = 897 := by decide +kernel

/-- A field within the head is that of the head. -/
theorem slice_pol (i n : Nat) (h : i + n ≤ 897) : slice polBlob i n = slice polHead i n :=
  slice_append_left polHead _ i n (by rw [length_polHead]; exact h)

theorem leAt_pol (i n : Nat) (h : i + n ≤ 897) : leAt polBlob i n = leAt polHead i n := by rw [leAt, slice_pol i n h, leAt]

theorem polBlob_formed : policyFormed polBlob = true := by
  have hz : zeroAt polBlob 0x4013 13 = true := by
    rw [zeroAt, slice, polBlob, List.drop_append, length_polHead, List.drop_replicate, List.drop_of_length_le (by rw [length_polHead]; decide)]
    decide
  have hl : polBlob.length = 16512 := by rw [polBlob, List.length_append, length_polHead, List.length_replicate]
  have h1 : leAt polHead 0x28 4 = 1 := by decide +kernel
  have h2 : leAt polHead 0x2C 4 = 1 := by decide +kernel
  unfold policyFormed
  simp only [leAt_pol, zeroAt, slice_pol, h1, h2, Nat.reduceAdd, Nat.reduceMul, Nat.reduceSub, Nat.reduceLeDiff] at hz ⊢
  rw [hl, hz]
  decide +kernel

theorem polBlob_parsed : parsePolicy polBlob = { parsePolicy polHead with bitmap := slice polBlob 0x380 8192, digest := sha3 polBlob } := by
  have h1 : leAt polHead 0x28 4 = 1 := by decide +kernel
  have h2 : leAt polHead 0x2C 4 = 1 := by decide +kernel
  unfold parsePolicy
  simp only [leAt_pol, slice_pol, h1, h2, Nat.reduceAdd, Nat.reduceLeDiff, show List.range 1 = [0] from rfl, show List.range 4 = [0, 1, 2, 3] from rfl,
    List.map_cons, List.map_nil, Nat.reduceMul]

/-- A packet that enrols vertex 3, as the Lead where FLAGS has bit 0. -/
def enrolPkt (flags : Word) : Packet := { pkt .domainEnrol [flags, 3#32, 5#32, 0#32] with blob := polBlob }

/-- A block with its identity, its firmware digest and the link layer's streams set up. -/
def ready_ (s : State) : State :=
  { s with
    win := [(0x1A008, 16#32)]
    ident := { s.ident with avail := true }
    hub := { s.hub with digest := List.replicate 64 0 } }

theorem packetOf_withPkt (s : State) (src : Nat) (k : Packet) : packetOf (withPkt s src k) src k.op = some k := by
  simp [packetOf, withPkt, mb, setMb]

/-- Enrolment: the block may be the Lead of a new domain, join one, become a lead of its own, and move to another parent. -/
theorem test_witness_enrol_passes :
    (∀ flags ∈ [0#32, 1#32], ∀ s ∈ [ready_ up, ready_ memb], takes (withPkt s 0 (enrolPkt flags)) 0 .domainEnrol (enrolPkt flags) = true) ∧
    (∀ flags ∈ [0#32, 1#32], ∀ s ∈ [ready_ up, ready_ memb], enrolCheck s (enrolPkt flags) true = none) ∧
    (ready_ up).dom.member = false ∧ (ready_ memb).dom.member = true ∧ fld 0#32 1 0 ≠ 1 ∧ fld 1#32 1 0 = 1 ∧ (ready_ up).hub.drbgRefuse = false := by
  refine ⟨fun flags hf s hs => ?_, fun flags hf s hs => ?_, by decide, by decide, by decide, by decide, by decide⟩
  · unfold takes
    rw [show packetOf (withPkt s 0 (enrolPkt flags)) 0 .domainEnrol = some (enrolPkt flags) from packetOf_withPkt s 0 (enrolPkt flags)]
    simp only [BEq.rfl, Bool.and_true]
    simp only [List.mem_cons, List.not_mem_nil, or_false] at hf hs
    rcases hf with rfl | rfl <;> rcases hs with rfl | rfl <;> decide +kernel
  · unfold enrolCheck
    rw [show (enrolPkt flags).blob = polBlob from rfl, polBlob_parsed, polBlob_formed]
    simp only [List.mem_cons, List.not_mem_nil, or_false] at hf hs
    rcases hf with rfl | rfl <;> rcases hs with rfl | rfl <;> decide +kernel

theorem slice_mid (a b c : Bytes) (i n : Nat) (ha : a.length = i) (hb : b.length = n) : slice (a ++ (b ++ c)) i n = b := by
  rw [slice, (split_append a (b ++ c) i ha).2, (split_append b c n hb).1]

/-- What a wrapped key opens to, where it was wrapped under the same key. -/
theorem unwrapKey_built (tk : BitVec 256) (kind dom gen vertex : Nat) (nonce c : Bytes) (hn : nonce.length = 12) (hc : c.length = 32) :
    unwrapKey tk (wrapHead kind dom gen vertex ++ (nonce ++ (c ++ gcmTag tk nonce (wrapHead kind dom gen vertex) c))) kind dom gen vertex =
      some (keyOf (gcmCrypt tk nonce c)) := by
  have hh : (wrapHead kind dom gen vertex).length = 20 := rfl
  have ht := gcmTag_length tk nonce (wrapHead kind dom gen vertex) c
  generalize hw : wrapHead kind dom gen vertex = w at hh ht ⊢
  generalize hg : gcmTag tk nonce w c = t at ht ⊢
  have e1 : slice (w ++ (nonce ++ (c ++ t))) 20 12 = nonce := slice_mid _ _ _ _ _ hh hn
  have e2 : slice (w ++ (nonce ++ (c ++ t))) 32 32 = c := by
    rw [← List.append_assoc]; exact slice_mid _ _ _ _ _ (by rw [List.length_append, hh, hn]) hc
  have e3 : slice (w ++ (nonce ++ (c ++ t))) 64 16 = t := by
    have h := slice_mid (w ++ nonce ++ c) t [] 64 16 (by simp only [List.length_append, hh, hn, hc]) ht
    simpa only [List.append_nil, List.append_assoc] using h
  unfold unwrapKey
  rw [e1, e2, e3, (split_append w _ 20 hh).1, hw]
  exact if_pos ⟨by simp only [List.length_append, hh, hn, hc, ht], rfl, hg⟩

/-- A key wrapped under TK 0, in a message after 16 bytes of header. -/
def wrap0 (kind gen : Nat) : Bytes :=
  let n : Bytes := List.replicate 12 0
  let c : Bytes := List.replicate 32 0
  wrapHead kind 9 gen 3 ++ (n ++ (c ++ gcmTag 0 n (wrapHead kind 9 gen 3) c))

/-- What it opens to. -/
def key0 : BitVec 256 := keyOf (gcmCrypt 0 (List.replicate 12 0) (List.replicate 32 0))

theorem length_wrap0 (kind gen : Nat) : (wrap0 kind gen).length = 80 := by simp only [wrap0, List.length_append, List.length_replicate, gcmTag_length]; rfl

theorem unwrap0 (kind gen : Nat) : unwrapKey 0 (wrap0 kind gen) kind 9 gen 3 = some key0 :=
  unwrapKey_built 0 kind 9 gen 3 _ _ List.length_replicate List.length_replicate

/-- The header of a REKEY_DIST of generation 2 from vertex 5. -/
def dist0 : Bytes := [1#8, 0#8, 5#8, 0#8, 9#8, 0#8, 0#8, 0#8, 0#8, 0#8, 0#8, 0#8, 2#8, 0#8, 0#8, 0#8]

/-- Rekeys: a REKEY_DIST whose key opens. -/
theorem test_witness_rekey_dist :
    let f := inf { hdr with op := 3, src := 5 } (dist0 ++ wrap0 1 2)
    ctlIn (withIn memb f) f 1 (memb.dom.gen + 1) 80 = true ∧ memb.dom.parent = some (lnk 5) ∧ (lnk 5).peer = f.hdr.src ∧ memb.dom.rekey = none ∧
    unwrapKey (lnk 5).tk (f.payload.drop 16) 1 (domainId memb) (memb.dom.gen + 1) (memb.dom.vertex.getD 0) = some key0 := by
  refine ⟨?_, by decide, by decide, by decide, ?_⟩
  · have h := length_wrap0 1 2
    generalize wrap0 1 2 = w at h ⊢
    have e : ∀ i n, i + n ≤ 16 → leAt (dist0 ++ w) i n = leAt dist0 i n := fun i n hi => by rw [leAt, slice_append_left _ _ _ _ hi, leAt]
    have l : (dist0 ++ w).length = 96 := by rw [List.length_append, h]; rfl
    simp only [ctlIn, isCtl, inf, e, l, Nat.reduceAdd, Nat.reduceLeDiff, Bool.and_eq_true, decide_eq_true_eq]
    and_intros <;> first | rfl | (apply decide_eq_true; rfl) | decide +kernel
  · exact unwrap0 1 2

/-- A JOIN message of generation 1 for the policy of an empty digest. -/
def joinMsg : Bytes := List.replicate 48 0 ++ (leBytes 8 9 ++ (leBytes 4 1 ++ (leBytes 2 3 ++ ([0#8, 0#8] ++ (wrap0 1 1 ++ wrap0 2 1)))))

/-- A block that enrols under vertex 5, with its hybrid session 0. -/
def joining (re : Bool) : State :=
  { withSes memb { ses with conn := .peer 5, requester := true } with
    dom := { memb.dom with
      policy := some { pol with digest := List.replicate 48 0 }
      enrol := some { src := 0, tag := 7, reparent := re, parent := 5, start := 0, accepted := true, joined := false, committed := false } } }

/-- Enrolment: both keys of a JOIN open; they are the block's own, or others. -/
theorem test_witness_join_keys :
    (∀ re, joinKeys (joining re) { ses with conn := .peer 5, requester := true } joinMsg = some (1, key0, key0)) ∧
    (let k := { Slot.zero with key := key0, state := 1 }
     let s := { joining true with keys := { up.keys with slots := [(3, k), (5, k)] } }
     (slotAt s 3).key = key0 ∧ (slotAt s 5).key = key0 ∧ s.dom.gen = 1) ∧
    (joining true).dom.gen = 1 ∧ joinKeys (joining true) { ses with conn := .peer 5, requester := true } [] = none := by
  refine ⟨fun re => ?_, ⟨rfl, rfl, rfl⟩, rfl, ?_⟩
  · have h1 := length_wrap0 1 1
    have h2 := length_wrap0 2 1
    have u1 := unwrap0 1 1
    have u2 := unwrap0 2 1
    have l : joinMsg.length = 224 := by simp [joinMsg, h1, h2]
    have e1 : slice joinMsg 64 80 = wrap0 1 1 := by
      unfold joinMsg
      simp only [← List.append_assoc]
      rw [List.append_assoc]
      exact slice_mid _ _ _ _ _ (by simp) h1
    have e2 : slice joinMsg 144 80 = wrap0 2 1 := by
      unfold joinMsg
      simp only [← List.append_assoc]
      rw [← List.append_nil (wrap0 2 1)]
      exact slice_mid _ _ _ _ _ (by simp [h1]) h2
    have e3 : ∀ i n, i + n ≤ 64 → slice joinMsg i n = slice (List.replicate 48 0 ++ (leBytes 8 9 ++ (leBytes 4 1 ++ (leBytes 2 3 ++ [0#8, 0#8])))) i n := by
      intro i n h
      unfold joinMsg
      simp only [← List.append_assoc]
      rw [List.append_assoc]
      exact slice_append_left _ _ _ _ (by simpa using h)
    have e4 : joinMsg.take 48 = List.replicate 48 0 := (split_append _ _ 48 List.length_replicate).1
    unfold joinKeys
    simp only [leAt, e1, e2, e3, Nat.reduceAdd, Nat.reduceLeDiff, l, e4]
    rw [show ofLe (slice (List.replicate 48 0 ++ (leBytes 8 9 ++ (leBytes 4 1 ++ (leBytes 2 3 ++ [0#8, 0#8])))) 48 8) = 9 by decide +kernel,
      show ofLe (slice (List.replicate 48 0 ++ (leBytes 8 9 ++ (leBytes 4 1 ++ (leBytes 2 3 ++ [0#8, 0#8])))) 56 4) = 1 by decide +kernel,
      show ofLe (slice (List.replicate 48 0 ++ (leBytes 8 9 ++ (leBytes 4 1 ++ (leBytes 2 3 ++ [0#8, 0#8])))) 60 2) = 3 by decide +kernel,
      show ofLe (slice (List.replicate 48 0 ++ (leBytes 8 9 ++ (leBytes 4 1 ++ (leBytes 2 3 ++ [0#8, 0#8])))) 62 2) = 0 by decide +kernel]
    rw [if_pos ⟨trivial, by cases re <;> decide +kernel, by cases re <;> decide +kernel, rfl⟩]
    rw [show ses.tk = 0 from rfl, u1, u2]
  · unfold joinKeys
    rw [if_neg (by simp)]

/-! Update: a tile of zeros passes. -/

/-- An update of 2048 parameters, fused. -/
def upd2 : Upd := { upd with pgd := raw 1 [(1, 1, 1), (4, 4, 2048), (44, 2, 16)] ++ List.replicate 64 0 }

/-- A tile whose pages are empty, so that every value reads as zero. -/
def tile0 : TileIn := { pages := [(0, []), (1, []), (2, [])], grad := some [], poisoned := false }

theorem unpackPlain_zero (n m : Nat) : ∀ v ∈ unpackPlain 0 n (List.replicate m 0#8), v = 0 := by
  induction n generalizing m with
  | zero => intro v hv; simp [unpackPlain] at hv
  | succ n ih =>
    have h4 : fmtBits 0 / 8 = 4 := by decide
    have hz : widenElem 0 (ofLe ((List.replicate m 0#8).take 4)) = 0 := by
      rw [List.take_replicate]
      rcases (by omega : min 4 m = 0 ∨ min 4 m = 1 ∨ min 4 m = 2 ∨ min 4 m = 3 ∨ min 4 m = 4) with h | h | h | h | h <;> rw [h] <;> decide
    intro v hv
    rw [unpackPlain, h4, hz, List.drop_replicate] at hv
    rcases List.mem_cons.mp hv with h | h
    · exact h
    · exact ih _ v h

theorem unpack_zero (n m j : Nat) : (unpack 0 n (List.replicate m 0#8)).getD j 0 = 0 := by
  have h : unpack 0 n (List.replicate m 0#8) = unpackPlain 0 n (List.replicate m 0#8) := if_neg (by decide)
  rw [h, List.getD_eq_getElem?_getD]
  cases hg : (unpackPlain 0 n (List.replicate m 0#8))[j]? with
  | none => rfl
  | some v => exact unpackPlain_zero n m v (List.mem_of_getElem? hg)

/-- Its elements are all zero. -/
theorem tileIns_zero : ∀ x ∈ tileIns upd2 0 tile0, x = (0, 0, 0, 0) := by
  intro x hx
  simp only [tileIns, List.mem_map] at hx
  obtain ⟨j, -, rfl⟩ := hx
  have hp : ∀ n, padTo n ([] : Bytes) = List.replicate n 0#8 := fun n => by simp [padTo]
  have hf : pgdGradFmt upd2.pgd = 0 := by decide +kernel
  have h0 : tgetD tile0.pages 0 [] = [] := rfl
  have h1 : tgetD tile0.pages 1 [] = [] := rfl
  have h2 : tgetD tile0.pages 2 [] = [] := rfl
  have hl : ∀ i, leAt ([] : Bytes) i 4 = 0 := fun i => by simp [leAt, slice, ofLe]
  rw [h0, h1, h2, hf, show tile0.grad.getD [] = [] from rfl, hp, hp, unpack_zero, unpack_zero, hl]

/-- Slices of such elements pass. -/
theorem runSlices_zero (k : Nat) (ins : List ElemIn) (base : Nat) (acc : List Elem) (h : ∀ x ∈ ins, x = (0, 0, 0, 0)) :
    ∃ l, runSlices upd2 k ins base none none acc 0 = .ok l 0 := by
  have hb : elemBad upd2 (0, 0, 0, 0) (elemStep upd2 0 0 0 0) = false := by decide +kernel
  induction k generalizing ins base acc with
  | zero => exact ⟨acc, rfl⟩
  | succ k ih =>
    unfold runSlices
    split
    · exact ⟨acc, rfl⟩
    · have hz : ((ins.take 128).zip ((ins.take 128).map (fun x => elemStep upd2 x.1 x.2.1 x.2.2.1 x.2.2.2))).any (fun z => elemBad upd2 z.1 z.2) = false := by
        rw [List.any_eq_false]
        intro z hz
        rw [List.zip_map_right, List.mem_map] at hz
        obtain ⟨y, hy, rfl⟩ := hz
        rw [List.zip_eq_zipWith, List.zipWith_self, List.mem_map] at hy
        obtain ⟨x, hx, rfl⟩ := hy
        rw [h x (List.mem_of_mem_take hx)]
        simpa using hb
      simp only [upsetElem, hz, Bool.not_false, if_true]
      exact ih _ _ _ fun x hx => h x (List.mem_of_mem_drop hx)

/-- UpdateRuns: a tile that passes, of a fused update with another tile to come. -/
theorem test_witness_tile_ok :
    tileReady upd2 tile0 = true ∧ (tileIns upd2 0 tile0).countP (fun i => gradBad upd2 i.2.2.2) = 0 ∧ upd2.pass = 0 ∧ 0 + 1 < pgdTiles upd2.pgd ∧
    pgdSrc upd2.pgd = 1 ∧ ∃ l, runSlices upd2 8 (tileIns upd2 0 tile0) 0 none none [] 0 = .ok l 0 := by
  refine ⟨by decide +kernel, ?_, rfl, by decide +kernel, by decide +kernel, runSlices_zero _ _ _ _ tileIns_zero⟩
  rw [List.countP_eq_zero]
  intro x hx
  rw [tileIns_zero x hx]
  decide +kernel

end Sys2Proof.Tests
end

section
/-! SUPPORT. Core-side target requests (02 R40, R41; 07 R217 to R229): what the shared operations on the transaction unit do. -/

namespace Sys2Proof.Machine

/- Proofs are elaborated in their order, each before the next. Elaborated beside the tests above, which wait for the kernel in threads
of their own, they make the compile start more threads than the check's memory limit has stacks for. -/
set_option deprecated.oldSectionVars true

/-! Tables, queues and watchpoints. -/

@[simp] theorem tget_tdel_same {α : Type} (t : Tbl α) (i : Nat) : tget (tdel t i) i = none := by
  induction t with
  | nil => rfl
  | cons p t ih =>
    obtain ⟨k, v⟩ := p
    by_cases hk : k = i
    · simpa [tdel, hk] using ih
    · simpa [tdel, hk, tget, Ne.symm hk] using ih

@[simp] theorem tgetD_tdel_same {α : Type} (t : Tbl α) (i : Nat) (d : α) : tgetD (tdel t i) i d = d := by simp [tgetD]

/-- Frames pushed one after the other stand in the queue in their order. -/
theorem foldl_pushTx (fs : List TxFrame) (s : State) :
    fs.foldl pushTx s = { s with fab := { s.fab with txq := s.fab.txq ++ fs } } := by
  induction fs generalizing s with
  | nil => simp
  | cons f fs ih => simp [ih, pushTx]

/-- What a watchpoint notes of a request stands outside the transaction unit (13 R441). -/
@[simp] theorem watchSee_fab (s : State) (port : Nat) (q : CsTarget) : (watchSee s port q).fab = s.fab := by
  unfold watchSee
  refine List.foldlRecOn (motive := fun t : State => t.fab = s.fab) s.dbg.watch _ rfl fun t ht p _ => ?_
  dsimp only
  split
  · exact ht
  · exact ht

/-! A request is taken (07 R217, R221, R229). -/

/-- Ready of a core-side port (01 R24; 02 R55, R66; 07 R229). -/
def csReady (s : State) (port : Nat) : Bool :=
  dataUp s && decide (port < csCount s.size) && drivesLanes s && !parkFull s port && decide (s.fab.tags.length < tagTotal s.size)

/-- The entry of a request none of whose segments has come back. -/
def newCsReq (q : CsTarget) : CsReq :=
  let segs := segsOf (q.op == 1) q.be q.beats 33 0
  { op := q.op, aop := q.aop, beats := q.beats, segs := segs.map (fun _ => { status := none, data := [], poison := 0 }),
    segBeats := segs.map (·.2.1), be := q.be }

theorem newCsReq_segs_open (q : CsTarget) : ∀ x ∈ (newCsReq q).segs, x.status = none := by
  intro x hx
  obtain ⟨_, _, rfl⟩ := List.mem_map.mp hx
  rfl

/-- The entry of a request now stands. -/
def openCsReq (s : State) (port : Nat) (q : CsTarget) : State :=
  { s with fab := { s.fab with reqs := tset s.fab.reqs (csKey port q.tid) (newCsReq q) } }

@[simp] theorem openCsReq_fab (s : State) (port : Nat) (q : CsTarget) : (openCsReq s port q).fab =
    { s.fab with reqs := tset s.fab.reqs (csKey port q.tid) (newCsReq q) } := rfl

/-- The frames of a request to a remote vertex, one for each segment. -/
def csFrames (s : State) (port : Nat) (q : CsTarget) (p c d : Nat) : List TxFrame :=
  let xs := (segsOf (q.op == 1) q.be q.beats 33 0).zipIdx
  xs.map (fun x => segFrame q port p c (epochOf s c) d x.2 (x.2 + 1 == xs.length) x.1)

theorem exec_csTargetRequest (s : State) (port : Nat) (q : CsTarget) (hu : engUp s = true) :
    exec (.csTargetRequest port q) s = .next (finish s (if csReady s port then csRequest (quiet s) port q else quiet s)) :=
  runEng_up _ s hu

theorem exec_csTargetRequest_taken (s : State) (port : Nat) (q : CsTarget) (hu : engUp s = true) (hr : csReady s port = true) :
    exec (.csTargetRequest port q) s = .next (finish s (csRequest (quiet s) port q)) := by
  rw [exec_csTargetRequest s port q hu, if_pos hr]

theorem exec_csTargetRequest_held (s : State) (port : Nat) (q : CsTarget) (hu : engUp s = true) (hr : csReady s port = false) :
    exec (.csTargetRequest port q) s = .next (finish s (quiet s)) := by
  rw [exec_csTargetRequest s port q hu, hr, if_neg Bool.false_ne_true]

/-- A request that fails a check is refused. -/
theorem csRequest_unchecked (s : State) (port : Nat) (q : CsTarget) (st : Nat) (h : csCheck (watchSee s port q) port q = .inl st) :
    csRequest s port q = csRefuse (watchSee s port q) port q.tid q.op q.beats st := by
  simp only [csRequest, h]

/-- A request that no route takes is refused. -/
theorem csRequest_unrouted (s : State) (port : Nat) (q : CsTarget) (p c st : Nat)
    (h : csCheck (watchSee s port q) port q = .inr (p, c, .refuse st)) :
    csRequest s port q = csRefuse (watchSee s port q) port q.tid q.op q.beats st := by
  simp only [csRequest, h]

/-- A request to a remote vertex gets its entry, and its frames leave or are parked. -/
theorem csRequest_remote (s : State) (port : Nat) (q : CsTarget) (p c d : Nat)
    (h : csCheck (watchSee s port q) port q = .inr (p, c, .frames d)) :
    csRequest s port q = sendOrPark (openCsReq (watchSee s port q) port q) port p q.tid (csFrames (watchSee s port q) port q p c d) := by
  simp only [csRequest, h]
  rfl

/-- Frames leave for the queue when nothing is parked before them and the share has room, else they join the park; either way
nothing else of the transaction unit changes. -/
theorem sendOrPark_cases (s : State) (port part tid : Nat) (fs : List TxFrame) :
    (tgetD s.fab.parks (parkKey port part) [] = [] ∧
      shareRoom s (part + 1) fs.length ((fs.map (fun f => flitsOf f.payload.length)).foldl (· + ·) 0) = true ∧
      (sendOrPark s port part tid fs).fab = { s.fab with txq := s.fab.txq ++ fs }) ∨
    (sendOrPark s port part tid fs).fab = { s.fab with
      parks := tset s.fab.parks (parkKey port part)
        (tgetD s.fab.parks (parkKey port part) [] ++ [{ tid := tid, frames := fs }]) } := by
  unfold sendOrPark
  dsimp only
  split
  next h =>
    obtain ⟨hp, hr⟩ := Bool.and_eq_true _ _ ▸ h
    exact .inl ⟨List.isEmpty_iff.mp hp, hr, by rw [foldl_pushTx]⟩
  next =>
    right
    split <;> rfl

/-- The entry of a request to a remote vertex stands with every segment open, and its frames are in the queue or behind those parked
before. -/
theorem csRequest_remote_fab (s : State) (port : Nat) (q : CsTarget) (p c d : Nat)
    (h : csCheck (watchSee s port q) port q = .inr (p, c, .frames d)) :
    tget (csRequest s port q).fab.reqs (csKey port q.tid) = some (newCsReq q) ∧
    let fs := csFrames (watchSee s port q) port q p c d
    ((csRequest s port q).fab.txq = s.fab.txq ++ fs ∧ (csRequest s port q).fab.parks = s.fab.parks ∨
      (csRequest s port q).fab.txq = s.fab.txq ∧ tgetD (csRequest s port q).fab.parks (parkKey port p) [] =
        tgetD s.fab.parks (parkKey port p) [] ++ [{ tid := q.tid, frames := fs }]) := by
  rw [csRequest_remote s port q p c d h]
  rcases sendOrPark_cases (openCsReq (watchSee s port q) port q) port p q.tid (csFrames (watchSee s port q) port q p c d) with
    ⟨_, _, hf⟩ | hf
  · simp [hf]
  · simp [hf]

/-! A park empties (07 R229). -/

theorem exec_parkRelease (s : State) (part : Nat) (hu : engUp s = true) : exec (.parkRelease part) s =
    .next (finish s (((s.fab.parks.filter (fun p => p.1 % 16 == part)).map (·.1)).foldl (drainPark 16) (quiet s))) :=
  runEng_up _ s hu

theorem parkKey_mod (port part : Nat) (h : part < 16) : parkKey port part % 16 = part :=
  (Nat.mul_add_mod' port 16 part).trans (Nat.mod_eq_of_lt h)

/-- An empty park goes. -/
theorem drainPark_empty (n : Nat) (s : State) (k : Nat) (hk : tgetD s.fab.parks k [] = []) :
    drainPark (n + 1) s k = { s with fab := { s.fab with parks := tdel s.fab.parks k } } := by
  rw [drainPark, hk]

/-- The first request of a park leaves when its share has room. -/
theorem drainPark_first (n : Nat) (s : State) (k : Nat) (x : Parked) (t : List Parked) (hk : tgetD s.fab.parks k [] = x :: t)
    (hr : shareRoom s (k % 16 + 1) x.frames.length ((x.frames.map (fun f => flitsOf f.payload.length)).foldl (· + ·) 0) = true) :
    drainPark (n + 1) s k =
      drainPark n (x.frames.foldl pushTx { s with fab := { s.fab with parks := tset s.fab.parks k t } }) k := by
  rw [drainPark, hk]
  exact if_pos hr

/-- A park whose one request has room in its share puts its frames into the queue and goes. -/
theorem drainPark_single (n : Nat) (s : State) (k : Nat) (x : Parked) (hk : tget s.fab.parks k = some [x])
    (hr : shareRoom s (k % 16 + 1) x.frames.length ((x.frames.map (fun f => flitsOf f.payload.length)).foldl (· + ·) 0) = true) :
    drainPark (n + 2) s k = { s with fab := { s.fab with
      txq := s.fab.txq ++ x.frames, parks := tdel (tset s.fab.parks k []) k } } := by
  have hx : tgetD s.fab.parks k [] = [x] := by rw [tgetD, hk, Option.getD_some]
  rw [drainPark_first (n + 1) s k x [] hx hr, foldl_pushTx]
  exact drainPark_empty n _ k (tgetD_tset_same _ _ _ _)

/-! A request is answered (02 R40, R41; 07 R221). -/

/-- The entry of a request is gone. -/
def closeCsReq (s : State) (port tid : Nat) : State :=
  { s with fab := { s.fab with reqs := tdel s.fab.reqs (csKey port tid) } }

theorem tget_closeCsReq (s : State) (port tid : Nat) : tget (closeCsReq s port tid).fab.reqs (csKey port tid) = none :=
  tget_tdel_same _ _

theorem exec_targetResponse (s : State) (port tid : Nat) (hu : engUp s = true) :
    exec (.targetResponse port tid) s = .next (finish s (csRespond (quiet s) port tid)) :=
  runEng_up _ s hu

/-- The poison mask of an answer: of each beat of a LOAD, else of the one result (07 R221). -/
def csRspPoison (r : CsReq) : Nat :=
  if r.op = 0 then joinPoison (r.segs.map (·.poison)) r.segBeats 0 else ((r.segs.head?.map (·.poison)).getD 0) % 2

section
variable (s : State) (port tid : Nat) (r : CsReq) (hr : tget s.fab.reqs (csKey port tid) = some r)
  (hd : ∀ x ∈ r.segs, x.status.isSome = true)
include hd

theorem no_segment_open : r.segs.any (fun x => x.status.isNone) = false := by
  rw [List.any_eq_false]
  intro x hx
  simp [Option.isSome_iff_ne_none.mp (hd x hx)]

include hr

/-- The first status that is not success is the answer's. -/
theorem csRespond_failed (st : Nat) (hf : (r.segs.filterMap (·.status)).find? (· != stOk) = some st) :
    csRespond s port tid =
      emit (closeCsReq s port tid) (.csRsp port tid [] (if r.op = 0 then r.beats else 1) true st (csRspPoison r)) := by
  have hne : st ≠ stOk := by simpa using List.find?_some hf
  simp only [csRespond, hr, no_segment_open r hd, hf, Option.getD_some, hne, ne_eq, not_false_eq_true, if_true, Bool.false_eq_true,
    if_false]
  rfl

/-- A STORE none of whose segments failed is answered without data. -/
theorem csRespond_store (hf : (r.segs.filterMap (·.status)).find? (· != stOk) = none) (ho : r.op = 1) :
    csRespond s port tid = emit (closeCsReq s port tid) (.csRsp port tid [] 1 false stOk 0) := by
  simp [csRespond, hr, no_segment_open r hd, hf, ho, closeCsReq]

/-- A LOAD of several beats none of whose segments failed is answered with the bytes they brought, in their order. -/
theorem csRespond_load (hf : (r.segs.filterMap (·.status)).find? (· != stOk) = none) (ho : r.op = 0) (hb : r.beats ≠ 1)
    (hl : 128 * r.beats ≤ (r.segs.flatMap (·.data)).length) :
    csRespond s port tid = emit (freeBytes (closeCsReq s port tid) (128 * r.beats)).2
      (.csRsp port tid ((r.segs.flatMap (·.data)).take (128 * r.beats)) r.beats false stOk
        (joinPoison (r.segs.map (·.poison)) r.segBeats 0)) := by
  simp [csRespond, hr, no_segment_open r hd, hf, ho, hb, closeCsReq, List.take_append_of_le_length hl]

end

/-- Settles O17: the clauses of R217 and R229 by the route of a taken request, that of a park by its one drain, and those of R41 by
the first failing status and the kind of the request. -/
theorem targetRequests : Obligations.TargetRequests := by
  unfold Obligations.TargetRequests
  intro s port hu
  refine ⟨fun q => ⟨fun hr => exec_csTargetRequest_held s port q hu hr, fun hr st hc => ?_, fun hr p c st hc => ?_,
    fun hr p c d hc => ?_⟩, fun part x hp hf hk hs => ?_, fun tid r hr hd => ⟨fun st hf => ?_, fun hf ho => ?_, fun hf ho hb hl => ?_⟩⟩
  · rw [exec_csTargetRequest_taken s port q hu hr, csRequest_unchecked _ port q st hc]
  · rw [exec_csTargetRequest_taken s port q hu hr, csRequest_unrouted _ port q p c st hc]
  · obtain ⟨he, hq⟩ := csRequest_remote_fab (quiet s) port q p c d hc
    exact ⟨_, exec_csTargetRequest_taken s port q hu hr, ⟨_, he, rfl, rfl, newCsReq_segs_open q⟩, hq⟩
  · refine ⟨_, exec_parkRelease s part hu, ?_⟩
    have hd := drainPark_single 14 (quiet s) (parkKey port part) x hk (by rw [parkKey_mod port part hp]; exact hs)
    simp [hf, hd]
  · have he := csRespond_failed (quiet s) port tid r hr hd st hf
    exact ⟨_, _, exec_targetResponse s port tid hu, by rw [he]; exact tget_closeCsReq _ port tid, by rw [he]; rfl⟩
  · have he := csRespond_store (quiet s) port tid r hr hd hf ho
    exact ⟨_, exec_targetResponse s port tid hu, by rw [he]; exact tget_closeCsReq _ port tid, by rw [he]; rfl⟩
  · have he := csRespond_load (quiet s) port tid r hr hd hf ho hb hl
    exact ⟨_, exec_targetResponse s port tid hu, by rw [he]; exact tget_closeCsReq _ port tid, by rw [he]; rfl⟩

end Sys2Proof.Machine
end

section
/-! SUPPORT. What the end of a membership leaves: the fuses, and a data path that has stopped (04 R133; 05 R167; 08 R275). -/

namespace Sys2Proof.Machine

/- Proofs are elaborated in their order, for the reason given in the section before. -/
set_option deprecated.oldSectionVars true

/-- What a life-cycle transition leaves to be seen: OTP, readiness, the stop of the data path, and the membership. -/
abbrev LifeView := Otp × Bool × Bool × Domain

/-- The view of a state. -/
def lifeView (s : State) : LifeView := (s.otp, s.aon.ready, s.aon.dataStopped, s.dom)

/-- What may follow a view while the memory seal engine goes on: OTP and readiness stay, a stop stays, and of the membership only its end
may come, with a halt. -/
def LifeView.Leads (v w : LifeView) : Prop :=
  w.1 = v.1 ∧ w.2.1 = v.2.1 ∧ (v.2.2.1 = true → w.2.2.1 = true) ∧ (w.2.2.2 = v.2.2.2 ∨ w.2.2.2 = Domain.reset)

@[simp] theorem LifeView.Leads.refl (v : LifeView) : LifeView.Leads v v := ⟨rfl, rfl, id, .inl rfl⟩

/-- A condition chooses between two states. -/
@[simp] theorem lifeView_ite (c : Prop) [Decidable c] (s t : State) :
    lifeView (if c then s else t) = if c then lifeView s else lifeView t := apply_ite _ _ _ _

theorem LifeView.Leads.ite {v : LifeView} {s t : State} (h : LifeView.Leads v (lifeView s)) (c : Prop) [Decidable c]
    (g : LifeView.Leads v (lifeView t)) : LifeView.Leads v (lifeView (if c then s else t)) := by
  split
  · exact h
  · exact g

/-- A fold of steps that keep the view keeps it. -/
theorem lifeView_foldl {α : Type} (l : List α) (f : State → α → State) (h : ∀ t x, lifeView (f t x) = lifeView t) (s : State) :
    lifeView (l.foldl f s) = lifeView s :=
  List.foldlRecOn (motive := fun t => lifeView t = lifeView s) l f rfl fun t ht x _ => (h t x).trans ht

/-- The same of a fold that carries more than the state. -/
theorem LifeView.Leads.foldl {α β : Type} {v : LifeView} (p : β → State) (l : List α) (f : β → α → β)
    (h : ∀ b x, LifeView.Leads v (lifeView (p b)) → LifeView.Leads v (lifeView (p (f b x)))) (b : β)
    (hb : LifeView.Leads v (lifeView (p b))) : LifeView.Leads v (lifeView (p (l.foldl f b))) :=
  List.foldlRecOn (motive := fun b => LifeView.Leads v (lifeView (p b))) l f hb fun b hb x _ => h b x hb

/-! Updates of other parts of the state. -/

@[simp] theorem lifeView_emit (s : State) (o : Output) : lifeView (emit s o) = lifeView s := rfl
@[simp] theorem lifeView_freeN (s : State) : lifeView (freeN s).2 = lifeView s := rfl
@[simp] theorem lifeView_setBits (s : State) (o : Nat) (w : Word) : lifeView (setBits s o w) = lifeView s := rfl
@[simp] theorem lifeView_bumpBy (s : State) (o n : Nat) : lifeView (bumpBy s o n) = lifeView s := rfl
@[simp] theorem lifeView_bump (s : State) (o : Nat) : lifeView (bump s o) = lifeView s := rfl
@[simp] theorem lifeView_reply (s : State) (src : Nat) (op : Op) (tag : Word) (st : Nat) (ps : List Word) :
    lifeView (reply s src op tag st ps) = lifeView s := rfl
@[simp] theorem lifeView_holdAct (s : State) (h : Held) : lifeView (holdAct s h) = lifeView s := rfl
@[simp] theorem lifeView_stopLanes (s : State) : lifeView (stopLanes s) = lifeView s := rfl
@[simp] theorem lifeView_clearKeys (s : State) : lifeView (clearKeys s) = lifeView s := rfl
@[simp] theorem lifeView_clearChords (s : State) : lifeView (clearChords s) = lifeView s := rfl
@[simp] theorem lifeView_clearStreams (s : State) : lifeView (clearStreams s) = lifeView s := rfl
@[simp] theorem lifeView_clearMem (s : State) : lifeView (clearMem s) = lifeView s := rfl
@[simp] theorem lifeView_clearBuffers (s : State) : lifeView (clearBuffers s) = lifeView s := rfl
@[simp] theorem lifeView_flushChords (s : State) : lifeView (flushChords s) = lifeView s := rfl
@[simp] theorem lifeView_freeOwned (s : State) (n : Nat) : lifeView (freeOwned s n) = lifeView s := rfl
@[simp] theorem lifeView_loseRegions (s : State) : lifeView (loseRegions s) = lifeView s := rfl
@[simp] theorem lifeView_placeRec (s : State) (r : AlarmRec) : lifeView (placeRec s r) = lifeView s := rfl
@[simp] theorem lifeView_foldRec (s : State) : lifeView (foldRec s) = lifeView s := rfl
@[simp] theorem lifeView_pushTx (s : State) (f : TxFrame) : lifeView (pushTx s f) = lifeView s := rfl
@[simp] theorem lifeView_hotMod (s : State) (k l : Nat) (f : HotLine → HotLine) : lifeView (hotMod s k l f) = lifeView s := rfl
@[simp] theorem lifeView_pushEack (s : State) (p tc r st : Nat) (d : Bool) : lifeView (pushEack s p tc r st d) = lifeView s := rfl
@[simp] theorem lifeView_noteFailed (s : State) (c e o d v tc st : Nat) : lifeView (noteFailed s c e o d v tc st) = lifeView s := rfl
@[simp] theorem lifeView_emitMreq (s : State) (w : Bool) (a l : Nat) (d : Bytes) (m : List Bool) (p : Option Nat) :
    lifeView (emitMreq s w a l d m p) = lifeView s := rfl
@[simp] theorem lifeView_setPart (s : State) (p : Nat) (r : PartRec) : lifeView (setPart s p r) = lifeView s := rfl
@[simp] theorem lifeView_setDesc (s : State) (d : Nat) (x : Desc) : lifeView (setDesc s d x) = lifeView s := rfl
@[simp] theorem lifeView_setRegion (s : State) (k : Nat) (r : Region) : lifeView (setRegion s k r) = lifeView s := rfl
@[simp] theorem lifeView_useRegionKey (s : State) (n : Nat) : lifeView (useRegionKey s n).2 = lifeView s := rfl
@[simp] theorem lifeView_setOp (s : State) (i : Nat) (o : MemOp) : lifeView (setOp s i o) = lifeView s := rfl
@[simp] theorem lifeView_pushOp (s : State) (o : MemOp) : lifeView (pushOp s o) = lifeView s := rfl
@[simp] theorem lifeView_setJob (s : State) (i : Nat) (j : PageJob) : lifeView (setJob s i j) = lifeView s := rfl
@[simp] theorem lifeView_pushJob (s : State) (k p : Nat) (r : Bool) (o : Option Nat) : lifeView (pushJob s k p r o) = lifeView s := rfl
@[simp] theorem lifeView_ccPut (s : State) (k l i : Nat) (b : Bytes) (d : Bool) : lifeView (ccPut s k l i b d) = lifeView s := rfl
@[simp] theorem lifeView_writeBack (s : State) (k a : Nat) (b : Bytes) : lifeView (writeBack s k a b) = lifeView s := rfl
@[simp] theorem lifeView_noteFault (s : State) (k : Nat) (r : Region) (kind a : Nat) : lifeView (noteFault s k r kind a) = lifeView s := rfl
@[simp] theorem lifeView_wearMod (s : State) (i : Nat) (f : Wear → Wear) : lifeView (wearMod s i f) = lifeView s := rfl
@[simp] theorem lifeView_wearLines (s : State) (r : Region) (n : Nat) : lifeView (wearLines s r n) = lifeView s := rfl

/-- Any other part of the state may be replaced. -/
@[simp] theorem lifeView_mk (pending : List Instr) (out : List Output) (fresh draws : Nat) (size : Size) (tandemEn tandemId : Bool)
    (win cap : Tbl Word) (aon : Aon) (otp : Otp) (hub : Hub) (keys : KeyStore) (ident : Identity) (dom : Domain) (links : Links)
    (fab : Fabric) (mem : Mem) (red : Reduce) (upd : Update) (parts : Parts) (ladder : Ladder) (td : Tandem) (dbg : Debug) :
    lifeView ⟨pending, out, fresh, draws, size, tandemEn, tandemId, win, cap, aon, otp, hub, keys, ident, dom, links, fab, mem, red, upd,
      parts, ladder, td, dbg⟩ = (otp, aon.ready, aon.dataStopped, dom) := rfl

@[simp] theorem lifeView_fold (s : State) : (s.otp, s.aon.ready, s.aon.dataStopped, s.dom) = lifeView s := rfl

/-! Counters, derivations and the mirror. -/

theorem Counts.lifeView {s t : State} (h : Counts s t) : lifeView t = lifeView s := by
  obtain ⟨c, n, w, f, rfl⟩ := h
  rfl

@[simp] theorem lifeView_countEv (s : State) (ev : Nat) (p : Option Nat) (n : Nat) : lifeView (countEv s ev p n) = lifeView s :=
  (countEv_counts s ev p n).lifeView

@[simp] theorem lifeView_countAon (s : State) (j n : Nat) : lifeView (countAon s j n) = lifeView s := (countAon_counts s j n).lifeView

@[simp] theorem lifeView_poisonEaten (s : State) (m : Nat) : lifeView (poisonEaten s m) = lifeView s := by simp [poisonEaten]

@[simp] theorem lifeView_absorb (s : State) (k : Bytes) (n : Nat) : lifeView (absorb s k n) = lifeView s := by simp [absorb]

@[simp] theorem lifeView_absorbZero (s : State) (n : Nat) : lifeView (absorbZero s n) = lifeView s := lifeView_absorb _ _ _

@[simp] theorem lifeView_derive (s : State) (k : BitVec 256) (l : String) (c : Bytes) : lifeView (derive s k l c).2 = lifeView s := by
  simp [derive, deriveFrom]

@[simp] theorem lifeView_mirrorRec (s : State) (r : Mirror) : lifeView (mirrorRec s r) = lifeView s := by simp [mirrorRec]

/-! Answers of the memory seal engine. -/

@[simp] theorem lifeView_keyMiss (s : State) (k g : Nat) : lifeView (keyMiss s k g) = lifeView s := by simp [keyMiss]

@[simp] theorem lifeView_noteDirty (s : State) (p a l : Nat) : lifeView (noteDirty s p a l) = lifeView s := by
  unfold noteDirty
  split <;> simp

@[simp] theorem lifeView_pmReq (s : State) (u : PmUse) (w : Bool) (a l : Nat) (d : Bytes) (m : List Bool) (p : Option Nat) :
    lifeView (pmReq s u w a l d m p) = lifeView s := by
  unfold pmReq
  cases p <;> simp

@[simp] theorem lifeView_pumpCopy (n : Nat) (s : State) (e : Nat) : lifeView (pumpCopy n s e) = lifeView s := by
  induction n generalizing s with
  | zero => rfl
  | succ n ih =>
    unfold pumpCopy
    split <;> simp [ih]

@[simp] theorem lifeView_completeDesc (s : State) (d st r : Nat) : lifeView (completeDesc s d st r) = lifeView s := by
  unfold completeDesc
  split
  · rfl
  · simp [apply_ite Prod.snd]

@[simp] theorem lifeView_finishCopy (s : State) (e : Nat) : lifeView (finishCopy s e) = lifeView s := by
  unfold finishCopy
  split <;> simp

@[simp] theorem lifeView_chunkDone (s : State) (e c st : Nat) : lifeView (chunkDone s e c st) = lifeView s := by
  unfold chunkDone
  split <;> simp

@[simp] theorem lifeView_signalDone (s : State) (d st old : Nat) : lifeView (signalDone s d st old) = lifeView s := by
  unfold signalDone
  split
  · rfl
  · split <;> simp

@[simp] theorem lifeView_setSeg (s : State) (p t i st : Nat) (d : Bytes) (po : Nat) : lifeView (setSeg s p t i st d po) = lifeView s := by
  unfold setSeg
  split <;> rfl

@[simp] theorem lifeView_tileDone (s : State) (d t p : Nat) (w : Bool) (st : Nat) (b : Bytes) (po : Bool) :
    lifeView (tileDone s d t p w st b po) = lifeView s := by
  unfold tileDone
  split <;> rfl

@[simp] theorem lifeView_pushRsp (s : State) (src tc str rt k b st po : Nat) (d : Bytes) (o : Option (Nat × Nat))
    (c : Option (Nat × Nat × Nat)) : lifeView (pushRsp s src tc str rt k b st po d o c) = lifeView s := by
  unfold pushRsp
  cases o <;> rfl

@[simp] theorem lifeView_answer (s : State) (who : Who) (w : Bool) (st : Nat) (d : Bytes) (po : Nat) :
    lifeView (answer s who w st d po) = lifeView s := by
  cases who <;> simp [answer]

@[simp] theorem lifeView_startWriteback (s : State) (k l : Nat) : lifeView (startWriteback s k l) = lifeView s := by
  unfold startWriteback
  split <;> simp

@[simp] theorem lifeView_hotPressure (s : State) : lifeView (hotPressure s) = lifeView s := by
  unfold hotPressure
  simp [lifeView_foldl]

@[simp] theorem lifeView_hotDone (s : State) (o : MemOp) (st : Nat) (d : Bytes) (po : Nat) :
    lifeView (hotDone s o st d po) = lifeView s := by
  unfold hotDone
  split
  · split <;> simp
  · simp

@[simp] theorem lifeView_memFinish (s : State) (i : Nat) (o : MemOp) (st : Nat) (d : Bytes) (po : Nat) :
    lifeView (memFinish s i o st d po) = lifeView s := by
  unfold memFinish
  split
  · simp
  · simp only [lifeView_ite, lifeView_holdAct, lifeView_answer, lifeView_noteFailed, ite_self, lifeView_mk, lifeView_fold]
    split <;> simp

/-! The counter cache and the lines. -/

@[simp] theorem lifeView_notePoison (s : State) (r : Region) (n : Nat) : lifeView (notePoison s r n) = lifeView s := by
  simp [notePoison]

@[simp] theorem lifeView_wearSee (s : State) (r : Region) (n : Nat) : lifeView (wearSee s r n) = lifeView s := by
  unfold wearSee
  extract_lets grow new t
  split
  · exact lifeView_setBits _ _ _
  · exact lifeView_wearMod _ _ _

@[simp] theorem lifeView_hotWrite (s : State) (k l : Nat) (d : Bytes) : lifeView (hotWrite s k l d) = lifeView s := by
  simp [hotWrite]

@[simp] theorem lifeView_cbPut (s : State) (k p : Nat) (b : Bytes) : lifeView (cbPut s k p b) = lifeView s := by simp [cbPut]

@[simp] theorem lifeView_setParentCtr (s : State) (k : Nat) (r : Region) (l i v : Nat) :
    lifeView (setParentCtr s k r l i v) = lifeView s := by
  unfold setParentCtr
  split
  · simp
  · split <;> simp

@[simp] theorem lifeView_ctagSet (s : State) (k p : Nat) (t : Bytes) : lifeView (ctagSet s k p t) = lifeView s := by
  unfold ctagSet
  dsimp only
  split <;> simp

@[simp] theorem lifeView_doubt (s : State) (k p : Nat) (h : Bool) : lifeView (fillInstall.doubt s k p h) = lifeView s := by
  simp [fillInstall.doubt]

@[simp] theorem lifeView_privWrite (s : State) (i : Nat) (o : MemOp) (r : Region) (cb : Bytes) (k : BitVec 256)
    (ls : List (Nat × Bytes)) (st : Nat) (old : Bytes) : lifeView (privWrite s i o r cb k ls st old) = lifeView s := by
  simp [privWrite]

@[simp] theorem lifeView_withoutLines (s : State) (n : Nat) (o : MemOp) (bad : List Nat) (st : Nat) :
    lifeView (withoutLines s n o bad st) = lifeView s := by
  simp [withoutLines]

theorem lifeView_staleEpoch (s : State) (k : Nat) (r : Region) (km : BitVec 256) (e n : Nat) (ps : List ModReq) :
    lifeView (staleEpoch s k r km e n ps).2 = lifeView s := by
  unfold staleEpoch
  refine List.foldlRecOn (motive := fun a : Bool × State => lifeView a.2 = lifeView s) _ _ rfl fun a ha x _ => ?_
  split
  · exact ha
  · dsimp only
    split <;> simpa using ha

@[simp] theorem lifeView_sendParts (s : State) (i v k e : Nat) (sh : Bool) (ms : List ModReq) :
    lifeView (sendParts s i v k e sh ms).1 = lifeView s := by
  unfold sendParts
  refine List.foldlRecOn (motive := fun a : State × List ModReq => lifeView a.1 = lifeView s) _ _ rfl fun a ha x _ => ?_
  dsimp only
  split <;> simpa using ha

@[simp] theorem lifeView_pumpMods (s : State) : lifeView (pumpMods s) = lifeView s := by
  unfold pumpMods
  dsimp only
  repeat rw [lifeView_foldl]
  all_goals
    intro t x
    split <;> simp

/-! What may halt the block. -/

theorem lifeView_handOver (s : State) (c : Nat) : lifeView (handOver s c) = lifeView s := by simp [handOver]

theorem lifeView_endLevels (s : State) : lifeView (endLevels s) = lifeView s := by
  unfold endLevels
  dsimp only
  rw [lifeView_foldl]
  · simp
  · intro t q
    simp [keepRec]

@[simp] theorem lifeView_loseDomain (s : State) :
    lifeView (loseDomain s) = ((lifeView s).1, (lifeView s).2.1, (lifeView s).2.2.1, Domain.reset) := rfl

/-- A halt stops the data path and ends the membership (12 R400). -/
theorem lifeView_haltBlock (s : State) (c : Nat) (h : s.aon.haltReq = false) :
    lifeView (haltBlock s c) = ((lifeView s).1, (lifeView s).2.1, true, Domain.reset) := by
  have hl : lifeView (endLevels (clearChords (clearKeys (stopLanes (handOver s (haltHand c)))))) = lifeView s := by
    rw [lifeView_endLevels, lifeView_clearChords, lifeView_clearKeys, lifeView_stopLanes, lifeView_handOver]
  simp only [haltBlock, h, Bool.false_eq_true, if_false, lifeView_loseDomain, lifeView_clearMem, lifeView_clearBuffers,
    lifeView_clearStreams]
  generalize endLevels _ = t at hl
  rw [← hl]
  split <;> rfl

@[simp] theorem LifeView.Leads.haltBlock {v : LifeView} {s : State} (h : LifeView.Leads v (lifeView s)) (c : Nat) :
    LifeView.Leads v (lifeView (haltBlock s c)) := by
  cases hh : s.aon.haltReq with
  | true => simpa [Machine.haltBlock, hh] using h
  | false =>
    rw [lifeView_haltBlock s c hh]
    obtain ⟨ho, hr, -, -⟩ := h
    exact ⟨ho, hr, fun _ => rfl, .inr rfl⟩

variable {v : LifeView} {s : State}

@[simp] theorem LifeView.Leads.occur (h : LifeView.Leads v (lifeView s)) (r : AlarmRec) (ch : Option Nat) :
    LifeView.Leads v (lifeView (occur s r ch)) := by
  unfold Machine.occur
  extract_lets sec old a b c ps d fold excess x y
  have hd : LifeView.Leads v (lifeView d) := by
    have hc : lifeView c = lifeView s := by simp [c, b, a, old]
    unfold d
    split
    · simpa [hc] using h
    · simpa [hc] using h
  have hx : LifeView.Leads v (lifeView x) := by simpa [x] using hd
  have hy : LifeView.Leads v (lifeView y) := by simpa [y] using hd
  split
  · exact (hx.haltBlock 1).ite _ hx
  · split
    · exact (hy.haltBlock 1).ite _ hy
    · exact hd.haltBlock 2

@[simp] theorem LifeView.Leads.sealFault (h : LifeView.Leads v (lifeView s)) (k : Nat) (r : Region) (kind a st : Nat) :
    LifeView.Leads v (lifeView (sealFault s k r kind a st)) := by
  simp [Machine.sealFault, h]

@[simp] theorem LifeView.Leads.exhaustRegion (h : LifeView.Leads v (lifeView s)) (k : Nat) (r : Region) (t : Bool) (a : Nat) :
    LifeView.Leads v (lifeView (exhaustRegion s k r t a)) := by
  unfold Machine.exhaustRegion
  exact LifeView.Leads.occur (by simpa using h) _ _

/-! Fills of the counter cache (08 R273, R274). -/

theorem LifeView.Leads.ccEvict (h : LifeView.Leads v (lifeView s)) (k : Nat) : LifeView.Leads v (lifeView (ccEvict s k)) := by
  unfold Machine.ccEvict
  extract_lets kid l i gone
  split
  · have hg : ∀ t, lifeView (gone t) = lifeView t := fun _ => rfl
    split
    · simp [hg, h]
    · split
      · simp [hg, h]
      · split
        · extract_lets km a tag b
          have ha : lifeView a = lifeView s := by simp [a, km]
          have hb : lifeView b = lifeView s := by
            unfold b
            split <;> simp [ha]
          split
          · exact h.exhaustRegion _ _ _ _
          · split <;> simp [hg, ha, hb, h]
        · simp [h]
        · exact h
  · exact h

theorem LifeView.Leads.ccRoom (n : Nat) (h : LifeView.Leads v (lifeView s)) (p m vic : Nat) :
    LifeView.Leads v (lifeView (ccRoom n s p m vic)) := by
  induction n generalizing s with
  | zero => exact h
  | succ n ih =>
    unfold Machine.ccRoom
    dsimp only
    split
    · exact h
    · split
      · exact h
      · exact ih (h.ccEvict _)

theorem LifeView.Leads.verifyChain (k : Nat) (f : Fill) (km : BitVec 256) (l : List (Nat × Nat)) (h : LifeView.Leads v (lifeView s)) :
    LifeView.Leads v (lifeView (verifyChain k f km l s).1) := by
  induction l generalizing s with
  | nil => exact h
  | cons x t ih =>
    unfold Machine.verifyChain
    split
    · exact h
    · split
      · exact ih h
      · split
        · exact h
        · exact ih (by simpa using h)
        · extract_lets d want good u
          split
          · exact h
          · split
            · exact h.sealFault _ _ _ _ _
            · exact ih (by simpa [u] using h)

theorem LifeView.Leads.fillInstall (h : LifeView.Leads v (lifeView s)) (i : Nat) (f : Fill) (r : Region) (km : BitVec 256) (vic : Nat) :
    LifeView.Leads v (lifeView (fillInstall s i f r km vic).1) := by
  unfold Machine.fillInstall
  extract_lets n t m u j tags had w x bad y z
  have ht : LifeView.Leads v (lifeView t) := h.ccRoom 32 r.part n vic
  have hx : LifeView.Leads v (lifeView x) := by simpa [x, w, u] using ht
  have hz : LifeView.Leads v (lifeView z.1) := by
    unfold z y
    split
    · exact hx
    · exact hx.verifyChain f.kid f km f.items.reverse
  split
  · exact ht
  · split
    · exact hz
    · simpa using hz

theorem LifeView.Leads.ensureFill (h : LifeView.Leads v (lifeView s)) (k : Nat) (r : Region) (p : Nat) :
    LifeView.Leads v (lifeView (ensureFill s k r p)) := by
  unfold Machine.ensureFill
  split
  · exact h
  · extract_lets items j dark reads held reads' n f old new t
    have ht : LifeView.Leads v (lifeView t) := h
    split
    · exact ht.fillInstall _ _ _ _ _
    · split
      · simpa using ht
      · exact ht

/-! Operations and page jobs (08 R269 to R286). -/

theorem LifeView.Leads.applyOp (h : LifeView.Leads v (lifeView s)) (o : MemOp) (r : Region) (cb : Bytes) (g : Nat → Opened) :
    LifeView.Leads v (lifeView (applyOp s o r cb g).1) := by
  unfold Machine.applyOp
  refine LifeView.Leads.foldl Prod.fst _ _ (fun a i ha => ?_) _ h
  dsimp only
  split
  · simp [ha]
  · split
    · exact ha
    · split
      · exact ha
      · exact ha
      · split <;> simp [ha]

theorem LifeView.Leads.privAdvance (h : LifeView.Leads v (lifeView s)) (i : Nat) (o : MemOp) (r : Region) (cb : Bytes) (k : BitVec 256) :
    LifeView.Leads v (lifeView (privAdvance s i o r cb k)) := by
  unfold Machine.privAdvance
  split
  · simpa using h
  · split
    · extract_lets a
      have ha : LifeView.Leads v (lifeView a.1) := h.applyOp _ _ _ _
      simpa using ha
    · extract_lets a
      have ha : LifeView.Leads v (lifeView a.1) := by
        refine LifeView.Leads.foldl Prod.fst _ _ (fun a i ha => ?_) _ h
        dsimp only
        split
        · exact ha
        · split
          · exact ha
          · exact ha
          · split
            · simpa using ha
            · exact ha
            · exact ha.sealFault _ _ _ _ _
      simpa using ha

theorem LifeView.Leads.sharedAdvance (h : LifeView.Leads v (lifeView s)) (i : Nat) (o : MemOp) (r : Region) (k : BitVec 256) :
    LifeView.Leads v (lifeView (sharedAdvance s i o r k)) := by
  unfold Machine.sharedAdvance
  split
  · simpa using h
  · extract_lets d bank lines t a
    split
    · simpa [t, d] using h
    · have ha : LifeView.Leads v (lifeView a.1) := by
        refine LifeView.Leads.foldl Prod.fst _ _ (fun a i ha => ?_) _ (by simpa [d] using h)
        dsimp only
        split
        · simpa using ha
        · exact ha
        · have hv := (lifeView_staleEpoch a.1 o.kid r k o.epoch (o.line + i) o.parts).symm ▸ ha
          split
          · simpa using hv
          · exact hv.sealFault _ _ _ _ _
      simpa using ha

theorem LifeView.Leads.sharedStart (h : LifeView.Leads v (lifeView s)) (i : Nat) (o : MemOp) (r : Region) :
    LifeView.Leads v (lifeView (sharedStart s i o r)) := by
  unfold Machine.sharedStart
  split
  · simpa using h
  · extract_lets k bank ns groups tags ps o'
    have hk : LifeView.Leads v (lifeView k.2) := h
    exact (hk.sharedAdvance _ _ _ _).ite _ hk

theorem LifeView.Leads.privStart (h : LifeView.Leads v (lifeView s)) (i : Nat) (o : MemOp) (r : Region) :
    LifeView.Leads v (lifeView (privStart s i o r)) := by
  unfold Machine.privStart
  extract_lets page need
  refine LifeView.Leads.ite (h.privAdvance _ _ _ _ _) _ (LifeView.Leads.ite ?_ _ (LifeView.Leads.ite ?_ _ (LifeView.Leads.ite h _ ?_)))
  · simpa using h
  · simpa using h.applyOp _ _ _ _
  · split
    · exact h.ensureFill _ _ _
    · refine LifeView.Leads.ite ?_ _ ?_
      · simpa using h
      · split
        · simpa using h
        · extract_lets k t st minor part spill u fetch outs whole tags ps o'
          have ht : LifeView.Leads v (lifeView t) := h
          have hu : lifeView u = lifeView t :=
            (lifeView_foldl _ _ (fun t x => lifeView_hotWrite t _ _ _) _).trans (lifeView_bump _ _)
          refine LifeView.Leads.ite ?_ _ (LifeView.Leads.ite ?_ _ (LifeView.Leads.ite ?_ _ (LifeView.Leads.ite ?_ _ ?_)))
          · simpa using ht.exhaustRegion _ _ _ _
          · simpa [hu] using ht
          · simpa using ht
          · exact ht.privAdvance _ _ _ _ _
          · simpa using ht

theorem LifeView.Leads.jobAdvance (h : LifeView.Leads v (lifeView s)) (i : Nat) (j : PageJob) (r : Region) (a b : BitVec 256) :
    LifeView.Leads v (lifeView (jobAdvance s i j r a b)) := by
  unfold Machine.jobAdvance
  extract_lets op mem t ns sick c bad old' get d lines cb' e f g w
  clear_value op
  have ht : LifeView.Leads v (lifeView t) := h
  split
  · split
    · simpa using ht
    · rw [lifeView_foldl _ _ (fun t x => lifeView_memFinish t _ _ _ _ _)]
      exact ht
  · split
    · simpa using h
    · have hc : LifeView.Leads v (lifeView c.1) := by
        refine LifeView.Leads.foldl Prod.fst _ _ (fun a n ha => ?_) _ h
        split
        · exact ha
        · exact ha
        · split
          · exact ha
          · exact ha
          · exact ha.sealFault _ _ _ _ _
      have hd : LifeView.Leads v (lifeView d.1) := by
        unfold d
        split
        · exact hc.applyOp _ _ _ _
        · exact hc
      have hg : LifeView.Leads v (lifeView g) := by simpa [g, f, e] using hd
      rw [lifeView_setJob]
      unfold w
      split
      · simpa using hg
      · exact hg

theorem LifeView.Leads.jobTry (h : LifeView.Leads v (lifeView s)) (i : Nat) (j : PageJob) : LifeView.Leads v (lifeView (jobTry s i j)) := by
  unfold Machine.jobTry
  split
  · extract_lets gNew go at_ mem ns ps j' t
    split
    · split
      · split
        · exact h.jobAdvance _ _ _ _ _
        · simpa using h
      · exact h
    · split
      · exact h
      · split
        · exact h
        · split
          · simpa using h
          · have ht : LifeView.Leads v (lifeView t) := h
            exact (ht.jobAdvance _ _ _ _ _).ite _ ht
  · exact h.ensureFill _ _ _
  · exact h

theorem LifeView.Leads.memTry (h : LifeView.Leads v (lifeView s)) (i : Nat) : LifeView.Leads v (lifeView (memTry s i)) := by
  have ended : ∀ o st, LifeView.Leads v (lifeView (memFinish s i o st [] 0)) := fun o st => by simpa using h
  have miss : ∀ k g, LifeView.Leads v (lifeView (keyMiss s k g)) := fun k g => by simpa using h
  unfold Machine.memTry
  split
  · exact h
  · split
    · exact ended _ _
    · split
      · exact (ended _ _).ite _ ((ended _ _).ite _ ((ended _ _).ite _ (h.ite _ ((h.sharedStart _ _ _).ite _ (h.privStart _ _ _)))))
      · refine h.ite _ ((ended _ _).ite _ ((ended _ _).ite _ ((ended _ _).ite _ (LifeView.Leads.ite ?_ _ ?_))))
        · split
          · exact h.sharedAdvance _ _ _ _
          · exact miss _ _
        · split
          · exact h.ensureFill _ _ _
          · split
            · exact h.privAdvance _ _ _ _ _
            · exact miss _ _
      · exact h

theorem LifeView.Leads.loseHot (h : LifeView.Leads v (lifeView s)) : LifeView.Leads v (lifeView (loseHot s)) := by
  unfold Machine.loseHot
  refine LifeView.Leads.foldl id _ _ (fun t x ht => ?_) _ h
  dsimp only [id]
  split
  · exact ht
  · split
    · exact LifeView.Leads.ensureFill ht _ _ _
    · simpa using ht

theorem LifeView.Leads.memPass (h : LifeView.Leads v (lifeView s)) : LifeView.Leads v (lifeView (memPass s)) := by
  unfold Machine.memPass
  extract_lets t u
  have ht : LifeView.Leads v (lifeView t) := h.loseHot
  have hu : LifeView.Leads v (lifeView u) := LifeView.Leads.foldl id _ _ (fun _ _ h => LifeView.Leads.memTry h _) _ ht
  refine LifeView.Leads.foldl id _ _ (fun t x ht => ?_) _ hu
  dsimp only [id]
  split
  · exact LifeView.Leads.jobTry ht _ _
  · exact ht

/-- The memory seal engine leaves OTP and readiness alone, and of the membership it may only meet its end. -/
theorem LifeView.Leads.pumpMem (h : LifeView.Leads v (lifeView s)) : LifeView.Leads v (lifeView (pumpMem s)) := by
  rw [Machine.pumpMem, lifeView_pumpMods]
  exact h.memPass.memPass

/-! The end of a membership (05 R167). -/

@[simp] theorem lifeView_failDomainCmds (s : State) : lifeView (failDomainCmds s) = lifeView s := by
  refine lifeView_foldl _ _ (fun t b => ?_) s
  unfold failWaiting
  split
  · exact lifeView_reply _ _ _ _ _ _
  · rfl

@[simp] theorem lifeView_invalidateSlot (s : State) (n : Nat) : lifeView (invalidateSlot s n) = lifeView s := by
  simp [invalidateSlot]

/-- The end of a membership leaves OTP and a data path that has stopped, and no membership where there was a vertex (05 R167). -/
theorem endMembership_leads (s : State) : LifeView.Leads (lifeView s) (lifeView (endMembership s)) ∧
    (s.dom.vertex.isSome = true → (endMembership s).dom.member = false) := by
  unfold endMembership
  split
  next hv => exact ⟨.refl _, fun h => by simp_all⟩
  next =>
    extract_lets t u
    have hl := (LifeView.Leads.refl _).pumpMem
      (s := loseRegions (freeOwned (loseDomain (clearStreams (clearChords u))) 17))
    have hu : lifeView u = lifeView s := by simp [u, t]
    simp only [lifeView_loseRegions, lifeView_freeOwned, lifeView_loseDomain, lifeView_clearStreams, lifeView_clearChords, hu] at hl
    generalize pumpMem _ = p at hl ⊢
    obtain ⟨ho, hr, hs, hd⟩ := hl
    rw [or_self] at hd
    exact ⟨⟨ho, hr, hs, .inr hd⟩, fun _ => congrArg Domain.member hd⟩

end Sys2Proof.Machine
end

section
/-! SUPPORT. Life-cycle transitions and OTP words (04 R106, R107, R129 to R136): their writes, their checks and their commands. -/

namespace Sys2Proof.Machine

/- Proofs are elaborated in their order, for the reason given in the section before. -/
set_option deprecated.oldSectionVars true

/-! Fuses (04 R106, R107). -/

/-- Blowing bits changes fuses alone. -/
theorem blow_eq (s : State) (i : Nat) (w : Word) : ∃ f, blow s i w = { s with otp := { s.otp with fuse := f } } := by
  unfold blow
  dsimp only
  split
  · exact ⟨s.otp.fuse, rfl⟩
  · exact ⟨_, rfl⟩

@[simp] theorem blow_lc (s : State) (i : Nat) (w : Word) : (blow s i w).otp.lc = s.otp.lc := by
  obtain ⟨f, h⟩ := blow_eq s i w
  rw [h]

@[simp] theorem blow_aon (s : State) (i : Nat) (w : Word) : (blow s i w).aon = s.aon := by
  obtain ⟨f, h⟩ := blow_eq s i w
  rw [h]

/-- A word blown holds what it held and the bits blown. -/
@[simp] theorem fuseW_blow_same (s : State) (i : Nat) (w : Word) : fuseW (blow s i w) i = fuseW s i ||| w := by
  unfold blow
  dsimp only
  split
  next h =>
    rw [h]
    exact (BitVec.or_eq_zero_iff.mp h).1
  next => simp [fuseW]

/-- Another word stays. -/
theorem fuseW_blow_other (s : State) (i j : Nat) (w : Word) (h : j ≠ i) : fuseW (blow s i w) j = fuseW s j := by
  unfold blow
  dsimp only
  split
  · rfl
  · exact tgetD_tset_other _ _ _ _ _ h

/-- Words written one after the other. -/
def blowAll (s : State) (l : List (Nat × Word)) : State := l.foldl (fun s x => blow s x.1 x.2) s

/-- Word writes none of which fails. -/
theorem burn_none (s : State) (l : List (Nat × Word)) : burn s l none = (blowAll s l, true) := by
  induction l generalizing s with
  | nil => rfl
  | cons x l ih => exact ih _

theorem blowAll_eq (s : State) (l : List (Nat × Word)) : ∃ f, blowAll s l = { s with otp := { s.otp with fuse := f } } :=
  List.foldlRecOn (motive := fun t : State => ∃ f, t = { s with otp := { s.otp with fuse := f } }) l _ ⟨s.otp.fuse, rfl⟩
    fun t ht x _ => by
      obtain ⟨f, rfl⟩ := ht
      exact blow_eq _ x.1 x.2

/-- A word that none of the writes names stays. -/
theorem fuseW_blowAll_other (s : State) (l : List (Nat × Word)) (j : Nat) (h : ∀ x ∈ l, x.1 ≠ j) :
    fuseW (blowAll s l) j = fuseW s j :=
  List.foldlRecOn (motive := fun t => fuseW t j = fuseW s j) l _ rfl
    fun t ht x hx => (fuseW_blow_other t x.1 j x.2 (h x hx).symm).trans ht

/-- A word of ones stays so. -/
theorem fuseW_blow_ones (s : State) (i j : Nat) (w : Word) (h : fuseW s j = 0xFFFFFFFF#32) : fuseW (blow s i w) j = 0xFFFFFFFF#32 := by
  by_cases hj : j = i
  · subst hj
    rw [fuseW_blow_same, h]
    exact BitVec.allOnes_or
  · rw [fuseW_blow_other _ _ _ _ hj, h]

/-- A word all of whose bits are written holds ones from then on. -/
theorem fuseW_blowAll_ones (s : State) (l : List (Nat × Word)) (j : Nat) (h : (j, 0xFFFFFFFF#32) ∈ l) :
    fuseW (blowAll s l) j = 0xFFFFFFFF#32 := by
  obtain ⟨a, b, rfl⟩ := List.append_of_mem h
  rw [blowAll, List.foldl_append, List.foldl_cons]
  refine List.foldlRecOn (motive := fun t => fuseW t j = 0xFFFFFFFF#32) b _ ?_ fun t ht x _ => fuseW_blow_ones t x.1 j x.2 ht
  rw [fuseW_blow_same]
  exact BitVec.or_allOnes

/-! The writes of a transition (04 R131, R133). -/

/-- The writes after the intent name the token word, the words of the root banks and the commit word. -/
theorem lcWrites_not_intent (n target idx : Nat) (h : n < 32) : ∀ x ∈ lcWrites n target idx, x.1 ≠ 2 * n := by
  intro x hx
  simp only [lcWrites, List.mem_append, List.mem_singleton] at hx
  rcases hx with (hx | hx) | rfl
  · split at hx
    · simp at hx
    · obtain rfl := List.mem_singleton.mp hx
      dsimp only
      omega
  · split at hx
    · simp only [List.mem_append, List.mem_map] at hx
      rcases hx with ⟨i, -, rfl⟩ | ⟨i, -, rfl⟩ <;> dsimp only <;> omega
    · simp at hx
  · dsimp only
    omega

theorem lcWrites_commit (n target idx : Nat) : (2 * n + 1, 0xFFFFFFFF#32) ∈ lcWrites n target idx := by simp [lcWrites]

/-- A transition to a state without keys writes every word of both root banks. -/
theorem lcWrites_banks (n target idx j : Nat) (ht : target = 6 ∨ target = 7) (hj : j < 16) :
    (0xC0 + j, 0xFFFFFFFF#32) ∈ lcWrites n target idx ∧ (0xD1 + j, 0xFFFFFFFF#32) ∈ lcWrites n target idx := by
  simp [lcWrites, ht, hj]

/-- The data path once a transition has begun: stopped, and no membership left (04 R133). -/
def lcStop (s : State) : State := endMembership (stopLanes { s with aon := { s.aon with ready := false, dataStopped := true } })

theorem lcStop_leaves (s : State) : (lcStop s).otp = s.otp ∧ (lcStop s).aon.ready = false ∧ (lcStop s).aon.dataStopped = true ∧
    (s.dom.vertex.isSome = true → (lcStop s).dom.member = false) := by
  obtain ⟨⟨ho, hr, hs, -⟩, hm⟩ := endMembership_leads (stopLanes { s with aon := { s.aon with ready := false, dataStopped := true } })
  exact ⟨ho, hr, hs rfl, hm⟩

/-- The keys a transition clears before it writes the key words. -/
def lcClear (s : State) (target : Nat) : State :=
  if target = 6 ∨ target = 7 then clearStreams (clearChords (clearKeys s)) else s

/-- The intent is written. -/
def lcIntent (s : State) (target idx : Nat) : State := blow (lcStop s) (2 * nextPair s) (intentWord target idx)

/-- Every word of a transition is written. -/
def lcWritten (s : State) (target idx : Nat) : State :=
  blowAll (lcClear (lcIntent s target idx) target) (lcWrites (nextPair s) target idx)

/-- A transition none of whose writes fails (04 R133). -/
theorem lcRun_none (s : State) (target idx : Nat) : lcRun s target idx none =
    { lcWritten s target idx with otp := { (lcWritten s target idx).otp with phase := 2, error := 0 } } := by
  unfold lcRun
  extract_lets n aon a e b t clr ws fail1 u c
  have hb : b = (lcIntent s target idx, true) := burn_none _ _
  have hu : u = lcClear (lcIntent s target idx) target := by simp [u, t, hb, clr, lcClear, fail1]
  have hc : c = (lcWritten s target idx, true) := by
    rw [lcWritten, ← hu]
    exact burn_none _ _
  rw [if_neg (by simp [hb]), if_pos (by simp [hc])]
  show ({ c.1 with otp := { c.1.otp with phase := 2, error := 0 } } : State) = _
  rw [hc]

/-- A transition whose intent cannot be written ends there (04 R107). -/
theorem lcRun_failed (s : State) (target idx : Nat) : ∃ w f, lcRun s target idx (some 0) =
    lcRefuse (blow { lcStop s with fresh := f } (2 * nextPair s) w) 5 :=
  ⟨_, _, rfl⟩

@[simp] theorem lcClear_otp (s : State) (target : Nat) : (lcClear s target).otp = s.otp := by
  unfold lcClear
  split <;> rfl

@[simp] theorem lcClear_aon (s : State) (target : Nat) : (lcClear s target).aon = s.aon := by
  unfold lcClear
  split <;> rfl

@[simp] theorem lcClear_dom (s : State) (target : Nat) : (lcClear s target).dom = s.dom := by
  unfold lcClear
  split <;> rfl

/-- The fuses are a part of OTP. -/
theorem fuseW_congr (s t : State) (i : Nat) (h : t.otp.fuse = s.otp.fuse) : fuseW t i = fuseW s i := by
  rw [fuseW, h, fuseW]

/-- The fuses that a transition writes: its intent and its commit word, and for a state without keys the words of both root banks
(04 R131, R133). -/
theorem lcWritten_fuses (s : State) (target idx : Nat) (hn : nextPair s < 32) :
    fuseW (lcWritten s target idx) (2 * nextPair s) = fuseW s (2 * nextPair s) ||| intentWord target idx ∧
    fuseW (lcWritten s target idx) (2 * nextPair s + 1) = 0xFFFFFFFF#32 ∧
    (target = 6 ∨ target = 7 → ∀ j, j < 16 →
      fuseW (lcWritten s target idx) (0xC0 + j) = 0xFFFFFFFF#32 ∧ fuseW (lcWritten s target idx) (0xD1 + j) = 0xFFFFFFFF#32) := by
  refine ⟨?_, fuseW_blowAll_ones _ _ _ (lcWrites_commit _ _ _), fun ht j hj => ?_⟩
  · calc fuseW (lcWritten s target idx) (2 * nextPair s)
      _ = fuseW (lcClear (lcIntent s target idx) target) (2 * nextPair s) :=
        fuseW_blowAll_other _ _ _ (lcWrites_not_intent _ _ _ hn)
      _ = fuseW (lcIntent s target idx) (2 * nextPair s) := fuseW_congr _ _ _ (by rw [lcClear_otp])
      _ = fuseW (lcStop s) (2 * nextPair s) ||| intentWord target idx := fuseW_blow_same _ _ _
      _ = fuseW s (2 * nextPair s) ||| intentWord target idx := by rw [fuseW_congr s _ _ (by rw [(lcStop_leaves s).1])]
  · obtain ⟨ha, hb⟩ := lcWrites_banks (nextPair s) target idx j ht hj
    exact ⟨fuseW_blowAll_ones _ _ _ ha, fuseW_blowAll_ones _ _ _ hb⟩

/-- A transition clears the keys and the Chords of a state without keys before it writes (04 R133). -/
theorem lcWritten_keys (s : State) (target idx : Nat) (ht : target = 6 ∨ target = 7) :
    (lcWritten s target idx).keys = KeyStore.reset ∧ (lcWritten s target idx).links.chord = [] := by
  obtain ⟨f, hf⟩ := blowAll_eq (lcClear (lcIntent s target idx) target) (lcWrites (nextPair s) target idx)
  rw [lcWritten, hf, lcClear, if_pos ht]
  exact ⟨rfl, rfl⟩

/-- A transition leaves the life-cycle state, the stop of the data path and the end of the membership as its words are written. -/
theorem lcWritten_leaves (s : State) (target idx : Nat) :
    (lcWritten s target idx).otp.lc = s.otp.lc ∧ (lcWritten s target idx).aon = (lcStop s).aon ∧
    (lcWritten s target idx).dom = (lcStop s).dom := by
  obtain ⟨f, hf⟩ := blowAll_eq (lcClear (lcIntent s target idx) target) (lcWrites (nextPair s) target idx)
  obtain ⟨g, hg⟩ := blow_eq (lcStop s) (2 * nextPair s) (intentWord target idx)
  rw [lcWritten, hf, lcIntent, hg]
  simp [(lcStop_leaves s).1]

/-- A transition none of whose writes fails: its phase, and what its stop, its clears and its writes leave (04 R133, R135). -/
theorem lcRun_none_leaves (s : State) (target idx : Nat) (hn : nextPair s < 32) :
    let u := lcRun s target idx none
    u.otp.phase = 2 ∧ u.otp.error = 0 ∧ u.otp.lc = s.otp.lc ∧ u.aon.ready = false ∧ u.aon.dataStopped = true ∧
      (s.dom.vertex.isSome = true → u.dom.member = false) ∧
      fuseW u (2 * nextPair s) = fuseW s (2 * nextPair s) ||| intentWord target idx ∧ fuseW u (2 * nextPair s + 1) = 0xFFFFFFFF#32 ∧
      (target = 6 ∨ target = 7 → u.keys = KeyStore.reset ∧ u.links.chord = [] ∧
        ∀ j, j < 16 → fuseW u (0xC0 + j) = 0xFFFFFFFF#32 ∧ fuseW u (0xD1 + j) = 0xFFFFFFFF#32) := by
  obtain ⟨-, hr, hd, hm⟩ := lcStop_leaves s
  obtain ⟨hl, ha, hdom⟩ := lcWritten_leaves s target idx
  obtain ⟨hi, hc, hb⟩ := lcWritten_fuses s target idx hn
  rw [lcRun_none]
  refine ⟨rfl, rfl, hl, ?_, ?_, fun hv => ?_, hi, hc, fun ht => ?_⟩
  · exact ha ▸ hr
  · exact ha ▸ hd
  · exact hdom ▸ hm hv
  · obtain ⟨hk, hch⟩ := lcWritten_keys s target idx ht
    exact ⟨hk, hch, hb ht⟩

/-- A transition whose intent cannot be written is refused with the data path stopped (04 R107). -/
theorem lcRun_failed_leaves (s : State) (target idx : Nat) :
    let u := lcRun s target idx (some 0)
    u.otp.phase = 3 ∧ u.otp.error = 5 ∧ u.otp.lc = s.otp.lc ∧ u.aon.dataStopped = true := by
  obtain ⟨w, f, hr⟩ := lcRun_failed s target idx
  obtain ⟨ho, -, hd, -⟩ := lcStop_leaves s
  rw [hr]
  simp [lcRefuse, ho, hd]

/-! The check of a transition (04 R129, R130, R136). -/

/-- The next pair is read from the fuses. -/
theorem nextPair_congr (s t : State) (h : t.otp.fuse = s.otp.fuse) : nextPair t = nextPair s := by
  unfold nextPair fuseW
  rw [h]

/-- The token check reads OTP alone. -/
theorem tokenError_congr (s t : State) (idx : Nat) (h : t.otp = s.otp) : tokenError t idx = tokenError s idx := by
  unfold tokenError tokenBytes fuseW
  rw [h]

/-- The tokens are cleared. -/
def clearToken (s : State) : State := { s with otp := { s.otp with token := [0, 0, 0, 0] } }

/-- The hash of a token is taken while attempts are left and the index names a token (04 R130). -/
def lcHash (s : State) (idx : Nat) : State := if s.otp.wrongTokens < 3 ∧ idx < 8 then absorbZero s 26 else s

/-- The hash as `lcGo` writes it. -/
theorem ite_absorbZero (s : State) (idx : Nat) :
    (if s.otp.wrongTokens < 3 ∧ idx < 8 then absorbZero s 26 else s) = lcHash s idx := rfl

theorem lcHash_view (s : State) (idx : Nat) : lifeView (lcHash s idx) = lifeView s := by simp [lcHash]

/-- The state in which a transition that passed its check runs. -/
def lcReady (s : State) (tok : Bool) (idx : Nat) : State := clearToken (if tok then lcHash s idx else s)

theorem lcReady_view (s : State) (tok : Bool) (idx : Nat) :
    lifeView (lcReady s tok idx) = ({ s.otp with token := [0, 0, 0, 0] }, (lifeView s).2) := by
  have h : lifeView (if tok then lcHash s idx else s) = lifeView s := by simp [lcHash_view]
  rw [← h]
  have ho := congrArg Prod.fst h
  dsimp only [lifeView] at ho
  rw [← ho]
  rfl

section
variable {s : State} (w : Word) (failAt : Option Nat)

theorem lcGo_ignored (h : s.otp.phase = 1 ∨ s.otp.phase = 2 ∨ s.otp.busy.isSome = true) : lcGo s w failAt = s := if_pos h

variable (hi : ¬(s.otp.phase = 1 ∨ s.otp.phase = 2 ∨ s.otp.busy.isSome = true))
include hi

theorem lcGo_forbidden (hp : (lcOf (fld w 3 0)).bind (lcPermits s) = none) : lcGo s w failAt = clearToken (lcRefuse s 1) := by
  rw [lcGo, if_neg hi]
  simp only [hp]
  rfl

variable {tok : Bool} (hp : (lcOf (fld w 3 0)).bind (lcPermits s) = some tok)
include hp

theorem lcGo_full (hn : nextPair s = 32) : lcGo s w failAt = clearToken (lcRefuse s 4) := by
  rw [lcGo, if_neg hi]
  simp only [hp, hn, if_true]
  rfl

variable (hn : nextPair s ≠ 32)
include hn

/-- Without a token, or with its token, a transition runs. -/
theorem lcGo_runs (ht : tok = false ∨ tokenError s (fld w 7 4) = none) :
    lcGo s w failAt = lcRun (lcReady s tok (fld w 7 4)) (fld w 3 0) (if tok then fld w 7 4 else 15) failAt := by
  have ho : tokenError (lcHash s (fld w 7 4)) (fld w 7 4) = tokenError s (fld w 7 4) :=
    tokenError_congr _ _ _ (congrArg Prod.fst (lcHash_view s _))
  rw [lcGo, if_neg hi]
  simp only [hp, hn, if_false]
  cases tok with
  | false => rfl
  | true =>
    have hx : tokenError s (fld w 7 4) = none := by simpa using ht
    simp only [if_true, ite_absorbZero, ho, hx, lcReady]
    rfl

/-- A token that fails its check ends the transition, and counts where it was wrong (04 R130). -/
theorem lcGo_badToken (ht : tok = true) (e : Nat) (he : tokenError s (fld w 7 4) = some e) :
    lcGo s w failAt = clearToken (lcRefuse { lcHash s (fld w 7 4) with otp := { s.otp with
      wrongTokens := if e = 2 ∧ s.otp.wrongTokens < 3 then s.otp.wrongTokens + 1 else s.otp.wrongTokens } } e) := by
  have ho : (lcHash s (fld w 7 4)).otp = s.otp := congrArg Prod.fst (lcHash_view s _)
  rw [lcGo, if_neg hi]
  simp only [hp, hn, if_false, ht, if_true, ite_absorbZero, tokenError_congr _ _ _ ho, he, ho]
  rfl

end

/-! Register accesses. -/

/-- A write that is taken takes effect, then its response leaves (14 R454). -/
theorem runWrite_opens (s : State) (who : Requester) (off : Nat) (f : State → State) (h : opens s who off = true) :
    runWrite who off f s = .next (finish s (emit (f (quiet s)) (.regRsp 0 false))) := by
  obtain ⟨ho, hr⟩ := (Bool.and_eq_true _ _).mp h
  simp only [runWrite, runReg, ho, if_true, present, hr]

/-- LC_TRANSITION is written as a register: only with GO does a transition begin (04 R135). -/
theorem registerWrite_lcTransition (s : State) (w : Word) (who : Requester) (h : opens s who 0x4004 = true) :
    exec (.registerWrite 0x4004 w who) s = .next (finish s (emit (lcWrite (quiet s) w) (.regRsp 0 false))) :=
  runWrite_opens s who 0x4004 (fun t => lcWrite t w) h

/-- A write of LC_TRANSITION with GO (04 R133, R136). -/
theorem exec_lcTransitionGo (s : State) (w : Word) (failAt : Option Nat) (who : Requester) (h : opens s who 0x4004 = true) :
    exec (.lcTransitionGo w failAt who) s = .next (finish s (emit (lcGo (quiet s) w failAt) (.regRsp 0 false))) :=
  runWrite_opens s who 0x4004 _ h

theorem exec_otpRead (s : State) (who : Requester) (h : opens s who 0x4028 = true) :
    exec (.otpRead who) s = .next (finish s (emit (otpRead (quiet s)) (.regRsp 0 false))) := runWrite_opens s who 0x4028 _ h

theorem exec_otpProgram (s : State) (who : Requester) (h : opens s who 0x4028 = true) :
    exec (.otpProgram who) s = .next (finish s (emit (otpProgram (quiet s)) (.regRsp 0 false))) := runWrite_opens s who 0x4028 _ h

theorem exec_otpWriteDone (s : State) (w : Word) (h : s.aon.porN = true) :
    exec (.otpWriteDone w) s = .next (finish s (otpDone (quiet s) w)) := runAon_up _ s h

/-! OTP words (04 R106, R107). -/

section
variable {s : State}

theorem otpRead_busy (h : s.otp.busy.isSome = true) : otpRead s = s := if_pos h

theorem otpProgram_busy (h : s.otp.busy.isSome = true) : otpProgram s = s := if_pos h

variable (h : s.otp.busy = none)
include h

theorem otpRead_readable (hr : otpReadable (otpAddr s) = true) :
    otpRead s = { s with otp := { s.otp with rdata := fuseW s (otpAddr s) } } := by
  rw [otpRead, if_neg (by simp [h]), if_pos hr]

theorem otpRead_hidden (hr : otpReadable (otpAddr s) = false) :
    otpRead s = setBits { s with otp := { s.otp with rdata := 0 } } 0x4030 2 := by
  rw [otpRead, if_neg (by simp [h]), if_neg (by simp [hr])]

theorem otpProgram_programmable (hr : otpProgrammable s.otp.lc (otpAddr s) = true) : otpProgram s =
    { s with otp := { s.otp with busy := some { word := otpAddr s, val := reg s 0x4024, retried := false } } } := by
  rw [otpProgram, if_neg (by simp [h]), if_pos hr]

theorem otpProgram_refused (hr : otpProgrammable s.otp.lc (otpAddr s) = false) : otpProgram s = setBits s 0x4030 2 := by
  rw [otpProgram, if_neg (by simp [h]), if_neg (by simp [hr])]

end

/-- A word write that has ended: it is over, has failed for the second time, or is tried once more (04 R107). -/
theorem otpDone_busy (s : State) (w : Word) (b : OtpWrite) (hb : s.otp.busy = some b) :
    let t := blow s b.word (w &&& b.val)
    otpDone s w = if fuseW t b.word &&& b.val = b.val then { t with otp := { t.otp with busy := none } }
      else if b.retried then setBits { t with otp := { t.otp with busy := none } } 0x4030 4
      else { t with otp := { t.otp with busy := some { b with retried := true } } } := by
  simp only [otpDone, hb]

/-! The obligation. -/

/-- Settles O58: each refusal by the equation of its check, an accepted transition by what its stop, its clears and its writes leave, and
the OTP commands by their branches. -/
theorem lifeCycle : Obligations.LifeCycle := by
  unfold Obligations.LifeCycle
  intro s w who failAt i
  refine ⟨⟨fuseW_blow_same s i w, fun j hj => fuseW_blow_other s i j w hj⟩, fun ho => ?_, fun ho => ?_, fun hs hl hb => ?_, fun ho => ?_,
    fun hp => ?_⟩
  · intro target idx n absorbed refused
    rw [exec_lcTransitionGo s w failAt who ho, exec_lcTransitionGo s w none who ho, exec_lcTransitionGo s w (some 0) who ho]
    refine ⟨fun hi => by rw [lcGo_ignored w failAt (s := quiet s) hi], fun h1 h2 hb => ?_⟩
    have hi : ¬((quiet s).otp.phase = 1 ∨ (quiet s).otp.phase = 2 ∨ (quiet s).otp.busy.isSome = true) := by simp [h1, h2, hb]
    refine ⟨fun hp => ?_, fun tok hp => ⟨fun hn => ?_, fun hn ht e he => ?_, fun hn ht => ?_⟩⟩
    · rw [lcGo_forbidden w failAt hi hp]
      rfl
    · rw [lcGo_full w failAt hi hp hn]
      rfl
    · rw [lcGo_badToken w failAt hi hp hn ht e he]
      rfl
    · intro k
      have hv := lcReady_view (quiet s) tok idx
      have hl := lcRun_none_leaves (lcReady (quiet s) tok idx) target k
      have hf := lcRun_failed_leaves (lcReady (quiet s) tok idx) target k
      generalize hr : lcReady (quiet s) tok idx = r at hv hl hf
      have hfuse : r.otp.fuse = s.otp.fuse := congrArg (·.1.fuse) hv
      have hlc : r.otp.lc = s.otp.lc := congrArg (·.1.lc) hv
      have hdom : r.dom = s.dom := congrArg (·.2.2.2) hv
      rw [nextPair_congr s r hfuse, fuseW_congr s r _ hfuse, hlc, hdom] at hl
      rw [hlc] at hf
      rw [lcGo_runs w none hi hp hn.ne ht, lcGo_runs w (some 0) hi hp hn.ne ht, hr]
      exact ⟨⟨_, rfl, hl hn⟩, ⟨_, rfl, hf⟩⟩
  · rw [registerWrite_lcTransition s w who ho, exec_lcTransitionGo s w none who ho, lcWrite]
    split <;> rfl
  · exact if_pos ⟨hs, hl, hb, rfl⟩
  · rw [exec_otpRead s who ho, exec_otpProgram s who ho]
    refine ⟨fun hb => ⟨?_, ?_⟩, fun hb => ⟨fun hr => ?_, fun hr => ?_, fun hr => ?_, fun hr => ?_⟩⟩
    · rw [otpRead_busy (s := quiet s) hb]
    · rw [otpProgram_busy (s := quiet s) hb]
    · rw [otpRead_readable (s := quiet s) hb hr]
      rfl
    · rw [otpRead_hidden (s := quiet s) hb hr]
      rfl
    · rw [otpProgram_programmable (s := quiet s) hb hr]
      rfl
    · rw [otpProgram_refused (s := quiet s) hb hr]
  · rw [exec_otpWriteDone s w hp]
    refine ⟨fun hb => ?_, fun b hb => ?_⟩
    · simp only [otpDone, quiet_otp, hb]
    · rw [otpDone_busy (quiet s) w b hb]
      exact ⟨fun h => by rw [if_pos h], fun h hr => by rw [if_neg h, hr]; rfl, fun h hr => by rw [if_neg h, hr]; rfl⟩

end Sys2Proof.Machine
end

section
/-! SUPPORT. Descriptors that start: the turn they take, the state in which they have begun, and the work of their opcodes (07 R242 to
R248; 08 R283 to R285; 11 R355, R360 to R367; 13 R437). -/

namespace Sys2Proof.Machine

/- Proofs are elaborated in their order, for the reason given in the sections before. -/
set_option deprecated.oldSectionVars true

/-! A descriptor takes its turn (11 R360). -/

/-- The state in which a descriptor runs, before its work: it is marked as begun, its start has counted, and it has taken its mark. -/
def begun (s : State) (d : Nat) (x : Desc) : State :=
  takeMark (setDesc (countEv (startSnap s ((ctxPart s x.ctx).getD 0)) 0x090 (some ((ctxPart s x.ctx).getD 0)) 1) d
    { x with phase := .running, checked := true }) d x

/-- `begun` as `tryStart` writes it out. -/
theorem begun_def (s : State) (d : Nat) (x : Desc) : begun s d x =
    takeMark (setDesc (countEv (startSnap s ((ctxPart s x.ctx).getD 0)) 0x090 (some ((ctxPart s x.ctx).getD 0)) 1) d
      { x with phase := .running, checked := true }) d x := rfl

/-- `t` is `s` but for counters, marks, and the descriptor `d`, which runs. -/
def Begins (s : State) (d : Nat) (x : Desc) (t : State) : Prop :=
  ∃ c n w f m k, t = { s with
    aon := { s.aon with cnt := c }, dbg := { s.dbg with cnt := n }, win := w, fresh := f
    parts := { s.parts with desc := tset s.parts.desc d { x with phase := .running, checked := true, mark := k }, marks := m } }

/-- Of two writes of a key the later stands. -/
theorem tset_tset {α : Type} (t : Tbl α) (i : Nat) (v w : α) : tset (tset t i v) i w = tset t i w := by
  induction t with
  | nil => simp [tset]
  | cons p t ih =>
    obtain ⟨k, u⟩ := p
    by_cases hlt : i < k
    · simp [tset, hlt]
    · by_cases heq : i = k
      · simp [tset, heq]
      · simp [tset, hlt, heq, ih]

theorem startSnap_counts (s : State) (p : Nat) : Counts s (startSnap s p) := by
  unfold startSnap
  split
  · exact Counts.rfl s
  · exact ⟨s.aon.cnt, _, s.win, s.fresh, rfl⟩

/-- Of the state in which a descriptor's record has just been written, `takeMark` changes the marks and that of the record. -/
theorem takeMark_setDesc (s : State) (d : Nat) (x y : Desc) : ∃ m k, takeMark (setDesc s d y) d x =
    { s with parts := { s.parts with desc := tset s.parts.desc d { y with mark := k }, marks := m } } := by
  unfold takeMark
  split
  · exact ⟨s.parts.marks, y.mark, rfl⟩
  · dsimp only
    split
    · have hd : descAt { setDesc s d y with parts := { (setDesc s d y).parts with
          marks := tdel (setDesc s d y).parts.marks (x.ctx * 256 + x.queue) } } d = some y := tget_tset_same _ _ _
      rw [hd]
      exact ⟨tdel s.parts.marks (x.ctx * 256 + x.queue), tget s.parts.marks (x.ctx * 256 + x.queue), by simp only [setDesc, tset_tset]⟩
    · exact ⟨_, y.mark, rfl⟩

theorem begun_begins (s : State) (d : Nat) (x : Desc) : Begins s d x (begun s d x) := by
  unfold begun
  generalize (ctxPart s x.ctx).getD 0 = p
  obtain ⟨c, n, w, f, h⟩ := (startSnap_counts s p).trans (countEv_counts (startSnap s p) 0x090 (some p) 1)
  obtain ⟨m, k, hm⟩ := takeMark_setDesc (countEv (startSnap s p) 0x090 (some p) 1) d x { x with phase := .running, checked := true }
  exact ⟨c, n, w, f, m, k, by rw [hm, h]⟩

section
variable {s t : State} {d op : Nat} {x : Desc}

namespace Begins
variable (h : Begins s d x t)
include h

theorem fab : t.fab = s.fab := by obtain ⟨_, _, _, _, _, _, rfl⟩ := h; rfl
theorem mem : t.mem = s.mem := by obtain ⟨_, _, _, _, _, _, rfl⟩ := h; rfl
theorem red : t.red = s.red := by obtain ⟨_, _, _, _, _, _, rfl⟩ := h; rfl
theorem upd : t.upd = s.upd := by obtain ⟨_, _, _, _, _, _, rfl⟩ := h; rfl
theorem out : t.out = s.out := by obtain ⟨_, _, _, _, _, _, rfl⟩ := h; rfl
theorem ts : t.aon.ts = s.aon.ts := by obtain ⟨_, _, _, _, _, _, rfl⟩ := h; rfl
theorem partAt (p : Nat) : partAt t p = Machine.partAt s p := by obtain ⟨_, _, _, _, _, _, rfl⟩ := h; rfl
theorem regionAt (k : Nat) : regionAt t k = Machine.regionAt s k := by obtain ⟨_, _, _, _, _, _, rfl⟩ := h; rfl
theorem opsOn (k e : Nat) (w : Bool) : opsOn t k e w = Machine.opsOn s k e w := by obtain ⟨_, _, _, _, _, _, rfl⟩ := h; rfl
theorem ownVertex (v : Nat) : ownVertex t v = Machine.ownVertex s v := by obtain ⟨_, _, _, _, _, _, rfl⟩ := h; rfl
theorem subTaken (p v sub : Nat) : subTaken t p v sub = Machine.subTaken s p v sub := by obtain ⟨_, _, _, _, _, _, rfl⟩ := h; rfl
theorem epochOf (c : Nat) : epochOf t c = Machine.epochOf s c := by obtain ⟨_, _, _, _, _, _, rfl⟩ := h; rfl
theorem fenceCtxs (c a : Nat) : fenceCtxs t c a = Machine.fenceCtxs s c a := by obtain ⟨_, _, _, _, _, _, rfl⟩ := h; rfl
theorem mreqOuts (w : Bool) (a l : Nat) (b : Bytes) (m : List Bool) (p : Option Nat) :
    mreqOuts t w a l b m p = Machine.mreqOuts s w a l b m p := by obtain ⟨_, _, _, _, _, _, rfl⟩ := h; rfl
theorem ctxPart (c : Nat) : ctxPart t c = Machine.ctxPart s c := by obtain ⟨_, _, _, _, _, _, rfl⟩ := h; rfl
theorem headCheck (p op : Nat) (b : Bytes) : headCheck t p op b = Machine.headCheck s p op b := by
  obtain ⟨_, _, _, _, _, _, rfl⟩ := h; rfl

theorem desc : ∃ k, t.parts.desc = tset s.parts.desc d { x with phase := .running, checked := true, mark := k } := by
  obtain ⟨_, _, _, _, _, k, rfl⟩ := h
  exact ⟨k, rfl⟩

theorem runs : ∃ y, descAt t d = some y ∧ y.phase = .running ∧ y.opcode = x.opcode := by
  obtain ⟨k, hk⟩ := h.desc
  exact ⟨{ x with phase := .running, checked := true, mark := k }, by rw [descAt, hk, tget_tset_same], rfl, rfl⟩

theorem descAt_other (i : Nat) (hi : i ≠ d) : descAt t i = descAt s i := by
  obtain ⟨k, hk⟩ := h.desc
  rw [descAt, hk, tget_tset_other _ _ _ _ hi, descAt]

end Begins

/-- What it means that a descriptor starts, part by part. -/
theorem starts_iff : starts s d x op = true ↔ engUp s = true ∧ descAt s d = some x ∧ x.opcode = op ∧ startable s d x = true ∧
    dispatchUp s = true ∧ (∃ c l, turns s = c :: l ∧ c.desc = d) ∧ x.checked = false ∧
    headCheck s ((ctxPart s x.ctx).getD 0) op x.raw = none := by
  have hd : (turns s).head?.any (·.desc == d) = true ↔ ∃ c l, turns s = c :: l ∧ c.desc = d := by
    cases turns s <;> simp
  simp [starts, tries, hd, and_assoc]

/-- A descriptor that cannot start gives no turn. -/
theorem firstStart_ne (s : State) (acc : Access) (d : Nat) (h : tryStart s d acc = none) (l : List Cand) :
    ∀ e t, firstStart s acc l = some (e, t) → e ≠ d := by
  induction l with
  | nil => simp [firstStart]
  | cons c l ih =>
    intro e t
    rw [firstStart]
    split
    next s' hs =>
      intro he hd
      obtain ⟨rfl, _⟩ := Prod.mk.inj (Option.some.inj he)
      rw [hd, h] at hs
      cases hs
    next => exact ih e t

/-- The descriptor whose turn it is starts, and takes the turn. -/
theorem startOne_some (h : starts s d x op = true) (ht : tryStart (quiet s) d .ok = some t) :
    ∃ c, runEng (startOne op d .ok) s = .next (finish s (tookTurn t c)) := by
  obtain ⟨hu, hx, ho, _, hdu, ⟨c, l, hl, hc⟩, _, _⟩ := starts_iff.mp h
  have hturn : theTurn (quiet s) .ok = some (d, tookTurn t c) := by
    have hq : (candidates (quiet s)).insertionSort (fun a b => candRank (quiet s) a ≤ candRank (quiet s) b) = c :: l := hl
    simp only [theTurn, hq, firstStart, hc, ht]
  have hq : descAt (quiet s) d = some x := hx
  have hd : dispatchUp (quiet s) = true := hdu
  exact ⟨c, by rw [runEng_up _ s hu]; simp [present, startOne, hq, hturn, ho, hd]⟩

/-- A descriptor whose turn it is and that must wait changes nothing. -/
theorem startOne_none (h : starts s d x op = true) (ht : tryStart (quiet s) d .ok = none) :
    runEng (startOne op d .ok) s = .next (finish s (quiet s)) := by
  obtain ⟨hu, hx, ho, _, hdu, _, _, _⟩ := starts_iff.mp h
  have hq : descAt (quiet s) d = some x := hx
  have hkeep : startOne op d .ok (quiet s) = quiet s := by
    rw [startOne, hq]
    cases hturn : theTurn (quiet s) .ok with
    | none => rfl
    | some r =>
      have hne := firstStart_ne (quiet s) .ok d ht _ r.1 r.2 hturn
      simp [hne]
  rw [runEng_up _ s hu, present, hkeep]

end

/-! What the begun descriptor goes on to, by its opcode (11 R360). -/

/-- The wait that a begun WD_WAIT arms (07 R245). -/
def waitOf (s : State) (d : Nat) (x : Desc) : Wait :=
  { desc := d, part := (ctxPart s x.ctx).getD 0, addr := leAt x.raw 16 6, threshold := leAt x.raw 24 8
    until_ := if leAt x.raw 32 4 = 0 then none else some (s.aon.ts + 1000 * leAt x.raw 32 4), expired := false }

/-- A wait is armed as its counter is read. -/
def armWait (s : State) (w : Wait) : State := readWait { s with fab := { s.fab with waits := s.fab.waits ++ [w] } } w

/-- A mark waits for the next reduction or update of its queue (13 R437). -/
def leaveMark (s : State) (x : Desc) : State :=
  { s with parts := { s.parts with marks := tset s.parts.marks (x.ctx * 256 + x.queue) (leAt x.raw 8 4, leAt x.raw 16 8) } }

/-- The work of an opcode, on the state in which its descriptor has begun. -/
def workOf (s : State) (d : Nat) (x : Desc) : Nat → Option State
  | 1 => startCopy s d x.raw
  | 2 => startReduce s d x.ctx ((ctxPart s x.ctx).getD 0) x.raw
  | 3 => startUpdate s d x.ctx ((ctxPart s x.ctx).getD 0) x.raw .ok
  | 4 => some (startPublish s d x.raw)
  | 5 => some (startInvalidate s d x.raw)
  | 6 => startFence s d x.ctx x.pasid x.raw
  | 7 =>
    if subTaken s ((ctxPart s x.ctx).getD 0) (leAt x.raw 8 2) (leAt x.raw 10 1) then some (completeDesc s d stBusy 0)
    else some (sendSignal s d ((ctxPart s x.ctx).getD 0) x.ctx (leAt x.raw 8 2) (leAt x.raw 10 1) (leAt x.raw 16 6) (leAt x.raw 24 8))
  | 8 => if 4096 ≤ s.fab.waits.length then none else some (armWait s (waitOf s d x))
  | 9 => some (completeDesc (leaveMark s x) d stOk 0)
  | _ => some (startAbort s d x.ctx x.raw)

section
variable {s : State} {d op : Nat} {x : Desc}

/-- A descriptor that starts has its checks behind it, and goes on to its work. -/
theorem tryStart_starts (h : starts s d x op = true) : tryStart (quiet s) d .ok = workOf (begun (quiet s) d x) d x op := by
  obtain ⟨_, hx, ho, _, _, _, hc, hh⟩ := starts_iff.mp h
  have hb := begun_begins (quiet s) d x
  have hq : descAt (quiet s) d = some x := hx
  have hhead : headCheck (begun (quiet s) d x) ((ctxPart (quiet s) x.ctx).getD 0) op x.raw = none := (hb.headCheck _ _ _).trans hh
  have hp : ctxPart (begun (quiet s) d x) x.ctx = ctxPart (quiet s) x.ctx := hb.ctxPart _
  simp only [tryStart, hq, hc, Bool.false_eq_true, if_false, ← begun_def]
  simp only [ho, hhead, workOf, waitOf, armWait, leaveMark, hp]
  rfl

end

/-! A descriptor ends as it starts (11 R361, R366). -/

/-- The end of a descriptor changes counters, a free value, its record, and the contexts due to fault. -/
theorem completeDesc_changes (s : State) (d st r : Nat) : ∃ c n w f x e, completeDesc s d st r = { s with
    aon := { s.aon with cnt := c }, dbg := { s.dbg with cnt := n }, win := w, fresh := f
    parts := { s.parts with desc := x, faultDue := e } } := by
  have hself : ∃ c n w f x e, s = { s with
      aon := { s.aon with cnt := c }, dbg := { s.dbg with cnt := n }, win := w, fresh := f
      parts := { s.parts with desc := x, faultDue := e } } :=
    ⟨s.aon.cnt, s.dbg.cnt, s.win, s.fresh, s.parts.desc, s.parts.faultDue, rfl⟩
  unfold completeDesc
  split
  · exact hself
  next x hx =>
    split
    · exact hself
    · dsimp only
      generalize hq : (if resultStated x.opcode st = true then (r, s) else ((freeN s).1 % 2 ^ 64, (freeN s).2)) = q
      obtain ⟨f, hf⟩ : ∃ f, q.2 = { s with fresh := f } := by
        rw [← hq]
        split
        · exact ⟨s.fresh, rfl⟩
        · exact ⟨s.fresh + 1, rfl⟩
      generalize ht : setDesc q.2 d _ = t
      obtain ⟨c, n, w, g, hu⟩ := countEv_counts t 0x091 (ctxPart t x.ctx) 1
      rw [hu, ← ht, hf]
      split
      · exact ⟨c, n, w, g, _, _, rfl⟩
      · exact ⟨c, n, w, g, _, s.parts.faultDue, rfl⟩

@[simp] theorem completeDesc_fab (s : State) (d st r : Nat) : (completeDesc s d st r).fab = s.fab := by
  obtain ⟨_, _, _, _, _, _, h⟩ := completeDesc_changes s d st r
  rw [h]

@[simp] theorem completeDesc_mem (s : State) (d st r : Nat) : (completeDesc s d st r).mem = s.mem := by
  obtain ⟨_, _, _, _, _, _, h⟩ := completeDesc_changes s d st r
  rw [h]

@[simp] theorem completeDesc_marks (s : State) (d st r : Nat) : (completeDesc s d st r).parts.marks = s.parts.marks := by
  obtain ⟨_, _, _, _, _, _, h⟩ := completeDesc_changes s d st r
  rw [h]

/-- A count leaves the descriptors. -/
@[simp] theorem descAt_countEv (s : State) (ev : Nat) (p : Option Nat) (n i : Nat) : descAt (countEv s ev p n) i = descAt s i := by
  obtain ⟨_, _, _, _, h⟩ := countEv_counts s ev p n
  rw [h]
  rfl

/-- A running descriptor is done with its status, and with its RESULT where the spec states one. -/
theorem descAt_completeDesc_running (s : State) (d st r : Nat) (y : Desc) (h : descAt s d = some y) (hp : y.phase = .running) :
    ∃ z, descAt (completeDesc s d st r) d = some z ∧ z.phase = .done ∧ z.status = st ∧
      (resultStated y.opcode st = true → z.result = r) := by
  have hphase : ¬(y.phase = .done ∨ y.phase = .recorded) := by simp [hp]
  simp only [completeDesc, h, hphase, if_false]
  generalize hq : (if resultStated y.opcode st = true then (r, s) else ((freeN s).1 % 2 ^ 64, (freeN s).2)) = q
  refine ⟨{ y with phase := .done, status := st, result := q.1 }, ?_, rfl, rfl, fun hr => by rw [← hq, if_pos hr]⟩
  have hd : descAt (countEv (setDesc q.2 d { y with phase := .done, status := st, result := q.1 }) 0x091
      (ctxPart (setDesc q.2 d { y with phase := .done, status := st, result := q.1 }) y.ctx) 1) d = 
      some { y with phase := .done, status := st, result := q.1 } := by
    rw [descAt_countEv]
    exact tget_tset_same _ _ _
  split
  · exact hd
  · exact hd

@[simp] theorem tookTurn_fab (s : State) (c : Cand) : (tookTurn s c).fab = s.fab := rfl
@[simp] theorem tookTurn_mem (s : State) (c : Cand) : (tookTurn s c).mem = s.mem := rfl
@[simp] theorem tookTurn_dom (s : State) (c : Cand) : (tookTurn s c).dom = s.dom := rfl
@[simp] theorem tookTurn_red (s : State) (c : Cand) : (tookTurn s c).red = s.red := rfl
@[simp] theorem tookTurn_upd (s : State) (c : Cand) : (tookTurn s c).upd = s.upd := rfl
@[simp] theorem tookTurn_out (s : State) (c : Cand) : (tookTurn s c).out = s.out := rfl
@[simp] theorem tookTurn_marks (s : State) (c : Cand) : (tookTurn s c).parts.marks = s.parts.marks := rfl
@[simp] theorem descAt_tookTurn (s : State) (c : Cand) (d : Nat) : descAt (tookTurn s c) d = descAt s d := rfl

section
variable {s t : State} {d op st res : Nat} {x : Desc}

/-- Work that is over as it starts ends its descriptor, and leaves the rest as its work left it. -/
theorem startOne_completes (h : starts s d x op = true) (hd : ∃ y, descAt t d = some y ∧ y.phase = .running ∧ y.opcode = x.opcode)
    (ht : tryStart (quiet s) d .ok = some (completeDesc t d st res)) :
    ∃ u y, runEng (startOne op d .ok) s = .next (finish s u) ∧ descAt u d = some y ∧ y.phase = .done ∧ y.status = st ∧
      (resultStated op st = true → y.result = res) ∧ u.fab = t.fab ∧ u.mem = t.mem ∧ u.parts.marks = t.parts.marks := by
  obtain ⟨c, hrun⟩ := startOne_some h ht
  obtain ⟨y, hy, hp, hyo⟩ := hd
  obtain ⟨z, hz, hphase, hst, hres⟩ := descAt_completeDesc_running t d st res y hy hp
  obtain ⟨_, _, ho, _⟩ := starts_iff.mp h
  exact ⟨_, z, hrun, hz, hphase, hst, fun hr => hres (by rw [hyo, ho, hr]), by simp, by simp, by simp⟩

/-- Such work of an opcode whose RESULT is stated, over memory that its start has left. -/
theorem startOne_ends (h : starts s d x op = true) (hb : Begins (quiet s) d x t) (hr : resultStated op st = true)
    (ht : tryStart (quiet s) d .ok = some (completeDesc t d st res)) :
    ∃ u y, runEng (startOne op d .ok) s = .next (finish s u) ∧ descAt u d = some y ∧ y.phase = .done ∧ y.status = st ∧
      y.result = res ∧ u.mem = s.mem := by
  obtain ⟨u, y, hrun, hy, hphase, hst, hres, _, hmem, _⟩ := startOne_completes h hb.runs ht
  exact ⟨u, y, hrun, hy, hphase, hst, hres hr, hmem.trans hb.mem⟩

end

/-! Publish and invalidate (08 R283 to R285). -/

section
variable {t : State} {d : Nat} {b : Bytes} {r : Region} (hr : regionAt t (leAt b 8 2 % 4096) = some r)
include hr

theorem startPublish_kind (hk : r.kind ≠ 2) : startPublish t d b = completeDesc t d stBadParam r.epoch := by
  simp [startPublish, hr, hk]

theorem startPublish_reader (hk : r.kind = 2) (ha : r.authority = false) :
    startPublish t d b = completeDesc t d stNotPermitted r.epoch := by
  simp [startPublish, hr, hk, ha]

theorem startPublish_exhausted (hk : r.kind = 2) (ha : r.authority = true) (he : 0xFFFFFFFF ≤ r.epoch) :
    startPublish t d b = completeDesc t d stEpochExhausted r.epoch := by
  simp [startPublish, hr, hk, ha, he]

theorem startPublish_accepted (hk : r.kind = 2) (ha : r.authority = true) (he : r.epoch < 0xFFFFFFFF) :
    startPublish t d b = { t with mem := { t.mem with drains := t.mem.drains ++
      [{ desc := d, kid := leAt b 8 2 % 4096, publish := true, target := 0, ops := opsOn t (leAt b 8 2 % 4096) (r.epoch + 1) true,
         status := stOk }] } } := by
  simp [startPublish, hr, hk, ha, Nat.not_le.mpr he]

theorem startInvalidate_refused (h : r.kind ≠ 2 ∨ (r.authority = true ∧ leAt b 12 4 ≠ r.epoch) ∨ leAt b 12 4 < r.epoch) :
    startInvalidate t d b = completeDesc t d stBadParam r.epoch := by
  simp only [startInvalidate, hr, h, if_true]

theorem startInvalidate_current (hk : r.kind = 2) (he : leAt b 12 4 = r.epoch) :
    startInvalidate t d b = completeDesc t d stOk r.epoch := by
  simp [startInvalidate, hr, hk, he]

theorem startInvalidate_accepted (hk : r.kind = 2) (ha : r.authority = false) (he : r.epoch < leAt b 12 4) :
    startInvalidate t d b = { t with mem := { t.mem with
      region := tset t.mem.region (leAt b 8 2 % 4096) { r with epoch := leAt b 12 4 }
      drains := t.mem.drains ++
        [{ desc := d, kid := leAt b 8 2 % 4096, publish := false, target := leAt b 12 4,
           ops := opsOn t (leAt b 8 2 % 4096) r.epoch false, status := stOk }] } } := by
  simp [startInvalidate, hr, hk, ha, he.ne', Nat.not_lt.mpr he.le, setRegion]

end

/-! Fences (07 R247, R248; 11 R355). -/

theorem fenceCtxs_cases (s : State) (c a : Nat) : fenceCtxs s c a = [c] ∨ ∃ k, k ≠ c ∧ fenceCtxs s c a = [c, k] := by
  unfold fenceCtxs
  split
  · split
    · exact .inl rfl
    next hk => exact .inr ⟨_, hk, rfl⟩
  · exact .inl rfl

theorem mem_fenceCtxs_self (s : State) (c a : Nat) : c ∈ fenceCtxs s c a := by
  rcases fenceCtxs_cases s c a with hcs | ⟨k, _, hcs⟩ <;> simp [hcs]

/-- A fence waits while a context it closes has 15 pending. -/
theorem startFence_full {t : State} {d c a : Nat} {b : Bytes} (k : Nat) (hk : k ∈ fenceCtxs t c a)
    (h : 15 ≤ t.fab.fences.countP (fun f => f.ctx == k)) : startFence t d c a b = none := by
  have hany : (fenceCtxs t c a).any (fun k => decide (15 ≤ t.fab.fences.countP (fun f => f.ctx == k))) = true :=
    List.any_eq_true.mpr ⟨k, hk, decide_eq_true h⟩
  simp only [startFence, hany, if_true]

/-- A fence with room closes the epoch of each of its contexts, and of nothing else. -/
theorem startFence_room {t : State} {d c a : Nat} {b : Bytes}
    (h : ∀ k ∈ fenceCtxs t c a, t.fab.fences.countP (fun f => f.ctx == k) < 15) :
    ∃ u, startFence t d c a b = some u ∧
      u.fab.fences = t.fab.fences ++ (fenceCtxs t c a).map (fun k =>
        { desc := d, ctx := k, epoch := epochOf t k, scope := leAt b 8 1, vertex := leAt b 10 2 }) ∧
      (∀ k ∈ fenceCtxs t c a, epochOf u k = epochOf t k + 1) ∧ u.fab.tags = t.fab.tags := by
  have hany : (fenceCtxs t c a).any (fun k => decide (15 ≤ t.fab.fences.countP (fun f => f.ctx == k))) = false := by
    simpa [List.any_eq_false] using h
  simp only [startFence, hany, Bool.false_eq_true, if_false]
  refine ⟨_, rfl, ?_⟩
  rcases fenceCtxs_cases t c a with hc | ⟨k, hk, hc⟩
  · simp [hc, epochOf]
  · simp [hc, epochOf, tgetD_tset_other _ _ _ _ _ hk, tgetD_tset_other _ _ _ _ _ hk.symm]

/-! Waits (07 R245). -/

theorem armWait_waits (s : State) (w : Wait) : (armWait s w).fab.waits = s.fab.waits ++ [w] := rfl

theorem armWait_out (s : State) (w : Wait) : (armWait s w).out =
    s.out ++ mreqOuts s false ((partAt s w.part).fwinBase + w.addr) 8 [] [] (some (lowestPasid (partAt s w.part))) := rfl

/-! Signals (07 R246). -/

section
variable {t : State} {d part ctx v sub off value : Nat}

/-- A signal to a remote vertex leaves as an open atomic on its stream. -/
theorem sendSignal_remote (h : ownVertex t v = false) : ∃ f, sendSignal t d part ctx v sub off value = pushTx t f ∧
    f.dst = v ∧ f.owner = part + 1 ∧ f.tc = 3 ∧ f.sub = sub ∧ f.aop = 9 ∧ f.addr = off ∧ f.operand = value ∧ f.cover = true := by
  simp only [sendSignal, h, Bool.false_eq_true, if_false]
  exact ⟨_, rfl, rfl, rfl, rfl, rfl, rfl, rfl, rfl, rfl⟩

/-- A signal to this block's vertex is applied at once. -/
theorem sendSignal_own (h : ownVertex t v = true) : ∃ q, sendSignal t d part ctx v sub off value = applyReq t q ∧
    q.who = .signal d ∧ q.owner = part + 1 ∧ q.kind = kAtomic ∧ q.aop = 9 ∧ q.addr = off ∧ q.operand.take 8 = leBytes 8 value := by
  simp only [sendSignal, h, if_true]
  exact ⟨_, rfl, rfl, rfl, rfl, rfl, rfl, List.take_left' rfl⟩

end

/-! Copies (07 R242 to R244). -/

/-- Source reads count in their copy, and leave its fields and every record. -/
theorem pumpCopy_keeps (n : Nat) (s : State) (e : Nat) (k : Copy) (h : tget s.fab.copies e = some k) :
    (pumpCopy n s e).parts = s.parts ∧ ∃ i o, tget (pumpCopy n s e).fab.copies e = some { k with next := i, out := o } := by
  induction n generalizing s k with
  | zero => exact ⟨rfl, k.next, k.out, h⟩
  | succ n ih =>
    simp only [pumpCopy, h]
    split
    · exact ⟨rfl, k.next, k.out, h⟩
    · generalize ((descAt _ k.desc).map (·.pasid)).getD 0 = a
      exact ih (pmReq { s with fab := { s.fab with copies := tset s.fab.copies e { k with next := k.next + 1, out := k.out + 1 } } }
        (.copyRead e k.next) false (k.src + k.next * k.beats * 128) (chunkLen k k.next) [] [] (some a))
        { k with next := k.next + 1, out := k.out + 1 } (tget_tset_same _ _ _)

/-- A copy takes the engine that is free, with the fields of its descriptor; records stay. -/
theorem startCopy_free {t : State} {d n : Nat} {b : Bytes} (h : lowestFrom (fun e => (tget t.fab.copies e).isNone) 32 0 = some n) :
    ∃ u k, startCopy t d b = some u ∧ u.parts = t.parts ∧ tget u.fab.copies n = some k ∧
      k.desc = d ∧ k.src = leAt b 8 8 ∧ k.dst = leAt b 16 8 % 2 ^ 48 ∧ k.len = leAt b 24 8 ∧ k.beats = leAt b 36 1 := by
  simp only [startCopy, h]
  generalize hk : Copy.mk _ _ _ _ _ _ _ _ _ _ _ _ _ _ _ _ _ = k
  obtain ⟨hparts, i, o, hc⟩ := pumpCopy_keeps 512 { t with fab := { t.fab with copies := tset t.fab.copies n k } } n k
    (tget_tset_same _ _ _)
  refine ⟨_, _, rfl, hparts, hc, ?_⟩
  subst hk
  exact ⟨rfl, rfl, rfl, rfl, rfl⟩

theorem startCopy_full {t : State} {d : Nat} {b : Bytes} (h : lowestFrom (fun e => (tget t.fab.copies e).isNone) 32 0 = none) :
    startCopy t d b = none := by
  simp only [startCopy, h]

/-- The lowest chunk of a copy whose data is there has been taken from it. -/
def takeChunk (s : State) (e : Nat) (k : Copy) (rest : Tbl Bytes) : State :=
  { s with fab := { s.fab with copies := tset s.fab.copies e { k with ready := rest } } }

/-- The SHARED_READ region to which a copy writes. -/
def sharedOf (s : State) (k : Copy) : Option Region :=
  if k.kid = 0 then none else (regionAt s k.kid).filter (fun r => r.kind == 2)

theorem sharedOf_none {s : State} {k : Copy} (h : ¬(k.kid ≠ 0 ∧ (regionAt s k.kid).any (fun r => r.kind == 2) = true)) :
    sharedOf s k = none := by
  unfold sharedOf
  split
  · rfl
  next h0 =>
    cases hr : regionAt s k.kid with
    | none => rfl
    | some r => simpa [h0, hr, Option.filter] using h

theorem sharedOf_some {s : State} {k : Copy} {r : Region} (h0 : k.kid ≠ 0) (hr : regionAt s k.kid = some r) (hk : r.kind = 2) :
    sharedOf s k = some r := by
  simp [sharedOf, h0, hr, Option.filter, hk]

theorem exec_copyChunkSend (s : State) (e : Nat) (hu : engUp s = true) :
    exec (.copyChunkSend e) s = .next (finish s (if clkRuns s then sendChunk (quiet s) e else quiet s)) :=
  runEng_up _ s hu

theorem sendChunk_none (s : State) (e : Nat) (h : tget s.fab.copies e = none) : sendChunk s e = s := by simp only [sendChunk, h]

section
variable {s : State} {e i : Nat} {k : Copy} {x : Desc} {data : Bytes} {rest : Tbl Bytes} (hk : tget s.fab.copies e = some k)
  (hready : k.ready = (i, data) :: rest) (hx : descAt s k.desc = some x)
include hk hready hx

/-- A chunk whose region is gone fails. -/
theorem sendChunk_stale (hs : chunkStale (takeChunk s e k rest) k = true) :
    sendChunk s e = chunkDone (takeChunk s e k rest) e i stStaleHandle := by
  rw [takeChunk] at hs
  simp only [sendChunk, hk, hready, hx, hs, if_true]
  rfl

/-- A chunk of a remote home leaves. -/
theorem sendChunk_remote (hs : chunkStale (takeChunk s e k rest) k = false)
    (hn : sharedOf (takeChunk s e k rest) k = none) (ho : ownVertex (takeChunk s e k rest) k.vertex = false) :
    ∃ f, sendChunk s e = pushTx (takeChunk s e k rest) f ∧ f.dst = k.vertex ∧ f.owner = (ctxPart s x.ctx).getD 0 + 1 ∧
      f.tc = (if k.kid = 0 then 2 else 4) ∧ f.op = opReq ∧ f.origin = .copy e i ∧ f.cover = true ∧ f.fepoch = epochOf s x.ctx := by
  rw [takeChunk] at hs ho
  rw [sharedOf, takeChunk] at hn
  simp only [sendChunk, hk, hready, hx, hs, hn, ho, Bool.false_eq_true, if_false]
  exact ⟨_, rfl, rfl, rfl, rfl, rfl, rfl, rfl, rfl⟩

/-- A chunk whose home is here is applied. -/
theorem sendChunk_own (hs : chunkStale (takeChunk s e k rest) k = false)
    (hn : sharedOf (takeChunk s e k rest) k = none) (ho : ownVertex (takeChunk s e k rest) k.vertex = true) :
    ∃ q, sendChunk s e = applyReq (takeChunk s e k rest) q ∧ q.who = .chunk e i ∧ q.owner = (ctxPart s x.ctx).getD 0 + 1 ∧
      q.kind = kCopy ∧ q.addr = k.dst + i * k.beats * 128 ∧ q.data = data ∧ q.kid = k.kid ∧
      q.arrival = (if k.arrivalEn then some k.arrival else none) := by
  rw [takeChunk] at hs ho
  rw [sharedOf, takeChunk] at hn
  simp only [sendChunk, hk, hready, hx, hs, hn, ho, Bool.false_eq_true, if_false, if_true]
  exact ⟨_, rfl, rfl, rfl, rfl, rfl, rfl, rfl, rfl⟩

/-- A chunk to a region at the last epoch fails. -/
theorem sendChunk_exhausted {r : Region} (hs : chunkStale (takeChunk s e k rest) k = false)
    (hn : sharedOf (takeChunk s e k rest) k = some r) (he : 0xFFFFFFFF ≤ r.epoch) :
    sendChunk s e = chunkDone (takeChunk s e k rest) e i stEpochExhausted := by
  rw [takeChunk] at hs
  rw [sharedOf, takeChunk] at hn
  simp only [sendChunk, hk, hready, hx, hs, hn, he, Bool.false_eq_true, if_false, if_true]
  rfl

/-- A chunk to a region writes its lines under the region's next epoch. -/
theorem sendChunk_shared {r : Region} (hs : chunkStale (takeChunk s e k rest) k = false)
    (hn : sharedOf (takeChunk s e k rest) k = some r) (he : r.epoch < 0xFFFFFFFF) :
    ∃ u m, sendChunk s e = memSubmit u m false ∧ u.fab.copies = (takeChunk s e k rest).fab.copies ∧ m.kid = k.kid ∧ m.write = true ∧
      m.epoch = r.epoch + 1 ∧ m.data = data ∧ m.line = (k.dst + i * k.beats * 128 - rData r) / 64 := by
  rw [takeChunk] at hs
  rw [sharedOf, takeChunk] at hn
  simp only [sendChunk, hk, hready, hx, hs, hn, Nat.not_le.mpr he, Bool.false_eq_true, if_false]
  exact ⟨_, _, rfl, by split <;> rfl, rfl, rfl, rfl, rfl, rfl⟩

end

/-! A wait is polled, and its time ends (07 R245; 11 R366). -/

/-- The waits of a descriptor are over. -/
def dropWaits (s : State) (d : Nat) : State :=
  { s with fab := { s.fab with waits := s.fab.waits.filter (fun w => w.desc != d) } }

theorem exec_waitPoll (s : State) (d : Nat) (acc : Access) (v : Nat) (hu : engUp s = true) :
    exec (.waitPoll d acc v) s = .next (finish s (pollWait (quiet s) d acc v)) := runEng_up _ s hu

theorem exec_waitTimeout (s : State) (d : Nat) (hu : engUp s = true) :
    exec (.waitTimeout d) s = .next (finish s (timeoutWait (quiet s) d)) := runEng_up _ s hu

theorem pollWait_none {s : State} {d : Nat} (h : ∀ w ∈ s.fab.waits, w.desc ≠ d) (acc : Access) (v : Nat) : pollWait s d acc v = s := by
  have hf : s.fab.waits.find? (fun w => w.desc == d) = none := by simpa using h
  simp only [pollWait, hf]

theorem timeoutWait_none {s : State} {d : Nat} (h : s.fab.waits.find? (fun w => w.desc == d && w.until_.isSome && !w.expired) = none) :
    timeoutWait s d = s := by
  simp only [timeoutWait, h]

/-- The counter of a wait whose time ends is read once more. -/
theorem timeoutWait_armed {s : State} {d : Nat} {w : Wait}
    (h : s.fab.waits.find? (fun w => w.desc == d && w.until_.isSome && !w.expired) = some w) :
    timeoutWait s d = readWait { s with fab := { s.fab with
      waits := s.fab.waits.map (fun w => if w.desc = d then { w with expired := true } else w) } } w := by
  simp only [timeoutWait, h]

section
variable {s : State} {d v : Nat} {w : Wait} (hw : s.fab.waits.find? (fun w => w.desc == d) = some w)
include hw

/-- The read of the counter that a poll makes. -/
theorem pollWait_reads (acc : Access) : pollWait s d acc v =
    waitAnswer (emitMreq s false ((partAt s w.part).fwinBase + w.addr) 8 [] [] (some (lowestPasid (partAt s w.part)))) d acc v
      ((partAt s w.part).fwinBase + w.addr) := by
  simp only [pollWait, hw]

theorem waitAnswer_below (a : Nat) (he : w.expired = false) (hv : v % 2 ^ 64 < w.threshold) : waitAnswer s d .ok v a = s := by
  simp only [waitAnswer, waitSees, hw, he, Nat.not_le.mpr hv, Bool.false_eq_true, or_self, if_false]

theorem waitAnswer_reached (a : Nat) (he : w.expired = false) (hv : w.threshold ≤ v % 2 ^ 64) :
    waitAnswer s d .ok v a = completeDesc (dropWaits s d) d stOk (v % 2 ^ 64) := by
  simp only [waitAnswer, waitSees, hw, he, hv, or_true, if_true, Bool.false_eq_true, if_false]
  rfl

theorem waitAnswer_expired (a : Nat) (he : w.expired = true) :
    waitAnswer s d .ok v a = completeDesc (dropWaits s d) d stTimeout (v % 2 ^ 64) := by
  simp only [waitAnswer, waitSees, hw, he, true_or, if_true]
  rfl

theorem waitAnswer_poison (a : Nat) (he : w.expired = false) :
    waitAnswer s d .poison v a = completeDesc (dropWaits s d) d stPoisoned 0 := by
  simp only [waitAnswer, hw, he, Bool.false_eq_true, if_false]
  rfl

end

/-! Abort (11 R367, R368). What a squash does has no part in whose turn it is. -/

section
variable (s : State) (c : Cand)

@[simp] theorem setBits_tookTurn (o : Nat) (w : Word) : setBits (tookTurn s c) o w = tookTurn (setBits s o w) c := rfl
@[simp] theorem setDesc_tookTurn (d : Nat) (x : Desc) : setDesc (tookTurn s c) d x = tookTurn (setDesc s d x) c := rfl
@[simp] theorem freeN_tookTurn : freeN (tookTurn s c) = ((freeN s).1, tookTurn (freeN s).2 c) := rfl
@[simp] theorem resultNow_tookTurn (d : Nat) (x : Desc) : resultNow (tookTurn s c) d x = resultNow s d x := rfl
@[simp] theorem setPgd_tookTurn (p g : Nat) (b : Bytes) : setPgd (tookTurn s c) p g b = tookTurn (setPgd s p g b) c := rfl
@[simp] theorem dropStage_tookTurn (d : Nat) (g : Stage) : dropStage (tookTurn s c) d g = tookTurn (dropStage s d g) c := rfl

/-- A fold of steps that have no part in the turn has none. -/
theorem foldl_tookTurn {α : Type} (l : List α) (f : State → α → State) (h : ∀ t x, f (tookTurn t c) x = tookTurn (f t x) c) :
    l.foldl f (tookTurn s c) = tookTurn (l.foldl f s) c :=
  List.foldl_hom (tookTurn · c) h

@[simp] theorem countEv_tookTurn (ev : Nat) (p : Option Nat) (n : Nat) :
    countEv (tookTurn s c) ev p n = tookTurn (countEv s ev p n) c := by
  unfold countEv
  rw [apply_ite (tookTurn · c)]
  dsimp only
  rw [← foldl_tookTurn]
  · rfl
  · intro t x
    rw [apply_ite (tookTurn · c)]
    rfl

@[simp] theorem completeDesc_tookTurn (d st r : Nat) :
    completeDesc (tookTurn s c) d st r = tookTurn (completeDesc s d st r) c := by
  simp only [completeDesc, descAt_tookTurn]
  split
  · rfl
  next x hx =>
    cases resultStated x.opcode st <;> simp [apply_ite (tookTurn · c)] <;> rfl

theorem sendAborts_tookTurn (g : Stage) (st v : Nat) (e : Option (Nat × Bool)) :
    sendAborts (tookTurn s c) g st v e = tookTurn (sendAborts s g st v e) c := by
  simp only [sendAborts]
  rw [foldl_tookTurn, apply_ite (tookTurn · c)]
  · rfl
  · intro t i
    rw [apply_ite (tookTurn · c)]
    rfl

@[simp] theorem pushCadence_tookTurn (p g st f n v : Nat) :
    pushCadence (tookTurn s c) p g st f n v = tookTurn (pushCadence s p g st f n v) c := by
  rw [pushCadence, pushCadence, queueCadence, queueCadence, apply_ite (tookTurn · c)]
  rfl

@[simp] theorem tearUpdate_tookTurn (d st : Nat) : tearUpdate (tookTurn s c) d st = tookTurn (tearUpdate s d st) c := by
  unfold tearUpdate
  rw [tookTurn_upd]
  split
  · rfl
  next u _ => cases u.wrote <;> simp <;> rfl

theorem failUpdate_tookTurn (d st : Nat) : failUpdate (tookTurn s c) d st = tookTurn (failUpdate s d st) c := by
  simp only [failUpdate, tearUpdate_tookTurn, completeDesc_tookTurn]

theorem endFused_tookTurn (d st : Nat) : endFused (tookTurn s c) d st = tookTurn (endFused s d st) c := by
  unfold endFused
  rw [tookTurn_upd]
  split
  · rfl
  next f _ =>
    cases f.upd with
    | none => rfl
    | some u =>
      exact failUpdate_tookTurn { s with upd := { s.upd with fuses := s.upd.fuses.filter (fun g => g.red != some d) } } c u st

theorem abortStage_tookTurn (d st v n : Nat) (e : Option (Nat × Bool)) :
    abortStage (tookTurn s c) d st v n e = tookTurn (abortStage s d st v n e) c := by
  unfold abortStage
  rw [tookTurn_red]
  split
  · rfl
  · simp only [sendAborts_tookTurn, dropStage_tookTurn, endFused_tookTurn]

theorem squashUnits_tookTurn (d st : Nat) : squashUnits (tookTurn s c) d st = tookTurn (squashUnits s d st) c := by
  simp only [squashUnits, tookTurn_dom, abortStage_tookTurn, tearUpdate_tookTurn]
  generalize tearUpdate _ d st = t
  rfl

theorem squashDesc_tookTurn (d st : Nat) : squashDesc (tookTurn s c) d st = tookTurn (squashDesc s d st) c := by
  simp only [squashDesc, descAt_tookTurn]
  split
  · rw [squashUnits_tookTurn, resultNow_tookTurn, completeDesc_tookTurn]
  · rfl

end

/-- A test that no entry at a key meets, neither before nor after, sees the same table. -/
theorem filter_tset {α : Type} (p : Nat × α → Bool) (t : Tbl α) (i : Nat) (v : α) (hv : p (i, v) = false)
    (h : ∀ w, (i, w) ∈ t → p (i, w) = false) : (tset t i v).filter p = t.filter p := by
  induction t with
  | nil => simp [tset, hv]
  | cons q t ih =>
    obtain ⟨k, w⟩ := q
    rw [tset]
    split
    · simp [hv]
    · split
      next hk =>
        subst hk
        simp [hv, h w List.mem_cons_self]
      next =>
        simp only [List.filter_cons, ih fun w hw => h w (List.mem_cons_of_mem _ hw)]

/-- The entry that a table gives stands in it. -/
theorem mem_of_tget {α : Type} {t : Tbl α} {k : Nat} {v : α} (h : tget t k = some v) : (k, v) ∈ t := by
  induction t with
  | nil => simp [tget] at h
  | cons q t ih =>
    obtain ⟨j, w⟩ := q
    rw [tget] at h
    split at h
    next hk =>
      cases h
      simp [hk]
    next => exact List.mem_cons_of_mem _ (ih h)

/-- The descriptors fetched from the index that an abort names. -/
def abortHit (c : Nat) (b : Bytes) : Nat × Desc → Bool :=
  fun y => y.2.ctx == c && y.2.queue == leAt b 8 1 && y.2.index == leAt b 12 4

section
variable {s t : State} {d c : Nat} {b : Bytes} {x : Desc}

/-- An abort that does not name itself finds what it would have found before it began. -/
theorem Begins.abortHits (h : Begins s d x t) (hx : descAt s d = some x)
    (hn : ∀ w, (d, w) ∈ s.parts.desc → abortHit c b (d, w) = false) :
    t.parts.desc.filter (abortHit c b) = s.parts.desc.filter (abortHit c b) := by
  obtain ⟨k, hk⟩ := h.desc
  rw [hk]
  exact filter_tset _ _ _ _ (hn x (mem_of_tget hx)) hn

theorem startAbort_none (h : t.parts.desc.filter (abortHit c b) = []) : startAbort t d c b = completeDesc t d stBadParam 0 := by
  delta abortHit at h
  simp [startAbort, h]

section
variable {y : Nat × Desc} (h : t.parts.desc.filter (abortHit c b) = [y])
include h

theorem startAbort_mismatch (hy : y.2.user ≠ leAt b 16 4 ∨ y.2.opcode = 10) : startAbort t d c b = completeDesc t d stBadParam 0 := by
  delta abortHit at h
  simp only [startAbort, h, List.getLast?_singleton, hy, if_true]

theorem startAbort_late (hu : y.2.user = leAt b 16 4) (ho : y.2.opcode ≠ 10)
    (hp : y.2.phase = .done ∨ y.2.phase = .recorded ∨ y.2.phase = .squashed) :
    startAbort t d c b = completeDesc t d stAbortTooLate 0 := by
  delta abortHit at h
  rcases hp with hp | hp | hp <;> simp [startAbort, h, hu, ho, hp]

theorem startAbort_live (hu : y.2.user = leAt b 16 4) (ho : y.2.opcode ≠ 10) (hp : y.2.phase = .fetched ∨ y.2.phase = .running) :
    startAbort t d c b = completeDesc (squashDesc t y.1 stAborted) d stOk 0 := by
  delta abortHit at h
  rcases hp with hp | hp <;> simp [startAbort, h, hu, ho, hp]

end
end

/-! The commands, each from what its work does. -/

section
variable {s : State} {d : Nat} {x : Desc}

/-- The work of a signal, by the streams that reductions used before it began. -/
theorem tryStart_signal (h : starts s d x 7 = true) : tryStart (quiet s) d .ok =
    if subTaken s ((ctxPart s x.ctx).getD 0) (leAt x.raw 8 2) (leAt x.raw 10 1) then some (completeDesc (begun (quiet s) d x) d stBusy 0)
    else some (sendSignal (begun (quiet s) d x) d ((ctxPart s x.ctx).getD 0) x.ctx (leAt x.raw 8 2) (leAt x.raw 10 1) (leAt x.raw 16 6)
      (leAt x.raw 24 8)) := by
  have hb := begun_begins (quiet s) d x
  rw [tryStart_starts h, workOf, hb.ctxPart, hb.subTaken]
  rfl

/-- The work of a wait, by the waits that were armed before it began. -/
theorem tryStart_wait (h : starts s d x 8 = true) : tryStart (quiet s) d .ok =
    if 4096 ≤ s.fab.waits.length then none else some (armWait (begun (quiet s) d x) (waitOf s d x)) := by
  have hb := begun_begins (quiet s) d x
  rw [tryStart_starts h, workOf, hb.fab, waitOf, hb.ctxPart, hb.ts]
  rfl

end

/-- Two effects that are one have one outcome. -/
theorem next_finish {s t u : State} (h : t = u) :
    (.next (finish s t) : Host.Outcome State Fault Refusal) = .next (finish s u) := by rw [h]

section
variable {s : State} {d : Nat} {x : Desc}

theorem exec_wdCopyAsync_free (h : starts s d x 1 = true) (n : Nat)
    (hn : lowestFrom (fun e => (tget s.fab.copies e).isNone) 32 0 = some n) :
    ∃ u k, exec (.wdCopyAsync d) s = .next (finish s u) ∧ tget u.fab.copies n = some k ∧ k.desc = d ∧ k.src = leAt x.raw 8 8 ∧
      k.dst = leAt x.raw 16 8 % 2 ^ 48 ∧ k.len = leAt x.raw 24 8 ∧ k.beats = leAt x.raw 36 1 ∧
      ∃ y, descAt u d = some y ∧ y.phase = .running := by
  have hb := begun_begins (quiet s) d x
  obtain ⟨u, k, hu, hparts, hk, hd, hsrc, hdst, hlen, hbeats⟩ :=
    startCopy_free (t := begun (quiet s) d x) (d := d) (b := x.raw) (n := n) (by rw [hb.fab]; exact hn)
  obtain ⟨c, hrun⟩ := startOne_some h ((tryStart_starts h).trans hu)
  have hdesc : descAt u d = descAt (begun (quiet s) d x) d := by rw [descAt, hparts, descAt]
  obtain ⟨y, hy, hrunning, _⟩ := hb.runs
  exact ⟨_, k, hrun, hk, hd, hsrc, hdst, hlen, hbeats, y, hdesc.trans hy, hrunning⟩

theorem exec_wdCopyAsync_full (h : starts s d x 1 = true) (hn : lowestFrom (fun e => (tget s.fab.copies e).isNone) 32 0 = none) :
    exec (.wdCopyAsync d) s = .next (finish s (quiet s)) :=
  startOne_none h ((tryStart_starts h).trans (startCopy_full (by rw [(begun_begins (quiet s) d x).fab]; exact hn)))

theorem exec_wdSignal_taken (h : starts s d x 7 = true)
    (hs : subTaken s ((ctxPart s x.ctx).getD 0) (leAt x.raw 8 2) (leAt x.raw 10 1) = true) :
    ∃ u y, exec (.wdSignal d) s = .next (finish s u) ∧ descAt u d = some y ∧ y.phase = .done ∧ y.status = stBusy ∧ u.fab = s.fab := by
  have hb := begun_begins (quiet s) d x
  obtain ⟨u, y, hrun, hy, hphase, hst, _, hfab, _⟩ := startOne_completes h hb.runs ((tryStart_signal h).trans (if_pos hs))
  exact ⟨u, y, hrun, hy, hphase, hst, hfab.trans hb.fab⟩

theorem exec_wdSignal_remote (h : starts s d x 7 = true)
    (hs : subTaken s ((ctxPart s x.ctx).getD 0) (leAt x.raw 8 2) (leAt x.raw 10 1) = false) (ho : ownVertex s (leAt x.raw 8 2) = false) :
    ∃ u f, exec (.wdSignal d) s = .next (finish s u) ∧ u.fab.txq = s.fab.txq ++ [f] ∧ f.dst = leAt x.raw 8 2 ∧
      f.owner = (ctxPart s x.ctx).getD 0 + 1 ∧ f.tc = 3 ∧ f.sub = leAt x.raw 10 1 ∧ f.aop = 9 ∧ f.addr = leAt x.raw 16 6 ∧
      f.operand = leAt x.raw 24 8 ∧ f.cover = true := by
  have hb := begun_begins (quiet s) d x
  obtain ⟨f, hf, hfields⟩ := sendSignal_remote (d := d) (part := (ctxPart s x.ctx).getD 0) (ctx := x.ctx) (sub := leAt x.raw 10 1)
    (off := leAt x.raw 16 6) (value := leAt x.raw 24 8) ((hb.ownVertex (leAt x.raw 8 2)).trans ho)
  obtain ⟨c, hrun⟩ := startOne_some h ((tryStart_signal h).trans ((if_neg (by simp [hs])).trans (congrArg some hf)))
  refine ⟨_, f, hrun, ?_, hfields⟩
  rw [tookTurn_fab, pushTx, hb.fab]
  rfl

theorem exec_wdSignal_own (h : starts s d x 7 = true)
    (hs : subTaken s ((ctxPart s x.ctx).getD 0) (leAt x.raw 8 2) (leAt x.raw 10 1) = false) (ho : ownVertex s (leAt x.raw 8 2) = true) :
    ∃ u t q, exec (.wdSignal d) s = .next (finish s u) ∧ u.fab = (applyReq t q).fab ∧ t.fab = s.fab ∧ q.who = .signal d ∧
      q.owner = (ctxPart s x.ctx).getD 0 + 1 ∧ q.kind = kAtomic ∧ q.aop = 9 ∧ q.addr = leAt x.raw 16 6 ∧
      q.operand.take 8 = leBytes 8 (leAt x.raw 24 8) := by
  have hb := begun_begins (quiet s) d x
  obtain ⟨q, hq, hfields⟩ := sendSignal_own (d := d) (part := (ctxPart s x.ctx).getD 0) (ctx := x.ctx) (sub := leAt x.raw 10 1)
    (off := leAt x.raw 16 6) (value := leAt x.raw 24 8) ((hb.ownVertex (leAt x.raw 8 2)).trans ho)
  obtain ⟨c, hrun⟩ := startOne_some h ((tryStart_signal h).trans ((if_neg (by simp [hs])).trans (congrArg some hq)))
  exact ⟨_, _, q, hrun, rfl, hb.fab, hfields⟩

theorem exec_wdFence_room (h : starts s d x 6 = true)
    (hroom : ∀ c ∈ fenceCtxs s x.ctx x.pasid, s.fab.fences.countP (fun f => f.ctx == c) < 15) :
    ∃ u, exec (.wdFence d) s = .next (finish s u) ∧
      u.fab.fences = s.fab.fences ++ (fenceCtxs s x.ctx x.pasid).map (fun c =>
        { desc := d, ctx := c, epoch := epochOf s c, scope := leAt x.raw 8 1, vertex := leAt x.raw 10 2 }) ∧
      x.ctx ∈ fenceCtxs s x.ctx x.pasid ∧ (∀ c ∈ fenceCtxs s x.ctx x.pasid, epochOf u c = epochOf s c + 1) ∧
      u.fab.tags = s.fab.tags := by
  have hb := begun_begins (quiet s) d x
  have hc : fenceCtxs (begun (quiet s) d x) x.ctx x.pasid = fenceCtxs s x.ctx x.pasid := hb.fenceCtxs _ _
  have he : ∀ c, epochOf (begun (quiet s) d x) c = epochOf s c := hb.epochOf
  obtain ⟨u, hu, hfences, hepochs, htags⟩ := startFence_room (t := begun (quiet s) d x) (d := d) (c := x.ctx) (a := x.pasid)
    (b := x.raw) (by rw [hc, hb.fab]; exact hroom)
  simp only [hc, he, hb.fab] at hfences hepochs htags
  obtain ⟨c, hrun⟩ := startOne_some h ((tryStart_starts h).trans hu)
  exact ⟨_, hrun, hfences, mem_fenceCtxs_self s x.ctx x.pasid, hepochs, htags⟩

theorem exec_wdFence_full (h : starts s d x 6 = true) (c : Nat) (hc : c ∈ fenceCtxs s x.ctx x.pasid)
    (hfull : 15 ≤ s.fab.fences.countP (fun f => f.ctx == c)) : exec (.wdFence d) s = .next (finish s (quiet s)) := by
  have hb := begun_begins (quiet s) d x
  exact startOne_none h ((tryStart_starts h).trans (startFence_full c (by rw [hb.fenceCtxs]; exact hc) (by rw [hb.fab]; exact hfull)))

theorem exec_wdWait_full (h : starts s d x 8 = true) (hw : 4096 ≤ s.fab.waits.length) :
    exec (.wdWait d) s = .next (finish s (quiet s)) :=
  startOne_none h ((tryStart_wait h).trans (if_pos hw))

theorem exec_wdWait_room (h : starts s d x 8 = true) (hw : s.fab.waits.length < 4096) :
    ∃ u, exec (.wdWait d) s = .next (finish s u) ∧ u.fab.waits = s.fab.waits ++ [waitOf s d x] ∧
      u.out = mreqOuts s false ((partAt s ((ctxPart s x.ctx).getD 0)).fwinBase + leAt x.raw 16 6) 8 [] []
        (some (lowestPasid (partAt s ((ctxPart s x.ctx).getD 0)))) := by
  have hb := begun_begins (quiet s) d x
  obtain ⟨c, hrun⟩ := startOne_some h ((tryStart_wait h).trans (if_neg (Nat.not_le.mpr hw)))
  refine ⟨_, hrun, ?_, ?_⟩
  · rw [tookTurn_fab, armWait_waits, hb.fab]
    rfl
  · rw [tookTurn_out, armWait_out, hb.out, hb.partAt, hb.mreqOuts]
    rfl

theorem exec_wdDumpMark (h : starts s d x 9 = true) :
    ∃ u y, exec (.wdDumpMark d) s = .next (finish s u) ∧
      tget u.parts.marks (x.ctx * 256 + x.queue) = some (leAt x.raw 8 4, leAt x.raw 16 8) ∧
      descAt u d = some y ∧ y.phase = .done ∧ y.status = stOk ∧ y.result = 0 := by
  obtain ⟨u, y, hrun, hy, hphase, hst, hres, _, _, hmarks⟩ :=
    startOne_completes (t := leaveMark (begun (quiet s) d x) x) h (begun_begins (quiet s) d x).runs (tryStart_starts h)
  exact ⟨u, y, hrun, by rw [hmarks]; exact tget_tset_same _ _ _, hy, hphase, hst, hres rfl⟩

theorem exec_wdPublish_accepted (h : starts s d x 4 = true) {r : Region} (hr : regionAt s (leAt x.raw 8 2 % 4096) = some r)
    (hk : r.kind = 2) (ha : r.authority = true) (he : r.epoch < 0xFFFFFFFF) :
    ∃ u, exec (.wdPublish d) s = .next (finish s u) ∧ u.mem.drains = s.mem.drains ++
      [{ desc := d, kid := leAt x.raw 8 2 % 4096, publish := true, target := 0,
         ops := opsOn s (leAt x.raw 8 2 % 4096) (r.epoch + 1) true, status := stOk }] ∧
      regionAt u (leAt x.raw 8 2 % 4096) = some r := by
  have hb := begun_begins (quiet s) d x
  have hr' : regionAt (begun (quiet s) d x) (leAt x.raw 8 2 % 4096) = some r := (hb.regionAt _).trans hr
  obtain ⟨c, hrun⟩ := startOne_some h ((tryStart_starts h).trans (congrArg some (startPublish_accepted hr' hk ha he)))
  refine ⟨_, hrun, ?_, hr'⟩
  rw [tookTurn_mem, hb.mem, hb.opsOn]
  rfl

theorem exec_wdInvalidate_accepted (h : starts s d x 5 = true) {r : Region} (hr : regionAt s (leAt x.raw 8 2 % 4096) = some r)
    (hk : r.kind = 2) (ha : r.authority = false) (he : r.epoch < leAt x.raw 12 4) :
    ∃ u, exec (.wdInvalidate d) s = .next (finish s u) ∧ regionAt u (leAt x.raw 8 2 % 4096) = some { r with epoch := leAt x.raw 12 4 } ∧
      u.mem.drains = s.mem.drains ++
        [{ desc := d, kid := leAt x.raw 8 2 % 4096, publish := false, target := leAt x.raw 12 4,
           ops := opsOn s (leAt x.raw 8 2 % 4096) r.epoch false, status := stOk }] := by
  have hb := begun_begins (quiet s) d x
  obtain ⟨c, hrun⟩ :=
    startOne_some h ((tryStart_starts h).trans (congrArg some (startInvalidate_accepted ((hb.regionAt _).trans hr) hk ha he)))
  refine ⟨_, hrun, tget_tset_same _ _ _, ?_⟩
  rw [tookTurn_mem, hb.mem, hb.opsOn]
  rfl

/-- What an abort finds, from what its queue held before it began. -/
theorem starts.abortHits (h : starts s d x 10 = true) {l : List (Nat × Desc)} (hl : s.parts.desc.filter (abortHit x.ctx x.raw) = l)
    (hd : ∀ y ∈ l, y.1 ≠ d) : (begun (quiet s) d x).parts.desc.filter (abortHit x.ctx x.raw) = l := by
  obtain ⟨_, hx, _⟩ := starts_iff.mp h
  refine ((begun_begins (quiet s) d x).abortHits hx fun w hw => ?_).trans hl
  by_contra hne
  exact hd (d, w) (hl ▸ List.mem_filter.mpr ⟨hw, by simpa using hne⟩) rfl

theorem exec_wdAbort_live (h : starts s d x 10 = true) {y : Nat × Desc} (hl : s.parts.desc.filter (abortHit x.ctx x.raw) = [y])
    (hyd : y.1 ≠ d) (hy : descAt s y.1 = some y.2) (hu : y.2.user = leAt x.raw 16 4) (ho : y.2.opcode ≠ 10)
    (hp : y.2.phase = .fetched ∨ y.2.phase = .running) :
    ∃ t, exec (.wdAbort d) s = .next (finish s (completeDesc (squashDesc t y.1 stAborted) d stOk 0)) ∧ descAt t y.1 = some y.2 ∧
      t.fab = s.fab ∧ t.red = s.red ∧ t.upd = s.upd ∧ t.mem = s.mem := by
  have hb := begun_begins (quiet s) d x
  have hlive := startAbort_live (d := d) (starts.abortHits h hl (by simpa using hyd)) hu ho hp
  obtain ⟨c, hrun⟩ := startOne_some h ((tryStart_starts h).trans (congrArg some hlive))
  rw [← completeDesc_tookTurn, ← squashDesc_tookTurn] at hrun
  exact ⟨_, hrun, (hb.descAt_other _ hyd).trans hy, hb.fab, hb.red, hb.upd, hb.mem⟩

end

/-! The obligation. -/

/-- Settles O47: a descriptor that starts by what its opcode's work does from the state in which it has begun, a chunk and a wait by the
branches of their commands, and an abort by the one descriptor its index finds. -/
theorem fabricAndEpochWork : Obligations.FabricAndEpochWork := by
  unfold Obligations.FabricAndEpochWork
  refine ⟨fun s d e v x => ⟨fun h => ?_, fun hu => ?_, fun h => ?_, fun h => ?_, fun h => ?_, fun h => ?_, fun hu => ?_⟩,
    fun s d x => ⟨fun r h hr => ?_, fun r h hr => ?_, fun h => ?_⟩⟩
  · exact ⟨exec_wdCopyAsync_free h, exec_wdCopyAsync_full h⟩
  · rw [exec_copyChunkSend s e hu]
    refine ⟨fun hn => ?_, fun k i data rest hclk hk hready hx => ?_⟩
    · rcases hn with hn | hclk
      · rw [sendChunk_none (quiet s) e hn, ite_self]
      · rw [hclk, if_neg Bool.false_ne_true]
    · rw [hclk, if_pos rfl]
      refine ⟨fun hs => next_finish (sendChunk_stale hk hready hx hs), fun hs hn ho => ?_, fun hs hn ho => ?_,
        fun r hs h0 hr hrk => ⟨fun he => ?_, fun he => ?_⟩⟩
      · obtain ⟨f, hf, hfields⟩ := sendChunk_remote (s := quiet s) hk hready hx hs (sharedOf_none hn) ho
        exact ⟨f, next_finish hf, hfields⟩
      · obtain ⟨q, hq, hfields⟩ := sendChunk_own (s := quiet s) hk hready hx hs (sharedOf_none hn) ho
        exact ⟨q, next_finish hq, hfields⟩
      · exact ⟨_, next_finish (sendChunk_exhausted (s := quiet s) hk hready hx hs (sharedOf_some h0 hr hrk) he), rfl⟩
      · obtain ⟨u, m, hm, hfields⟩ := sendChunk_shared (s := quiet s) hk hready hx hs (sharedOf_some h0 hr hrk) he
        exact ⟨u, m, next_finish hm, hfields⟩
  · exact ⟨exec_wdSignal_taken h, exec_wdSignal_remote h, exec_wdSignal_own h⟩
  · exact ⟨exec_wdFence_room h, exec_wdFence_full h⟩
  · exact ⟨exec_wdWait_full h, exec_wdWait_room h⟩
  · exact exec_wdDumpMark h
  · refine ⟨fun hw => ?_, fun w hw => ?_, fun w hw => ?_, fun hw => ?_⟩
    · have ht : s.fab.waits.find? (fun w => w.desc == d && w.until_.isSome && !w.expired) = none :=
        List.find?_eq_none.mpr fun w hm => by simp [hw w hm]
      rw [exec_waitPoll s d .ok v hu, exec_waitTimeout s d hu, pollWait_none (s := quiet s) hw, timeoutWait_none (s := quiet s) ht]
      exact ⟨rfl, rfl⟩
    · rw [exec_waitPoll s d .ok v hu, exec_waitPoll s d .poison v hu, pollWait_reads (s := quiet s) hw, pollWait_reads (s := quiet s) hw]
      intro m
      have hm : m.fab.waits.find? (fun w => w.desc == d) = some w := hw
      exact ⟨fun he hv => next_finish (waitAnswer_below hm _ he hv), fun he hv => next_finish (waitAnswer_reached hm _ he hv),
        fun he => next_finish (waitAnswer_expired hm _ he), fun he => next_finish (waitAnswer_poison hm _ he)⟩
    · rw [exec_waitTimeout s d hu]
      exact next_finish (timeoutWait_armed hw)
    · rw [exec_waitTimeout s d hu, timeoutWait_none (s := quiet s) hw]
  · have hb := begun_begins (quiet s) d x
    have hr' : regionAt (begun (quiet s) d x) (leAt x.raw 8 2 % 4096) = some r := (hb.regionAt _).trans hr
    have ht := tryStart_starts h
    refine ⟨fun hk => ?_, fun hk ha => ?_, fun hk ha he => ?_, exec_wdPublish_accepted h hr⟩
    · exact startOne_ends h hb rfl (ht.trans (congrArg some (startPublish_kind hr' hk)))
    · exact startOne_ends h hb rfl (ht.trans (congrArg some (startPublish_reader hr' hk ha)))
    · exact startOne_ends h hb rfl (ht.trans (congrArg some (startPublish_exhausted hr' hk ha he)))
  · have hb := begun_begins (quiet s) d x
    have hr' : regionAt (begun (quiet s) d x) (leAt x.raw 8 2 % 4096) = some r := (hb.regionAt _).trans hr
    have ht := tryStart_starts h
    refine ⟨fun hbad => ?_, fun hk he => ?_, exec_wdInvalidate_accepted h hr⟩
    · exact startOne_ends h hb rfl (ht.trans (congrArg some (startInvalidate_refused hr' hbad)))
    · exact startOne_ends h hb rfl (ht.trans (congrArg some (startInvalidate_current hr' hk he)))
  · have hb := begun_begins (quiet s) d x
    have ht := tryStart_starts h
    refine ⟨fun hno => ?_, fun y hl hyd hy => ?_⟩
    · have hl : s.parts.desc.filter (abortHit x.ctx x.raw) = [] := List.filter_eq_nil_iff.mpr fun y hm =>
        Bool.eq_false_iff.mp (hno y hm)
      exact startOne_ends h hb rfl (ht.trans (congrArg some (startAbort_none (starts.abortHits h hl (by simp)))))
    · have hl' := starts.abortHits h hl (by simpa using hyd)
      refine ⟨fun hbad => ?_, fun hu ho hp => ?_, exec_wdAbort_live h hl hyd hy⟩
      · exact startOne_ends h hb rfl (ht.trans (congrArg some (startAbort_mismatch hl' hbad)))
      · exact startOne_ends h hb rfl (ht.trans (congrArg some (startAbort_late hl' hu ho hp)))

end Sys2Proof.Machine
end

section
/-! SUPPORT. Writes of RST_CMD that start nothing (12 R467). -/

namespace Sys2Proof.Machine

section
variable {s : State} {w : Word} (fails : List Part)

theorem rstCmd_busy (h : resetBusy s = true) : rstCmd s w fails = s := if_pos h

theorem rstCmd_unlistedOp (h : fld w 2 0 = 0 ∨ 5 ≤ fld w 2 0) : rstCmd s w fails = s := by
  have h1 : fld w 2 0 ≠ 1 := by omega
  have h2 : fld w 2 0 ≠ 2 := by omega
  have h3 : fld w 2 0 ≠ 3 := by omega
  have h4 : fld w 2 0 ≠ 4 := by omega
  simp [rstCmd, h1, h2, h3, h4]

theorem rstCmd_unlistedUnit (hop : fld w 2 0 = 1) (hu : unitOk s (fld w 12 8) = false) : rstCmd s w fails = s := by
  simp [rstCmd, hop, hu]

theorem rstCmd_absentPort (hop : fld w 2 0 = 2 ∨ fld w 2 0 = 3) (hp : portOk s (fld w 18 16) = false) : rstCmd s w fails = s := by
  rcases hop with hop | hop <;> simp [rstCmd, hop, hp]

end

/-- RST_CMD is written as a register, with no part failing its test (12 R419; 14 R454). -/
theorem registerWrite_rstCmd (s : State) (w : Word) (who : Requester) (h : opens s who 0x5044 = true) :
    exec (.registerWrite 0x5044 w who) s = .next (finish s (emit (rstCmd (quiet s) w []) (.regRsp 0 false))) :=
  runWrite_opens s who 0x5044 (fun t => rstCmd t w []) h

/-- Settles O57: the write is answered with what RST_CMD does, and that is nothing in each case of R467. -/
theorem resetCommandIgnored : Obligations.ResetCommandIgnored := by
  unfold Obligations.ResetCommandIgnored
  intro s w who ho hcase
  have hnothing : rstCmd (quiet s) w [] = quiet s := by
    obtain hop | ⟨hop, hu⟩ | ⟨hop, hp⟩ | hbusy := hcase
    · exact rstCmd_unlistedOp [] hop
    · exact rstCmd_unlistedUnit [] hop hu
    · exact rstCmd_absentPort [] hop hp
    · exact rstCmd_busy [] hbusy
  rw [registerWrite_rstCmd s w who ho, hnothing]

end Sys2Proof.Machine
end

section
/-! SUPPORT. The machine as a whole: a step, the idle cycle, reset, what every command keeps, and the tables (02 R51, R55, R61; 12 R400). -/

namespace Sys2Proof.Machine

/- Proofs are elaborated in their order, for the reason given in the first section of this kind. -/
set_option deprecated.oldSectionVars true

/-! A step. -/

theorem step_cons (c : Instr) (s : State) : step { s with pending := c :: s.pending } = exec c s := rfl

theorem step_nil (s : State) (h : s.pending = []) : step s = .next (idle s) := by simp only [step, h]

/-- Settles O1: the definition of a step on a queue with a front. -/
theorem stepRunsFront : Obligations.StepRunsFront := by
  unfold Obligations.StepRunsFront
  exact step_cons

/-! The idle cycle (13 R431). -/

theorem idle_down (s : State) (h : s.aon.porN = false) : idle s = quiet s := by simp [idle, h]

/-- A cycle of tvd_aon_clk moves the timestamp and counts. -/
theorem idle_up (s : State) (h : s.aon.porN = true) :
    ∃ u, idle s = quiet u ∧ Counts { s with aon := { s.aon with ts := (s.aon.ts + 10) % 2 ^ 64 } } u :=
  ⟨aonCycle s, by simp [idle, h], aonCycle_counts s⟩

/-- The idle cycle leaves the queue. -/
theorem idle_pending (s : State) : (idle s).pending = s.pending := by
  cases hp : s.aon.porN with
  | false => rw [idle_down s hp, quiet_pending]
  | true =>
    obtain ⟨u, hu, c, n, w, f, rfl⟩ := idle_up s hp
    rw [hu, quiet_pending]

/-- Settles O2: while tvd_por_n is low the cycle is quiet, and while it is high it moves the timestamp and counts. -/
theorem idleStep : Obligations.IdleStep := by
  unfold Obligations.IdleStep
  intro s hs
  refine ⟨idle s, step_nil s hs, rfl, (idle_pending s).trans hs, idle_down s, fun hp => ?_⟩
  obtain ⟨u, hu, c, n, w, f, rfl⟩ := idle_up s hp
  rw [hu]
  exact ⟨rfl, rfl, rfl, rfl, rfl, rfl, rfl, rfl, rfl, rfl, rfl⟩

/-! Reset. -/

theorem zeroed_of_running (s : State) (h : s.aon.haltReq = false) : zeroed s := fun hh => by simp [h] at hh

/-- Settles O3: each field as reset writes it, and a register that nothing has written at its reset value. -/
theorem resetState : Obligations.ResetState :=
  ⟨rfl, rfl, rfl, rfl, rfl, rfl, rfl, rfl, rfl, rfl, rfl, rfl, rfl, rfl, rfl, rfl, rfl, rfl, zeroed_of_running _ rfl, rfl, rfl, rfl, rfl⟩

/-! What every command keeps. -/

theorem latched_refl (s : State) : latched s s := ⟨id, id⟩

/-- The state after a command that is not effective differs in its outputs alone. -/
theorem latched_quiet (s : State) : latched s (quiet s) := latched_refl s

theorem zeroed_quiet (s : State) (h : zeroed s) : zeroed (quiet s) := h

theorem coldFall_pending (s : State) : (coldFall s).pending = s.pending := by
  unfold coldFall
  split
  · rfl
  · next b hb =>
    obtain ⟨f, hf⟩ := blow_eq (freeN s).2 b.word (toW (freeN s).1 &&& b.val)
    rw [hf]
    rfl

theorem execColdReset_fall (a b : Bool) (env : BootEnv) (s : State) : execColdReset false a b env s = .next (coldFall s) := rfl

theorem execColdReset_noEvent (a b : Bool) (env : BootEnv) (s : State) (h : s.aon.porN = true) :
    execColdReset true a b env s = .next (quiet s) := by simp [execColdReset, h]

theorem execColdReset_rise (a b : Bool) (env : BootEnv) (s : State) (h : s.aon.porN = false) :
    execColdReset true a b env s = .next (haltClamp (latch s (coldRise s a b env))) := by simp [execColdReset, h]

/-- What holds after the rise of tvd_por_n, whatever boot does. -/
theorem latchClamp_keeps (s u : State) : (haltClamp (latch s u)).pending = s.pending ∧ latched s (haltClamp (latch s u)) := by
  obtain ⟨hp, hh, hr⟩ := haltClamp_keeps (latch s u)
  refine ⟨hp, fun h => ?_, fun h => ?_⟩
  · rw [hh]; simp [latch, h]
  · rw [hr]; simp [latch, h]

/-- COLD_RESET falls, rises, or is no event. -/
theorem execColdReset_cases (r a b : Bool) (env : BootEnv) (s : State) : ∃ t, execColdReset r a b env s = .next t ∧
    t.pending = s.pending ∧ (r = true → latched s t) ∧ (zeroed s → zeroed t) := by
  cases r with
  | false => exact ⟨_, rfl, coldFall_pending s, fun h => absurd h (by simp), fun _ => zeroed_of_running _ rfl⟩
  | true =>
    cases hp : s.aon.porN with
    | true => exact ⟨_, execColdReset_noEvent a b env s hp, rfl, fun _ => latched_quiet s, zeroed_quiet s⟩
    | false =>
      obtain ⟨hq, hl⟩ := latchClamp_keeps s (coldRise s a b env)
      exact ⟨_, execColdReset_rise a b env s hp, hq, fun _ => hl, fun _ => haltClamp_zeroed _⟩

/-- An entry of a table after a write is the entry written or one of before. -/
theorem mem_tset {α : Type} (t : Tbl α) (i : Nat) (v : α) (p : Nat × α) (h : p ∈ tset t i v) : p = (i, v) ∨ p ∈ t := by
  induction t with
  | nil => exact .inl (by simpa [tset] using h)
  | cons q t ih =>
    obtain ⟨k, w⟩ := q
    simp only [tset] at h
    split at h
    · exact (List.mem_cons.mp h).imp_right id
    · split at h
      · exact (List.mem_cons.mp h).imp_right (List.mem_cons_of_mem _)
      · rcases List.mem_cons.mp h with rfl | h
        · exact .inr (List.mem_cons_self ..)
        · exact (ih h).imp_right (List.mem_cons_of_mem _)

/-- What holds of every entry and of the default holds of what a read finds. -/
theorem tgetD_of_forall {α : Type} (t : Tbl α) (i : Nat) (d : α) (P : α → Prop) (h : ∀ p ∈ t, P p.2) (hd : P d) :
    P (tgetD t i d) := by
  unfold tgetD
  cases e : tget t i with
  | none => exact hd
  | some v =>
    obtain ⟨p, hp, rfl⟩ := tget_mem t i v e
    exact h p hp

/-- The level of tvd_lp_lane_up is no part of what a halted block holds. -/
theorem zeroed_setLane_up (s : State) (k : Nat) (b : Bool) (h : zeroed s) :
    zeroed (setLane (quiet s) k { laneAt s k with up := b }) := by
  intro hh
  obtain ⟨h1, h2, h3, h4, h5, h6, h7, h8, h9, h10, hl⟩ := h hh
  refine ⟨h1, h2, h3, h4, h5, h6, h7, h8, h9, h10, fun p hp => ?_⟩
  rcases mem_tset _ _ _ _ hp with rfl | hp
  · exact tgetD_of_forall s.links.lane k Lane.down (fun l => l.started = false ∧ l.inService = false) hl ⟨rfl, rfl⟩
  · exact hl p hp

/-- A new level of a pin leaves the queue, the latches and what a halted block holds. -/
theorem PinMove.keeps {s u : State} (h : PinMove s u) : u.pending = s.pending ∧ latched s u ∧ (zeroed s → zeroed u) := by
  rcases h with ⟨b, rfl⟩ | ⟨b, rfl⟩ | ⟨b, rfl⟩ | ⟨b, rfl⟩ | ⟨k, b, rfl⟩
  · exact ⟨rfl, latched_refl s, id⟩
  · exact ⟨rfl, latched_refl s, id⟩
  · exact ⟨rfl, latched_refl s, id⟩
  · exact ⟨rfl, latched_refl s, id⟩
  · exact ⟨rfl, latched_refl s, zeroed_setLane_up s k b⟩

/-- What every answer of the three shapes keeps. -/
theorem Shape.keeps {s : State} {o : Host.Outcome State Fault Refusal} (h : Shape s o) :
    ∃ t, o = .next t ∧ t.pending = s.pending ∧ latched s t ∧ (zeroed s → zeroed t) := by
  rcases h with h | ⟨-, u, h⟩ | ⟨-, u, h, hm⟩
  · exact ⟨_, h, rfl, latched_quiet s, zeroed_quiet s⟩
  · exact ⟨_, h, (finish_keeps s u).1, (finish_keeps s u).2, fun _ => finish_zeroed s u⟩
  · exact ⟨u, h, hm.keeps⟩

/-- Every command answers with a next state, keeps the queue and what a halted block holds, and, unless tvd_por_n falls, the
latches. -/
theorem exec_keeps (c : Instr) (s : State) : ∃ t, exec c s = .next t ∧ t.pending = s.pending ∧
    ((∀ a b env, c ≠ .coldReset false a b env) → latched s t) ∧ (zeroed s → zeroed t) := by
  by_cases hc : ∃ r a b env, c = .coldReset r a b env
  · obtain ⟨r, a, b, env, rfl⟩ := hc
    obtain ⟨t, ht, hp, hl, hz⟩ := execColdReset_cases r a b env s
    refine ⟨t, ht, hp, fun hn => hl ?_, hz⟩
    cases r with
    | true => rfl
    | false => exact absurd rfl (hn a b env)
  · obtain ⟨t, ht, hp, hl, hz⟩ := (exec_shape c s fun r a b env e => hc ⟨r, a, b, env, e⟩).keeps
    exact ⟨t, ht, hp, fun _ => hl, hz⟩

/-- Settles O4: each of the shapes in which a command answers is a next state with the queue of before. -/
theorem everyCommandAnswers : Obligations.EveryCommandAnswers := by
  unfold Obligations.EveryCommandAnswers
  intro c s
  obtain ⟨t, ht, hp, -⟩ := exec_keeps c s
  exact ⟨t, ht, hp⟩

/-- Settles O5: no answer but the fall of tvd_por_n lowers a latch. -/
theorem latchesHold : Obligations.LatchesHold := by
  unfold Obligations.LatchesHold
  intro c s t ht hc
  obtain ⟨u, hu, -, hl, -⟩ := exec_keeps c s
  obtain rfl : u = t := by simpa [hu] using ht
  exact hl hc

/-- The idle cycle keeps what a halted block holds. -/
theorem zeroed_idle (s : State) (h : zeroed s) : zeroed (idle s) := by
  cases hp : s.aon.porN with
  | false => rw [idle_down s hp]; exact h
  | true =>
    obtain ⟨u, hu, c, n, w, f, rfl⟩ := idle_up s hp
    rw [hu]
    exact h

/-- Settles O6: the clamp after a command zeroes a halted block, and no other answer gives a halted block anything. -/
theorem haltedHoldsNothing : Obligations.HaltedHoldsNothing := by
  unfold Obligations.HaltedHoldsNothing
  intro s t hz ht
  unfold step at ht
  split at ht
  · obtain rfl : idle s = t := by simpa using ht
    exact zeroed_idle s hz
  · next c rest _ =>
    obtain ⟨u, hu, -, -, hk⟩ := exec_keeps c { s with pending := rest }
    obtain rfl : u = t := by simpa [hu] using ht
    exact hk hz

/-! While tvd_por_n is low (02 R61; log 48). -/

theorem engUp_low (s : State) (h : s.aon.porN = false) : engUp s = false := by simp [engUp, h]

theorem runEng_low (f : State → State) (s : State) (h : s.aon.porN = false) : runEng f s = .next (quiet s) :=
  runEng_down f s (engUp_low s h)

theorem runFw_low (f : State → State) (s : State) (h : s.aon.porN = false) : runFw f s = .next (quiet s) := runEng_low _ s h

theorem runCmd_low (n : Nat) (op : Op) (f : State → Packet → State) (s : State) (h : s.aon.porN = false) :
    runCmd n op f s = .next (quiet s) := runEng_low _ s h

theorem onLane_low (p l : Nat) (f : State → Nat → State) (s : State) (h : s.aon.porN = false) :
    onLane p l f s = .next (quiet s) := runEng_low _ s h

theorem runDp_low (l : Nat) (f : State → State × Word × Bool) (s : State) (h : s.aon.porN = false) :
    runDp l f s = .next (quiet s) := runAon_down _ s h

theorem runReg_low (w : Requester) (o : Nat) (f : State → State) (s : State) (h : s.aon.porN = false) :
    runReg w o f s = .next (quiet s) := by simp [runReg, regOpen, h]

theorem runWrite_low (w : Requester) (o : Nat) (f : State → State) (s : State) (h : s.aon.porN = false) :
    runWrite w o f s = .next (quiet s) := runReg_low w o _ s h

theorem runSpace_low (o : Nat) (w : Option Word) (s : State) (h : s.aon.porN = false) : runSpace o w s = .next (quiet s) := by
  unfold runSpace
  split
  · exact runDp_low _ _ s h
  · exact runAon_down _ s h

theorem runRead_low (o : Nat) (w : Requester) (s : State) (h : s.aon.porN = false) : runRead o w s = .next (quiet s) := by
  unfold runRead
  dsimp only
  split
  · exact runSpace_low _ _ s h
  · exact runReg_low _ _ _ s h

theorem execRegisterWrite_low (o : Nat) (v : Word) (w : Requester) (s : State) (h : s.aon.porN = false) :
    execRegisterWrite o v w s = .next (quiet s) := by
  unfold execRegisterWrite
  dsimp only
  split
  · exact runSpace_low _ _ s h
  · exact runReg_low _ _ _ s h

theorem onLanePin_low (p l : Nat) (up : Bool) (f : State → Nat → State) (s : State) (h : s.aon.porN = false) (hl : laneOk s p l = true) :
    onLanePin p l up f s = .next (setLane (quiet s) (laneNo p l) { laneAt s (laneNo p l) with up := up }) := by
  simp only [onLanePin, engUp_low s h, hl, h, Bool.false_eq_true, if_false, Bool.not_true]
  rfl

theorem execLaneUpRise_low (p l : Nat) (s : State) (h : s.aon.porN = false) (hl : laneOk s p l = true) :
    execLaneUpRise p l s = .next (setLane (quiet s) (laneNo p l) { laneAt s (laneNo p l) with up := true }) :=
  onLanePin_low p l true _ s h hl

theorem execLaneUpFall_low (p l : Nat) (s : State) (h : s.aon.porN = false) (hl : laneOk s p l = true) :
    execLaneUpFall p l s = .next (setLane (quiet s) (laneNo p l) { laneAt s (laneNo p l) with up := false }) :=
  onLanePin_low p l false _ s h hl

theorem execFreezeTrigger_low (on : Bool) (s : State) (h : s.aon.porN = false) :
    execFreezeTrigger true on s = .next (quiet s) := by
  rw [execFreezeTrigger, if_neg (by simp)]
  exact runAon_down _ s h

/-- A pin's command under tvd_por_n keeps the level of its pin. -/
theorem pins_low (s : State) (h : s.aon.porN = false) :
    (∀ env, execWarmReset env s = .next { quiet s with aon := { s.aon with rstN := true } }) ∧
    execWarmResetAssert s = .next { quiet s with aon := { s.aon with rstN := false } } ∧
    (∀ b, execFreezeTrigger false b s = .next { quiet s with aon := { s.aon with freezePin := b } }) ∧
    execClkStopRequest s = .next { quiet s with aon := { s.aon with clkReq := true } } ∧
    execClkStopWithdraw s = .next { quiet s with aon := { s.aon with clkReq := false } } ∧
    ∀ b, execFenceInChange b s = .next { quiet s with td := { s.td with fenceIn := b } } := by
  simp [execWarmReset, execWarmResetAssert, execFreezeTrigger, execClkStopRequest, execClkStopWithdraw, execFenceInChange, h]

/-- A command that is no pin's level and not COLD_RESET runs in a frame that does nothing while tvd_por_n is low. -/
theorem exec_low (c : Instr) (s : State) (h : s.aon.porN = false) (hp : pinCommand c = false)
    (hc : ∀ r a b env, c ≠ .coldReset r a b env) : exec c s = .next (quiet s) := by
  cases c
  case coldReset r a b env => exact absurd rfl (hc r a b env)
  case warmReset | warmResetAssert | clkStopRequest | clkStopWithdraw | fenceInChange | laneUpRise | laneUpFall =>
    exact absurd hp.symm Bool.false_ne_true
  case freezeTrigger bit on =>
    cases bit with
    | false => exact absurd hp.symm Bool.false_ne_true
    | true => exact execFreezeTrigger_low on s h
  case registerWrite off w who => exact execRegisterWrite_low off w who s h
  case bootImageCheck | firmwareStart | combinedRx | chordMissFill | streamContextMissFill | csTargetRequest | parkRelease |
    targetResponse | frameEgressSeal | retxRecordWriteDone | homeRequest | rspRx | eackRx | eackFlush | ackStreamGap |
    e2eTimerExpiry | streamGapSend | initiatorResponse | hotlineIdleWriteback | mdataRx | mdoneRx | counterCacheFill |
    pageReencryptDone | resealSweep | regionKeyMiss | orphanSweep | entropyHealthFail | hubLockstepMismatch |
    hubSelftestDone | heartbeatTimeout | mbxStreamPacket | bcpSpdm | keyPortAck | spdmKeyExchange | spdmEndSession | hybKem
    | hybSign | hybChain | hybSetChain | hybGetKey | spdmGetCsr | spdmSetCertificate | spdmGetMeasurements | domainJoin |
    ideKmQuery | ideKmKeyProg | ideKmKSetGo | ideKmKSetStop | tdispLockInterface | tdispStartInterface | tdispStopInterface
    | tdispGetInterfaceReport | tdispErrorEntry | pipelineRotation | adderRotation | memsealPipeRotation | creditTick |
    descriptorFetch | descriptorStart | completionRecord | wdCopyAsync | copyChunkSend | wdReduce | wdUpdate | wdPublish |
    wdInvalidate | wdFence | wdSignal | wdWait | waitPoll | waitTimeout | wdDumpMark | wdAbort | sharedSignalAbandon |
    reduceStartRx | reduceReadyRx | reduceBusyRx | reduceStartRetry | reduceAbortRx | reduceDataRx | chunkRun |
    reduceStageComplete | reduceIdleTimeout | fuseBind | fuseBindTimeout | updateTile | updateComplete | cadenceFlush |
    partitionDrainDone | migFreezeTimeout | dirtyPageLog | watchdogExpiry | rstL1 | rstL2 | portAutoReturn |
    sramUncorrectable | tandemSynced | mirrorHeartbeat | mirrorRecordRx | handoverRx | standbyMirrorSilence |
    standbyTakeoverGiveup | ownerMirrorSilence | takeover | compareMismatch | dumpFrameRx | hubBreakpoint | hubDrainDone |
    entropyStartupPass =>
    exact runEng_low _ s h
  case backgroundCommandDone | storeResponse | keyPortTimeout | enrolSessionTimeout | enrolSessionRetry | enrolledRx |
    commitRx | rekeyDistRx | distAckRx | switchRx | switchAckRx | drainedRx | retireRx | rekeyDrainDone | rekeyRetireTimeout
    | rekeyChildTimeout | rekeySwitchTimeout | chordAdvanceRx | chordRekeyWindowEnd | identityLineTimeout =>
    exact runEng_low _ s h
  case bcpGetInfo | bcpQuery | bcpDebugAuth | bcpKeyDerive | bcpKeyInvalidate | bcpKeyInfo | bcpDomainEnrol | bcpDomainRekey
    | bcpChordRekey | bcpRegionCreate | bcpRegionDestroy | bcpRegionRekey | bcpPgdWrite | bcpPgdRead | bcpPartitionCreate |
    bcpPartitionDestroy | bcpContextTeardown | bcpContextReset | bcpMigLogStart | bcpMigFreeze | bcpMigSave | bcpMigRestore
    | bcpPmuConfig | bcpDumpArm | bcpWatchSet | bcpRepairStatus | bcpSelftest | bcpFwStage | bcpTandemFailover =>
    exact runEng_low _ s h
  case laneStart | initSendTimer | initTimeout | flitRx | initRx | ackRx | nakRx | replayRx | nakBusyWaitEnd | ackTimer |
    hopReplayTimeout | frameRx | gapRx | bootFrameRx =>
    exact runEng_low _ s h
  case clkStopAck | clkStopQuiesceTimeout | scanEnable | clockFault | rstL3 | resetDeadlineMiss | resetLevelEnd |
    compareKatDone | coarsenTick | otpWriteDone | clockReturnInRange =>
    exact runAon_down _ s h
  case dpInvasiveWrite | dpScanAuthWrite | dpHubHalt | dpHubResume | dpRamDataAccess =>
    exact runAon_down _ s h
  case mbxInData | mbxClear | mbxOutDataRead | mbxDone | mbxGo =>
    exact runReg_low _ _ _ s h
  case cxCreate | cxLoad | cxUnload | cxDoorbell | cxQcfgWrite | cxOwnKidWrite | ptWinCommit | ptReset | almPop | almHalt |
    rstPortReturn | tdSyncStart | tsAdjGo | dbgRingEnable | lcTransitionGo | otpRead | otpProgram | lpUnfence | lpCtrlWrite
    | msWearSelWrite =>
    exact runWrite_low _ _ _ s h
  case rcCounterRead | loCaptureRead =>
    exact runRead_low _ _ s h

/-- Settles O7: every frame does nothing under tvd_por_n, and the pins' commands keep the level. -/
theorem porHoldsAll : Obligations.PorHoldsAll := by
  unfold Obligations.PorHoldsAll
  intro s h
  obtain ⟨hr, ha, hf, hq, hw, hi⟩ := pins_low s h
  exact ⟨fun c => exec_low c s h, hr, ha, hf, hq, hw, hi, fun port lane hl =>
    ⟨execLaneUpRise_low port lane s h hl, execLaneUpFall_low port lane s h hl⟩⟩

/-- Settles O8: settling, the mirror and the clamp each change nothing. -/
theorem finishCalm : Obligations.FinishCalm := by
  unfold Obligations.FinishCalm
  intro s t hc hs ht hp hr
  simp only [single, Bool.and_eq_true, Bool.not_eq_true'] at hs ht
  exact finish_calm s t hc ht.2 ht.1 hs.1 hp hr

end Sys2Proof.Machine
end

section
/-! SUPPORT. Sparse tables: their keys, and what a read finds after each operation. -/

namespace Sys2Proof.Machine

/- Proofs are elaborated in their order, for the reason given in the first section of this kind. -/
set_option deprecated.oldSectionVars true

variable {α : Type}

/-- A table is in order when its keys strictly rise. -/
theorem tsorted_iff (t : Tbl α) : tsorted t = true ↔ (t.map Prod.fst).Pairwise (· < ·) := by
  rw [← List.isChain_iff_pairwise]
  induction t with
  | nil => simp [tsorted]
  | cons p t ih =>
    cases t with
    | nil => simp [tsorted]
    | cons q t => simpa [tsorted] using fun _ => ih

theorem tsorted_cons (p : Nat × α) (t : Tbl α) :
    tsorted (p :: t) = true ↔ (∀ q ∈ t, p.1 < q.1) ∧ tsorted t = true := by
  simp [tsorted_iff]

theorem tsorted_filter (t : Tbl α) (p : Nat × α → Bool) (h : tsorted t = true) : tsorted (t.filter p) = true := by
  rw [tsorted_iff] at h ⊢
  exact h.sublist (List.filter_sublist.map _)

theorem tsorted_tset (t : Tbl α) (i : Nat) (v : α) (h : tsorted t = true) : tsorted (tset t i v) = true := by
  induction t with
  | nil => rfl
  | cons p t ih =>
    obtain ⟨k, w⟩ := p
    have hs := (tsorted_cons _ _).mp h
    simp only [tset]
    split
    next hi =>
      refine (tsorted_cons _ _).mpr ⟨fun q hq => ?_, h⟩
      rcases List.mem_cons.mp hq with rfl | hq
      · exact hi
      · exact hi.trans (hs.1 q hq)
    next hi =>
      split
      next he => exact (tsorted_cons _ _).mpr ⟨he ▸ hs.1, hs.2⟩
      next he =>
        refine (tsorted_cons _ _).mpr ⟨fun q hq => ?_, ih hs.2⟩
        rcases mem_tset t i v q hq with rfl | hq
        · show k < i
          omega
        · exact hs.1 q hq

/-- A key below all others of a table is not in it. -/
theorem tget_none_of_lt (t : Tbl α) (i : Nat) (h : ∀ q ∈ t, i < q.1) : tget t i = none := by
  induction t with
  | nil => rfl
  | cons q t ih =>
    have hq := h q (List.mem_cons_self ..)
    rw [tget, if_neg (by omega)]
    exact ih fun r hr => h r (List.mem_cons_of_mem _ hr)

theorem tget_tdel_other (t : Tbl α) (i j : Nat) (h : j ≠ i) : tget (tdel t i) j = tget t j := by
  induction t with
  | nil => rfl
  | cons p t ih =>
    obtain ⟨k, w⟩ := p
    unfold tdel at ih ⊢
    by_cases hk : k = i
    · subst hk
      simp [tget, h, ih]
    · simp [tget, hk, ih]

theorem tget_tmapV (t : Tbl α) (f : Nat → α → α) (i : Nat) : tget (tmapV t f) i = (tget t i).map (f i) := by
  induction t with
  | nil => rfl
  | cons p t ih =>
    obtain ⟨k, w⟩ := p
    unfold tmapV at ih ⊢
    by_cases hk : i = k
    · subst hk
      simp [tget]
    · simp [tget, hk, ih]

theorem tget_tkeep (t : Tbl α) (p : Nat → α → Bool) (i : Nat) (h : tsorted t = true) :
    tget (tkeep t p) i = (tget t i).filter (p i) := by
  induction t with
  | nil => rfl
  | cons q t ih =>
    obtain ⟨k, w⟩ := q
    obtain ⟨hl, hs⟩ := (tsorted_cons _ _).mp h
    have ih := ih hs
    unfold tkeep at ih ⊢
    by_cases hk : i = k
    · subst hk
      cases hp : p i w with
      | true => simp [tget, hp, Option.filter]
      | false =>
        have hn : tget t i = none := tget_none_of_lt t i hl
        simp [tget, hp, ih, hn, Option.filter]
    · cases hp : p k w with
      | true => simp [tget, hp, hk, ih]
      | false => simp [tget, hp, hk, ih]

/-- Writes of two keys commute. -/
theorem tset_comm (t : Tbl α) (i j : Nat) (v w : α) (h : i < j) : tset (tset t i v) j w = tset (tset t j w) i v := by
  induction t with
  | nil =>
    simp only [tset, h, if_true, if_neg (show ¬ j < i by omega), if_neg (show ¬ j = i by omega)]
  | cons p t ih =>
    obtain ⟨k, u⟩ := p
    rcases Nat.lt_trichotomy i k with hi | rfl | hi
    · rcases Nat.lt_trichotomy j k with hj | rfl | hj
      · simp [tset, hi, hj, h, show ¬ j < i by omega, show ¬ j = i by omega]
      · simp [tset, hi, show ¬ j < i by omega, show ¬ j = i by omega]
      · simp [tset, hi, show ¬ j < i by omega, show ¬ j = i by omega, show ¬ j < k by omega, show ¬ j = k by omega]
    · simp [tset, show ¬ j < i by omega, show ¬ j = i by omega]
    · simp [tset, show ¬ i < k by omega, show ¬ i = k by omega, show ¬ j < k by omega, show ¬ j = k by omega, ih]

/-- Settles O60: each operation by the keys it leaves, and each read by its equation. -/
theorem tablesSorted : Obligations.TablesSorted := by
  unfold Obligations.TablesSorted
  intro α t i j v f p h
  have hm : (tmapV t f).map Prod.fst = t.map Prod.fst := by simp [tmapV]
  exact ⟨tsorted_tset t i v h, tsorted_filter t _ h, by rw [tsorted_iff, hm, ← tsorted_iff]; exact h, tsorted_filter t _ h,
    tget_tset_same t i v, tget_tset_other t i j v, tget_tdel_same t i, tget_tdel_other t i j, tget_tmapV t f i,
    tget_tkeep t p i h, tset_comm t i j v v⟩

end Sys2Proof.Machine
end

section
/-! SUPPORT. The replay window: a GAP clears the ranges above it (06 R205). -/

namespace Sys2Proof.Machine

/- Proofs are elaborated in their order, for the reason given in the first section of this kind. -/
set_option deprecated.oldSectionVars true

/-- A window that has delivered the frame of sequence 5, and waits for those before it. -/
def windowAhead : Ingress := { low := 0, ranges := [(5, 1)], resident := true }

/-- The GAP of sequence 2 moves LOW past itself and clears the ranges. -/
theorem windowPut_gap_windowAhead : windowPut windowAhead 2 true = .ok { windowAhead with low := 3, ranges := [] } := rfl

theorem windowAhead_seen : seen windowAhead 5 := .inr rfl

theorem windowAhead_forgotten : ¬ seen { windowAhead with low := 3, ranges := [] } 5 := by
  rintro (h | h)
  · exact absurd h (by decide)
  · exact absurd h (by decide)

/-- Refutes O14: a GAP clears the ranges above its own sequence too, so the window forgets that it has delivered the frame of
sequence 5 as the GAP of sequence 2 passes. -/
theorem not_reception : ¬ Obligations.Reception := by
  unfold Obligations.Reception
  rintro ⟨hw, -⟩
  obtain ⟨-, -, -, -, hkept, -⟩ := hw windowAhead _ 2 true rfl windowPut_gap_windowAhead
  exact windowAhead_forgotten (hkept 5 windowAhead_seen)

end Sys2Proof.Machine
end

section
/-! SUPPORT. What an alarm can do: it is noted, or it halts the block (12 R385, R400). -/

namespace Sys2Proof.Machine

/- Proofs are elaborated in their order, for the reason given in the first section of this kind. -/
set_option deprecated.oldSectionVars true

/-- `t` is `s` but for its alarm queue, the times of SECURITY occurrences, counts, and the partitions charged. -/
def Noted (s t : State) : Prop :=
  ∃ c w al q g st e, t = { s with
    aon := { s.aon with cnt := c, alarms := al, seq := q, gapAlarm := g, secTimes := st }, win := w
    parts := { s.parts with errDue := e } }

theorem Noted.refl (s : State) : Noted s s := ⟨_, _, _, _, _, _, _, rfl⟩

theorem Noted.trans {s t u : State} (h : Noted s t) (g : Noted t u) : Noted s u := by
  obtain ⟨c, w, al, q, gg, st, e, rfl⟩ := h
  obtain ⟨c', w', al', q', gg', st', e', rfl⟩ := g
  exact ⟨c', w', al', q', gg', st', e', rfl⟩

theorem noted_placeRec (s : State) (r : AlarmRec) : Noted s (placeRec s r) := ⟨_, _, _, _, _, _, _, rfl⟩

theorem noted_foldRec (s : State) : Noted s (foldRec s) := ⟨_, _, _, _, _, _, _, rfl⟩

theorem noted_countAon (s : State) (j n : Nat) : Noted s (countAon s j n) := by
  unfold countAon
  split
  · exact Noted.refl s
  · dsimp only
    split <;> exact ⟨_, _, _, _, _, _, _, rfl⟩

/-- What `occur` counts before it records: the window, the counters and the partition charged. -/
def charged (s : State) (r : AlarmRec) (ch : Option Nat) : State :=
  let sec := r.cls == 0x01
  let s := if sec then { s with aon := { s.aon with secTimes := secWindow s ++ [s.aon.ts] } } else s
  let s := countAon s 6 1
  let s := if sec then countAon s 7 1 else s
  match ch with
  | some p => if sec then { s with parts := { s.parts with errDue := if s.parts.errDue.contains p then s.parts.errDue
      else s.parts.errDue ++ [p] } } else s
  | none => s

theorem noted_charged (s : State) (r : AlarmRec) (ch : Option Nat) : Noted s (charged s r ch) := by
  unfold charged
  cases r.cls == 0x01 with
  | false =>
    cases ch <;> exact noted_countAon s 6 1
  | true =>
    have h : Noted s (countAon (countAon { s with aon := { s.aon with secTimes := secWindow s ++ [s.aon.ts] } } 6 1) 7 1) :=
      (Noted.trans ⟨_, _, _, _, _, _, _, rfl⟩ (noted_countAon _ 6 1)).trans (noted_countAon _ 7 1)
    cases ch with
    | none => exact h
    | some p => exact h.trans ⟨_, _, _, _, _, _, _, rfl⟩

/-- Too many SECURITY occurrences within a second (12 R385). -/
def excess (s : State) (r : AlarmRec) : Bool := r.cls == 0x01 && decide ((reg s 0x5004).toNat % 256 < s.aon.secTimes.length)

theorem occur_eq (s : State) (r : AlarmRec) (ch : Option Nat) :
    occur s r ch = if (charged s r ch).aon.alarms.getLast?.any (foldsWith · r) then
        if excess (charged s r ch) r then haltBlock (foldRec (charged s r ch)) 1 else foldRec (charged s r ch)
      else if (charged s r ch).aon.alarms.length < 256 then
        if excess (charged s r ch) r then haltBlock (placeRec (charged s r ch) r) 1 else placeRec (charged s r ch) r
      else haltBlock (charged s r ch) 2 := by
  have e : occur s r ch = if (match (charged s r ch).aon.alarms.getLast? with | some l => foldsWith l r | none => false) then
        if excess (charged s r ch) r then haltBlock (foldRec (charged s r ch)) 1 else foldRec (charged s r ch)
      else if (charged s r ch).aon.alarms.length < 256 then
        if excess (charged s r ch) r then haltBlock (placeRec (charged s r ch) r) 1 else placeRec (charged s r ch) r
      else haltBlock (charged s r ch) 2 := rfl
  rw [e]
  cases (charged s r ch).aon.alarms.getLast? <;> rfl

/-- An alarm is noted, or halts the block. -/
theorem occur_cases (s : State) (r : AlarmRec) (ch : Option Nat) :
    Noted s (occur s r ch) ∨ ∃ v n, Noted s v ∧ occur s r ch = haltBlock v n := by
  have h := noted_charged s r ch
  rw [occur_eq]
  split
  · split
    · exact .inr ⟨_, _, h.trans (noted_foldRec _), rfl⟩
    · exact .inl (h.trans (noted_foldRec _))
  · split
    · split
      · exact .inr ⟨_, _, h.trans (noted_placeRec _ _), rfl⟩
      · exact .inl (h.trans (noted_placeRec _ _))
    · exact .inr ⟨_, _, h, rfl⟩

/-! A halt. -/

/-- `t` is `s` halted: the state that 12 R400 zeroes is gone; the rest stands. -/
def Halted (n : Nat) (s t : State) : Prop :=
  ∃ o ln tv lq al q g gr tx, t = { s with
    out := o, keys := KeyStore.reset, td := tv, dom := Domain.reset
    links := { s.links with
      lane := ln, chord := [], chordLru := [], saved := [], missC := [], egress := [], ingress := [], scLru := [], back := [], missS := [] }
    ladder := { s.ladder with queue := lq }
    aon := { s.aon with alarms := al, seq := q, gapAlarm := g, haltReq := true, haltCause := n, dataStopped := true }
    fab := { s.fab with hot := [], tracker := [], txq := tx }
    red := { s.red with stages := [] }
    mem := { Mem.reset with wear := [], next := s.mem.next }
    dbg := { s.dbg with grants := gr }
    parts := { s.parts with salts := [] } }

/-- Only the alarm queue changes. -/
def Queued (s t : State) : Prop := ∃ al q g, t = { s with aon := { s.aon with alarms := al, seq := q, gapAlarm := g } }

theorem Queued.refl (s : State) : Queued s s := ⟨_, _, _, rfl⟩

theorem Queued.trans {s t u : State} (h : Queued s t) (g : Queued t u) : Queued s u := by
  obtain ⟨al, q, gg, rfl⟩ := h
  obtain ⟨al', q', gg', rfl⟩ := g
  exact ⟨al', q', gg', rfl⟩

theorem queued_keepRec (s : State) (r : AlarmRec) : Queued s (keepRec s r) := by
  unfold keepRec
  split
  · exact ⟨_, _, _, rfl⟩
  · split
    · exact ⟨_, _, _, rfl⟩
    · exact Queued.refl s

theorem queued_foldl {α : Type} (l : List α) (f : State → α → State) (h : ∀ t x, Queued t (f t x)) (s : State) :
    Queued s (l.foldl f s) :=
  List.foldlRecOn (motive := fun t => Queued s t) l f (Queued.refl s) fun t ht x _ => ht.trans (h t x)

theorem endLevels_queued (s : State) :
    ∃ lq, Queued { s with ladder := { s.ladder with queue := lq } } (endLevels s) :=
  ⟨_, queued_foldl _ _ (fun t q => queued_keepRec t (levelRec q false)) _⟩

/-- The hand-over of the lanes changes the lanes and the pair. -/
theorem handOver_form (s : State) (c : Nat) : ∃ o ln tv, handOver s c = { s with out := o, links := { s.links with lane := ln }, td := tv } := by
  unfold handOver
  split
  · exact ⟨_, _, _, rfl⟩
  · exact ⟨_, _, _, rfl⟩

theorem haltBlock_again (s : State) (n : Nat) (h : s.aon.haltReq = true) : haltBlock s n = s := by simp only [haltBlock, h, if_true]

theorem haltBlock_halted (s : State) (n : Nat) (h : s.aon.haltReq = false) : Halted n s (haltBlock s n) := by
  unfold haltBlock
  rw [if_neg (by simp [h])]
  obtain ⟨o, ln, tv, ho⟩ := handOver_form s (haltHand n)
  dsimp only
  rw [ho]
  obtain ⟨lq, al, q, g, hl⟩ := endLevels_queued (clearChords (clearKeys (stopLanes { s with out := o, links := { s.links with lane := ln }, td := tv })))
  rw [hl]
  split <;> exact ⟨_, _, _, _, _, _, _, _, _, rfl⟩

/-- An alarm of a block that is not halted is noted, or halts it. -/
theorem occur_noted_or_halted (s : State) (r : AlarmRec) (ch : Option Nat) (h : s.aon.haltReq = false) :
    Noted s (occur s r ch) ∨ ∃ v n, Noted s v ∧ Halted n v (occur s r ch) := by
  rcases occur_cases s r ch with hn | ⟨v, n, hv, he⟩
  · exact .inl hn
  · refine .inr ⟨v, n, hv, he ▸ haltBlock_halted v n ?_⟩
    obtain ⟨c, w, al, q, g, st, e, rfl⟩ := hv
    exact h

/-- What no alarm changes. -/
structure Stands (s t : State) : Prop where
  pending : t.pending = s.pending
  fresh : t.fresh = s.fresh
  draws : t.draws = s.draws
  size : t.size = s.size
  tandemEn : t.tandemEn = s.tandemEn
  tandemId : t.tandemId = s.tandemId
  otp : t.otp = s.otp
  hub : t.hub = s.hub
  ident : t.ident = s.ident
  upd : t.upd = s.upd
  porN : t.aon.porN = s.aon.porN
  rstN : t.aon.rstN = s.aon.rstN
  stage : t.aon.stage = s.aon.stage
  ready : t.aon.ready = s.aon.ready
  testRoot : t.aon.testRoot = s.aon.testRoot
  scanEn : t.aon.scanEn = s.aon.scanEn
  clkPhase : t.aon.clkPhase = s.aon.clkPhase
  clkBad : t.aon.clkBad = s.aon.clkBad
  clkStopped : t.aon.clkStopped = s.aon.clkStopped
  field : t.ladder.field = s.ladder.field
  mapped : t.ladder.mapped = s.ladder.mapped
  halt : s.aon.haltReq = true → t.aon.haltReq = true
  keys : t.keys = s.keys ∨ t.keys = KeyStore.reset
  chord : t.links.chord = s.links.chord ∨ t.links.chord = []
  egress : t.links.egress = s.links.egress ∨ t.links.egress = []
  ingress : t.links.ingress = s.links.ingress ∨ t.links.ingress = []

theorem Noted.stands {s t : State} (h : Noted s t) : Stands s t := by
  obtain ⟨c, w, al, q, g, st, e, rfl⟩ := h
  exact ⟨rfl, rfl, rfl, rfl, rfl, rfl, rfl, rfl, rfl, rfl, rfl, rfl, rfl, rfl, rfl, rfl, rfl, rfl, rfl, rfl, rfl, id, .inl rfl, .inl rfl,
    .inl rfl, .inl rfl⟩

theorem Halted.stands {n : Nat} {s t : State} (h : Halted n s t) : Stands s t := by
  obtain ⟨o, ln, tv, lq, al, q, g, gr, tx, rfl⟩ := h
  exact ⟨rfl, rfl, rfl, rfl, rfl, rfl, rfl, rfl, rfl, rfl, rfl, rfl, rfl, rfl, rfl, rfl, rfl, rfl, rfl, rfl, rfl, fun _ => rfl, .inr rfl,
    .inr rfl, .inr rfl, .inr rfl⟩

theorem stands_haltBlock (s : State) (n : Nat) : Stands s (haltBlock s n) := by
  cases h : s.aon.haltReq with
  | true => rw [haltBlock_again s n h]; exact (Noted.refl s).stands
  | false => exact (haltBlock_halted s n h).stands

theorem same_or_trans {α : Type} {a b c z : α} (h : b = a ∨ b = z) (g : c = b ∨ c = z) : c = a ∨ c = z := by
  rcases g with rfl | rfl
  · exact h
  · exact .inr rfl

theorem Stands.trans {s t u : State} (h : Stands s t) (g : Stands t u) : Stands s u :=
  ⟨g.pending.trans h.pending, g.fresh.trans h.fresh, g.draws.trans h.draws, g.size.trans h.size, g.tandemEn.trans h.tandemEn,
    g.tandemId.trans h.tandemId, g.otp.trans h.otp, g.hub.trans h.hub, g.ident.trans h.ident, g.upd.trans h.upd, g.porN.trans h.porN,
    g.rstN.trans h.rstN, g.stage.trans h.stage, g.ready.trans h.ready, g.testRoot.trans h.testRoot, g.scanEn.trans h.scanEn,
    g.clkPhase.trans h.clkPhase, g.clkBad.trans h.clkBad, g.clkStopped.trans h.clkStopped, g.field.trans h.field,
    g.mapped.trans h.mapped, fun e => g.halt (h.halt e), same_or_trans h.keys g.keys, same_or_trans h.chord g.chord,
    same_or_trans h.egress g.egress, same_or_trans h.ingress g.ingress⟩

theorem stands_occur (s : State) (r : AlarmRec) (ch : Option Nat) : Stands s (occur s r ch) := by
  rcases occur_cases s r ch with hn | ⟨v, n, hv, he⟩
  · exact hn.stands
  · exact he ▸ hv.stands.trans (stands_haltBlock v n)

/-! Frames in which commands run, with the effect named. -/

theorem when_pos {c : Bool} {f : State → State} {s : State} (h : c = true) : when_ c f s = f s := by rw [when_, if_pos h]

theorem when_neg {c : Bool} {f : State → State} {s : State} (h : c = false) : when_ c f s = s := by rw [when_, if_neg (by simp [h])]

theorem runEng_run {f : State → State} {s u : State} (h : engUp s = true) (hu : f (quiet s) = u) : runEng f s = .next (finish s u) :=
  hu ▸ runEng_up f s h

theorem runAon_run {f : State → State} {s u : State} (h : s.aon.porN = true) (hu : f (quiet s) = u) :
    runAon f s = .next (finish s u) :=
  hu ▸ runAon_up f s h

theorem runEng_when {c : State → Bool} {f : State → State} {s : State} (h : engUp s = true) (hc : c (quiet s) = true) :
    runEng (fun s => when_ (c s) f s) s = .next (finish s (f (quiet s))) :=
  runEng_run h (when_pos hc)

theorem runEng_when_not {c : State → Bool} {f : State → State} {s : State} (h : engUp s = true) (hc : c (quiet s) = false) :
    runEng (fun s => when_ (c s) f s) s = .next (finish s (quiet s)) :=
  runEng_run h (when_neg hc)

theorem runAon_when {c : State → Bool} {f : State → State} {s : State} (h : s.aon.porN = true) (hc : c (quiet s) = true) :
    runAon (fun s => when_ (c s) f s) s = .next (finish s (f (quiet s))) :=
  runAon_run h (when_pos hc)

theorem runAon_when_not {c : State → Bool} {f : State → State} {s : State} (h : s.aon.porN = true) (hc : c (quiet s) = false) :
    runAon (fun s => when_ (c s) f s) s = .next (finish s (quiet s)) :=
  runAon_run h (when_neg hc)

end Sys2Proof.Machine
end

section
/-! SUPPORT. Resets of the whole block (02 R61 to R65; 04 R132; 14 R457). -/

namespace Sys2Proof.Machine

/- Proofs are elaborated in their order, for the reason given in the first section of this kind. -/
set_option deprecated.oldSectionVars true

/-! What the boot stages up to 0x4 change. -/

/-- `t` is `s` but for the ladder, the Hub's pair, what was presented, the held prefixes of the Seal MAC engine and counts. -/
def MapsOnly (s t : State) : Prop :=
  ∃ l a b o m c n w f, t = { s with
    ladder := l, hub := { s.hub with pairA := a, pairB := b }, out := o, keys := { s.keys with mac := m }
    aon := { s.aon with cnt := c }, dbg := { s.dbg with cnt := n }, win := w, fresh := f }

theorem absorb_counts (s : State) (k : Bytes) (n : Nat) : ∃ m, Counts { s with keys := { s.keys with mac := m } } (absorb s k n) :=
  ⟨_, countEv_counts _ _ _ _⟩

/-- Both maps in force, as boot stage 0x3 leaves them. -/
def setMaps (s : State) (fac field : List Word) : State :=
  let s := { s with ladder := { s.ladder with
    field := field.take fieldCap, fieldFull := decide (fieldCap ≤ field.length)
    mapped := partsOf (fac ++ field), factoryCount := (fac.filter (fun w => (wordPart w).isSome)).length } }
  let good := (List.range 3).filter (fun c => !isMapped s (.core c))
  { s with
    ladder := { s.ladder with repDigest := mapDigest s }
    hub := { s.hub with pairA := good.getD 0 0, pairB := good.getD 1 1 } }

theorem setMaps_eq (s : State) (fac field : List Word) : ∃ l a b,
    setMaps s fac field = { s with ladder := l, hub := { s.hub with pairA := a, pairB := b } } ∧ l.field = field.take fieldCap :=
  ⟨_, _, _, rfl, rfl⟩

theorem applyMaps_eq (s : State) (f : Flash) :
    applyMaps s f = setMaps (absorbZero (if storeReady s then askRecs s 0xC800 1280 else s)
      (9 + 4 * ((factoryWords s).length + (fieldRead s f).length))) (factoryWords s) (fieldRead s f) := rfl

theorem askRecs_ite (c : Bool) (s : State) (b n : Nat) : ∃ o, (if c then askRecs s b n else s) = { s with out := o } := by
  cases c
  · exact ⟨s.out, rfl⟩
  · exact ⟨_, rfl⟩

theorem applyMaps_mapsOnly (s : State) (f : Flash) :
    MapsOnly s (applyMaps s f) ∧ (applyMaps s f).ladder.field = (fieldRead s f).take fieldCap := by
  obtain ⟨o, ho⟩ := askRecs_ite (storeReady s) s 0xC800 1280
  rw [applyMaps_eq, ho]
  obtain ⟨m, c, n, w, fr, hc⟩ := absorb_counts { s with out := o } (List.replicate 32 0)
    (9 + 4 * ((factoryWords s).length + (fieldRead s f).length))
  obtain ⟨l, a, b, hm, hl⟩ := setMaps_eq (absorbZero { s with out := o } (9 + 4 * ((factoryWords s).length + (fieldRead s f).length)))
    (factoryWords s) (fieldRead s f)
  rw [hm, absorbZero, hc]
  exact ⟨⟨l, a, b, o, m, c, n, w, fr, rfl⟩, hl⟩

theorem lcScan_congr {s t : State} (h : t.otp.fuse = s.otp.fuse) : lcScan t = lcScan s := by
  have hw : fuseW t = fuseW s := by funext i; simp only [fuseW, h]
  unfold lcScan
  rw [hw]

theorem storeKey_congr {s t : State} (hk : t.keys.slots = s.keys.slots) (hr : t.aon.testRoot = s.aon.testRoot)
    (hf : t.otp.fuse = s.otp.fuse) (hl : t.otp.lc = s.otp.lc) : storeKey t = storeKey s := by
  have h1 : slotAt t 1 = slotAt s 1 := by simp only [slotAt, hk]
  have h2 : onTestRoot t = onTestRoot s := by simp only [onTestRoot, hr, hl]
  have h3 : rootBank t = rootBank s := by simp only [rootBank, hf]
  have h4 : rootBytes t = rootBytes s := by simp only [rootBytes, h2, h3, hf]
  simp only [storeKey, h1, h4]

theorem fieldRead_congr {s t : State} (hk : t.keys.slots = s.keys.slots) (hr : t.aon.testRoot = s.aon.testRoot)
    (hf : t.otp.fuse = s.otp.fuse) (hl : t.otp.lc = s.otp.lc) (f : Flash) : fieldRead t f = fieldRead s f := by
  have h1 : storeReady t = storeReady s := by simp only [storeReady, slotAt, hk, onTestRoot, hr, hl, rootBank, hf]
  unfold fieldRead
  rw [storeKey_congr hk hr hf hl, h1]

/-- With no pending transition boot reaches stage 0x4. -/
theorem runBoot_mapsOnly (s : State) (env : BootEnv) (h : (lcScan s).2 = none) :
    ∃ t, MapsOnly (toStage s 2) t ∧ runBoot s env = toStage t 4 ∧ t.ladder.field = (fieldRead s env.flash).take fieldCap := by
  have e : resumeLc (toStage s 2) env.failAt = (toStage s 2, true) := by
    unfold resumeLc
    rw [lcScan_congr (s := s) (t := toStage s 2) rfl, h]
  obtain ⟨hm, hf⟩ := applyMaps_mapsOnly (toStage s 2) env.flash
  refine ⟨_, hm, ?_, hf.trans ?_⟩
  · simp only [runBoot, e, Bool.not_true, Bool.false_eq_true, if_false]
  · rw [fieldRead_congr (s := s) (t := toStage s 2) rfl rfl rfl rfl]

/-! The fall of tvd_por_n. -/

theorem coldFall_aon (s : State) :
    (coldFall s).aon = { Aon.reset with rstN := s.aon.rstN, freezePin := s.aon.freezePin, clkReq := s.aon.clkReq } := by
  unfold coldFall
  cases s.otp.busy <;> simp [Aon.reset, freeN]

theorem coldFall_fuse (s : State) (h : s.otp.busy = none) : (coldFall s).otp.fuse = s.otp.fuse := by
  simp only [coldFall, h]

/-! The rise of tvd_por_n. -/

theorem haltClamp_frame (t : State) : (haltClamp t).tandemEn = t.tandemEn ∧ (haltClamp t).tandemId = t.tandemId ∧
    (haltClamp t).otp = t.otp ∧ (haltClamp t).ladder = t.ladder ∧ (haltClamp t).aon.porN = t.aon.porN ∧
    (haltClamp t).aon.stage = t.aon.stage := by
  unfold haltClamp
  split <;> exact ⟨rfl, rfl, rfl, rfl, rfl, rfl⟩

/-- The straps and the life-cycle state at the rise, before boot runs. -/
def risen (s : State) (a b : Bool) : State :=
  { s with
    out := [], tandemEn := a && s.size == Size.tvd64, tandemId := b && a && s.size == Size.tvd64
    aon := { s.aon with porN := true, frozen := s.aon.freezePin, stage := 1 }, otp := { s.otp with lc := (lcScan s).1 } }

theorem coldRise_eq (s : State) (a b : Bool) (env : BootEnv) :
    coldRise s a b env = if s.aon.rstN then runBoot (risen s a b) env else risen s a b := by
  unfold coldRise risen
  rw [← lcScan_congr (s := s)]
  rfl

theorem burn_cons (s : State) (i : Nat) (w : Word) (l : List (Nat × Word)) (n : Option Nat) (h : n ≠ some 0) :
    burn s ((i, w) :: l) n = burn (blow s i w) l (n.map (· - 1)) := by
  cases n with
  | none => rfl
  | some k =>
    cases k with
    | zero => exact absurd rfl h
    | succ k => rfl

/-- Word writes change the fuses, and draw a free value where one fails. -/
theorem burn_keeps (l : List (Nat × Word)) (s : State) (n : Option Nat) :
    ∃ f o, (burn s l n).1 = { s with fresh := f, otp := { s.otp with fuse := o } } := by
  induction l generalizing s n with
  | nil => exact ⟨_, _, rfl⟩
  | cons x l ih =>
    obtain ⟨i, w⟩ := x
    by_cases h : n = some 0
    · subst h
      obtain ⟨o, ho⟩ := blow_eq (freeN s).2 i (toW (freeN s).1 &&& w)
      exact ⟨_, o, ho⟩
    · obtain ⟨o, ho⟩ := blow_eq s i w
      obtain ⟨f, o', hf⟩ := ih (blow s i w) (n.map (· - 1))
      rw [burn_cons s i w l n h, hf, ho]
      exact ⟨f, o', rfl⟩

/-- What boot keeps of the straps and of tvd_por_n. -/
def Strapped (s t : State) : Prop := t.aon.porN = s.aon.porN ∧ t.tandemEn = s.tandemEn ∧ t.tandemId = s.tandemId

theorem resumeLc_strapped (s : State) (n : Option Nat) : Strapped s (resumeLc s n).1 := by
  unfold resumeLc
  split
  · exact ⟨rfl, rfl, rfl⟩
  · rename_i p t i _
    obtain ⟨f, o, h⟩ := burn_keeps (lcWrites p t i) s n
    dsimp only
    rw [h]
    split <;> exact ⟨rfl, rfl, rfl⟩

theorem runBoot_strapped (s : State) (env : BootEnv) : Strapped s (runBoot s env) := by
  obtain ⟨h1, h2, h3⟩ := resumeLc_strapped (toStage s 2) env.failAt
  unfold runBoot
  dsimp only
  split
  · have g := stands_occur (toStage (resumeLc (toStage s 2) env.failAt).1 15) (mkRec 0x06 0xFF 0 0 0 0 0 0 0 0) none
    exact ⟨g.porN.trans h1, g.tandemEn.trans h2, g.tandemId.trans h3⟩
  · obtain ⟨⟨l, a, b, o, m, c, n, w, f, h⟩, -⟩ := applyMaps_mapsOnly (resumeLc (toStage s 2) env.failAt).1 env.flash
    rw [h]
    exact ⟨h1, h2, h3⟩

theorem coldRise_strapped (s : State) (a b : Bool) (env : BootEnv) : (coldRise s a b env).aon.porN = true ∧
    (coldRise s a b env).tandemEn = (a && s.size == Size.tvd64) ∧ (coldRise s a b env).tandemId = (b && (a && s.size == Size.tvd64)) := by
  rw [coldRise_eq]
  split
  · obtain ⟨h1, h2, h3⟩ := runBoot_strapped (risen s a b) env
    exact ⟨h1, h2, h3.trans (Bool.and_assoc _ _ _)⟩
  · exact ⟨rfl, rfl, Bool.and_assoc _ _ _⟩

theorem coldReset_rise (s : State) (a b : Bool) (env : BootEnv) (h : s.aon.porN = false) :
    ∃ t, exec (.coldReset true a b env) s = .next t ∧ t.aon.porN = true ∧
      t.tandemEn = (a && s.size == Size.tvd64) ∧ t.tandemId = (b && t.tandemEn) ∧
      (s.aon.rstN = false → t.aon.stage = 1 ∧ t.otp.lc = (lcScan s).1) ∧
      (s.aon.rstN = true → (lcScan s).2 = none → t.aon.stage = 4 ∧ t.otp.lc = (lcScan s).1 ∧
        t.ladder.field = (fieldRead { s with otp := { s.otp with lc := (lcScan s).1 } } env.flash).take fieldCap) := by
  refine ⟨haltClamp (latch s (coldRise s a b env)), ?_, ?_⟩
  · show execColdReset true a b env s = _
    simp only [execColdReset, h, Bool.not_true, Bool.false_eq_true, if_false]
  obtain ⟨f1, f2, f3, f4, f5, f6⟩ := haltClamp_frame (latch s (coldRise s a b env))
  rw [f1, f2, f3, f4, f5, f6]
  obtain ⟨g1, g2, g3⟩ := coldRise_strapped s a b env
  refine ⟨g1, g2, g3.trans (g2 ▸ rfl), fun hr => ?_, fun hr hl => ?_⟩
  · have e : coldRise s a b env = risen s a b := by rw [coldRise_eq, if_neg (by simp [hr])]
    rw [e]
    exact ⟨rfl, rfl⟩
  · have e : coldRise s a b env = runBoot (risen s a b) env := by rw [coldRise_eq, if_pos hr]
    obtain ⟨t, ⟨l, x, y, o, m, c, n, w, f, ht⟩, hb, hf⟩ := runBoot_mapsOnly (risen s a b) env ((congrArg Prod.snd (lcScan_congr (s := s) (t := risen s a b) rfl)).trans hl)
    rw [e, hb]
    refine ⟨rfl, by rw [ht]; rfl, hf.trans ?_⟩
    rw [fieldRead_congr (s := { s with otp := { s.otp with lc := (lcScan s).1 } }) (t := risen s a b) rfl rfl rfl rfl]

/-! A warm reset. -/

theorem warmClear_calm (s : State) (b : Bool) : calm (warmClear s b) = true := rfl

theorem warmClear_mirrors (s : State) (b : Bool) : mirrors (warmClear s b) = false := by
  simp [mirrors, warmClear, Tandem.reset]

/-- What follows where nothing waits and no standby listens: nothing but the latches and the clamp of a halted block. -/
theorem finish_still (s t : State) (hc : calm t = true) (hm : mirrors t = false) : finish s t = haltClamp (latch s t) := by
  rw [finish, settle_calm t hc, mirrorSetup_single s t hm]

/-- A clamp leaves what a reset has already emptied. -/
theorem haltClamp_cleared (t : State) (hk : t.keys.slots = []) (hd : t.dom = Domain.reset) (hr : t.aon.ready = false) :
    (haltClamp t).keys.slots = [] ∧ (haltClamp t).dom = Domain.reset ∧ (haltClamp t).aon.ready = false ∧
    (haltClamp t).aon.rstN = t.aon.rstN ∧ (haltClamp t).aon.alarms = t.aon.alarms := by
  unfold haltClamp
  split
  · exact ⟨rfl, rfl, rfl, rfl, rfl⟩
  · exact ⟨hk, hd, hr, rfl, rfl⟩

theorem warmReset_assert (s : State) (h : s.aon.porN = true) :
    ∃ t, exec .warmResetAssert s = .next t ∧ t.aon.rstN = false ∧ t.aon.stage = 0 ∧ t.aon.ready = false ∧
      t.keys = KeyStore.reset ∧ t.dom = Domain.reset ∧ t.parts.part = [] ∧ t.parts.ctx = [] ∧ t.fab.tags = [] ∧
      t.mem.region = [] ∧ t.links.chord = [] ∧ t.hub.mbox = [] ∧ t.otp.fuse = s.otp.fuse ∧ t.otp.lc = s.otp.lc ∧
      t.aon.alarms = s.aon.alarms ∧ t.aon.ts = s.aon.ts ∧ t.aon.haltReq = s.aon.haltReq ∧ t.aon.testRoot = s.aon.testRoot := by
  refine ⟨haltClamp (latch s (warmClear (quiet s) false)), ?_, ?_⟩
  · show execWarmResetAssert s = _
    rw [execWarmResetAssert, if_pos h, runAon_up _ _ h, present, finish_still _ _ (warmClear_calm _ _) (warmClear_mirrors _ _)]
  · have e1 : (latch s (warmClear (quiet s) false)).aon.haltReq = s.aon.haltReq := Bool.or_self _
    have e2 : (latch s (warmClear (quiet s) false)).aon.testRoot = s.aon.testRoot := Bool.or_self _
    unfold haltClamp
    split <;> exact ⟨rfl, rfl, rfl, rfl, rfl, rfl, rfl, rfl, rfl, rfl, rfl, rfl, rfl, rfl, rfl, e1, e2⟩

theorem warmReset_release (s : State) (env : BootEnv) (h : s.aon.porN = true) (hr : s.aon.rstN = false) (hl : (lcScan s).2 = none) :
    ∃ t, exec (.warmReset env) s = .next t ∧
      t.aon.rstN = true ∧ t.aon.stage = 4 ∧ t.aon.ready = false ∧ t.keys.slots = [] ∧ t.dom = Domain.reset ∧
      t.otp.fuse = s.otp.fuse ∧ t.aon.alarms = s.aon.alarms ∧
      t.ladder.field = (fieldRead { s with keys := KeyStore.reset } env.flash).take fieldCap := by
  obtain ⟨t, ⟨l, x, y, o, m, c, n, w, f, ht⟩, hb, hf⟩ := runBoot_mapsOnly (warmClear (quiet s) true) env
    ((congrArg Prod.snd (lcScan_congr (s := s) (t := warmClear (quiet s) true) rfl)).trans hl)
  have hc : calm (toStage t 4) = true := by rw [ht]; rfl
  have hm : mirrors (toStage t 4) = false := by rw [ht]; exact warmClear_mirrors (quiet s) true
  refine ⟨haltClamp (latch s (toStage t 4)), ?_, ?_⟩
  · show execWarmReset env s = _
    rw [execWarmReset, if_pos h, runAon_up _ _ h, present, if_neg (by simp [hr])]
    dsimp only
    rw [hb, finish_still _ _ hc hm]
  · obtain ⟨f1, f2, f3, f4, f5, f6⟩ := haltClamp_frame (latch s (toStage t 4))
    obtain ⟨g1, g2, g3, g4, g5⟩ := haltClamp_cleared (latch s (toStage t 4)) (by rw [ht]; rfl) (by rw [ht]; rfl) (by rw [ht]; rfl)
    rw [f3, f4, f6, g1, g2, g3, g4, g5]
    refine ⟨by rw [ht]; rfl, rfl, rfl, rfl, rfl, by rw [ht]; rfl, by rw [ht]; rfl, hf.trans ?_⟩
    rw [fieldRead_congr (s := { s with keys := KeyStore.reset }) (t := warmClear (quiet s) true) rfl rfl rfl rfl]

/-- Settles O9: each reset leaves the reset value of what it clears; the boot stages move the ladder's maps and the Hub's pair alone. -/
theorem resets : Obligations.Resets := by
  unfold Obligations.Resets
  refine ⟨fun s a b env => ⟨⟨coldFall s, rfl, coldFall_aon s, rfl, rfl, rfl, rfl, rfl, rfl, rfl, rfl, rfl, rfl, coldFall_fuse s⟩,
    fun h => ?_, coldReset_rise s a b env⟩, fun s h => ⟨warmReset_assert s h, fun env => warmReset_release s env h, fun env hr => ?_⟩⟩
  · show execColdReset true a b env s = _
    simp only [execColdReset, h, Bool.not_true, Bool.false_eq_true, if_false, if_true]
  · show execWarmReset env s = _
    rw [execWarmReset, if_pos h, runAon_up _ _ h, present, if_pos (by simp [hr])]

end Sys2Proof.Machine
end

section
/-! SUPPORT. The boot image and the start of the firmware (03 R74 to R77; 04 R110; 05 R157; 15 R462). -/

namespace Sys2Proof.Machine

/- Proofs are elaborated in their order, for the reason given in the first section of this kind. -/
set_option deprecated.oldSectionVars true

/-! A failed boot. -/

theorem bootFail_stage (s : State) : (bootFail s).aon.stage = 15 := (stands_occur (toStage s 15) _ none).stage

theorem bootFail_hub (s : State) : (bootFail s).hub = s.hub := (stands_occur (toStage s 15) _ none).hub

/-! The image. -/

/-- The state once the image is asked for. -/
def imageAsked (s : State) (f : Flash) : State :=
  askImage { s with hub := { s.hub with ptr := pickPtr s f } } f (pickPtr s f)

/-- The image that the pointer, or the factory form, directs to. -/
def imageRead (s : State) (f : Flash) : Option Bytes :=
  if (pickPtr s f).isNone && !factoryOk s.otp.lc then none else readImage s f (pickPtr s f)

/-- The image takes its place. -/
def imageTaken (s : State) (p : Option (Nat × Nat)) (raw : Bytes) : State :=
  toStage { s with hub := { s.hub with
    svn := (imageOf raw).svn, digest := (imageOf raw).bodyDigest, slot := (p.map (·.1)).getD 0, factory := p.isNone
    image := if p.isNone then raw else [] } } 5

theorem checkImage_none (s : State) (f : Flash) (v : FwVerdict) (h : imageRead s f = none) :
    checkImage s f v = bootFail (imageAsked s f) := by
  unfold imageRead at h
  unfold checkImage imageAsked
  dsimp only
  rw [h]

theorem checkImage_some (s : State) (f : Flash) (v : FwVerdict) (raw : Bytes) (h : imageRead s f = some raw) :
    checkImage s f v =
      if !imageOk (absorbZero (imageAsked s f) (9 + (imageOf raw).body.length)) (imageOf raw) v then
        bootFail (absorbZero (imageAsked s f) (9 + (imageOf raw).body.length))
      else imageTaken (absorbZero (imageAsked s f) (9 + (imageOf raw).body.length)) (pickPtr s f) raw := by
  unfold imageRead at h
  unfold checkImage imageAsked imageTaken
  dsimp only
  rw [h]

theorem imageOk_congr {s t : State} (h : t.otp.fuse = s.otp.fuse) (i : FwImage) (v : FwVerdict) : imageOk t i v = imageOk s i v := by
  have hm : minSvn t = minSvn s := by simp only [minSvn, fuseW, h]
  unfold imageOk
  rw [hm]

/-- Asking and measuring change the pointer, what was presented, the held prefixes and counts. -/
theorem absorbZero_imageAsked (s : State) (f : Flash) (n : Nat) : ∃ o m c d w fr, absorbZero (imageAsked s f) n = { s with
    hub := { s.hub with ptr := pickPtr s f }, out := o, keys := { s.keys with mac := m }, aon := { s.aon with cnt := c }
    dbg := { s.dbg with cnt := d }, win := w, fresh := fr } := by
  obtain ⟨m, c, d, w, fr, h⟩ := absorb_counts (imageAsked s f) (List.replicate 32 0) n
  exact ⟨_, m, c, d, w, fr, h⟩

theorem checkImage_ptr (s : State) (f : Flash) (v : FwVerdict) : (checkImage s f v).hub.ptr = pickPtr s f := by
  cases h : imageRead s f with
  | none => rw [checkImage_none s f v h, bootFail_hub]; rfl
  | some raw =>
    rw [checkImage_some s f v raw h]
    obtain ⟨o, m, c, d, w, fr, e⟩ := absorbZero_imageAsked s f (9 + (imageOf raw).body.length)
    rw [e]
    split
    · rw [bootFail_hub]
    · rfl

theorem checkImage_passes (s : State) (f : Flash) (v : FwVerdict) (raw : Bytes) (hr : readImage s f (pickPtr s f) = some raw)
    (hf : ((pickPtr s f).isSome || factoryOk s.otp.lc) = true) (hv : imageOk s (imageOf raw) v = true) :
    ∃ o m c d w fr, checkImage s f v = imageTaken { s with
      hub := { s.hub with ptr := pickPtr s f }, out := o, keys := { s.keys with mac := m }, aon := { s.aon with cnt := c }
      dbg := { s.dbg with cnt := d }, win := w, fresh := fr } (pickPtr s f) raw := by
  have h : imageRead s f = some raw := by
    rw [imageRead, hr, if_neg]
    cases hp : pickPtr s f <;> simp_all
  obtain ⟨o, m, c, d, w, fr, e⟩ := absorbZero_imageAsked s f (9 + (imageOf raw).body.length)
  have hk := imageOk_congr (s := s) (congrArg (·.otp.fuse) e) (imageOf raw) v
  refine ⟨o, m, c, d, w, fr, ?_⟩
  rw [checkImage_some s f v raw h, hk, hv, e]
  rfl

theorem checkImage_fails (s : State) (f : Flash) (v : FwVerdict)
    (h : readImage s f (pickPtr s f) = none ∨ ((pickPtr s f).isSome || factoryOk s.otp.lc) = false ∨
      ∃ raw, readImage s f (pickPtr s f) = some raw ∧ imageOk s (imageOf raw) v = false) : (checkImage s f v).aon.stage = 15 := by
  cases hi : imageRead s f with
  | none => rw [checkImage_none s f v hi, bootFail_stage]
  | some raw =>
    have hr : readImage s f (pickPtr s f) = some raw ∧ ((pickPtr s f).isSome || factoryOk s.otp.lc) = true := by
      unfold imageRead at hi
      split at hi
      · cases hi
      · cases hp : pickPtr s f <;> simp_all
    obtain ⟨o, m, c, d, w, fr, e⟩ := absorbZero_imageAsked s f (9 + (imageOf raw).body.length)
    have hk := imageOk_congr (s := s) (congrArg (·.otp.fuse) e) (imageOf raw) v
    rw [checkImage_some s f v raw hi, hk]
    rcases h with h | h | ⟨raw', h, hv⟩
    · rw [hr.1] at h; cases h
    · rw [hr.2] at h; cases h
    · obtain rfl : raw = raw' := by rw [hr.1] at h; exact Option.some.inj h
      rw [hv]
      exact bootFail_stage _

/-! The start of the firmware. -/

theorem stopIde_keeps (s : State) : (stopIde s).ident.ide = [] ∧ (stopIde s).hub = s.hub :=
  List.foldlRecOn (motive := fun t : State => t.ident.ide = [] ∧ t.hub = s.hub) s.ident.ide _ ⟨rfl, rfl⟩ fun _ h _ _ => h

theorem bootReady_keeps (s : State) : (bootReady s).aon.stage = 6 ∧ (bootReady s).aon.ready = !(bootReady s).aon.dataStopped ∧
    (bootReady s).ident.ide = [] ∧ (bootReady s).hub = s.hub := by
  obtain ⟨h1, h2⟩ := stopIde_keeps s
  unfold bootReady
  dsimp only
  split <;> exact ⟨rfl, rfl, h1, h2⟩

theorem resealFactory_image (s : State) : (resealFactory s).hub.image = [] := by
  unfold resealFactory
  split <;> rfl

theorem startFirmware_starts (s : State) (env : StartEnv) (h : (selectRoot s env).2 = true) :
    (startFirmware s env).aon.stage = 6 ∧ (startFirmware s env).aon.ready = (!(startFirmware s env).aon.dataStopped) ∧
    (startFirmware s env).ident.ide = [] ∧ (startFirmware s env).hub.image = [] := by
  unfold startFirmware
  rw [if_neg (by simp [h])]
  obtain ⟨h1, h2, h3, h4⟩ := bootReady_keeps (resealFactory (raiseSvn (startIdentity (deviceId (rebuildLattice (selectRoot s env).1) env) env)
    (startIdentity (deviceId (rebuildLattice (selectRoot s env).1) env) env).hub.svn))
  exact ⟨h1, h2, h3, h4 ▸ resealFactory_image _⟩

theorem startFirmware_fails (s : State) (env : StartEnv) (h : (selectRoot s env).2 = false) : (startFirmware s env).aon.stage = 15 := by
  unfold startFirmware
  rw [if_pos (by simp [h])]
  exact bootFail_stage _

theorem pickPtr_quiet (s : State) (f : Flash) : pickPtr (quiet s) f = pickPtr s f := rfl

theorem readImage_quiet (s : State) (f : Flash) (p : Option (Nat × Nat)) : readImage (quiet s) f p = readImage s f p := by
  unfold readImage
  rw [storeKey_congr (s := s) (t := quiet s) rfl rfl rfl rfl]

theorem bootImageCheck_runs (s : State) (a b : Bytes) (img : Flash) (v : FwVerdict) (he : engUp s = true) (hs : s.aon.stage = 4)
    (hf : fwRuns s.otp.lc = true) :
    exec (.bootImageCheck a b img v) s = .next (finish s (checkImage (quiet s) ((0, a) :: (1, b) :: img) v)) :=
  runEng_run he (when_pos (by simp [hs, hf]))

theorem bootImageCheck_not (s : State) (a b : Bytes) (img : Flash) (v : FwVerdict) (he : engUp s = true)
    (h : s.aon.stage ≠ 4 ∨ fwRuns s.otp.lc = false) : exec (.bootImageCheck a b img v) s = .next (finish s (quiet s)) :=
  runEng_run he (when_neg (by rcases h with h | h <;> simp [h]))

theorem firmwareStart_runs (s : State) (env : StartEnv) (he : engUp s = true) (hs : s.aon.stage = 5) :
    exec (.firmwareStart env) s = .next (finish s (startFirmware (quiet s) env)) :=
  runEng_run he (when_pos (by simp [hs]))

/-- Settles O10: the image's checks and the root's choice, branch by branch. -/
theorem boot : Obligations.Boot := by
  unfold Obligations.Boot
  refine ⟨fun s a b img v he => ⟨fun hs hf => ?_, bootImageCheck_not s a b img v he⟩, fun s env he =>
    ⟨fun hs hr => ⟨_, firmwareStart_runs s env he hs, startFirmware_starts _ _ hr⟩,
      fun hs hr => ⟨_, firmwareStart_runs s env he hs, startFirmware_fails _ _ hr⟩,
      fun hs => runEng_run he (when_neg (by simp [hs]))⟩⟩
  refine ⟨_, bootImageCheck_runs s a b img v he hs hf, checkImage_ptr _ _ _, fun raw h1 h2 h3 => ?_,
    fun h => checkImage_fails (quiet s) _ v (by rw [pickPtr_quiet, readImage_quiet]; exact h)⟩
  obtain ⟨o, m, c, d, w, fr, e⟩ := checkImage_passes (quiet s) _ v raw (by rw [pickPtr_quiet, readImage_quiet]; exact h1) h2 h3
  rw [e, pickPtr_quiet]
  exact ⟨rfl, rfl, rfl, rfl, rfl, rfl, rfl, rfl, rfl, rfl, rfl⟩

end Sys2Proof.Machine
end

section
/-! SUPPORT. The clock-stop handshake and clock faults (02 R57, R66, R67; 12 R388; 13 R432). -/

namespace Sys2Proof.Machine

/- Proofs are elaborated in their order, for the reason given in the first section of this kind. -/
set_option deprecated.oldSectionVars true

/-! The handshake. -/

theorem quiesceLanes_lanes (s : State) :
    ∀ p ∈ (quiesceLanes s).links.lane, p.2.started = false ∧ p.2.inService = false ∧ p.2.replay = [] := by
  intro p hp
  obtain ⟨q, -, rfl⟩ := List.mem_map.mp hp
  exact ⟨rfl, rfl, rfl⟩

theorem clkStopRequest_quiesces (s : State) (h : s.aon.porN = true) (hc : s.aon.clkReq = false) (hp : s.aon.clkPhase = .idle)
    (hh : s.aon.haltReq = false) : exec .clkStopRequest s =
      .next (finish s (quiesceLanes (setPhase { quiet s with aon := { s.aon with clkReq := true } } .quiesce))) := by
  show execClkStopRequest s = _
  rw [execClkStopRequest, if_pos h]
  exact runAon_run h (if_pos (by simp [hc, hp, hh]))

theorem clkStopAck_grants (s : State) (h : s.aon.porN = true) (hp : s.aon.clkPhase = .quiesce) (hm : s.fab.pm = []) (hi : s.fab.inbox = [])
    (hh : s.aon.haltReq = false) : exec .clkStopAck s =
      .next (finish s { quiet s with aon := { s.aon with clkPhase := .acked, stopStart := s.aon.ts } }) :=
  runAon_run h (when_pos (by simp [hp, hm, hi, hh]))

theorem clkStopAck_waits (s : State) (h : s.aon.porN = true) (hw : s.aon.clkPhase ≠ .quiesce ∨ s.fab.pm ≠ [] ∨ s.fab.inbox ≠ []) :
    exec .clkStopAck s = .next (finish s (quiet s)) :=
  runAon_run h (when_neg (by rcases hw with hw | hw | hw <;> simp [hw]))

theorem clkStopWithdraw_runs (s u : State) (h : s.aon.porN = true) (hu : (if s.aon.clkPhase == .acked then
      { setPhase { quiet s with aon := { s.aon with clkReq := false } } .idle with aon := { s.aon with
        clkReq := false, clkPhase := .idle, stopLen := s.aon.ts - s.aon.stopStart, stopCount := (s.aon.stopCount + 1) % 2 ^ 32
        clkStopped := [], gapAlarm := true, gapDump := true, gapWatch := true } }
    else setPhase { quiet s with aon := { s.aon with clkReq := false } } .idle) = u) :
    exec .clkStopWithdraw s = .next (finish s u) := by
  show execClkStopWithdraw s = _
  rw [execClkStopWithdraw, if_pos h]
  exact runAon_run h hu

theorem clkStopQuiesceTimeout_fails (s : State) (h : s.aon.porN = true) (hp : s.aon.clkPhase = .quiesce) :
    ∃ u, exec .clkStopQuiesceTimeout s = .next (finish s u) ∧ u.aon.clkPhase = .failed ∧
      (s.aon.alarms.length < 256 → u.aon.haltReq = s.aon.haltReq ∧ u.keys = s.keys ∧ u.links = s.links ∧
        ∃ r, u.aon.alarms.getLast? = some r ∧ r.cls = 0x16 ∧ r.unit = 0x1E) := by
  refine ⟨_, runAon_run h (when_pos (by simp [hp])), (stands_occur _ _ _).clkPhase, fun hl => ?_⟩
  obtain ⟨c, w, al, q, g, e, x, hx, h1, h2, -⟩ := occur_room (setBits (setPhase (quiet s) .failed) 0x5000 0x10000#32)
    (mkRec 0x16 0x1E 0 0 0 0 0 0 0 0) none (by decide) hl
  rw [e]
  exact ⟨rfl, rfl, rfl, x, hx, h1, h2⟩

/-! Faults. -/

/-- The port a clock fault is recorded for. -/
def faultPort : Clk → Nat
  | .lane n => n
  | _ => 0

/-- What a clock fault costs, once it is recorded. -/
def faultCost (s : State) (f : ClkFault) (c : Clk) : State :=
  if f == .above then haltBlock s 5
  else match c with
    | .mir => dropPartner s
    | .lane n => if portOk s n && (!portIsolated s n || s.ladder.isoAuto.contains n) then askReset s 2 0xFF n 0x04 false else s
    | _ => if s.aon.clkBad.contains c then s else { s with aon := { s.aon with clkBad := s.aon.clkBad ++ [c] } }

/-- A clock fault that is one: no stop that was granted, nor that of an isolated port. -/
theorem clockFault_counts (s : State) (c : Clk) (f : ClkFault) (h1 : f = .stopped → s.aon.clkPhase ≠ .acked)
    (h2 : c ≠ .mir ∨ s.tandemEn = true) (h3 : f = .stopped → mayStop s c = false) :
    clockFault s c f = faultCost (noteStopped (clockAlarm s (faultPort c)) c f) f c := by
  have hn : ¬((f == .stopped && s.aon.clkPhase == .acked) || (c == .mir && !s.tandemEn)) = true := by
    intro h
    simp only [Bool.or_eq_true, Bool.and_eq_true, beq_iff_eq, Bool.not_eq_true'] at h
    rcases h with ⟨hf, hp⟩ | ⟨hc, ht⟩
    · exact h1 hf hp
    · rcases h2 with h2 | h2
      · exact h2 hc
      · rw [h2] at ht; cases ht
  have hi : ¬(f == .stopped && mayStop s c) = true := by
    intro h
    simp only [Bool.and_eq_true, beq_iff_eq] at h
    simp [h3 h.1] at h
  unfold clockFault faultCost
  rw [if_neg hn, if_neg hi]
  cases c <;> rfl

/-- A clock alarm while the queue has room: it is recorded. -/
theorem clockAlarm_room (s : State) (port : Nat) (hl : s.aon.alarms.length < 256) : ∃ c w al q g,
    clockAlarm s port = { s with aon := { s.aon with cnt := c, alarms := al, seq := q, gapAlarm := g }, win := w } := by
  obtain ⟨c, w, al, q, g, e, -⟩ := occur_room s (mkRec 0x04 0x1E port 0 0 0 0 0 0 0) none (fun h => nomatch h) hl
  exact ⟨c, w, al, q, g, e⟩

theorem noteStopped_form (s : State) (c : Clk) (f : ClkFault) : ∃ l, noteStopped s c f = { s with aon := { s.aon with clkStopped := l } } := by
  unfold noteStopped
  split
  · exact ⟨_, rfl⟩
  · exact ⟨s.aon.clkStopped, rfl⟩

/-- The record and the note of a stop, while the queue has room. -/
theorem noted_clockFault (s : State) (port : Nat) (c : Clk) (f : ClkFault) (hl : s.aon.alarms.length < 256) : ∃ l d w al q g,
    noteStopped (clockAlarm s port) c f =
      { s with aon := { s.aon with cnt := d, alarms := al, seq := q, gapAlarm := g, clkStopped := l }, win := w } := by
  obtain ⟨d, w, al, q, g, e⟩ := clockAlarm_room s port hl
  obtain ⟨l, e'⟩ := noteStopped_form (clockAlarm s port) c f
  rw [e', e]
  exact ⟨l, d, w, al, q, g, rfl⟩

theorem haltBlock_haltReq (s : State) (n : Nat) : (haltBlock s n).aon.haltReq = true := by
  cases h : s.aon.haltReq with
  | true => rw [haltBlock_again s n h]; exact h
  | false => obtain ⟨o, ln, tv, lq, al, q, g, gr, tx, e⟩ := haltBlock_halted s n h; rw [e]

theorem haltBlock_cause (s : State) (n : Nat) (h : s.aon.haltReq = false) : (haltBlock s n).aon.haltCause = n := by
  obtain ⟨o, ln, tv, lq, al, q, g, gr, tx, e⟩ := haltBlock_halted s n h
  rw [e]

theorem clockFault_above (s : State) (c : Clk) (hc : c ≠ .mir ∨ s.tandemEn = true) :
    (clockFault s c .above).aon.haltReq = true ∧
      (s.aon.haltReq = false → s.aon.alarms.length < 256 → (clockFault s c .above).aon.haltCause = 5) := by
  rw [clockFault_counts s c .above (fun h => nomatch h) hc (fun h => nomatch h)]
  unfold faultCost
  rw [if_pos (by decide)]
  refine ⟨haltBlock_haltReq _ 5, fun hh hl => haltBlock_cause _ 5 ?_⟩
  obtain ⟨l, d, w, al, q, g, e⟩ := noted_clockFault s _ c .above hl
  rw [e]
  exact hh

theorem clockFault_lane (s : State) (n : Nat) (f : ClkFault) (h1 : f = .stopped → s.aon.clkPhase ≠ .acked) (hf : f ≠ .above)
    (hp : portOk s n = true) (hi : portIsolated s n = false) (hl : s.aon.alarms.length < 256) :
    (clockFault s (.lane n) f).aon.haltReq = s.aon.haltReq ∧
      ∃ q, (clockFault s (.lane n) f).ladder.queue = s.ladder.queue ++ [q] ∧ q.level = 2 ∧ q.port = n ∧ q.cause = 4 := by
  rw [clockFault_counts s (.lane n) f h1 (.inl (by simp)) (fun _ => hi)]
  obtain ⟨l, d, w, al, q, g, e⟩ := noted_clockFault s n (.lane n) f hl
  unfold faultCost faultPort
  rw [e, if_neg (by simpa using hf)]
  dsimp only
  rw [if_pos (by simp only [Bool.and_eq_true]; exact ⟨hp, by rw [show portIsolated { s with win := w, aon := _ } n = false from hi]; rfl⟩)]
  exact ⟨rfl, _, rfl, rfl, rfl, rfl⟩

theorem clockFault_isolated (s : State) (n : Nat) (h1 : s.aon.clkPhase ≠ .acked) (hi : portIsolated s n = true) :
    (clockFault s (.lane n) .stopped).ladder = s.ladder ∧ (clockFault s (.lane n) .stopped).aon.alarms = s.aon.alarms ∧
      Clk.lane n ∈ (clockFault s (.lane n) .stopped).aon.clkStopped := by
  have e : clockFault s (.lane n) .stopped = noteStopped s (.lane n) .stopped := by
    unfold clockFault
    rw [if_neg (by simp [h1]), if_pos (by simp [mayStop, hi])]
  rw [e, noteStopped]
  split
  · exact ⟨rfl, rfl, by simp⟩
  · rename_i h
    exact ⟨rfl, rfl, by simpa using h⟩

theorem clockFault_core (s : State) (c : Clk) (f : ClkFault) (h1 : f = .stopped → s.aon.clkPhase ≠ .acked)
    (hc : c ∈ [Clk.eng, Clk.cs, Clk.hub, Clk.reg]) (hf : f ≠ .above) (hl : s.aon.alarms.length < 256) :
    (clockFault s c f).aon.clkBad.contains c = true ∧ (clockFault s c f).ladder = s.ladder := by
  have hm : c ≠ .mir ∧ mayStop s c = false ∧ ∀ n, c ≠ .lane n := by
    simp only [List.mem_cons, List.not_mem_nil, or_false] at hc
    rcases hc with rfl | rfl | rfl | rfl <;> exact ⟨nofun, rfl, nofun⟩
  obtain ⟨h2, h3, h4⟩ := hm
  rw [clockFault_counts s c f h1 (.inl h2) (fun _ => h3)]
  unfold faultCost
  rw [if_neg (by simpa using hf)]
  obtain ⟨l, d, w, al, q, g, e⟩ := noted_clockFault s (faultPort c) c f hl
  cases c with
  | mir => exact absurd rfl h2
  | lane n => exact absurd rfl (h4 n)
  | _ =>
    dsimp only
    rw [e]
    split
    · rename_i h
      exact ⟨h, rfl⟩
    · exact ⟨by simp, rfl⟩

theorem clockFault_mir (s : State) (f : ClkFault) (h1 : f = .stopped → s.aon.clkPhase ≠ .acked) (hf : f ≠ .above) (ht : s.tandemEn = true)
    (hh : s.td.held = []) (hl : s.aon.alarms.length < 256) :
    (clockFault s .mir f).td.synced = false ∧ (clockFault s .mir f).td.syncing = false ∧ (clockFault s .mir f).ladder = s.ladder := by
  rw [clockFault_counts s .mir f h1 (.inr ht) (fun _ => rfl)]
  unfold faultCost
  rw [if_neg (by simpa using hf)]
  obtain ⟨l, d, w, al, q, g, e⟩ := noted_clockFault s (faultPort .mir) .mir f hl
  rw [e, dropPartner]
  dsimp only
  split
  · simp only [releaseAfterHold, hh, List.filter_nil, List.foldl_nil, and_self]
  · exact ⟨rfl, rfl, rfl⟩

theorem clockBack_good (s : State) (c : Clk) (h : s.aon.clkBad.contains c = false) : clockBack s c = { s with aon := { s.aon with
    clkBad := s.aon.clkBad.filter (· != c), clkStopped := s.aon.clkStopped.filter (· != c) } } := by
  unfold clockBack
  rw [h]
  rfl

theorem clockBack_bad (s : State) (c : Clk) (h : s.aon.clkBad.contains c = true) : (clockBack s c).aon.clkBad.contains c = false ∧
    ∃ q, (clockBack s c).ladder.queue = s.ladder.queue ++ [q] ∧ q.level = 3 ∧ q.cause = 4 := by
  unfold clockBack
  rw [if_pos h]
  obtain ⟨o, ln, tv, e⟩ := handOver_form { s with aon := { s.aon with clkBad := s.aon.clkBad.filter (· != c),
                                                                        clkStopped := s.aon.clkStopped.filter (· != c) } } 6
  dsimp only
  rw [e]
  exact ⟨by simp [askReset], _, rfl, rfl, rfl⟩

/-- Settles O11: the handshake phase by phase, and each clock's fault. -/
theorem clocks : Obligations.Clocks := by
  unfold Obligations.Clocks
  refine ⟨fun s h => ⟨fun hc hp hh => ⟨_, clkStopRequest_quiesces s h hc hp hh, rfl, quiesceLanes_lanes _, rfl, rfl, rfl, rfl, rfl⟩,
      clkStopAck_grants s h, clkStopAck_waits s h, fun hp => clkStopWithdraw_runs s _ h (if_pos (by simp [hp])),
      fun hp => clkStopWithdraw_runs s _ h (if_neg (by simp [hp])), clkStopQuiesceTimeout_fails s h⟩,
    fun s f h h1 => ⟨fun c hc => ⟨_, runAon_run h rfl, clockFault_above (quiet s) c hc⟩,
      fun n hf hp hi hl => ⟨_, runAon_run h rfl, clockFault_lane (quiet s) n f h1 hf hp hi hl⟩,
      fun n hf hi => ⟨_, runAon_run h rfl, ?_⟩,
      fun c hc hf hl => ⟨_, runAon_run h rfl, clockFault_core (quiet s) c f h1 hc hf hl⟩,
      fun hf ht hh hl => ⟨_, runAon_run h rfl, clockFault_mir (quiet s) f h1 hf ht hh hl⟩,
      fun c hc => runAon_run h (clockBack_good (quiet s) c hc),
      fun c hc => ⟨_, runAon_run h rfl, clockBack_bad (quiet s) c hc⟩⟩⟩
  subst hf
  exact clockFault_isolated (quiet s) n (h1 rfl) hi

end Sys2Proof.Machine
end

section
/-! SUPPORT. The freeze of counters and scan enable (02 R51, R56; 04 R127; 13 R430). -/

namespace Sys2Proof.Machine

/- Proofs are elaborated in their order, for the reason given in the first section of this kind. -/
set_option deprecated.oldSectionVars true

/-! A SECURITY occurrence within its window. -/

theorem countAon_frame (s : State) (j n : Nat) : ∃ c w, countAon s j n = { s with aon := { s.aon with cnt := c }, win := w } ∧
    ∀ o, o ≠ 0x60020 → reg (countAon s j n) o = reg s o := by
  unfold countAon
  split
  · exact ⟨s.aon.cnt, s.win, rfl, fun _ _ => rfl⟩
  · dsimp only
    split
    · exact ⟨_, _, rfl, fun o ho => reg_setReg_other _ _ _ _ ho⟩
    · exact ⟨_, s.win, rfl, fun _ _ => rfl⟩

/-- What a SECURITY occurrence counts: the window moves on, the queue and ALM_CTRL stand. -/
theorem charged_security (s : State) (r : AlarmRec) (ch : Option Nat) (hc : r.cls = 1) :
    (charged s r ch).aon.alarms = s.aon.alarms ∧ (charged s r ch).aon.secTimes = secWindow s ++ [s.aon.ts] ∧
      reg (charged s r ch) 0x5004 = reg s 0x5004 := by
  have hb : (r.cls == 0x01) = true := by simp [hc]
  obtain ⟨c, w, h1, g1⟩ := countAon_frame { s with aon := { s.aon with secTimes := secWindow s ++ [s.aon.ts] } } 6 1
  obtain ⟨c', w', h2, g2⟩ := countAon_frame (countAon { s with aon := { s.aon with secTimes := secWindow s ++ [s.aon.ts] } } 6 1) 7 1
  have g := (g2 0x5004 (by decide)).trans (g1 0x5004 (by decide))
  unfold charged
  simp only [hb, if_true]
  cases ch with
  | none =>
    dsimp only
    exact ⟨by rw [h2, h1], by rw [h2, h1], g⟩
  | some p =>
    dsimp only
    exact ⟨by rw [h2, h1], by rw [h2, h1], g⟩

theorem foldsWith_cls (a b : AlarmRec) (h : foldsWith a b = true) : a.cls = b.cls := by
  simp only [foldsWith, Bool.and_eq_true, beq_iff_eq] at h
  exact h.1.1.1.1.1.1

theorem foldRec_last (s : State) (l : AlarmRec) (h : s.aon.alarms.getLast? = some l) :
    ∃ x, (foldRec s).aon.alarms.getLast? = some x ∧ x.cls = l.cls := by
  simp only [foldRec, h]
  exact ⟨_, List.getLast?_concat, rfl⟩

theorem placeRec_last (s : State) (r : AlarmRec) : ∃ x, (placeRec s r).aon.alarms.getLast? = some x ∧ x.cls = r.cls :=
  ⟨_, List.getLast?_concat, rfl⟩

/-- A SECURITY occurrence while the queue has room and the window is not exceeded is the newest record. -/
theorem occur_security_room (s : State) (r : AlarmRec) (ch : Option Nat) (hc : r.cls = 1) (hl : s.aon.alarms.length < 256)
    (hw : (secWindow s).length < (reg s 0x5004).toNat % 256) : ∃ x, (occur s r ch).aon.alarms.getLast? = some x ∧ x.cls = 1 := by
  obtain ⟨ha, ht, hr⟩ := charged_security s r ch hc
  have he : excess (charged s r ch) r = false := by
    simp only [excess, ht, hr, List.length_append, List.length_singleton, Bool.and_eq_false_imp, decide_eq_false_iff_not]
    omega
  rw [occur_eq, he, ha, if_pos hl]
  split
  · rename_i hf
    rw [Option.any_eq_true] at hf
    obtain ⟨l, hl, hf⟩ := hf
    obtain ⟨x, hx, hxc⟩ := foldRec_last (charged s r ch) l (by rw [ha]; exact hl)
    exact ⟨x, hx, hxc.trans ((foldsWith_cls l r hf).trans hc)⟩
  · obtain ⟨x, hx, hxc⟩ := placeRec_last (charged s r ch) r
    exact ⟨x, hx, hxc.trans hc⟩

/-! What latches the test root. -/

/-- The memory seal engine with nothing to do starts nothing. -/
theorem pumpMem_idle (s : State) (hl : s.mem.hotLost = []) (ho : s.mem.ops = []) (hj : s.mem.jobs = []) (hf : s.mem.fills = [])
    (hw : s.mem.wbs = []) : pumpMem s = s := by
  have hp : memPass s = s := by simp only [memPass, loseHot, hl, ho, hj, List.foldl_nil, List.map_nil]
  rw [pumpMem, hp, hp]
  simp only [pumpMods, ho, hj, hf, hw, List.foldl_nil]

theorem failDomainCmds_form (s : State) : ∃ h, failDomainCmds s = { s with hub := h } :=
  List.foldlRecOn (motive := fun t : State => ∃ h, t = { s with hub := h }) _ _ ⟨s.hub, rfl⟩ fun t ht b _ => by
    obtain ⟨h, rfl⟩ := ht
    unfold failWaiting
    split
    · exact ⟨_, rfl⟩
    · exact ⟨h, rfl⟩

/-- An event's overflow bits lie in the window of the counters. -/
theorem countEv_reg (s : State) (ev : Nat) (p : Option Nat) (n o : Nat) (h : o < 0x60010) : reg (countEv s ev p n) o = reg s o := by
  unfold countEv
  split
  · rfl
  · exact List.foldlRecOn (motive := fun t : State => reg t o = reg s o) _ _ rfl fun t ht x _ => by
      split
      · rw [setBits, reg_setReg_other _ _ _ _ (by omega), ht]
      · exact ht

/-- No Chord and no stream context is held, and the alarms, the halt and the debug port stand as they stood. -/
structure Rooted (s t : State) : Prop where
  chord : t.links.chord = []
  egress : t.links.egress = []
  ingress : t.links.ingress = []
  testRoot : t.aon.testRoot = s.aon.testRoot
  scanEn : t.aon.scanEn = s.aon.scanEn
  alarms : t.aon.alarms = s.aon.alarms
  haltReq : t.aon.haltReq = s.aon.haltReq
  secTimes : t.aon.secTimes = s.aon.secTimes
  ts : t.aon.ts = s.aon.ts
  dp : t.dbg.dp = s.dbg.dp
  ctrl : reg t 0x5004 = reg s 0x5004

theorem Rooted.same {s t u : State} (h : Rooted s t) (hl : u.links = t.links) (ha : u.aon = t.aon) (hd : u.dbg.dp = t.dbg.dp)
    (hw : u.win = t.win) : Rooted s u :=
  ⟨hl ▸ h.chord, hl ▸ h.egress, hl ▸ h.ingress, ha ▸ h.testRoot, ha ▸ h.scanEn, ha ▸ h.alarms, ha ▸ h.haltReq, ha ▸ h.secTimes, ha ▸ h.ts,
    hd.trans h.dp, (show reg u 0x5004 = reg t 0x5004 by simp only [reg, hw]).trans h.ctrl⟩

theorem Rooted.invalidateSlot {s t : State} (h : Rooted s t) (n : Nat) :
    Rooted s (invalidateSlot t n) ∧ (Machine.invalidateSlot t n).mem = t.mem := by
  unfold Machine.invalidateSlot
  dsimp only
  split
  · exact ⟨h, rfl⟩
  · exact ⟨⟨by simp only [flushChords, h.chord]; rfl, h.egress, h.ingress, h.testRoot, h.scanEn, h.alarms, h.haltReq, h.secTimes, h.ts, h.dp, h.ctrl⟩, rfl⟩

/-- The memory seal engine has nothing to do. -/
def MemIdle (s : State) : Prop := s.mem.hotLost = [] ∧ s.mem.ops = [] ∧ s.mem.jobs = [] ∧ s.mem.wbs = []

/-- What the end of a membership takes besides the keys. -/
def stripped (s : State) : State := loseRegions (freeOwned (loseDomain (clearStreams (clearChords s))) 17)

theorem Rooted.stripped {s t : State} (h : Rooted s t) : Rooted s (stripped t) := by
  have h1 : Rooted s (clearChords t) := ⟨rfl, h.egress, h.ingress, h.testRoot, h.scanEn, h.alarms, h.haltReq, h.secTimes, h.ts, h.dp, h.ctrl⟩
  have h2 : Rooted s (clearStreams (clearChords t)) :=
    ⟨rfl, rfl, rfl, h1.testRoot, h1.scanEn, h1.alarms, h1.haltReq, h1.secTimes, h1.ts, h1.dp, h1.ctrl⟩
  have h3 := h2.same (u := loseDomain (clearStreams (clearChords t))) rfl rfl rfl rfl
  have h4 := h3.same (u := freeOwned (loseDomain (clearStreams (clearChords t))) 17) rfl rfl rfl rfl
  exact h4.same (u := loseRegions (freeOwned (loseDomain (clearStreams (clearChords t))) 17)) rfl rfl rfl rfl

theorem loseRegions_idle (s : State) (h : MemIdle s) : pumpMem (loseRegions s) = loseRegions s := by
  obtain ⟨hl, ho, hj, hw⟩ := h
  refine pumpMem_idle _ hl ho ?_ rfl ?_
  · show tkeep s.mem.jobs (fun _ j => j.started && !j.reading) = []
    rw [hj]; rfl
  · show tkeep s.mem.wbs (fun _ w => w.part.sent) = []
    rw [hw]; rfl

theorem pumpMem_stripped (s : State) (h : MemIdle s) : pumpMem (stripped s) = stripped s :=
  loseRegions_idle (freeOwned (loseDomain (clearStreams (clearChords s))) 17) h

theorem MemIdle.of_mem {s t : State} (h : MemIdle s) (e : t.mem = s.mem) : MemIdle t := by
  unfold MemIdle
  rw [e]
  exact h

theorem endMembership_eq (s : State) : endMembership s = if s.dom.vertex.isNone then s else
    pumpMem (stripped (invalidateSlot (invalidateSlot (invalidateSlot (invalidateSlot (failDomainCmds s) 3) 4) 5) 6)) := rfl

theorem Rooted.endMembership {s t : State} (h : Rooted s t) (hm : MemIdle t) : Rooted s (endMembership t) := by
  rw [endMembership_eq]
  split
  · exact h
  · obtain ⟨hub, e⟩ := failDomainCmds_form t
    obtain ⟨h3, m3⟩ := (h.same (u := { t with hub := hub }) rfl rfl rfl rfl).invalidateSlot 3
    obtain ⟨h4, m4⟩ := h3.invalidateSlot 4
    obtain ⟨h5, m5⟩ := h4.invalidateSlot 5
    obtain ⟨h6, m6⟩ := h5.invalidateSlot 6
    rw [e, pumpMem_stripped _ (hm.of_mem (m6.trans (m5.trans (m4.trans m3))))]
    exact h6.stripped

theorem Rooted.deriveFrom {s t : State} (h : Rooted s t) (k : Bytes) (l : String) (c : Bytes) : Rooted s (deriveFrom t k l c).2 := by
  have hw : ∀ n, reg (absorb (countEv t 0x0A1 none 1) k n) 0x5004 = reg s 0x5004 := fun n => by
    rw [absorb, countEv_reg _ _ _ _ _ (by decide)]
    exact (countEv_reg _ _ _ _ _ (by decide)).trans h.ctrl
  obtain ⟨m, hc⟩ := absorb_counts (countEv t 0x0A1 none 1) k (kmacX l c).length
  have hk := hw (kmacX l c).length
  obtain ⟨c1, n1, w1, f1, e1⟩ := countEv_counts t 0x0A1 none 1
  obtain ⟨c2, n2, w2, f2, e2⟩ := hc
  have e : (Machine.deriveFrom t k l c).2 = absorb (countEv t 0x0A1 none 1) k (kmacX l c).length := rfl
  rw [e]
  rw [e2, e1] at hk ⊢
  exact ⟨h.chord, h.egress, h.ingress, h.testRoot, h.scanEn, h.alarms, h.haltReq, h.secTimes, h.ts, h.dp, hk⟩

theorem Rooted.setSlot {s t : State} (h : Rooted s t) (n : Nat) (k : Slot) : Rooted s (setSlot t n k) := h.same rfl rfl rfl rfl

theorem Rooted.fillSlot {s t : State} (h : Rooted s t) (n : Nat) (k : BitVec 256) (ty : Nat) (us : BitVec 16) (p l kid : Nat) :
    Rooted s (fillSlot t n k ty us p l kid) := h.setSlot _ _

theorem Rooted.rebuildLattice {s t : State} (h : Rooted s t) : Rooted s (rebuildLattice t) :=
  ((((((h.deriveFrom _ _ _).setSlot _ _).deriveFrom _ _ _).fillSlot _ _ _ _ _ _ _).deriveFrom _ _ _).fillSlot _ _ _ _ _ _ _)

theorem Rooted.clearMem {s t : State} (h : Rooted s t) : Rooted s (clearMem t) := h.same rfl rfl rfl rfl

theorem Rooted.dropPartitions {s t : State} (h : Rooted s t) : Rooted s (dropPartitions t) := h.same rfl rfl rfl rfl

theorem rooted_cleared (s : State) : Rooted s (clearStreams (clearChords (clearKeys s))) := ⟨rfl, rfl, rfl, rfl, rfl, rfl, rfl, rfl, rfl, rfl, rfl⟩

/-- In MANUF and PROD everything of the production root goes before the test root is latched. -/
theorem latchTestRoot_eq (s : State) : latchTestRoot s =
    if s.aon.testRoot then s
    else if s.otp.lc = .manuf ∨ s.otp.lc = .prod then
      let t := dropPartitions (endMembership (clearMem (clearStreams (clearChords (clearKeys (stopLanes
        { s with aon := { s.aon with testRoot := true, ready := false, dataStopped := true } }))))))
      if t.aon.stage = 6 then rebuildLattice t else t
    else { s with aon := { s.aon with testRoot := true } } := rfl

theorem Rooted.latchTestRoot {s t : State} (h : Rooted s t) :
    Rooted { s with aon := { s.aon with testRoot := true } } (latchTestRoot t) := by
  rw [latchTestRoot_eq]
  split
  · rename_i ht
    exact ⟨h.chord, h.egress, h.ingress, ht, h.scanEn, h.alarms, h.haltReq, h.secTimes, h.ts, h.dp, h.ctrl⟩
  · split
    · have h1 : Rooted { s with aon := { s.aon with testRoot := true } }
          (stopLanes { t with aon := { t.aon with testRoot := true, ready := false, dataStopped := true } }) :=
        ⟨h.chord, h.egress, h.ingress, rfl, h.scanEn, h.alarms, h.haltReq, h.secTimes, h.ts, h.dp, h.ctrl⟩
      have h2 : Rooted { s with aon := { s.aon with testRoot := true } } (clearStreams (clearChords (clearKeys (stopLanes
          { t with aon := { t.aon with testRoot := true, ready := false, dataStopped := true } })))) :=
        ⟨rfl, rfl, rfl, h1.testRoot, h1.scanEn, h1.alarms, h1.haltReq, h1.secTimes, h1.ts, h1.dp, h1.ctrl⟩
      have h3 := h2.clearMem.endMembership ⟨rfl, rfl, rfl, rfl⟩
      dsimp only
      split
      · exact h3.dropPartitions.rebuildLattice
      · exact h3.dropPartitions
    · exact ⟨h.chord, h.egress, h.ingress, rfl, h.scanEn, h.alarms, h.haltReq, h.secTimes, h.ts, h.dp, h.ctrl⟩

theorem latchTestRoot_keys (s : State) (h : s.aon.testRoot = true ∨ (s.otp.lc ≠ .manuf ∧ s.otp.lc ≠ .prod)) :
    (latchTestRoot s).keys = s.keys := by
  rw [latchTestRoot_eq]
  split
  · rfl
  · rename_i ht
    rw [if_neg]
    rintro (hl | hl)
    · exact (h.resolve_left ht).1 hl
    · exact (h.resolve_left ht).2 hl

/-- What scan enable leaves before its alarm. -/
def scanned (s : State) : State :=
  latchTestRoot (clearStreams (clearChords (clearKeys { s with aon := { s.aon with scanEn := true } })))

theorem scanned_rooted (s : State) : Rooted { s with aon := { s.aon with scanEn := true, testRoot := true } } (scanned s) :=
  (rooted_cleared { s with aon := { s.aon with scanEn := true } }).latchTestRoot

theorem scanEnable_eq (s : State) : scanEnable s =
    if wbit (dpWord (scanned s) 8) 0 then scanned s else occur (scanned s) (mkRec 0x01 0xFF 0 0 0 0 0 0 0 0) none := rfl

theorem scanEnable_does (s : State) : (scanEnable s).aon.scanEn = true ∧
    (scanEnable s).aon.testRoot = true ∧ (scanEnable s).links.chord = [] ∧ (scanEnable s).links.egress = [] ∧ (scanEnable s).links.ingress = [] ∧
    (s.aon.testRoot = true ∨ (s.otp.lc ≠ .manuf ∧ s.otp.lc ≠ .prod) → (scanEnable s).keys = KeyStore.reset) ∧
    (wbit (dpWord s 8) 0 = true → (scanEnable s).aon.alarms = s.aon.alarms ∧ (scanEnable s).aon.haltReq = s.aon.haltReq) ∧
    (wbit (dpWord s 8) 0 = false → s.aon.alarms.length < 256 → (secWindow s).length < (reg s 0x5004).toNat % 256 →
      ∃ r, (scanEnable s).aon.alarms.getLast? = some r ∧ r.cls = 1) := by
  have h := scanned_rooted s
  have hk : s.aon.testRoot = true ∨ (s.otp.lc ≠ .manuf ∧ s.otp.lc ≠ .prod) → (scanned s).keys = KeyStore.reset :=
    latchTestRoot_keys (clearStreams (clearChords (clearKeys { s with aon := { s.aon with scanEn := true } })))
  have hd : dpWord (scanned s) 8 = dpWord s 8 := by simp only [dpWord, h.dp]
  rw [scanEnable_eq, hd]
  cases hw : wbit (dpWord s 8) 0 with
  | true =>
    rw [if_pos rfl]
    exact ⟨h.scanEn, h.testRoot, h.chord, h.egress, h.ingress, hk, fun _ => ⟨h.alarms, h.haltReq⟩, nofun⟩
  | false =>
    rw [if_neg Bool.false_ne_true]
    have g := stands_occur (scanned s) (mkRec 0x01 0xFF 0 0 0 0 0 0 0 0) none
    refine ⟨g.scanEn.trans h.scanEn, g.testRoot.trans h.testRoot, ?_, ?_, ?_, fun hp => ?_, nofun, fun _ hl hn => ?_⟩
    · exact g.chord.elim (fun e => e.trans h.chord) id
    · exact g.egress.elim (fun e => e.trans h.egress) id
    · exact g.ingress.elim (fun e => e.trans h.ingress) id
    · exact g.keys.elim (fun e => e.trans (hk hp)) id
    · refine occur_security_room _ _ _ rfl (by rw [h.alarms]; exact hl) ?_
      have e : secWindow (scanned s) = secWindow s := by simp only [secWindow, h.secTimes, h.ts]
      rw [e, h.ctrl]
      exact hn

/-! The freeze trigger. -/

theorem freeze_bit0 (w : Word) (on : Bool) : wbit ((w &&& 0xFFFFFFFE#32) ||| toW (b2n on)) 0 = on := by
  cases on <;> simp [wbit, toW, b2n]

/-- Settles O12: the trigger follows its pin and its bit; scan enable clears, latches and raises its alarm. -/
theorem freezeAndScan : Obligations.FreezeAndScan := by
  unfold Obligations.FreezeAndScan
  refine ⟨fun s on h => ⟨?_, ?_⟩, fun s h => ⟨_, runAon_run h rfl, scanEnable_does (quiet s)⟩⟩
  · show execFreezeTrigger false on s = _
    rw [execFreezeTrigger, if_neg (by simp [h])]
    exact runAon_run h rfl
  · refine ⟨refreeze (setReg (quiet s) 0x60000 ((reg s 0x60000 &&& 0xFFFFFFFE#32) ||| toW (b2n on))), ?_, ?_, ?_, fun o ho => ?_⟩
    · show execFreezeTrigger true on s = _
      rw [execFreezeTrigger, if_neg (by simp)]
      exact runAon_run h rfl
    · exact (congrArg (wbit · 0) (reg_setReg_same _ _ _)).trans (freeze_bit0 _ on)
    · show (s.aon.freezePin || wbit (reg (setReg (quiet s) 0x60000 _) 0x60000) 0) = _
      rw [reg_setReg_same, freeze_bit0]
    · exact reg_setReg_other _ _ _ _ ho

end Sys2Proof.Machine
end

section
/-! SUPPORT. A lane's life, hop retry, and the flits that arrive (06 R180, R193 to R198; 02 R37). -/

namespace Sys2Proof.Machine

/- Proofs are elaborated in their order, for the reason given in the first section of this kind. -/
set_option deprecated.oldSectionVars true

theorem onLane_run {port lane : Nat} {f : State → Nat → State} {s u : State} (h : engUp s = true) (hl : laneOk s port lane = true)
    (hu : f (quiet s) (laneNo port lane) = u) : onLane port lane f s = .next (finish s u) :=
  runEng_run h ((when_pos (s := quiet s) (f := fun s => f s (laneNo port lane)) hl).trans hu)

theorem onLanePin_run {port lane : Nat} {up : Bool} {f : State → Nat → State} {s u : State} (h : engUp s = true)
    (hl : laneOk s port lane = true) (hu : f (pinLane (quiet s) (laneNo port lane) up) (laneNo port lane) = u) :
    onLanePin port lane up f s = .next (finish s u) := by
  rw [onLanePin, if_pos h]
  exact onLane_run h hl hu

theorem laneAt_setLane_same (s : State) (k : Nat) (l : Lane) : laneAt (setLane s k l) k = l := by simp [laneAt, tgetD]

theorem laneAt_setLane_other (s : State) (k j : Nat) (l : Lane) (h : j ≠ k) : laneAt (setLane s k l) j = laneAt s j := by
  simp only [laneAt, tgetD, setLane_links, tget_tset_other _ _ _ _ h]

theorem setLane_setLane (s : State) (k : Nat) (l m : Lane) : setLane (setLane s k l) k m = setLane s k m := by
  simp only [setLane, tset_tset]

theorem laneAt_congr {s t : State} (h : t.links = s.links) (k : Nat) : laneAt t k = laneAt s k := by simp only [laneAt, h]

theorem laneAt_sendCtl (s : State) (k j c f : Nat) (b : Bool) : laneAt (sendCtl s k c b f) j = laneAt s j := rfl

theorem Counts.links {s t : State} (h : Counts s t) : t.links = s.links := by
  obtain ⟨c, n, w, f, rfl⟩ := h
  rfl

theorem Counts.out {s t : State} (h : Counts s t) : t.out = s.out := by
  obtain ⟨c, n, w, f, rfl⟩ := h
  rfl

/-! Fences and returns. -/

/-- A fence takes the lane down, keeps its complete frames and no other lane's state. -/
theorem fenceLane_lane (s : State) (k c : Nat) (h : (laneAt s k).cause = 0) (hc : c ≠ 2 ∧ c ≠ 3 ∧ c ≠ 6 ∨ s.aon.alarms.length < 256) :
    (fenceLane s k c).links.lane =
      tset s.links.lane k { Lane.down with up := (laneAt s k).up, cause := c, staging := keepWhole 20 (laneAt s k).staging } := by
  have hi : ∀ (b : Bool) (t : State) (p : Nat), (if b then askReset t 2 0xFF p 0x15 true else t).links = t.links := by
    intro b t p
    cases b <;> rfl
  unfold fenceLane
  rw [if_neg (by simp [h])]
  dsimp only
  rw [hi]
  split
  · rename_i hf
    have hl : s.aon.alarms.length < 256 := hc.resolve_left (by omega)
    obtain ⟨d, w, al, q, g, e, -⟩ := occur_room (markMoves (setBits (setLane s k
      { Lane.down with up := (laneAt s k).up, cause := c, staging := keepWhole 20 (laneAt s k).staging }) (lpOff (k / 8) 0x10) 1)
      (unackedTags (laneAt s k))) (mkRec 0x15 0xFF (k / 8) (k % 8) 0 c 0 0 0 0) none (fun h => nomatch h) hl
    rw [e]
    rfl
  · rfl

theorem fenceLane_same (s : State) (k c : Nat) (h : (laneAt s k).cause = 0) (hc : c ≠ 2 ∧ c ≠ 3 ∧ c ≠ 6 ∨ s.aon.alarms.length < 256) :
    laneAt (fenceLane s k c) k =
      { Lane.down with up := (laneAt s k).up, cause := c, staging := keepWhole 20 (laneAt s k).staging } := by
  simp only [laneAt, fenceLane_lane s k c h hc, tgetD, tget_tset_same, Option.getD_some]

theorem fenceLane_other (s : State) (k c j : Nat) (h : (laneAt s k).cause = 0) (hc : c ≠ 2 ∧ c ≠ 3 ∧ c ≠ 6 ∨ s.aon.alarms.length < 256)
    (hj : j ≠ k) : laneAt (fenceLane s k c) j = laneAt s j := by
  simp only [laneAt, fenceLane_lane s k c h hc, tgetD, tget_tset_other _ _ _ _ hj]

theorem startLane_keeps (s : State) (k : Nat) : (laneAt (startLane s k) k).up = (laneAt s k).up ∧
    (laneAt (startLane s k) k).cause = (laneAt s k).cause := by
  unfold startLane
  dsimp only
  split
  · rw [laneAt_sendCtl, laneAt_setLane_same]
    exact ⟨rfl, rfl⟩
  · exact ⟨rfl, rfl⟩

theorem returnLane_lane (s : State) (k : Nat) : (laneAt (returnLane s k) k).up = (laneAt s k).up ∧
    (laneAt (returnLane s k) k).cause = if laneAllow s k then 0 else 4 := by
  have hl := laneAt_setLane_same s k { laneAt s k with cause := 0 }
  have ha : laneAllow (setLane s k { laneAt s k with cause := 0 }) k = laneAllow s k := rfl
  unfold returnLane
  dsimp only
  rw [ha]
  cases laneAllow s k with
  | true =>
    obtain ⟨h1, h2⟩ := startLane_keeps (setLane s k { laneAt s k with cause := 0 }) k
    exact ⟨h1.trans (by rw [hl]), h2.trans (by rw [hl]; rfl)⟩
  | false =>
    rw [if_neg Bool.false_ne_true, fenceLane_same _ k 4 (by rw [hl]) (.inl (by decide)), hl]
    exact ⟨rfl, rfl⟩

theorem startLane_runs (s : State) (k : Nat) (hh : s.aon.haltReq = false)
    (h : (s.aon.ready && drivesLanes s && clkRuns s && (laneAt s k).up && laneAllow s k && (laneAt s k).cause == 0 &&
      !(laneAt s k).started && !portIsolated s (k / 8) && !isolating s (k / 8)) = true) :
    startLane s k = sendCtl (setLane s k { laneAt s k with started := true, startAt := s.aon.ts }) k 1 false 0 := by
  unfold startLane
  rw [if_pos]
  simp only [Bool.and_eq_true] at h ⊢
  simp [h, hh]

theorem engUp_running (s : State) (h : engUp s = true) : s.aon.haltReq = false := by
  simp only [engUp, Bool.and_eq_true, Bool.not_eq_true'] at h
  exact h.1.1.2

/-- A lane's pin, its start and its INIT (06 R197, R198). -/
theorem laneLife (s : State) (port lane : Nat) (h : engUp s = true) (hl : laneOk s port lane = true) :
    let k := laneNo port lane
    let l := laneAt s k
    (l.started = false → exec (.laneUpFall port lane) s = .next (finish s (setLane (quiet s) k { l with up := false }))) ∧
    (l.started = true → l.cause = 0 → ∃ u, exec (.laneUpFall port lane) s = .next (finish s u) ∧
      laneAt u k = { Lane.down with cause := 1, staging := keepWhole 20 l.staging } ∧
      ∀ j, j ≠ k → laneAt u j = laneAt s j) ∧
    (l.cause ≠ 1 ∨ heldIsolated s port = true → exec (.laneUpRise port lane) s = .next (finish s (setLane (quiet s) k { l with up := true }))) ∧
    (l.cause = 1 → heldIsolated s port = false → ∃ u, exec (.laneUpRise port lane) s = .next (finish s u) ∧
      (laneAt u k).up = true ∧ (laneAt u k).cause = if laneAllow s k then 0 else 4) := by
  intro k l
  have hd : laneAt (pinLane (quiet s) k false) k = { l with up := false } := laneAt_setLane_same _ _ _
  have hu : laneAt (pinLane (quiet s) k true) k = { l with up := true } := laneAt_setLane_same _ _ _
  refine ⟨fun hs => (onLanePin_run h hl ?_ : execLaneUpFall port lane s = _),
    fun hs hc => ⟨_, (onLanePin_run h hl rfl : execLaneUpFall port lane s = _), ?_⟩,
    fun hc => (onLanePin_run h hl ?_ : execLaneUpRise port lane s = _),
    fun hc hi => ⟨_, (onLanePin_run h hl rfl : execLaneUpRise port lane s = _), ?_⟩⟩
  · show lostLane (pinLane (quiet s) k false) k = _
    rw [lostLane, hd, if_neg (by simp [hs])]
    rfl
  · show laneAt (lostLane (pinLane (quiet s) k false) k) k = _ ∧ ∀ j, j ≠ k → laneAt (lostLane (pinLane (quiet s) k false) k) j = _
    rw [lostLane, hd, if_pos (by simp [hs])]
    have h0 : (laneAt (pinLane (quiet s) k false) k).cause = 0 := by rw [hd]; exact hc
    refine ⟨?_, fun j hj => ?_⟩
    · rw [fenceLane_same _ _ _ h0 (.inl (by decide)), hd]
      rfl
    · rw [fenceLane_other _ _ _ _ h0 (.inl (by decide)) hj]
      exact laneAt_setLane_other _ _ _ _ hj
  · rw [hu, if_neg]
    · rfl
    · rintro ⟨h1, h2⟩
      rcases hc with hc | hc
      · exact hc h1
      · rw [show heldIsolated (pinLane (quiet s) k true) port = heldIsolated s port from rfl, hc] at h2
        cases h2
  · rw [hu, if_pos ⟨hc, by rw [show heldIsolated (pinLane (quiet s) k true) port = heldIsolated s port from rfl, hi]; rfl⟩]
    obtain ⟨h1, h2⟩ := returnLane_lane (pinLane (quiet s) k true) k
    exact ⟨h1.trans (by rw [hu]), h2⟩

theorem initLane_enters (s : State) (k : Nat) (hs : (laneAt s k).started = true) (hi : (laneAt s k).inService = false) :
    initLane s k = markMoves (setLane s k { laneAt s k with
      inService := true, txSeq := 0, replay := [], replayTimes := [], busyWait := none, e := 0, discard := false, num := none
      unacked := 0, staging := keepWhole 20 (laneAt s k).staging, skip := 0 }) [] := by
  unfold initLane
  dsimp only
  rw [if_neg (by simp [hs]), if_neg (by simp [hi])]

theorem laneInit (s : State) (port lane : Nat) (h : engUp s = true) (hl : laneOk s port lane = true) :
    let k := laneNo port lane
    let l := laneAt s k
    l.started = true → l.inService = false →
      exec (.initSendTimer port lane) s = .next (finish s (sendCtl (quiet s) k 1 false 0)) ∧
      (l.cause = 0 → ∃ u, exec (.initTimeout port lane) s = .next (finish s u) ∧
        (s.aon.alarms.length < 256 → (laneAt u k).started = false ∧ (laneAt u k).cause = 3)) ∧
      exec (.initRx port lane) s = .next (finish s (markMoves (setLane (quiet s) k { l with
        inService := true, txSeq := 0, replay := [], replayTimes := [], busyWait := none, e := 0, discard := false, num := none
        unacked := 0, staging := keepWhole 20 l.staging, skip := 0 }) [])) := by
  intro k l hs hi
  have hw : ((laneAt (quiet s) k).started && !(laneAt (quiet s) k).inService) = true := by
    rw [show laneAt (quiet s) k = l from rfl, hs, hi]; rfl
  refine ⟨(onLane_run h hl (when_pos hw) : execInitSendTimer port lane s = _),
    fun hc => ⟨_, (onLane_run h hl (when_pos hw) : execInitTimeout port lane s = _), fun ha => ?_⟩,
    (onLane_run h hl ?_ : execInitRx port lane s = _)⟩
  · rw [fenceLane_same (quiet s) k 3 hc (.inr ha)]
    exact ⟨rfl, rfl⟩
  · exact initLane_enters (quiet s) k hs hi

/-! Hop retry. -/

theorem ackLane_none (s : State) (k f : Nat) (h : repIdx (laneAt s k) f = none) : ackLane s k f = s := by
  simp only [ackLane, h]

theorem ackLane_some (s : State) (k f i : Nat) (h : repIdx (laneAt s k) f = some i) : ackLane s k f = setLane s k { laneAt s k with
    replay := ((laneAt s k).replay.drop (i + 1)).map (fun x => { x with replays := 0, at_ := s.aon.ts }), busyWait := none } := by
  simp only [ackLane, h]

theorem nakLane_busy (s : State) (k f i : Nat) (hs : (laneAt s k).inService = true) (hi : repIdx (laneAt s k) f = some i) :
    nakLane s k true f = setLane (setLane s k { laneAt s k with
      replay := ((laneAt s k).replay.drop (i + 1)).map (fun x => { x with replays := 0, at_ := s.aon.ts }), busyWait := none }) k
      { laneAt s k with
        replay := ((laneAt s k).replay.drop (i + 1)).map (fun x => { x with replays := 0, at_ := s.aon.ts })
        busyWait := some ((f + 1) % 4096) } := by
  unfold nakLane
  rw [if_neg (by simp [hs]), ackLane_some s k f i hi]
  dsimp only
  rw [if_pos rfl, laneAt_setLane_same]

theorem nakLane_replays (s : State) (k f : Nat) (hs : (laneAt s k).inService = true) : nakLane s k false f =
    replayFrom (ackLane s k f) k ((repIdx (laneAt (ackLane s k f) k) ((f + 1) % 4096)).getD 0) := by
  unfold nakLane
  rw [if_neg (by simp [hs])]
  rfl

theorem replayLane_renumbers (s : State) (k f : Nat) (hs : (laneAt s k).inService = true)
    (hd : 2048 ≤ (f + 4096 - (laneAt s k).e) % 4096 ∨ (f + 4096 - (laneAt s k).e) % 4096 = 0) :
    replayLane s k f = setLane s k { laneAt s k with num := some f } := by
  unfold replayLane
  dsimp only
  rw [if_neg (by simp [hs]), if_neg (by omega)]

theorem hopRetry (s : State) (port lane f : Nat) (h : engUp s = true) (hl : laneOk s port lane = true) (hf : f < 4096)
    (hs : (laneAt s (laneNo port lane)).inService = true) :
    let k := laneNo port lane
    let l := laneAt s k
    (∀ i, repIdx l f = some i → exec (.ackRx port lane f) s = .next (finish s (setLane (quiet s) k { l with
      replay := (l.replay.drop (i + 1)).map (fun x => { x with replays := 0, at_ := s.aon.ts }), busyWait := none }))) ∧
    (repIdx l f = none → exec (.ackRx port lane f) s = .next (finish s (quiet s))) ∧
    (∀ i, repIdx l f = some i → exec (.nakRx port lane true f) s = .next (finish s (setLane (setLane (quiet s) k { l with
      replay := (l.replay.drop (i + 1)).map (fun x => { x with replays := 0, at_ := s.aon.ts }), busyWait := none }) k { l with
      replay := (l.replay.drop (i + 1)).map (fun x => { x with replays := 0, at_ := s.aon.ts })
      busyWait := some ((f + 1) % 4096) }))) ∧
    (∃ u, exec (.nakRx port lane false f) s = .next (finish s u) ∧ u = replayFrom (ackLane (quiet s) k f) k
      ((repIdx (laneAt (ackLane (quiet s) k f) k) ((f + 1) % 4096)).getD 0)) ∧
    (2048 ≤ (f + 4096 - l.e) % 4096 ∨ (f + 4096 - l.e) % 4096 = 0 →
      exec (.replayRx port lane f) s = .next (finish s (setLane (quiet s) k { l with num := some f }))) ∧
    (∀ g, l.busyWait = some g → exec (.nakBusyWaitEnd port lane) s = .next (finish s (replayFrom (quiet s) k ((repIdx l g).getD 0)))) ∧
    (0 < l.unacked → exec (.ackTimer port lane) s = .next (finish s (sendCtl (setLane (quiet s) k { l with unacked := 0 }) k 2 false
      (l.e + 4095)))) ∧
    (l.replay ≠ [] → exec (.hopReplayTimeout port lane) s = .next (finish s (replayFrom (quiet s) k 0))) := by
  intro k l
  have hq : laneAt (quiet s) k = l := rfl
  have hs : l.inService = true := hs
  have hm : f % 4096 = f := Nat.mod_eq_of_lt hf
  have hack : ∀ u, ackLane (quiet s) k f = u → exec (.ackRx port lane f) s = .next (finish s u) := fun u hu =>
    (onLane_run h hl ((when_pos hs).trans (by rw [hm]; exact hu)) : execAckRx port lane f s = _)
  refine ⟨fun i hi => hack _ (ackLane_some (quiet s) k f i hi), fun hi => hack _ (ackLane_none (quiet s) k f hi),
    fun i hi => (onLane_run h hl ?_ : execNakRx port lane true f s = _),
    ⟨_, (onLane_run h hl ?_ : execNakRx port lane false f s = _), rfl⟩,
    fun hd => (onLane_run h hl ?_ : execReplayRx port lane f s = _),
    fun g hg => (onLane_run h hl ?_ : execNakBusyWaitEnd port lane s = _),
    fun hu => (onLane_run h hl (when_pos ((Bool.and_eq_true _ _).mpr ⟨hs, decide_eq_true hu⟩)) : execAckTimer port lane s = _),
    fun hr => (onLane_run h hl (when_pos ((Bool.and_eq_true _ _).mpr ⟨hs, by rw [hq]; simpa using hr⟩)) : execHopReplayTimeout port lane s = _)⟩
  · rw [hm]
    exact nakLane_busy (quiet s) k f i hs hi
  · rw [hm]
    exact nakLane_replays (quiet s) k f hs
  · rw [hm]
    exact replayLane_renumbers (quiet s) k f hs hd
  · rw [hq]
    dsimp only
    rw [hg]
    exact if_pos hs

/-! Flits. -/

/-- An event and a register that rises leave the lanes and what was presented. -/
theorem countEv_bump (s : State) (o ev : Nat) : (countEv (bump s o) ev none 1).links = s.links ∧ (countEv (bump s o) ev none 1).out = s.out :=
  ⟨(countEv_counts (bump s o) ev none 1).links, (countEv_counts (bump s o) ev none 1).out⟩

theorem flitRx_failed (s : State) (k : Nat) (d : Bytes) (hs : (laneAt s k).started = true) (hd : flitClass d = .failed)
    (hi : (laneAt s k).inService = true) (ho : s.out = []) :
    (laneAt (flitRx s k d) k).discard = true ∧ (laneAt (flitRx s k d) k).e = (laneAt s k).e ∧
      (laneAt (flitRx s k d) k).staging = (laneAt s k).staging ∧
      (flitRx s k d).out = [.ctl (k / 8) (k % 8) 3 false (((laneAt s k).e + 4095) % 4096)] := by
  obtain ⟨h1, h2⟩ := countEv_bump s (lpOff (k / 8) 0x20) (0x020 + k / 8)
  have hl := laneAt_congr h1 k
  unfold flitRx
  dsimp only
  rw [hs, hd]
  simp only [Bool.not_true, Bool.false_eq_true, if_false, hi, if_true, sendNak, laneAt_sendCtl, laneAt_setLane_same, hl, true_and]
  simp only [sendCtl, emit_out, setLane_out, h2, ho, List.nil_append]

theorem dataFlitRx_accepts (s : State) (k : Nat) (c : Bytes) (hd : (laneAt s k).discard = false) (hn : (laneAt s k).num = none)
    (hu : (laneAt s k).unacked < 127) (hl : (laneAt s k).staging.length < 20) :
    laneAt (dataFlitRx s k c) k = { laneAt s k with
      e := ((laneAt s k).e + 1) % 4096, unacked := (laneAt s k).unacked + 1, skip := (laneAt s k).skip - 1
      staging := if (laneAt s k).skip = 0 then (laneAt s k).staging ++ [c] else (laneAt s k).staging } := by
  have hlink : ∀ t : State, laneAt (countAon t 1 1) k = laneAt t k := fun t => laneAt_congr (countAon_counts t 1 1).links k
  unfold dataFlitRx
  dsimp only
  rw [hn, hd]
  dsimp only
  rw [if_neg Bool.false_ne_true, if_neg (by omega)]
  unfold acceptFlit
  dsimp only
  rw [if_neg (by omega), hlink, laneAt_setLane_same]

theorem flitRx_down (s : State) (k : Nat) (d : Bytes) (hs : (laneAt s k).started = false) : flitRx s k d = s := by
  unfold flitRx
  dsimp only
  rw [if_pos (by simp [hs])]

theorem flitRx_data (s : State) (k : Nat) (d : Bytes) (hs : (laneAt s k).started = true) (hd : flitClass d = .data)
    (hi : (laneAt s k).inService = true) : flitRx s k d = dataFlitRx s k (d.take 252) := by
  unfold flitRx
  dsimp only
  rw [if_neg (by simp [hs]), hd]
  exact if_pos hi

theorem flitArrives (s : State) (port lane : Nat) (d : Bytes) (h : engUp s = true) (hl : laneOk s port lane = true) :
    let k := laneNo port lane
    let l := laneAt s k
    (l.started = false → exec (.flitRx port lane d) s = .next (finish s (quiet s))) ∧
    (l.started = true → flitClass d = .failed → ∃ u, exec (.flitRx port lane d) s = .next (finish s u) ∧
      (l.inService = true → (laneAt u k).discard = true ∧ (laneAt u k).e = l.e ∧ (laneAt u k).staging = l.staging ∧
        u.out = [.ctl (k / 8) (k % 8) 3 false ((l.e + 4095) % 4096)])) ∧
    (l.started = true → flitClass d = .data → l.inService = true → l.discard = false → l.num = none → l.unacked < 127 →
      l.staging.length < 20 →
      ∃ u, exec (.flitRx port lane d) s = .next (finish s u) ∧ laneAt u k = { l with
        e := (l.e + 1) % 4096, unacked := l.unacked + 1, skip := l.skip - 1
        staging := if l.skip = 0 then l.staging ++ [d.take 252] else l.staging }) := by
  intro k l
  exact ⟨fun hs => (onLane_run h hl (flitRx_down (quiet s) k d hs) : execFlitRx port lane d s = _),
    fun hs hd => ⟨_, (onLane_run h hl rfl : execFlitRx port lane d s = _), fun hi => flitRx_failed (quiet s) k d hs hd hi rfl⟩,
    fun hs hd hi hc hn hu hg =>
      ⟨_, (onLane_run h hl (flitRx_data (quiet s) k d hs hd hi) : execFlitRx port lane d s = _), dataFlitRx_accepts (quiet s) k _ hc hn hu hg⟩⟩

/-- Settles O13: a lane's life, hop retry and flits, each on the lane alone. -/
theorem lanes : Obligations.Lanes := by
  unfold Obligations.Lanes
  refine ⟨fun s port lane h hl => ?_, hopRetry, flitArrives⟩
  obtain ⟨h1, h2, h3, h4⟩ := laneLife s port lane h hl
  exact ⟨h1, h2, h3, h4, fun hs =>
    (onLane_run h hl (startLane_runs (quiet s) _ (engUp_running s h) hs) : execLaneStart port lane s = _), laneInit s port lane h hl⟩

end Sys2Proof.Machine
end

section
/-! SUPPORT. Misses of Chords and stream contexts are filled (06 R192, R202; 05 R171, R175; 12 R391). -/

namespace Sys2Proof.Machine

/- Proofs are elaborated in their order, for the reason given in the first section of this kind. -/
set_option deprecated.oldSectionVars true

theorem tget_tmod_same {α : Type} (t : Tbl α) (i : Nat) (f : α → α) : tget (tmod t i f) i = (tget t i).map f := by
  induction t with
  | nil => rfl
  | cons p t ih =>
    obtain ⟨j, v⟩ := p
    unfold tmod at ih ⊢
    by_cases h : j = i
    · subst h
      simp [tget]
    · simp only [List.map_cons, if_neg h, tget, if_neg (Ne.symm h), ih]

theorem tget_tmod_other {α : Type} (t : Tbl α) (i j : Nat) (f : α → α) (h : j ≠ i) : tget (tmod t i f) j = tget t j := by
  induction t with
  | nil => rfl
  | cons p t ih =>
    obtain ⟨k, v⟩ := p
    unfold tmod at ih ⊢
    by_cases hk : k = i
    · subst hk
      simp only [List.map_cons, if_pos, tget, if_neg h, ih]
    · simp only [List.map_cons, if_neg hk, tget, ih]

/-! Chords. -/

theorem chordFill_fills (s : State) (k n : Nat) (hc : tget s.links.chord k = none) (hr : s.links.chord.length < chordCap)
    (hn : chordSlot s (k % 2 == 1) = some n) :
    (∃ c, tget (chordFill s k).links.chord k = some c ∧ (c.gen, c.count) = tgetD s.links.saved k (1, 0) ∧ c.slot = n ∧
      c.slotGen = (slotAt s n).gen) ∧ (chordFill s k).links.missC.contains k = false ∧
      (∀ j, j ≠ k → tget (chordFill s k).links.chord j = tget s.links.chord j) := by
  let t : State := { s with links := { s.links with missC := s.links.missC.filter (· != k) } }
  let g := tgetD s.links.saved k (1, 0)
  let r := deriveChord t (k / 4) (k / 2 % 2 == 1) n g.1
  have hd : r.2.links = t.links :=
    (absorb_counts (countEv t 0x0A1 none 1) _ _).choose_spec.links.trans (countEv_counts t 0x0A1 none 1).links
  have hf : chordFill s k = setChord r.2 k { gen := g.1, count := g.2, key := r.1, slot := n, slotGen := (slotAt s n).gen } := by
    unfold chordFill
    dsimp only
    rw [if_neg (by rw [hc]; simp), show chordSlot { s with links := { s.links with missC := s.links.missC.filter (· != k) } } (k % 2 == 1) =
      some n from hn]
    dsimp only
    rw [show chordEvict { s with links := { s.links with missC := s.links.missC.filter (· != k) } } = t from if_pos hr]
    rfl
  rw [hf]
  refine ⟨⟨_, tget_tset_same _ _ _, rfl, rfl, rfl⟩, ?_, fun j hj => ?_⟩
  · show r.2.links.missC.contains k = false
    rw [hd]
    simp [t]
  · show tget (tset r.2.links.chord k _) j = _
    rw [tget_tset_other _ _ _ _ hj, hd]

/-! Stream contexts. -/

/-- Whether a context is resident is all that its table entry gains or loses. -/
theorem scSetRes_get (s : State) (k j : Nat) (b : Bool) :
    (∀ c, tget s.links.ingress j = some c → ∃ b', tget (scSetRes s k b).links.ingress j = some { c with resident := b' }) ∧
    (∀ c, tget s.links.egress j = some c → ∃ b', tget (scSetRes s k b).links.egress j = some { c with resident := b' }) := by
  unfold scSetRes
  split
  · refine ⟨fun c hc => ?_, fun c hc => ⟨c.resident, hc⟩⟩
    by_cases h : j = k / 2
    · subst h
      exact ⟨b, by simp only [tget_tmod_same, hc, Option.map_some]⟩
    · exact ⟨c.resident, by simp only [tget_tmod_other _ _ _ _ h, hc]⟩
  · refine ⟨fun c hc => ⟨c.resident, hc⟩, fun c hc => ?_⟩
    by_cases h : j = k / 2
    · subst h
      exact ⟨b, by simp only [tget_tmod_same, hc, Option.map_some]⟩
    · exact ⟨c.resident, by simp only [tget_tmod_other _ _ _ _ h, hc]⟩

/-- The tables of contexts, and the misses, that an operation leaves. -/
def SameContexts (s t : State) : Prop :=
  t.links.ingress = s.links.ingress ∧ t.links.egress = s.links.egress ∧ t.links.missS = s.links.missS

theorem scBackWrite_same (s : State) (k : Nat) : SameContexts s (scBackWrite s k) := ⟨rfl, rfl, rfl⟩

/-- Making room changes no more of a context than whether it is resident. -/
theorem scEvict_get (s : State) (j : Nat) : (scEvict s).links.missS = s.links.missS ∧
    (∀ c, tget s.links.ingress j = some c → ∃ b', tget (scEvict s).links.ingress j = some { c with resident := b' }) ∧
    (∀ c, tget s.links.egress j = some c → ∃ b', tget (scEvict s).links.egress j = some { c with resident := b' }) := by
  have hs : (∀ c, tget s.links.ingress j = some c → ∃ b', tget s.links.ingress j = some { c with resident := b' }) ∧
      (∀ c, tget s.links.egress j = some c → ∃ b', tget s.links.egress j = some { c with resident := b' }) :=
    ⟨fun c hc => ⟨c.resident, hc⟩, fun c hc => ⟨c.resident, hc⟩⟩
  unfold scEvict
  split
  · exact ⟨rfl, hs⟩
  · split
    · rename_i k _
      obtain ⟨h1, h2, h3⟩ := scBackWrite_same (scSetRes s k false) k
      have hm : (scSetRes s k false).links.missS = s.links.missS := by
        unfold scSetRes
        split <;> rfl
      rw [h1, h2]
      exact ⟨h3.trans hm, scSetRes_get s k j false⟩
    · exact ⟨rfl, hs⟩

/-- A context comes back: it is the most recently used one, and resident. -/
def scReturn (s : State) (key : Nat) : State := scTouch (scSetRes (scEvict (scBackFree s key)) key true) key

theorem scReturn_does (s : State) (key : Nat) : (scReturn s key).links.missS = s.links.missS ∧
    (scReturn s key).links.scLru.getLast? = some key ∧
    (∀ c, key % 2 = 1 → tget s.links.ingress (key / 2) = some c →
      tget (scReturn s key).links.ingress (key / 2) = some { c with resident := true }) ∧
    (∀ c, key % 2 = 0 → tget s.links.egress (key / 2) = some c →
      tget (scReturn s key).links.egress (key / 2) = some { c with resident := true }) := by
  obtain ⟨hm, hi, he⟩ := scEvict_get (scBackFree s key) (key / 2)
  unfold scReturn scSetRes
  split
  · rename_i hk
    refine ⟨hm, by simp, fun c _ hc => ?_, fun c h0 => absurd hk (by omega)⟩
    obtain ⟨b, hb⟩ := hi c hc
    simp only [scTouch_links, tget_tmod_same, hb, Option.map_some]
  · rename_i hk
    refine ⟨hm, by simp, fun c h1 => absurd h1 hk, fun c _ hc => ?_⟩
    obtain ⟨b, hb⟩ := he c hc
    simp only [scTouch_links, tget_tmod_same, hb, Option.map_some]

/-- The miss of a context is over. -/
def missOver (s : State) (key : Nat) : State := { s with links := { s.links with missS := s.links.missS.filter (· != key) } }

theorem missOver_missS (s : State) (key : Nat) : (missOver s key).links.missS.contains key = false := by simp [missOver]

theorem streamContextMissFill_runs (s : State) (key : Nat) (acc : Access) (h : engUp s = true) (hm : s.links.missS.contains key = true) :
    exec (.streamContextMissFill key acc) s = .next (finish s (match acc with
      | .ok => scReturn (missOver (quiet s) key) key
      | .err => askReset (ioEvent (missOver (quiet s) key) 0xFF 0 stInternal (key / 4 / 65536) 0 0 0) 3 0xFF 0 0x17 false
      | .poison => askReset (missOver (quiet s) key) 3 0xFF 0 0x17 false)) :=
  (runEng_run h ((when_pos hm).trans (by cases acc <;> rfl)) : execStreamContextMissFill key acc s = _)

/-- Settles O16: each miss is filled from what its key names. -/
theorem missesFilled : Obligations.MissesFilled := by
  unfold Obligations.MissesFilled
  refine fun s key h => ⟨fun hm hc hr n hn => ⟨_, (runEng_run h (when_pos hm) : execChordMissFill key s = _), chordFill_fills (quiet s) key n hc hr hn⟩,
    fun hm => ⟨⟨_, streamContextMissFill_runs s key .ok h hm, ?_⟩,
      ⟨_, streamContextMissFill_runs s key .poison h hm, missOver_missS _ _, _, rfl, rfl, rfl⟩,
      fun hl => ⟨_, streamContextMissFill_runs s key .err h hm, ?_⟩⟩⟩
  · obtain ⟨h1, h2, h3, h4⟩ := scReturn_does (missOver (quiet s) key) key
    exact ⟨h1 ▸ missOver_missS _ _, h2, h3, h4⟩
  · obtain ⟨c, w, al, q, g, e, x, hx, h1, -, -, -, h2, -⟩ := occur_room (missOver (quiet s) key)
      (mkRec 0x17 0xFF 0 0 stInternal 0 (key / 4 / 65536) 0 0 0) none (fun h => nomatch h) hl
    dsimp only
    rw [ioEvent, e]
    exact ⟨⟨_, rfl, rfl, rfl⟩, x, hx, h1, h2⟩

end Sys2Proof.Machine
end

section
/-! SUPPORT. Frames that arrive: plain, GAP, BOOT and COMBINED frames (06 R186, R205 to R207; 05 R147, R149; 07 R224, R250). -/

namespace Sys2Proof.Machine

/- Proofs are elaborated in their order, for the reason given in the first section of this kind. -/
set_option deprecated.oldSectionVars true

/-! The frame of a row's kind at the head of the staging. -/

theorem onLane_staged {s : State} {port lane : Nat} {kind : RxKind} {c : Bytes} {f : State → Nat → Bytes → State} {u : State}
    (h : engUp s = true) (hl : laneOk s port lane = true) (hc : stagedOf s (laneNo port lane) kind = some c)
    (hu : f (quiet s) (laneNo port lane) c = u) :
    onLane port lane (fun s k => match stagedOf s k kind with
      | some c => f s k c
      | none => s) s = .next (finish s u) :=
  onLane_run h hl (by rw [show stagedOf (quiet s) (laneNo port lane) kind = some c from hc]; exact hu)

theorem frameRx_runs {s u : State} {port lane : Nat} {c : Bytes} (h : engUp s = true) (hl : laneOk s port lane = true)
    (hc : stagedOf s (laneNo port lane) .plain = some c) (hu : rxPlain (quiet s) (laneNo port lane) c = u) :
    exec (.frameRx port lane) s = .next (finish s u) :=
  (onLane_staged h hl hc hu : execFrameRx port lane s = _)

theorem gapRx_runs {s u : State} {port lane : Nat} {c : Bytes} (h : engUp s = true) (hl : laneOk s port lane = true)
    (hc : stagedOf s (laneNo port lane) .gap = some c) (hu : rxGap (quiet s) (laneNo port lane) c = u) :
    exec (.gapRx port lane) s = .next (finish s u) :=
  (onLane_staged h hl hc hu : execGapRx port lane s = _)

/-- What a BOOT frame leads to. -/
def bootArrives (s : State) (k : Nat) (c : Bytes) (msg : Option SpdmReq) (sid : Option Nat) : State :=
  if !fwActs s then s else
    let r := rxBoot s k c msg.isSome (msg == some .getVersion)
    match msg with
    | some q => if r.2 then peerAnswer r.1 (Hdr.parse (c.take 32)).src q sid else r.1
    | none => r.1

theorem bootFrameRx_runs {s u : State} {port lane : Nat} {c : Bytes} (msg : Option SpdmReq) (sid : Option Nat) (h : engUp s = true)
    (hl : laneOk s port lane = true) (hc : stagedOf s (laneNo port lane) .boot = some c)
    (hu : bootArrives (quiet s) (laneNo port lane) c msg sid = u) : exec (.bootFrameRx port lane msg sid) s = .next (finish s u) :=
  (onLane_staged (f := fun s k c => bootArrives s k c msg sid) h hl hc hu : execBootFrameRx port lane msg sid s = _)

/-! Plain frames. -/

/-- The frame that passed its checks, if one did, is released. -/
def releaseAny (r : State × Option InFrame) : State :=
  match r.2 with
  | some f => release r.1 f
  | none => r.1

section
variable {s : State} {k : Nat} {c : Bytes}

theorem rxPlain_malformed (h : hdrOk (c.take 32) = false) :
    rxPlain s k c = protoErr (dropStaged (countRx s k c) k) k (Hdr.parse (c.take 32)).src := by
  unfold rxPlain
  dsimp only
  rw [if_pos (by simp [h])]

theorem rxPlain_module (h : hdrOk (c.take 32) = true) (hm : (Hdr.parse (c.take 32)).smode = 2)
    (ho : ownVertex s (Hdr.parse (c.take 32)).dst = true) (ht : (moduleTag s (Hdr.parse (c.take 32))).isSome = true) :
    rxPlain s k c = inboxPush (countEv (dropStaged (countRx s k c) k) (0x038 + k / 8) none 1)
      { hdr := Hdr.parse (c.take 32), payload := slice c 32 (Hdr.parse (c.take 32)).plen, port := k / 8, seqN := 0, comb := none } := by
  obtain ⟨t, ht⟩ := Option.isSome_iff_exists.mp ht
  unfold rxPlain
  dsimp only
  rw [if_neg (by simp [h]), if_pos hm, if_neg (by simp [ho]), ht]

/-- A sealed plain frame: it waits, or is checked. -/
theorem rxPlain_sealed (h : hdrOk (c.take 32) = true) (hm : (Hdr.parse (c.take 32)).smode ≠ 2) :
    rxPlain s k c = (if (rxMisses s (Hdr.parse (c.take 32))).2 || inputHolds s (Hdr.parse (c.take 32)) then (rxMisses s (Hdr.parse (c.take 32))).1
      else releaseAny (rxSealed (dropStaged (countRx (rxMisses s (Hdr.parse (c.take 32))).1 k c) k) k (Hdr.parse (c.take 32)) c)) := by
  unfold rxPlain
  dsimp only
  rw [if_neg (by simp [h]), if_neg hm]
  rfl

theorem rxPlain_misses (h : hdrOk (c.take 32) = true) (hm : (Hdr.parse (c.take 32)).smode ≠ 2) {w : State}
    (hw : rxMisses s (Hdr.parse (c.take 32)) = (w, true)) : rxPlain s k c = w := by
  rw [rxPlain_sealed h hm, hw]
  rfl

theorem rxPlain_holds (h : hdrOk (c.take 32) = true) (hm : (Hdr.parse (c.take 32)).smode ≠ 2)
    (hi : inputHolds s (Hdr.parse (c.take 32)) = true) : rxPlain s k c = (rxMisses s (Hdr.parse (c.take 32))).1 := by
  rw [rxPlain_sealed h hm, if_pos (by simp [hi])]

theorem rxPlain_releases (h : hdrOk (c.take 32) = true) (hm : (Hdr.parse (c.take 32)).smode ≠ 2)
    (hi : inputHolds s (Hdr.parse (c.take 32)) = false) {w r : State} {f : InFrame} (hw : rxMisses s (Hdr.parse (c.take 32)) = (w, false))
    (hr : rxSealed (dropStaged (countRx w k c) k) k (Hdr.parse (c.take 32)) c = (r, some f)) : rxPlain s k c = release r f := by
  rw [rxPlain_sealed h hm, hw, hi]
  simp only [Bool.or_self, Bool.false_eq_true, if_false, hr, releaseAny]

/-! GAP frames. -/

theorem rxGap_acknowledges (h : hdrOk (c.take 32) = true) (hp : (Hdr.parse (c.take 32)).plen = 0) {w r : State} {f : InFrame}
    (hw : rxMisses s (Hdr.parse (c.take 32)) = (w, false))
    (hr : rxSealed (dropStaged (countRx w k c) k) k (Hdr.parse (c.take 32)) c = (r, some f)) :
    rxGap s k c = pushEack r (Hdr.parse (c.take 32)).src (Hdr.parse (c.take 32)).tc (ackTag (Hdr.parse (c.take 32)) f.payload) stOk false := by
  unfold rxGap
  dsimp only
  rw [if_neg (by simp [h, hp]), hw]
  simp only [Bool.false_eq_true, if_false, hr]

/-! BOOT frames. -/

theorem bootArrives_rests (msg : Option SpdmReq) (sid : Option Nat) (h : fwActs s = false) : bootArrives s k c msg sid = s := by
  rw [bootArrives, if_pos (by simp [h])]

theorem bootArrives_done (msg : Option SpdmReq) (sid : Option Nat) (h : fwActs s = true)
    (hm : msg = none ∨ (rxBoot s k c msg.isSome (msg == some .getVersion)).2 = false) :
    bootArrives s k c msg sid = (rxBoot s k c msg.isSome (msg == some .getVersion)).1 := by
  rw [bootArrives, if_neg (by simp [h])]
  cases msg with
  | none => rfl
  | some q =>
    have hr := hm.resolve_left nofun
    dsimp only at hr ⊢
    rw [hr]
    rfl

theorem bootArrives_answers (q : SpdmReq) (sid : Option Nat) (h : fwActs s = true)
    (hr : (rxBoot s k c (some q).isSome (some q == some .getVersion)).2 = true) : bootArrives s k c (some q) sid =
      peerAnswer (rxBoot s k c (some q).isSome (some q == some .getVersion)).1 (Hdr.parse (c.take 32)).src q sid := by
  rw [bootArrives, if_neg (by simp [h])]
  dsimp only
  rw [hr]
  rfl

theorem countEv_dom (s : State) (ev : Nat) (p : Option Nat) (n : Nat) : (countEv s ev p n).dom = s.dom := by
  obtain ⟨c, d, w, f, e⟩ := countEv_counts s ev p n
  rw [e]

theorem rxBoot_passes (opens : Bool) (h : hdrOk (c.take 32) = true) (hb : (Hdr.parse (c.take 32)).mbxs = false)
    (ho : ownVertex (dropStaged (countRx s k c) k) (Hdr.parse (c.take 32)).dst = true)
    (ha : bootAdmitted (dropStaged (countRx s k c) k) (Hdr.parse (c.take 32)).src opens = true)
    (ht : tagOk 0 (Hdr.parse (c.take 32)) (Hdr.parse (c.take 32)).seqLo c = true) :
    (rxBoot s k c true opens).2 = true ∧ (opens = true →
      ((dropStaged (countRx s k c) k).dom.enrol.any (fun e => e.parent == (Hdr.parse (c.take 32)).src && !e.committed)) = false →
      (Hdr.parse (c.take 32)).src ∈ (rxBoot s k c true opens).1.dom.opening) := by
  unfold rxBoot
  dsimp only
  rw [if_neg (by simp [h, hb]), if_neg (by simp [ho]), if_neg (by simp [ha]), if_neg (by rw [ht]; exact Bool.false_ne_true), countEv_dom]
  split
  · exact ⟨rfl, fun _ _ => by simp⟩
  · rename_i hn
    refine ⟨rfl, fun hop he => ?_⟩
    rw [countEv_dom]
    by_contra hc
    refine hn ?_
    rw [hop, he]
    simpa using hc

end

/-! COMBINED frames. -/

/-- An open atomic: its response may leave in a COMBINED frame (07 R240). -/
def openAtomic (f : InFrame) : Bool := f.hdr.op == opReq && leAt f.payload 4 1 % 16 == kAtomic && decide (128 ≤ leAt f.payload 4 1)

/-- Release a record, with its place among the open atomics of its frame. -/
def releaseRec (g n : Nat) (a : State × Nat) (f : InFrame) : State × Nat :=
  let f := if openAtomic f then { f with comb := some (g, a.2, n) } else f
  (release a.1 f, if openAtomic f then a.2 + 1 else a.2)

/-- The frame counts. -/
def combNext (s : State) : State := { s with fab := { s.fab with combN := s.fab.combN + 1 } }

/-- The records of a COMBINED frame that pass are released and applied. -/
def applyRecs (r : State × List InFrame) : State :=
  runInbox (r.2.foldl (releaseRec r.1.fab.combN (r.2.filter openAtomic).length) (combNext r.1, 0)).1

theorem combinedRx_runs {s : State} {port lane : Nat} {c : Bytes} (h : engUp s = true) (hl : laneOk s port lane = true)
    (hc : stagedFrame s (laneNo port lane) = some c) (hk : rxKind (c.take 32) = .combined) :
    exec (.combinedRx port lane) s = .next (finish s (applyRecs (rxCombined (quiet s) (laneNo port lane) c))) := by
  refine (runEng_run h ?_ : execCombinedRx port lane s = _)
  dsimp only
  rw [if_neg (by rw [show (portOk (quiet s) port && decide (lane < 8)) = true from hl]; simp),
    show stagedFrame (quiet s) (port * 8 + lane) = some c from hc]
  dsimp only
  rw [if_neg (by simp [hk])]
  rfl

/-- A request or a response at an unmirrored block stands before its engine at once. -/
theorem release_engine (s : State) (f : InFrame) (ho : f.hdr.op = opReq ∨ f.hdr.op = opRsp) (hm : mirrored s = false) :
    release s f = inboxPush s f := by
  have hn : ¬(f.hdr.op = opReduce ∨ f.hdr.op = opMgmt ∨ f.hdr.op = opDump) := by
    rcases ho with h | h <;> rw [h] <;> decide
  unfold release
  rw [if_neg hn]
  dsimp only
  rw [if_neg (by simp [hm])]

theorem openAtomic_op (f : InFrame) (h : openAtomic f = true) : f.hdr.op = opReq := by
  simp only [openAtomic, Bool.and_eq_true, beq_iff_eq] at h
  exact h.1.1

/-- An open atomic with its place in its frame. -/
def placed (f : InFrame) (g i n : Nat) : InFrame := { f with comb := some (g, i, n) }

theorem releaseRec_open (g n : Nat) (a : State × Nat) (f : InFrame) (h : openAtomic f = true) (hm : mirrored a.1 = false) :
    releaseRec g n a f = (inboxPush a.1 (placed f g a.2 n), a.2 + 1) := by
  have h' : openAtomic (placed f g a.2 n) = true := h
  unfold releaseRec
  dsimp only
  rw [if_pos h]
  rw [show ({ f with comb := some (g, a.2, n) } : InFrame) = placed f g a.2 n from rfl, if_pos h',
    release_engine _ _ (.inl (openAtomic_op _ h')) hm]

theorem releaseRec_alone (g n : Nat) (a : State × Nat) (f : InFrame) (h : openAtomic f = false) (ho : f.hdr.op = opReq ∨ f.hdr.op = opRsp)
    (hm : mirrored a.1 = false) : releaseRec g n a f = (inboxPush a.1 f, a.2) := by
  unfold releaseRec
  dsimp only
  rw [if_neg (by simp [h]), if_neg (by simp [h]), release_engine _ _ ho hm]

/-- The released frames, as they stand in an empty inbox. -/
theorem inboxPush_first (s : State) (f : InFrame) (h : s.fab.inbox = []) :
    inboxPush s f = { s with fab := { s.fab with inbox := [f] } } := by
  rw [inboxPush, h]
  rfl

/-- The inbox of requests and responses is applied in order, and is empty. -/
theorem runInbox_all (s : State) (fs : List InFrame) (h : s.fab.inbox = []) (ho : ∀ f ∈ fs, f.hdr.op = opReq ∨ f.hdr.op = opRsp) :
    runInbox { s with fab := { s.fab with inbox := fs } } = fs.foldl (fun s f => if f.hdr.op = opReq then homeReq s f else rspRx s f) s := by
  have h1 : fs.filter (fun f => f.hdr.op == opReq || f.hdr.op == opRsp) = fs :=
    List.filter_eq_self.mpr fun f hf => by rcases ho f hf with h | h <;> simp [h]
  have h2 : fs.filter (fun f => !(f.hdr.op == opReq || f.hdr.op == opRsp)) = [] :=
    List.filter_eq_nil_iff.mpr fun f hf => by rcases ho f hf with h | h <;> simp [h]
  have h3 : ({ s with fab := { s.fab with inbox := [] } } : State) = s := by rw [← h]
  unfold runInbox
  dsimp only
  rw [h1, h2]
  exact congrArg (fun t => fs.foldl (fun s f => if f.hdr.op = opReq then homeReq s f else rspRx s f) t) h3

theorem applyRecs_none (r : State) (hi : r.fab.inbox = []) : applyRecs (r, []) = combNext r := by
  have hx := runInbox_all (combNext r) [] hi (by simp)
  rw [show ({ combNext r with fab := { (combNext r).fab with inbox := [] } } : State) = combNext r by
    rw [show ([] : List InFrame) = (combNext r).fab.inbox from hi.symm]] at hx
  exact hx

theorem applyRecs_one {r : State} {f : InFrame} (hm : mirrored r = false) (hi : r.fab.inbox = []) (h : openAtomic f = false)
    (ho : f.hdr.op = opReq ∨ f.hdr.op = opRsp) :
    applyRecs (r, [f]) = if f.hdr.op = opReq then homeReq (combNext r) f else rspRx (combNext r) f := by
  unfold applyRecs
  rw [List.foldl_cons, releaseRec_alone _ _ _ f h ho hm, List.foldl_nil]
  dsimp only
  rw [inboxPush_first (combNext r) _ hi]
  exact runInbox_all (combNext r) [f] hi (by simpa using ho)

theorem applyRecs_atomic {r : State} {f : InFrame} (hm : mirrored r = false) (hi : r.fab.inbox = []) (h : openAtomic f = true) :
    applyRecs (r, [f]) = homeReq (combNext r) (placed f r.fab.combN 0 1) := by
  have ho := openAtomic_op f h
  unfold applyRecs
  rw [show [f].filter openAtomic = [f] by simp [h], List.foldl_cons, releaseRec_open _ _ _ f h hm, List.foldl_nil]
  dsimp only
  rw [inboxPush_first (combNext r) _ hi]
  exact (runInbox_all (combNext r) [placed f r.fab.combN 0 1] hi (by simpa using .inl ho)).trans (if_pos ho)

theorem applyRecs_atomics {r : State} {f g : InFrame} (hm : mirrored r = false) (hi : r.fab.inbox = []) (hf : openAtomic f = true)
    (hg : openAtomic g = true) : applyRecs (r, [f, g]) =
      homeReq (homeReq (combNext r) (placed f r.fab.combN 0 2)) (placed g r.fab.combN 1 2) := by
  have ho := openAtomic_op f hf
  have ho' := openAtomic_op g hg
  unfold applyRecs
  rw [show [f, g].filter openAtomic = [f, g] by simp [hf, hg], List.foldl_cons, releaseRec_open _ _ _ f hf hm, List.foldl_cons,
    releaseRec_open _ _ _ g hg hm, List.foldl_nil]
  dsimp only
  rw [inboxPush_first (combNext r) _ hi]
  refine (runInbox_all (combNext r) [placed f r.fab.combN 0 2, placed g r.fab.combN 1 2] hi fun x hx => ?_).trans ?_
  · simp only [List.mem_cons, List.not_mem_nil, or_false] at hx
    rcases hx with rfl | rfl
    · exact .inl ho
    · exact .inl ho'
  · simp only [List.foldl_cons, List.foldl_nil, placed, ho, ho', if_true]

/-- An alarm leaves what waits at the fabric: the inbox, the homes and the count of COMBINED frames. -/
theorem occur_inbox (s : State) (r : AlarmRec) (ch : Option Nat) : (occur s r ch).fab.inbox = s.fab.inbox ∧
    (occur s r ch).fab.homes = s.fab.homes ∧ (occur s r ch).fab.combN = s.fab.combN := by
  have hn : ∀ {s t : State}, Noted s t → t.fab = s.fab := by
    rintro s t ⟨c, w, al, q, g, st, e, rfl⟩
    rfl
  rcases occur_cases s r ch with h | ⟨v, n, h, e⟩
  · rw [hn h]
    exact ⟨rfl, rfl, rfl⟩
  · rw [e, ← hn h]
    cases hv : v.aon.haltReq with
    | true => rw [haltBlock_again v n hv]; exact ⟨rfl, rfl, rfl⟩
    | false =>
      obtain ⟨o, ln, tv, lq, al, q, g, gr, tx, e'⟩ := haltBlock_halted v n hv
      rw [e']
      exact ⟨rfl, rfl, rfl⟩

theorem fab_dropStaged_countRx (s : State) (k : Nat) (c : Bytes) : (dropStaged (countRx s k c) k).fab = s.fab := by
  have h : (countRx s k c).fab = s.fab := by
    obtain ⟨d, n, w, f, e⟩ := countEv_counts s (0x018 + k / 8)
      (if (Hdr.parse (c.take 32)).smode < 2 then ownerPart (ownerOf (Hdr.parse (c.take 32)).stream) else none) (nflOf c)
    exact (congrArg (·.fab) e)
  unfold dropStaged
  dsimp only
  split
  · exact h
  · exact h

theorem applyRecs_malformed (s : State) (k : Nat) (c : Bytes) (h : hdrOk (c.take 32) = false) (hi : s.fab.inbox = []) :
    (applyRecs (rxCombined s k c)).fab.inbox = [] ∧ (applyRecs (rxCombined s k c)).fab.homes = s.fab.homes ∧
      (applyRecs (rxCombined s k c)).fab.combN = s.fab.combN + 1 := by
  have hc : combOk s (c.take 32) = false := by simp [combOk, h]
  have e : rxCombined s k c = (protoErr (dropStaged (countRx s k c) k) k (Hdr.parse (c.take 32)).src, []) := by
    unfold rxCombined
    dsimp only
    rw [if_pos (by simp [hc])]
  obtain ⟨h1, h2, h3⟩ := occur_inbox (bump (setBits (dropStaged (countRx s k c) k) (lpOff (k / 8) 0x10) 2) (lpOff (k / 8) 0x34))
    (mkRec 0x02 0xFF (k / 8) (k % 8) 0 0 (Hdr.parse (c.take 32)).src 0 0 0) none
  have hd := fab_dropStaged_countRx s k c
  have g1 : (protoErr (dropStaged (countRx s k c) k) k (Hdr.parse (c.take 32)).src).fab.inbox = [] :=
    h1.trans ((congrArg (·.inbox) hd).trans hi)
  have g2 : (protoErr (dropStaged (countRx s k c) k) k (Hdr.parse (c.take 32)).src).fab.homes = s.fab.homes :=
    h2.trans (congrArg (·.homes) hd)
  have g3 : (protoErr (dropStaged (countRx s k c) k) k (Hdr.parse (c.take 32)).src).fab.combN = s.fab.combN :=
    h3.trans (congrArg (·.combN) hd)
  rw [e]
  generalize protoErr (dropStaged (countRx s k c) k) k (Hdr.parse (c.take 32)).src = p at g1 g2 g3
  rw [applyRecs_none p g1]
  exact ⟨g1, g2, by rw [← g3]; rfl⟩

theorem openAtomic_of (f : InFrame) (h1 : f.hdr.op = opReq) (h2 : leAt f.payload 4 1 % 16 = kAtomic) (h3 : 128 ≤ leAt f.payload 4 1) :
    openAtomic f = true := by simp [openAtomic, h1, h2, h3]

/-- Settles O15: each kind of frame by what its checks say, and the records of a COMBINED frame in their order. -/
theorem frameArrives : Obligations.FrameArrives := by
  unfold Obligations.FrameArrives
  intro s port lane c h hl k hd q
  refine ⟨fun hc => ⟨fun h1 => frameRx_runs h hl hc (rxPlain_malformed h1),
      fun h1 h2 h3 h4 => frameRx_runs h hl hc (rxPlain_module h1 h2 h3 h4),
      fun h1 h2 w hw => frameRx_runs h hl hc (rxPlain_misses h1 h2 hw),
      fun h1 h2 hi => frameRx_runs h hl hc (rxPlain_holds h1 h2 hi),
      fun h1 h2 hi w r f hw hr => frameRx_runs h hl hc (rxPlain_releases (s := quiet s) h1 h2 hi hw hr)⟩,
    fun hc h1 h2 w r f hw hr => gapRx_runs h hl hc (rxGap_acknowledges h1 h2 hw hr), fun hc msg sid => ⟨fun ha =>
      bootFrameRx_runs msg sid h hl hc (bootArrives_rests msg sid ha), fun ha => ⟨fun hm =>
      bootFrameRx_runs msg sid h hl hc (bootArrives_done msg sid ha hm), fun m hm hr => ?_, fun m hm h1 h2 h3 h4 h5 => ?_⟩⟩,
    fun hc hk hi => ⟨fun h1 => ⟨_, combinedRx_runs h hl hc hk, applyRecs_malformed (quiet s) k c h1 hi⟩,
      fun r f hr hm hi => ⟨fun ho => ?_, fun ho ha => ?_, fun ho h1 h2 => ?_⟩, fun r f g hr hm hi ha => ?_⟩⟩
  · subst hm
    exact bootFrameRx_runs _ sid h hl hc (bootArrives_answers m sid ha hr)
  · subst hm
    obtain ⟨g1, g2⟩ := rxBoot_passes (s := quiet s) (k := k) (c := c) (some m == some .getVersion) h1 h2 h3 h4 h5
    exact ⟨g1, fun hv he => g2 (by rw [hv]; rfl) he⟩
  · have hn : openAtomic f = false := by simp [openAtomic, ho, opRsp, opReq]
    rw [combinedRx_runs h hl hc hk, hr, applyRecs_one hm hi hn (.inr ho), if_neg (by rw [ho]; decide)]
    rfl
  · have hn : openAtomic f = false := by simp [openAtomic, ha]
    rw [combinedRx_runs h hl hc hk, hr, applyRecs_one hm hi hn (.inl ho), if_pos ho]
    rfl
  · rw [combinedRx_runs h hl hc hk, hr, applyRecs_atomic hm hi (openAtomic_of f ho h1 h2)]
    rfl
  · have hx : ∀ x ∈ [f, g], openAtomic x = true := fun x hx => openAtomic_of x (ha x hx).1 (ha x hx).2.1 (ha x hx).2.2
    rw [combinedRx_runs h hl hc hk, hr, applyRecs_atomics hm hi (hx f (by simp)) (hx g (by simp))]
    rfl

end Sys2Proof.Machine
end

section
/-! SUPPORT. Frames that leave, their timers, and what retires them (06 R190; 07 R223 to R234). -/

namespace Sys2Proof.Machine

/- Proofs are elaborated in their order, for the reason given in the first section of this kind. -/
set_option deprecated.oldSectionVars true

/-! Responses and records that arrive. -/

/-- The one released frame, taken by its engine. -/
theorem popInbox_one (s : State) (f : InFrame) (p : InFrame → Bool) (h : s.fab.inbox = [f]) (hp : p f = true) :
    popInbox s p = some (f, { s with fab := { s.fab with inbox := [] } }) := by
  simp [popInbox, h, List.findIdx?_cons, hp]

theorem rspRx_runs {s u : State} {f : InFrame} (h : engUp s = true) (hi : s.fab.inbox = [f]) (ho : f.hdr.op = opRsp)
    (hu : rspRx { quiet s with fab := { s.fab with inbox := [] } } f = u) : exec .rspRx s = .next (finish s u) :=
  (runEng_run h (by rw [popInbox_one (quiet s) f _ hi (by simp [ho])]; exact hu) : execRspRx s = _)

theorem rspRx_stale (s : State) (f : InFrame) (h : tagByRtag s f.hdr.src (leAt f.payload 0 4) (fun o => o == opReq) = none) :
    rspRx s f = bump (pushEack s f.hdr.src f.hdr.tc (leAt f.payload 8 4) stOk false) 0x1A038 := by
  unfold rspRx
  dsimp only
  rw [show tagByRtag (pushEack s f.hdr.src f.hdr.tc (leAt f.payload 8 4) stOk false) f.hdr.src (leAt f.payload 0 4) (fun o => o == opReq) =
    none from h]

theorem rspRx_bad (s : State) (f : InFrame) (t : Nat) (e : TagEnt)
    (h : tagByRtag s f.hdr.src (leAt f.payload 0 4) (fun o => o == opReq) = some (t, e)) (hb : rspBad f.hdr f.payload e = true) :
    rspRx s f = retire (pushEack s f.hdr.src f.hdr.tc (leAt f.payload 8 4) stOk false) t stBadParam [] 0 := by
  unfold rspRx
  dsimp only
  rw [show tagByRtag (pushEack s f.hdr.src f.hdr.tc (leAt f.payload 8 4) stOk false) f.hdr.src (leAt f.payload 0 4) (fun o => o == opReq) =
    some (t, e) from h]
  exact if_pos hb

theorem rspRx_status (s : State) (f : InFrame) (t : Nat) (e : TagEnt)
    (h : tagByRtag s f.hdr.src (leAt f.payload 0 4) (fun o => o == opReq) = some (t, e)) (hb : rspBad f.hdr f.payload e = false)
    (hs : leAt f.payload 5 1 ≠ stOk) :
    rspRx s f = retire (pushEack s f.hdr.src f.hdr.tc (leAt f.payload 8 4) stOk false) t (leAt f.payload 5 1) [] 0 := by
  unfold rspRx
  dsimp only
  rw [show tagByRtag (pushEack s f.hdr.src f.hdr.tc (leAt f.payload 8 4) stOk false) f.hdr.src (leAt f.payload 0 4) (fun o => o == opReq) =
    some (t, e) from h]
  dsimp only
  rw [if_neg (by simp [hb]), if_neg hs]

theorem rspRx_ok (s : State) (f : InFrame) (t : Nat) (e : TagEnt)
    (h : tagByRtag s f.hdr.src (leAt f.payload 0 4) (fun o => o == opReq) = some (t, e)) (hb : rspBad f.hdr f.payload e = false)
    (hs : leAt f.payload 5 1 = stOk) (hk : e.kind ≠ kAtomic) : rspRx s f =
      retire (pushEack s f.hdr.src f.hdr.tc (leAt f.payload 8 4) stOk false) t stOk (f.payload.drop 16) (leAt f.payload 12 4) := by
  unfold rspRx
  dsimp only
  rw [show tagByRtag (pushEack s f.hdr.src f.hdr.tc (leAt f.payload 8 4) stOk false) f.hdr.src (leAt f.payload 0 4) (fun o => o == opReq) =
    some (t, e) from h]
  dsimp only
  rw [if_neg (by simp [hb]), if_pos hs, hs, if_neg (fun ⟨ha, _⟩ => hk ha)]

/-- A frame of one record. -/
theorem eackRx_runs {s u : State} {f : InFrame} (h : engUp s = true) (hi : s.fab.inbox = [f]) (ho : f.hdr.op = opEack)
    (hl : f.payload.length = 8) (hu : eackRec { quiet s with fab := { s.fab with inbox := [] } } f.hdr.src f.hdr.tc f.payload = u) :
    exec .eackRx s = .next (finish s u) := by
  have hr : eackRecs (f.payload.length / 8) f.payload = [f.payload] := by
    rw [hl]
    show [f.payload.take 8] = [f.payload]
    rw [List.take_of_length_le (by omega)]
  refine (runEng_run h ?_ : execEackRx s = _)
  rw [popInbox_one (quiet s) f _ hi (by simp [ho])]
  dsimp only
  rw [hr]
  exact hu

/-- What a record's number names, where no frame without an RTAG of its own does. -/
theorem eackRec_eq (s : State) (peer tc : Nat) (r : Bytes) (h : tagBySeq s peer tc (leAt r 0 4) = none) : eackRec s peer tc r =
    match tagByRtag s peer (leAt r 0 4) (fun o => o == opReq || o == opRsp) with
    | none => bump s 0x1A038
    | some (t, e) =>
      if !(leAt r 5 1 % 2 == 1) then retire s t (leAt r 4 1) [] 0
      else if e.op = opReq then setTag s t { e with state := 3 }
      else retire s t stOk [] 0 := by
  unfold eackRec
  dsimp only
  rw [h] <;> rfl

/-- Settles O19: a response and a record by the tag that each names. -/
theorem acknowledged : Obligations.Acknowledged := by
  unfold Obligations.Acknowledged
  intro s f h hi q
  have hg : tagByRtag q f.hdr.src (leAt f.payload 0 4) (fun o => o == opReq || o == opRsp) =
    tagByRtag s f.hdr.src (leAt f.payload 0 4) (fun o => o == opReq || o == opRsp) := rfl
  refine ⟨fun ho => ⟨fun hn => rspRx_runs h hi ho (rspRx_stale q f hn), fun t e ht => ⟨fun hb => rspRx_runs h hi ho (rspRx_bad q f t e ht hb),
      fun hb hs => rspRx_runs h hi ho (rspRx_status q f t e ht hb hs), fun hb hs hk => rspRx_runs h hi ho (rspRx_ok q f t e ht hb hs hk)⟩⟩,
    fun ho hl hn => ⟨fun hr => eackRx_runs h hi ho hl ?_, fun t e ht => ⟨fun hd => eackRx_runs h hi ho hl ?_,
      fun hd he => eackRx_runs h hi ho hl ?_, fun hd he => eackRx_runs h hi ho hl ?_⟩⟩⟩
  · rw [eackRec_eq q _ _ _ hn, hg, hr]
  · rw [eackRec_eq q _ _ _ hn, hg, ht]
    exact if_pos (by simp [hd])
  · rw [eackRec_eq q _ _ _ hn, hg, ht]
    dsimp only
    rw [if_neg (by simp [hd]), if_pos he]
  · rw [eackRec_eq q _ _ _ hn, hg, ht]
    dsimp only
    rw [if_neg (by simp [hd]), if_neg he]

/-! What leaves: what the way out keeps of the tags and of the queue. -/

/-- The tags, the queue, the generations and the partitions' shares. -/
def sendView (s : State) : Tbl TagEnt × List TxFrame × Tbl Nat × Tbl PartRec := (s.fab.tags, s.fab.txq, s.fab.tagGen, s.parts.part)

theorem Counts.sendView {s t : State} (h : Counts s t) : sendView t = sendView s := by
  obtain ⟨c, n, w, f, rfl⟩ := h
  rfl

theorem sendView_mirrorRec (s : State) (r : Mirror) : sendView (mirrorRec s r) = sendView s := by
  unfold mirrorRec
  split <;> rfl

theorem sendView_scSetRes (s : State) (k : Nat) (b : Bool) : sendView (scSetRes s k b) = sendView s := by
  unfold scSetRes
  split <;> rfl

theorem sendView_scEvict (s : State) : sendView (scEvict s) = sendView s := by
  unfold scEvict
  split
  · rfl
  · split
    · exact sendView_scSetRes s _ false
    · rfl

theorem sendView_deriveFrom (s : State) (k : Bytes) (l : String) (c : Bytes) : sendView (deriveFrom s k l c).2 = sendView s :=
  (absorb_counts (countEv s 0x0A1 none 1) k _).choose_spec.sendView.trans (countEv_counts s 0x0A1 none 1).sendView

theorem sendView_chordRoll (s : State) (k : Nat) (c : Chord) (g : Nat) : sendView (chordRoll s k c g) = sendView s :=
  sendView_deriveFrom _ _ _ _

theorem sendView_setChord (s : State) (k : Nat) (c : Chord) : sendView (setChord s k c) = sendView s := rfl
theorem sendView_egMod (s : State) (k : Nat) (f : Egress → Egress) : sendView (egMod s k f) = sendView s := rfl
theorem sendView_scTouch (s : State) (k : Nat) : sendView (scTouch s k) = sendView s := rfl
theorem sendView_freeN (s : State) : sendView (freeN s).2 = sendView s := rfl
theorem sendView_links (s : State) (l : Links) : sendView { s with links := l } = sendView s := rfl

/-- The egress context of a frame is there, or is opened (06 R190, R202). -/
def ctxOpened (s : State) (key : Nat) : State :=
  match tget s.links.egress key with
  | some _ => s
  | none =>
    let s := scEvict s
    let c : Egress := { next := 0, limit := 256, outstanding := 0, resident := true, closing := false, gap := none,
                        jump := false }
    mirrorRec { s with links := { s.links with egress := tset s.links.egress key c } } (.egress key c)

/-- The context gives a sequence, and its limit rises when it must (06 R190). -/
def seqTaken (s : State) (key : Nat) : Nat × State :=
  let c := tgetD s.links.egress key { next := 0, limit := 256, outstanding := 0, resident := true, closing := false,
                                      gap := none, jump := false }
  let seqN := if c.jump then c.limit else c.next
  let raise := c.limit < seqN + 1 + 128
  let s := egMod s key (fun c => { c with
    next := seqN + 1, jump := false, limit := if raise then c.limit + 256 else c.limit,
    outstanding := c.outstanding + 1 })
  let s := match if raise then tget s.links.egress key else none with
    | some c => mirrorRec s (.egress key c)
    | none => s
  (seqN, scTouch s (scKey key false))

/-- The Chord moves on once its generation is used up. -/
def chordReady (s : State) (ck : Nat) : State :=
  match tget s.links.chord ck with
  | some c => if 2 ^ 32 ≤ c.count then chordRoll s ck c (c.gen + 1) else s
  | none => s

/-- The Chord counts a frame. -/
def chordUsed (s : State) (ck : Nat) : State :=
  match tget s.links.chord ck with
  | none => s
  | some c => setChord s ck { c with count := c.count + 1 }

/-- The seal itself, `g` under the Chord in force. -/
def sealedWith (s : State) (ck n : Nat) (p : Bool) (g : Chord → Bytes) : (Bytes × Nat × Bool) × State :=
  match tget s.links.chord ck with
  | none => (([], n, p), s)
  | some c => ((g c, n, p), setChord s ck { c with count := c.count + 1 })

theorem sealedWith_snd (s : State) (ck n : Nat) (p : Bool) (g : Chord → Bytes) : (sealedWith s ck n p g).2 = chordUsed s ck := by
  unfold sealedWith chordUsed
  cases tget s.links.chord ck <;> rfl

theorem sealNext_sealed (s : State) (f : TxFrame) (r : Nat) (h1 : f.smode ≠ 2) (h2 : f.boot = false) : ∃ n g, sealNext s f r =
    sealedWith (chordReady (seqTaken (ctxOpened s (streamKey f.dst (txStream f) (txPar s f))) (streamKey f.dst (txStream f) (txPar s f))).2
      (chordKey f.dst 0 (txPar s f))) (chordKey f.dst 0 (txPar s f)) n (txPar s f) g := by
  unfold sealNext
  dsimp only
  rw [if_neg h1, if_neg (by simp [h2])]
  exact ⟨_, _, rfl⟩

theorem sendView_ctxOpened (s : State) (key : Nat) : sendView (ctxOpened s key) = sendView s := by
  unfold ctxOpened
  split
  · rfl
  · exact (sendView_mirrorRec _ _).trans (sendView_scEvict s)

theorem sendView_seqTaken (s : State) (key : Nat) : sendView (seqTaken s key).2 = sendView s := by
  unfold seqTaken
  dsimp only
  rw [sendView_scTouch]
  split
  · exact sendView_mirrorRec _ _
  · rfl

theorem sendView_chordReady (s : State) (ck : Nat) : sendView (chordReady s ck) = sendView s := by
  unfold chordReady
  split
  · split
    · exact sendView_chordRoll _ _ _ _
    · rfl
  · rfl

theorem sendView_chordUsed (s : State) (ck : Nat) : sendView (chordUsed s ck) = sendView s := by
  unfold chordUsed
  split <;> rfl

theorem sendView_sealNext (s : State) (f : TxFrame) (r : Nat) : sendView (sealNext s f r).2 = sendView s := by
  by_cases h1 : f.smode = 2
  · unfold sealNext
    dsimp only
    rw [if_pos h1]
  · cases h2 : f.boot with
    | true =>
      unfold sealNext
      dsimp only
      rw [if_neg h1, if_pos h2]
      rfl
    | false =>
      obtain ⟨n, g, e⟩ := sealNext_sealed s f r h1 h2
      rw [e, sealedWith_snd, sendView_chordUsed, sendView_chordReady, sendView_seqTaken, sendView_ctxOpened]

/-- The tags and the queue. -/
def tagView (s : State) : Tbl TagEnt × List TxFrame := (s.fab.tags, s.fab.txq)

theorem tagView_of_sendView {s t : State} (h : sendView t = sendView s) : tagView t = tagView s :=
  congrArg (fun v => (v.1, v.2.1)) h

theorem Counts.tagView {s t : State} (h : Counts s t) : tagView t = tagView s := tagView_of_sendView h.sendView

theorem tagView_emitsHeld (s : State) (o : List Output) : tagView (emitsHeld s o) = tagView s := by
  unfold emitsHeld
  split <;> rfl

theorem tagView_sendFlits (s : State) (k : Nat) (cs : List Bytes) (ts : List Nat) (p : Option Nat) :
    tagView (sendFlits s k cs ts p) = tagView s := by
  unfold sendFlits
  dsimp only
  rw [(countAon_counts _ _ _).tagView, (countEv_counts _ _ _ _).tagView, tagView_emitsHeld]
  rfl

theorem tagView_chargeLane (s : State) (o tc n p : Nat) : tagView (chargeLane s o tc n p) = tagView s := by
  unfold chargeLane
  dsimp only
  split
  · exact (countEv_counts _ _ _ _).tagView
  · split
    · exact (countEv_counts _ _ _ _).tagView
    · split
      · exact ((countEv_counts _ _ _ _).tagView).trans (countEv_counts _ _ _ _).tagView
      · exact (countEv_counts _ _ _ _).tagView

theorem placeFrame_tagView (s : State) (d st : Nat) (r : Bool) (n pick k : Nat) (t : State) (h : placeFrame s d st r n pick = some (k, t)) :
    tagView t = tagView s := by
  unfold placeFrame at h
  dsimp only at h
  split at h
  · obtain ⟨_, -, e⟩ := Option.map_eq_some_iff.mp h
    obtain rfl : s = t := congrArg (·.2) e
    rfl
  · split at h
    · cases h
    · obtain ⟨_, -, e⟩ := Option.map_eq_some_iff.mp h
      obtain rfl := congrArg (·.2) e
      rfl

/-- What the sending of a tag leaves of its entry. -/
def SameFrame (e e' : TagEnt) : Prop :=
  (e'.state = 1 ∨ e'.state = 2) ∧ e'.gen = e.gen ∧ e'.dst = e.dst ∧ e'.op = e.op ∧ e'.tc = e.tc ∧ e'.stream = e.stream ∧
  e'.origin = e.origin ∧ e'.owner = e.owner ∧ e'.cover = e.cover ∧ e'.sends = e.sends

/-- A tag in STATE 1 waits, or has been sent; no other tag and no queued frame changes. -/
theorem sendTag_sends (s : State) (t pick : Nat) (e : TagEnt) (h : tget s.fab.tags t = some e) (h1 : e.state = 1) :
    ∃ e', SameFrame e e' ∧ tget (sendTag s t pick).fab.tags t = some e' ∧
      (∀ i, i ≠ t → tget (sendTag s t pick).fab.tags i = tget s.fab.tags i) ∧ (sendTag s t pick).fab.txq = s.fab.txq := by
  have hs : SameFrame e e := ⟨.inl h1, rfl, rfl, rfl, rfl, rfl, rfl, rfl, rfl, rfl⟩
  unfold sendTag
  rw [h]
  dsimp only
  rw [if_neg (by simp [h1])]
  split
  · exact ⟨e, hs, h, fun _ _ => rfl, rfl⟩
  · split
    · exact ⟨e, hs, h, fun _ _ => rfl, rfl⟩
    · rename_i k u hp
      have hv := placeFrame_tagView s _ _ _ _ _ _ _ hp
      generalize hw : chargeLane _ _ _ _ _ = w
      have hview : ∃ e' : TagEnt, SameFrame e e' ∧ tagView w = (tset u.fab.tags t e', u.fab.txq) := by
        subst hw
        refine ⟨_, ?_, (tagView_chargeLane _ _ _ _ _).trans ((tagView_sendFlits _ _ _ _ _).trans
          (tagView_of_sendView (sendView_mirrorRec _ _)))⟩
        exact ⟨.inr rfl, rfl, rfl, rfl, rfl, rfl, rfl, rfl, rfl, rfl⟩
      obtain ⟨e', he, hw⟩ := hview
      have htags : w.fab.tags = tset u.fab.tags t e' := congrArg (·.1) hw
      have hu : u.fab.tags = s.fab.tags := congrArg (·.1) hv
      exact ⟨e', he, by rw [htags, tget_tset_same], fun i hi => by rw [htags, tget_tset_other _ _ _ _ hi, hu],
        (congrArg (·.2) hw).trans (congrArg (·.2) hv)⟩

/-- The entry of a frame that has just taken a tag. -/
def NewEntry (s : State) (f : TxFrame) (t : Nat) (e : TagEnt) : Prop :=
  e.state = 1 ∧ e.gen = (tgetD s.fab.tagGen t 0 + 1) % 2 ^ 14 ∧ e.dst = f.dst ∧ e.op = f.op ∧ e.tc = f.tc ∧ e.stream = txStream f ∧
  e.origin = f.origin ∧ e.owner = shareOf s f.owner ∧ e.cover = f.cover ∧ e.sends = 0

theorem shareOf_congr {s t : State} (h : t.parts.part = s.parts.part) (o : Nat) : shareOf t o = shareOf s o := by
  have hp : partAt t = partAt s := by funext p; simp only [partAt, h]
  unfold shareOf
  rw [hp]

/-- The entry that a frame takes, sealed as `q` says. -/
def newEntry (s : State) (f : TxFrame) (gen : Nat) (q : Bytes × Nat × Bool) : TagEnt :=
  { state := 1, gen := gen, dst := f.dst, stream := txStream f, par := q.2.2, tc := f.tc, op := f.op, kind := txKind f,
    nfl := flitsOf f.payload.length, ctx := f.ctx, fepoch := f.fepoch, cover := f.cover, sends := 0,
    deadline := s.aon.ts + e2eTimeout s, origin := f.origin, content := q.1, seq := q.2.1, recs := 0, move := false,
    port := 0, lane := 0, ord := s.fab.ord, kid := f.kid, addr := f.addr, nlines := f.nlines, epoch := f.epoch,
    beats := txBeats f, owner := shareOf s f.owner, retx := 0, rpos := 0 }

theorem takeTag_takes (s : State) (f : TxFrame) (t : Nat)
    (h : lowestFrom (fun i => (tget s.fab.tags i).isNone) (tagTotal s.size) 0 = some t) :
    ∃ u e, takeTag s f = some (t, u) ∧ NewEntry s f t e ∧ u.fab.tags = tset s.fab.tags t e ∧ u.fab.txq = s.fab.txq := by
  unfold takeTag
  rw [h]
  dsimp only
  have hv := sendView_sealNext s f (t + (tgetD s.fab.tagGen t 0 + 1) % 2 ^ 14 * 2 ^ 18)
  generalize sealNext s f (t + (tgetD s.fab.tagGen t 0 + 1) % 2 ^ 14 * 2 ^ 18) = q at hv ⊢
  have ht : q.2.fab.tags = s.fab.tags := congrArg (·.1) hv
  have hq : q.2.fab.txq = s.fab.txq := congrArg (·.2.1) hv
  have hp : q.2.parts.part = s.parts.part := congrArg (·.2.2.2) hv
  rw [← ht, ← hq]
  refine ⟨_, newEntry q.2 f ((tgetD s.fab.tagGen t 0 + 1) % 2 ^ 14) q.1, rfl,
    ⟨rfl, rfl, rfl, rfl, rfl, rfl, rfl, shareOf_congr hp _, rfl, rfl⟩, ?_⟩
  have hc := fun u => (countEv_counts u 0x052 (ownerPart f.owner) 1).tagView
  split
  · exact ⟨congrArg (·.1) (hc _), congrArg (·.2) (hc _)⟩
  · split
    · exact ⟨congrArg (·.1) (hc _), congrArg (·.2) (hc _)⟩
    · exact ⟨congrArg (·.1) (hc _), congrArg (·.2) (hc _)⟩

/-- A frame that is not gathered takes its tag, and goes when it can. -/
theorem sendFrame_stored (s : State) (f : TxFrame) (pick t : Nat) (hs : isStored f = true) (hc : f.comb = none)
    (h : lowestFrom (fun i => (tget s.fab.tags i).isNone) (tagTotal s.size) 0 = some t) :
    ∃ e e', NewEntry s f t e ∧ SameFrame e e' ∧ tget (sendFrame s f pick).fab.tags t = some e' ∧
      (∀ i, i ≠ t → tget (sendFrame s f pick).fab.tags i = tget s.fab.tags i) ∧ (sendFrame s f pick).fab.txq = s.fab.txq := by
  obtain ⟨u, e, hu, he, ht, hq⟩ := takeTag_takes s f t h
  have e0 : sendFrame s f pick = sendTag u t pick := by
    unfold sendFrame
    rw [if_pos hs, hu]
    dsimp only
    rw [hc]
  obtain ⟨e', h1, h2, h3, h4⟩ := sendTag_sends u t pick e (by rw [ht, tget_tset_same]) he.1
  rw [e0]
  exact ⟨e, e', he, h1, h2, fun i hi => (h3 i hi).trans (by rw [ht, tget_tset_other _ _ _ _ hi]), h4.trans hq⟩

/-! One frame in the queue, and nothing else that has a turn. -/

theorem txHeads_one (f : TxFrame) : txHeads [f] [] 0 = [(0, f)] := by
  unfold txHeads
  split <;> rfl

theorem noteMisses_go (s : State) (f : TxFrame) (h : txReady s f = .go) : noteMisses s [(0, f)] = s := by
  simp only [noteMisses, List.foldl_cons, List.foldl_nil, h]

/-- A stored frame that may go has a tag of its share. -/
theorem shareOk_of_go (s : State) (f : TxFrame) (hs : isStored f = true) (h : txReady s f = .go) : shareOk s f = true := by
  by_contra hn
  have hb : f.boot = false := by
    simp only [isStored, Bool.and_eq_true, Bool.not_eq_true'] at hs
    exact hs.2
  have hk : shareOk s f = false := by simpa using hn
  unfold txReady at h
  dsimp only at h
  rw [hk, hb] at h
  simp only [Bool.false_and, Bool.false_eq_true, if_false, Bool.not_false, if_true] at h
  split at h
  · cases h
  · split at h <;> cases h

theorem noteFull_none (s : State) (f : TxFrame) (h : shareOk s f = true) : noteFull s [(0, f)] = s := by
  simp [noteFull, h]

theorem tagGo_none (s : State) (pick : Nat) (h : ∀ p ∈ s.fab.tags, p.2.state ≠ 1) : tagGo s pick = [] :=
  List.filter_eq_nil_iff.mpr fun p hp => by simp [h p hp]

theorem groupGo_none (s : State) (pick : Nat) (h : s.fab.combOut = []) : groupGo s pick = [] := by simp [groupGo, h]

theorem txGo_one (s : State) (f : TxFrame) (h : txReady s f = .go) : txGo s [(0, f)] = [(0, f)] := by
  simp [txGo, h]

/-- The frame leaves the queue, and its OWNER and class have had their turn. -/
def txTaken (s : State) (f : TxFrame) : State :=
  let s := { s with fab := { s.fab with txq := [] } }
  if f.tc = 0 then s else { s with fab := { s.fab with rrOwner := f.owner, rrTc := tset s.fab.rrTc f.owner f.tc } }

theorem egressStep_one (s : State) (f : TxFrame) (pick : Nat) (hq : s.fab.txq = [f]) (ht : ∀ p ∈ s.fab.tags, p.2.state ≠ 1)
    (hc : s.fab.combOut = []) (hr : txReady s f = .go) (hs : isStored f = true) : egressStep s pick = sendFrame (txTaken s f) f pick := by
  unfold egressStep
  rw [hq, txHeads_one]
  dsimp only
  rw [noteMisses_go s f hr, noteFull_none s f (shareOk_of_go s f hs hr), hq, txHeads_one, txGo_one s f hr, tagGo_none s pick ht, groupGo_none s pick hc]
  show (match txReady s f with
    | .fail st => _
    | _ => _) = _
  rw [hr]
  rfl

theorem frameEgressSeal_sends (s : State) (pick t : Nat) (f : TxFrame) (h : engUp s = true) (hd : drivesLanes s = true)
    (hk : clkRuns s = true) (hq : s.fab.txq = [f]) (ht : ∀ p ∈ s.fab.tags, p.2.state ≠ 1) (hc : s.fab.combOut = [])
    (hr : txReady (quiet s) f = .go) (hs : isStored f = true) (hn : f.comb = none)
    (hl : lowestFrom (fun i => (tget s.fab.tags i).isNone) (tagTotal s.size) 0 = some t) :
    ∃ u e, exec (.frameEgressSeal pick) s = .next (finish s u) ∧ u.fab.txq = [] ∧ tget u.fab.tags t = some e ∧
      (e.state = 1 ∨ e.state = 2) ∧ e.gen = (tgetD s.fab.tagGen t 0 + 1) % 2 ^ 14 ∧ e.dst = f.dst ∧ e.op = f.op ∧ e.tc = f.tc ∧
      e.stream = txStream f ∧ e.origin = f.origin ∧ e.owner = shareOf s f.owner ∧ e.cover = f.cover ∧ e.sends = 0 ∧
      (∀ i, i ≠ t → tget u.fab.tags i = tget s.fab.tags i) := by
  have ho : s.td.outHeld = false := by
    simp only [engUp, Bool.and_eq_true, Bool.not_eq_true'] at h
    exact h.2
  have htag : (txTaken (quiet s) f).fab.tags = s.fab.tags ∧ (txTaken (quiet s) f).fab.tagGen = s.fab.tagGen ∧
      (txTaken (quiet s) f).fab.txq = [] ∧ (txTaken (quiet s) f).parts = s.parts ∧ (txTaken (quiet s) f).size = s.size := by
    unfold txTaken
    dsimp only
    split <;> exact ⟨rfl, rfl, rfl, rfl, rfl⟩
  obtain ⟨h1, h2, h3, h4, h5⟩ := htag
  obtain ⟨e, e', ⟨a1, a2, a3, a4, a5, a6, a7, a8, a9, a10⟩, ⟨b1, b2, b3, b4, b5, b6, b7, b8, b9, b10⟩, g1, g2, g3⟩ :=
    sendFrame_stored (txTaken (quiet s) f) f pick t hs hn (by rw [h1, h5]; exact hl)
  refine ⟨_, e', (runEng_run h ((when_pos ?_).trans (egressStep_one (quiet s) f pick hq ht hc hr hs)) : execFrameEgressSeal pick s = _),
    g3.trans h3, g1, b1, b2.trans (a2.trans (by rw [h2])), b3.trans a3, b4.trans a4, b5.trans a5, b6.trans a6, b7.trans a7,
    b8.trans (a8.trans (shareOf_congr (congrArg (·.part) h4) _)), b9.trans a9, b10.trans a10, fun i hi => (g2 i hi).trans (by rw [h1])⟩
  show (drivesLanes s && clkRuns s && !s.td.outHeld) = true
  rw [hd, hk, ho]
  rfl

/-! Records, timers, GAPs and gathered acknowledgements. -/

theorem retxRecordWriteDone_runs (s u : State) (t : Nat) (ok : Bool) (e : TagEnt) (h : engUp s = true) (ht : tget s.fab.tags t = some e)
    (hr : e.recs = 0) (hx : e.retx ≠ 0) (hu : (if ok then mirrorRec (setTag (quiet s) t { e with recs := 1 }) (.stored [t])
      else ioEvent (setTag (quiet s) t { e with recs := 2 }) 0xFF 0 stTimeout e.dst ((ownerPart e.owner).getD 0) 0
        (retxBase (quiet s) + 256 * (e.retx - 1))) = u) : exec (.retxRecordWriteDone t ok) s = .next (finish s u) := by
  refine (runEng_run h ?_ : execRetxRecordWriteDone t ok s = _)
  rw [quiet_fab, ht]
  dsimp only
  rw [if_neg (by simp [hr, hx])]
  exact hu

theorem retxRecordWriteDone_failed (s : State) (t : Nat) (e : TagEnt) (h : engUp s = true) (ht : tget s.fab.tags t = some e)
    (hr : e.recs = 0) (hx : e.retx ≠ 0) : ∃ u, exec (.retxRecordWriteDone t false) s = .next (finish s u) ∧
      (s.aon.alarms.length < 256 → tget u.fab.tags t = some { e with recs := 2 } ∧
        ∃ r, u.aon.alarms.getLast? = some r ∧ r.cls = 0x17 ∧ r.status = stTimeout) := by
  refine ⟨_, retxRecordWriteDone_runs s _ t false e h ht hr hx rfl, fun hl => ?_⟩
  obtain ⟨c, w, al, q, g, eq, x, hx, h1, -, -, -, h2, -⟩ := occur_room (setTag (quiet s) t { e with recs := 2 })
    (mkRec 0x17 0xFF 0 0 stTimeout 0 e.dst 0 ((ownerPart e.owner).getD 0) (retxBase (quiet s) + 256 * (e.retx - 1))) none
    (fun h => nomatch h) hl
  rw [if_neg Bool.false_ne_true, ioEvent, eq]
  exact ⟨tget_tset_same _ _ _, x, hx, h1, h2⟩

theorem timerExpiry_last (s : State) (t : Nat) (e : TagEnt) (ht : tget s.fab.tags t = some e) (h : fld (reg s 0x1A010) 3 0 ≤ e.sends) :
    timerExpiry s t = giveUp s t := by
  unfold timerExpiry
  rw [ht]
  exact if_pos (.inl h)

theorem timerExpiry_waiting (s : State) (t : Nat) (e : TagEnt) (ht : tget s.fab.tags t = some e) (h : e.sends < fld (reg s 0x1A010) 3 0)
    (hr : e.recs ≠ 2) (h1 : e.state = 1) :
    timerExpiry s t = setTag s t { e with sends := e.sends + 1, deadline := s.aon.ts + e2eTimeout s } := by
  unfold timerExpiry
  rw [ht]
  dsimp only
  rw [if_neg (by omega), if_pos (.inl (by omega))]

theorem e2eTimerExpiry_runs (s u : State) (t : Nat) (h : engUp s = true) (hk : clkRuns s = true) (hu : timerExpiry (quiet s) t = u) :
    exec (.e2eTimerExpiry t) s = .next (finish s u) :=
  (runEng_run h ((when_pos hk).trans hu) : execE2eTimerExpiry t s = _)

theorem streamGapSend_sends (s : State) (key : Nat) (c : Egress) (h : engUp s = true) (hc : tget s.links.egress key = some c)
    (hl : c.closing = true) (hg : c.gap = none) (ht : ∀ p ∈ s.fab.tags, isModTag p.2 = true ∨ tagStream p.2 ≠ key)
    (hp : key % 2 = s.dom.gen % 2) (hq : s.fab.txq = []) :
    exec (.streamGapSend key) s = .next (finish s (pushTx (quiet s) { TxFrame.blank with
      dst := key / 131072, owner := ownerOf (key / 2 % 65536), tc := key / 2 % 65536 / 256 % 8, sub := subOf (key / 2 % 65536)
      op := opGap, origin := .gap })) := by
  refine (runEng_run h ?_ : execStreamGapSend key s = _)
  rw [quiet_links, hc]
  dsimp only
  have hn : (s.fab.tags.any (fun p => !isModTag p.2 && tagStream p.2 == key)) = false := by
    rw [List.any_eq_false]
    intro p hp
    rcases ht p hp with h | h <;> simp [h]
  rw [if_neg (by simp only [quiet_fab, quiet_dom, hq, hn, hl, hg, hp]; simp)]

theorem ackStreamGap_sends (s : State) (peer tc : Nat) (h : engUp s = true) (hc : tc < 8) (ha : tgetD s.fab.ackSince (peer * 8 + tc) 0 ≠ 0)
    (hg : ackGapOut s peer tc = false) : exec (.ackStreamGap peer tc) s = .next (finish s (pushTx (quiet s) { TxFrame.blank with
      dst := peer, tc := tc, sub := 0xFF, op := opGap, origin := .gap })) := by
  refine (runEng_run h ?_ : execAckStreamGap peer tc s = _)
  dsimp only
  rw [if_neg]
  rintro (h | h | h)
  · exact ha h
  · rw [show ackGapOut (quiet s) peer tc = ackGapOut s peer tc from rfl, hg] at h
    cases h
  · omega

theorem eackFlush_sends (s : State) (peer tc : Nat) (q : List EackRec) (h : engUp s = true) (hc : tc < 8)
    (hq : tget s.fab.eackQ (peer * 8 + tc) = some q) (hn : q ≠ []) (hl : q.length ≤ 498) :
    exec (.eackFlush peer tc) s = .next (finish s (pushTx { quiet s with fab := { s.fab with
      eackQ := tdel s.fab.eackQ (peer * 8 + tc) } } { TxFrame.blank with
        dst := peer, tc := tc, sub := 0xFF, op := opEack
        payload := q.flatMap (fun r => leBytes 4 r.rtag ++ leBytes 1 r.status ++ leBytes 1 (b2n r.dup) ++ [0, 0]) })) := by
  have hd : tgetD s.fab.eackQ (peer * 8 + tc) [] = q := by simp [tgetD, hq]
  refine (runEng_run h ?_ : execEackFlush peer tc s = _)
  dsimp only
  rw [quiet_fab, hd, if_neg (by simp [hn]; omega), List.take_of_length_le hl, List.drop_eq_nil_of_le hl]
  rfl

/-- Settles O18: the one frame through the way out, and each timer and gathering by its own row. -/
theorem framesSent : Obligations.FramesSent := by
  unfold Obligations.FramesSent
  exact ⟨frameEgressSeal_sends, fun s t e h => ⟨fun ht hr hx => ⟨retxRecordWriteDone_runs s _ t true e h ht hr hx rfl,
      retxRecordWriteDone_failed s t e h ht hr hx⟩,
    fun hk ht => ⟨fun hs => e2eTimerExpiry_runs s _ t h hk (timerExpiry_last (quiet s) t e ht hs),
      fun hs hr h1 => e2eTimerExpiry_runs s _ t h hk (timerExpiry_waiting (quiet s) t e ht hs hr h1)⟩,
    fun key c => streamGapSend_sends s key c h, fun peer tc => ackStreamGap_sends s peer tc h, fun peer tc q => eackFlush_sends s peer tc q h⟩⟩

end Sys2Proof.Machine
end

section
/-! SUPPORT. Requests that arrive at their home, and answers of package memory (07 R219 to R222, R243, R245). -/

namespace Sys2Proof.Machine

/- Proofs are elaborated in their order, for the reason given in the first section of this kind. -/
set_option deprecated.oldSectionVars true

/-! An access to package memory. -/

/-- Pages noted for a dirty-page log change the partitions alone. -/
theorem noteDirty_form (s : State) (a x l : Nat) : ∃ p, noteDirty s a x l = { s with parts := p } := by
  unfold noteDirty
  split
  · exact ⟨_, rfl⟩
  · dsimp only
    split <;> exact ⟨_, rfl⟩

/-- An access goes out, and is remembered. -/
theorem pmReq_form (s : State) (u : PmUse) (w : Bool) (a l : Nat) (d : Bytes) (m : List Bool) (p : Option Nat) :
    ∃ n x y z, pmReq s u w a l d m p = { s with
      out := s.out ++ mreqOuts s w a l d m p, fab := { s.fab with nextTid := n, pm := x, nextPm := y }, parts := z } := by
  unfold pmReq
  dsimp only
  split
  · split
    · obtain ⟨z, hz⟩ := noteDirty_form _ _ _ _
      exact ⟨_, _, _, z, hz⟩
    · exact ⟨_, _, _, _, rfl⟩
  · exact ⟨_, _, _, _, rfl⟩

theorem pmReq_out (s : State) (u : PmUse) (w : Bool) (a l : Nat) (d : Bytes) (m : List Bool) (p : Option Nat) :
    (pmReq s u w a l d m p).out = s.out ++ mreqOuts s w a l d m p := by
  obtain ⟨n, x, y, z, h⟩ := pmReq_form s u w a l d m p
  rw [h]

/-- What an access leaves of the fabric unit's operations and queues. -/
theorem pmReq_homes (s : State) (u : PmUse) (w : Bool) (a l : Nat) (d : Bytes) (m : List Bool) (p : Option Nat) :
    (pmReq s u w a l d m p).fab.homes = s.fab.homes ∧ (pmReq s u w a l d m p).fab.inbox = s.fab.inbox ∧
      (pmReq s u w a l d m p).fab.nextHome = s.fab.nextHome := by
  obtain ⟨n, x, y, z, h⟩ := pmReq_form s u w a l d m p
  rw [h]
  exact ⟨rfl, rfl, rfl⟩

/-! A request at its home. -/

theorem homeRequest_runs {s u : State} {f : InFrame} (h : engUp s = true) (hi : s.fab.inbox = [f]) (ho : f.hdr.op = opReq)
    (hm : f.hdr.mbxs = false) (hu : homeReq { quiet s with fab := { s.fab with inbox := [] } } f = u) :
    exec .homeRequest s = .next (finish s u) :=
  (runEng_run h (by rw [popInbox_one (quiet s) f _ hi (by simp [ho, hm])]; exact hu) : execHomeRequest s = _)

theorem homeReq_bad (s : State) (f : InFrame) (h : reqBad f.hdr f.payload = true) : homeReq s f = refuseReq s (reqOf f) stBadParam :=
  if_pos h

theorem homeReq_good (s : State) (f : InFrame) (h : reqBad f.hdr f.payload = false) : homeReq s f = applyReq s (reqOf f) :=
  if_neg (by simp [h])

/-- Key ID 0 is package memory. -/
theorem applyReq_memory (s : State) (q : HReq) (h : q.kid = 0) : applyReq s q =
    if homeScope s q.owner q.addr q.len q.opn ≠ stOk then refuseReq s q (homeScope s q.owner q.addr q.len q.opn)
    else startHome (takeOrd s).2 (homeOpOf s q 0 0 (takeOrd s).1) := by
  rw [applyReq, if_pos h]

theorem applyReq_reserved (s : State) (q : HReq) (h0 : 0 < q.kid) (h : q.kid < 16) : applyReq s q = refuseReq s q stNotPermitted := by
  rw [applyReq, if_neg (by omega), if_pos h]

theorem applyReq_refused (s : State) (q : HReq) (h : 16 ≤ q.kid) (hs : poolScope s q.owner q.kid q.addr q.len ≠ stOk) :
    applyReq s q = refuseReq s q (poolScope s q.owner q.kid q.addr q.len) := by
  rw [applyReq, if_neg (by omega), if_neg (by omega)]
  dsimp only
  rw [if_pos hs]

theorem applyReq_region (s : State) (q : HReq) (r : Region) (h : 16 ≤ q.kid)
    (hs : poolScope s q.owner q.kid q.addr q.len = stOk) (hr : regionAt s q.kid = some r) : applyReq s q = poolReq s q r := by
  rw [applyReq, if_neg (by omega), if_neg (by omega)]
  dsimp only
  rw [if_neg (by simp [hs]), hr]

/-- The one operation of the home starts at once. -/
theorem pumpHomes_one (s : State) (i : Nat) (o : HomeOp) (h : s.fab.homes = [(i, o)]) (hp : o.phase = 0) :
    pumpHomes s = issueHome s i o := by
  unfold pumpHomes
  dsimp only
  rw [h]
  simp [hp, h]

/-- At a home at rest, an operation is taken at once. -/
theorem startHome_rest (s : State) (o : HomeOp) (h : s.fab.homes = []) :
    startHome s o = issueHome { s with fab := { s.fab with homes := [(s.fab.nextHome, { o with phase := 0 })], nextHome := s.fab.nextHome + 1 } }
      s.fab.nextHome { o with phase := 0 } := by
  unfold startHome
  dsimp only
  rw [h]
  exact pumpHomes_one _ _ _ rfl rfl

/-- The first access of an operation of the home: what it reads or writes, by its kind. -/
theorem issueHome_issues (s : State) (i : Nat) (o : HomeOp) (h : o.phase = 0) :
    ∃ o', tget (issueHome s i o).fab.homes i = some o' ∧ o' = { o with phase := o'.phase } ∧ o'.phase ≠ 0 ∧
      (issueHome s i o).fab.inbox = s.fab.inbox ∧ (issueHome s i o).fab.nextHome = s.fab.nextHome ∧
      (o.kind = kLoad → (issueHome s i o).out = s.out ++ mreqOuts s false (o.base + o.addr) o.len [] [] (some o.pasid)) ∧
      (o.kind = kStore → (issueHome s i o).out = s.out ++ mreqOuts s true (o.base + o.addr) o.len o.data o.mask (some o.pasid)) := by
  unfold issueHome
  dsimp only
  rw [if_neg (by simp [h])]
  split
  next hk =>
    obtain ⟨h1, h2, h3⟩ := pmReq_homes (homeSet s i { o with phase := 1 }) (.home i) false (o.base + o.addr) o.len [] [] (some o.pasid)
    exact ⟨{ o with phase := 1 }, by rw [h1]; exact tget_tset_same _ _ _, rfl, Nat.one_ne_zero, h2, h3, fun _ => pmReq_out .., fun hs => by
      simp [hk] at hs⟩
  next hk =>
    split
    next ha =>
      obtain ⟨h1, h2, h3⟩ := pmReq_homes (homeSet s i { o with phase := 1 }) (.home i) false (o.base + o.addr / 128 * 128) 128 [] []
        (some o.pasid)
      exact ⟨{ o with phase := 1 }, by rw [h1]; exact tget_tset_same _ _ _, rfl, Nat.one_ne_zero, h2, h3, fun hl => absurd hl hk, fun hs => by
        simp [ha] at hs⟩
    next ha =>
      obtain ⟨h1, h2, h3⟩ := pmReq_homes (homeSet s i { o with phase := 2 }) (.home i) true (o.base + o.addr) o.len o.data o.mask
        (some o.pasid)
      exact ⟨{ o with phase := 2 }, by rw [h1]; exact tget_tset_same _ _ _, rfl, two_ne_zero, h2, h3, fun hl => absurd hl hk,
        fun _ => pmReq_out ..⟩

/-- Settles O20: the scope of a request is a matter of its partition; a home at rest starts the request it takes. -/
theorem homeTakes : Obligations.HomeTakes := by
  unfold Obligations.HomeTakes
  intro s f h hi ho hm
  refine ⟨fun hb => homeRequest_runs h hi ho hm (homeReq_bad _ _ hb), fun hb hk => ⟨fun hs => ?_, fun hs hr => ?_⟩,
    fun hb h0 hk => ?_, fun hb hk => ⟨fun hs => ?_, fun g hs hg => ?_⟩⟩
  · exact homeRequest_runs h hi ho hm ((homeReq_good _ _ hb).trans ((applyReq_memory _ _ hk).trans (if_pos hs)))
  · obtain ⟨o, h1, h2, h3, h4, h5, h6, h7⟩ := issueHome_issues
      { quiet s with fab := { s.fab with
          inbox := [], ord := s.fab.ord + 1,
          homes := [(s.fab.nextHome, homeOpOf s (reqOf f) 0 0 s.fab.ord)], nextHome := s.fab.nextHome + 1 } }
      s.fab.nextHome (homeOpOf s (reqOf f) 0 0 s.fab.ord) rfl
    refine ⟨_, o, homeRequest_runs h hi ho hm ((homeReq_good _ _ hb).trans ((applyReq_memory _ _ hk).trans ((if_neg ?_).trans
      (startHome_rest _ _ hr)))), h1, ?_, ?_, ?_, ?_, ?_, ?_, ?_, h3, h4, h5, h6, h7⟩
    · exact fun hn => hn hs
    all_goals rw [h2]; rfl
  · exact homeRequest_runs h hi ho hm ((homeReq_good _ _ hb).trans (applyReq_reserved _ _ h0 hk))
  · exact homeRequest_runs h hi ho hm ((homeReq_good _ _ hb).trans (applyReq_refused _ _ hk hs))
  · exact homeRequest_runs h hi ho hm ((homeReq_good _ _ hb).trans (applyReq_region _ _ g hk hs hg))

/-! A wait's counter that is read. -/

/-- A block whose engines run. -/
def engines : State := { State.reset with aon := { Aon.reset with porN := true, rstN := true, stage := 6 } }

/-- A wait for a counter to reach 1, whose counter is read by an access of nine bytes. -/
def wideRead : State :=
  { engines with fab := { engines.fab with
      pm := [(0, { use := .waitRead 0, write := false, addr := 0, len := 9, pasid := none })]
      waits := [{ desc := 0, part := 0, addr := 0, threshold := 1, until_ := none, expired := false }] } }

/-- Nine bytes whose least eight are 0. -/
def wideData : Bytes := List.replicate 8 0 ++ [1]

/-- Whether a wait is left. -/
def stillWaits (o : Host.Outcome State Fault Refusal) : Bool :=
  match o with
  | .next t => !t.fab.waits.isEmpty
  | _ => false

theorem wideRead_waits : stillWaits (exec (.initiatorResponse 0 false 0 wideData 0) wideRead) = true := by decide

theorem wideRead_claimed : stillWaits (.next (finish wideRead (waitSees { quiet wideRead with fab := { wideRead.fab with pm := [] } } 0
    (ofLe ((padTo 9 wideData).take 9))))) = false := by decide

/-- Refutes O21: a wait looks at the least eight bytes of the counter it reads, and no clause holds the access to eight bytes: an access
of nine, whose ninth byte alone is 1, leaves a wait for 1 waiting. -/
theorem not_memoryResponses : ¬ Obligations.MemoryResponses := by
  unfold Obligations.MemoryResponses
  rintro ⟨h, -⟩
  obtain ⟨-, h⟩ := h wideRead 0 0 0 wideData false (by decide)
  obtain ⟨-, -, h, -⟩ := h _ rfl
  have hw := wideRead_waits
  rw [h 0 rfl rfl rfl rfl] at hw
  exact Bool.false_ne_true (wideRead_claimed.symm.trans hw)

end Sys2Proof.Machine
end

section
/-! SUPPORT. The memory seal engine's own events, the upkeep of keys, and the Hub's pair (03 R70 to R73; 04 R109, R117, R123;
07 R253; 08 R273 to R279). -/

namespace Sys2Proof.Machine

/- Proofs are elaborated in their order, for the reason given in the first section of this kind. -/
set_option deprecated.oldSectionVars true

/-! Pinned lines, fills, jobs and sweeps. -/

theorem hotlineIdleWriteback_runs {s u : State} {kid line : Nat} (h : engUp s = true) (hu : startWriteback (quiet s) kid line = u) :
    exec (.hotlineIdleWriteback kid line) s = .next (finish s (pumpMem u)) :=
  (runEng_run h (by rw [hu]) : execHotlineIdleWriteback kid line s = _)

theorem startWriteback_none {s : State} {kid line : Nat} (h : hotAt s kid line = none) : startWriteback s kid line = s := by
  rw [startWriteback, h]

theorem startWriteback_again {s : State} {kid line : Nat} {l : HotLine} (h : hotAt s kid line = some l) (hw : l.wb = true) :
    startWriteback s kid line = s := by
  rw [startWriteback, h]
  exact if_pos hw

theorem startWriteback_starts {s : State} {kid line : Nat} {l : HotLine} (h : hotAt s kid line = some l) (hw : l.wb = false) :
    startWriteback s kid line = pushOp (hotMod s kid line (fun h => { h with wb := true, again := false }))
      { who := .hot kid line, kid := kid, line := line, lines := 1, write := true, atomic := none, data := l.data, mask := []
        epoch := 0, phase := .waiting, status := stOk, poison := 0, parts := [], ctx := 0, fepoch := 0, cover := false, ord := 0 } := by
  rw [startWriteback, h]
  exact if_neg (by simp [hw])

/-- A fill that has what it needs: what its installation says decides what waits. -/
theorem counterCacheFill_runs {s u : State} {id v : Nat} {f : Fill} {r : Region} {n : Nat} (h : engUp s = true)
    (hf : tget s.mem.fills id = some f) (hp : allDone f.parts = true) (hr : regionAt s f.kid = some r)
    (hn : regionSlot s f.kid r.gen0 r = some n)
    (hu : (match (fillInstall (useRegionKey (quiet s) n).2 id f r (useRegionKey (quiet s) n).1 v).2 with
      | some st => if st = stOk then (fillInstall (useRegionKey (quiet s) n).2 id f r (useRegionKey (quiet s) n).1 v).1
        else failPage (fillInstall (useRegionKey (quiet s) n).2 id f r (useRegionKey (quiet s) n).1 v).1 f.kid f.page st
      | none => (fillInstall (useRegionKey (quiet s) n).2 id f r (useRegionKey (quiet s) n).1 v).1) = u) :
    exec (.counterCacheFill id v) s = .next (finish s (pumpMem u)) := by
  refine (runEng_run h ?_ : execCounterCacheFill id v s = _)
  rw [show tget (quiet s).mem.fills id = some f from hf]
  dsimp only
  rw [if_neg (by simp [hp]), show regionAt (quiet s) f.kid = some r from hr]
  dsimp only
  rw [show regionSlot (quiet s) f.kid r.gen0 r = some n from hn]
  exact congrArg pumpMem hu

theorem pageReencryptDone_runs {s u : State} {id : Nat} {j : PageJob} (h : engUp s = true) (hj : tget s.mem.jobs id = some j)
    (hs : j.started = true) (hr : j.reading = false) (hp : allDone j.parts = true) (hu : jobDone (quiet s) id j = u) :
    exec (.pageReencryptDone id) s = .next (finish s u) := by
  refine (runEng_run h ?_ : execPageReencryptDone id s = _)
  rw [show tget (quiet s).mem.jobs id = some j from hj]
  exact (if_pos ⟨hs, by simp [hr], hp⟩).trans hu

/-- A re-seal job serves no operation. -/
theorem jobDone_reseal (s : State) (id : Nat) (j : PageJob) (r : Region) (h : regionAt s j.kid = some r) (ho : j.op = none)
    (hr : j.reseal = true) : jobDone s id j = pumpMem (loseLines { s with mem := { s.mem with jobs := tdel s.mem.jobs id } }
      j.kid r j.page j.parts ((List.range 64).map (64 * j.page + ·))) := by
  unfold jobDone
  rw [h]
  dsimp only
  rw [if_pos hr, ho]

theorem resealSweep_ends {s : State} {kid p : Nat} {r : Region} (h : engUp s = true) (hr : regionAt s kid = some r)
    (hs : r.sweep = some p) (hl : r.lost = false) (hi : r.invalid = false) (hp : rPages r ≤ p) :
    exec (.resealSweep kid) s = .next (finish s (setBits (dropRegionKey (setRegion (quiet s) kid { r with sweep := none }) kid
      (r.keyGen - 1)) 0x20004 8)) := by
  refine (runEng_run h ?_ : execResealSweep kid s = _)
  rw [show regionAt (quiet s) kid = some r from hr]
  dsimp only
  rw [hs]
  dsimp only
  rw [if_neg (by simp [hl, hi]), if_pos hp]

/-- Settles O22: each event of the engine has its row. -/
theorem memoryEngine : Obligations.MemoryEngine := by
  unfold Obligations.MemoryEngine
  intro s kid h
  refine ⟨fun line hn => hotlineIdleWriteback_runs h (startWriteback_none hn),
    fun line l hl hw => hotlineIdleWriteback_runs h (startWriteback_again (s := quiet s) hl hw),
    fun line l hl hw => hotlineIdleWriteback_runs h (startWriteback_starts (s := quiet s) hl hw),
    fun id v f r n hf hp hr hn => ⟨fun hk => counterCacheFill_runs h hf hp hr hn ?_, fun st hk hs => counterCacheFill_runs h hf hp hr hn ?_⟩,
    fun id j r hj hs hr hp hg ho hre => pageReencryptDone_runs h hj hs hr hp (jobDone_reseal (quiet s) id j r hg ho hre),
    fun r p hr hs hl hi hp => resealSweep_ends h hr hs hl hi hp⟩
  · rcases hk with hk | hk <;> rw [hk]
    exact if_pos rfl
  · rw [hk]
    exact if_neg hs

/-! Keys and entropy. -/

theorem regionKeyMiss_fills {s : State} {kid g : Nat} (h : engUp s = true) (hm : s.mem.missK.filter (fun p => p.1 == kid) = [(kid, g)]) :
    exec (.regionKeyMiss kid) s = .next (finish s (pumpMem (fillRegionKey (quiet s) kid g))) := by
  refine (runEng_run h ?_ : execRegionKeyMiss kid s = _)
  dsimp only
  rw [show (quiet s).mem.missK.filter (fun p => p.1 == kid) = [(kid, g)] from hm]
  exact if_neg (fun h => nomatch h)

theorem derive_slots (s : State) (k : BitVec 256) (l : String) (c : Bytes) : (derive s k l c).2.keys.slots = s.keys.slots := by
  obtain ⟨m, _, _, _, _, h⟩ := absorb_counts (countEv s 0x0A1 none 1) (keyBytes k) (kmacX l c).length
  obtain ⟨_, _, _, _, h'⟩ := countEv_counts s 0x0A1 none 1
  show (absorb _ _ _).keys.slots = _
  rw [h, h']

theorem slotAt_congr {s t : State} (h : t.keys.slots = s.keys.slots) (n : Nat) : slotAt t n = slotAt s n := by
  rw [slotAt, slotAt, h]

/-- A region key takes the lowest free slot. -/
theorem fillRegionKey_fills (s : State) (kid g n : Nat) (r : Region) (hr : regionAt s kid = some r) (hl : regionLive s r = true)
    (hs : regionSlot s kid g r = none) (hf : lowestFree s = some n) :
    ∃ k, slotAt (fillRegionKey s kid g) n = { key := k, typ := 6, uses := 0x8#16, parent := 5, state := 1, depth := (slotAt s 5).depth + 1
                                              parentGen := (slotAt s 5).gen, gen := (slotAt s n).gen, useCount := 0, useLimit := 0
                                              ownerKid := kid } := by
  let t : State := { s with mem := { s.mem with missK := s.mem.missK.filter (· != (kid, g)) } }
  have hk (m : Nat) := slotAt_congr (derive_slots t (slotAt t 5).key "region" (regionCtx kid g r)) m
  refine ⟨(derive t (slotAt t 5).key "region" (regionCtx kid g r)).1, ?_⟩
  unfold fillRegionKey
  dsimp only
  rw [show regionAt { s with mem := { s.mem with missK := s.mem.missK.filter (· != (kid, g)) } } kid = some r from hr]
  dsimp only
  rw [if_neg (by
    rintro (h | h)
    · exact absurd (show (!regionLive s r) = true from h) (by simp [hl])
    · exact absurd (show (regionSlot s kid g r).isSome = true from h) (by simp [hs])),
    show lowestFree { s with mem := { s.mem with missK := s.mem.missK.filter (· != (kid, g)) } } = some n from hf]
  dsimp only
  refine (tgetD_tset_same _ _ _ _).trans ?_
  rw [hk n, hk 5]
  rfl

theorem entropyFail_notes (s : State) (h : s.hub.drbgRefuse = false) (hl : s.aon.alarms.length < 256) :
    ∃ r, (entropyFail s).hub.drbgRefuse = true ∧ (entropyFail s).aon.alarms.getLast? = some r ∧ r.cls = 0x12 ∧
      (entropyFail s).keys = s.keys := by
  obtain ⟨c, w, al, q, g, e, x, hx, hc, -⟩ := occur_room { s with hub := { s.hub with drbgRefuse := true } } (mkRec 0x12 0xFF 0 0 0 0 0 0 0 0) none
    (fun h => nomatch h) hl
  rw [entropyFail, if_neg (by simp [h]), e]
  exact ⟨x, rfl, hx, hc, rfl⟩

/-- Settles O23: a sweep of the orphans changes their slots alone. -/
theorem keyUpkeep : Obligations.KeyUpkeep := by
  unfold Obligations.KeyUpkeep
  intro s h
  refine ⟨fun kid g hm => ⟨regionKeyMiss_fills h hm, fun r n hr hl hs hf => ?_⟩, ⟨sweepOrphans (quiet s), (runEng_run h rfl : execOrphanSweep s = _),
    fun n k hk => ?_, rfl, rfl, rfl, rfl⟩, (runEng_run h rfl : execEntropyStartupPass s = _), fun hr => ?_, fun hr hl => ?_⟩
  · obtain ⟨k, hk⟩ := fillRegionKey_fills (quiet s) kid g n r hr hl hs hf
    rw [hk]
    exact ⟨rfl, rfl, rfl, rfl, rfl⟩
  · show tget (tmapV s.keys.slots (fun _ k => if k.state = 2 then { k with key := 0, state := 0 } else k)) n = _
    rw [tget_tmapV, hk]
    rfl
  · exact (runEng_run h (if_pos hr) : execEntropyHealthFail s = _)
  · obtain ⟨r, h1, h2, h3, h4⟩ := entropyFail_notes (quiet s) hr hl
    exact ⟨_, r, (runEng_run h rfl : execEntropyHealthFail s = _), h1, h2, h3, h4⟩

/-! The Hub's pair. -/

/-- Whether any source's packet waits to be admitted. -/
theorem admitAll_none (s : State) (h : ∀ n, n < 18 → unadmitted (mb s n) = false) : admitAll s = s := by
  unfold admitAll
  split
  · refine List.foldlRecOn (motive := fun t => t = s) (List.range 18) _ rfl fun t ht n hn => ?_
    subst ht
    rw [h n (List.mem_range.mp hn)]
    rfl
  · rfl

/-- What a restart of the firmware makes of a source's fragments. -/
def restarted (m : Mbox) : Mbox :=
  match m.replies with
  | r :: rest =>
    if m.released then
      if rest.isEmpty then m else { m with replies := [r, replyWords ((r.headD 0).toNat / 2 ^ 24) stInternal (r.getD 1 0) []] }
    else m
  | [] => m

theorem restartReplies_mbox (s : State) : (restartReplies s).hub.mbox = tmapV s.hub.mbox (fun _ => restarted) := rfl

theorem unadmitted_restarted (m : Mbox) : unadmitted (restarted m) = unadmitted m := by
  unfold restarted
  split
  next r rest hr =>
    split
    · split
      · rfl
      · simp [unadmitted, hr]
    · rfl
  · rfl

/-- A restart of the firmware leaves what a source has submitted. -/
theorem unadmitted_restartReplies (s : State) (n : Nat) : unadmitted (mb (restartReplies s) n) = unadmitted (mb s n) := by
  unfold mb
  rw [tgetD, tgetD, restartReplies_mbox, tget_tmapV]
  cases tget s.hub.mbox n with
  | none => rfl
  | some m => exact unadmitted_restarted m

theorem takeAcks_none (s : State) (h : s.ident.acks = []) : ∃ i, takeAcks s = { s with ident := i } := by
  unfold takeAcks
  rw [h]
  split
  · exact ⟨_, rfl⟩
  · exact ⟨s.ident, rfl⟩

/-- What the Hub's pair, its mailboxes and the key port's results are. -/
def pairView (s : State) : Nat × Nat × Bool × Tbl Mbox × List Nat :=
  (s.hub.pairA, s.hub.pairB, s.hub.selfTest, s.hub.mbox, s.ident.acks)

theorem pairView_eq {s t : State} (h : pairView t = pairView s) : t.hub.pairA = s.hub.pairA ∧ t.hub.pairB = s.hub.pairB ∧
    t.hub.selfTest = s.hub.selfTest ∧ t.hub.mbox = s.hub.mbox ∧ t.ident.acks = s.ident.acks := by
  simpa only [pairView, Prod.mk.injEq] using h

theorem pairView_occur (s : State) (r : AlarmRec) (c : Option Nat) : pairView (occur s r c) = pairView s := by
  have h := stands_occur s r c
  rw [pairView, pairView, h.hub, h.ident]

theorem useKey_view (s : State) (n b : Nat) : pairView (useKey s n b).2 = pairView s ∧ (useKey s n b).2.ladder = s.ladder := by
  unfold useKey
  dsimp only
  split
  · exact ⟨rfl, rfl⟩
  split
  · exact ⟨rfl, rfl⟩
  split
  · exact ⟨rfl, rfl⟩
  split
  · exact ⟨rfl, rfl⟩
  split <;> exact ⟨rfl, rfl⟩

theorem storePush_view (s : State) (a : Nat) (p : Bytes) (c : Option Nat) :
    pairView (storePush s a p c) = pairView s ∧ (storePush s a p c).ladder = s.ladder := by
  have hu : pairView (if (slotAt s 1).state = 1 then useKey s 1 4 else (stOk, s)).2 = pairView s ∧
      (if (slotAt s 1).state = 1 then useKey s 1 4 else (stOk, s)).2.ladder = s.ladder := by
    split
    · exact useKey_view s 1 4
    · exact ⟨rfl, rfl⟩
  unfold storePush
  dsimp only
  generalize (if (slotAt s 1).state = 1 then useKey s 1 4 else (stOk, s)) = u at hu ⊢
  split
  · unfold storeFail
    split <;> exact hu
  · split <;> exact hu

theorem fieldAppend_view (s : State) (p : Part) : pairView (fieldAppend s p) = pairView s ∧ (fieldAppend s p).ladder.mapped = s.ladder.mapped := by
  unfold fieldAppend
  dsimp only
  split
  · exact ⟨rfl, rfl⟩
  · obtain ⟨h1, h2⟩ := storePush_view
      { s with ladder := { s.ladder with field := s.ladder.field ++ [partWord p], fieldFull := decide (s.ladder.field.length + 1 = fieldCap) } }
      (0xC800 + s.ladder.field.length / 12) (wordBytes ((s.ladder.field ++ [partWord p]).drop (s.ladder.field.length / 12 * 12))) none
    exact ⟨h1, by rw [h2]⟩

/-- A core mapped out leaves the pair until its place is taken, and the block's other parts. -/
theorem mapOut_core (s : State) (c : Nat) :
    pairView (mapOut s (.core c)) = pairView s ∧ isMapped (mapOut s (.core c)) (.core c) = true ∧
      ∀ x, x ≠ c → isMapped (mapOut s (.core c)) (.core x) = isMapped s (.core x) := by
  unfold mapOut
  split
  next h => exact ⟨rfl, h, fun _ _ => rfl⟩
  next h =>
    dsimp only
    obtain ⟨h1, h2⟩ := fieldAppend_view { s with ladder := { s.ladder with mapped := s.ladder.mapped ++ [.core c] } } (.core c)
    have h3 : (repairEvent (fieldAppend { s with ladder := { s.ladder with mapped := s.ladder.mapped ++ [.core c] } } (.core c)) (.core c)).ladder.mapped =
        s.ladder.mapped ++ [.core c] := (stands_occur _ _ _).mapped.trans h2
    refine ⟨(pairView_occur _ _ _).trans h1, ?_, fun x hx => ?_⟩
    · rw [isMapped, h3]
      simp
    · rw [isMapped, isMapped, h3]
      simp [hx]

theorem mapOut_again (s : State) (p : Part) (h : isMapped s p = true) : mapOut s p = s := by rw [mapOut, if_pos h]

/-- The spare is none of the pair, so that mapping out a core of the pair does not touch it. -/
theorem spareCore_mapOut (s : State) (c : Nat) (h : c = s.hub.pairA ∨ c = s.hub.pairB) : spareCore (mapOut s (.core c)) = spareCore s := by
  obtain ⟨h1, -, h3⟩ := mapOut_core s c
  obtain ⟨ha, hb, -⟩ := pairView_eq h1
  unfold spareCore
  rw [ha, hb]
  congr 1
  funext x
  by_cases hx : x = c
  · subst hx
    rcases h with h | h <;> simp [h]
  · rw [h3 x hx]

theorem swapCore_spare (s : State) (c x : Nat) (h : spareCore s = some x) (hm : isMapped s (.core c) = true) :
    swapCore s c = { s with hub := { s.hub with
      pairA := if s.hub.pairA = c then x else s.hub.pairA, pairB := if s.hub.pairB = c then x else s.hub.pairB, lastMismatch := none } } := by
  unfold swapCore
  rw [h]
  dsimp only
  rw [mapOut_again s _ hm]

theorem swapCore_halts (s : State) (c : Nat) (h : spareCore s = none) : swapCore s c = haltBlock s 3 := by rw [swapCore, h]

/-- The firmware restarts on the pair, unless the block has halted. -/
def restarts (s : State) : State := if s.aon.haltReq then s else admitAll (restartReplies s)

/-- With no packet that waits for its check, a restart leaves the pair as it is. -/
theorem restarts_still (s : State) (h : ∀ n, n < 18 → unadmitted (mb s n) = false) : restarts s = s ∨ restarts s = restartReplies s := by
  unfold restarts
  split
  · exact .inl rfl
  · exact .inr (admitAll_none _ fun n hn => (unadmitted_restartReplies s n).trans (h n hn))

theorem restarts_halted (s : State) (h : s.aon.haltReq = true) : restarts s = s := if_pos h

/-- The self-test of the cores is over. -/
def selfTested (s : State) : State := { s with hub := { s.hub with selfTest := false } }

theorem afterSelfTest_pairA (s : State) (hne : s.hub.pairA ≠ s.hub.pairB) : afterSelfTest s [s.hub.pairA] true =
    restarts (swapCore (mapOut (selfTested s) (.core s.hub.pairA)) s.hub.pairA) := by
  simp only [restarts, selfTested]
  simp [afterSelfTest, hne.symm]
  rfl

/-- A first mismatch in which no core fails: its time is kept. -/
def mismatchKept (s : State) : State := { s with hub := { s.hub with selfTest := false, lastMismatch := some s.aon.ts } }

theorem afterSelfTest_none (s : State) (h : recentMismatch s = false) : afterSelfTest s [] true = restarts (mismatchKept s) := by
  have hr : recentMismatch { s with hub := { s.hub with selfTest := false } } = false := h
  simp only [restarts, mismatchKept]
  simp [afterSelfTest, hr]
  rfl

/-- The self-test of the pair serves the mismatch, and the key port's results have not come meanwhile. -/
theorem hubSelftestDone_runs {s t : State} {fails : List Nat} (h : engUp s = true) (hs : s.hub.selfTest = true)
    (ht : afterSelfTest (quiet s) fails true = t) (ha : t.ident.acks = []) :
    ∃ i, exec (.hubSelftestDone fails) s = .next (finish s { t with ident := i }) := by
  obtain ⟨i, hi⟩ := takeAcks_none t ha
  exact ⟨i, (runEng_run h ((when_pos hs).trans (by rw [ht]; exact hi)) : execHubSelftestDone fails s = _)⟩

theorem restarts_pair (s : State) (h : ∀ n, n < 18 → unadmitted (mb s n) = false) :
    (restarts s).hub.pairA = s.hub.pairA ∧ (restarts s).hub.pairB = s.hub.pairB ∧ (restarts s).hub.selfTest = s.hub.selfTest ∧
      (restarts s).hub.lastMismatch = s.hub.lastMismatch ∧ (restarts s).ident = s.ident := by
  rcases restarts_still s h with e | e <;> rw [e] <;> exact ⟨rfl, rfl, rfl, rfl, rfl⟩

/-- The first core of the pair failed, and the spare takes its place. -/
theorem pairA_swapped (s : State) (x : Nat) (hu : ∀ n, n < 18 → unadmitted (mb s n) = false) (hx : spareCore s = some x)
    (hne : s.hub.pairA ≠ s.hub.pairB) : ∃ w, afterSelfTest s [s.hub.pairA] true = w ∧ w.hub.pairA = x ∧ w.hub.pairB = s.hub.pairB ∧
      w.hub.selfTest = false ∧ w.ident.acks = s.ident.acks := by
  obtain ⟨hv, hm, -⟩ := mapOut_core (selfTested s) s.hub.pairA
  obtain ⟨ha, hb, hs, hq, hi⟩ := pairView_eq hv
  have hw := swapCore_spare _ s.hub.pairA x ((spareCore_mapOut (selfTested s) s.hub.pairA (.inl rfl)).trans hx) hm
  obtain ⟨r1, r2, r3, -, r5⟩ := restarts_pair (swapCore (mapOut (selfTested s) (.core s.hub.pairA)) s.hub.pairA) fun n hn => by
    rw [hw]
    show unadmitted (tgetD (mapOut (selfTested s) (.core s.hub.pairA)).hub.mbox n Mbox.empty) = false
    rw [hq]
    exact hu n hn
  refine ⟨_, afterSelfTest_pairA s hne, r1.trans ?_, r2.trans ?_, r3.trans ?_, (congrArg (·.acks) r5).trans ?_⟩ <;> rw [hw]
  · exact if_pos ha
  · exact (if_neg (by rw [hb]; exact hne.symm)).trans hb
  · exact hs
  · exact hi

/-- The first core of the pair failed, and there is no spare. -/
theorem pairA_halts (s : State) (hx : spareCore s = none) (hne : s.hub.pairA ≠ s.hub.pairB) :
    (afterSelfTest s [s.hub.pairA] true).aon.haltReq = true ∧ (afterSelfTest s [s.hub.pairA] true).ident.acks = s.ident.acks := by
  obtain ⟨hv, -, -⟩ := mapOut_core (selfTested s) s.hub.pairA
  obtain ⟨-, -, -, -, hi⟩ := pairView_eq hv
  have hh := haltBlock_haltReq (mapOut (selfTested s) (.core s.hub.pairA)) 3
  rw [afterSelfTest_pairA s hne, swapCore_halts _ _ ((spareCore_mapOut (selfTested s) s.hub.pairA (.inl rfl)).trans hx), restarts_halted _ hh]
  exact ⟨hh, (congrArg (·.acks) (stands_haltBlock _ 3).ident).trans hi⟩

theorem mismatchKept_restarts (s : State) (hu : ∀ n, n < 18 → unadmitted (mb s n) = false) (hr : recentMismatch s = false) :
    ∃ w, afterSelfTest s [] true = w ∧ w.hub.lastMismatch = some s.aon.ts ∧ w.hub.pairA = s.hub.pairA ∧ w.hub.pairB = s.hub.pairB ∧
      w.hub.selfTest = false ∧ w.ident = s.ident := by
  obtain ⟨r1, r2, r3, r4, r5⟩ := restarts_pair (mismatchKept s) hu
  exact ⟨_, afterSelfTest_none s hr, r4, r1, r2, r3, r5⟩

/-- The heartbeat that a source's command misses. -/
def missesBeat (s : State) (n : Nat) : State :=
  match (mb s n).packet with
  | none => s
  | some k => if 1 ≤ (mb s n).hbLoss then reply s n k.op k.tag stInternal [] else setMb s n { mb s n with hbLoss := (mb s n).hbLoss + 1 }

theorem missesBeat_none (s : State) (n : Nat) (h : (mb s n).packet = none) : missesBeat s n = s := by rw [missesBeat, h]

theorem heartbeatLost_eq (s : State) (hs : s.hub.selfTest = false) :
    heartbeatLost s = afterSelfTest ((List.range 18).foldl missesBeat (hubEvent s)) [] true := if_neg (by simp [hs])

/-- No source has a packet for the heartbeat to count. -/
theorem heartbeatLost_still (s : State) (hs : s.hub.selfTest = false) (hp : ∀ n, n < 18 → (mb s n).packet = none)
    (hm : (hubEvent s).hub = s.hub) : heartbeatLost s = afterSelfTest (hubEvent s) [] true := by
  have hf : (List.range 18).foldl missesBeat (hubEvent s) = hubEvent s :=
    List.foldlRecOn (motive := fun t => t = hubEvent s) (List.range 18) _ rfl fun t ht n hn => by
      subst ht
      exact missesBeat_none _ _ (by rw [mb, hm]; exact hp n (List.mem_range.mp hn))
  rw [heartbeatLost_eq s hs, hf]

theorem hubLockstepMismatch_tests (s : State) (h : engUp s = true) (hu : hubUp s = true) (hs : s.hub.selfTest = false)
    (hl : s.aon.alarms.length < 256) : ∃ u r, exec .hubLockstepMismatch s = .next (finish s u) ∧ u.hub.selfTest = true ∧
      u.hub.pairA = s.hub.pairA ∧ u.hub.pairB = s.hub.pairB ∧ u.aon.alarms.getLast? = some r ∧ r.cls = 0x11 ∧ r.unit = 0x1B := by
  obtain ⟨c, w, al, q, g, e, x, hx, hc, hn, -⟩ := occur_room { quiet s with hub := { s.hub with selfTest := true } }
    (mkRec 0x11 0x1B 0 0 0 0 0 0 0 0) none (fun h => nomatch h) hl
  refine ⟨hubEvent { quiet s with hub := { s.hub with selfTest := true } }, x, (runEng_run h ((when_pos hu).trans (if_neg ?_)) :
    execHubLockstepMismatch s = _), ?_⟩
  · simp [hs]
  · rw [hubEvent, e]
    exact ⟨rfl, rfl, rfl, hx, hc, hn⟩

/-- Settles O24: the first core of the pair fails, and no core fails. -/
theorem hubPair : Obligations.HubPair := by
  unfold Obligations.HubPair
  intro s h
  refine ⟨hubLockstepMismatch_tests s h, fun hs h3 hne ha hu => ⟨fun x hx => ?_, fun hx => ?_, fun hr => ?_⟩, fun h6 hs hl hp hu hr => ?_⟩
  · obtain ⟨w, hw, w1, w2, w3, w4⟩ := pairA_swapped (quiet s) x hu hx hne
    obtain ⟨i, he⟩ := hubSelftestDone_runs h hs hw (w4.trans ha)
    exact ⟨_, he, w1, w2, w3⟩
  · obtain ⟨hw, wa⟩ := pairA_halts (quiet s) hx hne
    obtain ⟨i, he⟩ := hubSelftestDone_runs h hs rfl (wa.trans ha)
    exact ⟨_, he, hw⟩
  · obtain ⟨w, hw, w1, w2, w3, w4, w5⟩ := mismatchKept_restarts (quiet s) hu hr
    obtain ⟨i, he⟩ := hubSelftestDone_runs h hs hw (by rw [w5]; exact ha)
    exact ⟨_, he, w1, w2, w3, w4⟩
  · have hn := occur_room (quiet s) (mkRec 0x11 0x1B 0 0 0 0 0 0 0 0) none (fun h => nomatch h) hl
    obtain ⟨c, w, al, q, g, e, -⟩ := hn
    have he : hubEvent (quiet s) = { quiet s with aon := { s.aon with cnt := c, alarms := al, seq := q, gapAlarm := g }, win := w } := e
    obtain ⟨v, hv, v1, v2, v3, -⟩ := mismatchKept_restarts (hubEvent (quiet s)) (by rw [he]; exact hu) (by rw [he]; exact hr)
    rw [he] at v1 v2 v3
    exact ⟨v, (runEng_run h ((when_pos (by rw [beq_iff_eq]; exact h6)).trans ((heartbeatLost_still (quiet s) hs hp (by rw [he])).trans hv)) :
      execHeartbeatTimeout s = _), v1, v2, v3⟩

end Sys2Proof.Machine
end

section
/-! SUPPORT. Mailboxes, the admission of packets, and the frames in which Hub commands and SPDM requests run (03 R82 to R96; 05 R146,
R149). -/

namespace Sys2Proof.Machine

/- Proofs are elaborated in their order, for the reason given in the first section of this kind. -/
set_option deprecated.oldSectionVars true

/-! Register accesses of a mailbox. -/

theorem runReg_opens {s u : State} {who : Requester} {off : Nat} {f : State → State} (h : opens s who off = true) (hu : f (quiet s) = u) :
    runReg who off f s = .next (finish s u) := by
  obtain ⟨ho, hr⟩ := (Bool.and_eq_true _ _).mp h
  simp only [runReg, ho, if_true, present, hr, hu]

theorem mb_setMb_same (s : State) (n : Nat) (m : Mbox) : mb (setMb s n m) n = m := tgetD_tset_same _ _ _ _

theorem mb_setMb_other (s : State) (n k : Nat) (m : Mbox) (h : k ≠ n) : mb (setMb s n m) k = mb s k := tgetD_tset_other _ _ _ _ _ h

theorem mbxIn_takes (s : State) (n : Nat) (w : Word) (who : Requester) (hb : (mb s n).busy = false) (hl : (mb s n).words.length < 4098) :
    mbxIn s n w who = setMb s n { mb s n with words := (mb s n).words ++ [w], bound := some ((mb s n).bound.getD (identOf who)) } :=
  if_neg fun h => h.elim (fun h => by simp [hb] at h) fun h => by omega

theorem mbxIn_busy (s : State) (n : Nat) (w : Word) (who : Requester) (hb : (mb s n).busy = true) : mbxIn s n w who = setDropped s n :=
  if_pos (.inl hb)

theorem inCtrl_clear (s : State) (n : Nat) (who : Requester) (h : boundOther s n who = false ∨ who.priv = true) :
    inCtrl s n 2 who = some (mbxClear s n) := by
  unfold inCtrl
  rw [if_neg (by rcases h with h | h <;> simp [h, wbit])]
  rfl

theorem inCtrl_go (s : State) (n : Nat) (who : Requester) (h : boundOther s n who = false) : inCtrl s n 1 who = some (mbxGo s n) := by
  unfold inCtrl
  rw [if_neg (by simp [h])]
  rfl

theorem outCtrl_done (s : State) (n : Nat) (who : Requester) (h : boundOther s n who = false ∨ who.priv = true) :
    outCtrl s n 1 who = some (releaseReply s n) := by
  unfold outCtrl
  rw [if_neg (by rcases h with h | h <;> simp [h, wbit])]
  rfl

theorem outRead_word (s : State) (n : Nat) (who : Requester) (h : boundOther s n who = false) (hw : wleft (mb s n) ≠ 0) :
    outRead s n who = emit (setMb s n { mb s n with rd := (mb s n).rd + 1 }) (.regRsp (((mb s n).replies.headD []).getD (mb s n).rd 0) false) := by
  have ho : mbxOut s n = (((mb s n).replies.headD []).getD (mb s n).rd 0, setMb s n { mb s n with rd := (mb s n).rd + 1 }) := if_neg hw
  rw [outRead, if_neg (by simp [h]), ho]

theorem outRead_none (s : State) (n : Nat) (who : Requester) (h : boundOther s n who = false) (hw : wleft (mb s n) = 0) :
    outRead s n who = emit (setBits s (mbOff n 0x10) 0x20000#32) (.regRsp 0 false) := by
  have ho : mbxOut s n = (0, setBits s (mbOff n 0x10) 0x20000#32) := if_pos hw
  rw [outRead, if_neg (by simp [h]), ho]

theorem releaseReply_last (s : State) (n : Nat) (r : List Word) (h : (mb s n).replies = [r]) :
    releaseReply s n = setMb s n { mb s n with
      replies := [], rd := 0, released := false, busy := false, submitted := 0, words := []
      bound := if (mb s n).blob.isSome then (mb s n).bound else none } := by
  unfold releaseReply
  dsimp only
  rw [h]

theorem releaseReply_next (s : State) (n : Nat) (r r' : List Word) (rest : List (List Word)) (h : (mb s n).replies = r :: r' :: rest) :
    releaseReply s n = noteSaved (setMb s n { mb s n with replies := r' :: rest, rd := 0, released := true }) n := by
  unfold releaseReply
  dsimp only
  rw [h]

/-- What a final reply makes of its source's mailbox. -/
theorem mb_reply (s : State) (src : Nat) (op : Op) (tag : Word) (st : Nat) (ps : List Word) :
    mb (reply s src op tag st ps) src = { mb s src with
      packet := none, replies := (mb s src).replies ++ [replyWords (opVal op) st tag ps], hbLoss := 0
      blob := if st = stBadLength ∨ st = stBusy then (mb s src).blob else none
      retTag := if st != stBadLength && st != stBusy && st != stPending then some tag else (mb s src).retTag
      retReply := if st != stBadLength && st != stBusy && st != stPending then some (op, replyWords (opVal op) st tag ps)
        else (mb s src).retReply } := tgetD_tset_same _ _ _ _

/-- Settles O25: a reply changes its source's mailbox and the background commands alone. -/
theorem mailboxReplies : Obligations.MailboxReplies := by
  unfold Obligations.MailboxReplies
  refine ⟨fun s m w who => ⟨fun h => ⟨fun hb => ?_, fun hb hf hl => ?_, fun hb hf => ?_⟩, fun h hb hf => ?_, fun h hb => ⟨fun hw => ?_, fun hw => ?_⟩,
    fun h hb => ⟨fun r hr => ?_, fun r r' rest hr => ?_⟩⟩, fun s src op tag st ps => ⟨?_, ?_, fun b hb => ?_, fun n hn => ?_, rfl, rfl, rfl, rfl, rfl,
    rfl, rfl, rfl, rfl, fun h1 h2 h3 => ⟨?_, ?_⟩⟩⟩
  · exact (runReg_opens h (by rw [if_pos (show boundOther (quiet s) m who = true from hb)]) : execMbxInData m w who s = _)
  · exact (runReg_opens h (by
      rw [if_neg (by rw [show boundOther (quiet s) m who = false from hb]; decide), mbxIn_takes (quiet s) m w who hf hl]) :
      execMbxInData m w who s = _)
  · exact (runReg_opens h (by
      rw [if_neg (by rw [show boundOther (quiet s) m who = false from hb]; decide), mbxIn_busy (quiet s) m w who hf]) :
      execMbxInData m w who s = _)
  · exact (runReg_opens h (by rw [inCtrl_clear (quiet s) m who hb, mbxClear, if_neg (by rw [show (mb (quiet s) m).busy = false from hf]; decide)]) :
      execMbxClear m who s = _)
  · exact (runReg_opens h (outRead_word (quiet s) m who hb hw) : execMbxOutDataRead m who s = _)
  · exact (runReg_opens h (outRead_none (quiet s) m who hb hw) : execMbxOutDataRead m who s = _)
  · exact (runReg_opens h (by rw [outCtrl_done (quiet s) m who hb, releaseReply_last (quiet s) m r hr]) : execMbxDone m who s = _)
  · exact (runReg_opens h (by rw [outCtrl_done (quiet s) m who hb, releaseReply_next (quiet s) m r r' rest hr]) : execMbxDone m who s = _)
  · rw [mb_reply]
  · rw [mb_reply]
  · have hm := (List.mem_filter.mp hb).2
    simpa using hm
  · exact mb_setMb_other s src n _ hn
  · rw [mb_reply]
    simp [h1, h2, h3]
  · rw [mb_reply]
    simp [h1, h2, h3]

/-! Admission. -/

/-- A source's submitted words have been taken out of its buffer; it had no blob open. -/
def emptied (s : State) (src : Nat) : State := setMb s src { mb s src with words := [], blob := none }

theorem nextFragment_none (m : Mbox) (o f : Nat) (t : Word) (h : m.blob = none) : nextFragment m o f t = false := by
  rw [nextFragment, h]

/-- Orders 4 to 8 of 03 R90, for a packet that is no fragment. -/
def admitOp (s : State) (src : Nat) (op : Op) (flags : Nat) (tag : Word) (p : List Word) : State :=
  if !opRight (emptied s src) src op then reply (emptied s src) src op tag stNotPermitted []
  else if !opInState op s.otp.lc then reply (emptied s src) src op tag stLcState []
  else if !flagsOk op flags false then reply (emptied s src) src op tag stBadParam []
  else if !lenOk op p then reply (emptied s src) src op tag stBadLength []
  else if !(fieldsOk op p && blobOk op p none (blobBytes op p)) then reply (emptied s src) src op tag stBadParam []
  else if (flags % 2 == 1) = true ∧ op ≠ .fwStage then
    match admitScope (emptied s src) src op p with
    | some st => reply (emptied s src) src op tag st []
    | none => replyPending (emptied s src) src { op := op, tag := tag, params := p, more := flags % 2 == 1, blob := blobBytes op p }
        (repeatedWords op p)
  else setMb (emptied s src) src { mb s src with
    words := [], blob := none, packet := some { op := op, tag := tag, params := p, more := flags % 2 == 1, blob := blobBytes op p } }

section
variable (s : State) (src : Nat) (hb : (mb s src).blob = none) (h2 : 2 ≤ (mb s src).words.length)
include hb h2

theorem admitWords_length (hl : (mb s src).words.length ≠ (pw (mb s src).words 0).toNat % 2 ^ 16 + 2) : admitWords s src =
    replyRaw (emptied s src) src ((pw (mb s src).words 0).toNat / 2 ^ 24) (pw (mb s src).words 1) stBadLength none false := by
  unfold admitWords
  dsimp only
  rw [nextFragment_none _ _ _ _ hb, Bool.and_false, if_neg (by omega), if_pos hl]
  rfl

theorem admitWords_opcode (hl : (mb s src).words.length = (pw (mb s src).words 0).toNat % 2 ^ 16 + 2)
    (ho : opOf ((pw (mb s src).words 0).toNat / 2 ^ 24) = none) : admitWords s src =
    replyRaw (emptied s src) src ((pw (mb s src).words 0).toNat / 2 ^ 24) (pw (mb s src).words 1) stBadOpcode (some (pw (mb s src).words 1)) false := by
  unfold admitWords
  dsimp only
  rw [nextFragment_none _ _ _ _ hb, Bool.and_false, if_neg (by omega), if_neg (not_not_intro hl), ho]
  rfl

theorem admitWords_listed (op : Op) (hl : (mb s src).words.length = (pw (mb s src).words 0).toNat % 2 ^ 16 + 2)
    (ho : opOf ((pw (mb s src).words 0).toNat / 2 ^ 24) = some op) (ht : (mb s src).retTag ≠ some (pw (mb s src).words 1)) :
    admitWords s src = admitOp s src op ((pw (mb s src).words 0).toNat / 2 ^ 16 % 256) (pw (mb s src).words 1)
      ((mb s src).words.drop 2) := by
  unfold admitWords
  dsimp only
  rw [nextFragment_none _ _ _ _ hb, Bool.and_false, if_neg (by omega), if_neg (not_not_intro hl), ho]
  dsimp only
  rw [if_neg ht]
  simp only [Bool.false_eq_true, if_false, Option.map_none, Option.getD_none, List.nil_append]
  rfl
end

/-- GO on a free mailbox, while the Hub takes packets. -/
theorem mbxGo_admits {s : State} {m : Nat} {who : Requester} (ha : hubAdmits s = true) (h : opens s who (mbxReg m 4) = true)
    (hw : boundOther s m who = false) (hb : (mb s m).busy = false) : exec (.mbxGo m who) s = .next (finish s (emit
      (admitWords (setMb (quiet s) m { mb s m with busy := true, submitted := (mb s m).words.length }) m) (.regRsp 0 false))) := by
  have hg : mbxGo (quiet s) m = admitWords (setMb (quiet s) m { mb s m with busy := true, submitted := (mb s m).words.length }) m := by
    rw [mbxGo, if_neg (by rw [show (mb (quiet s) m).busy = false from hb]; decide), submit]
    exact if_pos ha
  exact (runReg_opens h (by rw [inCtrl_go (quiet s) m who hw, hg]) : execMbxGo m who s = _)

/-- The one reply to a packet that is refused. -/
theorem replies_emptied (s : State) (src : Nat) (op : Op) (tag : Word) (st : Nat) (h : (mb s src).replies = []) :
    (mb (emit (reply (emptied s src) src op tag st []) (.regRsp 0 false)) src).replies = [replyWords (opVal op) st tag []] := by
  show (mb (reply (emptied s src) src op tag st []) src).replies = _
  rw [mb_reply, emptied, mb_setMb_same]
  show (mb s src).replies ++ _ = _
  rw [h]
  rfl

theorem replyRaw_emptied (s : State) (src o : Nat) (tag : Word) (st : Nat) (rt : Option Word) (h : (mb s src).replies = []) :
    (mb (emit (replyRaw (emptied s src) src o tag st rt false) (.regRsp 0 false)) src).replies = [replyWords o st tag []] ∧
      (mb (emit (replyRaw (emptied s src) src o tag st rt false) (.regRsp 0 false)) src).packet = none ∧
      (rt.isSome = true → (mb (emit (replyRaw (emptied s src) src o tag st rt false) (.regRsp 0 false)) src).retTag = rt) := by
  have e : mb (emit (replyRaw (emptied s src) src o tag st rt false) (.regRsp 0 false)) src = _ := mb_setMb_same _ _ _
  rw [e, emptied, mb_setMb_same]
  refine ⟨?_, rfl, fun hr => if_pos hr⟩
  show (mb s src).replies ++ _ = _
  rw [h]
  rfl

/-- One frame holds a whole packet of the stream. -/
theorem streamPacket_whole (s : State) (f : InFrame) (hi : s.fab.inbox = [f]) (hf : isStreamFrame f = true) (hb : (mb s 17).busy = false)
    (hl : (bytesWords f.payload).length = fld ((bytesWords f.payload).headD 0) 15 0 + 2) (hm : (bytesWords f.payload).length ≤ 4098) :
    streamPacket s = submit (setMb { s with fab := { s.fab with inbox := [] } } 17
      { mb s 17 with words := bytesWords f.payload, vertex := f.hdr.src }) 17 := by
  have hg : gatherWords [f] (bytesWords f.payload).length [] 0 = some (bytesWords f.payload, 1) := by
    rw [gatherWords, if_neg (by rw [hl]; exact Nat.not_succ_le_zero _), gatherWords, List.nil_append, if_pos (Nat.le_refl _),
      List.take_length]
  have hd : dropStream [f] 1 = [] := by
    rw [dropStream, if_neg one_ne_zero, if_pos hf]
    rfl
  unfold streamPacket
  rw [hi, List.filter_cons_of_pos hf, List.filter_nil]
  dsimp only
  rw [← hl, Nat.min_eq_left hm, hg]
  dsimp only
  rw [hd]
  exact if_neg (by rw [show (mb { s with fab := { s.fab with inbox := [] } } 17).busy = false from hb]; decide)

/-- Settles O26: the orders of 03 R90 in turn. -/
theorem packetAdmitted : Obligations.PacketAdmitted := by
  unfold Obligations.PacketAdmitted
  intro s m who ha
  refine ⟨fun h hw hb hn hr h2 => ?_, fun f h hi hf hb hl hm => (runEng_run h (streamPacket_whole (quiet s) f hi hf hb hl hm) :
    execMbxStreamPacket s = _)⟩
  obtain ⟨t, hg, ht, hl1, hl2, hl3⟩ : ∃ t, exec (.mbxGo m who) s = .next (finish s (emit (admitWords t m) (.regRsp 0 false))) ∧
      mb t m = { mb s m with busy := true, submitted := (mb s m).words.length } ∧ (∀ op, opRight (emptied t m) m op = opRight s m op) ∧
      t.otp = s.otp ∧ t.out = [] := ⟨_, mbxGo_admits ha h hw hb, mb_setMb_same _ _ _, fun _ => rfl, rfl, rfl⟩
  have t1 : (mb t m).words = (mb s m).words := by rw [ht]
  have t2 : (mb t m).blob = none := by rw [ht]; exact hn
  have t3 : (mb t m).replies = [] := by rw [ht]; exact hr
  have t4 : 2 ≤ (mb t m).words.length := by rw [t1]; exact h2
  refine ⟨fun hl => ?_, fun hl ho => ?_, fun op hl ho hq => ?_⟩
  · obtain ⟨r1, r2, -⟩ := replyRaw_emptied t m _ _ _ _ t3
    have e := admitWords_length t m t2 t4 (by rw [t1]; exact hl)
    rw [t1] at e
    exact ⟨_, hg, by rw [e]; exact r1, by rw [e]; exact r2⟩
  · obtain ⟨r1, -, r3⟩ := replyRaw_emptied t m _ _ _ _ t3
    have e := admitWords_opcode t m t2 t4 (by rw [t1]; exact hl) (by rw [t1]; exact ho)
    rw [t1] at e
    exact ⟨_, hg, by rw [e]; exact r1, by rw [e]; exact r3 rfl⟩
  · have e := admitWords_listed t m t2 t4 op (by rw [t1]; exact hl) (by rw [t1]; exact ho) (by rw [t1, ht]; exact hq)
    rw [t1] at e
    refine ⟨fun h4 => ⟨_, hg, ?_⟩, fun h4 h5 => ⟨_, hg, ?_⟩, fun h4 h5 h6 => ⟨_, hg, ?_⟩, fun h4 h5 h6 h7 => ⟨_, hg, ?_⟩,
      fun h4 h5 h6 h7 h8 => ⟨_, hg, ?_⟩, fun h4 h5 h6 h7 h8 h9 => ⟨_, hg, ?_⟩⟩ <;> rw [e, admitOp, hl1, hl2]
    · rw [if_pos (by rw [h4]; rfl)]
      exact replies_emptied t m op _ _ t3
    · rw [if_neg (by rw [h4]; decide), if_pos (by rw [h5]; rfl)]
      exact replies_emptied t m op _ _ t3
    · rw [if_neg (by rw [h4]; decide), if_neg (by rw [h5]; decide), if_pos (by rw [h6]; rfl)]
      exact replies_emptied t m op _ _ t3
    · rw [if_neg (by rw [h4]; decide), if_neg (by rw [h5]; decide), if_neg (by rw [h6]; decide), if_pos (by rw [h7]; rfl)]
      exact replies_emptied t m op _ _ t3
    · rw [if_neg (by rw [h4]; decide), if_neg (by rw [h5]; decide), if_neg (by rw [h6]; decide), if_neg (by rw [h7]; decide),
        if_pos (by rw [h8]; rfl)]
      exact replies_emptied t m op _ _ t3
    · rw [h6, if_neg (by rw [h4]; decide), if_neg (by rw [h5]; decide), if_neg (by rw [show flagsOk op 0 false = true from rfl]; decide), if_neg (by rw [h7]; decide),
        if_neg (by rw [h8, h9]; decide), if_neg (fun h => absurd h.1 (by decide))]
      have hm : ∀ x, mb (emit (setMb (emptied t m) m x) (.regRsp 0 false)) m = x := fun x => mb_setMb_same _ _ _
      rw [hm, ht]
      exact ⟨rfl, hr, rfl, congrArg (fun o : List Output => o ++ [Output.regRsp 0 false]) hl3⟩

/-! The frames of Hub commands. -/

section
variable {src : Nat} {op : Op} {f : State → Packet → State} {s : State} (h : engUp s = true)
include h

theorem runCmd_none (hp : packetOf s src op = none) : runCmd src op f s = .next (finish s (quiet s)) :=
  runEng_run h (by rw [show packetOf (quiet s) src op = none from hp])

theorem runCmd_waits {k : Packet} (hp : packetOf s src op = some k) (hw : hubTakes s src = false ∨ (derives op = true ∧ missPending s = true)) :
    runCmd src op f s = .next (finish s (quiet s)) :=
  runEng_run h (by
    rw [show packetOf (quiet s) src op = some k from hp]
    exact if_pos (by
      show (!hubTakes s src || (derives op && missPending s)) = true
      rcases hw with hw | ⟨h1, h2⟩
      · rw [hw]; rfl
      · rw [h1, h2]; exact Bool.or_true _))

theorem runCmd_refused {k : Packet} {st : Nat} (hp : packetOf s src op = some k) (ht : hubTakes s src = true)
    (hm : (derives op && missPending s) = false) (ha : admitScope s src op k.params = some st) :
    runCmd src op f s = .next (finish s (reply (taken s src) src op k.tag st [])) :=
  runEng_run h (by
    rw [show packetOf (quiet s) src op = some k from hp]
    dsimp only
    rw [if_neg (show ¬(!hubTakes (quiet s) src || (derives op && missPending (quiet s))) = true from fun e => by
        have e : (!hubTakes s src || (derives op && missPending s)) = true := e
        rw [ht, hm] at e
        exact absurd e (by decide)),
      show admitScope (quiet s) src op k.params = some st from ha]
    rfl)
end

/-- A packet that passes the orders runs. -/
theorem runCmd_takes {src : Nat} {op : Op} {f : State → Packet → State} {s u : State} {k : Packet} (h : takes s src op k = true)
    (hu : f (taken s src) k = u) : runCmd src op f s = .next (finish s u) := by
  simp only [takes, Bool.and_eq_true, beq_iff_eq, Bool.not_eq_true'] at h
  obtain ⟨⟨⟨⟨he, hp⟩, ht⟩, hm⟩, ha⟩ := h
  exact runEng_run he (by
    rw [show packetOf (quiet s) src op = some k from hp]
    dsimp only
    rw [if_neg (show ¬(!hubTakes (quiet s) src || (derives op && missPending (quiet s))) = true from fun e => by
        have e : (!hubTakes s src || (derives op && missPending s)) = true := e
        rw [ht, hm] at e
        exact absurd e (by decide)),
      show admitScope (quiet s) src op k.params = none from ha]
    exact hu)

/-- What turns a command away, whatever the command does. -/
theorem runCmd_guards {src : Nat} {op : Op} {f : State → Packet → State} {s : State} (h : engUp s = true) :
    (packetOf s src op = none → runCmd src op f s = .next (finish s (quiet s))) ∧ ∀ k, packetOf s src op = some k →
      (hubTakes s src = false ∨ (derives op = true ∧ missPending s = true) → runCmd src op f s = .next (finish s (quiet s))) ∧
      ∀ st, hubTakes s src = true → (derives op && missPending s) = false → admitScope s src op k.params = some st →
        runCmd src op f s = .next (finish s (reply (taken s src) src op k.tag st [])) :=
  ⟨runCmd_none h, fun _ hp => ⟨runCmd_waits h hp, fun _ ht hm ha => runCmd_refused h hp ht hm ha⟩⟩

/-! The frames of SPDM requests. -/

theorem spdmTake_none {s : State} {src : Nat} {b : Bool} (h : packetOf s src .spdm = none) : spdmTake s (.mbox src) b = none := by
  rw [spdmTake, h]

theorem spdmTake_heard {s : State} {src : Nat} {b : Bool} (h : heard s src b = true) :
    engUp s = true ∧ spdmTake (quiet s) (.mbox src) b = some (taken s src) ∧ ∃ k, packetOf s src .spdm = some k ∧ k.more = false := by
  simp only [heard, Bool.and_eq_true] at h
  obtain ⟨⟨he, hp⟩, ht⟩ := h
  cases hk : packetOf s src .spdm with
  | none => rw [hk] at hp; exact nomatch hp
  | some k =>
    rw [hk] at hp
    have hq : (!k.more && wbit (pw k.params 0) 0 == b) = true := hp
    refine ⟨he, ?_, k, rfl, ?_⟩
    · rw [spdmTake, show packetOf (quiet s) src .spdm = some k from hk]
      exact if_pos (by rw [show hubTakes (quiet s) src = true from ht, Bool.true_and]; exact hq)
    · simp only [Bool.and_eq_true, Bool.not_eq_true'] at hq
      exact hq.1

/-- A request in a session, before its own part: the message, the channel, the session and its FINISH. -/
theorem spdmRun_none {c : Conn} {sid : Option Nat} {f : State → State × Option SpdmRsp} {s : State} (h : spdmTake s c sid.isSome = none) :
    spdmRun c sid f s = s := by rw [spdmRun, h]

section
variable {c : Conn} {n : Nat} {f : State → State × Option SpdmRsp} {s t : State} (h : spdmTake s c true = some t)
include h

theorem spdmRun_channel (hc : channelUp t = false) : spdmRun c (some n) f s = spdmSay t c (.error .unspecified) := by
  rw [spdmRun, show spdmTake s c (some n).isSome = some t from h]
  exact if_pos (by rw [hc]; rfl)

theorem spdmRun_stranger (hc : channelUp t = true) (hs : sessionOf t c n = none) :
    spdmRun c (some n) f s = spdmSay t c (.error .unexpected) := by
  rw [spdmRun, show spdmTake s c (some n).isSome = some t from h]
  dsimp only
  rw [if_neg (by rw [hc]; decide), if_pos (by rw [hs]; rfl)]

theorem spdmRun_answers {x : SpdmRsp} {r : State} (hc : channelUp t = true) (hs : (sessionOf t c n).isSome = true)
    (hf : f (loadSession t n) = (r, some x)) :
    spdmRun c (some n) f s = spdmSay (if finished t c n then markUsed r c n else r) c x := by
  rw [spdmRun, show spdmTake s c (some n).isSome = some t from h]
  dsimp only
  rw [if_neg (by rw [hc]; decide), if_neg (by rw [Option.isNone_iff_eq_none]; exact fun e => by rw [e] at hs; exact absurd hs (by decide)), hf]
end

/-- A session that goes to its record, or comes from it, is the same session. -/
theorem sessions_sealUnder (s : State) (a b : Nat) (n d p : Bytes) : (sealUnder s a b n d p).2.ident = s.ident := by
  have hu : (useKey s a b).2.ident = s.ident := by
    unfold useKey
    dsimp only
    split
    · rfl
    split
    · rfl
    split
    · rfl
    split
    · rfl
    split <;> rfl
  unfold sealUnder
  dsimp only
  split <;> exact hu

theorem ident_derive (s : State) (k : BitVec 256) (l : String) (c : Bytes) : (derive s k l c).2.ident = s.ident := by
  obtain ⟨m, _, _, _, _, h⟩ := absorb_counts (countEv s 0x0A1 none 1) (keyBytes k) (kmacX l c).length
  obtain ⟨_, _, _, _, h'⟩ := countEv_counts s 0x0A1 none 1
  show (absorb _ _ _).ident = _
  rw [h, h']

theorem ident_sealOwn (s : State) (a b : Nat) (n p : Bytes) : (sealOwn s a b n p).2.ident = s.ident := by
  unfold sealOwn
  split
  · rfl
  · exact (sessions_sealUnder _ _ _ _ _ _).trans (ident_derive _ _ _ _)

theorem sessions_loadSession (s : State) (n : Nat) : (loadSession s n).ident.sessions = s.ident.sessions := by
  unfold loadSession
  dsimp only
  split
  · unfold spillSession
    split
    · rfl
    · exact congrArg (·.sessions) (ident_sealOwn _ _ _ _ _)
  · rfl

theorem sessionOf_congr {s t : State} (h : t.ident.sessions = s.ident.sessions) (c : Conn) (n : Nat) : sessionOf t c n = sessionOf s c n := by
  rw [sessionOf, sessionOf, h]

theorem sessionOf_loadSession (s : State) (n : Nat) (c : Conn) (i : Nat) : sessionOf (loadSession s n) c i = sessionOf s c i :=
  sessionOf_congr (sessions_loadSession s n) c i

/-- A request with a row of its own, in a session or wherever it comes: before FINISH it is answered with an error alone. -/
def Rowed (c : Conn) (n : Nat) (f : State → State) : Prop :=
  ∃ g, (∀ s, f s = spdmRun c (some n) g s) ∧ ∀ s, finished s c n = false → g s = (s, some (.error .unexpected))

theorem rowed_inSession (c : Conn) (n : Nat) (f : State → Session → State × Option SpdmRsp) : Rowed c n (inSession c n f) := by
  refine ⟨_, fun _ => rfl, fun s hs => ?_⟩
  unfold finished at hs
  cases hx : sessionOf s c n with
  | none => rfl
  | some x =>
    rw [hx] at hs
    exact if_neg (fun e => by rw [show x.finish = false from hs] at e; exact absurd e (by decide))

theorem rowed_anywhere (c : Conn) (n : Nat) (f : State → State × Option SpdmRsp) : Rowed c n (anywhere c (some n) f) := by
  refine ⟨_, fun _ => rfl, fun s hs => ?_⟩
  dsimp only
  rw [if_neg (by rw [hs]; decide)]

/-- What turns a request in a session away. -/
theorem rowed_guards {src n : Nat} {f : State → State} {s : State} (h : engUp s = true) (hf : Rowed (.mbox src) n f) :
    (packetOf s src .spdm = none → runEng f s = .next (finish s (quiet s))) ∧
    (heard s src true = true → channelUp s = false → runEng f s = .next (finish s (spdmSay (taken s src) (.mbox src) (.error .unspecified)))) ∧
    (heard s src true = true → channelUp s = true → sessionOf s (.mbox src) n = none →
      runEng f s = .next (finish s (spdmSay (taken s src) (.mbox src) (.error .unexpected)))) ∧
    (heard s src true = true → channelUp s = true → (sessionOf s (.mbox src) n).isSome = true → finished s (.mbox src) n = false →
      runEng f s = .next (finish s (spdmSay (loadSession (taken s src) n) (.mbox src) (.error .unexpected)))) := by
  obtain ⟨w, hw, he⟩ := hf
  refine ⟨fun hp => ?_, fun hh hc => ?_, fun hh hc hs => ?_, fun hh hc hs hn => ?_⟩
  · exact runEng_run h ((hw _).trans (spdmRun_none (spdmTake_none hp)))
  · exact runEng_run h ((hw _).trans (spdmRun_channel (spdmTake_heard hh).2.1 hc))
  · exact runEng_run h ((hw _).trans (spdmRun_stranger (spdmTake_heard hh).2.1 hc hs))
  · have hl : finished (loadSession (taken s src) n) (.mbox src) n = false := by
      rw [finished, sessionOf_loadSession]
      exact hn
    refine runEng_run h ((hw _).trans ((spdmRun_answers (spdmTake_heard hh).2.1 hc hs (he _ hl)).trans ?_))
    rw [if_neg (by rw [show finished (taken s src) (.mbox src) n = false from hn]; decide)]

/-- BCP_SPDM with a whole message is a request in its session. -/
theorem bcpSpdm_heard {s u : State} {src : Nat} {req : SpdmReq} {sid : Option Nat} (hh : heard s src sid.isSome = true)
    (hu : spdmRun (.mbox src) sid (fun s => spdmGeneric s (.mbox src) req sid) (quiet s) = u) :
    exec (.bcpSpdm src req sid) s = .next (finish s u) := by
  obtain ⟨he, -, k, hk, hm⟩ := spdmTake_heard hh
  refine (runEng_run he ?_ : execBcpSpdm src req sid s = _)
  rw [show packetOf (quiet s) src .spdm = some k from hk]
  exact (if_neg (by rw [hm]; decide)).trans hu

theorem bcpSpdm_none {s : State} {src : Nat} {req : SpdmReq} {sid : Option Nat} (h : engUp s = true) (hp : packetOf s src .spdm = none) :
    exec (.bcpSpdm src req sid) s = .next (finish s (quiet s)) :=
  (runEng_run h (by rw [show packetOf (quiet s) src .spdm = none from hp]) : execBcpSpdm src req sid s = _)

/-- Every Hub command but BCP_SPDM runs in the frame of 03 R90's orders 9 and 10. -/
theorem hubCommands_run (s : State) (src : Nat) (m : Meas) (v : FwVerdict) (x : SelfFails) (g : Bool) :
    ∀ p ∈ ([(.bcpGetInfo src, Op.getInfo), (.bcpQuery src m, Op.query), (.bcpDebugAuth src g, Op.debugAuth), (.bcpKeyDerive src, Op.keyDerive),
        (.bcpKeyInvalidate src, Op.keyInvalidate), (.bcpKeyInfo src, Op.keyInfo), (.bcpDomainEnrol src g, Op.domainEnrol),
        (.bcpDomainRekey src, Op.domainRekey), (.bcpChordRekey src, Op.chordRekey), (.bcpRegionCreate src, Op.regionCreate),
        (.bcpRegionDestroy src, Op.regionDestroy), (.bcpRegionRekey src, Op.regionRekey), (.bcpPgdWrite src, Op.pgdWrite),
        (.bcpPgdRead src, Op.pgdRead), (.bcpPartitionCreate src, Op.partitionCreate), (.bcpPartitionDestroy src, Op.partitionDestroy),
        (.bcpContextTeardown src, Op.contextTeardown), (.bcpContextReset src, Op.contextReset), (.bcpMigLogStart src, Op.migLogStart),
        (.bcpMigFreeze src, Op.migFreeze), (.bcpMigSave src, Op.migSave), (.bcpMigRestore src, Op.migRestore), (.bcpPmuConfig src, Op.pmuConfig),
        (.bcpDumpArm src, Op.dumpArm), (.bcpWatchSet src, Op.watchSet), (.bcpRepairStatus src, Op.repairStatus), (.bcpSelftest src x, Op.selftest),
        (.bcpFwStage src v, Op.fwStage), (.bcpTandemFailover src, Op.tandemFailover)] : List (Instr × Op)),
      ∃ f, exec p.1 s = runCmd src p.2 f s := by
  simp only [List.forall_mem_cons]
  exact
  ⟨⟨_, (rfl : execBcpGetInfo src s = _)⟩, ⟨_, (rfl : execBcpQuery src m s = _)⟩, ⟨_, (rfl : execBcpDebugAuth src g s = _)⟩,
    ⟨_, (rfl : execBcpKeyDerive src s = _)⟩, ⟨_, (rfl : execBcpKeyInvalidate src s = _)⟩, ⟨_, (rfl : execBcpKeyInfo src s = _)⟩,
    ⟨_, (rfl : execBcpDomainEnrol src g s = _)⟩, ⟨_, (rfl : execBcpDomainRekey src s = _)⟩, ⟨_, (rfl : execBcpChordRekey src s = _)⟩,
    ⟨_, (rfl : execBcpRegionCreate src s = _)⟩, ⟨_, (rfl : execBcpRegionDestroy src s = _)⟩,
    ⟨_, (rfl : execBcpRegionRekey src s = _)⟩, ⟨_, (rfl : execBcpPgdWrite src s = _)⟩, ⟨_, (rfl : execBcpPgdRead src s = _)⟩,
    ⟨_, (rfl : execBcpPartitionCreate src s = _)⟩, ⟨_, (rfl : execBcpPartitionDestroy src s = _)⟩,
    ⟨_, (rfl : execBcpContextTeardown src s = _)⟩, ⟨_, (rfl : execBcpContextReset src s = _)⟩,
    ⟨_, (rfl : execBcpMigLogStart src s = _)⟩, ⟨_, (rfl : execBcpMigFreeze src s = _)⟩, ⟨_, (rfl : execBcpMigSave src s = _)⟩,
    ⟨_, (rfl : execBcpMigRestore src s = _)⟩, ⟨_, (rfl : execBcpPmuConfig src s = _)⟩, ⟨_, (rfl : execBcpDumpArm src s = _)⟩,
    ⟨_, (rfl : execBcpWatchSet src s = _)⟩, ⟨_, (rfl : execBcpRepairStatus src s = _)⟩, ⟨_, (rfl : execBcpSelftest src x s = _)⟩,
    ⟨_, (rfl : execBcpFwStage src v s = _)⟩, ⟨_, (rfl : execBcpTandemFailover src s = _)⟩, fun _ h => nomatch h⟩

/-- The SPDM requests in a session of a mailbox that have a row of their own. -/
theorem spdmRows_run (s : State) (src n i : Nat) (sig ok : Bool) (a b c : Bytes) (peer : PeerShown) :
    ∀ r ∈ ([.hybKem (.mbox src) n a b c, .hybSign (.mbox src) n ok peer, .spdmEndSession (.mbox src) n ok, .hybChain (.mbox src) (some n),
        .hybSetChain src (some n) a, .hybGetKey (.mbox src) (some n), .spdmGetCsr (.mbox src) (some n), .spdmSetCertificate src (some n) a,
        .spdmGetMeasurements (.mbox src) (some n) i sig] : List Instr),
      ∃ f, exec r s = runEng f s ∧ Rowed (.mbox src) n f := by
  simp only [List.forall_mem_cons]
  exact
    ⟨⟨_, (rfl : execHybKem (.mbox src) n a b c s = _), rowed_inSession _ _ _⟩,
    ⟨_, (rfl : execHybSign (.mbox src) n ok peer s = _), rowed_inSession _ _ _⟩,
    ⟨_, (rfl : execSpdmEndSession (.mbox src) n ok s = _), rowed_inSession _ _ _⟩,
    ⟨_, (rfl : execHybChain (.mbox src) (some n) s = _), rowed_anywhere _ _ _⟩,
    ⟨_, (rfl : execHybSetChain src (some n) a s = _), rowed_anywhere _ _ _⟩,
    ⟨_, (rfl : execHybGetKey (.mbox src) (some n) s = _), rowed_anywhere _ _ _⟩,
    ⟨_, (rfl : execSpdmGetCsr (.mbox src) (some n) s = _), rowed_anywhere _ _ _⟩,
    ⟨_, (rfl : execSpdmSetCertificate src (some n) a s = _), rowed_anywhere _ _ _⟩,
    ⟨_, (rfl : execSpdmGetMeasurements (.mbox src) (some n) i sig s = _), rowed_anywhere _ _ _⟩, fun _ h => nomatch h⟩

/-- Settles O27: each command runs in the frame of its kind. -/
theorem hubGuards : Obligations.HubGuards := by
  unfold Obligations.HubGuards
  refine ⟨fun s src m v x g h p hp => ?_, fun s src n i sig ok a b c req peer h r hr => ?_⟩
  · obtain ⟨f, hf⟩ := hubCommands_run s src m v x g p hp
    rw [hf]
    exact runCmd_guards h
  · obtain ⟨f, hf, hw⟩ := spdmRows_run s src n i sig ok a b c peer r hr
    obtain ⟨h1, h2, h3, h4⟩ := rowed_guards h hw
    rw [hf]
    exact ⟨fun hp => ⟨h1 hp, bcpSpdm_none h hp⟩,
      fun hh hc => ⟨h2 hh hc, bcpSpdm_heard (sid := some n) hh (spdmRun_channel (spdmTake_heard hh).2.1 hc)⟩,
      fun hh hc hs => ⟨h3 hh hc hs, bcpSpdm_heard (sid := some n) hh (spdmRun_stranger (spdmTake_heard hh).2.1 hc hs)⟩, h4⟩

end Sys2Proof.Machine
end

section
/-! SUPPORT. Queries, self-tests, parameter groups, keys and regions (03 R98 to R104; 04 R114 to R123; 08 R258 to R287; 10 R327). -/

namespace Sys2Proof.Machine

/- Proofs are elaborated in their order, for the reason given in the first section of this kind. -/
set_option deprecated.oldSectionVars true

/-! Queries. -/

theorem queryWords_part (s : State) (src : Nat) (m : Meas) (h : isM src = false) :
    (queryWords s src m).getD 0 0 = toW (m.engKHz / 50000 * 50000) ∧
      (queryWords s src m).getD 6 0 = toW ((shownNow s m).2.2.2 / 1000 * 1000) := by
  unfold queryWords
  rw [h]
  exact ⟨rfl, rfl⟩

theorem queryWords_m (s : State) (src : Nat) (m : Meas) (h : isM src = true) :
    queryWords s src m = [toW m.engKHz, toW m.csKHz, toW m.hubKHz, toW m.regKHz, m.hot, m.cool, toW m.powerMw, toW m.limitMw,
      reg s 0x5004, reg s 0x1A00C, reg s 0x5040, reg s 0x1A014] := by
  unfold queryWords
  rw [h]
  rfl

theorem reg_taken (s : State) (src o : Nat) : reg (taken s src) o = reg s o := rfl

theorem shownNow_fresh (s : State) (m : Meas) (h : ∀ x, s.hub.shown = some x → x.1 ≠ s.aon.ts / 10000000) :
    shownNow s m = (tenMs s.aon.ts, m.hot10, m.cool10, m.power10) := by
  unfold shownNow
  cases hs : s.hub.shown with
  | none => rfl
  | some x => exact if_neg (h x hs)

theorem shownNow_kept (s : State) (m : Meas) (x : Nat × Word × Word × Nat) (h : s.hub.shown = some x) (ht : x.1 = s.aon.ts / 10000000) :
    shownNow s m = x := by
  rw [shownNow, h]
  exact if_pos ht

/-- A self-test in which nothing fails. -/
def nothingFails : SelfFails := { cores := [], mac := false, pk := false, drbg := false, parts := [] }

theorem selfTest_passes (s : State) (src : Nat) (k : Packet)
    (h : fld (pw k.params 0) 6 0 / 64 % 2 = 0 ∨ s.parts.part.any (fun p => p.2.live) = false) :
    selfTest s src k nothingFails = reply s src .selftest k.tag stOk [toW (fld (pw k.params 0) 6 0), 0] := by
  have hb : scopeFailed (fld (pw k.params 0) 6 0) nothingFails = 0 := rfl
  unfold selfTest
  dsimp only
  rw [if_neg (fun ⟨h1, h2⟩ => by
    rcases h with h | h
    · omega
    · rw [h] at h2; exact absurd h2 (by decide)), hb]
  rfl

theorem pgdAt_setPgd (s : State) (p g : Nat) (b : Bytes) : pgdAt (setPgd s p g b) p g = padTo 128 (b.take 128) := tgetD_tset_same _ _ _ _

section
variable (s : State) (src : Nat) (k : Packet) (hh : groupHeld s (fld (pw k.params 0) 19 16) (fld (pw k.params 0) 15 0) = false)
include hh

theorem pgdWrite_beyond (hg : pgdGroups s ≤ fld (pw k.params 0) 15 0) : pgdWrite s src k = reply s src .pgdWrite k.tag stBadParam [] := by
  unfold pgdWrite
  dsimp only
  rw [if_neg (by rw [hh]; decide), if_pos hg]

theorem pgdWrite_stale (hg : fld (pw k.params 0) 15 0 < pgdGroups s) (hl : (partAt s (fld (pw k.params 0) 19 16)).live = false) :
    pgdWrite s src k = reply s src .pgdWrite k.tag stStaleHandle [] := by
  unfold pgdWrite
  dsimp only
  rw [if_neg (by rw [hh]; decide), if_neg (by omega), if_pos (by rw [hl]; rfl)]

variable (hg : fld (pw k.params 0) 15 0 < pgdGroups s) (hl : (partAt s (fld (pw k.params 0) 19 16)).live = true)
include hg hl

theorem pgdWrite_form (hn : pgdN (wordBytes (k.params.drop 1)) ≠ 0) (hf : pgdForm (wordBytes (k.params.drop 1)) = false) :
    pgdWrite s src k = reply s src .pgdWrite k.tag stBadParam [] := by
  unfold pgdWrite
  dsimp only
  rw [if_neg (by rw [hh]; decide), if_neg (by omega), if_neg (by rw [hl]; decide), if_neg hn, if_pos (by rw [hf]; rfl)]

theorem pgdWrite_accepts (h : pgdN (wordBytes (k.params.drop 1)) = 0 ∨ (pgdForm (wordBytes (k.params.drop 1)) = true ∧
      pgdRanges (wordBytes (k.params.drop 1)) = true ∧
      (pgdRule (wordBytes (k.params.drop 1)) = 2 → pgdSrc (wordBytes (k.params.drop 1)) = 0) ∧
      pgdRegions s (fld (pw k.params 0) 19 16) (wordBytes (k.params.drop 1)) = none)) :
    pgdWrite s src k = reply (setPgd s (fld (pw k.params 0) 19 16) (fld (pw k.params 0) 15 0) (wordBytes (k.params.drop 1))) src .pgdWrite
      k.tag stOk [] := by
  unfold pgdWrite
  dsimp only
  rw [if_neg (by rw [hh]; decide), if_neg (by omega), if_neg (by rw [hl]; decide)]
  rcases h with h | ⟨h1, h2, h3, h4⟩
  · rw [if_pos h]
  · split
    · rfl
    · rw [if_neg (by
        rw [h1, h2]
        simp only [Bool.not_true, Bool.false_or, Bool.and_eq_true, beq_iff_eq, bne_iff_ne]
        exact fun ⟨a, b⟩ => b (h3 a)), h4]
end

/-- Settles O28: each query, self-test and group command by what it finds. -/
theorem queriesAndGroups : Obligations.QueriesAndGroups := by
  unfold Obligations.QueriesAndGroups
  refine ⟨fun s src k m => ⟨fun h => (runCmd_takes h rfl : execBcpGetInfo src s = _), fun h => ⟨fun hm => ?_, fun hm => ?_⟩,
    fun h => (runCmd_takes h rfl : execBcpRepairStatus src s = _), fun h => ⟨fun hn => ?_, fun hn => ?_⟩, fun h => ⟨fun h1 h2 x => ?_, fun h1 => ?_⟩⟩,
    fun s src k => ⟨fun h hh => ⟨fun hg => ?_, fun hg hl => ?_, fun hg hl hn hf => ?_, fun hg hl ho => ⟨?_, pgdAt_setPgd _ _ _ _⟩⟩,
      fun h => ⟨fun hg => ?_, fun hg hl => ?_, fun hg hl => ?_⟩⟩⟩
  · refine (runCmd_takes h ?_ : execBcpQuery src m s = _)
    dsimp only
    rw [if_pos hm, queryWords_m _ _ _ hm, reg_taken, reg_taken, reg_taken, reg_taken]
  · obtain ⟨h1, h2⟩ := queryWords_part (taken s src) src m hm
    exact ⟨_, (runCmd_takes h (congrArg (fun t => reply t src .query k.tag stOk (queryWords (taken s src) src m)) (if_neg (by rw [hm]; decide))) : execBcpQuery src m s = _), h1, h2,
      fun hf => by rw [shownNow_fresh s m hf], fun x hx ht => shownNow_kept s m x hx ht⟩
  · exact (runCmd_takes h (if_pos hn) : execBcpKeyInfo src s = _)
  · exact (runCmd_takes h (if_neg (by omega)) : execBcpKeyInfo src s = _)
  · exact (runCmd_takes h (if_pos ⟨h1, h2⟩) : execBcpSelftest src x s = _)
  · exact (runCmd_takes h (selfTest_passes (taken s src) src k h1) : execBcpSelftest src nothingFails s = _)
  · exact (runCmd_takes h (pgdWrite_beyond (taken s src) src k hh hg) : execBcpPgdWrite src s = _)
  · exact (runCmd_takes h (pgdWrite_stale (taken s src) src k hh hg hl) : execBcpPgdWrite src s = _)
  · exact (runCmd_takes h (pgdWrite_form (taken s src) src k hh hg hl hn hf) : execBcpPgdWrite src s = _)
  · exact (runCmd_takes h (pgdWrite_accepts (taken s src) src k hh hg hl ho) : execBcpPgdWrite src s = _)
  · exact (runCmd_takes h (if_pos hg) : execBcpPgdRead src s = _)
  · exact (runCmd_takes h ((if_neg (by show ¬ pgdGroups s ≤ _; omega)).trans (if_pos (by show (!(partAt s _).live) = true; rw [hl]; rfl))) : execBcpPgdRead src s = _)
  · exact (runCmd_takes h ((if_neg (by show ¬ pgdGroups s ≤ _; omega)).trans (if_neg (by show ¬ (!(partAt s _).live) = true; rw [hl]; decide))) : execBcpPgdRead src s = _)

/-! The key store. -/

/-- The marking of a subtree begins below the slot it hangs from. -/
theorem tget_markFrom (fuel : Nat) (d : Nat) (t : Tbl Slot) (n : Nat) (k : Slot) (h : tget t n = some k) (hd : k.depth < d) :
    tget (markFrom fuel d t) n = some k := by
  induction fuel generalizing d t with
  | zero => exact h
  | succ fuel ih =>
    refine ih (d + 1) (markDepth t d) ?_ (by omega)
    have hk : (k.depth == d) = false := beq_eq_false_iff_ne.mpr (by omega)
    rw [markDepth, tget_tmapV, h, Option.map_some, hk, Bool.and_false, Bool.false_and]
    rfl

theorem raiseGen_depth (k : Slot) (b : Nat) : (raiseGen k b).depth = k.depth := by
  unfold raiseGen
  split <;> rfl

/-- An invalidated slot loses its key and raises its generation; no Chord of a slot that has changed is left. -/
theorem invalidateSlot_slot (s : State) (n : Nat) (h : 16 ≤ n) : slotAt (invalidateSlot s n) n = raiseGen (slotAt s n) 0 ∧
    (∀ q ∈ (invalidateSlot s n).links.chord, q ∈ s.links.chord ∧ (slotAt (invalidateSlot s n) q.2.slot).state = 1 ∧
      (slotAt (invalidateSlot s n) q.2.slot).gen = q.2.slotGen) ∧ (invalidateSlot s n).hub = s.hub := by
  unfold invalidateSlot
  dsimp only
  rw [if_neg (by omega)]
  refine ⟨?_, fun q hq => ?_, rfl⟩
  · have ht := tget_markFrom (7 - (slotAt s n).depth) ((slotAt s n).depth + 1) (tset s.keys.slots n (raiseGen (slotAt s n) 0)) n _
      (tget_tset_same _ _ _) (by rw [raiseGen_depth]; omega)
    exact congrArg (·.getD Slot.zero) ht
  · obtain ⟨hm, hl⟩ := List.mem_filter.mp hq
    simp only [Bool.and_eq_true, beq_iff_eq] at hl
    exact ⟨hm, hl.1, hl.2⟩

/-- A derivation for the user: the Seal MAC engine is charged, and the slot filled. -/
def userDerived (s : State) (p : List Word) (n : Nat) : State :=
  let kb := keyBytes (slotAt s (fld (pw p 0) 10 0)).key
  let x := ascii "usr." ++ fragBytes p 6 (fld (pw p 5) 8 0) ++ [0]
  fillSlot (absorb (countEv s 0x0A1 none 1) kb x.length) n (keyOf (kmac kb x 32)) (fld (pw p 1) 7 0) (BitVec.ofNat 16 (fld (pw p 1) 23 8))
    (fld (pw p 0) 10 0) (if pw64 p 3 = 0 then 2 ^ 40 else pw64 p 3) 0

theorem keyDerive_refuses (s : State) (src : Nat) (k : Packet) (st : Nat) (h : deriveCheck s k.params = some st) :
    keyDerive s src k = reply s src .keyDerive k.tag st [] := by
  unfold keyDerive
  dsimp only
  rw [h]

theorem keyDerive_fills (s : State) (src n : Nat) (k : Packet) (h : deriveCheck s k.params = none)
    (hn : (if fld (pw k.params 2) 15 0 = 0xFFFF then lowestFree s else some (fld (pw k.params 2) 15 0)) = some n) :
    keyDerive s src k = reply (userDerived s k.params n) src .keyDerive k.tag stOk [toW n, toW (slotAt (userDerived s k.params n) n).gen] := by
  unfold keyDerive
  dsimp only
  rw [h]
  dsimp only
  rw [hn]
  rfl

/-- What a derivation leaves: the slot it fills, and nothing else of the store. -/
theorem userDerived_slots (s : State) (p : List Word) (n : Nat) :
    slotAt (userDerived s p n) n = {
      key := keyOf (kmac (keyBytes (slotAt s (fld (pw p 0) 10 0)).key) (ascii "usr." ++ fragBytes p 6 (fld (pw p 5) 8 0) ++ [0]) 32)
      typ := fld (pw p 1) 7 0, uses := BitVec.ofNat 16 (fld (pw p 1) 23 8), parent := fld (pw p 0) 10 0, state := 1
      depth := (slotAt s (fld (pw p 0) 10 0)).depth + 1, parentGen := (slotAt s (fld (pw p 0) 10 0)).gen, gen := (slotAt s n).gen
      useCount := 0, useLimit := if pw64 p 3 = 0 then 2 ^ 40 else pw64 p 3, ownerKid := 0 } ∧
    (∀ i, i ≠ n → slotAt (userDerived s p n) i = slotAt s i) ∧ (userDerived s p n).links = s.links ∧ (userDerived s p n).mem = s.mem ∧
      (userDerived s p n).dom = s.dom ∧ (userDerived s p n).hub = s.hub := by
  obtain ⟨m, _, _, _, _, h⟩ := absorb_counts (countEv s 0x0A1 none 1) (keyBytes (slotAt s (fld (pw p 0) 10 0)).key)
    (ascii "usr." ++ fragBytes p 6 (fld (pw p 5) 8 0) ++ [0]).length
  obtain ⟨_, _, _, _, h'⟩ := countEv_counts s 0x0A1 none 1
  unfold userDerived
  dsimp only
  rw [h, h']
  exact ⟨tgetD_tset_same _ _ _ _, fun i hi => tgetD_tset_other _ _ _ _ _ hi, rfl, rfl, rfl, rfl⟩

theorem deriveCheck_reserved (s : State) (p : List Word) (h0 : fld (pw p 0) 10 0 ≠ 0) (h5 : fld (pw p 0) 10 0 ≠ 5) (hl : fld (pw p 0) 10 0 < 16) :
    deriveCheck s p = some stNotPermitted := by
  unfold deriveCheck
  dsimp only
  rw [if_pos]
  simp [h0, h5, hl]

theorem deriveCheck_orphan (s : State) (p : List Word) (ht : fld (pw p 1) 7 0 = 8) (hl : 16 ≤ fld (pw p 0) 10 0)
    (hd : fld (pw p 2) 15 0 = 0xFFFF) (ho : (slotAt s (fld (pw p 0) 10 0)).state = 2) : deriveCheck s p = some stKeyOrphaned := by
  unfold deriveCheck
  dsimp only
  rw [if_neg (by simp [ht, hd, hl]), if_neg (by rw [ho]; decide), if_pos ho]

theorem keyInvalidate_done (s : State) (src : Nat) (k : Packet) (hn : 16 ≤ fld (pw k.params 0) 10 0)
    (ht : (slotAt s (fld (pw k.params 0) 10 0)).typ ≠ 6) : keyInvalidate s src k =
    reply (invalidateSlot s (fld (pw k.params 0) 10 0)) src .keyInvalidate k.tag stOk
      [toW (slotAt (invalidateSlot s (fld (pw k.params 0) 10 0)) (fld (pw k.params 0) 10 0)).gen] := if_neg (by omega)

theorem raiseGen_last (k : Slot) (h : k.gen = 0xFFFFFFFF) : raiseGen k 0 = { k with key := 0, state := 3 } := if_pos h

theorem raiseGen_next (k : Slot) (h : k.gen < 0xFFFFFFFF) : raiseGen k 0 = { k with key := 0, gen := k.gen + 1, state := 0 } :=
  if_neg (by unfold genMax; omega)

/-- A reply counts its words after those that wait. -/
theorem replies_reply (s : State) (src : Nat) (op : Op) (tag : Word) (st : Nat) (ps : List Word) :
    (mb (reply s src op tag st ps) src).replies = (mb s src).replies ++ [replyWords (opVal op) st tag ps] := by rw [mb_reply]

theorem slotAt_taken (s : State) (src n : Nat) : slotAt (taken s src) n = slotAt s n := rfl

/-- Settles O29: the slot a derivation fills, and what an invalidation leaves of a slot. -/
theorem keyCommands : Obligations.KeyCommands := by
  unfold Obligations.KeyCommands
  intro s src k
  refine ⟨fun h => ⟨fun st hs => ?_, fun h0 h5 hl => deriveCheck_reserved s _ h0 h5 hl, fun ht hl hd ho => deriveCheck_orphan s _ ht hl hd ho,
    fun n hn hf => ?_⟩, fun h => ⟨fun hn => ?_, fun hn ht => ?_⟩⟩
  · exact (runCmd_takes h (keyDerive_refuses (taken s src) src k st hs) : execBcpKeyDerive src s = _)
  · have he := (runCmd_takes h (keyDerive_fills (taken s src) src n k hn hf) : execBcpKeyDerive src s = _)
    obtain ⟨h1, h2, h3, h4, h5, h6⟩ := userDerived_slots (taken s src) k.params n
    simp only [slotAt_taken] at h1 h2
    generalize userDerived (taken s src) k.params n = v at he h1 h2 h3 h4 h5 h6
    refine ⟨_, he, ?_, h1, h2, h3, h4, h5⟩
    rw [replies_reply, h1, mb, h6]
    rfl
  · exact (runCmd_takes h (if_pos hn) : execBcpKeyInvalidate src s = _)
  · have he := (runCmd_takes h (keyInvalidate_done (taken s src) src k hn ht) : execBcpKeyInvalidate src s = _)
    obtain ⟨h1, h2, h3⟩ := invalidateSlot_slot (taken s src) (fld (pw k.params 0) 10 0) hn
    rw [slotAt_taken] at h1
    generalize invalidateSlot (taken s src) (fld (pw k.params 0) 10 0) = v at he h1 h2 h3
    refine ⟨_, he, fun hg => h1.trans (raiseGen_next _ hg), fun hg => h1.trans (raiseGen_last _ hg), ?_, h2⟩
    rw [replies_reply, mb, h3]
    rfl

/-! Regions. -/

theorem regionCreate_refuses (s : State) (src : Nat) (k : Packet) (st : Nat) (h : regionCheck s (regionReq k.params) = some st) :
    regionCreate s src k = reply s src .regionCreate k.tag st [] := by
  unfold regionCreate
  dsimp only
  rw [h]

theorem regionCheck_taken (s : State) (q : RegionReq) (hk : kidInGrant (partAt s q.part) q.kid = true) (hr : (regionAt s q.kid).isSome = true) :
    regionCheck s q = some stNoResource := by
  unfold regionCheck
  dsimp only
  rw [if_neg (by rw [hk]; decide), if_pos hr]

theorem regionCreate_asks (s : State) (src : Nat) (k : Packet) (h : regionCheck s (regionReq k.params) = none)
    (hr : reachesModule s (regionReq k.params) = true) :
    regionCreate s src k = askIdentity s src ((regionReq k.params).base / 2 ^ 48) := by
  unfold regionCreate
  dsimp only
  rw [h]
  exact if_pos hr

theorem regionCreate_installs (s : State) (src : Nat) (k : Packet) (h : regionCheck s (regionReq k.params) = none)
    (hr : reachesModule s (regionReq k.params) = false) : regionCreate s src k =
    replyRegion (installRegion s (regionReq k.params) 0).2 src k.tag (installRegion s (regionReq k.params) 0).1 := by
  unfold regionCreate
  dsimp only
  rw [h]
  exact if_neg (by rw [hr]; decide)

/-- A region whose module is not reached is installed with generation 0. -/
theorem installRegion_apart (s : State) (q : RegionReq) (n : Nat) (h : reachesModule s q = false) :
    regionAt (installRegion s q n).2 q.kid = some (installRegion s q n).1 ∧ (∀ i, i ≠ q.kid → regionAt (installRegion s q n).2 i = regionAt s i) ∧
      (installRegion s q n).2.hub = s.hub ∧ (installRegion s q n).1.gen0 = 0 := by
  have ha : isAuthority s q = false := by
    unfold reachesModule at h
    exact (Bool.or_eq_false_iff.mp h).2
  unfold installRegion
  dsimp only
  rw [h, wearOpen, if_pos (.inl (by show (!isAuthority s q) = true; rw [ha]; rfl))]
  exact ⟨tget_tset_same _ _ _, fun i hi => tget_tset_other _ _ _ _ hi, rfl, rfl⟩

theorem installRegion_fields (s : State) (q : RegionReq) (n : Nat) (h : reachesModule s q = false) :
    (installRegion s q n).1.part = q.part ∧ (installRegion s q n).1.authority = false ∧ (installRegion s q n).1.base = q.base ∧
      (installRegion s q n).1.size = q.size ∧ (installRegion s q n).1.handleGen = (slotAt s 5).gen := by
  unfold reachesModule at h
  exact ⟨rfl, (Bool.or_eq_false_iff.mp h).2, rfl, rfl, rfl⟩

theorem identityTimeout_waits (s : State) (src id : Nat) (k : Packet) (hi : s.mem.idReq = [(id, src)]) (hk : packetOf s src .regionCreate = some k) :
    identityTimeout s src = reply { s with mem := { s.mem with idReq := [] } } src .regionCreate k.tag stTimeout [] := by
  have hf : s.mem.idReq.find? (fun p => p.2 == src) = some (id, src) := by
    rw [hi, List.find?_cons_of_pos (by simp)]
  have hd : tdel s.mem.idReq id = [] := by
    rw [hi, tdel, List.filter_cons_of_neg (by simp)]
    rfl
  unfold identityTimeout
  rw [hf]
  dsimp only
  rw [hd, show packetOf { s with mem := { s.mem with idReq := [] } } src .regionCreate = some k from hk]

theorem identityTimeout_none (s : State) (src : Nat) (hi : s.mem.idReq = []) : identityTimeout s src = s := by
  rw [identityTimeout, hi]
  rfl

theorem identityLineTimeout_runs {s u : State} {src : Nat} (h : engUp s = true) (hf : fwActs s = true) (hu : identityTimeout (quiet s) src = u) :
    exec (.identityLineTimeout src) s = .next (finish s u) :=
  (runEng_run h ((if_pos hf).trans hu) : execIdentityLineTimeout src s = _)

theorem identityLineTimeout_none {s : State} {src : Nat} (h : engUp s = true) (hi : s.mem.idReq = []) :
    exec (.identityLineTimeout src) s = .next (finish s (quiet s)) :=
  (runEng_run h (by dsimp only; rw [identityTimeout_none (quiet s) src hi, ite_self]) : execIdentityLineTimeout src s = _)

section
variable (s : State) (src : Nat) (k : Packet)

theorem regionDestroy_none (h : regionAt s (fld (pw k.params 0) 11 0) = none) : regionDestroy s src k = reply s src .regionDestroy k.tag
    (if kidInGrant (partAt s (fld (pw k.params 0) 19 16)) (fld (pw k.params 0) 11 0) = true then stStaleHandle else stNotPermitted) [] := by
  unfold regionDestroy
  dsimp only
  rw [h]

variable (r : Region) (h : regionAt s (fld (pw k.params 0) 11 0) = some r)
include h

theorem regionDestroy_apart (hp : r.part ≠ fld (pw k.params 0) 19 16) :
    regionDestroy s src k = reply s src .regionDestroy k.tag stNotPermitted [] := by
  unfold regionDestroy
  dsimp only
  rw [h]
  exact if_pos hp

theorem regionDestroy_reader (hp : r.part = fld (pw k.params 0) 19 16) (hk : r.kind = 1) (ha : r.authority = false) :
    regionDestroy s src k = reply (purgeRegion s (fld (pw k.params 0) 11 0)) src .regionDestroy k.tag stOk [] := by
  unfold regionDestroy
  dsimp only
  rw [h]
  exact (if_neg (not_not_intro hp)).trans (if_pos ⟨hk, by rw [ha]; rfl⟩)

theorem regionDestroy_holds (hp : r.part = fld (pw k.params 0) 19 16) (hk : r.kind ≠ 1 ∨ r.authority = true) :
    regionDestroy s src k = startBg (invalidateRegion s (fld (pw k.params 0) 11 0)) src .regionDestroy
      [.part (fld (pw k.params 0) 19 16), .region (fld (pw k.params 0) 11 0)] := by
  unfold regionDestroy
  dsimp only
  rw [h]
  refine (if_neg (not_not_intro hp)).trans (if_neg fun ⟨h1, h2⟩ => ?_)
  rcases hk with hk | hk
  · exact hk h1
  · rw [hk] at h2
    exact absurd h2 (by decide)
end

/-- What is purged is gone. -/
theorem regionAt_purgeRegion (s : State) (kid : Nat) (h : (regionAt s kid).isSome = true) : regionAt (purgeRegion s kid) kid = none := by
  unfold purgeRegion
  cases hr : regionAt s kid with
  | none => rw [hr] at h; exact nomatch h
  | some r =>
    dsimp only
    split <;> exact tget_tdel_same _ _

section
variable (s : State) (src : Nat) (k : Packet)

theorem regionRekey_none (h : regionAt s (fld (pw k.params 0) 11 0) = none) : regionRekey s src k = reply s src .regionRekey k.tag
    (if kidInGrant (partAt s (fld (pw k.params 0) 19 16)) (fld (pw k.params 0) 11 0) = true then stStaleHandle else stNotPermitted) [] := by
  unfold regionRekey
  dsimp only
  rw [h]

variable (r : Region) (h : regionAt s (fld (pw k.params 0) 11 0) = some r) (hp : r.part = fld (pw k.params 0) 19 16)
  (ha : r.kind = 1 → r.authority = true)
include h hp ha

theorem regionRekey_busy (hs : r.sweep.isSome = true) : regionRekey s src k = reply s src .regionRekey k.tag stBusy [] := by
  unfold regionRekey
  dsimp only
  rw [h]
  dsimp only
  rw [if_neg (by rintro (h | ⟨h1, h2⟩); exact h hp; rw [ha h1] at h2; exact absurd h2 (by decide)), if_pos hs]

theorem regionRekey_now (hs : r.sweep = none) (hh : ∀ x ∈ s.fab.hot, x.kid ≠ fld (pw k.params 0) 11 0) :
    regionRekey s src k = rekeyNow s src k.tag (fld (pw k.params 0) 11 0) r := by
  have hn : rekeyPins s (fld (pw k.params 0) 11 0) = [] :=
    List.filter_eq_nil_iff.mpr fun x hx => by simp [hh x hx]
  unfold regionRekey
  dsimp only
  rw [h]
  dsimp only
  rw [if_neg (by rintro (h | ⟨h1, h2⟩); exact h hp; rw [ha h1] at h2; exact absurd h2 (by decide)), if_neg (by rw [hs]; decide), hn]
  exact if_pos rfl
end

/-- A PRIVATE region under its next key. -/
theorem rekeyNow_private (s : State) (src : Nat) (tag : Word) (kid : Nat) (r : Region) (h : r.kind = 1) :
    regionAt (rekeyNow s src tag kid r) kid = some { r with keyGen := r.keyGen + 1, readOnly := false, sweep := some 0 } ∧
      tget (rekeyNow s src tag kid r).mem.regGen kid = some (r.keyGen + 1) ∧
      (mb (rekeyNow s src tag kid r) src).replies = (mb s src).replies ++ [replyWords (opVal .regionRekey) stOk tag [toW (r.keyGen + 1)]] := by
  unfold rekeyNow
  dsimp only
  rw [if_neg (by omega)]
  exact ⟨tget_tset_same _ _ _, tget_tset_same _ _ _, replies_reply _ _ _ _ _ _⟩

theorem invalidateSlot_frame (s : State) (n : Nat) : (invalidateSlot s n).mem = s.mem ∧ (invalidateSlot s n).hub = s.hub := by
  unfold invalidateSlot
  dsimp only
  split <;> exact ⟨rfl, rfl⟩

/-- The region whose key is dropped keeps the rest of its record. -/
theorem dropRegionKey_region (s : State) (kid g : Nat) (r : Region) (h : regionAt s kid = some r) :
    regionAt (dropRegionKey s kid g) kid = some { r with keys := tdel r.keys g } ∧ (dropRegionKey s kid g).hub = s.hub := by
  unfold dropRegionKey
  rw [h]
  dsimp only
  split
  · exact ⟨tget_tset_same _ _ _, rfl⟩
  next n hn =>
    obtain ⟨h1, h2⟩ := invalidateSlot_frame (setRegion s kid { r with keys := tdel r.keys g }) n
    exact ⟨by rw [regionAt, h1]; exact tget_tset_same _ _ _, h2⟩

/-- A SHARED_READ region under its next key begins its epochs anew. -/
theorem rekeyNow_shared (s : State) (src : Nat) (tag : Word) (kid : Nat) (r : Region) (hr : regionAt s kid = some r) (h : r.kind = 2) :
    ∃ g, regionAt (rekeyNow s src tag kid r) kid = some g ∧ g.keyGen = r.keyGen + 1 ∧ g.epoch = 0 ∧
      (mb (rekeyNow s src tag kid r) src).replies = (mb s src).replies ++ [replyWords (opVal .regionRekey) stOk tag [toW (r.keyGen + 1)]] := by
  obtain ⟨h1, h2⟩ := dropRegionKey_region { s with mem := { s.mem with regGen := tset s.mem.regGen kid (r.keyGen + 1) } } kid r.keyGen r hr
  unfold rekeyNow
  dsimp only
  rw [if_pos h, h1]
  dsimp only
  refine ⟨{ r with keys := tdel r.keys r.keyGen, keyGen := r.keyGen + 1, epoch := 0, wFail := 0 }, tget_tset_same _ _ _, rfl, rfl, ?_⟩
  rw [replies_reply]
  exact congrArg (fun b : Hub => (tgetD b.mbox src Mbox.empty).replies ++ _) h2

/-- Settles O30: the three commands on regions, by what they find of the key ID. -/
theorem regionCommands : Obligations.RegionCommands := by
  unfold Obligations.RegionCommands
  intro s src k
  refine ⟨fun h => ⟨fun st hs => ?_, fun hk hr => regionCheck_taken s (regionReq k.params) hk hr, fun hc hr => ?_, fun hc hr => ?_⟩,
    fun h => ⟨fun id hf hi hk => identityLineTimeout_runs h hf (identityTimeout_waits (quiet s) src id k hi hk), identityLineTimeout_none h⟩,
    fun h => ⟨fun hn => ?_, fun r hr => ⟨fun hp => ?_, fun hp hk ha => ⟨?_, ?_⟩, fun hp hk => ?_⟩⟩,
    fun h => ⟨fun hn => ?_, fun r hr hp ha => ⟨fun hs => ?_, fun hs hk hh => ?_, fun hs hk hh => ?_⟩⟩⟩
  · exact (runCmd_takes h (regionCreate_refuses (taken s src) src k st hs) : execBcpRegionCreate src s = _)
  · exact (runCmd_takes h (regionCreate_asks (taken s src) src k hc hr) : execBcpRegionCreate src s = _)
  · have he := (runCmd_takes h (regionCreate_installs (taken s src) src k hc hr) : execBcpRegionCreate src s = _)
    obtain ⟨h1, h2, h3, h4⟩ := installRegion_apart (taken s src) (regionReq k.params) 0 hr
    obtain ⟨f1, f2, f3, f4, f5⟩ := installRegion_fields (taken s src) (regionReq k.params) 0 hr
    generalize installRegion (taken s src) (regionReq k.params) 0 = v at he h1 h2 h3 h4 f1 f2 f3 f4 f5
    refine ⟨_, v.1, he, h1, f1, h4, f2, f3, f4, f5, h2, ?_⟩
    rw [replyRegion, replies_reply, mb, h3, h4]
    rfl
  · exact (runCmd_takes h (regionDestroy_none (taken s src) src k hn) : execBcpRegionDestroy src s = _)
  · exact (runCmd_takes h (regionDestroy_apart (taken s src) src k r hr hp) : execBcpRegionDestroy src s = _)
  · exact (runCmd_takes h (regionDestroy_reader (taken s src) src k r hr hp hk ha) : execBcpRegionDestroy src s = _)
  · exact regionAt_purgeRegion (taken s src) _ (by rw [show regionAt (taken s src) _ = some r from hr]; rfl)
  · exact (runCmd_takes h (regionDestroy_holds (taken s src) src k r hr hp hk) : execBcpRegionDestroy src s = _)
  · exact (runCmd_takes h (regionRekey_none (taken s src) src k hn) : execBcpRegionRekey src s = _)
  · exact (runCmd_takes h (regionRekey_busy (taken s src) src k r hr hp ha hs) : execBcpRegionRekey src s = _)
  · have he := (runCmd_takes h (regionRekey_now (taken s src) src k r hr hp ha hs hh) : execBcpRegionRekey src s = _)
    obtain ⟨h1, h2, h3⟩ := rekeyNow_private (taken s src) src k.tag (fld (pw k.params 0) 11 0) r hk
    generalize rekeyNow (taken s src) src k.tag (fld (pw k.params 0) 11 0) r = v at he h1 h2 h3
    exact ⟨v, he, h1, h2, h3⟩
  · have he := (runCmd_takes h (regionRekey_now (taken s src) src k r hr hp ha hs hh) : execBcpRegionRekey src s = _)
    obtain ⟨g, h1, h2, h3, h4⟩ := rekeyNow_shared (taken s src) src k.tag (fld (pw k.params 0) 11 0) r hr hk
    generalize rekeyNow (taken s src) src k.tag (fld (pw k.params 0) 11 0) r = v at he h1 h4
    exact ⟨v, g, he, h1, h2, h3, h4⟩

end Sys2Proof.Machine
end

section
/-! SUPPORT. Partitions and contexts: created, reset, drained, torn down and gone (05 R160; 11 R348 to R373). -/

namespace Sys2Proof.Machine

/- Proofs are elaborated in their order, for the reason given in the first section of this kind. -/
set_option deprecated.oldSectionVars true

/-! A partition is created. -/

theorem partAt_taken (s : State) (src p : Nat) : partAt (taken s src) p = partAt s p := rfl

theorem createCheck_busy (s : State) (p : Nat) (g : PartGrant) (h : (partAt s p).live = true) : createCheck s p g = some stBusy := by
  unfold createCheck
  dsimp only
  rw [if_pos (.inl h)]

theorem createCheck_low (s : State) (p : Nat) (g : PartGrant) (hl : (partAt s p).live = false) (ht : (partAt s p).tdisp = 0)
    (hk : g.kidBase < 16) : createCheck s p g = some stBadParam := by
  unfold createCheck
  dsimp only
  rw [if_neg (by rw [hl, ht]; decide), if_pos (.inl hk)]

theorem partitionCreate_refuses (s : State) (src p : Nat) (k : Packet) (st : Nat) (hp : fld (pw k.params 0) 3 0 = p)
    (h : createCheck s p (grantOf k.params) = some st) : partitionCreate s src k = reply s src .partitionCreate k.tag st [] := by
  unfold partitionCreate
  dsimp only
  rw [hp, h]

theorem partitionCreate_installs (s : State) (src p : Nat) (k : Packet) (hp : fld (pw k.params 0) 3 0 = p)
    (h : createCheck s p (grantOf k.params) = none) : partitionCreate s src k =
    reply (installPart s p (grantOf k.params)) src .partitionCreate k.tag stOk [toW (partAt (installPart s p (grantOf k.params)) p).gen] := by
  unfold partitionCreate
  dsimp only
  rw [hp, h]

/-- Zeroing a partition's groups writes their area and changes no other partition's. -/
theorem zeroPgds_form (s : State) (p : Nat) : ∃ o n, zeroPgds s p = { s with
    out := o, fab := { s.fab with nextTid := n }, upd := { s.upd with pgd := tkeep s.upd.pgd (fun k _ => k / 4096 != p) } } := by
  unfold zeroPgds
  dsimp only
  split
  · exact ⟨s.out, s.fab.nextTid, rfl⟩
  · exact ⟨_, _, rfl⟩

/-- What a created partition is, and what it leaves. -/
theorem installPart_grants (s : State) (p : Nat) (g : PartGrant) : let u := installPart s p g
    (partAt u p).live = true ∧ (partAt u p).gen = ((partAt s p).gen + 1) % 2 ^ 32 ∧ (partAt u p).kidBase = g.kidBase ∧
      (partAt u p).kidCount = g.kidCount ∧ (partAt u p).slots = (freeSlotNos s).take g.slots ∧
      (partAt u p).ways = (freeWayNos s).take g.ways ∧ (partAt u p).pasids = g.pasids ∧ (partAt u p).tdisp = 0 ∧
      (∀ i, i ≠ p → partAt u i = partAt s i) ∧ (∀ x ∈ u.upd.pgd, x.1 / 4096 ≠ p) ∧
      u.mem = s.mem ∧ u.keys = s.keys ∧ u.links = s.links ∧ u.dom = s.dom ∧ u.parts.ctx = s.parts.ctx ∧ u.hub = s.hub := by
  obtain ⟨o, n, h⟩ := zeroPgds_form s p
  have hp : ∀ r, partAt (setPart (zeroPgds s p) p r) p = r := fun r => tgetD_tset_same _ _ _ _
  unfold installPart
  dsimp only
  rw [hp, h]
  refine ⟨rfl, rfl, rfl, rfl, rfl, rfl, rfl, rfl, fun i hi => tgetD_tset_other _ _ _ _ _ hi, fun x hx => ?_, rfl, rfl, rfl, rfl, rfl, rfl⟩
  simpa using (List.mem_filter.mp hx).2

/-! A partition's reset. -/

theorem partitionDestroy_stale (s : State) (src p : Nat) (k : Packet) (hp : fld (pw k.params 0) 3 0 = p) (hl : (partAt s p).live = false) :
    partitionDestroy s src k = reply s src .partitionDestroy k.tag stStaleHandle [] := by
  unfold partitionDestroy
  dsimp only
  rw [hp, if_pos (by rw [hl]; rfl)]

theorem partitionDestroy_starts (s : State) (src p : Nat) (k : Packet) (hp : fld (pw k.params 0) 3 0 = p) (hl : (partAt s p).live = true) :
    partitionDestroy s src k = startPartReset (setPart (startBg s src .partitionDestroy [.part p]) p
      { partAt s p with destroying := true, tdisp := 3 }) p := by
  unfold partitionDestroy
  dsimp only
  rw [hp, if_neg (by rw [hl]; decide)]

/-- A write of PT_CTRL that asks for a reset; a locked partition's driver is not heard. -/
theorem ptReset_runs {s u : State} {p : Nat} {who : Requester} (hp : p < 16) (h : opens s who (ptOff p 8) = true)
    (hu : (if (who.priv && ((partAt s p).tdisp == 1 || (partAt s p).tdisp == 2)) = true then quiet s else startPartReset (quiet s) p) = u) :
    exec (.ptReset p who) s = .next (finish s (emit u (.regRsp 0 false))) := by
  have hm : p % 16 = p := Nat.mod_eq_of_lt hp
  show execPtReset p who s = _
  rw [execPtReset, hm, runWrite_opens s who (ptOff p 8) _ h]
  exact congrArg (fun t => Host.Outcome.next (finish s (emit t (.regRsp 0 false)))) hu

theorem partitionDrainDone_runs {s u : State} {p : Nat} (hp : p < 16) (h : engUp s = true) (hu : endPartReset (quiet s) p = u) :
    exec (.partitionDrainDone p) s = .next (finish s u) :=
  (runEng_run h ((congrArg (endPartReset (quiet s)) (Nat.mod_eq_of_lt hp)).trans hu) : execPartitionDrainDone p s = _)

theorem endPartReset_none (s : State) (p : Nat) (h : (partAt s p).resetting = false) : endPartReset s p = s := by
  unfold endPartReset
  dsimp only
  rw [if_pos (by rw [h]; rfl)]

theorem detachTags_none (s : State) (p : Nat) (h : ownerTags s p = []) : detachTags s p = s := by
  unfold detachTags
  dsimp only
  rw [h]
  rfl

/-- A reset with no context and no tag to wait for is over. -/
theorem endPartReset_ends (s : State) (p : Nat) (hr : (partAt s p).resetting = true) (hc : ctxsOf s p = []) (ht : ownerTags s p = [])
    (hd : (partAt s p).destroying = false) : endPartReset s p = setBits (setPart s p
      { partAt s p with resetting := false, stopping := false, tdisp := if (partAt s p).stopping = true then 0 else (partAt s p).tdisp })
      (ptOff p 0x40) 1 := by
  unfold endPartReset
  dsimp only
  rw [if_neg (by rw [hr]; decide), hc, if_neg (by simp)]
  simp only [hc, List.foldl_nil]
  rw [detachTags_none s p ht, if_neg (by rw [hd]; decide)]

theorem tdispErrorEntry_none {s : State} {p : Nat} (h : engUp s = true) (hd : s.parts.errDue.contains p = false) :
    exec (.tdispErrorEntry p) s = .next (finish s (quiet s)) :=
  (runEng_run h (if_neg (by show ¬ s.parts.errDue.contains p = true; rw [hd]; decide)) : execTdispErrorEntry p s = _)

theorem tdispErrorEntry_enters {s : State} {p : Nat} (h : engUp s = true) (hd : s.parts.errDue.contains p = true)
    (hl : (partAt s p).live = true) : exec (.tdispErrorEntry p) s = .next (finish s (startPartReset (setPart
      { quiet s with parts := { s.parts with errDue := s.parts.errDue.filter (· != p) } } p { partAt s p with tdisp := 3 }) p)) :=
  (runEng_run h ((if_pos hd).trans (if_pos hl)) : execTdispErrorEntry p s = _)

theorem failParks_none (s : State) (p : Nat) (h : s.fab.parks = []) : failParks s p = s := by
  have hs : { s with fab := { s.fab with parks := tkeep s.fab.parks (fun k _ => k % 16 != p) } } = s := by
    rw [h, show tkeep ([] : Tbl (List Parked)) (fun k _ => k % 16 != p) = s.fab.parks from h.symm]
  unfold failParks
  dsimp only
  rw [hs, h]
  rfl

theorem startPartReset_idle (s : State) (p : Nat) (hl : (partAt s p).live = true) (hr : (partAt s p).resetting = false)
    (hc : ctxsOf s p = []) (hp : s.fab.parks = []) : startPartReset s p = setPart s p { partAt s p with resetting := true } := by
  unfold startPartReset
  dsimp only
  rw [if_neg (by rw [hl, hr]; decide), failParks_none (setPart s p { partAt s p with resetting := true }) p hp,
    show ctxsOf (setPart s p { partAt s p with resetting := true }) p = [] from hc]
  rfl

theorem startPartReset_none (s : State) (p : Nat) (h : (partAt s p).live = false ∨ (partAt s p).resetting = true) : startPartReset s p = s := by
  unfold startPartReset
  dsimp only
  rw [if_pos (h.imp (fun h => by rw [h]; rfl) id)]

/-- Settles O31: a partition from its creation to the end of its reset. -/
theorem partitionLife : Obligations.PartitionLife := by
  unfold Obligations.PartitionLife
  intro s src p k who hp
  refine ⟨fun h hf => ⟨fun st hs => ?_, createCheck_busy s p _, createCheck_low s p _, fun hc => ?_⟩, fun h hf => ⟨fun hl => ?_, fun hl => ?_⟩,
    fun h => ⟨fun hw ht => ptReset_runs hp h (if_pos ?_), fun hw => ptReset_runs hp h (if_neg ?_)⟩,
    fun h => ⟨fun hr => partitionDrainDone_runs hp h (endPartReset_none (quiet s) p hr),
      fun hr hc ht hd => partitionDrainDone_runs hp h (endPartReset_ends (quiet s) p hr hc ht hd), tdispErrorEntry_none h, tdispErrorEntry_enters h⟩,
    startPartReset_idle s p, startPartReset_none s p⟩
  · exact (runCmd_takes h (partitionCreate_refuses (taken s src) src p k st hf hs) : execBcpPartitionCreate src s = _)
  · have he := (runCmd_takes h (partitionCreate_installs (taken s src) src p k hf hc) : execBcpPartitionCreate src s = _)
    obtain ⟨h1, h2, h3, h4, h5, h6, h7, h8, h9, h10, h11, h12, h13, h14, h15, h16⟩ := installPart_grants (taken s src) p (grantOf k.params)
    rw [partAt_taken] at h2
    generalize installPart (taken s src) p (grantOf k.params) = v at he h1 h2 h3 h4 h5 h6 h7 h8 h9 h10 h11 h12 h13 h14 h15 h16
    refine ⟨_, he, h1, h2, h3, h4, h5, h6, h7, h8, h9, h10, h11, h12, h13, h14, h15, ?_⟩
    rw [replies_reply, h2, mb, h16]
    rfl
  · exact (runCmd_takes h (partitionDestroy_stale (taken s src) src p k hf hl) : execBcpPartitionDestroy src s = _)
  · exact (runCmd_takes h (partitionDestroy_starts (taken s src) src p k hf hl) : execBcpPartitionDestroy src s = _)
  · rcases ht with ht | ht <;> rw [hw, ht] <;> rfl
  · rcases hw with hw | ⟨h1, h2⟩
    · rw [hw]; exact Bool.false_ne_true
    · simp [h1, h2]

/-! A context's reset and teardown. -/

theorem ctxAt_taken (s : State) (src c : Nat) : ctxAt (taken s src) c = ctxAt s c := rfl

section
variable (s : State) (src : Nat) (k : Packet)

theorem contextReset_stale (h : ctxAt s (fld (pw k.params 0) 11 0) = none) :
    contextReset s src k = reply s src .contextReset k.tag stStaleHandle [] := by
  unfold contextReset
  dsimp only
  rw [h]

theorem contextTeardown_stale (h : ctxAt s (fld (pw k.params 0) 11 0) = none) :
    contextTeardown s src k = reply s src .contextTeardown k.tag stStaleHandle [] := by
  unfold contextTeardown
  dsimp only
  rw [h]
end

theorem modCtx_at (s : State) (c : Nat) (f : Ctx → Ctx) (x : Ctx) (h : ctxAt s c = some x) : modCtx s c f = setCtx s c (f x) := by
  rw [modCtx, h]

theorem descs_none (s : State) (c : Nat) (f : Nat × Desc → Bool) (h : ∀ d ∈ s.parts.desc, d.2.ctx ≠ c) (hf : ∀ d, f d = true → d.2.ctx = c) :
    s.parts.desc.filter f = [] :=
  List.filter_eq_nil_iff.mpr fun d hd hfd => h d hd (hf d hfd)

/-- A context without descriptors only stops. -/
theorem beginCtxReset_idle (s : State) (c : Nat) (x : Ctx) (hx : ctxAt s c = some x) (h : ∀ d ∈ s.parts.desc, d.2.ctx ≠ c) :
    beginCtxReset s c = setCtx s c { x with stopped := true } := by
  unfold beginCtxReset
  dsimp only
  rw [modCtx_at s c _ x hx, show (setCtx s c { x with stopped := true }).parts.desc = s.parts.desc from rfl,
    descs_none s c _ h (fun d hd => by simp only [Bool.and_eq_true, beq_iff_eq] at hd; exact hd.1)]
  rfl

theorem l0Over_idle (s : State) (c : Nat) (h : ∀ d ∈ s.parts.desc, d.2.ctx ≠ c) (hl : ∀ l ∈ s.ladder.late, l.1 ≠ c) : l0Over s c = true := by
  have h1 : s.parts.desc.any (fun p => p.2.ctx == c && p.2.phase == .done) = false :=
    List.any_eq_false.mpr fun d hd => by simp [h d hd]
  have h2 : s.ladder.late.filter (fun x => x.1 == c) = [] := List.filter_eq_nil_iff.mpr fun l hm => by simp [hl l hm]
  rw [l0Over, recordsOut, lateUnits, h1, h2]
  rfl

/-- What the end of its reset makes of a context. -/
def resetDone (x : Ctx) : Ctx :=
  { x with stopped := x.tearing, faulted := false, queues := tmapV x.queues (fun _ q => if q.enabled then { q with head := q.tail } else q) }

theorem setCtx_setCtx (s : State) (c : Nat) (x y : Ctx) : setCtx (setCtx s c x) c y = setCtx s c y := by
  rw [setCtx, setCtx, setCtx]
  dsimp only
  rw [tset_tset]

theorem contextReset_idle (s : State) (src : Nat) (k : Packet) (x : Ctx) (hx : ctxAt s (fld (pw k.params 0) 11 0) = some x)
    (h : ∀ d ∈ s.parts.desc, d.2.ctx ≠ fld (pw k.params 0) 11 0) (hl : ∀ l ∈ s.ladder.late, l.1 ≠ fld (pw k.params 0) 11 0) :
    contextReset s src k = reply (setCtx s (fld (pw k.params 0) 11 0) (resetDone x)) src .contextReset k.tag stOk [] := by
  have he : endCtxReset (setCtx s (fld (pw k.params 0) 11 0) { x with stopped := true }) (fld (pw k.params 0) 11 0) =
      setCtx s (fld (pw k.params 0) 11 0) (resetDone x) := by
    rw [endCtxReset, modCtx_at (setCtx s (fld (pw k.params 0) 11 0) { x with stopped := true }) _ _ { x with stopped := true }
      (tget_tset_same _ _ _), setCtx_setCtx]
    rfl
  unfold contextReset
  dsimp only
  rw [hx]
  dsimp only
  rw [beginCtxReset_idle s _ x hx h, if_pos (l0Over_idle (setCtx s (fld (pw k.params 0) 11 0) { x with stopped := true }) _ h hl), he]

theorem soleKids_none (s : State) (c : Nat) (x : Ctx) (h : x.own = []) : soleKids s c x = [] := by
  unfold soleKids
  dsimp only
  rw [h]
  rfl

theorem contextTeardown_idle (s : State) (src : Nat) (k : Packet) (x : Ctx) (hx : ctxAt s (fld (pw k.params 0) 11 0) = some x)
    (h : ∀ d ∈ s.parts.desc, d.2.ctx ≠ fld (pw k.params 0) 11 0) (ho : x.own = []) : contextTeardown s src k =
    startBg (setCtx s (fld (pw k.params 0) 11 0) { x with stopped := true, tearing := true }) src .contextTeardown [.part x.part] := by
  unfold contextTeardown
  dsimp only
  rw [hx]
  dsimp only
  rw [show (setCtx s (fld (pw k.params 0) 11 0) { x with stopped := true, tearing := true }).parts.desc = s.parts.desc from rfl,
    descs_none s _ _ h (fun d hd => by simpa using hd), List.foldl_nil, soleKids_none _ _ _ ho]
  rfl

/-! Background ends. -/

theorem backgroundCommandDone_none {s : State} {src : Nat} (h : engUp s = true) (hb : (∀ b ∈ s.hub.bg, b.src ≠ src) ∨ fwActs s = false) :
    exec (.backgroundCommandDone src) s = .next (finish s (quiet s)) := by
  refine (runEng_run h ?_ : execBackgroundCommandDone src s = _)
  rcases hb with hb | hb
  · have hf : (quiet s).hub.bg.find? (fun b => b.src == src) = none := List.find?_eq_none.mpr fun b hm => by simpa using hb b hm
    dsimp only
    rw [hf, ite_self]
  · exact if_neg (by rw [show fwActs (quiet s) = false from hb]; decide)

theorem backgroundCommandDone_ends {s u : State} {src : Nat} {op : Op} {hs : List Hold} (h : engUp s = true) (hf : fwActs s = true)
    (hb : s.hub.bg = [{ src := src, op := op, holds := hs }]) (hu : bgEnd (quiet s) src op = u) :
    exec (.backgroundCommandDone src) s = .next (finish s u) := by
  have hq : (quiet s).hub.bg.find? (fun b => b.src == src) = some { src := src, op := op, holds := hs } := by
    rw [show (quiet s).hub.bg = _ from hb, List.find?_cons_of_pos (by simp)]
  refine (runEng_run h ((if_pos hf).trans ?_) : execBackgroundCommandDone src s = _)
  dsimp only
  rw [hq]
  exact hu

theorem hub_queueCadence (s : State) (b : Bytes) : (queueCadence s b).hub = s.hub := by
  unfold queueCadence
  cases s.dom.policy <;> dsimp only <;> split <;> rfl

theorem hub_cadenceLate (s : State) (d : Nat) : (cadenceLate s d).hub = s.hub := by
  unfold cadenceLate
  split
  · rfl
  · exact hub_queueCadence _ _

/-- A context that is freed is gone, and the Hub is as it was. -/
theorem freeCtx_gone (s : State) (c : Nat) : ctxAt (freeCtx s c) c = none ∧ (freeCtx s c).hub = s.hub := by
  unfold freeCtx
  dsimp only
  exact ⟨tget_tdel_same _ _, List.foldlRecOn (motive := fun t : State => t.hub = s.hub) _ _ rfl fun t ht d _ => (hub_cadenceLate t d.1).trans ht⟩

theorem endTeardown_ends (s : State) (src : Nat) (k : Packet) (x : Ctx) (hx : ctxAt s (fld (pw k.params 0) 11 0) = some x)
    (hb : s.hub.bg = [{ src := src, op := .contextTeardown, holds := [.part x.part] }]) : endTeardown s src k =
    reply (freeCtx s (fld (pw k.params 0) 11 0)) src .contextTeardown k.tag stOk
      [toW (s.parts.desc.countP (fun d => d.2.ctx == fld (pw k.params 0) 11 0 && d.2.quiet) % 2 ^ 16), 0] := by
  have hk : teardownKids s src = [] := by
    rw [teardownKids, hb, List.find?_cons_of_pos (by simp)]
    rfl
  unfold endTeardown
  dsimp only
  rw [hx]
  dsimp only
  rw [hk]
  exact if_neg (by simp)

theorem bgEnd_packet {s : State} {src : Nat} {k : Packet} :
    (packetOf s src .contextTeardown = some k → bgEnd s src .contextTeardown = endTeardown s src k) ∧
    (packetOf s src .regionDestroy = some k → bgEnd s src .regionDestroy = endRegionDestroy s src k) ∧
    (packetOf s src .partitionDestroy = some k → bgEnd s src .partitionDestroy = endDestroy s src k) :=
  ⟨fun h => by simp only [bgEnd, h], fun h => by simp only [bgEnd, h], fun h => by simp only [bgEnd, h]⟩

/-- A destruction with neither regions nor contexts left. -/
theorem endDestroy_eq (s : State) (src p : Nat) (k : Packet) (hp : fld (pw k.params 0) 3 0 = p) (hr : ∀ x ∈ s.mem.region, x.2.part ≠ p)
    (hc : ctxsOf s p = []) : endDestroy s src k = if (partAt s p).resetting = true ∨ (partAt s p).log.active = true then s
      else reply (setPart s p (partGone (partAt s p))) src .partitionDestroy k.tag stOk [] := by
  have hk : s.mem.region.filter (fun x => x.2.part == p) = [] := List.filter_eq_nil_iff.mpr fun x hx => by simp [hr x hx]
  unfold endDestroy
  dsimp only
  rw [hp, hk]
  simp [hc]

/-! Abandoned signals. -/

theorem sharedSignalAbandon_runs {s u : State} {d : Nat} (h : engUp s = true) (hu : abandonSignal (quiet s) d = u) :
    exec (.sharedSignalAbandon d) s = .next (finish s u) := (runEng_run h hu : execSharedSignalAbandon d s = _)

theorem abandonSignal_none (s : State) (d : Nat) (h : s.parts.abandon.find? (fun a => a.1 == d) = none) : abandonSignal s d = s := by
  rw [abandonSignal, h]

section
variable (s : State) (d : Nat) (x : Desc) (hx : descAt s d = some x)
include hx

theorem abandonSignal_held (h : subTaken s ((partOfPasid s x.pasid).getD 0) (leAt x.raw 8 2) (leAt x.raw 10 1) = true) :
    abandonSignal s d = s := by
  unfold abandonSignal
  rw [hx]
  split
  next hd =>
    cases hd
    exact if_pos h
  · rfl

variable (hf : subTaken s ((partOfPasid s x.pasid).getD 0) (leAt x.raw 8 2) (leAt x.raw 10 1) = false)
include hf

theorem abandonSignal_notes (ha : s.parts.abandon.find? (fun a => a.1 == d) = some (d, false)) (hp : x.phase = .fetched) :
    abandonSignal s d = sendSignal (setDesc s d { x with phase := .running }) d ((partOfPasid s x.pasid).getD 0) 4096 (leAt x.raw 8 2)
      (leAt x.raw 10 1) (leAt x.raw 16 6 + 8) 1 := by
  unfold abandonSignal
  rw [hx, ha]
  dsimp only
  rw [if_neg (by rw [hf]; decide), if_neg (by decide), if_pos hp]

theorem abandonSignal_adds (ha : s.parts.abandon.find? (fun a => a.1 == d) = some (d, true)) :
    abandonSignal s d = sendSignal { s with parts := { s.parts with abandon := s.parts.abandon.filter (fun a => a.1 != d) } } d
      ((partOfPasid s x.pasid).getD 0) 4096 (leAt x.raw 8 2) (leAt x.raw 10 1) (leAt x.raw 16 6) (leAt x.raw 24 8) := by
  unfold abandonSignal
  rw [hx, ha]
  dsimp only
  rw [if_neg (by rw [hf]; decide), if_pos rfl]
end

/-- Settles O32: contexts and background commands by what is left to wait for. -/
theorem contextEnds : Obligations.ContextEnds := by
  unfold Obligations.ContextEnds
  intro s src k
  refine ⟨fun h => ⟨fun hn => ?_, fun x hx hd hl => ?_⟩, fun h => ⟨fun hn => ?_, fun x hx hd ho => ?_⟩, backgroundCommandDone_none,
    fun h hf hk x hx hb => ?_, fun h hf hs kid hb hk hkid => ⟨fun hq => ?_, fun hq => ?_⟩,
    fun h d => ⟨fun hn => sharedSignalAbandon_runs h (abandonSignal_none (quiet s) d hn), fun x hx => ⟨fun ht => ?_, fun ht => ⟨fun ha hp => ?_, fun ha => ?_⟩⟩⟩,
    fun h hf hs => fun hb hk hr hc => ⟨fun hw => ?_, fun h1 h2 => ?_⟩⟩
  · exact (runCmd_takes h (contextReset_stale (taken s src) src k hn) : execBcpContextReset src s = _)
  · have he := (runCmd_takes h (contextReset_idle (taken s src) src k x hx hd hl) : execBcpContextReset src s = _)
    refine ⟨_, resetDone x, he, tget_tset_same _ _ _, rfl, rfl, rfl, rfl, rfl, fun i hi => tget_tset_other _ _ _ _ hi, replies_reply _ _ _ _ _ _⟩
  · exact (runCmd_takes h (contextTeardown_stale (taken s src) src k hn) : execBcpContextTeardown src s = _)
  · exact (runCmd_takes h (contextTeardown_idle (taken s src) src k x hx hd ho) : execBcpContextTeardown src s = _)
  · have he := backgroundCommandDone_ends h hf hb (((bgEnd_packet (s := quiet s)).1 hk).trans (endTeardown_ends (quiet s) src k x hx hb))
    obtain ⟨h1, h2⟩ := freeCtx_gone (quiet s) (fld (pw k.params 0) 11 0)
    refine ⟨_, he, rfl, ?_, ?_⟩
    · generalize freeCtx (quiet s) (fld (pw k.params 0) 11 0) = v at h1
      exact h1
    · generalize freeCtx (quiet s) (fld (pw k.params 0) 11 0) = v at h2
      show v.hub.bg.filter _ = []
      rw [h2]
      exact List.filter_eq_nil_iff.mpr fun b hm => by
        rw [show (quiet s).hub.bg = _ from hb, List.mem_singleton] at hm
        simp [hm]
  · subst hkid
    exact backgroundCommandDone_ends h hf hb (((bgEnd_packet (s := quiet s)).2.1 hk).trans (if_pos hq))
  · subst hkid
    exact backgroundCommandDone_ends h hf hb (((bgEnd_packet (s := quiet s)).2.1 hk).trans (if_neg (by show ¬ regionQuiet s _ = true; rw [hq]; decide)))
  · exact sharedSignalAbandon_runs h (abandonSignal_held (quiet s) d x hx ht)
  · exact sharedSignalAbandon_runs h (abandonSignal_notes (quiet s) d x hx ht ha hp)
  · exact sharedSignalAbandon_runs h (abandonSignal_adds (quiet s) d x hx ht ha)
  · exact backgroundCommandDone_ends h hf hb (((bgEnd_packet (s := quiet s)).2.2 hk).trans ((endDestroy_eq (quiet s) src _ k rfl hr hc).trans (if_pos hw)))
  · exact backgroundCommandDone_ends h hf hb (((bgEnd_packet (s := quiet s)).2.2 hk).trans ((endDestroy_eq (quiet s) src _ k rfl hr hc).trans (if_neg (by
      rintro (hw | hw)
      · exact absurd ((show (partAt s _).resetting = true from hw).symm.trans h1) (by decide)
      · exact absurd ((show (partAt s _).log.active = true from hw).symm.trans h2) (by decide)))))

end Sys2Proof.Machine
end

section
/-! SUPPORT. The dirty-page log, the freeze, and the migration blob (11 R374 to R378). -/

namespace Sys2Proof.Machine

/- Proofs are elaborated in their order, for the reason given in the first section of this kind. -/
set_option deprecated.oldSectionVars true

/-! The dirty-page log. -/

theorem partAt_setPart_same (s : State) (p : Nat) (r : PartRec) : partAt (setPart s p r) p = r := tgetD_tset_same _ _ _ _

theorem partAt_setPart_other (s : State) (p i : Nat) (r : PartRec) (h : i ≠ p) : partAt (setPart s p r) i = partAt s i :=
  tgetD_tset_other _ _ _ _ _ h

theorem setPart_setPart (s : State) (p : Nat) (a b : PartRec) : setPart (setPart s p a) p b = setPart s p b := by
  simp only [setPart, tset_tset]

theorem partAt_modLog_same (s : State) (p : Nat) (f : DirtyLog → DirtyLog) :
    partAt (modLog s p f) p = { partAt s p with log := f (partAt s p).log } := partAt_setPart_same _ _ _

theorem log_modLog_same (s : State) (p : Nat) (f : DirtyLog → DirtyLog) : (partAt (modLog s p f) p).log = f (partAt s p).log :=
  congrArg PartRec.log (partAt_modLog_same s p f)

theorem partAt_modLog_other (s : State) (p i : Nat) (f : DirtyLog → DirtyLog) (h : i ≠ p) : partAt (modLog s p f) i = partAt s i :=
  partAt_setPart_other _ _ _ _ h

theorem modLog_congr (s : State) (p : Nat) {f g : DirtyLog → DirtyLog} (h : f (partAt s p).log = g (partAt s p).log) :
    modLog s p f = modLog s p g := by
  unfold modLog
  dsimp only
  rw [h]

/-- A log that is to stop, and has nothing left to write. -/
def logOver (l : DirtyLog) : Bool := l.active && l.ending && l.due.isEmpty && l.out.isNone

theorem logSettle_still (s : State) (p : Nat) (h : logOver (partAt s p).log = false) : logSettle s p = s := by
  unfold logSettle
  exact if_neg (fun hn => nomatch (h.symm.trans hn : false = true))

theorem logSettle_stops (s : State) (p : Nat) (h : logOver (partAt s p).log = true) :
    logSettle s p = logHead (modLog s p (fun l => { l with active := false, ending := false })) p := by
  unfold logSettle
  exact if_pos h

theorem partAt_logHead (s : State) (p i : Nat) : partAt (logHead s p) i = partAt s i := rfl

/-- A log that settles keeps what it counted. -/
theorem logSettle_keeps (s : State) (p : Nat) : (partAt (logSettle s p) p).log.count = (partAt s p).log.count ∧
    (partAt (logSettle s p) p).log.overflow = (partAt s p).log.overflow ∧ (logSettle s p).win = s.win := by
  rcases hb : logOver (partAt s p).log with _ | _
  · rw [logSettle_still s p hb]
    exact ⟨rfl, rfl, rfl⟩
  · rw [logSettle_stops s p hb]
    rw [partAt_logHead, log_modLog_same]
    exact ⟨rfl, rfl, rfl⟩

theorem logHead_out (s : State) (p : Nat) : (logHead s p).out = s.out ++ mreqOuts s true (partAt s p).log.base 64
    (leBytes 8 (partAt s p).log.count ++ leBytes 1 (b2n (partAt s p).log.overflow + 2 * b2n (partAt s p).log.active) ++
      List.replicate 55 0) [] none := rfl

theorem partAt_reply (s : State) (src : Nat) (op : Op) (tag : Word) (st : Nat) (ps : List Word) (p : Nat) :
    partAt (reply s src op tag st ps) p = partAt s p := rfl

theorem logStop_idle (s : State) (p : Nat) (h : (partAt s p).log.active = false) :
    logStop s p = modLog s p (fun l => { l with ending := false }) := by
  have hm : modLog s p (fun l => { l with ending := l.active }) = modLog s p (fun l => { l with ending := false }) :=
    modLog_congr s p (by rw [h])
  unfold logStop
  rw [hm]
  exact logSettle_still _ _ (by rw [log_modLog_same]; simp [logOver])

theorem logStop_waits (s : State) (p : Nat) (h : (partAt s p).log.active = true) (hd : (partAt s p).log.due ≠ []) :
    logStop s p = modLog s p (fun l => { l with ending := true }) := by
  have hm : modLog s p (fun l => { l with ending := l.active }) = modLog s p (fun l => { l with ending := true }) :=
    modLog_congr s p (by rw [h])
  unfold logStop
  rw [hm]
  exact logSettle_still _ _ (by rw [log_modLog_same]; simp [logOver, hd])

/-- A STOP with nothing due writes the head, no longer active. -/
theorem logStop_stops (s : State) (p : Nat) (h : (partAt s p).log.active = true) (hd : (partAt s p).log.due = [])
    (ho : (partAt s p).log.out = none) : (partAt (logStop s p) p).log.active = false ∧
      (logStop s p).out = s.out ++ mreqOuts s true (partAt s p).log.base 64 (leBytes 8 (partAt s p).log.count ++
        leBytes 1 (b2n (partAt s p).log.overflow) ++ List.replicate 55 0) [] none := by
  unfold logStop
  rw [logSettle_stops _ _ (by rw [log_modLog_same]; simp [logOver, h, hd, ho]), logHead_out, partAt_logHead, log_modLog_same, log_modLog_same]
  exact ⟨rfl, rfl⟩

section
variable {s : State} {src p : Nat} {k : Packet} (hp : fld (pw k.params 0) 3 0 = p)
include hp

theorem migLogStart_dead (hl : (partAt s p).live = false) :
    migLogStart s src k = reply s src .migLogStart k.tag stStaleHandle [] := by
  unfold migLogStart
  dsimp only
  rw [hp, if_pos (by rw [hl]; rfl)]

theorem migLogStart_stop (hl : (partAt s p).live = true) (hb : wbit (pw k.params 0) 8 = true) : migLogStart s src k =
    if (partAt (logStop s p) p).log.active then startBg (logStop s p) src .migLogStart [.part p]
    else reply (logStop s p) src .migLogStart k.tag stOk [] := by
  unfold migLogStart
  dsimp only
  rw [hp, if_neg (by rw [hl]; decide), if_pos hb]

/-- A log that starts is empty, and its head is written. -/
theorem migLogStart_starts (hl : (partAt s p).live = true) (hb : wbit (pw k.params 0) 8 = false) (ho : s.out = []) :
    let u := migLogStart s src k
    (partAt u p).log = { DirtyLog.off with active := true, base := pw64 k.params 1, pages := (pw k.params 3).toNat } ∧
      u.out = mreqOuts s true (pw64 k.params 1) 64 (leBytes 8 0 ++ [2#8] ++ List.replicate 55 0) [] none ∧
      ∀ i, i ≠ p → partAt u i = partAt s i := by
  unfold migLogStart
  dsimp only
  rw [hp, if_neg (by rw [hl]; decide), if_neg (by rw [hb]; decide)]
  rw [partAt_reply, partAt_logHead, log_modLog_same]
  refine ⟨rfl, ?_, fun i hi => ?_⟩
  · show (logHead _ p).out = _
    rw [logHead_out, log_modLog_same]
    exact congrArg (· ++ _) ho
  · rw [partAt_reply, partAt_logHead, partAt_modLog_other _ _ _ _ hi]
    rfl

end

theorem out_taken (s : State) (src : Nat) : (taken s src).out = [] := rfl

/-- The rows of BCP_MIG_LOG_START. -/
theorem migLogStart_rows (s : State) (src p : Nat) (k : Packet) (h : takes s src .migLogStart k = true)
    (hp : fld (pw k.params 0) 3 0 = p) : let r := partAt s p
    (r.live = false → exec (.bcpMigLogStart src) s = .next (finish s (reply (taken s src) src .migLogStart k.tag stStaleHandle []))) ∧
    (r.live = true → wbit (pw k.params 0) 8 = true → r.log.active = false →
      exec (.bcpMigLogStart src) s = .next (finish s (reply (modLog (taken s src) p (fun l => { l with ending := false })) src .migLogStart
        k.tag stOk []))) ∧
    (r.live = true → wbit (pw k.params 0) 8 = true → r.log.active = true → r.log.due ≠ [] →
      exec (.bcpMigLogStart src) s = .next (finish s (startBg (modLog (taken s src) p (fun l => { l with ending := true })) src .migLogStart
        [.part p]))) ∧
    (r.live = true → wbit (pw k.params 0) 8 = true → r.log.active = true → r.log.due = [] → r.log.out = none →
      ∃ u, exec (.bcpMigLogStart src) s = .next (finish s u) ∧ (partAt u p).log.active = false ∧
        u.out = mreqOuts s true r.log.base 64 (leBytes 8 r.log.count ++ leBytes 1 (b2n r.log.overflow) ++ List.replicate 55 0) [] none) ∧
    (r.live = true → wbit (pw k.params 0) 8 = false → ∃ u, exec (.bcpMigLogStart src) s = .next (finish s u) ∧
      (partAt u p).log = { DirtyLog.off with active := true, base := pw64 k.params 1, pages := (pw k.params 3).toNat } ∧
      u.out = mreqOuts s true (pw64 k.params 1) 64 (leBytes 8 0 ++ [2#8] ++ List.replicate 55 0) [] none ∧
      (∀ i, i ≠ p → partAt u i = partAt s i)) := by
  have he : ∀ u, migLogStart (taken s src) src k = u → exec (.bcpMigLogStart src) s = .next (finish s u) :=
    fun u hu => (runCmd_takes h hu : execBcpMigLogStart src s = _)
  refine ⟨fun hl => he _ (migLogStart_dead hp hl), fun hl hb ha => he _ ?_, fun hl hb ha hd => he _ ?_, fun hl hb ha hd ho => ?_,
    fun hl hb => ⟨_, he _ rfl, migLogStart_starts (s := taken s src) hp hl hb rfl⟩⟩
  · rw [migLogStart_stop (s := taken s src) hp hl hb, logStop_idle (taken s src) p ha, log_modLog_same]
    exact if_neg (by rw [partAt_taken, ha]; decide)
  · rw [migLogStart_stop (s := taken s src) hp hl hb, logStop_waits (taken s src) p ha hd, log_modLog_same]
    exact if_pos (by rw [partAt_taken, ha])
  · obtain ⟨h1, h2⟩ := logStop_stops (taken s src) p ha hd ho
    have hr := migLogStart_stop (s := taken s src) (src := src) hp hl hb
    rw [h1, if_neg (by decide)] at hr
    exact ⟨_, he _ hr, h1, h2⟩

theorem partAt_pmReq_none (s : State) (u : PmUse) (w : Bool) (a l : Nat) (d : Bytes) (m : List Bool) (p : Nat) :
    partAt (pmReq s u w a l d m none) p = partAt s p := rfl

theorem partAt_setBits (s : State) (o : Nat) (m : Word) (p : Nat) : partAt (setBits s o m) p = partAt s p := rfl

/-- A page that is due is written as the next entry. -/
theorem logPage_writes (s : State) (p g i : Nat) (rest : List (Nat × Nat)) (hd : (partAt s p).log.due = (g, i) :: rest)
    (ha : (partAt s p).log.active = true) (ho : (partAt s p).log.out = none)
    (hc : (partAt s p).log.count < logRoom (partAt s p).log.pages) : let u := logPage s p
    (partAt u p).log = { (partAt s p).log with due := rest, out := some (g, i) } ∧
      u.out = s.out ++ mreqOuts s true ((partAt s p).log.base + 64 + 8 * (partAt s p).log.count) 8
        (leBytes 8 (i % 16 + 16 * (g % 2 ^ 52))) [] none := by
  unfold logPage
  dsimp only
  rw [hd]
  dsimp only
  rw [if_neg (by rw [ha, ho]; simp), if_pos hc]
  rw [partAt_pmReq_none, log_modLog_same]
  exact ⟨rfl, pmReq_out ..⟩

/-- A page for which there is no room sets OVERFLOW. -/
theorem logPage_overflows (s : State) (p g i : Nat) (rest : List (Nat × Nat)) (hd : (partAt s p).log.due = (g, i) :: rest)
    (ha : (partAt s p).log.active = true) (ho : (partAt s p).log.out = none)
    (hc : logRoom (partAt s p).log.pages ≤ (partAt s p).log.count) (hv : (partAt s p).log.overflow = false) : let u := logPage s p
    (partAt u p).log.overflow = true ∧ (partAt u p).log.count = (partAt s p).log.count ∧
      reg u (ptOff p 0x40) = reg s (ptOff p 0x40) ||| 2 := by
  unfold logPage
  dsimp only
  rw [hd]
  dsimp only
  rw [if_neg (by rw [ha, ho]; simp), if_neg (by omega), if_neg (by rw [hv]; decide)]
  have hl : (partAt (setBits (logHead (modLog s p (fun l => { l with due := rest, overflow := true })) p) (ptOff p 0x40) 2) p).log =
      { (partAt s p).log with due := rest, overflow := true } := by
    rw [partAt_setBits, partAt_logHead, log_modLog_same]
  have hr : reg (setBits (logHead (modLog s p (fun l => { l with due := rest, overflow := true })) p) (ptOff p 0x40) 2) (ptOff p 0x40) = _ :=
    reg_setReg_same _ _ _
  generalize setBits _ _ _ = t at hl hr ⊢
  obtain ⟨h1, h2, h3⟩ := logSettle_keeps t p
  rw [h1, h2, hl]
  exact ⟨rfl, rfl, (congrArg (tgetD · _ _) h3).trans hr⟩

theorem logPage_rests (s : State) (p : Nat)
    (h : (partAt s p).log.due = [] ∨ (partAt s p).log.active = false ∨ (partAt s p).log.out.isSome = true) : logPage s p = s := by
  unfold logPage
  dsimp only
  split
  · rfl
  · next hd =>
    refine if_pos ?_
    rcases h with h | h | h
    · rw [h] at hd
      nomatch hd
    · exact .inl (by rw [h]; rfl)
    · exact .inr h

/-- The answer to an entry's write raises COUNT. -/
theorem logAnswer_counts (s : State) (p a : Nat) (x : Nat × Nat) (ho : (partAt s p).log.out = some x)
    (he : (partAt s p).log.ending = false) : let u := logAnswer s p false a
    (partAt u p).log.count = (partAt s p).log.count + 1 ∧ (partAt u p).log.out = none ∧
      u.out = s.out ++ mreqOuts s true (partAt s p).log.base 64 (leBytes 8 ((partAt s p).log.count + 1) ++
        leBytes 1 (b2n (partAt s p).log.overflow + 2 * b2n (partAt s p).log.active) ++ List.replicate 55 0) [] none := by
  unfold logAnswer
  rw [ho]
  dsimp only
  rw [if_neg (by decide), logSettle_still _ _ (by rw [partAt_logHead, log_modLog_same]; simp [logOver, he]), partAt_logHead, logHead_out,
    log_modLog_same]
  exact ⟨rfl, rfl, rfl⟩

/-- The rows of DIRTY_PAGE_LOG, and the answer to its write. -/
theorem dirtyPageLog_rows (s : State) (p : Nat) (hp : p < 16) (h : engUp s = true) : let r := partAt s p
    (r.log.due = [] ∨ r.log.active = false ∨ r.log.out.isSome = true → exec (.dirtyPageLog p) s = .next (finish s (quiet s))) ∧
    ∀ g i rest, r.log.due = (g, i) :: rest → r.log.active = true → r.log.out = none →
      (r.log.count < (r.log.pages * 4096 - 64) / 8 → ∃ u, exec (.dirtyPageLog p) s = .next (finish s u) ∧
        (partAt u p).log.count = r.log.count ∧ (partAt u p).log.due = rest ∧ (partAt u p).log.out = some (g, i) ∧
        u.out = mreqOuts s true (r.log.base + 64 + 8 * r.log.count) 8 (leBytes 8 (i % 16 + 16 * (g % 2 ^ 52))) [] none) ∧
      ((r.log.pages * 4096 - 64) / 8 ≤ r.log.count → r.log.overflow = false → ∃ u, exec (.dirtyPageLog p) s = .next (finish s u) ∧
        (partAt u p).log.overflow = true ∧ (partAt u p).log.count = r.log.count ∧ reg u (ptOff p 0x40) = reg s (ptOff p 0x40) ||| 2) := by
  have he : ∀ u, logPage (quiet s) p = u → exec (.dirtyPageLog p) s = .next (finish s u) := fun u hu =>
    (runEng_run h (by rw [Nat.mod_eq_of_lt hp]; exact hu) : execDirtyPageLog p s = _)
  refine ⟨fun hr => he _ (logPage_rests (quiet s) p hr), fun g i rest hd ha ho => ⟨fun hc => ?_, fun hc hv => ?_⟩⟩
  · obtain ⟨h1, h2⟩ := logPage_writes (quiet s) p g i rest hd ha ho hc
    exact ⟨_, he _ rfl, by rw [h1]; rfl, by rw [h1], by rw [h1], h2⟩
  · exact ⟨_, he _ rfl, logPage_overflows (quiet s) p g i rest hd ha ho hc hv⟩

theorem logEntry_answered (s : State) (p id pick : Nat) (e : Pm) (x : Nat × Nat) (h : engUp s = true) (hi : tget s.fab.pm id = some e)
    (hu : e.use = .logEntry p) (hn : e.pasid = none) (ho : (partAt s p).log.out = some x) (hg : (partAt s p).log.ending = false) :
    let r := partAt s p
    ∃ u, exec (.initiatorResponse id false 0 [] pick) s = .next (finish s u) ∧
      (partAt u p).log.count = r.log.count + 1 ∧ (partAt u p).log.out = none ∧
      u.out = mreqOuts s true r.log.base 64 (leBytes 8 (r.log.count + 1) ++
        leBytes 1 (b2n r.log.overflow + 2 * b2n r.log.active) ++ List.replicate 55 0) [] none := by
  have hr : pmAnswer { quiet s with fab := { s.fab with pm := tdel s.fab.pm id } } e false 0 [] pick =
      logAnswer { quiet s with fab := { s.fab with pm := tdel s.fab.pm id } } p false e.addr := by
    unfold pmAnswer
    simp only [hu, hn, waitsTouched, Option.bind_none, ite_self]
  refine ⟨logAnswer { quiet s with fab := { s.fab with pm := tdel s.fab.pm id } } p false e.addr,
    (runEng_run h ?_ : execInitiatorResponse id false 0 [] pick s = _), logAnswer_counts _ p e.addr x ho hg⟩
  rw [show (quiet s).fab.pm = s.fab.pm from rfl, hi]
  exact hr

/-! The freeze. -/

section
variable {s : State} {src p : Nat} {k : Packet} (hp : fld (pw k.params 0) 3 0 = p)
include hp

theorem endFreeze_runs (h : partRuns s p = true) : endFreeze s src k = s := by
  unfold endFreeze
  dsimp only
  rw [hp, if_pos h]

theorem endFreeze_ends (h : partRuns s p = false) (h1 : pinsOf s p = []) (h2 : pinsOf (pumpMem s) p = []) (h3 : dirtyItems (pumpMem s) p = [])
    (h4 : wbsOut (pumpMem s) p = false) : endFreeze s src k =
      reply (setPart (pumpMem s) p { partAt s p with freezing := false, frozen := true }) src .migFreeze k.tag stOk [] := by
  unfold endFreeze
  dsimp only
  rw [hp, if_neg (by rw [h]; decide), h1, List.foldl_nil]
  generalize pumpMem s = t at h2 h3 h4 ⊢
  rw [h2, h3]
  simp only [List.isEmpty_nil, Bool.not_true, Bool.false_eq_true, if_false, if_true, h3, h4, or_self]

theorem migFreeze_dead (hl : (partAt s p).live = false) : migFreeze s src k = reply s src .migFreeze k.tag stStaleHandle [] := by
  unfold migFreeze
  dsimp only
  rw [hp, if_pos (by rw [hl]; rfl)]

theorem migFreeze_thaw (hl : (partAt s p).live = true) (hb : wbit (pw k.params 0) 8 = true) : migFreeze s src k =
    if (partAt s p).saved then reply s src .migFreeze k.tag stNotPermitted []
    else reply (setPart s p { partAt s p with frozen := false, freezing := false }) src .migFreeze k.tag stOk [] := by
  unfold migFreeze
  dsimp only
  rw [hp, if_neg (by rw [hl]; decide), if_pos hb]

theorem migFreeze_begins (hl : (partAt s p).live = true) (hb : wbit (pw k.params 0) 8 = false) (hf : (partAt s p).frozen = false)
    (hw : s.fab.waits = []) : migFreeze s src k =
      endFreeze (startBg (setPart s p { partAt s p with freezing := true }) src .migFreeze [.part p]) src k := by
  unfold migFreeze
  dsimp only
  rw [hp, if_neg (by rw [hl]; decide), if_neg (by rw [hb]; decide), if_neg (by rw [hf]; decide), startBg_fab, setPart_fab, hw]
  rfl

end

/-- The rows of BCP_MIG_FREEZE. -/
theorem migFreeze_rows (s : State) (src p : Nat) (k : Packet) (h : takes s src .migFreeze k = true)
    (hp : fld (pw k.params 0) 3 0 = p) : let r := partAt s p
    (r.live = false → exec (.bcpMigFreeze src) s = .next (finish s (reply (taken s src) src .migFreeze k.tag stStaleHandle []))) ∧
    (r.live = true → wbit (pw k.params 0) 8 = true → r.saved = true →
      exec (.bcpMigFreeze src) s = .next (finish s (reply (taken s src) src .migFreeze k.tag stNotPermitted []))) ∧
    (r.live = true → wbit (pw k.params 0) 8 = true → r.saved = false → exec (.bcpMigFreeze src) s = .next (finish s
      (reply (setPart (taken s src) p { r with frozen := false, freezing := false }) src .migFreeze k.tag stOk []))) ∧
    (r.live = true → wbit (pw k.params 0) 8 = false → r.frozen = false → s.fab.waits = [] → exec (.bcpMigFreeze src) s = .next (finish s
      (endFreeze (startBg (setPart (taken s src) p { r with freezing := true }) src .migFreeze [.part p]) src k))) := by
  have he : ∀ u, migFreeze (taken s src) src k = u → exec (.bcpMigFreeze src) s = .next (finish s u) :=
    fun u hu => (runCmd_takes h hu : execBcpMigFreeze src s = _)
  refine ⟨fun hl => he _ (migFreeze_dead hp hl), fun hl hb hs => he _ ?_, fun hl hb hs => he _ ?_,
    fun hl hb hf hw => he _ (migFreeze_begins (s := taken s src) hp hl hb hf hw)⟩
  · exact (migFreeze_thaw (s := taken s src) hp hl hb).trans (if_pos hs)
  · exact (migFreeze_thaw (s := taken s src) hp hl hb).trans (if_neg (by rw [partAt_taken, hs]; decide))

theorem freezeTimeout_none (s : State) (p : Nat) (h : ∀ b ∈ s.hub.bg, b.op ≠ .migFreeze) : freezeTimeout s p = s := by
  unfold freezeTimeout
  dsimp only
  rw [List.find?_eq_none.mpr (fun b hb => by simp [h b hb])]

theorem freezeTimeout_thaws (s : State) (src p : Nat) (k : Packet) (hb : s.hub.bg = [{ src := src, op := .migFreeze, holds := [.part p] }])
    (hk : packetOf s src .migFreeze = some k) (hr : partRuns s p = true) : freezeTimeout s p =
      reply (setPart s p { partAt s p with freezing := false }) src .migFreeze k.tag stTimeout [] := by
  unfold freezeTimeout
  dsimp only
  rw [hb, List.find?_cons_of_pos (by simp)]
  dsimp only
  rw [hk]
  exact if_pos hr

theorem migFreezeTimeout_runs {s u : State} {p : Nat} (hp : p < 16) (h : engUp s = true) (hu : freezeTimeout (quiet s) p = u) :
    exec (.migFreezeTimeout p) s = .next (finish s u) :=
  (runEng_run h (by rw [Nat.mod_eq_of_lt hp]; exact hu) : execMigFreezeTimeout p s = _)

end Sys2Proof.Machine
end

section
/-! SUPPORT. A migration blob saved, restored, and opened again (11 R376 to R378). -/

namespace Sys2Proof.Machine

/- Proofs are elaborated in their order, for the reason given in the first section of this kind. -/
set_option deprecated.oldSectionVars true

/-! What the firmware does with working keys changes the key store, and counts. -/

/-- `t` is `s` but for the key store, counters, their overflow bits, and free values drawn. -/
def Keyed (s t : State) : Prop := ∃ ks, Counts { s with keys := ks } t

theorem Keyed.refl (s : State) : Keyed s s := ⟨s.keys, Counts.rfl s⟩

theorem Keyed.trans {s t u : State} (h : Keyed s t) (g : Keyed t u) : Keyed s u := by
  obtain ⟨ks, c, n, w, f, rfl⟩ := h
  obtain ⟨ks', c', n', w', f', rfl⟩ := g
  exact ⟨ks', c', n', w', f', rfl⟩

theorem Keyed.kept {s t : State} (h : Keyed s t) :
    t.mem = s.mem ∧ t.parts = s.parts ∧ t.upd = s.upd ∧ t.hub = s.hub ∧ t.dom = s.dom ∧ t.out = s.out ∧ t.ident = s.ident := by
  obtain ⟨ks, c, n, w, f, rfl⟩ := h
  exact ⟨rfl, rfl, rfl, rfl, rfl, rfl, rfl⟩

theorem keyed_setSlot (s : State) (n : Nat) (k : Slot) : Keyed s (setSlot s n k) := ⟨_, Counts.rfl _⟩

theorem keyed_derive (s : State) (k : BitVec 256) (l : String) (c : Bytes) : Keyed s (derive s k l c).2 := by
  obtain ⟨ks, h⟩ := absorb_counts (countEv s 0x0A1 none 1) (keyBytes k) (kmacX l c).length
  exact Keyed.trans ⟨s.keys, countEv_counts s 0x0A1 none 1⟩ ⟨_, h⟩

theorem keyed_migrationKey (s : State) (c : Bytes) : Keyed s (migrationKey s c) :=
  (keyed_derive s (slotAt s 5).key "mig" c).trans (keyed_setSlot _ _ _)

theorem useKey_spends (s : State) (n b : Nat) :
    (useKey s n b).2 = s ∨ (useKey s n b).2 = setSlot s n { slotAt s n with useCount := (slotAt s n).useCount + 1 } := by
  unfold useKey
  dsimp only
  split <;> (try exact .inl rfl)
  split <;> (try exact .inl rfl)
  split <;> (try exact .inl rfl)
  split <;> (try exact .inl rfl)
  split
  · exact .inl rfl
  · exact .inr rfl

theorem keyed_useKey (s : State) (n b : Nat) : Keyed s (useKey s n b).2 := by
  rcases useKey_spends s n b with h | h <;> rw [h]
  · exact Keyed.refl s
  · exact keyed_setSlot _ _ _

/-- A use of a key leaves every key as it is. -/
theorem key_useKey (s : State) (n b : Nat) : (slotAt (useKey s n b).2 n).key = (slotAt s n).key := by
  rcases useKey_spends s n b with h | h <;> rw [h]
  rw [slotAt, setSlot, tgetD_tset_same]

theorem useKey_congr {s t : State} (h : t.keys.slots = s.keys.slots) (n b : Nat) : (useKey t n b).1 = (useKey s n b).1 := by
  unfold useKey
  rw [slotAt_congr h]
  dsimp only
  split <;> (try rfl)
  split <;> (try rfl)
  split <;> (try rfl)
  split <;> rfl

theorem sealUnder_state (s : State) (a b : Nat) (n d p : Bytes) : (sealUnder s a b n d p).2 = (useKey s a b).2 := by
  unfold sealUnder
  dsimp only
  split <;> rfl

theorem keyed_sealUnder (s : State) (a b : Nat) (n d p : Bytes) : Keyed s (sealUnder s a b n d p).2 := by
  rw [sealUnder_state]
  exact keyed_useKey s a b

/-- What a seal answers, where the use is not refused. -/
theorem sealUnder_seals {s t : State} {a b : Nat} {n d p c : Bytes} (h : sealUnder s a b n d p = (some c, t)) :
    c = gcmCrypt (slotAt s a).key n p ++ gcmTag (slotAt s a).key n d (gcmCrypt (slotAt s a).key n p) ∧ t = (useKey s a b).2 := by
  have ht : t = (useKey s a b).2 := by rw [← sealUnder_state s a b n d p, h]
  refine ⟨?_, ht⟩
  unfold sealUnder at h
  dsimp only at h
  split at h
  · nomatch congrArg Prod.fst h
  · rw [key_useKey] at h
    exact (Option.some.inj (congrArg Prod.fst h)).symm

theorem keyed_useTimes (s : State) (a b n : Nat) : Keyed s (useTimes s a b n).2 := by
  induction n generalizing s with
  | zero => exact Keyed.refl s
  | succ n ih =>
    unfold useTimes
    dsimp only
    split
    · exact keyed_useKey s a b
    · exact (keyed_useKey s a b).trans (ih _)

/-! Segments. -/

theorem sealSegs_none (s : State) (head : Bytes) (n j : Nat) : sealSegs s head n j [] = (some [], s) := by
  cases n <;> rfl

theorem sealSegs_refused (s t : State) (head : Bytes) (n j : Nat) (b : Bytes) (h : b ≠ [])
    (hu : sealUnder s migSlot 7 (segIv j) (head ++ leBytes 4 j) (b.take 4096) = (none, t)) : sealSegs s head (n + 1) j b = (none, t) := by
  rw [sealSegs, if_neg (by simpa using h), hu]

theorem sealSegs_seals (s t : State) (head : Bytes) (n j : Nat) (b c : Bytes) (h : b ≠ [])
    (hu : sealUnder s migSlot 7 (segIv j) (head ++ leBytes 4 j) (b.take 4096) = (some c, t)) : sealSegs s head (n + 1) j b =
    ((sealSegs t head n (j + 1) (b.drop 4096)).1.map (c ++ ·), (sealSegs t head n (j + 1) (b.drop 4096)).2) := by
  rw [sealSegs, if_neg (by simpa using h), hu]

theorem keyed_sealSegs (s : State) (head : Bytes) (n j : Nat) (b : Bytes) : Keyed s (sealSegs s head n j b).2 := by
  induction n generalizing s j b with
  | zero => exact Keyed.refl s
  | succ n ih =>
    by_cases hb : b = []
    · rw [hb, sealSegs_none]
      exact Keyed.refl s
    · have hk := keyed_sealUnder s migSlot 7 (segIv j) (head ++ leBytes 4 j) (b.take 4096)
      rcases hu : sealUnder s migSlot 7 (segIv j) (head ++ leBytes 4 j) (b.take 4096) with ⟨_ | c, t⟩
      · rw [sealSegs_refused s t head n j b hb hu]
        rwa [hu] at hk
      · rw [sealSegs_seals s t head n j b c hb hu]
        rw [hu] at hk
        exact hk.trans (ih t (j + 1) (b.drop 4096))

theorem length_gcmCrypt (k : BitVec 256) (iv p : Bytes) : (gcmCrypt k iv p).length = p.length := xorBytes_length _ _

theorem gcmCrypt_twice (k : BitVec 256) (iv p : Bytes) : gcmCrypt k iv (gcmCrypt k iv p) = p := by
  rw [gcmCrypt, length_gcmCrypt]
  exact xorBytes_twice _ _

theorem length_gcmTag (k : BitVec 256) (iv a c : Bytes) : (gcmTag k iv a c).length = 16 := by simp [gcmTag, blockBytes]

theorem openSegs_succ (k : BitVec 256) (head : Bytes) (n j len : Nat) (b : Bytes) (h : len ≠ 0) : openSegs k head (n + 1) j len b =
    if (b.take (min len 4096)).length = min len 4096 ∧
        gcmTag k (segIv j) (head ++ leBytes 4 j) (b.take (min len 4096)) = slice b (min len 4096) 16 then
      (openSegs k head n (j + 1) (len - min len 4096) (b.drop (min len 4096 + 16))).map
        (gcmCrypt k (segIv j) (b.take (min len 4096)) ++ ·)
    else none := if_neg h

/-- A segment that verifies opens, and the rest follows. -/
theorem openSegs_segment (k : BitVec 256) (head : Bytes) (n j : Nat) (b rest : Bytes) (hb : b ≠ []) :
    openSegs k head (n + 1) j b.length (gcmCrypt k (segIv j) (b.take 4096) ++
      gcmTag k (segIv j) (head ++ leBytes 4 j) (gcmCrypt k (segIv j) (b.take 4096)) ++ rest) =
      (openSegs k head n (j + 1) (b.drop 4096).length rest).map (b.take 4096 ++ ·) := by
  have hc : (gcmCrypt k (segIv j) (b.take 4096)).length = min b.length 4096 := by
    rw [length_gcmCrypt, List.length_take, Nat.min_comm]
  have hd : gcmCrypt k (segIv j) (gcmCrypt k (segIv j) (b.take 4096)) = b.take 4096 := gcmCrypt_twice _ _ _
  have ht := length_gcmTag k (segIv j) (head ++ leBytes 4 j) (gcmCrypt k (segIv j) (b.take 4096))
  generalize gcmCrypt k (segIv j) (b.take 4096) = c at hc hd ht ⊢
  generalize hg : gcmTag k (segIv j) (head ++ leBytes 4 j) c = g at ht ⊢
  obtain ⟨e1, e2⟩ := split_append c (g ++ rest) _ hc
  obtain ⟨e3, e4⟩ := split_append g rest _ ht
  rw [List.append_assoc, openSegs_succ _ _ _ _ _ _ (fun h0 => hb (List.eq_nil_of_length_eq_zero h0)), e1, slice, e2, e3, if_pos ⟨hc, hg⟩, hd, ← List.drop_drop (i := 16) (j := min b.length 4096), e2, e4, List.length_drop,
    show b.length - min b.length 4096 = b.length - 4096 by omega]

/-- What is sealed in segments opens to the same bytes. -/
theorem openSegs_sealSegs (head : Bytes) (n : Nat) : ∀ (s t : State) (j : Nat) (b segs : Bytes), b.length ≤ 4096 * n →
    sealSegs s head n j b = (some segs, t) → openSegs (slotAt s migSlot).key head n j b.length segs = some b := by
  induction n with
  | zero =>
    intro s t j b segs hl h
    have hb : b = [] := List.eq_nil_of_length_eq_zero (by omega)
    rw [hb, sealSegs_none] at h
    rw [hb, ← Option.some.inj (congrArg Prod.fst h)]
    rfl
  | succ n ih =>
    intro s t j b segs hl h
    by_cases hb : b = []
    · rw [hb, sealSegs_none] at h
      rw [hb, ← Option.some.inj (congrArg Prod.fst h)]
      rfl
    · rcases hu : sealUnder s migSlot 7 (segIv j) (head ++ leBytes 4 j) (b.take 4096) with ⟨_ | c, u⟩
      · rw [sealSegs_refused s u head n j b hb hu] at h
        nomatch congrArg Prod.fst h
      · rw [sealSegs_seals s u head n j b c hb hu] at h
        obtain ⟨hc, hk⟩ := sealUnder_seals hu
        have h1 := congrArg Prod.fst h
        dsimp only at h1
        obtain ⟨rest, hr, rfl⟩ := Option.map_eq_some_iff.mp h1
        have hi := ih u _ (j + 1) (b.drop 4096) rest (by rw [List.length_drop]; omega) (Prod.ext hr rfl)
        rw [hk, key_useKey] at hi
        rw [hc, openSegs_segment _ _ _ _ _ _ hb, hi, Option.map_some, List.take_append_drop]

theorem length_le_ceilDiv (b : Bytes) : b.length ≤ 4096 * ceilDiv b.length 4096 := by
  unfold ceilDiv
  omega

/-! The blob saved. -/

/-- The blob as it leaves, and its partition marked. -/
def blobLeaves (t : State) (src p : Nat) (k : Packet) (blob : Bytes) : State :=
  let t := replyFrags t src .migSave k.tag (replyBlob (ceilDiv blob.length fragMax) blob)
  noteSaved (setMb t src { mb t src with saving := some p }) src

section
variable {s : State} {src p : Nat} {k : Packet} (hp : fld (pw k.params 0) 3 0 = p)
include hp

theorem migSave_dead (hl : (partAt s p).live = false) : migSave s src k = reply s src .migSave k.tag stStaleHandle [] := by
  subst hp
  exact if_pos (by rw [hl]; rfl)

theorem migSave_thawed (hl : (partAt s p).live = true) (hf : (partAt s p).frozen = false) :
    migSave s src k = reply s src .migSave k.tag stNotPermitted [] := by
  subst hp
  refine (if_neg (by rw [hl]; decide)).trans ?_
  exact if_pos (by rw [hf]; rfl)

theorem migSave_refused (hl : (partAt s p).live = true) (hf : (partAt s p).frozen = true) (hk : (useKey s 5 0).1 ≠ stOk) :
    migSave s src k = reply s src .migSave k.tag (useKey s 5 0).1 [] := by
  subst hp
  refine (if_neg (by rw [hl]; decide)).trans ?_
  refine (if_neg (by rw [hf]; decide)).trans ?_
  exact if_pos hk

theorem migSave_noSalt (hl : (partAt s p).live = true) (hf : (partAt s p).frozen = true) (hk : (useKey s 5 0).1 = stOk)
    (hc : channelUp s = false ∨ s.hub.drbgRefuse = true) : migSave s src k = reply s src .migSave k.tag stInternal [] := by
  subst hp
  refine (if_neg (by rw [hl]; decide)).trans ?_
  refine (if_neg (by rw [hf]; decide)).trans ?_
  refine (if_neg (fun hn => hn hk)).trans ?_
  exact if_pos (hc.imp_left (fun h => by rw [h]; rfl))

theorem migSave_saves (hl : (partAt s p).live = true) (hf : (partAt s p).frozen = true) (hk : (useKey s 5 0).1 = stOk)
    (hc : channelUp s = true) (hr : s.hub.drbgRefuse = false) {segs : Bytes} {t : State} :
    let own := s.dom.vertex.getD 0
    let dst := fld (pw k.params 1) 15 0
    let d := draw (useKey s 5 0).2 16
    let body := blobBody s p
    let head := blobHead own dst p d.1 body.length
    sealSegs (migrationKey d.2 (migCtx own dst p d.1)) head (ceilDiv body.length 4096) 0 body = (some segs, t) →
      migSave s src k = blobLeaves t src p k (head ++ segs) := by
  intro own dst d body head hs
  subst hp
  refine (if_neg (by rw [hl]; decide)).trans ?_
  refine (if_neg (by rw [hf]; decide)).trans ?_
  refine (if_neg (fun hn => hn hk)).trans ?_
  refine (if_neg (by rw [hc, hr]; decide)).trans ?_
  extract_lets -merge e m b h
  rw [show sealSegs m h (ceilDiv b.length 4096) 0 b = (some segs, t) from hs]
  rfl

end

/-- A reply in fragments changes its source's mailbox and the background commands alone, and takes the packet. -/
theorem replyFrags_form (s : State) (src : Nat) (op : Op) (tag : Word) (l : List (List Word)) :
    ∃ h, replyFrags s src op tag l = { s with hub := h } ∧ (mb (replyFrags s src op tag l) src).packet = none := by
  unfold replyFrags
  split
  · exact ⟨_, rfl, congrArg Mbox.packet (mb_reply ..)⟩
  · exact ⟨_, rfl, congrArg Mbox.packet (mb_reply ..)⟩
  · exact ⟨_, rfl, congrArg Mbox.packet (mb_setMb_same ..)⟩

/-- A partition is marked SAVED as its last fragment stands at its source. -/
theorem blobLeaves_marks (t : State) (src p : Nat) (k : Packet) (blob : Bytes) : let u := blobLeaves t src p k blob
    ((partAt u p).saved = true ∨ (mb u src).saving = some p) ∧ (partAt u p).frozen = (partAt t p).frozen ∧
      (mb u src).packet = none ∧ u.mem = t.mem ∧ u.parts.ctx = t.parts.ctx ∧ u.upd = t.upd := by
  obtain ⟨h, hf, hm⟩ := replyFrags_form t src .migSave k.tag (replyBlob (ceilDiv blob.length fragMax) blob)
  unfold blobLeaves
  dsimp only
  rw [hf] at hm ⊢
  unfold noteSaved
  dsimp only
  rw [mb_setMb_same]
  dsimp only
  split
  · have hp : ∀ (x : State) (m : Mbox) r, partAt (setPart (setMb x src m) p r) p = r := fun x m r => partAt_setPart_same _ _ _
    have hq : ∀ (x : State) (m : Mbox) r, mb (setPart (setMb x src m) p r) src = m := fun x m r => mb_setMb_same x src m
    rw [hp, hq]
    exact ⟨.inl rfl, rfl, hm, rfl, rfl, rfl⟩
  · rw [mb_setMb_same]
    exact ⟨.inr rfl, rfl, hm, rfl, rfl, rfl⟩

/-- The rows of BCP_MIG_SAVE. -/
theorem migSave_rows (s : State) (src : Nat) (k : Packet) : let p := fld (pw k.params 0) 3 0; let dst := fld (pw k.params 1) 15 0
    let own := s.dom.vertex.getD 0
    takes s src .migSave k = true →
      ((partAt s p).live = false → exec (.bcpMigSave src) s = .next (finish s (reply (taken s src) src .migSave k.tag stStaleHandle []))) ∧
      ((partAt s p).live = true → (partAt s p).frozen = false →
        exec (.bcpMigSave src) s = .next (finish s (reply (taken s src) src .migSave k.tag stNotPermitted []))) ∧
      ((partAt s p).live = true → (partAt s p).frozen = true → (slotAt s 5).state = 2 →
        exec (.bcpMigSave src) s = .next (finish s (reply (taken s src) src .migSave k.tag stKeyOrphaned []))) ∧
      ((partAt s p).live = true → (partAt s p).frozen = true → (useKey s 5 0).1 = stOk → channelUp s = false ∨ s.hub.drbgRefuse = true →
        exec (.bcpMigSave src) s = .next (finish s (reply (taken s src) src .migSave k.tag stInternal []))) ∧
      ((partAt s p).live = true → (partAt s p).frozen = true → (useKey s 5 0).1 = stOk → channelUp s = true → s.hub.drbgRefuse = false →
        let d := draw (useKey (taken s src) 5 0).2 16
        let body := blobBody s p
        let head := blobHead own dst p d.1 body.length
        ∀ segs t, sealSegs (migrationKey d.2 (migCtx own dst p d.1)) head (ceilDiv body.length 4096) 0 body = (some segs, t) →
          ∃ u, exec (.bcpMigSave src) s = .next (finish s u) ∧ ((partAt u p).saved = true ∨ (mb u src).saving = some p) ∧
            (partAt u p).frozen = true ∧ (mb u src).packet = none ∧ u.mem = s.mem ∧ u.parts.ctx = s.parts.ctx ∧ u.upd = s.upd) := by
  intro p dst own h
  have he : ∀ u, migSave (taken s src) src k = u → exec (.bcpMigSave src) s = .next (finish s u) :=
    fun u hu => (runCmd_takes h hu : execBcpMigSave src s = _)
  have hk := useKey_congr (s := s) (t := taken s src) rfl 5 0
  refine ⟨fun hl => he _ (migSave_dead rfl hl), fun hl hf => he _ (migSave_thawed rfl hl hf), fun hl hf hs => ?_,
    fun hl hf hu hc => he _ (migSave_noSalt rfl hl hf (hk.trans hu) hc), fun hl hf hu hc hr => ?_⟩
  · have ho : (useKey (taken s src) 5 0).1 = stKeyOrphaned := by
      unfold useKey
      dsimp only
      rw [if_pos (show (slotAt (taken s src) 5).state = 2 from hs)]
    exact he _ ((migSave_refused (s := taken s src) rfl hl hf (by rw [ho]; decide)).trans (by rw [ho]))
  · intro d body head segs t hs
    have hm := migSave_saves (s := taken s src) (src := src) (k := k) rfl hl hf (hk.trans hu) hc hr hs
    obtain ⟨h1, h2, h3, h4, h5, h6⟩ := blobLeaves_marks t src p k (head ++ segs)
    have hx := he _ hm
    have ht : Keyed d.2 t := (keyed_migrationKey _ _).trans (by
      have := keyed_sealSegs (migrationKey d.2 (migCtx own dst p d.1)) head (ceilDiv body.length 4096) 0 body
      rwa [hs] at this)
    obtain ⟨k1, k2, k3, -⟩ := ht.kept
    obtain ⟨l1, l2, l3, -⟩ := (keyed_useKey (taken s src) 5 0).kept
    refine ⟨_, hx, h1, h2.trans ?_, h3, h4.trans (k1.trans l1), h5.trans ((congrArg Parts.ctx k2).trans (congrArg Parts.ctx l2)),
      h6.trans (k3.trans l3)⟩
    rw [partAt, k2, show d.2.parts = s.parts from l2]
    exact hf

end Sys2Proof.Machine
end

section
/-! SUPPORT. A migration blob restored (11 R378). -/

namespace Sys2Proof.Machine

/- Proofs are elaborated in their order, for the reason given in the first section of this kind. -/
set_option deprecated.oldSectionVars true

/-! What a record of the body brings. -/

theorem ctxAt_setCtx_same (s : State) (c : Nat) (x : Ctx) : ctxAt (setCtx s c x) c = some x := tget_tset_same _ _ _

theorem ctxAt_setCtx_other (s : State) (c i : Nat) (x : Ctx) (h : i ≠ c) : ctxAt (setCtx s c x) i = ctxAt s i := tget_tset_other _ _ _ _ h

/-- One record installed, as `restoreBody` installs each in turn. -/
def restoreStep (p : Nat) (s : State) (x : Nat × Bytes) : State :=
  if x.1 = 1 then setPart s p { partAt s p with
    frozen := true, fwinBase := leAt x.2 52 8, fwinPages := leAt x.2 60 8, owinBase := leAt x.2 68 8, owinPages := leAt x.2 76 8 }
  else if x.1 = 2 then restoreCtx s p x.2
  else if x.1 = 3 then setPgd s p (leAt x.2 0 4 % 4096) (x.2.drop 4)
  else if x.1 = 4 then restoreRegion s p x.2
  else s

theorem restoreBody_steps (s : State) (p : Nat) (l : List (Nat × Bytes)) : restoreBody s p l = l.foldl (restoreStep p) s := rfl

/-- A context that a body brings: of its partition, and IDLE. -/
def broughtIdle (p : Nat) (y : Ctx) : Prop := y.part = p ∧ y.faulted = false ∧ y.stopped = false

/-- `t` keeps the mailboxes, the salts and the partition of `s`, and its contexts are those of `s`, or brought. -/
def Brings (p : Nat) (s t : State) : Prop :=
  t.hub = s.hub ∧ t.parts.salts = s.parts.salts ∧ (partAt t p).live = (partAt s p).live ∧
    ((partAt s p).frozen = true → (partAt t p).frozen = true) ∧
    ∀ c y, ctxAt t c = some y → ctxAt s c = some y ∨ broughtIdle p y

theorem Brings.refl (p : Nat) (s : State) : Brings p s s := ⟨rfl, rfl, rfl, id, fun _ _ h => .inl h⟩

theorem Brings.trans {p : Nat} {s t u : State} (h : Brings p s t) (g : Brings p t u) : Brings p s u := by
  obtain ⟨h1, h2, h3, h4, h5⟩ := h
  obtain ⟨g1, g2, g3, g4, g5⟩ := g
  exact ⟨g1.trans h1, g2.trans h2, g3.trans h3, g4 ∘ h4, fun c y hc => (g5 c y hc).elim (h5 c y) .inr⟩

/-- What leaves partitions, contexts, salts and the Hub as they are brings nothing. -/
theorem brings_of_same {p : Nat} {s t : State} (h : t.hub = s.hub) (g : t.parts = s.parts) : Brings p s t := by
  refine ⟨h, congrArg Parts.salts g, ?_, ?_, fun c y hc => .inl ?_⟩
  · rw [partAt, g, ← partAt]
  · rw [partAt, partAt, g]
    exact id
  · rw [ctxAt, g] at hc
    exact hc

theorem brings_descs (p : Nat) (f : State → Nat → Desc) (l : List Nat) (s : State) : Brings p s (l.foldl (fun s i =>
    { s with parts := { s.parts with desc := tset s.parts.desc s.parts.nextDesc (f s i), nextDesc := s.parts.nextDesc + 1 } }) s) := by
  induction l generalizing s with
  | nil => exact Brings.refl p s
  | cons a l ih => exact Brings.trans ⟨rfl, rfl, rfl, id, fun _ _ h => .inl h⟩ (ih _)

theorem brings_setCtx (p : Nat) (s : State) (c : Nat) (x : Ctx) (h : broughtIdle p x) : Brings p s (setCtx s c x) := by
  refine ⟨rfl, rfl, rfl, id, fun i y hi => ?_⟩
  by_cases hc : i = c
  · rw [hc, ctxAt_setCtx_same] at hi
    exact .inr (Option.some.inj hi ▸ h)
  · rw [ctxAt_setCtx_other _ _ _ _ hc] at hi
    exact .inl hi

theorem brings_restoreCtx (p : Nat) (s : State) (b : Bytes) : Brings p s (restoreCtx s p b) := by
  unfold restoreCtx
  extract_lets want no nq nd own qs x
  clear_value no
  rcases no with _ | c
  · exact Brings.refl p s
  · exact (brings_setCtx p s _ x ⟨rfl, rfl, rfl⟩).trans (brings_descs p (fun _ i => _) _ _)

theorem wearOpen_same (s : State) (q : RegionReq) (n : Nat) : (wearOpen s q n).hub = s.hub ∧ (wearOpen s q n).parts = s.parts := by
  unfold wearOpen
  split
  · exact ⟨rfl, rfl⟩
  · split <;> exact ⟨rfl, rfl⟩

theorem brings_restoreRegion (p : Nat) (s : State) (b : Bytes) : Brings p s (restoreRegion s p b) := by
  unfold restoreRegion
  extract_lets kid own r s1 e s2 q f
  obtain ⟨h1, h2⟩ := wearOpen_same f.2 q (f.1 % 2 ^ 64)
  exact brings_of_same h1 h2

theorem brings_setPgd (p : Nat) (s : State) (q g : Nat) (b : Bytes) : Brings p s (setPgd s q g b) := brings_of_same rfl rfl

theorem brings_partition (p : Nat) (s : State) (r : PartRec) (hl : r.live = (partAt s p).live) (hf : r.frozen = true) :
    Brings p s (setPart s p r) := by
  refine ⟨rfl, rfl, ?_, fun _ => ?_, fun _ _ h => .inl h⟩ <;> rw [partAt_setPart_same]
  · exact hl
  · exact hf

theorem brings_restoreStep (p : Nat) (s : State) (x : Nat × Bytes) : Brings p s (restoreStep p s x) := by
  unfold restoreStep
  split
  · exact brings_partition p s _ rfl rfl
  · split
    · exact brings_restoreCtx p s x.2
    · split
      · exact brings_setPgd p s p _ _
      · split
        · exact brings_restoreRegion p s x.2
        · exact Brings.refl p s

theorem brings_restoreBody (p : Nat) (l : List (Nat × Bytes)) (s : State) : Brings p s (restoreBody s p l) := by
  rw [restoreBody_steps]
  induction l generalizing s with
  | nil => exact Brings.refl p s
  | cons x l ih => exact (brings_restoreStep p s x).trans (ih _)

/-- A body with a record of its partition freezes it. -/
theorem restoreBody_freezes (p : Nat) (l : List (Nat × Bytes)) (s : State) (h : ∃ x ∈ l, x.1 = 1) :
    (partAt (restoreBody s p l) p).frozen = true := by
  induction l generalizing s with
  | nil =>
    obtain ⟨x, hx, -⟩ := h
    nomatch hx
  | cons y l ih =>
    show (partAt (restoreBody (restoreStep p s y) p l) p).frozen = true
    by_cases hy : y.1 = 1
    · obtain ⟨-, -, -, hk, -⟩ := brings_restoreBody p l (restoreStep p s y)
      refine hk ?_
      rw [restoreStep, if_pos hy, partAt_setPart_same]
    · obtain ⟨x, hx, hx1⟩ := h
      rcases List.mem_cons.mp hx with rfl | hx
      · exact absurd hx1 hy
      · exact ih _ ⟨x, hx, hx1⟩

/-- A grant that may be created is no empty one. -/
theorem createCheck_grant (s : State) (p : Nat) (b : Option (Nat × Bytes))
    (h : createCheck s p (grantFrom ((b.map (·.2)).getD [])) = none) : b.isSome = true := by
  rcases b with _ | x
  · refine absurd h ?_
    unfold createCheck
    dsimp only
    split
    · exact fun h => nomatch h
    · rw [if_pos (.inl (by decide))]
      exact fun h => nomatch h
  · rfl

/-! The command. -/

/-- The salts restored. -/
def setSalts (s : State) (l : List Bytes) : State := { s with parts := { s.parts with salts := l } }

theorem setSalts_keeps (s : State) (l : List Bytes) : (setSalts s l).parts.salts = l ∧ (setSalts s l).hub = s.hub ∧
    (∀ p, partAt (setSalts s l) p = partAt s p) ∧ ∀ c, ctxAt (setSalts s l) c = ctxAt s c := ⟨rfl, rfl, fun _ => rfl, fun _ => rfl⟩

/-- What a restore answers, once its blob has been opened, or not. -/
def restoreAnswers (d : State) (src p : Nat) (k : Packet) (salt : Bytes) (st : Nat) (body : Bytes) : State :=
  let recs := blobRecs body.length body
  let g := grantFrom (((recs.find? (fun x => x.1 == 1)).map (·.2)).getD [])
  let s := restoreBody (installPart d p g) p recs
  reply (setSalts s ((s.parts.salts ++ [salt]).drop (s.parts.salts.length + 1 - 256))) src .migRestore k.tag st []

/-- A restore goes on with its opened body. -/
def restoreOpened (d : State) (src p : Nat) (k : Packet) (salt : Bytes) (opened : Option Bytes) : State :=
  match opened with
  | none => reply d src .migRestore k.tag stNotPermitted []
  | some body =>
    let recs := blobRecs body.length body
    let g := grantFrom (((recs.find? (fun x => x.1 == 1)).map (·.2)).getD [])
    if d.parts.salts.contains salt then reply d src .migRestore k.tag stNotPermitted []
    else match createCheck d p g with
      | some st => reply d src .migRestore k.tag st []
      | none =>
        if 4096 < d.parts.ctx.length + recs.countP (fun x => x.1 == 2) then reply d src .migRestore k.tag stNoResource []
        else restoreAnswers d src p k salt stOk body

section
variable {s : State} {src : Nat} {k : Packet}

theorem migRestore_refuses (h : leAt (k.blob.take 64) 0 4 ≠ 0x424D5654 ∨ leAt (k.blob.take 64) 4 2 ≠ 1 ∨
    ownVertex s (leAt (k.blob.take 64) 8 2) = false ∨ leAt (k.blob.take 64) 6 2 ≠ fld (pw k.params 1) 15 0) :
    migRestore s src k = reply s src .migRestore k.tag stNotPermitted [] := by
  by_cases h0 : leAt (k.blob.take 64) 0 4 ≠ 0x424D5654 ∨ leAt (k.blob.take 64) 4 2 ≠ 1
  · exact if_pos h0
  · refine (if_neg h0).trans ?_
    rcases h with h | h | h | h
    · exact absurd (.inl h) h0
    · exact absurd (.inr h) h0
    · exact if_pos (.inl (by rw [h]; rfl))
    · exact if_pos (.inr h)

variable (h0 : leAt (k.blob.take 64) 0 4 = 0x424D5654) (h1 : leAt (k.blob.take 64) 4 2 = 1)
  (h2 : ownVertex s (leAt (k.blob.take 64) 8 2) = true) (h3 : leAt (k.blob.take 64) 6 2 = fld (pw k.params 1) 15 0)
  (hk : (useKey s 5 0).1 = stOk) (hc : channelUp s = true)
include h0 h1 h2 h3 hk hc

theorem migRestore_opens : migRestore s src k =
    let p := fld (pw k.params 0) 3 0
    let head := k.blob.take 64
    let salt := slice head 16 16
    let len := leAt head 32 4
    let d := (useTimes (migrationKey (useKey s 5 0).2 (migCtx (fld (pw k.params 1) 15 0) (s.dom.vertex.getD 0) (leAt head 10 1) salt)) migSlot 7
      (ceilDiv len 4096)).2
    restoreOpened d src p k salt (openSegs (slotAt d migSlot).key head (ceilDiv len 4096) 0 len (k.blob.drop 64)) := by
  refine (if_neg (by rw [h0, h1]; decide)).trans ?_
  refine (if_neg (by rw [h2, h3]; simp)).trans ?_
  refine (if_neg (fun hn => hn hk)).trans ?_
  refine (if_neg (by rw [hc]; decide)).trans ?_
  rfl

end

theorem mb_of_hub {s t : State} (h : t.hub = s.hub) (n : Nat) : mb t n = mb s n := by rw [mb, mb, h]

theorem contains_drop_append (l : List Bytes) (a : Bytes) {n : Nat} (h : n ≤ l.length) : ((l ++ [a]).drop n).contains a = true := by
  rw [List.drop_append_of_le_length h]
  simp

/-- What a restored partition is. -/
theorem restoreAnswers_installs (d : State) (src p : Nat) (k : Packet) (salt body : Bytes) (st : Nat)
    (hf : ((blobRecs body.length body).find? (fun x => x.1 == 1)).isSome = true) : let u := restoreAnswers d src p k salt st body
    u.parts.salts.contains salt = true ∧ (partAt u p).live = true ∧ (partAt u p).frozen = true ∧
      (∀ c y, ctxAt u c = some y → ctxAt d c = some y ∨ (y.part = p ∧ y.faulted = false ∧ y.stopped = false)) ∧
      (mb u src).replies = (mb d src).replies ++ [replyWords (opVal .migRestore) st k.tag []] := by
  obtain ⟨x, hx⟩ := Option.isSome_iff_exists.mp hf
  have hfz := restoreBody_freezes p (blobRecs body.length body) (installPart d p (grantFrom
    ((((blobRecs body.length body).find? (fun x => x.1 == 1)).map (·.2)).getD [])))
    ⟨x, List.mem_of_find?_eq_some hx, by simpa using List.find?_some hx⟩
  obtain ⟨b1, b2, b3, -, b5⟩ := brings_restoreBody p (blobRecs body.length body) (installPart d p (grantFrom
    ((((blobRecs body.length body).find? (fun x => x.1 == 1)).map (·.2)).getD [])))
  obtain ⟨i1, -, -, -, -, -, -, -, -, -, -, -, -, -, i2, i3⟩ := installPart_grants d p (grantFrom
    ((((blobRecs body.length body).find? (fun x => x.1 == 1)).map (·.2)).getD []))
  unfold restoreAnswers
  dsimp only
  generalize restoreBody _ _ _ = t at hfz b1 b2 b3 b5 ⊢
  have hs := contains_drop_append t.parts.salts salt (n := t.parts.salts.length + 1 - 256) (by omega)
  generalize List.drop _ _ = l at hs ⊢
  obtain ⟨s1, s2, s3, s4⟩ := setSalts_keeps t l
  generalize setSalts t l = v at s1 s2 s3 s4 ⊢
  refine ⟨(congrArg (·.contains salt) s1).trans hs, (congrArg PartRec.live (s3 p)).trans (b3.trans i1), (congrArg PartRec.frozen (s3 p)).trans hfz, fun c y hc => (b5 c y ((s4 c).symm.trans hc)).imp_left (fun h => ?_), ?_⟩
  · rw [ctxAt, i2] at h
    exact h
  · rw [mb_reply, mb_of_hub (s := d) (s2.trans (b1.trans i3))]

/-- The rows of BCP_MIG_RESTORE. -/
theorem migRestore_rows (s : State) (src : Nat) (k : Packet) (h : takes s src .migRestore k = true) :
    let p := fld (pw k.params 0) 3 0; let own := s.dom.vertex.getD 0
    let head := k.blob.take 64; let v := fld (pw k.params 1) 15 0
      (leAt head 0 4 ≠ 0x424D5654 ∨ leAt head 4 2 ≠ 1 ∨ ownVertex s (leAt head 8 2) = false ∨ leAt head 6 2 ≠ v →
        exec (.bcpMigRestore src) s = .next (finish s (reply (taken s src) src .migRestore k.tag stNotPermitted []))) ∧
      (leAt head 0 4 = 0x424D5654 → leAt head 4 2 = 1 → ownVertex s (leAt head 8 2) = true → leAt head 6 2 = v →
        (useKey s 5 0).1 = stOk → channelUp s = true →
        let len := leAt head 32 4
        let d := (useTimes (migrationKey (useKey (taken s src) 5 0).2 (migCtx v own (leAt head 10 1) (slice head 16 16))) migSlot 7
          (ceilDiv len 4096)).2
        let opened := openSegs (slotAt d migSlot).key head (ceilDiv len 4096) 0 len (k.blob.drop 64)
        (opened = none ∨ s.parts.salts.contains (slice head 16 16) = true →
          exec (.bcpMigRestore src) s = .next (finish s (reply d src .migRestore k.tag stNotPermitted []))) ∧
        (∀ body, opened = some body → s.parts.salts.contains (slice head 16 16) = false →
          let recs := blobRecs body.length body
          let g := grantFrom (((recs.find? (fun x => x.1 == 1)).map (·.2)).getD [])
          (∀ st, createCheck d p g = some st → exec (.bcpMigRestore src) s = .next (finish s (reply d src .migRestore k.tag st []))) ∧
          (createCheck d p g = none → s.parts.ctx.length + recs.countP (fun x => x.1 == 2) ≤ 4096 → ∃ u, exec (.bcpMigRestore src) s = .next (finish s u) ∧
            u.parts.salts.contains (slice head 16 16) = true ∧ (partAt u p).live = true ∧ (partAt u p).frozen = true ∧
            (∀ c y, ctxAt u c = some y → ctxAt s c = some y ∨ (y.part = p ∧ y.faulted = false ∧ y.stopped = false)) ∧
            (mb u src).replies = (mb s src).replies ++ [replyWords (opVal .migRestore) stOk k.tag []]))) := by
  intro p own head v
  have he : ∀ u, migRestore (taken s src) src k = u → exec (.bcpMigRestore src) s = .next (finish s u) :=
    fun u hu => (runCmd_takes h hu : execBcpMigRestore src s = _)
  refine ⟨fun hb => he _ (migRestore_refuses (s := taken s src) hb), fun h0 h1 h2 h3 hu hc => ?_⟩
  have hm := migRestore_opens (s := taken s src) (src := src) h0 h1 h2 h3 ((useKey_congr (s := s) (t := taken s src) rfl 5 0).trans hu) hc
  intro len d opened
  obtain ⟨-, l2, -, l4, -⟩ := ((keyed_useKey (taken s src) 5 0).trans ((keyed_migrationKey _ _).trans (keyed_useTimes (migrationKey
    (useKey (taken s src) 5 0).2 (migCtx v own (leAt head 10 1) (slice head 16 16))) migSlot 7 (ceilDiv len 4096)))).kept
  have hp : d.parts = s.parts := l2
  have hh : d.hub = (taken s src).hub := l4
  change _ = restoreOpened d src p k (slice head 16 16) opened at hm
  clear_value d opened
  refine ⟨fun ho => he _ (hm.trans ?_), fun body ho hs => ⟨fun st hg => he _ (hm.trans ?_), fun hg hn => ?_⟩⟩
  · rcases opened with _ | body
    · rfl
    · exact if_pos (by rw [hp]; exact ho.resolve_left (fun hn => nomatch hn))
  · rw [ho, restoreOpened]
    rw [if_neg (by rw [hp, hs]; decide), hg]
  · have hi : restoreOpened d src p k (slice head 16 16) opened = restoreAnswers d src p k (slice head 16 16) stOk body := by
      rw [ho, restoreOpened]
      rw [if_neg (by rw [hp, hs]; decide), hg]
      exact if_neg (by rw [hp]; omega)
    obtain ⟨r1, r2, r3, r4, r5⟩ := restoreAnswers_installs d src p k (slice head 16 16) body stOk (by
      have := createCheck_grant _ _ _ hg
      exact this)
    refine ⟨_, he _ (hm.trans hi), r1, r2, r3, fun c y hc => (r4 c y hc).imp_left (fun h => ?_), ?_⟩
    · rw [ctxAt, hp] at h
      exact h
    · rw [r5, mb_of_hub hh]
      rfl

/-- Settles O33: what a body brings is IDLE or frozen, record by record; a segment opens under the key that sealed it. -/
theorem freezeAndMigration : Obligations.FreezeAndMigration := by
  unfold Obligations.FreezeAndMigration
  refine ⟨fun s src p k hp => ⟨fun h hf => migLogStart_rows s src p k h hf, fun h => dirtyPageLog_rows s p hp h,
    fun h id e x pick hi hu hn ho hg => logEntry_answered s p id pick e x h hi hu hn ho hg, fun h hf => migFreeze_rows s src p k h hf,
    fun hf => ⟨endFreeze_runs hf, endFreeze_ends hf⟩, fun h hb => ?_, fun h hb hk hr => ?_⟩,
    fun s src k => ⟨migSave_rows s src k, migRestore_rows s src k⟩,
    fun s t head body segs h => openSegs_sealSegs head _ s t 0 body segs (length_le_ceilDiv body) h⟩
  · exact migFreezeTimeout_runs hp h (freezeTimeout_none (quiet s) p hb)
  · exact migFreezeTimeout_runs hp h (freezeTimeout_thaws (quiet s) src p k hb hk hr)

end Sys2Proof.Machine
end

section
/-! SUPPORT. Debug authorization and the debug port (13 R433 to R443; 04 R127). -/

namespace Sys2Proof.Machine

/- Proofs are elaborated in their order, for the reason given in the first section of this kind. -/
set_option deprecated.oldSectionVars true

/-! The test root, and what its latching leaves of the debug unit. -/

theorem keyed_deriveFrom (s : State) (k : Bytes) (l : String) (c : Bytes) : Keyed s (deriveFrom s k l c).2 := by
  obtain ⟨ks, h⟩ := absorb_counts (countEv s 0x0A1 none 1) k (kmacX l c).length
  exact Keyed.trans ⟨s.keys, countEv_counts s 0x0A1 none 1⟩ ⟨_, h⟩

theorem keyed_fillSlot (s : State) (n : Nat) (k : BitVec 256) (ty : Nat) (us : BitVec 16) (p l kid : Nat) :
    Keyed s (fillSlot s n k ty us p l kid) := keyed_setSlot _ _ _

theorem keyed_rebuildLattice (s : State) : Keyed s (rebuildLattice s) :=
  ((((((keyed_deriveFrom s _ _ _).trans (keyed_setSlot _ _ _)).trans (keyed_derive _ _ _ _)).trans (keyed_fillSlot _ _ _ _ _ _ _ _)).trans
    (keyed_derive _ _ _ _)).trans (keyed_fillSlot _ _ _ _ _ _ _ _))

/-- `t` has the test root and the debug space of `s`, and its grants or none. -/
def Barely (s t : State) : Prop :=
  t.aon.testRoot = s.aon.testRoot ∧ t.dbg.dp = s.dbg.dp ∧ (t.dbg.grants = s.dbg.grants ∨ t.dbg.grants = [])

theorem Barely.of_same {s t : State} (ha : t.aon.testRoot = s.aon.testRoot) (hd : t.dbg = s.dbg) : Barely s t :=
  ⟨ha, congrArg Debug.dp hd, .inl (congrArg Debug.grants hd)⟩

theorem Barely.trans {s t u : State} (h : Barely s t) (g : Barely t u) : Barely s u := by
  obtain ⟨h1, h2, h3⟩ := h
  obtain ⟨g1, g2, g3⟩ := g
  exact ⟨g1.trans h1, g2.trans h2, g3.elim (fun e => h3.imp e.trans e.trans) .inr⟩

theorem Keyed.barely {s t : State} (h : Keyed s t) : Barely s t := by
  obtain ⟨ks, c, n, w, f, rfl⟩ := h
  exact ⟨rfl, rfl, .inl rfl⟩

theorem barely_invalidateSlot (s : State) (n : Nat) : Barely s (invalidateSlot s n) ∧ (invalidateSlot s n).mem = s.mem := by
  unfold invalidateSlot
  dsimp only
  split
  · exact ⟨.of_same rfl rfl, rfl⟩
  · exact ⟨.of_same rfl rfl, rfl⟩

theorem barely_stripped (s : State) : Barely s (stripped s) := by
  refine ⟨rfl, rfl, ?_⟩
  show (if s.dom.member then [] else s.dbg.grants) = s.dbg.grants ∨ _
  split
  · next hm => exact .inr (if_pos hm)
  · exact .inl rfl

theorem barely_endMembership (s : State) (h : MemIdle s) : Barely s (endMembership s) := by
  rw [endMembership_eq]
  split
  · exact .of_same rfl rfl
  · obtain ⟨hub, e⟩ := failDomainCmds_form s
    have h0 : Barely s (failDomainCmds s) := by rw [e]; exact .of_same rfl rfl
    have m0 : (failDomainCmds s).mem = s.mem := by rw [e]
    obtain ⟨h3, m3⟩ := barely_invalidateSlot (failDomainCmds s) 3
    obtain ⟨h4, m4⟩ := barely_invalidateSlot (invalidateSlot (failDomainCmds s) 3) 4
    obtain ⟨h5, m5⟩ := barely_invalidateSlot (invalidateSlot (invalidateSlot (failDomainCmds s) 3) 4) 5
    obtain ⟨h6, m6⟩ := barely_invalidateSlot (invalidateSlot (invalidateSlot (invalidateSlot (failDomainCmds s) 3) 4) 5) 6
    rw [pumpMem_stripped _ (h.of_mem (m6.trans (m5.trans (m4.trans (m3.trans m0)))))]
    exact ((((h0.trans h3).trans h4).trans h5).trans h6).trans (barely_stripped _)

/-- The test root is latched; the debug space stays, and the grants, or none. -/
theorem latchTestRoot_latches (s : State) : Barely { s with aon := { s.aon with testRoot := true } } (latchTestRoot s) := by
  rw [latchTestRoot_eq]
  split
  · next ht => exact .of_same ht rfl
  · split
    · dsimp only
      have h1 : Barely { s with aon := { s.aon with testRoot := true } } (clearMem (clearStreams (clearChords (clearKeys (stopLanes
          { s with aon := { s.aon with testRoot := true, ready := false, dataStopped := true } }))))) := .of_same rfl rfl
      have h2 := h1.trans (barely_endMembership _ ⟨rfl, rfl, rfl, rfl⟩)
      have h3 := h2.trans (show Barely _ (dropPartitions _) from .of_same rfl rfl)
      split
      · exact h3.trans (keyed_rebuildLattice _).barely
      · exact h3
    · exact .of_same rfl rfl

/-! Levels. -/

theorem levelsOf_grant (s : State) (src : Nat) : levelsOf s src = (dbgGrantOf s src).made.foldl (fun a m => a ||| m.2.1) 0 := by
  unfold levelsOf dbgGrantOf tgetD
  rcases tget s.dbg.grants src with _ | g <;> rfl

theorem getLsbD_foldl_or {α : Type} (f : α → BitVec 5) (i : Nat) (l : List α) (a : BitVec 5) :
    (l.foldl (fun a m => a ||| f m) a).getLsbD i = (a.getLsbD i || l.any (fun m => (f m).getLsbD i)) := by
  induction l generalizing a with
  | nil => simp
  | cons x l ih => rw [List.foldl_cons, ih, BitVec.getLsbD_or, List.any_cons, Bool.or_assoc]

/-- A source holds a level when a session of its own grants it. -/
theorem holdsLevel_iff (s : State) (src i : Nat) : holdsLevel s src i = (dbgGrantOf s src).made.any (fun m => m.2.1.getLsbD i) := by
  rw [holdsLevel, levelsOf_grant, getLsbD_foldl_or (fun m : Nat × (BitVec 5 × Nat) => m.2.1)]
  simp

theorem dbgGrantOf_setGrant_same (s : State) (src : Nat) (g : Grant) : dbgGrantOf (setGrant s src g) src = g := tgetD_tset_same _ _ _ _

theorem dbgGrantOf_setGrant_other (s : State) (src i : Nat) (g : Grant) (h : i ≠ src) :
    dbgGrantOf (setGrant s src g) i = dbgGrantOf s i := tgetD_tset_other _ _ _ _ _ h

theorem dbgGrantOf_congr {s t : State} (h : t.dbg.grants = s.dbg.grants) (src : Nat) : dbgGrantOf t src = dbgGrantOf s src := by
  rw [dbgGrantOf, dbgGrantOf, h]

/-- An entry written is in its table. -/
theorem any_tset {α : Type} (f : Nat × α → Bool) (t : Tbl α) (i : Nat) (v : α) (h : f (i, v) = true) : (tset t i v).any f = true := by
  induction t with
  | nil => simpa [tset] using h
  | cons x t ih =>
    obtain ⟨k, w⟩ := x
    unfold tset
    split
    · simp [h]
    · split
      · simp [h]
      · simp [ih]

/-- An entry written over one that met a test meets it, or every other does as before. -/
theorem any_tset_mono {α : Type} (f : Nat × α → Bool) (t : Tbl α) (i : Nat) (v : α)
    (h : ∀ w, tget t i = some w → f (i, w) = true → f (i, v) = true) (ht : t.any f = true) : (tset t i v).any f = true := by
  induction t with
  | nil => nomatch ht
  | cons x t ih =>
    obtain ⟨k, w⟩ := x
    unfold tset
    rw [List.any_cons, Bool.or_eq_true] at ht
    split
    · rw [List.any_cons, List.any_cons, Bool.or_eq_true, Bool.or_eq_true]
      exact .inr ht
    · split
      · next hk =>
        subst hk
        rw [List.any_cons, Bool.or_eq_true]
        exact ht.imp_left (h w (by simp [tget]))
      · next hk =>
        rw [List.any_cons, Bool.or_eq_true]
        exact ht.imp_right (ih (fun u hu => h u (by rw [tget, if_neg hk]; exact hu)))

/-! BCP_DEBUG_AUTH. -/

theorem authChallenge_refuses (s : State) (src : Nat) (k : Packet) (l : BitVec 5) (h : levelsOk s src l = false ∨ authSession s src = none) :
    authChallenge s src k l = reply s src .debugAuth k.tag stNotPermitted [] := by
  refine if_pos ?_
  rcases h with h | h <;> rw [h]
  · rfl
  · simp

theorem authChallenge_noNonce (s : State) (src : Nat) (k : Packet) (l : BitVec 5) (h : levelsOk s src l = true)
    (ha : (authSession s src).isSome = true) (hr : s.hub.drbgRefuse = true) :
    authChallenge s src k l = reply s src .debugAuth k.tag stInternal [] := by
  refine (if_neg ?_).trans (if_pos hr)
  obtain ⟨x, hx⟩ := Option.isSome_iff_exists.mp ha
  rw [h, hx]
  exact Bool.false_ne_true

/-- A challenge that is granted keeps its nonce. -/
theorem authChallenge_grants (s : State) (src : Nat) (k : Packet) (l : BitVec 5) (h : levelsOk s src l = true)
    (ha : (authSession s src).isSome = true) (hr : s.hub.drbgRefuse = false) : let u := authChallenge s src k l
    ∃ b, b.length = 32 ∧ (dbgGrantOf u src).nonce = some (b, s.aon.ts) ∧ (dbgGrantOf u src).made = (dbgGrantOf s src).made ∧
      (mb u src).replies = (mb s src).replies ++ [replyWords (opVal .debugAuth) stOk k.tag (bytesWords b)] := by
  obtain ⟨x, hx⟩ := Option.isSome_iff_exists.mp ha
  have he : authChallenge s src k l = reply (setGrant (draw s 32).2 src { dbgGrantOf (draw s 32).2 src with
      nonce := some ((draw s 32).1, (draw s 32).2.aon.ts) }) src .debugAuth k.tag stOk (bytesWords (draw s 32).1) :=
    (if_neg (by rw [h, hx]; exact Bool.false_ne_true)).trans (if_neg (by rw [hr]; decide))
  have hg : dbgGrantOf (authChallenge s src k l) src = { dbgGrantOf s src with nonce := some ((draw s 32).1, s.aon.ts) } := by
    rw [he]
    exact dbgGrantOf_setGrant_same _ _ _
  refine ⟨(draw s 32).1, by simp [draw], by rw [hg], by rw [hg], ?_⟩
  rw [he, mb_reply]
  rfl

/-- A respond that fails spends the nonce, and sets AUTH_FAIL. -/
theorem authRespond_fails (s : State) (src : Nat) (k : Packet) (l : BitVec 5) (sigs : Bool)
    (h : levelsOk s src l = false ∨ nonceFits s src (wordBytes (slice k.params 2 8)) = false ∨ sigs = false ∨ authSession s src = none) :
    let u := authRespond s src k l sigs
    (dbgGrantOf u src).nonce = none ∧ (dbgGrantOf u src).made = (dbgGrantOf s src).made ∧ wbit (reg u 0x70004) 3 = true ∧ u.aon = s.aon ∧
      (mb u src).replies = (mb s src).replies ++ [replyWords (opVal .debugAuth) stNotPermitted k.tag []] := by
  have he : authRespond s src k l sigs = reply (setBits (setGrant s src { dbgGrantOf s src with nonce := none }) 0x70004 8#32) src .debugAuth
      k.tag stNotPermitted [] := by
    unfold authRespond
    dsimp only
    split
    · rename_i hok hsid
      simp only [Bool.and_eq_true] at hok
      obtain ⟨⟨o1, o2⟩, o3⟩ := hok
      simp [o1, o2, o3, hsid] at h
    · rfl
  have hg : dbgGrantOf (authRespond s src k l sigs) src = { dbgGrantOf s src with nonce := none } := by
    rw [he]
    exact dbgGrantOf_setGrant_same _ _ _
  have hr : reg (authRespond s src k l sigs) 0x70004 = reg s 0x70004 ||| 8#32 := by
    rw [he]
    exact reg_setReg_same _ _ _
  refine ⟨by rw [hg], by rw [hg], by rw [hr, wbit, BitVec.getLsbD_or]; simp, by rw [he]; rfl, ?_⟩
  rw [he, mb_reply]
  rfl

/-- The state in which a respond that passes adds its levels. -/
def respondRoot (s : State) (src : Nat) (l : BitVec 5) : State :=
  let s := setGrant s src { dbgGrantOf s src with nonce := none }
  if l.getLsbD 3 || l.getLsbD 4 then latchTestRoot s else s

theorem respondRoot_nonce (s : State) (src : Nat) (l : BitVec 5) : (dbgGrantOf (respondRoot s src l) src).nonce = none := by
  have h0 : (dbgGrantOf (setGrant s src { dbgGrantOf s src with nonce := none }) src).nonce = none := by rw [dbgGrantOf_setGrant_same]
  unfold respondRoot
  dsimp only
  split
  · obtain ⟨-, -, h⟩ := latchTestRoot_latches (setGrant s src { dbgGrantOf s src with nonce := none })
    rcases h with h | h
    · exact (congrArg Grant.nonce (dbgGrantOf_congr h src)).trans h0
    · rw [dbgGrantOf, h]
      rfl
  · exact h0

/-- A respond that passes: the nonce is spent, and the levels are the session's. -/
theorem authRespond_adds (s : State) (src sid : Nat) (k : Packet) (l : BitVec 5) (sigs : Bool) (hl : levelsOk s src l = true)
    (hn : nonceFits s src (wordBytes (slice k.params 2 8)) = true) (hs : sigs = true) (ha : authSession s src = some sid) :
    let u := authRespond s src k l sigs; let t := respondRoot s src l
    (dbgGrantOf u src).nonce = none ∧ u.aon = t.aon ∧ u.keys = t.keys ∧
      (dbgGrantOf u src).made = tset (dbgGrantOf t src).made sid (((tget (dbgGrantOf t src).made sid).map (·.1)).getD 0 ||| l, t.dbg.serial + 1) := by
  have hn0 := respondRoot_nonce s src l
  have he : ∃ w, authRespond s src k l sigs = reply (setGrant { respondRoot s src l with dbg := { (respondRoot s src l).dbg with
      serial := (respondRoot s src l).dbg.serial + 1 } } src { dbgGrantOf (respondRoot s src l) src with
        made := tset (dbgGrantOf (respondRoot s src l) src).made sid (((tget (dbgGrantOf (respondRoot s src l) src).made sid).map (·.1)).getD 0 ||| l,
          (respondRoot s src l).dbg.serial + 1) }) src .debugAuth k.tag stOk w := by
    unfold authRespond
    simp only [hl, hn, hs, ha, Bool.and_self]
    exact ⟨_, rfl⟩
  obtain ⟨w, he⟩ := he
  dsimp only
  rw [he]
  generalize respondRoot s src l = t at hn0 ⊢
  refine ⟨?_, rfl, rfl, ?_⟩
  · exact (congrArg Grant.nonce (dbgGrantOf_setGrant_same _ _ _)).trans hn0
  · exact congrArg Grant.made (dbgGrantOf_setGrant_same _ _ _)

theorem respondRoot_latched (s : State) (src : Nat) (l : BitVec 5) (h : l.getLsbD 3 = true ∨ l.getLsbD 4 = true) :
    (respondRoot s src l).aon.testRoot = true := by
  unfold respondRoot
  dsimp only
  rw [if_pos (by rcases h with h | h <;> rw [h] <;> simp)]
  exact (latchTestRoot_latches _).1

theorem respondRoot_shallow (s : State) (src : Nat) (l : BitVec 5) (h3 : l.getLsbD 3 = false) (h4 : l.getLsbD 4 = false) :
    respondRoot s src l = setGrant s src { dbgGrantOf s src with nonce := none } := by
  unfold respondRoot
  dsimp only
  rw [if_neg (by rw [h3, h4]; decide)]

/-- A revoke takes its levels away, and no others. -/
theorem authRevoke_takes (s : State) (src : Nat) (k : Packet) (l : BitVec 5) : let u := authRevoke s src k l
    (∀ i, l.getLsbD i = true → holdsLevel u src i = false) ∧
      (∀ i, l.getLsbD i = false → holdsLevel u src i = holdsLevel s src i) ∧ (∀ i j, i ≠ src → holdsLevel u i j = holdsLevel s i j) := by
  have hg : dbgGrantOf (authRevoke s src k l) src = { dbgGrantOf s src with
      made := tmapV (dbgGrantOf s src).made (fun _ m => (m.1 &&& ~~~l, m.2)) } := dbgGrantOf_setGrant_same _ _ _
  have hb : ∀ i, holdsLevel (authRevoke s src k l) src i = (dbgGrantOf s src).made.any (fun m => m.2.1.getLsbD i && (decide (i < 5) && !l.getLsbD i)) := by
    intro i
    rw [holdsLevel_iff, hg, tmapV, List.any_map]
    congr 1
    funext m
    simp
  refine ⟨fun i hi => ?_, fun i hi => ?_, fun i j h => ?_⟩
  · rw [hb]
    simp [hi]
  · rw [hb, holdsLevel_iff]
    congr 1
    funext m
    rw [hi]
    by_cases h5 : i < 5
    · simp [h5]
    · rw [BitVec.getLsbD_of_ge m.2.1 i (by omega), Bool.false_and]
  · rw [holdsLevel_iff, holdsLevel_iff]
    exact congrArg (fun g : Grant => g.made.any _) (dbgGrantOf_setGrant_other _ _ _ _ h)

theorem levelsOk_deep (s : State) (src : Nat) (l : BitVec 5) (hm : isM src = false) (h : l.getLsbD 3 = true ∨ l.getLsbD 4 = true) :
    levelsOk s src l = false := by
  unfold levelsOk
  rcases h with h | h <;> simp [h, hm]

theorem levelsOk_dump (s : State) (src : Nat) (l : BitVec 5) (h : l.getLsbD 0 = true) (hm : isMember s = false) : levelsOk s src l = false := by
  unfold levelsOk
  simp [h, hm]

theorem debugAuth_challenge (s : State) (src : Nat) (k : Packet) (sigs : Bool) (h : fld (pw k.params 0) 7 0 = 0) :
    debugAuth s src k sigs = authChallenge s src k (BitVec.ofNat 5 (fld (pw k.params 1) 4 0)) := by
  simp only [debugAuth, h]

theorem debugAuth_respond (s : State) (src : Nat) (k : Packet) (sigs : Bool) (h : fld (pw k.params 0) 7 0 = 1) :
    debugAuth s src k sigs = authRespond s src k (BitVec.ofNat 5 (fld (pw k.params 1) 4 0)) sigs := by
  simp only [debugAuth, h]

theorem debugAuth_revoke (s : State) (src : Nat) (k : Packet) (sigs : Bool) (h : 2 ≤ fld (pw k.params 0) 7 0) :
    debugAuth s src k sigs = authRevoke s src k (BitVec.ofNat 5 (fld (pw k.params 1) 4 0)) := by
  unfold debugAuth
  split
  · omega
  · omega
  · rfl

theorem aon_taken (s : State) (src : Nat) : (taken s src).aon = s.aon := rfl

/-- Settles O34: the levels a source holds are those some session of its own grants; a respond writes its session's entry. -/
theorem debugLevels : Obligations.DebugLevels := by
  unfold Obligations.DebugLevels
  intro s src k sigs h l op
  have he : ∀ u, debugAuth (taken s src) src k sigs = u → exec (.bcpDebugAuth src sigs) s = .next (finish s u) :=
    fun u hu => (runCmd_takes h hu : execBcpDebugAuth src sigs s = _)
  refine ⟨levelsOk_deep s src l, levelsOk_dump s src l, fun ho => ?_, fun ho => ?_, fun ho => ?_⟩
  · have hd := debugAuth_challenge (taken s src) src k sigs ho
    refine ⟨fun hb => he _ (hd.trans (authChallenge_refuses (taken s src) src k l hb)),
      fun hl ha hr => he _ (hd.trans (authChallenge_noNonce (taken s src) src k l hl ha hr)), fun hl ha hr => ?_⟩
    obtain ⟨b, h1, h2, h3, h4⟩ := authChallenge_grants (taken s src) src k l hl ha hr
    have hx : exec (.bcpDebugAuth src sigs) s = .next (finish s (authChallenge (taken s src) src k l)) := he _ hd
    generalize authChallenge (taken s src) src k l = u at hx h2 h3 h4
    exact ⟨u, b, hx, h1, h2, h3, h4⟩
  · have hx : exec (.bcpDebugAuth src sigs) s = .next (finish s (authRespond (taken s src) src k l sigs)) := he _ (debugAuth_respond (taken s src) src k sigs ho)
    refine ⟨fun hb => ?_, fun sid hl hn hs ha => ?_⟩
    · obtain ⟨h1, h2, h3, h4, h5⟩ := authRespond_fails (taken s src) src k l sigs hb
      generalize authRespond (taken s src) src k l sigs = u at hx h1 h2 h3 h4 h5
      exact ⟨u, hx, h1, h2, h3, h4, h5⟩
    · obtain ⟨h1, h2, h3, h4⟩ := authRespond_adds (taken s src) src sid k l sigs hl hn hs ha
      have h5 := respondRoot_latched (taken s src) src l
      have h6 := respondRoot_shallow (taken s src) src l
      generalize authRespond (taken s src) src k l sigs = u at hx h1 h2 h3 h4
      refine ⟨u, hx, h1, fun i hi => ?_, fun hd => (congrArg Aon.testRoot h2).trans (h5 hd), fun e3 e4 => ?_⟩
      · rw [holdsLevel_iff, h4]
        exact any_tset _ _ _ _ (by simp [hi])
      · rw [h6 e3 e4] at h2 h3 h4
        refine ⟨h2, h3, fun i hi => ?_⟩
        rw [dbgGrantOf_setGrant_same] at h4
        rw [holdsLevel_iff] at hi ⊢
        rw [h4]
        refine any_tset_mono _ _ _ _ (fun w hw hf => ?_) hi
        dsimp only at hw ⊢
        rw [hw]
        simpa using .inl hf
  · have hx : exec (.bcpDebugAuth src sigs) s = .next (finish s (authRevoke (taken s src) src k l)) := he _ (debugAuth_revoke (taken s src) src k sigs ho)
    obtain ⟨h1, h2, h3⟩ := authRevoke_takes (taken s src) src k l
    generalize authRevoke (taken s src) src k l = u at hx h1 h2 h3
    exact ⟨u, hx, h1, h2, h3⟩

/-! The debug port. -/

theorem runDp_closed {s : State} {l : Nat} {f : State → State × Word × Bool} (h : s.aon.porN = true) (hd : dpOpen s l = false) :
    runDp l f s = .next (finish s (emit (quiet s) (.dbgRsp 0 true))) :=
  runAon_run h (if_neg (fun hn => nomatch (hd.symm.trans hn : false = true)))

theorem runDp_open {s u : State} {l : Nat} {w : Word} {e : Bool} {f : State → State × Word × Bool} (h : s.aon.porN = true)
    (hd : dpOpen s l = true) (hf : f (quiet s) = (u, w, e)) : runDp l f s = .next (finish s (emit u (.dbgRsp w e))) := by
  refine runAon_run h ((if_pos hd).trans ?_)
  dsimp only
  rw [hf]

theorem dpLatch_latches (s : State) (o : Nat) (w : Word) : let u := dpLatch s o w
    u.aon.testRoot = true ∧ wbit (dpWord u o) 0 = wbit w 0 ∧ (s.aon.testRoot = true → u.keys = s.keys ∧ u.out = s.out) := by
  have h : dpWord (dpLatch s o w) o = w &&& 1#32 := tgetD_tset_same _ _ _ _
  refine ⟨(latchTestRoot_latches s).1, by rw [h]; simp [wbit], fun ht => ?_⟩
  have hl : latchTestRoot s = s := if_pos ht
  show (latchTestRoot s).keys = s.keys ∧ (latchTestRoot s).out = s.out
  rw [hl]
  exact ⟨rfl, rfl⟩

theorem hubHalt_halts (s : State) (n : Nat) (hi : invasiveOn s = true) (hr : s.hub.run = .running) :
    hubHalt s n = { s with hub := { s.hub with run := .draining, bpHit := n, drainLate := false } } :=
  if_pos (by rw [hi, hr]; decide)

theorem hubHalt_not (s : State) (n : Nat) (h : invasiveOn s = false ∨ s.hub.run ≠ .running) : hubHalt s n = s := by
  refine if_neg (fun hn => ?_)
  rw [Bool.and_eq_true, beq_iff_eq] at hn
  rcases h with h | h
  · exact nomatch h.symm.trans hn.1
  · exact h hn.2

theorem dpRam_running (s : State) (wr : Option Word) (h : s.hub.run ≠ .halted) : dpRam s wr = (s, 0, true) := if_pos h

theorem dpRam_writes (s : State) (v : Word) (h : s.hub.run = .halted) : dpRam s (some v) =
    ({ s with hub := { s.hub with ram := tset s.hub.ram (fld (dpWord s 0x20) 19 2) v } }, 0, false) := if_neg (fun hn => hn h)

/-- A read gives what the word holds, and what it holds from then on. -/
theorem dpRam_reads (s : State) (h : s.hub.run = .halted) : ∃ u v, dpRam s none = (u, v, false) ∧ u.out = s.out ∧
    tget u.hub.ram (fld (dpWord s 0x20) 19 2) = some v ∧ ∀ x, tget s.hub.ram (fld (dpWord s 0x20) 19 2) = some x → v = x := by
  unfold dpRam
  rw [if_neg (fun hn => hn h)]
  dsimp only
  split
  · next w hw => exact ⟨_, _, rfl, rfl, hw, fun x hx => Option.some.inj (hw.symm.trans hx)⟩
  · next hw => exact ⟨_, _, rfl, rfl, tget_tset_same _ _ _, fun x hx => nomatch hw.symm.trans hx⟩

/-- Settles O36: a level that is open runs its access; DP_INVASIVE and DP_SCAN_AUTH latch the test root first. -/
theorem debugPort : Obligations.DebugPort := by
  unfold Obligations.DebugPort
  intro s w wr n late h
  refine ⟨fun hd c hc => ?_, fun hd => (runDp_closed h hd : execDpScanAuthWrite w s = _), fun hd => ⟨?_, fun hi hr => ?_, fun hb => ?_,
    fun hr => ?_, fun hr => ?_, fun hr => ?_, fun hr v hv => ?_, fun hr hv => ?_⟩, fun hd => ?_, fun he => ⟨fun hb => ?_, fun hb hi hr => ?_,
    fun hr => ?_, fun hr => ?_⟩⟩
  · simp only [List.mem_cons, List.not_mem_nil, or_false] at hc
    rcases hc with rfl | rfl | rfl | rfl
    · exact (runDp_closed h hd : execDpInvasiveWrite w s = _)
    · exact (runDp_closed h hd : execDpHubHalt s = _)
    · exact (runDp_closed h hd : execDpHubResume s = _)
    · exact (runDp_closed h hd : execDpRamDataAccess wr s = _)
  · obtain ⟨h1, h2, h3⟩ := dpLatch_latches (quiet s) 4 w
    have hx := (runDp_open h hd rfl : execDpInvasiveWrite w s = _)
    generalize dpLatch (quiet s) 4 w = u at hx h1 h2 h3
    refine ⟨_, hx, h1, h2, fun ht => ⟨(h3 ht).1, ?_⟩⟩
    rw [emit_out, (h3 ht).2]
    rfl
  · have hx := (runDp_open h hd (congrArg (·, 0, false) (hubHalt_halts (quiet s) 15 hi hr)) : execDpHubHalt s = _)
    exact ⟨_, hx, rfl, rfl, rfl⟩
  · exact (runDp_open h hd (congrArg (·, 0, false) (hubHalt_not (quiet s) 15 hb)) : execDpHubHalt s = _)
  · exact (runDp_open h hd (congrArg (·, 0, false) (if_pos hr)) : execDpHubResume s = _)
  · exact (runDp_open h hd (congrArg (·, 0, false) (if_neg hr)) : execDpHubResume s = _)
  · exact (runDp_open h hd (dpRam_running (quiet s) wr hr) : execDpRamDataAccess wr s = _)
  · subst hv
    exact ⟨_, (runDp_open h hd (dpRam_writes (quiet s) v hr) : execDpRamDataAccess (some v) s = _), tget_tset_same _ _ _, rfl⟩
  · subst hv
    obtain ⟨u, v, h1, h2, h3, h4⟩ := dpRam_reads (quiet s) hr
    refine ⟨_, v, (runDp_open h hd h1 : execDpRamDataAccess none s = _), ?_, h3, h4⟩
    rw [emit_out, h2]
    rfl
  · obtain ⟨h1, h2, -⟩ := dpLatch_latches (quiet s) 8 w
    have hx := (runDp_open h hd rfl : execDpScanAuthWrite w s = _)
    exact ⟨_, hx, h1, h2⟩
  · exact (runEng_when_not he hb : execHubBreakpoint n s = _)
  · exact (runEng_run he ((when_pos hb).trans (hubHalt_halts (quiet s) n hi hr)) : execHubBreakpoint n s = _)
  · exact (runEng_run he (when_pos (show (s.hub.run == .draining) = true by rw [hr]; rfl)) : execHubDrainDone late s = _)
  · exact (runEng_run he (when_neg (show (s.hub.run == .draining) = false by simpa using hr)) : execHubDrainDone late s = _)

end Sys2Proof.Machine
end

section
/-! SUPPORT. SPDM requests answered in a session or outside one; the identity's answers and TDISP (05 R141 to R160). -/

namespace Sys2Proof.Machine

/- Proofs are elaborated in their order, for the reason given in the first section of this kind. -/
set_option deprecated.oldSectionVars true

/-! A session that comes into hub RAM. -/

/-- `t` is `s` but for the records of sessions, the key store, counters and free values; no slot but that of the SESSION key differs. -/
def Loaded (s t : State) : Prop :=
  (∃ r c, Keyed { s with ident := { s.ident with records := r, recCount := c } } t) ∧ ∀ m, m ≠ sessionSlot → slotAt t m = slotAt s m

theorem Loaded.refl (s : State) : Loaded s s := ⟨⟨s.ident.records, s.ident.recCount, Keyed.refl s⟩, fun _ _ => rfl⟩

theorem Loaded.kept {s t : State} (h : Loaded s t) : t.hub = s.hub ∧ t.parts = s.parts ∧ t.dom = s.dom ∧ t.otp = s.otp ∧ t.mem = s.mem ∧
    t.out = s.out ∧ t.links = s.links ∧ t.size = s.size ∧ t.dbg.grants = s.dbg.grants := by
  obtain ⟨⟨r, c, ks, cn, n, w, f, rfl⟩, -⟩ := h
  exact ⟨rfl, rfl, rfl, rfl, rfl, rfl, rfl, rfl, rfl⟩

/-- The identity of a block that has loaded a session, but for its records. -/
theorem Loaded.ident {s t : State} (h : Loaded s t) : ∃ r c, t.ident = { s.ident with records := r, recCount := c } := by
  obtain ⟨⟨r, c, ks, cn, n, w, f, rfl⟩, -⟩ := h
  exact ⟨r, c, rfl⟩

theorem keyed_sessionKey (s : State) (p k : Nat) : Keyed s (sessionKey s p k) :=
  (keyed_derive s _ _ _).trans (keyed_fillSlot _ _ _ _ _ _ _ _)

theorem slotAt_setSlot_other (s : State) (n m : Nat) (k : Slot) (h : m ≠ n) : slotAt (setSlot s n k) m = slotAt s m :=
  tgetD_tset_other _ _ _ _ _ h

theorem slotAt_sessionKey (s : State) (p k m : Nat) (h : m ≠ sessionSlot) : slotAt (sessionKey s p k) m = slotAt s m :=
  (slotAt_setSlot_other _ _ _ _ h).trans (slotAt_congr (derive_slots _ _ _ _) m)

theorem slotAt_useKey_other (s : State) (n b m : Nat) (h : m ≠ n) : slotAt (useKey s n b).2 m = slotAt s m := by
  rcases useKey_spends s n b with e | e <;> rw [e]
  exact slotAt_setSlot_other _ _ _ _ h

theorem sealOwn_frame (s : State) (p k : Nat) (nonce b : Bytes) :
    Keyed s (sealOwn s p k nonce b).2 ∧ ∀ m, m ≠ sessionSlot → slotAt (sealOwn s p k nonce b).2 m = slotAt s m := by
  unfold sealOwn
  split
  · exact ⟨Keyed.refl s, fun _ _ => rfl⟩
  · rw [sealUnder_state]
    exact ⟨(keyed_sessionKey s p k).trans (keyed_useKey _ _ _),
      fun m h => (slotAt_useKey_other _ _ _ m h).trans (slotAt_sessionKey s p k m h)⟩

theorem loaded_spillSession (s : State) (n : Nat) : Loaded s (spillSession s n) := by
  unfold spillSession
  split
  · exact Loaded.refl s
  · next x hx =>
    obtain ⟨⟨ks, c, n', w, f, e⟩, hs⟩ := sealOwn_frame s (recordOf x.conn).1 (recordOf x.conn).2
      (leBytes 4 n ++ leBytes 8 (tgetD s.ident.recCount n 0 + 1)) (sessionBytes x)
    dsimp only
    generalize sealOwn s _ _ _ _ = r at e hs ⊢
    obtain ⟨o, t⟩ := r
    dsimp only at e hs ⊢
    subst e
    exact ⟨⟨tset s.ident.records n (o.getD []), tset s.ident.recCount n (tgetD s.ident.recCount n 0 + 1), ks, c, n', w, f, rfl⟩, hs⟩

theorem loaded_loadSession (s : State) (n : Nat) : Loaded s (loadSession s n) := by
  have h0 : Loaded s { s with ident := { s.ident with records := tdel s.ident.records n } } :=
    ⟨⟨_, s.ident.recCount, Keyed.refl _⟩, fun _ _ => rfl⟩
  unfold loadSession
  dsimp only
  split
  · obtain ⟨⟨r, c, ks, cn, m, w, f, e⟩, hs⟩ := loaded_spillSession { s with ident := { s.ident with records := tdel s.ident.records n } } _
    rw [e] at hs ⊢
    exact ⟨⟨r, c, ks, cn, m, w, f, rfl⟩, hs⟩
  · exact h0

theorem loaded_joined (s : State) (src : Nat) (sid : Option Nat) : Loaded (taken s src) (joined s src sid) := by
  rcases sid with _ | n
  · exact Loaded.refl _
  · exact loaded_loadSession _ _

theorem sessionOf_joined (s : State) (src : Nat) (sid : Option Nat) (c : Conn) (n : Nat) :
    sessionOf (joined s src sid) c n = sessionOf s c n := by
  obtain ⟨r, k, h⟩ := (loaded_joined s src sid).ident
  exact sessionOf_congr (by rw [h]; rfl) c n

/-! A request that is answered. -/

/-- A message of a session leaves it used. -/
def inUse (t : State) (src : Nat) (sid : Option Nat) : State :=
  match sid with
  | some n => markUsed t (.mbox src) n
  | none => t

theorem said_eq (s : State) (src : Nat) (sid : Option Nat) (t : State) (r : SpdmRsp) :
    said s src sid t r = finish s (spdmSay (inUse t src sid) (.mbox src) r) := by
  rcases sid with _ | n <;> rfl

/-- What a request leaves: with its response, or waiting for it. -/
def answered (t : State) (src : Nat) (sid : Option Nat) (r : Option SpdmRsp) : State :=
  match r with
  | some x => spdmSay (inUse t src sid) (.mbox src) x
  | none => inUse t src sid

theorem asks_session {s : State} {src n : Nat} (h : asks s src (some n) = true) :
    engUp s = true ∧ heard s src true = true ∧ channelUp s = true ∧ finished s (.mbox src) n = true := by
  unfold asks at h
  simp only [Bool.and_eq_true] at h
  obtain ⟨hh, hc, hf⟩ := h
  exact ⟨(spdmTake_heard hh).1, hh, hc, hf⟩

theorem sessionOf_of_finished {s : State} {c : Conn} {n : Nat} (h : finished s c n = true) : ∃ x, sessionOf s c n = some x ∧ x.finish = true := by
  unfold finished at h
  rcases hx : sessionOf s c n with _ | x
  · rw [hx] at h
    nomatch h
  · rw [hx] at h
    exact ⟨x, rfl, h⟩

theorem spdmRun_session {s t u : State} {src n : Nat} {f : State → State × Option SpdmRsp} {r : Option SpdmRsp}
    (ht : spdmTake s (.mbox src) true = some t) (hc : channelUp t = true) (hf : finished t (.mbox src) n = true)
    (hu : f (loadSession t n) = (u, r)) : spdmRun (.mbox src) (some n) f s = answered u src (some n) r := by
  obtain ⟨x, hx, -⟩ := sessionOf_of_finished hf
  rw [spdmRun, show spdmTake s (.mbox src) (some n).isSome = some t from ht]
  dsimp only
  rw [if_neg (by rw [hc]; decide), if_neg (by rw [hx]; exact Bool.false_ne_true), hu, if_pos hf]
  rcases r with _ | y <;> rfl

theorem spdmRun_outside {s t u : State} {src : Nat} {f : State → State × Option SpdmRsp} {r : Option SpdmRsp}
    (ht : spdmTake s (.mbox src) false = some t) (hu : f t = (u, r)) : spdmRun (.mbox src) none f s = answered u src none r := by
  rw [spdmRun, show spdmTake s (.mbox src) (none : Option Nat).isSome = some t from ht]
  dsimp only
  rw [hu]
  rcases r with _ | y <;> rfl

/-- A request with no need of a session, answered in one or outside. -/
theorem anywhere_answers {s u : State} {src : Nat} {sid : Option Nat} {f : State → State × Option SpdmRsp} {r : Option SpdmRsp}
    (h : asks s src sid = true) (hu : f (joined s src sid) = (u, r)) : anywhere (.mbox src) sid f (quiet s) = answered u src sid r := by
  rcases sid with _ | n
  · unfold asks at h
    rw [Bool.and_true] at h
    exact spdmRun_outside (spdmTake_heard h).2.1 hu
  · obtain ⟨-, hh, hc, hf⟩ := asks_session h
    refine spdmRun_session (spdmTake_heard hh).2.1 hc hf ?_
    dsimp only
    rw [if_pos (by rw [finished, sessionOf_loadSession]; exact hf)]
    exact hu

theorem engUp_of_asks {s : State} {src : Nat} {sid : Option Nat} (h : asks s src sid = true) : engUp s = true := by
  rcases sid with _ | n
  · unfold asks at h
    rw [Bool.and_true] at h
    exact (spdmTake_heard h).1
  · exact (asks_session h).1

/-- A request of a session past FINISH. -/
theorem inSession_answers {s u : State} {src n : Nat} {x : Session} {f : State → Session → State × Option SpdmRsp} {r : Option SpdmRsp}
    (h : asks s src (some n) = true) (hx : sessionOf s (.mbox src) n = some x) (hu : f (joined s src (some n)) x = (u, r)) :
    inSession (.mbox src) n f (quiet s) = answered u src (some n) r := by
  obtain ⟨-, hh, hc, hf⟩ := asks_session h
  refine spdmRun_session (spdmTake_heard hh).2.1 hc hf ?_
  have hj : sessionOf (loadSession (taken s src) n) (.mbox src) n = some x := (sessionOf_loadSession _ _ _ _).trans hx
  rw [finished, hx] at hf
  rw [hj]
  exact (if_pos hf).trans hu

/-- A request that runs wherever it comes, and its answer. -/
theorem anywhere_says {s u : State} {src : Nat} {sid : Option Nat} {f : State → State × Option SpdmRsp} {r : SpdmRsp}
    (h : asks s src sid = true) (hu : f (joined s src sid) = (u, some r)) : runEng (anywhere (.mbox src) sid f) s = .next (said s src sid u r) := by
  rw [said_eq]
  exact runEng_run (engUp_of_asks h) (anywhere_answers h hu)

theorem inSession_says {s u : State} {src n : Nat} {x : Session} {f : State → Session → State × Option SpdmRsp} {r : SpdmRsp}
    (h : asks s src (some n) = true) (hx : sessionOf s (.mbox src) n = some x) (hu : f (joined s src (some n)) x = (u, some r)) :
    runEng (inSession (.mbox src) n f) s = .next (said s src (some n) u r) := by
  rw [said_eq]
  exact runEng_run (engUp_of_asks h) (inSession_answers h hx hu)

/-! What an answer leaves of the identity. -/

/-- Marking a session used changes its own entry alone. -/
theorem inUse_form (t : State) (src : Nat) (sid : Option Nat) :
    ∃ l, inUse t src sid = { t with ident := { t.ident with sessions := l } } := by
  unfold inUse
  split
  · unfold markUsed
    split
    · split
      · exact ⟨_, rfl⟩
      · exact ⟨t.ident.sessions, rfl⟩
    · exact ⟨t.ident.sessions, rfl⟩
  · exact ⟨t.ident.sessions, rfl⟩

/-- A response is presented, and its reply posted at the mailbox. -/
theorem spdmSay_form (s : State) (src : Nat) (r : SpdmRsp) : ∃ h f, spdmSay s (.mbox src) r =
    { s with out := s.out ++ [.spdm (.mbox src) r], hub := h, fresh := f } := by
  unfold spdmSay
  dsimp only
  split
  · next k hk =>
    unfold spdmReply
    obtain ⟨h, e, -⟩ := replyFrags_form (freeBytes (freeN (emit s (.spdm (.mbox src) r))).2
      ((freeN (emit s (.spdm (.mbox src) r))).1 % 65537)).2 src .spdm k.tag ((((List.range (max 1 (ceilDiv
        (freeBytes (freeN (emit s (.spdm (.mbox src) r))).2 ((freeN (emit s (.spdm (.mbox src) r))).1 % 65537)).1.length 16376))).map
        (fun i => slice (freeBytes (freeN (emit s (.spdm (.mbox src) r))).2 ((freeN (emit s (.spdm (.mbox src) r))).1 % 65537)).1 (16376 * i)
          16376))).map (fun x => [pw k.params 0, toW x.length] ++ bytesWords x))
    exact ⟨_, _, e⟩
  · exact ⟨_, _, rfl⟩

/-- What an answered request leaves besides its session: the presented response. -/
theorem answered_form (t : State) (src : Nat) (sid : Option Nat) (r : SpdmRsp) : ∃ l h f, answered t src sid (some r) =
    { t with out := t.out ++ [.spdm (.mbox src) r], hub := h, fresh := f, ident := { t.ident with sessions := l } } := by
  obtain ⟨l, e⟩ := inUse_form t src sid
  obtain ⟨h, f, e'⟩ := spdmSay_form (inUse t src sid) src r
  rw [e] at e'
  exact ⟨l, h, f, by rw [answered, e]; exact e'⟩

/-! TDISP. -/

/-- A TDISP request of a partition that exists, by its Requester ID. -/
theorem tdispRun_says {s u : State} {t : Tdi} {sid : Option Nat} {f : State → PartRec → State × SpdmRsp} {r : SpdmRsp} (ht : t.part < 16)
    (h : asks s (t.part + 1) sid = true) (hl : (partAt s t.part).live = true) (hr : t.rid = ridOf s t.part)
    (hu : f (joined s (t.part + 1) sid) (partAt s t.part) = (u, r)) :
    runEng (tdispRun t sid f) s = .next (said s (t.part + 1) sid u r) := by
  obtain ⟨-, h2, -, h4, -⟩ := (loaded_joined s (t.part + 1) sid).kept
  have hp : partAt (joined s (t.part + 1) sid) t.part = partAt s t.part := by
    rw [partAt, h2]
    rfl
  have hi : ridOf (joined s (t.part + 1) sid) t.part = ridOf s t.part := by
    rw [ridOf, fuseW, h4]
    rfl
  rw [said_eq]
  refine runEng_run (engUp_of_asks h) ((if_neg (by omega)).trans (anywhere_answers h (r := some r) ?_))
  rw [hp, hi, if_neg (by rw [hl, hr]; simp), hu]

theorem tdispRun_refuses {s : State} {t : Tdi} {sid : Option Nat} {f : State → PartRec → State × SpdmRsp} (ht : t.part < 16)
    (h : asks s (t.part + 1) sid = true) (hn : (partAt s t.part).live = false ∨ t.rid ≠ ridOf s t.part) :
    runEng (tdispRun t sid f) s = .next (said s (t.part + 1) sid (joined s (t.part + 1) sid) .tdispError) := by
  obtain ⟨-, h2, -, h4, -⟩ := (loaded_joined s (t.part + 1) sid).kept
  have hp : partAt (joined s (t.part + 1) sid) t.part = partAt s t.part := by
    rw [partAt, h2]
    rfl
  have hi : ridOf (joined s (t.part + 1) sid) t.part = ridOf s t.part := by
    rw [ridOf, fuseW, h4]
    rfl
  rw [said_eq]
  refine runEng_run (engUp_of_asks h) ((if_neg (by omega)).trans (anywhere_answers h (r := some .tdispError) ?_))
  rw [hp, hi, if_pos (hn.imp_left (fun e => by rw [e]; rfl))]

theorem streamReady_congr {s t : State} (h : t.ident.ide = s.ident.ide) : streamReady t = streamReady s := by
  unfold streamReady
  rw [h]

/-- Settles O40: a TDISP request runs on the partition of its mailbox, which a session brought into hub RAM leaves as it is. -/
theorem tdispStates : Obligations.TdispStates := by
  unfold Obligations.TdispStates
  intro s t sid ht h p r j say
  obtain ⟨h1, h2, -, -, h5, -⟩ := (loaded_joined s (t.part + 1) sid).kept
  obtain ⟨a, b, hi⟩ := (loaded_joined s (t.part + 1) sid).ident
  have hs : streamReady j = streamReady s := streamReady_congr (by rw [hi]; rfl)
  have hb : reportBytes j p r = reportBytes s p r := by
    unfold reportBytes regionAt
    rw [show j.mem = s.mem from h5]
  refine ⟨fun hn c hc => ?_, fun hl hr => ⟨fun st hst h0 => ?_, fun hn => ?_, fun h0 => ?_, fun h0 => ?_, ?_, fun h0 => ?_, fun h0 => ?_⟩⟩
  · simp only [List.mem_cons, List.not_mem_nil, or_false] at hc
    rcases hc with rfl | rfl | rfl | rfl
    · exact (tdispRun_refuses ht h hn : execTdispLockInterface t sid s = _)
    · exact (tdispRun_refuses ht h hn : execTdispStartInterface t sid s = _)
    · exact (tdispRun_refuses ht h hn : execTdispStopInterface t sid s = _)
    · exact (tdispRun_refuses ht h hn : execTdispGetInterfaceReport t sid s = _)
  · refine (tdispRun_says ht h hl hr ?_ : execTdispLockInterface t sid s = _)
    rw [show streamReady (joined s (t.part + 1) sid) = some st from hs.trans hst]
    exact if_pos h0
  · refine (tdispRun_says ht h hl hr ?_ : execTdispLockInterface t sid s = _)
    rw [show streamReady (joined s (t.part + 1) sid) = streamReady s from hs]
    rcases hst : streamReady s with _ | st
    · rfl
    · exact if_neg (hn.resolve_left (by rw [hst]; exact fun e => nomatch e))
  · exact (tdispRun_says ht h hl hr (if_pos h0) : execTdispStartInterface t sid s = _)
  · exact (tdispRun_says ht h hl hr (if_neg h0) : execTdispStartInterface t sid s = _)
  · exact (tdispRun_says ht h hl hr rfl : execTdispStopInterface t sid s = _)
  · exact (tdispRun_says ht h hl hr (congrArg (Prod.mk _) (if_pos h0)) : execTdispGetInterfaceReport t sid s = _)
  · refine (tdispRun_says ht h hl hr ?_ : execTdispGetInterfaceReport t sid s = _)
    exact congrArg (Prod.mk _) ((if_neg h0).trans (congrArg SpdmRsp.content hb))

end Sys2Proof.Machine
end

section
/-! SUPPORT. Chains, certificates and measurements (05 R141 to R154). -/

namespace Sys2Proof.Machine

/- Proofs are elaborated in their order, for the reason given in the first section of this kind. -/
set_option deprecated.oldSectionVars true

/-- The identity of a block that has brought a session into hub RAM. -/
theorem joined_ident (s : State) (src : Nat) (sid : Option Nat) : let j := (joined s src sid).ident
    j.devId = s.ident.devId ∧ j.aliasKey = s.ident.aliasKey ∧ j.aliasSig = s.ident.aliasSig ∧ j.avail = s.ident.avail ∧
      j.x509 = s.ident.x509 ∧ j.hybrid = s.ident.hybrid ∧ j.aliasCert = s.ident.aliasCert ∧ j.sessions = s.ident.sessions ∧
      j.nextSession = s.ident.nextSession ∧ j.ide = s.ident.ide ∧ j.keyQ = s.ident.keyQ ∧ j.acks = s.ident.acks := by
  obtain ⟨r, c, h⟩ := (loaded_joined s src sid).ident
  dsimp only
  rw [h]
  exact ⟨rfl, rfl, rfl, rfl, rfl, rfl, rfl, rfl, rfl, rfl, rfl, rfl⟩

theorem joined_out (s : State) (src : Nat) (sid : Option Nat) : (joined s src sid).out = [] := by
  obtain ⟨-, -, -, -, -, h, -⟩ := (loaded_joined s src sid).kept
  exact h

/-- What else it leaves. -/
theorem joined_kept (s : State) (src : Nat) (sid : Option Nat) : let j := joined s src sid
    j.hub.svn = s.hub.svn ∧ j.parts = s.parts ∧ j.dom = s.dom ∧ j.otp = s.otp ∧ j.mem = s.mem ∧ j.dbg.grants = s.dbg.grants ∧
      j.links = s.links ∧ ∀ m, m ≠ sessionSlot → slotAt j m = slotAt s m := by
  obtain ⟨h1, h2, h3, h4, h5, -, h6, -, h7⟩ := (loaded_joined s src sid).kept
  exact ⟨by rw [h1]; rfl, h2, h3, h4, h5, h7, h6, (loaded_joined s src sid).2⟩

theorem ident_storePush (s : State) (a : Nat) (b : Bytes) (src : Option Nat) : (storePush s a b src).ident = s.ident := by
  have hu : (if (slotAt s 1).state = 1 then useKey s 1 4 else (stOk, s)).2.ident = s.ident := by
    split
    · obtain ⟨-, -, -, -, -, -, h⟩ := (keyed_useKey s 1 4).kept
      exact h
    · rfl
  unfold storePush
  dsimp only
  generalize (if (slotAt s 1).state = 1 then useKey s 1 4 else (stOk, s)) = u at hu ⊢
  split
  · rcases src with _ | x <;> exact hu
  · split <;> exact hu

theorem ident_writeChain (s : State) (src base : Nat) (b : Bytes) : (writeChain s src base b).ident = s.ident := by
  unfold writeChain
  dsimp only
  rw [ident_storePush]
  exact List.foldlRecOn (motive := fun t : State => t.ident = s.ident) _ _ rfl fun t ht i _ => (ident_storePush _ _ _ _).trans ht

/-- A chain that is stored, whether its answer waits for the store or not. -/
theorem setChain_stores (s : State) (src base room : Nat) (b : Bytes) (put : Identity → Identity) (hl : s.otp.lc = .manuf)
    (hb : b.length ≤ room) : ∃ u r, setChain s src base room b put = (u, r) ∧ u.ident = put s.ident := by
  have hw := ident_writeChain { s with ident := put s.ident } src base b
  unfold setChain
  rw [if_neg (fun hn => hn hl), if_neg (by omega)]
  dsimp only
  split
  · exact ⟨_, _, rfl, hw⟩
  · exact ⟨_, _, rfl, hw⟩

theorem setChain_long (s : State) (src base room : Nat) (b : Bytes) (put : Identity → Identity) (hl : s.otp.lc = .manuf)
    (hb : room < b.length) : setChain s src base room b put = (s, some (.error .unspecified)) := by
  unfold setChain
  rw [if_neg (fun hn => hn hl), if_pos hb]

theorem answered_ident (t : State) (src : Nat) (sid : Option Nat) (r : Option SpdmRsp) :
    ∃ l, (answered t src sid r).ident = { t.ident with sessions := l } := by
  rcases r with _ | x
  · obtain ⟨l, h⟩ := inUse_form t src sid
    exact ⟨l, congrArg State.ident h⟩
  · obtain ⟨l, h, f, e⟩ := answered_form t src sid x
    exact ⟨l, congrArg State.ident e⟩

/-- A chain is stored by a request that is answered, or waits. -/
theorem setChain_asked {s : State} {src : Nat} {sid : Option Nat} (h : asks s src sid = true) (base room : Nat) (b : Bytes)
    (put : Identity → Identity) (hl : s.otp.lc = .manuf) (hb : b.length ≤ room) :
    ∃ u l, runEng (anywhere (.mbox src) sid (fun s => setChain s src base room b put)) s = .next (finish s u) ∧
      u.ident = { put (joined s src sid).ident with sessions := l } := by
  obtain ⟨-, -, -, h4, -⟩ := (loaded_joined s src sid).kept
  obtain ⟨u, r, e, hi⟩ := setChain_stores (joined s src sid) src base room b put ((congrArg Otp.lc h4).trans hl) hb
  obtain ⟨l, ha⟩ := answered_ident u src sid r
  exact ⟨_, l, runEng_run (engUp_of_asks h) (anywhere_answers h e), by rw [ha, hi]⟩

theorem length_mldsaPub (b : Bytes) : (mldsaPub b).length = 2592 := by simp [mldsaPub]

theorem length_mldsaSig (a b : Bytes) (n : Nat) : (mldsaSig a b n).length = 4627 := by simp [mldsaSig]

theorem aliasLink_congr {s t : State} (hc : t.ident.aliasCert = s.ident.aliasCert) (hk : t.ident.aliasKey = s.ident.aliasKey)
    (hs : t.ident.aliasSig = s.ident.aliasSig) : aliasLink t = aliasLink s := by
  unfold aliasLink aliasBody aliasSeed
  rw [hc, hk, hs]

/-! Measurements. -/

/-- An index that no block has. -/
theorem measBlock_none (s : State) (i : Nat) (h : 8 < i) : measBlock s i = none := by
  obtain ⟨n, rfl⟩ := Nat.exists_eq_add_of_lt h
  rw [show 8 + n + 1 = n + 9 by omega]
  rfl

section
variable {s : State} {b g : Bool} (hg : g = true → s.ident.avail = true) (hb : g = false → b = true)
include hg hb

/-- Measurements that may be answered. -/
theorem getMeasurements_given (i : Nat) : getMeasurements s b i g =
    if i = 0 then .content [8] else if i = 0xFF then .content ((List.range 8).flatMap (fun j => measEntry s (j + 1)))
    else if (measBlock s i).isSome then .content (measEntry s i) else .error .unspecified := by
  unfold getMeasurements
  cases g
  · rw [hb rfl]
    rfl
  · rw [hg rfl]
    rfl

theorem getMeasurements_svn : getMeasurements s b 3 g =
    .content ([3#8, 7#8, 1#8, 8#8, 0#8] ++ leBytes 4 s.hub.svn ++ leBytes 4 (minSvn s)) := by
  rw [getMeasurements_given hg hb, if_neg (by decide), if_neg (by decide)]
  refine (if_pos rfl).trans (congrArg SpdmRsp.content ?_)
  have hm : measEntry s 3 = leBytes 1 3 ++ leBytes 1 7 ++ leBytes 1 (b2n (measRaw 3)) ++
    leBytes 2 (leBytes 4 s.hub.svn ++ leBytes 4 (minSvn s)).length ++ (leBytes 4 s.hub.svn ++ leBytes 4 (minSvn s)) := rfl
  have hn : (leBytes 4 s.hub.svn ++ leBytes 4 (minSvn s)).length = 8 := by simp
  rw [hm, hn, List.append_assoc _ (leBytes 4 s.hub.svn)]
  rfl

theorem getMeasurements_none (i : Nat) (h : 8 < i) (hi : i ≠ 0xFF) : getMeasurements s b i g = .error .unspecified := by
  rw [getMeasurements_given hg hb, if_neg (by omega), if_neg hi, measBlock_none s i h]
  rfl

end

theorem getMeasurements_unsigned (s : State) (i : Nat) : getMeasurements s false i false = .error .unsupportedRequest := rfl

theorem getMeasurements_signed (s : State) (b : Bool) (i : Nat) (h : s.ident.avail = false) :
    getMeasurements s b i true = .error .unspecified := by
  unfold getMeasurements
  rw [h]
  rfl

/-- Settles O39: each answer is read of the identity, which a session brought into hub RAM leaves as it is. -/
theorem spdmAnswers : Obligations.SpdmAnswers := by
  unfold Obligations.SpdmAnswers
  intro s src i sid chain h j say
  obtain ⟨i1, i2, i3, i4, i5, i6, i7, -⟩ := joined_ident s src sid
  obtain ⟨k1, -, -, k4, -⟩ := joined_kept s src sid
  have hm : minSvn j = minSvn s := by
    unfold minSvn fuseW
    rw [show j.otp = s.otp from k4]
  have hlc : s.otp.lc = .manuf → j.otp.lc = .manuf := (congrArg Otp.lc k4).trans
  refine ⟨?_, ⟨mldsaPub (aliasSeed s), length_mldsaPub _, rfl⟩, fun hl r hr => ?_, fun hl => ⟨fun hd => ?_, fun d hd => ?_, ?_,
    fun hc => ?_, fun hc => ?_, fun hc => ?_, fun hc => ?_⟩, fun hs => ?_, fun hn => ?_, fun sig hg hb => ⟨?_, ?_, fun h8 h255 => ?_⟩⟩
  · refine (anywhere_says h ?_ : execHybChain (.mbox src) sid s = _)
    exact congrArg (fun b => (j, some (SpdmRsp.content b))) (by rw [i6, aliasLink_congr (s := s) i7 i2 i3])
  · have hn : j.otp.lc ≠ .manuf := fun e => hl ((congrArg Otp.lc k4).symm.trans e)
    simp only [List.mem_cons, List.not_mem_nil, or_false] at hr
    rcases hr with rfl | rfl | rfl | rfl
    · exact (anywhere_says h (if_pos hn) : execHybSetChain src sid chain s = _)
    · exact (anywhere_says h (if_pos hn) : execHybGetKey (.mbox src) sid s = _)
    · exact (anywhere_says h (if_pos hn) : execSpdmGetCsr (.mbox src) sid s = _)
    · exact (anywhere_says h (if_pos hn) : execSpdmSetCertificate src sid chain s = _)
  · refine (anywhere_says h ?_ : execHybGetKey (.mbox src) sid s = _)
    refine (if_neg (fun hn => hn (hlc hl))).trans ?_
    rw [show (joined s src sid).ident.devId = none from i1.trans hd]
  · refine ⟨mldsaSig d.1 (mldsaPub d.1) (freeN j).1, length_mldsaSig _ _ _, (anywhere_says h ?_ : execHybGetKey (.mbox src) sid s = _)⟩
    refine (if_neg (fun hn => hn (hlc hl))).trans ?_
    rw [show (joined s src sid).ident.devId = some d from i1.trans hd]
    rfl
  · obtain ⟨l, hub, f, e⟩ := answered_form (freeBytes (freeN j).2 ((freeN j).1 % 65537)).2 src sid
      (.content (freeBytes (freeN j).2 ((freeN j).1 % 65537)).1)
    refine ⟨_, (freeBytes (freeN j).2 ((freeN j).1 % 65537)).1, (runEng_run (engUp_of_asks h) (anywhere_answers h (if_neg (fun hn => hn (hlc hl)))) : execSpdmGetCsr (.mbox src) sid s = _),
      (congrArg State.out e).trans ?_⟩
    show j.out ++ _ = _
    rw [joined_out]
    rfl
  · exact (anywhere_says h (setChain_long j src 0xC400 49152 chain _ (hlc hl) hc) : execHybSetChain src sid chain s = _)
  · obtain ⟨u, l, hx, hu⟩ := setChain_asked h 0xC400 49152 chain (fun i => { i with hybrid := chain }) hl hc
    exact ⟨u, (hx : execHybSetChain src sid chain s = _), by rw [hu], by rw [hu]; exact i5⟩
  · exact (anywhere_says h (setChain_long j src 0xC040 46080 chain _ (hlc hl) hc) : execSpdmSetCertificate src sid chain s = _)
  · obtain ⟨u, l, hx, hu⟩ := setChain_asked h 0xC040 46080 chain (fun i => { i with x509 := chain }) hl hc
    exact ⟨u, (hx : execSpdmSetCertificate src sid chain s = _), by rw [hu], by rw [hu]; exact i6⟩
  · subst hs
    exact (anywhere_says h (congrArg (fun r => (j, some r)) (getMeasurements_unsigned j i)) :
      execSpdmGetMeasurements (.mbox src) none i false s = _)
  · exact (anywhere_says h (congrArg (fun r => (j, some r)) (getMeasurements_signed j sid.isSome i (i4.trans hn))) :
      execSpdmGetMeasurements (.mbox src) sid i true s = _)
  · exact (anywhere_says h (congrArg (fun r => (j, some r)) (getMeasurements_given (s := j) (fun e => i4.trans (hg e)) hb 0)) :
      execSpdmGetMeasurements (.mbox src) sid 0 sig s = _)
  · refine (anywhere_says h (congrArg (fun r => (j, some r)) ((getMeasurements_svn (s := j) (fun e => i4.trans (hg e)) hb).trans ?_)) :
      execSpdmGetMeasurements (.mbox src) sid 3 sig s = _)
    rw [hm, k1]
  · exact (anywhere_says h (congrArg (fun r => (j, some r)) (getMeasurements_none (s := j) (fun e => i4.trans (hg e)) hb i h8 h255)) :
      execSpdmGetMeasurements (.mbox src) sid i sig s = _)

end Sys2Proof.Machine
end

section
/-! SUPPORT. Firmware staging and the store's answers; the key port and IDE key management (02 R46 to R48; 03 R74 to R78; 05 R155 to R160). -/

namespace Sys2Proof.Machine

/- Proofs are elaborated in their order, for the reason given in the first section of this kind. -/
set_option deprecated.oldSectionVars true

/-! The firmware acts, or does not. -/

theorem runFw_acts {f : State → State} {s u : State} (h : engUp s = true) (ha : fwActs s = true) (hu : f (quiet s) = u) :
    runFw f s = .next (finish s u) := runEng_run h ((if_pos ha).trans hu)

theorem runFw_rests {f : State → State} {s : State} (h : engUp s = true) (ha : fwActs s = false) :
    runFw f s = .next (finish s (quiet s)) := runEng_run h (if_neg (fun hn => nomatch (ha.symm.trans hn : false = true)))

/-! An image is staged. -/

theorem storeReady_congr {s t : State} (h : t.keys.slots = s.keys.slots) (ha : t.aon.testRoot = s.aon.testRoot) (ho : t.otp = s.otp) :
    storeReady t = storeReady s := by
  unfold storeReady onTestRoot rootBank
  rw [slotAt_congr h, ha, ho]

theorem storeReady_absorbZero (s : State) (n : Nat) : storeReady (absorbZero s n) = storeReady s := by
  obtain ⟨m, c, d, w, f, h⟩ := absorb_counts s (List.replicate 32 0) n
  unfold absorbZero
  rw [h]
  exact storeReady_congr rfl rfl rfl

theorem fwStage_unready_more (s : State) (src : Nat) (k : Packet) (v : FwVerdict) (hs : storeReady s = false) (hm : k.more = true) :
    fwStage s src k v = reply s src .fwStage k.tag stNotPermitted [] := by
  simp only [fwStage, hm, if_true, hs, Bool.not_false]

theorem fwStage_unready_last (s : State) (src : Nat) (k : Packet) (v : FwVerdict) (hs : storeReady s = false) (hm : k.more = false) :
    fwStage s src k v = reply (absorbZero s (9 + (imageOf k.blob).body.length)) src .fwStage k.tag stNotPermitted [] := by
  simp only [fwStage, hm, Bool.false_eq_true, if_false, storeReady_absorbZero, hs, Bool.not_false, if_true]

/-- What an image that passes has. -/
theorem imageOk_checks (s : State) (b : Bytes) (v : FwVerdict) (h : imageOk s (imageOf b) v = true) : v.keys = true ∧ v.mldsa = true ∧
    v.ecdsa = true ∧ leAt b 0 4 = 0x57465654 ∧ leAt b 4 4 = 1 ∧ minSvn s ≤ leAt b 8 4 ∧ leAt b 12 4 ≤ 0x00030200 ∧ leAt b 16 4 % 64 = 0 ∧
    leAt b 16 4 ≤ 385024 ∧ measure 1 (slice b 0x2000 (leAt b 16 4)) = slice b 0x20 64 := by
  simp only [imageOk, imageOf, Bool.and_eq_true, beq_iff_eq] at h
  obtain ⟨⟨⟨⟨⟨⟨⟨⟨⟨⟨h1, h2⟩, h3⟩, h4⟩, h5⟩, h6⟩, h7⟩, h8⟩, -⟩, h9⟩, h10⟩ := h
  exact ⟨h4, h5, h6, h1, h2, of_decide_eq_true h10, of_decide_eq_true h3, h7, of_decide_eq_true h8, h9⟩

/-! The store answers. -/

theorem storeArrive_none (s : State) (ok : Bool) (h : s.hub.store = []) : storeArrive s ok = s := by
  simp only [storeArrive, storeAnswer, h]

theorem storeArrive_nobody (s : State) (r : StoreReq) (h : s.hub.store = [r]) (hr : r.src = none) :
    storeArrive s true = { s with hub := { s.hub with store := [] } } := by
  simp only [storeArrive, storeAnswer, h, hr, if_true, List.getElem?_nil]

theorem fwContinue_failed (s : State) (src : Nat) (k : Packet) (h : s.hub.storeFailed.contains src = true) :
    fwContinue s src k = reply (takeFailed s src).2 src .fwStage k.tag stInternal [] := if_pos h

/-- The source whose last write is answered goes on with its fragment. -/
theorem storeArrive_answered {s t : State} {ok : Bool} {src : Nat} {k : Packet} (ha : storeAnswer s ok = (t, some src))
    (hk : packetOf t src .fwStage = some k) (hb : t.hub.bg.any (fun b => b.src == src) = true) :
    storeArrive s ok = fwContinue t src k := by
  unfold storeArrive
  rw [ha]
  dsimp only
  rw [hk]
  exact if_pos hb

section
variable {s : State} {src : Nat} {k : Packet} {r : StoreReq} {h : List Hold} (hs : s.hub.store = [r]) (hr : r.src = some src)
  (hk : packetOf s src .fwStage = some k) (hb : s.hub.bg = [{ src := src, op := .fwStage, holds := h }])
include hs hr hk hb

/-- The fragment whose last write is answered goes on. -/
theorem storeArrive_goesOn : storeArrive s true = fwContinue { s with hub := { s.hub with store := [] } } src k :=
  storeArrive_answered (by
    simp only [storeAnswer, hs, hr, if_true, List.getElem?_nil, storeWaits, List.any_nil, Bool.false_eq_true, if_false])
    hk (by rw [hb]; simp)

/-- A write that fails is answered ST_INTERNAL, where its event finds room. -/
theorem storeArrive_fails (hl : s.aon.alarms.length < 256) : let u := storeArrive s false
    (mb u src).replies = (mb s src).replies ++ [replyWords (opVal .fwStage) stInternal k.tag []] ∧
      u.hub.stagedPending = s.hub.stagedPending := by
  obtain ⟨c, w, al, q, g, he, -⟩ := occur_room { s with hub := { s.hub with store := [] } }
    (mkRec 0x17 0xFF 0 0 stInternal 0 0 0 0 (64 * r.addr)) none (fun h => nomatch h) hl
  have ha : ∃ t, storeAnswer s false = (t, some src) ∧ t.hub = { s.hub with
      store := [], storeFailed := if s.hub.storeFailed.contains src then s.hub.storeFailed else s.hub.storeFailed ++ [src] } := by
    simp only [storeAnswer, hs, hr, Bool.false_eq_true, if_false, List.getElem?_nil]
    rw [ioEvent, he]
    simp only [storeFail, storeWaits, List.any_nil, Bool.false_eq_true, if_false]
    exact ⟨_, rfl, rfl⟩
  obtain ⟨t, ha, ht⟩ := ha
  have hm : mb t src = mb s src := by rw [mb, ht]; rfl
  have hc : t.hub.storeFailed.contains src = true := by
    rw [ht]
    dsimp only
    split
    · assumption
    · simp
  dsimp only
  rw [storeArrive_answered ha (by rw [packetOf, hm]; exact hk) (by rw [ht, hb]; simp), fwContinue_failed _ _ _ hc, mb_reply, ← hm]
  refine ⟨rfl, ?_⟩
  show t.hub.stagedPending = _
  rw [ht]

end

/-- Nothing of a source has failed. -/
theorem takeFailed_none (s : State) (src : Nat) (h : s.hub.storeFailed = []) : takeFailed s src = (false, s) := by
  have he : { s with hub := { s.hub with storeFailed := s.hub.storeFailed.filter (· != src) } } = s := by
    rw [h, List.filter_nil, ← h]
  unfold takeFailed
  rw [he, h]
  rfl

section
variable {s : State} {src : Nat} {k : Packet} (h : s.hub.storeFailed = [])
include h

theorem fwContinue_more (hl : s.hub.stagedLast = none) : fwContinue s src k = replyPending s src k [] := by
  simp only [fwContinue, takeFailed_none s src h, Bool.false_eq_true, if_false, hl]

theorem fwContinue_bad {n : Nat} (hl : s.hub.stagedLast = some (0, n)) : fwContinue s src k = reply s src .fwStage k.tag stNotPermitted [] := by
  simp only [fwContinue, takeFailed_none s src h, Bool.false_eq_true, if_false, hl]

theorem fwContinue_pending {n : Nat} (hl : s.hub.stagedLast = some (2, n)) : fwContinue s src k =
    reply { s with hub := { s.hub with stagedPending := true } } src .fwStage k.tag stOk [toW n, toW ((s.hub.ptr.map (·.1)).getD 0)] := by
  simp only [fwContinue, takeFailed_none s src h, Bool.false_eq_true, if_false, hl]

end

/-! The key port. -/

theorem invalidateSlot_keeps (s : State) (n : Nat) : (invalidateSlot s n).ident = s.ident ∧ (invalidateSlot s n).out = s.out := by
  unfold invalidateSlot
  dsimp only
  split <;> exact ⟨rfl, rfl⟩

/-- A key that is dropped is programmed no more. -/
theorem ideDrop_drops (s : State) (k : IdeKey) : (∀ e ∈ (ideDrop s k).ident.ide, e.key ≠ k) ∧ (ideDrop s k).out = s.out := by
  unfold ideDrop
  split
  · next hn => exact ⟨fun e he hk => by simpa [hk] using List.find?_eq_none.mp hn e he, rfl⟩
  · next e hn =>
    dsimp only
    obtain ⟨h1, h2⟩ := invalidateSlot_keeps s e.slot
    refine ⟨fun x hx => by simpa using (List.mem_filter.mp hx).2, ?_⟩
    split
    · exact h2
    · rfl

/-- What the oldest transfer's answer leaves, given to an exchange of the host. -/
theorem spdmSay_dropped (s : State) (k : IdeKey) (b : Bool) (r : SpdmRsp) :
    let u := if b then ideDrop s k else spdmSay (ideDrop s k) (.mbox 0) r
    (∀ e ∈ u.ident.ide, e.key ≠ k) ∧ (b = false → .spdm (.mbox 0) r ∈ u.out) := by
  obtain ⟨h, -⟩ := ideDrop_drops s k
  rcases b with _ | _
  · obtain ⟨hub, f, e⟩ := spdmSay_form (ideDrop s k) 0 r
    dsimp only
    rw [if_neg (by decide), e]
    exact ⟨h, fun _ => List.mem_append_right _ (List.mem_singleton.mpr rfl)⟩
  · exact ⟨h, fun hn => nomatch hn⟩

theorem keyAnswer_none {f : State → KeyXfer → State} {s : State} (h : s.ident.keyQ = []) : keyAnswer f s = s := by rw [keyAnswer, h]

theorem keyAnswer_oldest {f : State → KeyXfer → State} {s : State} {x : KeyXfer} {l : List KeyXfer} (h : s.ident.keyQ = x :: l) :
    keyAnswer f s = f { s with ident := { s.ident with keyQ := l } } x := by rw [keyAnswer, h]

section
variable {s u : State} {st : Nat} (h : engUp s = true)
include h

theorem keyPortAck_rests (ha : fwActs s = false) :
    exec (.keyPortAck st) s = .next (finish s { quiet s with ident := { s.ident with acks := s.ident.acks ++ [st] } }) :=
  (runEng_run h (if_neg (fun hn => nomatch (ha.symm.trans hn : false = true))) : execKeyPortAck st s = _)

variable (ha : fwActs s = true)
include ha

theorem keyPortAck_none (hq : s.ident.keyQ = []) : exec (.keyPortAck st) s = .next (finish s (quiet s)) :=
  (runEng_run h ((if_pos ha).trans (keyAnswer_none hq)) : execKeyPortAck st s = _)

variable {x : KeyXfer} {l : List KeyXfer} (hq : s.ident.keyQ = x :: l)
include hq

theorem keyPortAck_done (hu : keyDone { quiet s with ident := { s.ident with keyQ := l } } x = u) :
    exec (.keyPortAck 0) s = .next (finish s u) :=
  (runEng_run h ((if_pos ha).trans ((keyAnswer_oldest (s := quiet s) hq).trans ((if_pos rfl).trans hu))) : execKeyPortAck 0 s = _)

theorem keyPortAck_failed (hst : st ≠ 0) (hu : keyFailed { quiet s with ident := { s.ident with keyQ := l } } x stInternal = u) :
    exec (.keyPortAck st) s = .next (finish s u) :=
  (runEng_run h ((if_pos ha).trans ((keyAnswer_oldest (s := quiet s) hq).trans ((if_neg hst).trans hu))) : execKeyPortAck st s = _)

theorem keyPortTimeout_failed
    (hu : keyFailed (ioEvent { quiet s with ident := { s.ident with keyQ := l } } 0xFF 0 stTimeout 0 0 0 0) x stTimeout = u) :
    exec .keyPortTimeout s = .next (finish s u) :=
  (runFw_acts h ha ((keyAnswer_oldest (s := quiet s) hq).trans hu) : execKeyPortTimeout s = _)

end

theorem keyDone_prog (s : State) (x : KeyXfer) (h : x.op = 0) (hb : x.fromBlock = false) : keyDone s x = spdmSay s (.mbox 0) (.kpAck .ok) := by
  simp only [keyDone, h, hb, Bool.false_eq_true, if_false]

theorem keyDone_go (s : State) (x : KeyXfer) (h : x.op = 1) (hb : x.fromBlock = false) : keyDone s x = spdmSay { s with ident := { s.ident with
    ide := s.ident.ide.map (fun e => if e.key = x.key then { e with go := true } else e) } } (.mbox 0) .goStopAck := by
  simp only [keyDone, h, hb, Bool.false_eq_true, if_false]

theorem keyDone_stop (s : State) (x : KeyXfer) (h : x.op = 2) : keyDone s x =
    if x.fromBlock then ideDrop s x.key else spdmSay (ideDrop s x.key) (.mbox 0) .goStopAck := by
  simp only [keyDone, h]

theorem keyFailed_prog (s : State) (x : KeyXfer) (st : Nat) (h : x.op = 0) : keyFailed s x st =
    if x.fromBlock then ideDrop s x.key else spdmSay (ideDrop s x.key) (.mbox 0) (.kpAck .unspecified) := if_pos h

theorem keyFailed_late (s : State) (x : KeyXfer) (h : x.op ≠ 0) (hb : x.fromBlock = false) :
    keyFailed s x stTimeout = spdmSay s (.mbox 0) (.error .unspecified) := by
  simp only [keyFailed, h, hb, Bool.false_eq_true, if_false, if_true]

/-! IDE key management. -/

/-- An IDE_KM request in its session: permitted, with PortIndex 0. -/
def ideHandled (s : State) (x : Session) (port : Nat) (f : State → State × Option SpdmRsp) : State × Option SpdmRsp :=
  if !ideAllowed s x then (s, some (.kpAck .unspecified)) else if port ≠ 0 then (s, some (.kpAck .unsupportedPort)) else f s

/-- K_SET_GO or K_SET_STOP of a key whose fields are in range. -/
def ideSet (key : IdeKey) (f : State → State) (s : State) : State × Option SpdmRsp :=
  if !ideKeyOk key then (s, some (.kpAck .unsupportedValue)) else (f s, none)

section
variable {s u : State} {n port iv : Nat} {key : IdeKey} {data : BitVec 256} {x : Session} {r : Option SpdmRsp}
  (h : asks s 0 (some n) = true) (hx : sessionOf s (.mbox 0) n = some x)
include h hx

theorem ideRun_answers {f : State → State × Option SpdmRsp} (hu : ideHandled (joined s 0 (some n)) x port f = (u, r)) :
    ideRun n port f (quiet s) = answered u 0 (some n) r := inSession_answers h hx hu

theorem ideKmQuery_runs (hu : ideHandled (joined s 0 (some n)) x port (fun s => (s, some (.ideQuery 0 16))) = (u, r)) :
    exec (.ideKmQuery n port) s = .next (finish s (answered u 0 (some n) r)) :=
  (runEng_run (engUp_of_asks h) (ideRun_answers h hx hu) : execIdeKmQuery n port s = _)

theorem ideKmKeyProg_runs (hm : missPending s = false)
    (hu : ideHandled (joined s 0 (some n)) x port (fun s => keyProg s key data (iv % 2 ^ 64)) = (u, r)) :
    exec (.ideKmKeyProg n port key data iv) s = .next (finish s (answered u 0 (some n) r)) :=
  (runEng_run (engUp_of_asks h) ((if_neg (fun hn => nomatch (hm.symm.trans hn : false = true))).trans (ideRun_answers h hx hu)) :
    execIdeKmKeyProg n port key data iv s = _)

theorem ideKmKSetGo_runs (hu : ideHandled (joined s 0 (some n)) x port (ideSet key (fun s => keyAsk s 1 key 0 0)) = (u, r)) :
    exec (.ideKmKSetGo n port key) s = .next (finish s (answered u 0 (some n) r)) :=
  (runEng_run (engUp_of_asks h) (ideRun_answers h hx hu) : execIdeKmKSetGo n port key s = _)

theorem ideKmKSetStop_runs
    (hu : ideHandled (joined s 0 (some n)) x port (ideSet key (fun s => keyAsk (ideStopUsers s key.stream) 2 key 0 0)) = (u, r)) :
    exec (.ideKmKSetStop n port key) s = .next (finish s (answered u 0 (some n) r)) :=
  (runEng_run (engUp_of_asks h) (ideRun_answers h hx hu) : execIdeKmKSetStop n port key s = _)

/-- One answer to every IDE_KM request but QUERY. -/
theorem ideKm_all {y : SpdmRsp}
    (hp : ideHandled (joined s 0 (some n)) x port (fun s => keyProg s key data (iv % 2 ^ 64)) = (joined s 0 (some n), some y))
    (hr : ∀ f, ideHandled (joined s 0 (some n)) x port (ideSet key f) = (joined s 0 (some n), some y)) :
    ∀ c ∈ ([.ideKmKeyProg n port key data iv, .ideKmKSetGo n port key, .ideKmKSetStop n port key] : List Instr),
      (missPending s = true → c ≠ .ideKmKeyProg n port key data iv) → exec c s = .next (said s 0 (some n) (joined s 0 (some n)) y) := by
  intro c hc hm
  have hs : said s 0 (some n) (joined s 0 (some n)) y = finish s (answered (joined s 0 (some n)) 0 (some n) (some y)) := said_eq _ _ _ _ _
  rw [hs]
  simp only [List.mem_cons, List.not_mem_nil, or_false] at hc
  rcases hc with hc | hc | hc
  · rw [hc]
    exact ideKmKeyProg_runs h hx (Bool.eq_false_iff.mpr (fun hp => hm hp hc)) hp
  · rw [hc]
    exact ideKmKSetGo_runs h hx (hr _)
  · rw [hc]
    exact ideKmKSetStop_runs h hx (hr _)

end

theorem derive_fst (s : State) (k : BitVec 256) (l : String) (c : Bytes) : (derive s k l c).1 = deriveKey (keyBytes k) l c := rfl

/-- The IDE entry of a key is compared, where one is kept. -/
theorem keyProg_again (s : State) (k : IdeKey) (key : BitVec 256) (iv : Nat) (e : IdeEnt) (hk : ideKeyOk k = true) (h2 : (slotAt s 2).state = 1)
    (he : s.ident.ide.find? (fun e => e.key == k) = some e) : keyProg s k key iv = ((derive s (slotAt s 2).key "ide" (ideCtx k key iv)).2,
      some (.kpAck (if e.check = deriveKey (keyBytes (slotAt s 2).key) "ide" (ideCtx k key iv) then .ok else .unsupportedValue))) := by
  refine (if_neg (by rw [hk]; decide)).trans ((if_neg (fun hn => hn h2)).trans ?_)
  dsimp only
  rw [ident_derive, he, derive_fst]

theorem lowestFrom_congr {p q : Nat → Bool} (n i : Nat) (h : ∀ j, i ≤ j → p j = q j) : lowestFrom p n i = lowestFrom q n i := by
  induction n generalizing i with
  | zero => rfl
  | succ n ih =>
    rw [lowestFrom, lowestFrom, h i (Nat.le_refl i), ih (i + 1) (fun j hj => h j (by omega))]

theorem lowestFree_congr {s t : State} (h : ∀ m, m ≠ sessionSlot → slotAt t m = slotAt s m) : lowestFree t = lowestFree s := by
  refine lowestFrom_congr _ _ (fun j hj => ?_)
  rw [slotFree, slotFree, h j (show j ≠ 9 by omega)]

/-- A key not kept yet takes the lowest free slot, and goes to the key port. -/
theorem keyProg_new (s : State) (k : IdeKey) (key : BitVec 256) (iv m : Nat) (hk : ideKeyOk k = true) (h2 : (slotAt s 2).state = 1)
    (he : ∀ e ∈ s.ident.ide, e.key ≠ k) (hn : (ideStreams s).length < 16) (hm : lowestFree s = some m) : ∃ u, keyProg s k key iv = (u, none) ∧
      (slotAt u m).typ = 0xA ∧ (slotAt u m).state = 1 ∧ (slotAt u m).parent = 2 ∧
      (∃ e ∈ u.ident.ide, e.key = k ∧ e.slot = m ∧ e.go = false) ∧ .keyReq 0 k key iv ∈ u.out := by
  have hi := ident_derive s (slotAt s 2).key "ide" (ideCtx k key iv)
  have hf : lowestFree (derive s (slotAt s 2).key "ide" (ideCtx k key iv)).2 = some m :=
    (lowestFree_congr (fun m _ => slotAt_congr (derive_slots _ _ _ _) m)).trans hm
  unfold keyProg
  rw [if_neg (by rw [hk]; decide), if_neg (fun hn => hn h2)]
  dsimp only
  generalize derive s (slotAt s 2).key "ide" (ideCtx k key iv) = d at hi hf ⊢
  rw [hi, List.find?_eq_none.mpr (fun e h => by simpa using he e h)]
  dsimp only
  rw [if_neg (fun hc => by
    have := hc.1
    rw [ideStreams, hi] at this
    exact absurd this (Nat.not_le.mpr hn)), hf]
  dsimp only
  have hs : ∀ l, slotAt (keyAsk { fillSlot d.2 m d.1 0xA 0x20#16 2 0 0 with ident := l } 0 k key iv) m = {
      key := d.1, typ := 0xA, uses := 0x20#16, parent := 2, state := 1, depth := (slotAt d.2 2).depth + 1
      parentGen := (slotAt d.2 2).gen, gen := (slotAt d.2 m).gen, useCount := 0, useLimit := 0, ownerKid := 0 } :=
    fun l => tgetD_tset_same _ _ _ _
  refine ⟨_, rfl, by rw [hs], by rw [hs], by rw [hs], ⟨_, List.mem_append_right _ (List.mem_singleton.mpr rfl), rfl, rfl, rfl⟩,
    List.mem_append_right _ (List.mem_singleton.mpr rfl)⟩

/-- What a partition locked on a stream is due. -/
def streamDue (stream : Nat) (p : Nat × PartRec) : Bool :=
  p.2.live && p.2.ideStream == some stream && (p.2.tdisp == 1 || p.2.tdisp == 2)

/-- The partitions locked on a stream become due for ERROR; nothing else changes. -/
theorem ideStopUsers_due (st : Nat) (l : Tbl PartRec) (s : State) : ∃ d, l.foldl (fun s p => if streamDue st p then
      { s with parts := { s.parts with errDue := if s.parts.errDue.contains p.1 then s.parts.errDue else s.parts.errDue ++ [p.1] } } else s) s =
        { s with parts := { s.parts with errDue := d } } ∧ (∀ i ∈ s.parts.errDue, i ∈ d) ∧ ∀ p ∈ l, streamDue st p = true → p.1 ∈ d := by
  induction l generalizing s with
  | nil => exact ⟨s.parts.errDue, rfl, fun _ h => h, fun _ h => nomatch h⟩
  | cons x l ih =>
    rw [List.foldl_cons]
    split
    · next hx =>
      obtain ⟨d, h1, h2, h3⟩ := ih { s with parts := { s.parts with
        errDue := if s.parts.errDue.contains x.1 then s.parts.errDue else s.parts.errDue ++ [x.1] } }
      refine ⟨d, h1, fun i hi => h2 i ?_, fun p hp hd => ?_⟩
      · dsimp only
        split
        · exact hi
        · exact List.mem_append_left _ hi
      · rcases List.mem_cons.mp hp with rfl | hp
        · refine h2 _ ?_
          dsimp only
          split
          · next hc => simpa using hc
          · exact List.mem_append_right _ (List.mem_singleton.mpr rfl)
        · exact h3 p hp hd
    · next hx =>
      obtain ⟨d, h1, h2, h3⟩ := ih s
      refine ⟨d, h1, h2, fun p hp hd => ?_⟩
      rcases List.mem_cons.mp hp with rfl | hp
      · exact absurd hd hx
      · exact h3 p hp hd

end Sys2Proof.Machine
end

section
/-! SUPPORT. Firmware staging, the store and the key port, row by row (02 R46 to R48; 03 R74 to R78; 05 R153 to R160). -/

namespace Sys2Proof.Machine

/- Proofs are elaborated in their order, for the reason given in the first section of this kind. -/
set_option deprecated.oldSectionVars true

/-- STORE_RESPONSE while the firmware acts. -/
theorem storeResponse_runs {s u : State} {ok : Bool} {data : Bytes} (h : engUp s = true) (ha : fwActs s = true)
    (hu : storeArrive (quiet s) ok = u) : exec (.storeResponse ok data) s = .next (finish s u) :=
  (runFw_acts h ha hu : execStoreResponse ok data s = _)

/-- The rows of BCP_FW_STAGE, STORE_RESPONSE, KEY_PORT_ACK and KEY_PORT_TIMEOUT. -/
theorem storeAndKeyPort_rows (s : State) (src : Nat) (k : Packet) (v : FwVerdict) (ok : Bool) (data : Bytes) (st : Nat) :
    (takes s src .fwStage k = true →
      (storeReady s = false → k.more = true → exec (.bcpFwStage src v) s = .next (finish s (reply (taken s src) src .fwStage k.tag stNotPermitted []))) ∧
      (storeReady s = false → k.more = false → exec (.bcpFwStage src v) s = .next (finish s (reply
        (absorbZero (taken s src) (9 + (imageOf k.blob).body.length)) src .fwStage k.tag stNotPermitted []))) ∧
      (storeReady s = true → exec (.bcpFwStage src v) s = .next (finish s (fwStage (taken s src) src k v)))) ∧
    (imageOk s (imageOf k.blob) v = true → v.keys = true ∧ v.mldsa = true ∧ v.ecdsa = true ∧ leAt k.blob 0 4 = 0x57465654 ∧ leAt k.blob 4 4 = 1 ∧
      minSvn s ≤ leAt k.blob 8 4 ∧ leAt k.blob 12 4 ≤ 0x00030200 ∧ leAt k.blob 16 4 % 64 = 0 ∧ leAt k.blob 16 4 ≤ 385024 ∧
      measure 1 (slice k.blob 0x2000 (leAt k.blob 16 4)) = slice k.blob 0x20 64) ∧
    (engUp s = true → fwActs s = false → exec (.storeResponse ok data) s = .next (finish s (quiet s))) ∧
    (engUp s = true → fwActs s = true → let q := { quiet s with hub := { s.hub with store := [] } }
      (s.hub.store = [] → exec (.storeResponse ok data) s = .next (finish s (quiet s))) ∧
      (∀ r, s.hub.store = [r] → r.src = none → exec (.storeResponse true data) s = .next (finish s q)) ∧
      (∀ r h, s.hub.store = [r] → r.src = some src → s.hub.storeFailed = [] → packetOf s src .fwStage = some k →
        s.hub.bg = [{ src := src, op := .fwStage, holds := h }] →
        (s.hub.stagedLast = none → exec (.storeResponse true data) s = .next (finish s (replyPending q src k []))) ∧
        (∀ n, s.hub.stagedLast = some (0, n) → exec (.storeResponse true data) s = .next (finish s (reply q src .fwStage k.tag stNotPermitted []))) ∧
        (∀ n, s.hub.stagedLast = some (2, n) → exec (.storeResponse true data) s = .next (finish s (reply
          { q with hub := { q.hub with stagedPending := true } } src .fwStage k.tag stOk [toW n, toW ((s.hub.ptr.map (·.1)).getD 0)]))) ∧
        (∃ u, exec (.storeResponse false data) s = .next (finish s u) ∧
          (s.aon.alarms.length < 256 → (mb u src).replies = (mb s src).replies ++ [replyWords (opVal .fwStage) stInternal k.tag []] ∧ u.hub.stagedPending = s.hub.stagedPending)))) ∧
    (engUp s = true → fwActs s = false → exec .keyPortTimeout s = .next (finish s (quiet s)) ∧
      exec (.keyPortAck st) s = .next (finish s { quiet s with ident := { s.ident with acks := s.ident.acks ++ [st] } })) ∧
    (engUp s = true → fwActs s = true → (s.ident.keyQ = [] → exec (.keyPortAck st) s = .next (finish s (quiet s)) ∧ exec .keyPortTimeout s = .next (finish s (quiet s))) ∧
      ∀ x rest, s.ident.keyQ = x :: rest → let q := { quiet s with ident := { s.ident with keyQ := rest } }
        (x.op = 0 → x.fromBlock = false → exec (.keyPortAck 0) s = .next (finish s (spdmSay q (.mbox 0) (.kpAck .ok)))) ∧
        (x.op = 1 → x.fromBlock = false → exec (.keyPortAck 0) s = .next (finish s (spdmSay { q with ident := { q.ident with
          ide := s.ident.ide.map (fun e => if e.key = x.key then { e with go := true } else e) } } (.mbox 0) .goStopAck))) ∧
        (x.op = 2 → ∃ u, exec (.keyPortAck 0) s = .next (finish s u) ∧ (∀ e ∈ u.ident.ide, e.key ≠ x.key) ∧
          (x.fromBlock = false → .spdm (.mbox 0) .goStopAck ∈ u.out)) ∧
        (x.op = 0 → st ≠ 0 → ∃ u, exec (.keyPortAck st) s = .next (finish s u) ∧ (∀ e ∈ u.ident.ide, e.key ≠ x.key) ∧
          (x.fromBlock = false → .spdm (.mbox 0) (.kpAck .unspecified) ∈ u.out)) ∧
        (x.op ≠ 0 → x.fromBlock = false → exec .keyPortTimeout s = .next (finish s
          (spdmSay (ioEvent q 0xFF 0 stTimeout 0 0 0 0) (.mbox 0) (.error .unspecified))))) := by
  refine ⟨fun h => ?_, imageOk_checks s k.blob v, fun h ha => (runFw_rests h ha : execStoreResponse ok data s = _), fun h ha => ?_, fun h ha =>
    ⟨(runFw_rests h ha : execKeyPortTimeout s = _), keyPortAck_rests h ha⟩, fun h ha => ⟨fun hq => ⟨keyPortAck_none h ha hq,
      (runFw_acts h ha (keyAnswer_none (s := quiet s) hq) : execKeyPortTimeout s = _)⟩, fun x l hq => ?_⟩⟩
  · have he : ∀ u, fwStage (taken s src) src k v = u → exec (.bcpFwStage src v) s = .next (finish s u) :=
      fun u hu => (runCmd_takes h hu : execBcpFwStage src v s = _)
    exact ⟨fun hs hm => he _ (fwStage_unready_more (taken s src) src k v hs hm),
      fun hs hm => he _ (fwStage_unready_last (taken s src) src k v hs hm), fun _ => he _ rfl⟩
  · refine ⟨fun hs => storeResponse_runs h ha (storeArrive_none (quiet s) ok hs),
      fun r hs hr => storeResponse_runs h ha (storeArrive_nobody (quiet s) r hs hr), fun r hold hs hr hf hk hb => ?_⟩
    have hg := storeArrive_goesOn (s := quiet s) hs hr hk hb
    refine ⟨fun hl => storeResponse_runs h ha (hg.trans (fwContinue_more (s := { quiet s with hub := { s.hub with store := [] } }) hf hl)),
      fun n hl => storeResponse_runs h ha (hg.trans (fwContinue_bad (s := { quiet s with hub := { s.hub with store := [] } }) hf hl)),
      fun n hl => storeResponse_runs h ha (hg.trans (fwContinue_pending (s := { quiet s with hub := { s.hub with store := [] } }) hf hl)), ?_⟩
    have hx := storeResponse_runs (data := data) h ha (rfl : storeArrive (quiet s) false = _)
    have hw := storeArrive_fails (s := quiet s) hs hr hk hb
    generalize storeArrive (quiet s) false = u at hx hw
    exact ⟨u, hx, hw⟩
  · refine ⟨fun ho hb => keyPortAck_done h ha hq (keyDone_prog _ x ho hb), fun ho hb => keyPortAck_done h ha hq (keyDone_go _ x ho hb),
      fun ho => ?_, fun ho hst => ?_, fun ho hb => keyPortTimeout_failed h ha hq (keyFailed_late _ x ho hb)⟩
    · exact ⟨_, keyPortAck_done h ha hq (keyDone_stop _ x ho), spdmSay_dropped _ x.key x.fromBlock .goStopAck⟩
    · exact ⟨_, keyPortAck_failed h ha hq hst (keyFailed_prog _ x _ ho), spdmSay_dropped _ x.key x.fromBlock (.kpAck .unspecified)⟩

section
variable {s : State} {n port iv : Nat} {key : IdeKey} {data : BitVec 256} {x : Session}

theorem ideHandled_forbidden (j : State) {f : State → State × Option SpdmRsp} (h : ideAllowed j x = false) :
    ideHandled j x port f = (j, some (.kpAck .unspecified)) := if_pos (by rw [h]; rfl)

theorem ideHandled_port (j : State) {f : State → State × Option SpdmRsp} (h : ideAllowed j x = true) (hp : port ≠ 0) :
    ideHandled j x port f = (j, some (.kpAck .unsupportedPort)) := (if_neg (by rw [h]; decide)).trans (if_pos hp)

theorem ideHandled_runs (j : State) {f : State → State × Option SpdmRsp} (h : ideAllowed j x = true) (hp : port = 0) :
    ideHandled j x port f = f j := (if_neg (by rw [h]; decide)).trans (if_neg (fun hn => hn hp))

theorem ideSet_bad (j : State) {f : State → State} (h : ideKeyOk key = false) : ideSet key f j = (j, some (.kpAck .unsupportedValue)) :=
  if_pos (by rw [h]; rfl)

theorem ideSet_runs (j : State) {f : State → State} (h : ideKeyOk key = true) : ideSet key f j = (f j, none) :=
  if_neg (by rw [h]; decide)

end

/-- A request that waits for the key port leaves its transfer. -/
theorem answered_none (t : State) (src : Nat) (sid : Option Nat) : ∃ l, answered t src sid none =
    { t with ident := { t.ident with sessions := l } } := inUse_form t src sid

/-- The rows of IDE_KM. -/
theorem ideKm_rows (s : State) (n port iv : Nat) (key : IdeKey) (data : BitVec 256) (x : Session) (h : asks s 0 (some n) = true)
    (hx : sessionOf s (.mbox 0) n = some x) :
    let say := fun (r : SpdmRsp) => said s 0 (some n) (joined s 0 (some n)) r
    let all : List Instr := [.ideKmQuery n port, .ideKmKeyProg n port key data iv, .ideKmKSetGo n port key, .ideKmKSetStop n port key]
    (missPending s = true → exec (.ideKmKeyProg n port key data iv) s = .next (finish s (quiet s))) ∧
    (ideAllowed s x = false → ∀ r ∈ all, (missPending s = true → r ≠ .ideKmKeyProg n port key data iv) → exec r s = .next (say (.kpAck .unspecified))) ∧
    (ideAllowed s x = true → port ≠ 0 → ∀ r ∈ all, (missPending s = true → r ≠ .ideKmKeyProg n port key data iv) → exec r s = .next (say (.kpAck .unsupportedPort))) ∧
    (ideAllowed s x = true → port = 0 →
      exec (.ideKmQuery n port) s = .next (say (.ideQuery 0 16)) ∧
      (ideKeyOk key = false → ∀ r ∈ all.drop 1, (missPending s = true → r ≠ .ideKmKeyProg n port key data iv) → exec r s = .next (say (.kpAck .unsupportedValue))) ∧
      (missPending s = false → ideKeyOk key = true → (slotAt s 2).state ≠ 1 → exec (.ideKmKeyProg n port key data iv) s = .next (say (.kpAck .unspecified))) ∧
      (missPending s = false → ideKeyOk key = true → (slotAt s 2).state = 1 → ∀ e, s.ident.ide.find? (fun e => e.key == key) = some e →
        ∃ u, exec (.ideKmKeyProg n port key data iv) s = .next (finish s u) ∧ u.ident.ide = s.ident.ide ∧ u.ident.keyQ = s.ident.keyQ ∧ u.out = [.spdm (.mbox 0) (.kpAck
          (if e.check = deriveKey (keyBytes (slotAt s 2).key) "ide" (ideCtx key data (iv % 2 ^ 64)) then .ok else .unsupportedValue))]) ∧
      (missPending s = false → ideKeyOk key = true → (slotAt s 2).state = 1 → (∀ e ∈ s.ident.ide, e.key ≠ key) → (ideStreams s).length < 16 → ∀ m, lowestFree s = some m →
        ∃ u, exec (.ideKmKeyProg n port key data iv) s = .next (finish s u) ∧ (slotAt u m).typ = 0xA ∧ (slotAt u m).state = 1 ∧ (slotAt u m).parent = 2 ∧
          (∃ e ∈ u.ident.ide, e.key = key ∧ e.slot = m ∧ e.go = false) ∧ .keyReq 0 key data (iv % 2 ^ 64) ∈ u.out) ∧
      (ideKeyOk key = true → ∃ u, exec (.ideKmKSetGo n port key) s = .next (finish s u) ∧ u.out = [.keyReq 1 key 0 0] ∧
        u.ident.keyQ = s.ident.keyQ ++ [{ op := 1, key := key, hold := 0, iv := 0, fromBlock := false }] ∧ u.parts = s.parts) ∧
      (ideKeyOk key = true → ∃ u, exec (.ideKmKSetStop n port key) s = .next (finish s u) ∧ u.out = [.keyReq 2 key 0 0] ∧
        u.ident.keyQ = s.ident.keyQ ++ [{ op := 2, key := key, hold := 0, iv := 0, fromBlock := false }] ∧
        ∀ p ∈ s.parts.part, p.2.live = true → p.2.ideStream = some key.stream → p.2.tdisp = 1 ∨ p.2.tdisp = 2 → u.parts.errDue.contains p.1 = true)) := by
  intro say all
  obtain ⟨-, -, -, -, -, -, -, -, -, i1, i2, -⟩ := joined_ident s 0 (some n)
  obtain ⟨-, k2, k3, -, -, -, -, k8⟩ := joined_kept s 0 (some n)
  have ko := joined_out s 0 (some n)
  have hal : ideAllowed (joined s 0 (some n)) x = ideAllowed s x := by rw [ideAllowed, ideAllowed, k3]
  have hsay : ∀ y, finish s (answered (joined s 0 (some n)) 0 (some n) (some y)) = say y := fun y => (said_eq _ _ _ _ _).symm
  have hq : ∀ y, ideHandled (joined s 0 (some n)) x port (fun s => (s, some (.ideQuery 0 16))) = (joined s 0 (some n), some y) →
      exec (.ideKmQuery n port) s = .next (say y) := fun y hu => (ideKmQuery_runs h hx hu).trans (by rw [hsay])
  have hlf : lowestFree (joined s 0 (some n)) = lowestFree s := lowestFree_congr k8
  have h2 : slotAt (joined s 0 (some n)) 2 = slotAt s 2 := k8 2 (by decide)
  generalize hj : joined s 0 (some n) = j at i1 i2 k2 ko hal hq hlf h2
  refine ⟨fun hm => ?_, fun ha r hr hm => ?_, fun ha hp r hr hm => ?_, fun ha hp => ⟨?_, fun hk => ?_, fun hm hk hs => ?_, fun hm hk hs e he => ?_,
    fun hm hk hs he hn m hf => ?_, fun hk => ?_, fun hk => ?_⟩⟩
  · exact (runEng_run (engUp_of_asks h) (if_pos hm) : execIdeKmKeyProg n port key data iv s = _)
  · rcases List.mem_cons.mp hr with rfl | hr
    · exact hq _ (ideHandled_forbidden j (hal.trans ha))
    · exact ideKm_all h hx (by rw [hj]; exact ideHandled_forbidden j (hal.trans ha))
        (fun f => by rw [hj]; exact ideHandled_forbidden j (hal.trans ha)) r hr hm
  · rcases List.mem_cons.mp hr with rfl | hr
    · exact hq _ (ideHandled_port j (hal.trans ha) hp)
    · exact ideKm_all h hx (by rw [hj]; exact ideHandled_port j (hal.trans ha) hp)
        (fun f => by rw [hj]; exact ideHandled_port j (hal.trans ha) hp) r hr hm
  · exact hq _ (ideHandled_runs j (hal.trans ha) hp)
  · exact ideKm_all h hx (by rw [hj, ideHandled_runs j (hal.trans ha) hp]; exact if_pos (by rw [hk]; rfl))
      (fun f => by rw [hj, ideHandled_runs j (hal.trans ha) hp]; exact ideSet_bad j hk)
  · have hu : ideHandled j x port (fun s => keyProg s key data (iv % 2 ^ 64)) = (j, some (.kpAck .unspecified)) :=
      (ideHandled_runs j (hal.trans ha) hp).trans ((if_neg (by rw [hk]; decide)).trans (if_pos (by rw [h2]; exact hs)))
    rw [← hj] at hu
    exact (ideKmKeyProg_runs h hx hm hu).trans (by rw [hsay])
  · have hu := (ideHandled_runs (f := fun s => keyProg s key data (iv % 2 ^ 64)) j (hal.trans ha) hp).trans
      (keyProg_again j key data (iv % 2 ^ 64) e hk (by rw [h2]; exact hs) (by rw [i1]; exact he))
    have hd := ident_derive j (slotAt j 2).key "ide" (ideCtx key data (iv % 2 ^ 64))
    have ho : (derive j (slotAt j 2).key "ide" (ideCtx key data (iv % 2 ^ 64))).2.out = j.out := by
      obtain ⟨-, -, -, -, -, ho, -⟩ := (keyed_derive j (slotAt j 2).key "ide" (ideCtx key data (iv % 2 ^ 64))).kept
      exact ho
    rw [h2] at hu hd ho
    generalize (derive j (slotAt s 2).key "ide" (ideCtx key data (iv % 2 ^ 64))).2 = t at hu hd ho
    rw [← hj] at hu
    obtain ⟨l, hub, f, ea⟩ := answered_form t 0 (some n) (.kpAck
      (if e.check = deriveKey (keyBytes (slotAt s 2).key) "ide" (ideCtx key data (iv % 2 ^ 64)) then .ok else .unsupportedValue))
    refine ⟨_, ideKmKeyProg_runs h hx hm hu, ?_, ?_, ?_⟩ <;> rw [ea]
    · exact (congrArg Identity.ide hd).trans i1
    · exact (congrArg Identity.keyQ hd).trans i2
    · rw [ho, ko]
      rfl
  · obtain ⟨t, hu, h3, h4, h5, h6, h7⟩ := keyProg_new j key data (iv % 2 ^ 64) m hk (by rw [h2]; exact hs) (by rw [i1]; exact he)
      (by rw [ideStreams, i1]; exact hn) (hlf.trans hf)
    obtain ⟨l, ea⟩ := answered_none t 0 (some n)
    have hr := (ideHandled_runs (f := fun s => keyProg s key data (iv % 2 ^ 64)) j (hal.trans ha) hp).trans hu
    rw [← hj] at hr
    refine ⟨_, ideKmKeyProg_runs h hx hm hr, ?_⟩
    rw [ea]
    exact ⟨h3, h4, h5, h6, h7⟩
  · have hr := (ideHandled_runs (f := ideSet key (fun s => keyAsk s 1 key 0 0)) j (hal.trans ha) hp).trans (ideSet_runs j hk)
    obtain ⟨l, ea⟩ := answered_none (keyAsk j 1 key 0 0) 0 (some n)
    rw [← hj] at hr
    refine ⟨_, ideKmKSetGo_runs h hx hr, ?_⟩
    rw [hj, ea]
    exact ⟨congrArg (· ++ [_]) ko, congrArg (· ++ [_]) i2, k2⟩
  · have hr := (ideHandled_runs (f := ideSet key (fun s => keyAsk (ideStopUsers s key.stream) 2 key 0 0)) j (hal.trans ha) hp).trans (ideSet_runs j hk)
    obtain ⟨d, hd, -, hin⟩ := ideStopUsers_due key.stream j.parts.part j
    have hst : ideStopUsers j key.stream = { j with parts := { j.parts with errDue := d } } := hd
    obtain ⟨l, ea⟩ := answered_none (keyAsk { j with parts := { j.parts with errDue := d } } 2 key 0 0) 0 (some n)
    rw [hst, ← hj] at hr
    refine ⟨_, ideKmKSetStop_runs h hx hr, ?_⟩
    rw [hj, ea]
    refine ⟨congrArg (· ++ [_]) ko, congrArg (· ++ [_]) i2, fun p hpm hl hi ht => ?_⟩
    exact List.contains_iff_mem.mpr (hin p (by rw [k2]; exact hpm) (by rcases ht with ht | ht <;> simp [streamDue, hl, hi, ht]))

/-- Settles O37: the store and the key port answer the oldest of what they owe; an IDE_KM request runs on what a session brought into hub RAM
leaves, which is everything but its own slot. -/
theorem hostKeysAndStore : Obligations.HostKeysAndStore :=
  ⟨storeAndKeyPort_rows, ideKm_rows⟩

end Sys2Proof.Machine
end

section
/-! SUPPORT. What turns a domain control message or a work descriptor away (05 R170; 11 R353, R360, R364). -/

namespace Sys2Proof.Machine

/- Proofs are elaborated in their order, for the reason given in the first section of this kind. -/
set_option deprecated.oldSectionVars true

/-! Domain control messages. -/

/-- What tells a domain control message of a code from the other frames of the inbox. -/
theorem ctlPred {f : InFrame} {code : Nat} (ho : f.hdr.op = opMgmt) (hb : f.hdr.mbxs = false) (hc : isCtl f = true)
    (hd : leAt f.payload 0 1 = code) : (f.hdr.op == opMgmt && !f.hdr.mbxs && isCtl f && leAt f.payload 0 1 == code) = true := by
  simp [ho, hb, hc, hd]

theorem ctlRun_empty {s : State} (code gen len : Nat) (F : State → Nat → Bytes → State) (h : s.fab.inbox = []) :
    ctlRun code gen len F s = s := by
  simp [ctlRun, popInbox, h]

/-- The message at hand, taken and checked. -/
theorem ctlRun_one {s : State} {f : InFrame} {code : Nat} (gen len : Nat) (F : State → Nat → Bytes → State) (hi : s.fab.inbox = [f])
    (hp : (f.hdr.op == opMgmt && !f.hdr.mbxs && isCtl f && leAt f.payload 0 1 == code) = true) :
    ctlRun code gen len F (quiet s) =
      if leAt f.payload 4 8 = domainId s ∧ s.dom.policy.isSome ∧ leAt f.payload 12 4 = gen ∧ f.payload.length = 16 + len then
        F (ctlOut s) f.hdr.src (f.payload.drop 16) else ctlOut s := by
  unfold ctlRun
  rw [popInbox_one (quiet s) f _ hi hp]
  rfl

theorem ctlRun_takes {s : State} {f : InFrame} {code gen len : Nat} (F : State → Nat → Bytes → State) (h : ctlIn s f code gen len = true) :
    ctlRun code gen len F (quiet s) = F (ctlOut s) f.hdr.src (f.payload.drop 16) := by
  simp only [ctlIn, Bool.and_eq_true, decide_eq_true_eq, beq_iff_eq, Bool.not_eq_true'] at h
  obtain ⟨⟨⟨⟨⟨⟨⟨⟨⟨⟨-, -⟩, hi⟩, ho⟩, hb⟩, hc⟩, hd⟩, hid⟩, hp⟩, hg⟩, hl⟩ := h
  rw [ctlRun_one gen len F hi (ctlPred ho hb hc hd)]
  exact if_pos ⟨hid, hp, hg, hl⟩

theorem engUp_of_ctlIn {s : State} {f : InFrame} {code gen len : Nat} (h : ctlIn s f code gen len = true) : engUp s = true ∧ fwActs s = true := by
  simp only [ctlIn, Bool.and_eq_true] at h
  obtain ⟨⟨⟨⟨⟨⟨⟨⟨⟨⟨h1, h2⟩, -⟩, -⟩, -⟩, -⟩, -⟩, -⟩, -⟩, -⟩, -⟩ := h
  exact ⟨h1, h2⟩

/-- The two clauses of one kind of message: nothing at hand or the firmware at rest, and a message for another. -/
theorem ctlRow {s : State} {f : InFrame} {i : Instr} {code gen len : Nat} {F : State → State → Nat → Bytes → State} {g : State → Nat}
    (h : engUp s = true) (hx : exec i s = runFw (fun s => ctlRun code (g s) len (F s) s) s) (hg : g (quiet s) = gen) :
    (s.fab.inbox = [] ∨ fwActs s = false → exec i s = .next (finish s (quiet s))) ∧
    (fwActs s = true → s.fab.inbox = [f] → f.hdr.op = opMgmt → f.hdr.mbxs = false → isCtl f = true → leAt f.payload 0 1 = code →
      leAt f.payload 4 8 ≠ domainId s ∨ leAt f.payload 12 4 ≠ gen ∨ f.payload.length ≠ 16 + len → exec i s = .next (finish s (ctlOut s))) := by
  refine ⟨fun hn => ?_, fun ha hi ho hb hc hd hn => ?_⟩
  · rw [hx]
    cases ha : fwActs s with
    | false => exact runFw_rests h ha
    | true =>
      have he : s.fab.inbox = [] := hn.resolve_right (by rw [ha]; exact fun e => nomatch e)
      exact runFw_acts h ha (ctlRun_empty (s := quiet s) _ _ _ _ he)
  · rw [hx]
    refine runFw_acts h ha ((ctlRun_one _ _ _ hi (ctlPred ho hb hc hd)).trans (if_neg ?_))
    rintro ⟨h1, -, h3, h4⟩
    rcases hn with hn | hn | hn
    · exact hn h1
    · exact hn (h3.trans hg)
    · exact hn h4

/-- REKEY_DIST of a message taken. -/
def distTaken (s : State) (v : Nat) (b : Bytes) : State :=
  if !fromParent s v ∨ s.dom.rekey.isSome then s
  else match s.dom.parent.bind (fun l => unwrapKey l.tk b 1 (domainId s) (s.dom.gen + 1) (s.dom.vertex.getD 0)) with
    | some key => distribute s (s.dom.gen + 1) key none
    | none => s

/-- SWITCH of a message taken. -/
def switchTaken (s : State) (v : Nat) (_ : Bytes) : State :=
  match s.dom.rekey with
  | some r => if fromParent s v ∧ r.phase = .distribute then checkSwitch (doSwitch s r.target) else s
  | none => s

/-- A count of a child taken. -/
def ackTaken (check : State → State) (note : Nat → Child → Child) (s : State) (v : Nat) (b : Bytes) : State :=
  check (childReport s v (note (leAt b 0 4)))

/-- RETIRE of a message taken. -/
def retireTaken (s : State) (v : Nat) (_ : Bytes) : State :=
  if fromParent s v ∧ s.dom.rekey.any (fun r => r.phase != .distribute) then doRetire s else s

/-- CHORD_ADVANCE of a message taken. -/
def advanceTaken (s : State) (v : Nat) (b : Bytes) : State :=
  if leAt b 0 4 % 2 = 1 then
    { s with dom := { s.dom with chordWin := s.dom.chordWin.map (fun x => (x.1, x.2.1, x.2.2 + 1)) } }
  else match advanceChord s v with
    | some t => pushCtl t v 7 t.dom.gen (leBytes 4 1)
    | none => pushCtl s v 7 s.dom.gen (leBytes 4 0)

/-! Each message's command as the check of its kind and its effect. -/

theorem enrolledRx_form (s : State) :
    exec .enrolledRx s = runFw (fun s => ctlRun 8 s.dom.gen 4 (fun s src b => enrolledMsg s src (leAt b 0 2)) s) s := rfl

theorem commitRx_form (s : State) :
    exec .commitRx s = runFw (fun s => ctlRun 9 s.dom.gen 4 (fun s src b => commitMsg s src (leAt b 0 2) (leAt b 2 1)) s) s := rfl

theorem rekeyDistRx_form (s : State) :
    exec .rekeyDistRx s = runFw (fun s => ctlRun 1 (s.dom.gen + 1) 80 distTaken s) s := rfl

theorem distAckRx_form (s : State) :
    exec .distAckRx s = runFw (fun s => ctlRun 2 (s.dom.gen + 1) 4 (ackTaken checkDist (fun n c => { c with dist := some n })) s) s := rfl

theorem switchRx_form (s : State) :
    exec .switchRx s = runFw (fun s => ctlRun 3 (s.dom.gen + 1) 0 switchTaken s) s := rfl

theorem switchAckRx_form (s : State) :
    exec .switchAckRx s = runFw (fun s => ctlRun 4 s.dom.gen 4 (ackTaken checkSwitch (fun n c => { c with switched := some n })) s) s := rfl

theorem drainedRx_form (s : State) :
    exec .drainedRx s = runFw (fun s => ctlRun 5 s.dom.gen 4 (ackTaken checkDrain (fun n c => { c with drained := some n })) s) s := rfl

theorem retireRx_form (s : State) :
    exec .retireRx s = runFw (fun s => ctlRun 6 s.dom.gen 0 retireTaken s) s := rfl

theorem chordAdvanceRx_form (s : State) :
    exec .chordAdvanceRx s = runFw (fun s => ctlRun 7 s.dom.gen 4 advanceTaken s) s := rfl

/-! Work descriptors. -/

/-- What starting a descriptor leaves as it was, up to its own checks. -/
structure Spared (s t : State) : Prop where
  mem : t.mem = s.mem
  fab : t.fab = s.fab
  red : t.red = s.red
  upd : t.upd = s.upd
  dom : t.dom = s.dom
  part : t.parts.part = s.parts.part
  ctx : t.parts.ctx = s.parts.ctx

theorem Spared.refl (s : State) : Spared s s := ⟨rfl, rfl, rfl, rfl, rfl, rfl, rfl⟩

theorem Spared.trans {s t u : State} (a : Spared s t) (b : Spared t u) : Spared s u :=
  ⟨b.mem.trans a.mem, b.fab.trans a.fab, b.red.trans a.red, b.upd.trans a.upd, b.dom.trans a.dom, b.part.trans a.part, b.ctx.trans a.ctx⟩

theorem spared_countEv (s : State) (ev : Nat) (p : Option Nat) (n : Nat) : Spared s (countEv s ev p n) := by
  obtain ⟨c, d, w, f, e⟩ := countEv_counts s ev p n
  rw [e]
  exact ⟨rfl, rfl, rfl, rfl, rfl, rfl, rfl⟩

theorem desc_countEv (s : State) (ev : Nat) (p : Option Nat) (n d : Nat) : descAt (countEv s ev p n) d = descAt s d := by
  obtain ⟨c, e, w, f, h⟩ := countEv_counts s ev p n
  rw [h]
  rfl

theorem spared_startSnap (s : State) (p : Nat) : Spared s (startSnap s p) := by
  unfold startSnap
  split
  · exact .refl s
  · exact ⟨rfl, rfl, rfl, rfl, rfl, rfl, rfl⟩

theorem spared_setDesc (s : State) (d : Nat) (x : Desc) : Spared s (setDesc s d x) := ⟨rfl, rfl, rfl, rfl, rfl, rfl, rfl⟩

theorem descAt_setDesc (s : State) (d : Nat) (x : Desc) : descAt (setDesc s d x) d = some x := tget_tset_same _ _ _

theorem spared_takeMark (s : State) (d : Nat) (x : Desc) : Spared s (takeMark s d x) := by
  unfold takeMark
  split
  · exact .refl s
  · dsimp only
    split
    · split
      · exact ⟨rfl, rfl, rfl, rfl, rfl, rfl, rfl⟩
      · exact ⟨rfl, rfl, rfl, rfl, rfl, rfl, rfl⟩
    · exact ⟨rfl, rfl, rfl, rfl, rfl, rfl, rfl⟩

/-- A mark changes nothing else of the descriptor. -/
theorem descAt_takeMark {s : State} {d : Nat} {y : Desc} (x : Desc) (h : descAt s d = some y) :
    ∃ m, descAt (takeMark s d x) d = some { y with mark := m } := by
  unfold takeMark
  dsimp only
  split
  · exact ⟨y.mark, h⟩
  · split
    · rw [show descAt { s with parts := { s.parts with marks := tdel s.parts.marks (x.ctx * 256 + x.queue) } } d = some y from h]
      exact ⟨_, descAt_setDesc _ _ _⟩
    · exact ⟨y.mark, h⟩

theorem spared_faultDue (s : State) (l : List Nat) : Spared s { s with parts := { s.parts with faultDue := l } } :=
  ⟨rfl, rfl, rfl, rfl, rfl, rfl, rfl⟩

/-- The end of a running descriptor: its status, its own bytes, and nothing of the units. -/
theorem completeDesc_done {s : State} {d : Nat} {y : Desc} (st r : Nat) (h : descAt s d = some y) (hp : y.phase = .running) :
    Spared s (completeDesc s d st r) ∧ ∃ z, descAt (completeDesc s d st r) d = some z ∧ z.phase = .done ∧ z.status = st ∧ z.raw = y.raw := by
  have key : ∀ (w : Nat × State), Spared s w.2 → let t := countEv (setDesc w.2 d { y with phase := .done, status := st, result := w.1 }) 0x091 (ctxPart (setDesc w.2 d { y with phase := .done, status := st, result := w.1 }) y.ctx) 1
      Spared s (if st = stPoisoned then { t with parts := { t.parts with faultDue := t.parts.faultDue ++ [d] } } else t) ∧
      ∃ z, descAt (if st = stPoisoned then { t with parts := { t.parts with faultDue := t.parts.faultDue ++ [d] } } else t) d = some z ∧
        z.phase = .done ∧ z.status = st ∧ z.raw = y.raw := by
    intro w hw t
    have ht : Spared s t := hw.trans ((spared_setDesc _ _ _).trans (spared_countEv _ _ _ _))
    have hd : descAt t d = some { y with phase := .done, status := st, result := w.1 } :=
      (desc_countEv _ _ _ _ _).trans (descAt_setDesc _ _ _)
    split
    · exact ⟨ht.trans (spared_faultDue _ _), _, hd, rfl, rfl, rfl⟩
    · exact ⟨ht, _, hd, rfl, rfl, rfl⟩
  have hn : ¬ (y.phase = .done ∨ y.phase = .recorded) := by
    rw [hp]
    exact fun e => e.elim (fun e => nomatch e) (fun e => nomatch e)
  unfold completeDesc
  rw [h]
  dsimp only
  rw [if_neg hn]
  exact key _ (by split; exacts [.refl s, ⟨rfl, rfl, rfl, rfl, rfl, rfl, rfl⟩])

/-! Whose turn it is. -/

theorem firstStart_desc (s : State) (acc : Access) (l : List Cand) {r : Nat × State} (h : firstStart s acc l = some r) :
    ∃ c ∈ l, c.desc = r.1 := by
  induction l with
  | nil => nomatch h
  | cons c l ih =>
    unfold firstStart at h
    split at h
    · exact ⟨c, .head l, congrArg Prod.fst (Option.some.inj h)⟩
    · obtain ⟨k, hk, e⟩ := ih h
      exact ⟨k, .tail c hk, e⟩

/-- The descriptor whose turn it is stands at the head of its queue. -/
theorem theTurn_desc {s : State} {acc : Access} {r : Nat × State} (h : theTurn s acc = some r) : ∃ c ∈ candidates s, c.desc = r.1 := by
  obtain ⟨c, hc, e⟩ := firstStart_desc s acc _ h
  exact ⟨c, (List.mem_insertionSort _).1 hc, e⟩

theorem startOne_missing {s : State} {d : Nat} (op : Nat) (acc : Access) (h : descAt s d = none) : startOne op d acc s = s := by
  unfold startOne
  rw [h]

theorem startOne_closed {s : State} (op d : Nat) (acc : Access) (h : dispatchUp s = false) : startOne op d acc s = s := by
  unfold startOne
  split
  · rw [h, Bool.and_false]
    rfl
  · rfl

theorem startOne_other {s : State} {d : Nat} {x : Desc} (op : Nat) (acc : Access) (hd : descAt s d = some x) (h : x.opcode ≠ op) :
    startOne op d acc s = s := by
  unfold startOne
  rw [hd]
  split
  · next e _ =>
    cases e
    rw [decide_eq_false h]
    rfl
  · rfl

theorem startOne_behind {s : State} {d : Nat} (op : Nat) (acc : Access) (h : ∀ k ∈ candidates s, k.desc ≠ d) : startOne op d acc s = s := by
  unfold startOne
  split
  · next e t _ ht =>
    obtain ⟨c, hc, hcd⟩ := theTurn_desc ht
    rw [decide_eq_false (p := e = d) (fun he => h c hc (hcd.trans he)), Bool.and_false]
    rfl
  · rfl

/-- The state in which a started descriptor is checked. -/
def wdBegun (s : State) (d : Nat) (x : Desc) : State :=
  takeMark (setDesc (countEv (startSnap s ((ctxPart s x.ctx).getD 0)) 0x090 (some ((ctxPart s x.ctx).getD 0)) 1) d
    { x with phase := .running, checked := true }) d x

theorem spared_begun (s : State) (d : Nat) (x : Desc) : Spared s (wdBegun s d x) :=
  (spared_startSnap s _).trans ((spared_countEv _ _ _ _).trans ((spared_setDesc _ _ _).trans (spared_takeMark _ _ _)))

theorem descAt_begun (s : State) (d : Nat) (x : Desc) :
    ∃ m, descAt (wdBegun s d x) d = some { x with phase := .running, checked := true, mark := m } :=
  descAt_takeMark x (descAt_setDesc _ _ _)

/-- The common checks read the regions, the partitions and the domain. -/
theorem headCheck_spared {s t : State} (h : Spared s t) (p op : Nat) (b : Bytes) : headCheck t p op b = headCheck s p op b := by
  have hr : handleRegion t = handleRegion s := by
    funext n
    unfold handleRegion regionAt
    rw [h.mem]
  have hd : inDomain t = inDomain s := by
    funext v
    unfold inDomain ownVertex otherMember inBitmap isMember ownVertex
    rw [h.dom]
  have hs : scopeOk t p op b = scopeOk s p op b := by
    funext r
    unfold scopeOk partAt
    rw [h.part, hd]
  unfold headCheck
  rw [hr, hs]

theorem tryStart_ends {s : State} {d : Nat} {x : Desc} (acc : Access) {st : Nat} (hd : descAt s d = some x) (hc : x.checked = false)
    (h : headCheck s ((ctxPart s x.ctx).getD 0) x.opcode x.raw = some st) :
    tryStart s d acc = some (completeDesc (wdBegun s d x) d st (resultNow (wdBegun s d x) d x)) := by
  have hb := (headCheck_spared (spared_begun s d x) ((ctxPart s x.ctx).getD 0) x.opcode x.raw).trans h
  unfold tryStart
  rw [hd]
  dsimp only
  rw [hc]
  refine (if_neg Bool.false_ne_true).trans ?_
  rw [show headCheck (takeMark _ d x) ((ctxPart s x.ctx).getD 0) x.opcode x.raw = some st from hb]
  rfl

/-- A descriptor whose turn it is starts. -/
theorem startOne_runs {s t : State} {d : Nat} {x : Desc} {op : Nat} {acc : Access} (h : tries s d x op = true) (ht : tryStart (quiet s) d acc = some t) :
    ∃ c, startOne op d acc (quiet s) = tookTurn t c := by
  simp only [tries, Bool.and_eq_true, beq_iff_eq] at h
  obtain ⟨⟨⟨⟨⟨-, hx⟩, ho⟩, -⟩, hu⟩, hh⟩ := h
  cases hl : turns s with
  | nil => rw [hl] at hh; nomatch hh
  | cons c l =>
    rw [hl] at hh
    have hcd : c.desc = d := by simpa using hh
    have htt : theTurn (quiet s) acc = some (d, tookTurn t c) := by
      show firstStart (quiet s) acc (turns s) = _
      rw [hl]
      unfold firstStart
      rw [hcd, ht]
    refine ⟨c, ?_⟩
    unfold startOne
    rw [htt, show descAt (quiet s) d = some x from hx]
    dsimp only
    rw [if_pos]
    simp [ho, show dispatchUp (quiet s) = true from hu]

/-- The clauses of one opcode. -/
theorem wdRow {s : State} {d : Nat} {i : Instr} {op : Nat} {acc : Access} (h : engUp s = true) (hx : exec i s = runEng (startOne op d acc) s) :
    (descAt s d = none ∨ dispatchUp s = false → exec i s = .next (finish s (quiet s))) ∧
    ∀ x, descAt s d = some x →
      (x.opcode ≠ op ∨ (∀ k ∈ candidates s, k.desc ≠ d) → exec i s = .next (finish s (quiet s))) ∧
      (tries s d x op = true → x.checked = false → ∀ st, headCheck s ((ctxPart s x.ctx).getD 0) op x.raw = some st →
        ∃ u y, exec i s = .next (finish s u) ∧ descAt u d = some y ∧ y.phase = .done ∧ y.status = st ∧ y.raw = x.raw ∧
          u.mem = s.mem ∧ u.fab = s.fab ∧ u.red = s.red ∧ u.upd = s.upd) := by
  refine ⟨fun hn => ?_, fun x hd => ⟨fun hn => ?_, fun ht hc st hs => ?_⟩⟩
  · rw [hx]
    exact runEng_run h (hn.elim (startOne_missing (s := quiet s) op acc) (startOne_closed (s := quiet s) op d acc))
  · rw [hx]
    exact runEng_run h (hn.elim (startOne_other (s := quiet s) op acc hd) (startOne_behind (s := quiet s) op acc))
  · have ho : x.opcode = op := by
      simp only [tries, Bool.and_eq_true, beq_iff_eq] at ht
      obtain ⟨⟨⟨⟨-, ho⟩, -⟩, -⟩, -⟩ := ht
      exact ho
    obtain ⟨c, hc'⟩ := startOne_runs ht (tryStart_ends (s := quiet s) acc hd hc (st := st) (by rw [ho]; exact hs))
    obtain ⟨m, hm⟩ := descAt_begun (quiet s) d x
    obtain ⟨hsp, z, h1, h2, h3, h4⟩ := completeDesc_done st (resultNow (wdBegun (quiet s) d x) d x) hm rfl
    have hall := (spared_begun (quiet s) d x).trans hsp
    refine ⟨_, z, hx.trans (runEng_run h hc'), ?_⟩
    generalize completeDesc (wdBegun (quiet s) d x) d st (resultNow (wdBegun (quiet s) d x) d x) = u at h1 hall
    exact ⟨h1, h2, h3, h4, hall.mem, hall.fab, hall.red, hall.upd⟩

/-- Settles O41: each message runs through the one check of its kind, each opcode through the one turn of the dispatcher. -/
theorem unitGuards : Obligations.UnitGuards := by
  refine ⟨fun s f h r hr => ?_, fun s d h r hr => ?_⟩
  · simp only [List.mem_cons, List.not_mem_nil, or_false] at hr
    obtain rfl | rfl | rfl | rfl | rfl | rfl | rfl | rfl | rfl := hr
    · exact ctlRow h (g := fun s => s.dom.gen) (enrolledRx_form s) rfl
    · exact ctlRow h (g := fun s => s.dom.gen) (commitRx_form s) rfl
    · exact ctlRow h (g := fun s => s.dom.gen + 1) (rekeyDistRx_form s) rfl
    · exact ctlRow h (g := fun s => s.dom.gen + 1) (distAckRx_form s) rfl
    · exact ctlRow h (g := fun s => s.dom.gen + 1) (switchRx_form s) rfl
    · exact ctlRow h (g := fun s => s.dom.gen) (switchAckRx_form s) rfl
    · exact ctlRow h (g := fun s => s.dom.gen) (drainedRx_form s) rfl
    · exact ctlRow h (g := fun s => s.dom.gen) (retireRx_form s) rfl
    · exact ctlRow h (g := fun s => s.dom.gen) (chordAdvanceRx_form s) rfl
  · simp only [List.mem_cons, List.not_mem_nil, or_false] at hr
    obtain rfl | rfl | rfl | rfl | rfl | rfl | rfl | rfl | rfl | rfl := hr
    all_goals exact wdRow h rfl

end Sys2Proof.Machine
end

section
/-! SUPPORT. Enrolment: the command, the keys of the parent, and the messages that commit (05 R162 to R168, R176). -/

namespace Sys2Proof.Machine

/- Proofs are elaborated in their order, for the reason given in the first section of this kind. -/
set_option deprecated.oldSectionVars true

/-! What goes to a peer changes the queue of frames alone. -/

theorem pushTx_fold (mk : Bytes → TxFrame) (l : List Bytes) (s : State) :
    ∃ q, l.foldl (fun s x => pushTx s (mk x)) s = { s with fab := { s.fab with txq := q } } := by
  induction l generalizing s with
  | nil => exact ⟨s.fab.txq, rfl⟩
  | cons x l ih =>
    obtain ⟨q, e⟩ := ih (pushTx s (mk x))
    exact ⟨q, e⟩

/-- The boot seal of a frame follows the domain, which a send does not change. -/
theorem spdmSend_fold (v : Nat) (l : List Bytes) (s : State) :
    ∃ q, l.foldl (fun s x => pushTx s { TxFrame.blank with dst := v, op := opMgmt, boot := sendsBoot s v, payload := x, origin := .own }) s =
      { s with fab := { s.fab with txq := q } } := by
  induction l generalizing s with
  | nil => exact ⟨s.fab.txq, rfl⟩
  | cons x l ih =>
    obtain ⟨q, e⟩ := ih (pushTx s { TxFrame.blank with dst := v, op := opMgmt, boot := sendsBoot s v, payload := x, origin := .own })
    exact ⟨q, e⟩

theorem spdmSend_form (s : State) (v : Nat) : ∃ n q, spdmSend s v = { s with fresh := n, fab := { s.fab with txq := q } } := by
  unfold spdmSend
  obtain ⟨q, e⟩ := spdmSend_fold v (cutReply 17 (freeBytes (freeN s).2 ((freeN s).1 % 65537)).1) (freeBytes (freeN s).2 ((freeN s).1 % 65537)).2
  exact ⟨_, q, e⟩

theorem spdmSay_peer (s : State) (v : Nat) (r : SpdmRsp) :
    ∃ o n q, spdmSay s (.peer v) r = { s with out := o, fresh := n, fab := { s.fab with txq := q } } := by
  obtain ⟨n, q, e⟩ := spdmSend_form (emit s (.spdm (.peer v) r)) v
  exact ⟨_, n, q, e⟩

theorem markUsed_form (s : State) (c : Conn) (n : Nat) : ∃ l, markUsed s c n = { s with ident := { s.ident with sessions := l } } := by
  unfold markUsed
  split
  · split
    · exact ⟨_, rfl⟩
    · exact ⟨s.ident.sessions, rfl⟩
  · exact ⟨s.ident.sessions, rfl⟩

/-- The domain and the keys that an answered message of a peer leaves. -/
theorem saidPeer_kept (s : State) (v n : Nat) (r : SpdmRsp) :
    (spdmSay (markUsed s (.peer v) n) (.peer v) r).dom = s.dom ∧ (spdmSay (markUsed s (.peer v) n) (.peer v) r).keys = s.keys := by
  obtain ⟨l, e⟩ := markUsed_form s (.peer v) n
  obtain ⟨o, m, q, h⟩ := spdmSay_peer (markUsed s (.peer v) n) v r
  rw [h, e]
  exact ⟨rfl, rfl⟩

/-! BCP_DOMAIN_ENROL. -/

theorem enrolCheck_taken (s : State) (src : Nat) (k : Packet) (sigs : Bool) : enrolCheck (taken s src) k sigs = enrolCheck s k sigs := rfl

/-- Signatures that fail refuse the policy, where a retransmit area is there. -/
theorem enrolCheck_unsigned (s : State) (k : Packet) (ha : fld (reg s 0x1A008) 10 0 ≥ 16) : enrolCheck s k false = some stNotPermitted := by
  unfold enrolCheck
  dsimp only
  split
  · rfl
  · split
    · rfl
    · split
      · rfl
      · rw [if_neg (by omega), Bool.and_false, Bool.false_and]
        rfl

/-- The state in which a policy that is admitted is the block's, before it is a member. -/
def policed (s : State) (k : Packet) : State :=
  { s with dom := { s.dom with vertex := some (fld (pw k.params 1) 15 0), policy := some (parsePolicy k.blob) } }

/-- An enrolment holds the domain until it ends. -/
theorem isHeld_openEnrol (s : State) (src : Nat) (k : Packet) (p : Nat) (b : Bool) : isHeld (openEnrol s src k p b) .domain = true := by
  unfold isHeld
  show (s.hub.bg ++ [({ src := src, op := .domainEnrol, holds := namesOf .domainEnrol k.params } : Bg)]).any (fun b => b.holds.contains Hold.domain) = true
  rw [List.any_append, List.any_cons, List.contains_iff_mem.mpr (show Hold.domain ∈ namesOf .domainEnrol k.params from
    List.mem_append_right _ (.head _)), Bool.true_or, Bool.or_true]

theorem isHeld_spdmSend (s : State) (v : Nat) (h : Hold) : isHeld (spdmSend s v) h = isHeld s h := by
  obtain ⟨n, q, e⟩ := spdmSend_form s v
  rw [e]
  rfl

theorem slotAt_fillSlot_same (s : State) (n : Nat) (k : BitVec 256) (t : Nat) (u : BitVec 16) (p l kid : Nat) :
    slotAt (fillSlot s n k t u p l kid) n = {
      key := k, typ := t, uses := u, parent := p, state := 1, depth := (slotAt s p).depth + 1
      parentGen := (slotAt s p).gen, gen := (slotAt s n).gen, useCount := 0, useLimit := l, ownerKid := kid } := tgetD_tset_same _ _ _ _

theorem slotAt_fillSlot_other (s : State) {n m : Nat} (k : BitVec 256) (t : Nat) (u : BitVec 16) (p l kid : Nat) (h : m ≠ n) :
    slotAt (fillSlot s n k t u p l kid) m = slotAt s m := slotAt_setSlot_other _ _ _ _ h

/-- The Lead's own slots: DOMAIN_LINK and DOMAIN_STORE. -/
theorem becomeLead_slots (s : State) (v : Nat) : (slotAt (becomeLead s v) 3).state = 1 ∧ (slotAt (becomeLead s v) 3).typ = 4 ∧
    (slotAt (becomeLead s v) 5).state = 1 ∧ (slotAt (becomeLead s v) 5).typ = 5 := by
  have h3 : slotAt (becomeLead s v) 3 = slotAt (fillSlot (draw (draw s 32).2 32).2 3 (keyOf (draw s 32).1) 4 4#16 0 0 0) 3 :=
    slotAt_fillSlot_other _ _ _ _ _ _ _ (by decide)
  have h5 : slotAt (becomeLead s v) 5 = _ := slotAt_fillSlot_same _ 5 _ 5 1#16 0 0 0
  rw [h3, h5, slotAt_fillSlot_same]
  exact ⟨rfl, rfl, rfl, rfl⟩

section
variable (s : State) (src : Nat) (k : Packet) (sigs : Bool) (hm : k.more = false) (hc : enrolCheck s k sigs = none)
include hm hc

theorem domainEnrol_lead (h : s.dom.member = false) (hl : fld (pw k.params 0) 1 0 = 1) (hd : s.hub.drbgRefuse = false) :
    domainEnrol s src k sigs = openEnrol (becomeLead (policed s k) (fld (pw k.params 1) 15 0)) src k 0 true := by
  unfold domainEnrol
  refine (if_neg (by rw [hm]; exact Bool.false_ne_true)).trans ?_
  rw [hc]
  refine (if_neg (by rw [h]; exact Bool.false_ne_true)).trans ?_
  refine (if_pos hl).trans (if_neg ?_)
  show ¬ s.hub.drbgRefuse = true
  rw [hd]
  exact Bool.false_ne_true

theorem domainEnrol_refused (h : s.dom.member = false) (hl : fld (pw k.params 0) 1 0 = 1) (hd : s.hub.drbgRefuse = true) :
    domainEnrol s src k sigs = reply { s with dom := { s.dom with vertex := none, policy := none } } src .domainEnrol k.tag stInternal [] := by
  unfold domainEnrol
  refine (if_neg (by rw [hm]; exact Bool.false_ne_true)).trans ?_
  rw [hc]
  refine (if_neg (by rw [h]; exact Bool.false_ne_true)).trans ?_
  exact (if_pos hl).trans (if_pos hd)

theorem domainEnrol_child (h : s.dom.member = false) (hl : fld (pw k.params 0) 1 0 ≠ 1) : domainEnrol s src k sigs =
    spdmSend (openEnrol (policed s k) src k (fld (pw k.params 2) 15 0) false) (fld (pw k.params 2) 15 0) := by
  unfold domainEnrol
  refine (if_neg (by rw [hm]; exact Bool.false_ne_true)).trans ?_
  rw [hc]
  refine (if_neg (by rw [h]; exact Bool.false_ne_true)).trans ?_
  exact if_neg hl

theorem domainEnrol_memberLead (h : s.dom.member = true) (hl : fld (pw k.params 0) 1 0 = 1) : domainEnrol s src k sigs =
    openEnrol { s with dom := { s.dom with role := 2, allMarked := true, parent := none } } src k 0 true := by
  unfold domainEnrol
  refine (if_neg (by rw [hm]; exact Bool.false_ne_true)).trans ?_
  rw [hc]
  exact (if_pos h).trans (if_pos hl)

theorem domainEnrol_reparent (h : s.dom.member = true) (hl : fld (pw k.params 0) 1 0 ≠ 1) : domainEnrol s src k sigs =
    spdmSend (openEnrol s src k (fld (pw k.params 2) 15 0) false) (fld (pw k.params 2) 15 0) := by
  unfold domainEnrol
  refine (if_neg (by rw [hm]; exact Bool.false_ne_true)).trans ?_
  rw [hc]
  exact (if_pos h).trans (if_neg hl)
end

/-- The rows of BCP_DOMAIN_ENROL. -/
theorem domainEnrol_rows (s : State) (src : Nat) (k : Packet) (sigs : Bool) (h : takes s src .domainEnrol k = true) :
    let v := fld (pw k.params 1) 15 0; let parent := fld (pw k.params 2) 15 0
    (k.more = true → exec (.bcpDomainEnrol src sigs) s = .next (finish s (replyPending (taken s src) src k (repeatedWords .domainEnrol k.params)))) ∧
      (k.more = false → ∀ st, enrolCheck s k sigs = some st → exec (.bcpDomainEnrol src sigs) s = .next (finish s (reply (taken s src) src .domainEnrol k.tag st []))) ∧
      (sigs = false → fld (reg s 0x1A008) 10 0 ≥ 16 → enrolCheck s k sigs = some stNotPermitted) ∧
      (k.more = false → enrolCheck s k sigs = none → s.dom.member = false → fld (pw k.params 0) 1 0 = 1 → s.hub.drbgRefuse = false →
        ∃ u, exec (.bcpDomainEnrol src sigs) s = .next (finish s u) ∧ u.dom.member = true ∧ u.dom.role = 2 ∧ u.dom.gen = 1 ∧ u.dom.vertex = some v ∧
          u.dom.enrolled = [v] ∧ u.dom.policy = some (parsePolicy k.blob) ∧ (slotAt u 3).state = 1 ∧ (slotAt u 3).typ = 4 ∧
          (slotAt u 5).state = 1 ∧ (slotAt u 5).typ = 5 ∧ isHeld u .domain = true ∧ u.parts = s.parts) ∧
      (k.more = false → enrolCheck s k sigs = none → s.dom.member = false → fld (pw k.params 0) 1 0 ≠ 1 →
        ∃ u e, exec (.bcpDomainEnrol src sigs) s = .next (finish s u) ∧ u.dom.enrol = some e ∧ e.parent = parent ∧ e.joined = false ∧ e.committed = false ∧
          u.dom.vertex = some v ∧ u.dom.member = false ∧ u.keys = s.keys ∧ isHeld u .domain = true) ∧
      (k.more = false → enrolCheck s k sigs = none → s.dom.member = false → fld (pw k.params 0) 1 0 = 1 → s.hub.drbgRefuse = true →
        ∃ u, exec (.bcpDomainEnrol src sigs) s = .next (finish s u) ∧ u.dom.member = false ∧ u.dom.vertex = none ∧ u.dom.policy = none ∧
          (mb u src).replies = (mb s src).replies ++ [replyWords (opVal .domainEnrol) stInternal k.tag []]) ∧
      (k.more = false → enrolCheck s k sigs = none → s.dom.member = true → ∃ u e, exec (.bcpDomainEnrol src sigs) s = .next (finish s u) ∧
        u.dom.enrol = some e ∧ u.dom.member = true ∧ u.dom.gen = s.dom.gen ∧ u.dom.policy = s.dom.policy ∧ u.keys = s.keys ∧
        (fld (pw k.params 0) 1 0 = 1 → e.committed = true ∧ u.dom.role = 2 ∧ u.dom.allMarked = true ∧ u.dom.parent = none) ∧
        (fld (pw k.params 0) 1 0 ≠ 1 → e.reparent = true ∧ e.parent = parent ∧ e.joined = false ∧ u.dom.role = s.dom.role)) := by
  intro v parent
  have he : ∀ u, domainEnrol (taken s src) src k sigs = u → exec (.bcpDomainEnrol src sigs) s = .next (finish s u) :=
    fun u hu => (runCmd_takes h hu : execBcpDomainEnrol src sigs s = _)
  refine ⟨fun hm => he _ (if_pos hm), fun hm st hc => he _ ?_, fun hs ha => ?_, fun hm hc hn hl hd => ?_, fun hm hc hn hl => ?_,
    fun hm hc hn hl hd => ?_, fun hm hc hn => ?_⟩
  · unfold domainEnrol
    refine (if_neg (by rw [hm]; exact Bool.false_ne_true)).trans ?_
    rw [enrolCheck_taken, hc]
  · rw [hs]
    exact enrolCheck_unsigned s k ha
  · obtain ⟨h1, h2, h3, h4⟩ := becomeLead_slots (policed (taken s src) k) v
    exact ⟨_, he _ (domainEnrol_lead _ src k sigs hm hc hn hl hd), rfl, rfl, rfl, rfl, rfl, rfl, h1, h2, h3, h4, isHeld_openEnrol _ _ _ _ _, rfl⟩
  · have hx := he _ (domainEnrol_child _ src k sigs hm hc hn hl)
    have hh := (isHeld_spdmSend _ (fld (pw k.params 2) 15 0) .domain).trans (isHeld_openEnrol (policed (taken s src) k) src k (fld (pw k.params 2) 15 0) false)
    obtain ⟨n, q, e⟩ := spdmSend_form (openEnrol (policed (taken s src) k) src k (fld (pw k.params 2) 15 0) false) (fld (pw k.params 2) 15 0)
    rw [e] at hx hh
    exact ⟨_, _, hx, rfl, rfl, rfl, rfl, rfl, hn, rfl, hh⟩
  · refine ⟨_, he _ (domainEnrol_refused _ src k sigs hm hc hn hl hd), hn, rfl, rfl, ?_⟩
    rw [replies_reply]
    rfl
  · by_cases hl : fld (pw k.params 0) 1 0 = 1
    · exact ⟨_, _, he _ (domainEnrol_memberLead _ src k sigs hm hc hn hl), rfl, hn, rfl, rfl, rfl, fun _ => ⟨rfl, rfl, rfl, rfl⟩, fun hl' => absurd hl hl'⟩
    · have hx := he _ (domainEnrol_reparent _ src k sigs hm hc hn hl)
      obtain ⟨n, q, e⟩ := spdmSend_form (openEnrol (taken s src) src k (fld (pw k.params 2) 15 0) false) (fld (pw k.params 2) 15 0)
      rw [e] at hx
      refine ⟨_, _, hx, rfl, hn, rfl, rfl, rfl, fun hl' => absurd hl' hl, fun _ => ⟨?_, rfl, rfl, rfl⟩⟩
      show (s.dom.member && true) = true
      rw [hn]
      rfl

end Sys2Proof.Machine
end

section
/-! SUPPORT. An enrolment that fails, the join of a child, and the messages that commit (05 R164 to R168, R176). -/

namespace Sys2Proof.Machine

/- Proofs are elaborated in their order, for the reason given in the first section of this kind. -/
set_option deprecated.oldSectionVars true

/-! An enrolment that fails. -/

theorem packet_of_packetOf {s : State} {src : Nat} {op : Op} {k : Packet} (h : packetOf s src op = some k) :
    (mb s src).packet = some k ∧ k.op = op := by
  unfold packetOf at h
  split at h
  · next p hp =>
    split at h
    · next ho =>
      cases h
      exact ⟨hp, ho⟩
    · nomatch h
  · nomatch h

theorem failWaiting_answers {s : State} {src : Nat} {k : Packet} (st : Nat) (h : (mb s src).packet = some k) :
    failWaiting s src st = reply s src k.op k.tag st [] := by
  rw [failWaiting, h]

/-- The Hub of a block whose slot is invalidated is as it was. -/
theorem hub_invalidateSlot (s : State) (n : Nat) : (invalidateSlot s n).hub = s.hub := by
  unfold invalidateSlot
  dsimp only
  split <;> rfl

/-- A block that is no member holds nothing of the domain once its enrolment has failed; its command is answered. -/
theorem failEnrol_alone {s : State} {e : Enrol} {k : Packet} (st : Nat) (he : s.dom.enrol = some e) (hm : s.dom.member = false)
    (hk : packetOf s e.src .domainEnrol = some k) :
    (failEnrol s st).dom = Domain.reset ∧ (failEnrol s st).links.chord = [] ∧ (failEnrol s st).links.egress = [] ∧ (failEnrol s st).links.ingress = [] ∧
      (mb (failEnrol s st) e.src).replies = (mb s e.src).replies ++ [replyWords (opVal .domainEnrol) st k.tag []] := by
  obtain ⟨hp, ho⟩ := packet_of_packetOf hk
  have hf : failEnrol s st = loseDomain (clearStreams (clearChords
      (if e.joined then invalidateSlot (invalidateSlot (reply s e.src .domainEnrol k.tag st []) 3) 5 else reply s e.src .domainEnrol k.tag st []))) := by
    unfold failEnrol
    rw [he]
    dsimp only
    rw [failWaiting_answers st hp, ho]
    exact if_neg (by rw [show (reply s e.src .domainEnrol k.tag st []).dom = s.dom from rfl, hm]; exact Bool.false_ne_true)
  have hh : (if e.joined then invalidateSlot (invalidateSlot (reply s e.src .domainEnrol k.tag st []) 3) 5
      else reply s e.src .domainEnrol k.tag st []).hub = (reply s e.src .domainEnrol k.tag st []).hub := by
    split
    · rw [hub_invalidateSlot, hub_invalidateSlot]
    · rfl
  rw [hf]
  refine ⟨rfl, rfl, rfl, rfl, ?_⟩
  refine Eq.trans ?_ (replies_reply s e.src .domainEnrol k.tag st [])
  exact congrArg (·.replies) (mb_of_hub hh e.src)

/-- The rows of ENROL_SESSION_TIMEOUT and ENROL_SESSION_RETRY. -/
theorem enrolSession_rows (s : State) (k : Packet) :
    (engUp s = true → fwActs s = false → exec .enrolSessionTimeout s = .next (finish s (quiet s)) ∧ exec .enrolSessionRetry s = .next (finish s (quiet s))) ∧
    (engUp s = true → fwActs s = true → (s.dom.enrol = none → exec .enrolSessionTimeout s = .next (finish s (quiet s)) ∧ exec .enrolSessionRetry s = .next (finish s (quiet s))) ∧
      ∀ e, s.dom.enrol = some e →
        (e.accepted = true → exec .enrolSessionTimeout s = .next (finish s (quiet s)) ∧ exec .enrolSessionRetry s = .next (finish s (quiet s))) ∧
        (e.accepted = false → exec .enrolSessionRetry s = .next (finish s (spdmSend (quiet s) e.parent))) ∧
        (e.accepted = false → s.dom.member = false → packetOf s e.src .domainEnrol = some k → ∃ u, exec .enrolSessionTimeout s = .next (finish s u) ∧
          u.dom = Domain.reset ∧ u.links.chord = [] ∧ u.links.egress = [] ∧ u.links.ingress = [] ∧
          (mb u e.src).replies = (mb s e.src).replies ++ [replyWords (opVal .domainEnrol) stTimeout k.tag []])) := by
  refine ⟨fun h ha => ⟨(runFw_rests h ha : execEnrolSessionTimeout s = _), (runFw_rests h ha : execEnrolSessionRetry s = _)⟩, fun h ha => ?_⟩
  have ht : ∀ u, (if s.dom.enrol.any (fun e => !e.accepted) then failEnrol (quiet s) stTimeout else quiet s) = u →
      exec .enrolSessionTimeout s = .next (finish s u) := fun u hu => (runFw_acts h ha hu : execEnrolSessionTimeout s = _)
  refine ⟨fun hn => ⟨ht _ ?_, (runFw_acts h ha ?_ : execEnrolSessionRetry s = _)⟩, fun e he => ⟨fun hac => ⟨ht _ ?_, (runFw_acts h ha ?_ : execEnrolSessionRetry s = _)⟩,
    fun hac => (runFw_acts h ha ?_ : execEnrolSessionRetry s = _), fun hac hm hk => ?_⟩⟩
  · rw [hn]
    rfl
  · rw [show (quiet s).dom.enrol = none from hn]
  · rw [he]
    exact if_neg (by simp [hac])
  · rw [show (quiet s).dom.enrol = some e from he]
    exact if_pos hac
  · rw [show (quiet s).dom.enrol = some e from he]
    exact if_neg (by rw [hac]; exact Bool.false_ne_true)
  · have hf := failEnrol_alone (s := quiet s) stTimeout he hm hk
    refine ⟨_, ht _ ?_, hf⟩
    rw [he]
    exact if_pos (by simp [hac])

/-! The join of a child. -/

theorem newLink_form (s : State) (v : Nat) (tk : BitVec 256) :
    (newLink s v tk).1.peer = v ∧ (newLink s v tk).1.tk = tk ∧ (newLink s v tk).1.sends = 0 ∧ (newLink s v tk).2.dom = s.dom ∧
      ∀ m, m ≠ sessionSlot → slotAt (newLink s v tk).2 m = slotAt s m := by
  obtain ⟨hk, hs⟩ := sealOwn_frame (freeN s).2 v 1
    (leBytes 4 ((freeN s).1 % 2 ^ 32) ++ leBytes 8 0) (linkBytes { peer := v, id := (freeN s).1 % 2 ^ 32, tk := tk, sends := 0 })
  exact ⟨rfl, rfl, rfl, hk.kept.2.2.2.2.1, hs⟩

/-- A peer's request in a session past FINISH, where its parent's enrolment keeps the connection open. -/
theorem inSession_peer {s u : State} {v n : Nat} {x : Session} {f : State → Session → State × Option SpdmRsp} {r : SpdmRsp}
    (ha : fwActs s = true) (hi : s.fab.inbox = []) (hp : spdmPeer s v = true) (hc : channelUp s = true)
    (hx : sessionOf s (.peer v) n = some x) (hf : x.finish = true) (hu : f (loadSession s n) x = (u, some r)) :
    inSession (.peer v) n f s = spdmSay (markUsed u (.peer v) n) (.peer v) r := by
  have ht : spdmTake s (.peer v) true = some s := by
    unfold spdmTake
    refine (if_neg (by rw [ha]; exact Bool.false_ne_true)).trans ?_
    rw [show popInbox s (isSpdmFrame v) = none by simp [popInbox, hi]]
    exact if_pos hp
  have hl : sessionOf (loadSession s n) (.peer v) n = some x := (sessionOf_loadSession _ _ _ _).trans hx
  refine (spdmRun_answers ht hc (by rw [hx]; rfl) (r := u) (x := r) ?_).trans ?_
  · rw [hl]
    exact (if_pos hf).trans hu
  · rw [if_pos (show finished s (.peer v) n = true by rw [finished, hx]; exact hf)]

section
variable {s : State} {e : Enrol} {n : Nat} {x : Session} {msg : Bytes} (h : engUp s = true) (he : s.dom.enrol = some e) (hj : e.joined = false)
  (hc : e.committed = false) (ha : fwActs s = true) (hi : s.fab.inbox = []) (hu : channelUp s = true) (hx : sessionOf s (.peer e.parent) n = some x)
  (hf : x.finish = true) (hy : x.hybrid = true) (hr : x.requester = true)
include h he hj hc ha hi hu hx hf hy hr

/-- DOMAIN_JOIN, with the answer it gives. -/
theorem domainJoin_says {u : State} {r : SpdmRsp} (hd : domainJoin (loadSession (quiet s) n) e.parent x e msg = (u, some r)) :
    exec (.domainJoin n msg) s = .next (finish s (spdmSay (markUsed u (.peer e.parent) n) (.peer e.parent) r)) := by
  refine (runEng_run h ?_ : execDomainJoin n msg s = _)
  rw [show (quiet s).dom.enrol = some e from he]
  refine (if_neg (by rw [hj]; exact Bool.false_ne_true)).trans ?_
  refine inSession_peer (s := quiet s) (x := x) ha hi ?_ hu hx hf ((if_pos ⟨hy, hr⟩).trans hd)
  unfold spdmPeer pendingParent
  rw [show (quiet s).dom.enrol = some e from he]
  simp [hc]
end

theorem joinKeys_congr {s t : State} (h : t.dom = s.dom) (x : Session) (m : Bytes) : joinKeys t x m = joinKeys s x m := by
  unfold joinKeys ownVertex
  rw [h]

/-- A child that has taken the keys of its parent, and reports itself. -/
def joinedChild (s : State) (e : Enrol) (tk : BitVec 256) (g : Nat) (a b : BitVec 256) : State :=
  let l := newLink s e.parent tk
  let s := fillSlot (fillSlot l.2 3 a 4 4#16 0 0 0) 5 b 5 1#16 0 0 0
  let s := { s with dom := { s.dom with gen := g, parent := some l.1, enrol := some { e with joined := true } } }
  pushCtl s e.parent 8 g (leBytes 2 (s.dom.vertex.getD 0) ++ [0, 0])

theorem joinedChild_slots (s : State) (e : Enrol) (tk : BitVec 256) (g : Nat) (a b : BitVec 256) :
    ((slotAt (joinedChild s e tk g a b) 3).key = a ∧ (slotAt (joinedChild s e tk g a b) 3).state = 1) ∧
      (slotAt (joinedChild s e tk g a b) 5).key = b ∧ (slotAt (joinedChild s e tk g a b) 5).state = 1 := by
  have hk : (joinedChild s e tk g a b).keys = (fillSlot (fillSlot (newLink s e.parent tk).2 3 a 4 4#16 0 0 0) 5 b 5 1#16 0 0 0).keys := rfl
  generalize joinedChild s e tk g a b = u at hk ⊢
  have h3 := (slotAt_congr (show u.keys.slots = _ by rw [hk]) 3).trans ((slotAt_fillSlot_other _ b 5 1#16 0 0 0 (by decide)).trans
    (slotAt_fillSlot_same (newLink s e.parent tk).2 3 a 4 4#16 0 0 0))
  have h5 := (slotAt_congr (show u.keys.slots = _ by rw [hk]) 5).trans
    (slotAt_fillSlot_same (fillSlot (newLink s e.parent tk).2 3 a 4 4#16 0 0 0) 5 b 5 1#16 0 0 0)
  rw [h3, h5]
  exact ⟨⟨rfl, rfl⟩, rfl, rfl⟩

/-- The rows of DOMAIN_JOIN. -/
theorem domainJoin_rows (s : State) (n : Nat) (msg : Bytes) (h : engUp s = true) :
    (s.dom.enrol = none → exec (.domainJoin n msg) s = .next (finish s (quiet s))) ∧
      ∀ e x, s.dom.enrol = some e → e.joined = false → e.committed = false → fwActs s = true → s.fab.inbox = [] → channelUp s = true →
        sessionOf s (.peer e.parent) n = some x → x.finish = true → x.hybrid = true → x.requester = true →
        let no := finish s (spdmSay (markUsed (loadSession (quiet s) n) (.peer e.parent) n) (.peer e.parent) (.content [1#8, 0#8, 0#8, 0#8]))
        (joinKeys s x msg = none → exec (.domainJoin n msg) s = .next no) ∧
        (∀ g a b, joinKeys s x msg = some (g, a, b) → e.reparent = true →
          ((slotAt s 3).key ≠ a ∨ (slotAt s 5).key ≠ b ∨ s.dom.gen ≠ g → exec (.domainJoin n msg) s = .next no) ∧
          ((slotAt s 3).key = a → (slotAt s 5).key = b → s.dom.gen = g → ∃ u l, exec (.domainJoin n msg) s = .next (finish s u) ∧
            u.dom.parent = some l ∧ l.peer = e.parent ∧ l.tk = x.tk ∧ u.dom.role = 1 ∧ u.dom.enrol = some { e with joined := true, committed := true })) ∧
        (∀ g a b, joinKeys s x msg = some (g, a, b) → e.reparent = false → ∃ u l, exec (.domainJoin n msg) s = .next (finish s u) ∧
          (slotAt u 3).key = a ∧ (slotAt u 3).state = 1 ∧ (slotAt u 5).key = b ∧ (slotAt u 5).state = 1 ∧ u.dom.gen = g ∧ u.dom.parent = some l ∧
          l.peer = e.parent ∧ l.tk = x.tk ∧ l.sends = 0 ∧ u.dom.enrol = some { e with joined := true } ∧ u.dom.member = s.dom.member) := by
  refine ⟨fun hn => (runEng_run h (by rw [show (quiet s).dom.enrol = none from hn]) : execDomainJoin n msg s = _),
    fun e x he hj hc ha hi hu hx hf hy hr => ?_⟩
  intro no
  have hl := loaded_loadSession (quiet s) n
  have hd : (loadSession (quiet s) n).dom = s.dom := hl.kept.2.2.1
  have hs : ∀ m, m ≠ sessionSlot → slotAt (loadSession (quiet s) n) m = slotAt s m := hl.2
  have hk := joinKeys_congr hd x msg
  have say : ∀ {u : State} {r : SpdmRsp}, domainJoin (loadSession (quiet s) n) e.parent x e msg = (u, some r) →
      exec (.domainJoin n msg) s = .next (finish s (spdmSay (markUsed u (.peer e.parent) n) (.peer e.parent) r)) :=
    fun hd => domainJoin_says h he hj hc ha hi hu hx hf hy hr hd
  obtain ⟨t, ht⟩ : ∃ t, loadSession (quiet s) n = t := ⟨_, rfl⟩
  have hno : no = finish s (spdmSay (markUsed t (.peer e.parent) n) (.peer e.parent) (.content [1#8, 0#8, 0#8, 0#8])) := by
    rw [← ht]
  rw [hno]
  clear_value no
  rw [ht] at hd hs hk
  simp only [ht] at say
  obtain ⟨l1, l2, l3, l4, l5⟩ := newLink_form t e.parent x.tk
  refine ⟨fun hjk => say ?_, fun g a b hjk hre => ⟨fun hne => say ?_, fun ha3 hb5 hg => ?_⟩, fun g a b hjk hre => ?_⟩
  · unfold domainJoin
    rw [hk, hjk]
    rfl
  · unfold domainJoin
    rw [hk, hjk]
    dsimp only
    rw [if_pos hre, if_neg]
    · rfl
    · rw [hs 3 (by decide), hs 5 (by decide), hd]
      rintro ⟨h1, h2, h3⟩
      exact hne.elim (absurd h1) (fun hne => hne.elim (absurd h2) (absurd h3))
  · have hdj : domainJoin t e.parent x e msg = ({ (newLink t e.parent x.tk).2 with dom := { (newLink t e.parent x.tk).2.dom with
        parent := some (newLink t e.parent x.tk).1, role := 1, enrol := some { e with joined := true, committed := true } } }, joinSay 0) := by
      unfold domainJoin
      rw [hk, hjk]
      dsimp only
      rw [if_pos hre, if_pos]
      rw [hs 3 (by decide), hs 5 (by decide), hd]
      exact ⟨ha3, hb5, hg⟩
    refine ⟨_, (newLink t e.parent x.tk).1, say hdj, ?_⟩
    rw [(saidPeer_kept _ _ _ _).1]
    exact ⟨rfl, l1, l2, rfl, rfl⟩
  · have hdj : domainJoin t e.parent x e msg = (joinedChild t e x.tk g a b, joinSay 0) := by
      unfold domainJoin
      rw [hk, hjk]
      dsimp only
      rw [if_neg (by rw [hre]; exact Bool.false_ne_true)]
      rfl
    refine ⟨_, (newLink t e.parent x.tk).1, say hdj, ?_⟩
    obtain ⟨q1, q2⟩ := saidPeer_kept (joinedChild t e x.tk g a b) e.parent n (.content [0, 0, 0, 0])
    have q3 := slotAt_congr (show (spdmSay (markUsed (joinedChild t e x.tk g a b) (.peer e.parent) n) (.peer e.parent) (.content [0, 0, 0, 0])).keys.slots =
      (joinedChild t e x.tk g a b).keys.slots by rw [q2])
    rw [q1, q3, q3]
    obtain ⟨⟨j1, j2⟩, j3, j4⟩ := joinedChild_slots t e x.tk g a b
    exact ⟨j1, j2, j3, j4, rfl, rfl, l1, l2, l3, rfl, by rw [← hd, ← l4]; rfl⟩

end Sys2Proof.Machine
end

section
/-! SUPPORT. The messages that report and commit a vertex (05 R166, R176). -/

namespace Sys2Proof.Machine

/- Proofs are elaborated in their order, for the reason given in the first section of this kind. -/
set_option deprecated.oldSectionVars true

/-- A domain control message that is taken: its command's effect on the state without it. -/
theorem ctl_runs {s u : State} {f : InFrame} {i : Instr} {code gen len : Nat} {F : State → Nat → Bytes → State} {g : State → Nat}
    (h : ctlIn s f code gen len = true) (hx : exec i s = runFw (fun s => ctlRun code (g s) len F s) s) (hg : g (quiet s) = gen)
    (hu : F (ctlOut s) f.hdr.src (f.payload.drop 16) = u) : exec i s = .next (finish s u) := by
  rw [hx]
  refine runFw_acts (engUp_of_ctlIn h).1 (engUp_of_ctlIn h).2 ?_
  show ctlRun code (g (quiet s)) len F (quiet s) = u
  rw [hg]
  exact (ctlRun_takes F h).trans hu

/-! The answer to a vertex. -/

/-- The report of a vertex enrolling at this block notes the vertex itself as the one that asked. -/
def askedBy (s : State) (v : Nat) : State := { s with dom := { s.dom with asked := tset s.dom.asked v v } }

theorem answerTo_askedBy (s : State) (v : Nat) : answerTo (askedBy s v) v = some v := by
  unfold answerTo
  rw [show tget (askedBy s v).dom.asked v = some v from tget_tset_same _ _ _]

/-- A commit of a child that asked: its entry is committed. -/
theorem sendCommit_commits (s : State) (v : Nat) (h : answerTo s v = some v) :
    (sendCommit s v 0).dom.enrolled = s.dom.enrolled ∧
      (sendCommit s v 0).dom.children = tmod s.dom.children v (fun x => if v = v then { x with committed := true } else { x with below := x.below + 1 }) := by
  unfold sendCommit
  rw [h]
  exact ⟨rfl, rfl⟩

/-- A refusal of a child that asked: it is no child any more. -/
theorem sendCommit_refuses (s : State) (v : Nat) (h : answerTo s v = some v) :
    (sendCommit s v 1).dom.enrolled = s.dom.enrolled ∧ (sendCommit s v 1).dom.children = tdel s.dom.children v := by
  unfold sendCommit
  rw [h]
  dsimp only
  rw [if_neg (by decide), if_pos rfl]
  exact ⟨rfl, rfl⟩

theorem enrolledMsg_stranger (s : State) (src v : Nat) (h : tget s.dom.children src = none) : enrolledMsg s src v = s := by
  rw [enrolledMsg, h]

theorem enrolledMsg_lead (s : State) (v : Nat) {c : Child} (h : tget s.dom.children v = some c) (hr : s.dom.role = 2) :
    enrolledMsg s v v = leadEnrolled (askedBy s v) v := by
  unfold enrolledMsg
  rw [h]
  dsimp only
  rw [if_pos (show v = v ∨ c.via.contains v = true from .inl rfl)]
  exact if_pos hr

theorem enrolledMsg_member (s : State) (v : Nat) {c : Child} {l : Link} (h : tget s.dom.children v = some c) (hr : s.dom.role ≠ 2)
    (hl : s.dom.parent = some l) : enrolledMsg s v v = pushCtl (askedBy s v) l.peer 8 s.dom.gen (leBytes 2 v ++ [0#8, 0#8]) := by
  unfold enrolledMsg
  rw [h]
  dsimp only
  rw [if_pos (show v = v ∨ c.via.contains v = true from .inl rfl)]
  refine (if_neg hr).trans ?_
  split
  · next m hm =>
    cases hm.symm.trans hl
    rfl
  · next hm => nomatch hm.symm.trans hl

theorem leadEnrolled_commits (s : State) (v : Nat) (ha : s.dom.allMarked = false) (he : s.dom.enrolled.contains v = false)
    (hh : s.dom.held.contains v = false) (hr : s.dom.rekey = none) :
    leadEnrolled s v = sendCommit { s with dom := { s.dom with enrolled := s.dom.enrolled ++ [v] } } v 0 := by
  unfold leadEnrolled
  rw [ha, he, hh, hr]
  exact (if_neg (by simp)).trans (if_neg Bool.false_ne_true)

theorem leadEnrolled_refuses (s : State) (v : Nat) (he : s.dom.enrolled.contains v = true) : leadEnrolled s v = sendCommit s v 1 :=
  if_pos (.inr (.inl he))

theorem tget_single {α : Type} (k : Nat) (x : α) : tget [(k, x)] k = some x := by
  simp [tget]

/-- The rows of ENROLLED_RX. -/
theorem enrolled_rows (s : State) (f : InFrame) (h : ctlIn s f 8 s.dom.gen 4 = true) : let v := leAt (f.payload.drop 16) 0 2
    (tget s.dom.children f.hdr.src = none → exec .enrolledRx s = .next (finish s (ctlOut s))) ∧
      (∀ c, s.dom.children = [(v, c)] → f.hdr.src = v → s.dom.role = 2 → s.dom.rekey = none →
        (s.dom.allMarked = false → s.dom.enrolled.contains v = false → s.dom.held.contains v = false → ∃ u, exec .enrolledRx s = .next (finish s u) ∧
          u.dom.enrolled = s.dom.enrolled ++ [v] ∧ u.dom.children = [(v, { c with committed := true })]) ∧
        (s.dom.enrolled.contains v = true → ∃ u, exec .enrolledRx s = .next (finish s u) ∧ u.dom.enrolled = s.dom.enrolled ∧ u.dom.children = [])) ∧
      (∀ c l, s.dom.children = [(v, c)] → f.hdr.src = v → s.dom.role ≠ 2 → s.dom.parent = some l →
        exec .enrolledRx s = .next (finish s (pushCtl { ctlOut s with dom := { s.dom with asked := tset s.dom.asked v v } } l.peer 8 s.dom.gen (leBytes 2 v ++ [0#8, 0#8])))) := by
  intro v
  have run : ∀ {u : State}, enrolledMsg (ctlOut s) f.hdr.src v = u → exec .enrolledRx s = .next (finish s u) :=
    fun hu => ctl_runs h (g := fun s => s.dom.gen) (enrolledRx_form s) rfl hu
  have one : ∀ {c : Child}, s.dom.children = [(v, c)] → tget (ctlOut s).dom.children v = some c := fun hc => by
    rw [show (ctlOut s).dom.children = s.dom.children from rfl, hc, tget_single]
  refine ⟨fun hn => run (enrolledMsg_stranger _ _ _ hn), fun c hc hs hr hk => ⟨fun ha he hh => ?_, fun he => ?_⟩, fun c l hc hs hr hl => run ?_⟩
  · have hu := enrolledMsg_lead (ctlOut s) v (one hc) hr
    rw [leadEnrolled_commits (askedBy (ctlOut s) v) v ha he hh hk] at hu
    obtain ⟨h1, h2⟩ := sendCommit_commits { askedBy (ctlOut s) v with dom := { (askedBy (ctlOut s) v).dom with enrolled := s.dom.enrolled ++ [v] } } v
      (answerTo_askedBy (ctlOut s) v)
    refine ⟨_, run (by rw [hs]; exact hu), h1, h2.trans ?_⟩
    show tmod s.dom.children v _ = _
    rw [hc]
    simp [tmod]
  · have hu := enrolledMsg_lead (ctlOut s) v (one hc) hr
    rw [leadEnrolled_refuses (askedBy (ctlOut s) v) v he] at hu
    obtain ⟨h1, h2⟩ := sendCommit_refuses (askedBy (ctlOut s) v) v (answerTo_askedBy (ctlOut s) v)
    refine ⟨_, run (by rw [hs]; exact hu), h1, h2.trans ?_⟩
    show tdel s.dom.children v = []
    rw [hc]
    simp [tdel]
  · rw [hs]
    exact enrolledMsg_member (ctlOut s) v (one hc) hr hl

/-! COMMIT. -/

theorem commitMsg_stranger (s : State) (src v r : Nat) (h : fromParent s src = false) : commitMsg s src v r = s :=
  if_pos (by rw [show s.dom.parent.any (fun l => l.peer == src) = false from h]; rfl)

section
variable {s : State} {src v : Nat} (hp : fromParent s src = true)
include hp

theorem commitMsg_parent (r : Nat) : commitMsg s src v r = if !ownVertex s v then sendCommit s v r
    else if r = 0 then
      if s.dom.enrol.any (fun e => e.joined && !e.committed) then
        sendJoins { s with dom := { s.dom with member := true, role := 1, enrol := s.dom.enrol.map (fun e => { e with committed := true }) } }
      else s
    else if s.dom.member then leaveWithChildren s else failEnrol s stNotPermitted :=
  if_neg (by rw [show s.dom.parent.any (fun l => l.peer == src) = true from hp]; exact Bool.false_ne_true)

theorem commitMsg_passes (r : Nat) (h : ownVertex s v = false) : commitMsg s src v r = sendCommit s v r :=
  (commitMsg_parent hp r).trans (if_pos (by rw [h]; rfl))

theorem commitMsg_own (r : Nat) (h : ownVertex s v = true) : commitMsg s src v r = if r = 0 then
      if s.dom.enrol.any (fun e => e.joined && !e.committed) then
        sendJoins { s with dom := { s.dom with member := true, role := 1, enrol := s.dom.enrol.map (fun e => { e with committed := true }) } }
      else s
    else if s.dom.member then leaveWithChildren s else failEnrol s stNotPermitted :=
  (commitMsg_parent hp r).trans (if_neg (by rw [h]; exact Bool.false_ne_true))
end

/-- Without children nobody waits for a DOMAIN_JOIN. -/
theorem sendJoins_childless {s : State} (h : s.dom.children = []) : sendJoins s = s := by
  unfold sendJoins
  split
  · rfl
  · rw [h]
    rfl

theorem leaveWithChildren_childless {s : State} (h : s.dom.children = []) : leaveWithChildren s = { s with dom := { s.dom with leaving := true } } := by
  unfold leaveWithChildren
  rw [h]
  rfl

/-- The rows of COMMIT_RX. -/
theorem commit_rows (s : State) (f : InFrame) (h : ctlIn s f 9 s.dom.gen 4 = true) : let v := leAt (f.payload.drop 16) 0 2; let result := leAt (f.payload.drop 16) 2 1
    (fromParent s f.hdr.src = false → exec .commitRx s = .next (finish s (ctlOut s))) ∧
      (fromParent s f.hdr.src = true → ownVertex s v = false → exec .commitRx s = .next (finish s (sendCommit (ctlOut s) v result))) ∧
      (∀ e, fromParent s f.hdr.src = true → ownVertex s v = true → result = 0 → s.dom.enrol = some e → e.joined = true → e.committed = false →
        s.dom.children = [] → ∃ u, exec .commitRx s = .next (finish s u) ∧ u.dom.member = true ∧ u.dom.role = 1 ∧
          u.dom.enrol = some { e with committed := true } ∧ u.keys = s.keys) ∧
      (fromParent s f.hdr.src = true → ownVertex s v = true → result ≠ 0 → s.dom.member = false →
        exec .commitRx s = .next (finish s (failEnrol (ctlOut s) stNotPermitted))) ∧
      (fromParent s f.hdr.src = true → ownVertex s v = true → result ≠ 0 → s.dom.member = true → s.dom.children = [] →
        exec .commitRx s = .next (finish s { ctlOut s with dom := { s.dom with leaving := true } })) := by
  intro v result
  have run : ∀ {u : State}, commitMsg (ctlOut s) f.hdr.src v result = u → exec .commitRx s = .next (finish s u) :=
    fun hu => ctl_runs h (g := fun s => s.dom.gen) (commitRx_form s) rfl hu
  refine ⟨fun hp => run (commitMsg_stranger _ _ _ _ hp), fun hp ho => run (commitMsg_passes (s := ctlOut s) hp _ ho),
    fun e hp ho hr he hj hc hn => ?_, fun hp ho hr hm => run ?_, fun hp ho hr hm hn => run ?_⟩
  · have hu := (commitMsg_own (s := ctlOut s) hp result ho).trans ((if_pos hr).trans ((if_pos (by
      rw [show (ctlOut s).dom.enrol = some e from he]
      simp [hj, hc])).trans (sendJoins_childless hn)))
    refine ⟨_, run hu, rfl, rfl, ?_, rfl⟩
    show s.dom.enrol.map _ = _
    rw [he]
    rfl
  · exact (commitMsg_own (s := ctlOut s) hp result ho).trans ((if_neg hr).trans (if_neg (by
      rw [show (ctlOut s).dom.member = false from hm]
      exact Bool.false_ne_true)))
  · exact (commitMsg_own (s := ctlOut s) hp result ho).trans ((if_neg hr).trans ((if_pos hm).trans (leaveWithChildren_childless hn)))

/-- Settles O42: the command and the session of an enrolment, the join of a child, and the messages about a vertex. -/
theorem enrolment : Obligations.Enrolment :=
  ⟨fun s src k sigs => ⟨domainEnrol_rows s src k sigs, enrolSession_rows s k⟩,
    fun s f n msg => ⟨domainJoin_rows s n msg, enrolled_rows s f, commit_rows s f⟩⟩

end Sys2Proof.Machine
end

section
/-! SUPPORT. The switch of a domain rekey, the end of its old generation, and the rows of its messages and timers (05 R174 to R176). -/

namespace Sys2Proof.Machine

/- Proofs are elaborated in their order, for the reason given in the first section of this kind. -/
set_option deprecated.oldSectionVars true

/-- A relation that every step of a fold keeps holds between its ends. -/
theorem foldl_rel {α β : Type} {R : β → β → Prop} (hr : ∀ b, R b b) (ht : ∀ {a b c}, R a b → R b c → R a c) {f : β → α → β}
    (h : ∀ b x, R b (f b x)) (l : List α) (b : β) : R b (l.foldl f b) := by
  induction l generalizing b with
  | nil => exact hr b
  | cons x l ih => exact ht (h b x) (ih (f b x))

/-! Frames of the domain and of reductions. -/

/-- Only queued frames and reduction stages differ. -/
def Requeued (s t : State) : Prop := ∃ q g, t = { s with fab := { s.fab with txq := q }, red := { s.red with stages := g } }

theorem Requeued.refl (s : State) : Requeued s s := ⟨s.fab.txq, s.red.stages, rfl⟩

theorem Requeued.trans {s t u : State} (a : Requeued s t) (b : Requeued t u) : Requeued s u := by
  obtain ⟨q, g, rfl⟩ := a
  obtain ⟨q', g', rfl⟩ := b
  exact ⟨q', g', rfl⟩

theorem requeued_pushCtl (s : State) (v c g : Nat) (b : Bytes) : Requeued s (pushCtl s v c g b) := ⟨_, s.red.stages, rfl⟩

theorem requeued_toChildren (s : State) (c g : Nat) : Requeued s (toChildren s c g) :=
  foldl_rel Requeued.refl Requeued.trans (fun s x => by
    split
    · exact requeued_pushCtl s _ _ _ _
    · exact .refl s) _ s

theorem requeued_pushStart (s : State) (d : Nat) : Requeued s (pushStart s d) := by
  unfold pushStart
  split
  · exact .refl s
  · exact ⟨_, _, rfl⟩

theorem requeued_reduceSwitch (s : State) : Requeued s (reduceSwitch s) := by
  refine foldl_rel Requeued.refl Requeued.trans (fun s x => ?_) _ s
  split
  · exact .refl s
  · dsimp only
    split
    · exact .refl s
    · split
      · exact ⟨_, _, rfl⟩
      · exact Requeued.trans ⟨_, _, rfl⟩ (requeued_pushStart _ _)

/-! The switch. -/

/-- The key store after a switch: slot 3 moves to slot 4, slot 6 to slot 3, and slot 6 is cleared. -/
def switchSlots (s : State) : Tbl Slot :=
  tset (tset (tset s.keys.slots 4 { slotAt s 3 with gen := min ((slotAt s 4).gen + 1) genMax })
    3 { slotAt s 6 with gen := min ((slotAt s 3).gen + 1) genMax }) 6 (raiseGen (slotAt s 6) 0)

/-- What the switch does beyond queueing frames. -/
def switched (s : State) (n : Nat) : State :=
  let t := switchChords { s with keys := { s.keys with slots := switchSlots s } } (s.dom.gen % 2 == 1)
  { t with dom := { s.dom with
    gen := n, enrolled := if s.dom.role == 2 then [] else s.dom.enrolled, allMarked := s.dom.allMarked && !(s.dom.role == 2)
    rekey := s.dom.rekey.map (fun r => { r with phase := .switching, switchAt := s.aon.ts }) } }

theorem requeued_doSwitch (s : State) (n : Nat) : Requeued (switched s n) (doSwitch s n) :=
  (requeued_toChildren _ 3 n).trans (requeued_reduceSwitch _)

theorem raiseGen_key (k : Slot) (b : Nat) : (raiseGen k b).key = 0 := by
  unfold raiseGen
  split <;> rfl

theorem slotAt_switched (s : State) (n i : Nat) : slotAt (switched s n) i = if i = 6 then raiseGen (slotAt s 6) 0 else
    if i = 3 then { slotAt s 6 with gen := min ((slotAt s 3).gen + 1) genMax } else
    if i = 4 then { slotAt s 3 with gen := min ((slotAt s 4).gen + 1) genMax } else slotAt s i := by
  show tgetD (switchSlots s) i Slot.zero = _
  unfold switchSlots
  split
  · next h => rw [h, tgetD_tset_same]
  · next h =>
    rw [tgetD_tset_other _ _ _ _ _ h]
    split
    · next h => rw [h, tgetD_tset_same]
    · next h =>
      rw [tgetD_tset_other _ _ _ _ _ h]
      split
      · next h => rw [h, tgetD_tset_same]
      · next h => exact tgetD_tset_other _ _ _ _ _ h

theorem slotAt_doSwitch (s : State) (n i : Nat) : slotAt (doSwitch s n) i = slotAt (switched s n) i := by
  obtain ⟨q, g, e⟩ := requeued_doSwitch s n
  rw [e]
  rfl

/-- The rows of the switch itself. -/
theorem doSwitch_rows (t : State) (n : Nat) : let u := doSwitch t n
    u.dom.gen = n ∧ (slotAt u 4).key = (slotAt t 3).key ∧ (slotAt u 3).key = (slotAt t 6).key ∧ (slotAt u 6).key = 0 ∧ u.links.chord = [] ∧
    u.dom.member = t.dom.member ∧ u.dom.vertex = t.dom.vertex ∧ u.mem = t.mem ∧ u.parts = t.parts ∧
    (∀ i, i ≠ 3 → i ≠ 4 → i ≠ 6 → slotAt u i = slotAt t i) := by
  intro u
  have hs : ∀ i, slotAt u i = _ := fun i => (slotAt_doSwitch t n i).trans (slotAt_switched t n i)
  obtain ⟨q, g, e⟩ := requeued_doSwitch t n
  have hu : u = doSwitch t n := rfl
  rw [e] at hu
  refine ⟨by rw [hu]; rfl, by rw [hs]; rfl, by rw [hs]; rfl, by rw [hs]; exact raiseGen_key _ _, by rw [hu]; rfl, by rw [hu]; rfl, by rw [hu]; rfl,
    by rw [hu]; rfl, by rw [hu]; rfl, fun i h3 h4 h6 => ?_⟩
  rw [hs, if_neg h6, if_neg h3, if_neg h4]

/-! A rekey that goes on. -/

theorem checkSwitch_idle (s : State) (h : s.dom.rekey = none) : checkSwitch s = s := by
  rw [checkSwitch, h]

theorem checkDist_idle (s : State) (h : s.dom.rekey = none) : checkDist s = s := by
  rw [checkDist, h]

theorem checkDrain_idle (s : State) (h : s.dom.rekey = none) : checkDrain s = s := by
  rw [checkDrain, h]

theorem checkDist_other (s : State) {r : Rekey} (h : s.dom.rekey = some r) (hp : r.phase ≠ .distribute) : checkDist s = s := by
  rw [checkDist, h]
  exact if_pos (.inl hp)

/-- Without children, the key is held by the whole subtree. -/
theorem checkDist_lead (s : State) {r : Rekey} {n : Nat} (h : s.dom.rekey = some r) (hp : r.phase = .distribute) (hd : r.distSent = false)
    (hn : r.src = some n) (hc : s.dom.children = []) : checkDist s = checkSwitch (doSwitch s r.target) := by
  rw [checkDist, h]
  dsimp only
  rw [if_neg (by simp [hp, hd, childrenAll, hc]), hn]

theorem checkDist_member (s : State) {r : Rekey} (h : s.dom.rekey = some r) (hp : r.phase = .distribute) (hd : r.distSent = false)
    (hn : r.src = none) (hc : s.dom.children = []) :
    checkDist s = toParent (modRekey s (fun r => { r with distSent := true, distAt := s.aon.ts })) 2 r.target (countUp s (·.dist)) := by
  rw [checkDist, h]
  dsimp only
  rw [if_neg (by simp [hp, hd, childrenAll, hc]), hn]

theorem checkSwitch_lead (s : State) {r : Rekey} {n : Nat} {k : Packet} (h : s.dom.rekey = some r) (hp : r.phase = .switching)
    (hn : r.src = some n) (hc : s.dom.children = []) (hk : packetOf s n .domainRekey = some k) : checkSwitch s =
      sendJoins (releaseHeld (reply (modRekey s (fun r => { r with phase := .draining })) n .domainRekey k.tag stOk
        [toW s.dom.gen, toW (childSum s (·.switched) % 2 ^ 17)])) := by
  rw [checkSwitch, h]
  dsimp only
  rw [if_neg (by simp [hp, childrenAll, hc]), hn]
  dsimp only
  rw [show packetOf (modRekey s _) n .domainRekey = some k from hk]
  rfl

theorem checkSwitch_member (s : State) {r : Rekey} (h : s.dom.rekey = some r) (hp : r.phase = .switching) (hn : r.src = none)
    (hc : s.dom.children = []) : checkSwitch s = toParent (modRekey s (fun r => { r with phase := .draining })) 4 s.dom.gen
      (countUp (modRekey s (fun r => { r with phase := .draining })) (·.switched)) := by
  rw [checkSwitch, h]
  dsimp only
  rw [if_neg (by simp [hp, childrenAll, hc]), hn]
  refine sendJoins_childless ?_
  unfold toParent
  split <;> exact hc

theorem releaseHeld_none (s : State) (h : s.dom.held = []) : releaseHeld s = { s with dom := { s.dom with held := [] } } := by
  rw [releaseHeld, h]
  rfl

theorem requeued_toParent (s : State) (c g : Nat) (b : Bytes) : Requeued s (toParent s c g b) := by
  unfold toParent
  split
  · exact requeued_pushCtl s _ _ _ _
  · exact .refl s

end Sys2Proof.Machine
end

section
/-! SUPPORT. BCP_DOMAIN_REKEY and the messages that distribute and switch (05 R174, R176). -/

namespace Sys2Proof.Machine

/- Proofs are elaborated in their order, for the reason given in the first section of this kind. -/
set_option deprecated.oldSectionVars true

/-- The rekey that a distribution starts. -/
def freshRekey (target : Nat) (src : Option Nat) : Rekey :=
  { phase := .distribute, target := target, src := src, distSent := false, distAt := 0, switchAt := 0, ownDrained := false, drainSent := false }

/-- A block with the new key pending in slot 6, before it forwards it. -/
def pending6 (s : State) (target : Nat) (key : BitVec 256) (src : Option Nat) : State :=
  let s := fillSlot s 6 key 4 4#16 0 0 0
  { s with dom := { s.dom with rekey := some (freshRekey target src) } }

/-- Without children the key need not be forwarded. -/
theorem distribute_childless (s : State) (target : Nat) (key : BitVec 256) (src : Option Nat) (hc : s.dom.children = []) :
    distribute s target key src = checkDist (pending6 s target key src) := by
  have hp : pending6 s target key src = { fillSlot s 6 key 4 4#16 0 0 0 with dom := { s.dom with
      rekey := some (freshRekey target src)
      children := tmapV s.dom.children (fun _ c => { c with dist := none, switched := none, drained := none }) } } := by
    rw [hc]
    show _ = { fillSlot s 6 key 4 4#16 0 0 0 with dom := { s.dom with rekey := some (freshRekey target src), children := [] } }
    rw [← hc]
    rfl
  rw [hp]
  unfold distribute
  dsimp only
  rw [show (fillSlot s 6 key 4 4#16 0 0 0).dom = s.dom from rfl, hc]
  rfl

theorem slotAt_pending6 (s : State) (target : Nat) (key : BitVec 256) (src : Option Nat) :
    (slotAt (pending6 s target key src) 6).key = key ∧ ∀ i, i ≠ 6 → slotAt (pending6 s target key src) i = slotAt s i := by
  have h : ∀ i, slotAt (pending6 s target key src) i = slotAt (fillSlot s 6 key 4 4#16 0 0 0) i := fun _ => rfl
  refine ⟨?_, fun i hi => (h i).trans (slotAt_fillSlot_other _ _ _ _ _ _ _ hi)⟩
  rw [h, slotAt_fillSlot_same]

/-- The member's part: the key is held, and the parent told so. -/
theorem distribute_member (s : State) (target : Nat) (key : BitVec 256) (hc : s.dom.children = []) :
    ∃ r, (distribute s target key none).dom.rekey = some r ∧ r.phase = .distribute ∧ r.distSent = true ∧ (slotAt (distribute s target key none) 6).key = key := by
  have e := (distribute_childless s target key none hc).trans (checkDist_member (pending6 s target key none) (r := freshRekey target none) rfl rfl rfl rfl hc)
  obtain ⟨q, g, h⟩ := requeued_toParent (modRekey (pending6 s target key none) (fun r => { r with distSent := true, distAt := s.aon.ts })) 2 target
    (countUp (pending6 s target key none) (·.dist))
  have e' : distribute s target key none = _ := e.trans h
  rw [e']
  exact ⟨_, rfl, rfl, rfl, (slotAt_pending6 s target key none).1⟩

/-! BCP_DOMAIN_REKEY. -/

section
variable (s : State) (src : Nat) (k : Packet)

theorem domainRekey_outsider (h : s.dom.role ≠ 2 ∨ s.dom.member = false) :
    domainRekey s src k = reply s src .domainRekey k.tag stNotPermitted [] := if_pos (by simpa using h)

variable (hr : s.dom.role = 2) (hm : s.dom.member = true)
include hr hm

theorem domainRekey_last (hg : s.dom.gen = 0xFFFFFFFF) : domainRekey s src k = reply s src .domainRekey k.tag stKeyExhausted [] :=
  (if_neg (by simp [hr, hm])).trans (if_pos hg)

variable (hg : s.dom.gen ≠ 0xFFFFFFFF)
include hg

theorem domainRekey_jump (ht : (pw k.params 0).toNat ≠ s.dom.gen + 1) : domainRekey s src k = reply s src .domainRekey k.tag stBadParam [] :=
  (if_neg (by simp [hr, hm])).trans ((if_neg hg).trans (if_pos ht))

variable (ht : (pw k.params 0).toNat = s.dom.gen + 1)
include ht

theorem domainRekey_busy (hk : s.dom.rekey.isSome = true) : domainRekey s src k = reply s src .domainRekey k.tag stBusy [] :=
  (if_neg (by simp [hr, hm])).trans ((if_neg hg).trans ((if_neg (not_not.mpr ht)).trans (if_pos hk)))

theorem domainRekey_unsafe (hk : s.dom.rekey = none) (hd : s.hub.drbgRefuse = true) :
    domainRekey s src k = reply s src .domainRekey k.tag stInternal [] :=
  (if_neg (by simp [hr, hm])).trans ((if_neg hg).trans ((if_neg (not_not.mpr ht)).trans ((if_neg (by rw [hk]; exact Bool.false_ne_true)).trans (if_pos hd))))

theorem domainRekey_starts (hk : s.dom.rekey = none) (hd : s.hub.drbgRefuse = false) : domainRekey s src k =
    distribute (startBg (draw s 32).2 src .domainRekey [.domain]) (pw k.params 0).toNat (keyOf (draw s 32).1) (some src) :=
  (if_neg (by simp [hr, hm])).trans ((if_neg hg).trans ((if_neg (not_not.mpr ht)).trans ((if_neg (by rw [hk]; exact Bool.false_ne_true)).trans
    (if_neg (by rw [hd]; exact Bool.false_ne_true)))))
end

/-- A Lead without children switches at once, and answers. -/
theorem distribute_lead (s : State) (src target : Nat) (key : BitVec 256) (k : Packet) (hc : s.dom.children = []) (hh : s.dom.held = [])
    (hk : packetOf s src .domainRekey = some k) : let u := distribute s target key (some src)
    ∃ r, u.dom.gen = target ∧ u.dom.rekey = some r ∧ r.phase = .draining ∧ (slotAt u 4).key = (slotAt s 3).key ∧
      (mb u src).replies = (mb s src).replies ++ [replyWords (opVal .domainRekey) stOk k.tag [toW target, 0]] := by
  have e := (distribute_childless s target key (some src) hc).trans
    (checkDist_lead (pending6 s target key (some src)) (r := freshRekey target (some src)) rfl rfl rfl rfl hc)
  have h4 : (slotAt (doSwitch (pending6 s target key (some src)) target) 4).key = (slotAt s 3).key := by
    rw [(doSwitch_rows (pending6 s target key (some src)) target).2.1, (slotAt_pending6 s target key (some src)).2 3 (by decide)]
  obtain ⟨q, g, h⟩ := requeued_doSwitch (pending6 s target key (some src)) target
  have e' : distribute s target key (some src) = checkSwitch (doSwitch (pending6 s target key (some src)) target) := e
  intro u
  have hu : u = checkSwitch (doSwitch (pending6 s target key (some src)) target) := e'
  clear_value u
  have hd : (doSwitch (pending6 s target key (some src)) target).dom = (switched (pending6 s target key (some src)) target).dom := by rw [h]
  have hb : (doSwitch (pending6 s target key (some src)) target).hub = s.hub := by rw [h]; rfl
  generalize doSwitch (pending6 s target key (some src)) target = w at hu h4 hd hb
  have hwc : w.dom.children = [] := by rw [hd]; exact hc
  have hwh : w.dom.held = [] := by rw [hd]; exact hh
  have hR := releaseHeld_none (reply (modRekey w (fun r => { r with phase := .draining })) src .domainRekey k.tag stOk
    [toW w.dom.gen, toW (childSum w (·.switched) % 2 ^ 17)]) hwh
  have hx := checkSwitch_lead w (r := { freshRekey target (some src) with phase := .switching, switchAt := s.aon.ts }) (n := src) (k := k)
    (by rw [hd]; rfl) rfl rfl hwc (by unfold packetOf; rw [mb_of_hub hb]; exact hk)
  replace hx := hx.trans ((congrArg sendJoins hR).trans (sendJoins_childless hwc))
  rw [hu, hx]
  refine ⟨{ freshRekey target (some src) with phase := .draining, switchAt := s.aon.ts }, ?_, ?_, rfl, h4, ?_⟩
  · show w.dom.gen = target
    rw [hd]
    rfl
  · show w.dom.rekey.map _ = _
    rw [hd]
    rfl
  · refine (replies_reply _ src .domainRekey k.tag stOk _).trans ?_
    rw [show (mb (modRekey w (fun r => { r with phase := .draining })) src).replies = (mb s src).replies by
      show (mb w src).replies = _
      rw [mb_of_hub hb]]
    rw [show w.dom.gen = target by rw [hd]; rfl, childSum, hwc]
    rfl

/-- The rows of BCP_DOMAIN_REKEY. -/
theorem domainRekey_rows (s : State) (src : Nat) (k : Packet) (h : takes s src .domainRekey k = true) :
    (s.dom.role ≠ 2 ∨ s.dom.member = false → exec (.bcpDomainRekey src) s = .next (finish s (reply (taken s src) src .domainRekey k.tag stNotPermitted []))) ∧
      (s.dom.role = 2 → s.dom.member = true → s.dom.gen = 0xFFFFFFFF →
        exec (.bcpDomainRekey src) s = .next (finish s (reply (taken s src) src .domainRekey k.tag stKeyExhausted []))) ∧
      (s.dom.role = 2 → s.dom.member = true → s.dom.gen ≠ 0xFFFFFFFF → (pw k.params 0).toNat ≠ s.dom.gen + 1 →
        exec (.bcpDomainRekey src) s = .next (finish s (reply (taken s src) src .domainRekey k.tag stBadParam []))) ∧
      (s.dom.role = 2 → s.dom.member = true → s.dom.gen ≠ 0xFFFFFFFF → (pw k.params 0).toNat = s.dom.gen + 1 → s.dom.rekey.isSome = true →
        exec (.bcpDomainRekey src) s = .next (finish s (reply (taken s src) src .domainRekey k.tag stBusy []))) ∧
      (s.dom.role = 2 → s.dom.member = true → s.dom.gen ≠ 0xFFFFFFFF → (pw k.params 0).toNat = s.dom.gen + 1 → s.dom.rekey = none → s.hub.drbgRefuse = false →
        s.dom.children = [] → s.dom.held = [] → ∃ u r, exec (.bcpDomainRekey src) s = .next (finish s u) ∧ u.dom.gen = s.dom.gen + 1 ∧ u.dom.rekey = some r ∧
          r.phase = .draining ∧ (slotAt u 4).key = (slotAt s 3).key ∧
          (mb u src).replies = (mb s src).replies ++ [replyWords (opVal .domainRekey) stOk k.tag [toW (s.dom.gen + 1), 0]]) ∧
      (s.dom.role = 2 → s.dom.member = true → s.dom.gen ≠ 0xFFFFFFFF → (pw k.params 0).toNat = s.dom.gen + 1 → s.dom.rekey = none → s.hub.drbgRefuse = true →
        exec (.bcpDomainRekey src) s = .next (finish s (reply (taken s src) src .domainRekey k.tag stInternal []))) := by
  have he : ∀ {u}, domainRekey (taken s src) src k = u → exec (.bcpDomainRekey src) s = .next (finish s u) :=
    fun hu => (runCmd_takes h hu : execBcpDomainRekey src s = _)
  have hk : packetOf s src .domainRekey = some k := by
    simp only [takes, Bool.and_eq_true, beq_iff_eq] at h
    obtain ⟨⟨⟨⟨-, hp⟩, -⟩, -⟩, -⟩ := h
    exact hp
  refine ⟨fun hn => he (domainRekey_outsider _ src k hn), fun hr hm hg => he (domainRekey_last _ src k hr hm hg),
    fun hr hm hg ht => he (domainRekey_jump _ src k hr hm hg ht), fun hr hm hg ht hb => he (domainRekey_busy _ src k hr hm hg ht hb),
    fun hr hm hg ht hb hd hc hh => ?_, fun hr hm hg ht hb hd => he (domainRekey_unsafe _ src k hr hm hg ht hb hd)⟩
  have hx := he (domainRekey_starts (taken s src) src k hr hm hg ht hb hd)
  obtain ⟨r, h1, h2, h3, h4, h5⟩ := distribute_lead (startBg (draw (taken s src) 32).2 src .domainRekey [.domain]) src (pw k.params 0).toNat
    (keyOf (draw (taken s src) 32).1) k hc hh hk
  generalize distribute (startBg (draw (taken s src) 32).2 src .domainRekey [.domain]) (pw k.params 0).toNat
    (keyOf (draw (taken s src) 32).1) (some src) = u at hx h1 h2 h4 h5
  rw [ht] at h1 h5
  exact ⟨u, r, hx, h1, h2, h3, h4, h5⟩

end Sys2Proof.Machine
end

section
/-! SUPPORT. The messages and timers of a domain rekey (05 R174 to R176). -/

namespace Sys2Proof.Machine

/- Proofs are elaborated in their order, for the reason given in the first section of this kind. -/
set_option deprecated.oldSectionVars true

/-! The messages that distribute and switch. -/

theorem distTaken_ignored (s : State) (v : Nat) (b : Bytes) (h : fromParent s v = false ∨ s.dom.rekey.isSome = true) : distTaken s v b = s :=
  if_pos (by simpa using h)

theorem fromParent_of {s : State} {l : Link} {v : Nat} (h : s.dom.parent = some l) (hv : l.peer = v) : fromParent s v = true := by
  simp [fromParent, h, hv]

theorem distTaken_parent (s : State) {v : Nat} (b : Bytes) {l : Link} (h : s.dom.parent = some l) (hv : l.peer = v) (hr : s.dom.rekey = none) :
    (unwrapKey l.tk b 1 (domainId s) (s.dom.gen + 1) (s.dom.vertex.getD 0) = none → distTaken s v b = s) ∧
    ∀ key, unwrapKey l.tk b 1 (domainId s) (s.dom.gen + 1) (s.dom.vertex.getD 0) = some key →
      distTaken s v b = distribute s (s.dom.gen + 1) key none := by
  have hn : ¬ ((!fromParent s v) = true ∨ s.dom.rekey.isSome = true) := by
    rw [fromParent_of h hv, hr]
    simp
  have hb : ∀ o, unwrapKey l.tk b 1 (domainId s) (s.dom.gen + 1) (s.dom.vertex.getD 0) = o →
      s.dom.parent.bind (fun l => unwrapKey l.tk b 1 (domainId s) (s.dom.gen + 1) (s.dom.vertex.getD 0)) = o := fun o ho => by rw [h]; exact ho
  refine ⟨fun hu => (if_neg hn).trans ?_, fun key hu => (if_neg hn).trans ?_⟩
  · rw [hb _ hu]
  · rw [hb _ hu]

theorem childReport_idle (s : State) (v : Nat) (f : Child → Child) (h : s.dom.rekey = none) : childReport s v f = s :=
  if_neg (by rw [h]; exact Bool.false_ne_true)

theorem childReport_runs (s : State) (v : Nat) (f : Child → Child) (h : s.dom.rekey.isSome = true) : childReport s v f = modChild s v f := if_pos h

theorem switchTaken_switches (s : State) (v : Nat) (b : Bytes) {r : Rekey} (h : s.dom.rekey = some r) (hp : fromParent s v = true)
    (hd : r.phase = .distribute) : switchTaken s v b = checkSwitch (doSwitch s r.target) := by
  rw [switchTaken, h]
  exact if_pos ⟨hp, hd⟩

theorem switchTaken_ignored (s : State) (v : Nat) (b : Bytes) (h : s.dom.rekey = none ∨ fromParent s v = false) : switchTaken s v b = s := by
  unfold switchTaken
  split
  · next r hr =>
    refine if_neg fun ⟨hp, _⟩ => ?_
    rcases h with h | h
    · nomatch h.symm.trans hr
    · nomatch h.symm.trans hp
  · rfl

/-- The rows of REKEY_DIST_RX, DIST_ACK_RX, SWITCH_RX and SWITCH_ACK_RX. -/
theorem rekeyMessages_rows (s : State) (f : InFrame) :
    (ctlIn s f 1 (s.dom.gen + 1) 80 = true →
      (fromParent s f.hdr.src = false ∨ s.dom.rekey.isSome = true → exec .rekeyDistRx s = .next (finish s (ctlOut s))) ∧
      (∀ l, s.dom.parent = some l → l.peer = f.hdr.src → s.dom.rekey = none →
        (unwrapKey l.tk (f.payload.drop 16) 1 (domainId s) (s.dom.gen + 1) (s.dom.vertex.getD 0) = none → exec .rekeyDistRx s = .next (finish s (ctlOut s))) ∧
        (∀ key, unwrapKey l.tk (f.payload.drop 16) 1 (domainId s) (s.dom.gen + 1) (s.dom.vertex.getD 0) = some key →
          exec .rekeyDistRx s = .next (finish s (distribute (ctlOut s) (s.dom.gen + 1) key none)) ∧
          (s.dom.children = [] → ∃ r, (distribute (ctlOut s) (s.dom.gen + 1) key none).dom.rekey = some r ∧ r.phase = .distribute ∧ r.distSent = true ∧
            (slotAt (distribute (ctlOut s) (s.dom.gen + 1) key none) 6).key = key)))) ∧
    (ctlIn s f 2 (s.dom.gen + 1) 4 = true →
      (s.dom.rekey = none → exec .distAckRx s = .next (finish s (ctlOut s))) ∧
      (s.dom.rekey.isSome = true → exec .distAckRx s = .next (finish s (checkDist (modChild (ctlOut s) f.hdr.src
        (fun c => { c with dist := some (leAt (f.payload.drop 16) 0 4) })))))) ∧
    (ctlIn s f 3 (s.dom.gen + 1) 0 = true →
      (∀ r, s.dom.rekey = some r → fromParent s f.hdr.src = true → r.phase = .distribute →
        exec .switchRx s = .next (finish s (checkSwitch (doSwitch (ctlOut s) r.target)))) ∧
      (s.dom.rekey = none ∨ fromParent s f.hdr.src = false → exec .switchRx s = .next (finish s (ctlOut s)))) ∧
    (ctlIn s f 4 s.dom.gen 4 = true →
      (s.dom.rekey = none → exec .switchAckRx s = .next (finish s (ctlOut s))) ∧
      (s.dom.rekey.isSome = true → exec .switchAckRx s = .next (finish s (checkSwitch (modChild (ctlOut s) f.hdr.src
        (fun c => { c with switched := some (leAt (f.payload.drop 16) 0 4) })))))) := by
  refine ⟨fun h => ?_, fun h => ?_, fun h => ?_, fun h => ?_⟩
  · have run : ∀ {u}, distTaken (ctlOut s) f.hdr.src (f.payload.drop 16) = u → exec .rekeyDistRx s = .next (finish s u) :=
      fun hu => ctl_runs h (g := fun s => s.dom.gen + 1) (rekeyDistRx_form s) rfl hu
    refine ⟨fun hn => run (distTaken_ignored (ctlOut s) _ _ hn), fun l hl hv hr => ?_⟩
    obtain ⟨h1, h2⟩ := distTaken_parent (ctlOut s) (f.payload.drop 16) hl hv hr
    exact ⟨fun hn => run (h1 hn), fun key hk => ⟨run (h2 key hk), fun hc => distribute_member (ctlOut s) _ key hc⟩⟩
  · have run : ∀ {u}, checkDist (childReport (ctlOut s) f.hdr.src (fun c => { c with dist := some (leAt (f.payload.drop 16) 0 4) })) = u →
        exec .distAckRx s = .next (finish s u) := fun hu => ctl_runs h (g := fun s => s.dom.gen + 1) (distAckRx_form s) rfl hu
    exact ⟨fun hn => run (by rw [childReport_idle (ctlOut s) _ _ hn]; exact checkDist_idle (ctlOut s) hn), fun hn => run (by rw [childReport_runs (ctlOut s) _ _ hn])⟩
  · have run : ∀ {u}, switchTaken (ctlOut s) f.hdr.src (f.payload.drop 16) = u → exec .switchRx s = .next (finish s u) :=
      fun hu => ctl_runs h (g := fun s => s.dom.gen + 1) (switchRx_form s) rfl hu
    exact ⟨fun r hr hp hd => run (switchTaken_switches (ctlOut s) _ _ hr hp hd), fun hn => run (switchTaken_ignored (ctlOut s) _ _ hn)⟩
  · have run : ∀ {u}, checkSwitch (childReport (ctlOut s) f.hdr.src (fun c => { c with switched := some (leAt (f.payload.drop 16) 0 4) })) = u →
        exec .switchAckRx s = .next (finish s u) := fun hu => ctl_runs h (g := fun s => s.dom.gen) (switchAckRx_form s) rfl hu
    exact ⟨fun hn => run (by rw [childReport_idle (ctlOut s) _ _ hn]; exact checkSwitch_idle (ctlOut s) hn), fun hn => run (by rw [childReport_runs (ctlOut s) _ _ hn])⟩

/-! The old generation ends. -/

theorem tget_markFrom_none (fuel d : Nat) (t : Tbl Slot) (n : Nat) (h : tget t n = none) : tget (markFrom fuel d t) n = none := by
  induction fuel generalizing d t with
  | zero => exact h
  | succ fuel ih => exact ih (d + 1) (markDepth t d) (by rw [markDepth, tget_tmapV, h]; rfl)

/-- An invalidation reaches the slot itself and what hangs deeper. -/
theorem slotAt_invalidateSlot (s : State) (n : Nat) (h : (slotAt s n).state ≠ 0) : slotAt (invalidateSlot s n) n = raiseGen (slotAt s n) 0 ∧
    ∀ i, i ≠ n → (slotAt s i).depth ≤ (slotAt s n).depth → slotAt (invalidateSlot s n) i = slotAt s i := by
  have hs : (invalidateSlot s n).keys.slots =
      markFrom (7 - (slotAt s n).depth) ((slotAt s n).depth + 1) (tset s.keys.slots n (raiseGen (slotAt s n) 0)) := by
    unfold invalidateSlot
    dsimp only
    rw [if_neg (fun ⟨h0, _⟩ => h h0)]
    rfl
  refine ⟨?_, fun i hi hd => ?_⟩
  · show (tget (invalidateSlot s n).keys.slots n).getD Slot.zero = _
    rw [hs, tget_markFrom _ _ _ n (raiseGen (slotAt s n) 0) (tget_tset_same _ _ _) (by rw [raiseGen_depth]; exact Nat.lt_succ_self _)]
    rfl
  · have ho := tget_tset_other s.keys.slots n i (raiseGen (slotAt s n) 0) hi
    show (tget (invalidateSlot s n).keys.slots i).getD Slot.zero = (tget s.keys.slots i).getD Slot.zero
    rw [hs]
    cases hk : tget s.keys.slots i with
    | none => rw [tget_markFrom_none _ _ _ i (ho.trans hk)]
    | some k =>
      have he : slotAt s i = k := by rw [slotAt, tgetD, hk]; rfl
      rw [tget_markFrom _ _ _ i k (ho.trans hk) (Nat.lt_succ_of_le (he ▸ hd))]

theorem invalidateSlot_idle (s : State) (n : Nat) (h : (slotAt s n).state = 0) (hn : n < 16) : invalidateSlot s n = s := if_pos ⟨h, hn⟩

/-- What an invalidation keeps. -/
theorem kept_invalidateSlot (s : State) (n : Nat) : (invalidateSlot s n).dom = s.dom ∧ (invalidateSlot s n).fab = s.fab := by
  unfold invalidateSlot
  dsimp only
  split <;> exact ⟨rfl, rfl⟩

theorem toChildren_childless (s : State) (c g : Nat) (h : s.dom.children = []) : toChildren s c g = s := by
  rw [toChildren, h]
  rfl

/-- Without stored frames only tables change as the old generation ends. -/
theorem retireOld_tagless (s : State) (h : s.fab.tags = []) : let t := invalidateSlot s 4
    retireOld s = { t with
      fab := { t.fab with txq := t.fab.txq.filter (fun f => !queuedOld t f) }
      links := { t.links with
        egress := tkeep t.links.egress (fun k _ => !oldPar t k), ingress := tkeep t.links.ingress (fun k _ => !oldPar t k)
        scLru := t.links.scLru.filter (fun k => !oldPar t (k / 2)), back := tkeep t.links.back (fun k _ => !oldPar t (k / 2))
        missS := t.links.missS.filter (fun k => !oldPar t (k / 2)), saved := tkeep t.links.saved (fun k _ => !oldPar t k) }
      dom := { t.dom with
        rekey := none, children := tmapV t.dom.children (fun _ c => { c with dist := none, switched := none, drained := none }) } } := by
  intro t
  unfold retireOld
  dsimp only
  rw [show (invalidateSlot s 4).fab.tags.filter (fun x => oldTag (invalidateSlot s 4) x.2) = [] by
    rw [(kept_invalidateSlot s 4).2, h]
    rfl]
  rfl

/-- The rows of the end of the old generation. -/
theorem doRetire_rows (s : State) (h : s.fab.tags = []) (hc : s.dom.children = []) : let u := doRetire s
    u.dom.rekey = none ∧ ((slotAt s 4).state ≠ 0 → (slotAt u 4).key = 0) ∧ (∀ e ∈ u.links.egress, oldPar s e.1 = false) ∧ (∀ e ∈ u.links.ingress, oldPar s e.1 = false) ∧
      (∀ x ∈ u.fab.txq, queuedOld u x = false) ∧ u.dom.gen = s.dom.gen ∧
      ((slotAt s 3).depth ≤ (slotAt s 4).depth → slotAt u 3 = slotAt s 3) := by
  have hr := retireOld_tagless s h
  have hd := (kept_invalidateSlot s 4).1
  have h4 : (slotAt s 4).state ≠ 0 → (slotAt (invalidateSlot s 4) 4).key = 0 := fun hn => by
    rw [(slotAt_invalidateSlot s 4 hn).1, raiseGen_key]
  have h3 : (slotAt s 3).depth ≤ (slotAt s 4).depth → slotAt (invalidateSlot s 4) 3 = slotAt s 3 := fun hle => by
    by_cases hn : (slotAt s 4).state = 0
    · rw [invalidateSlot_idle s 4 hn (by decide)]
    · exact (slotAt_invalidateSlot s 4 hn).2 3 (by decide) hle
  have hu : doRetire s = retireOld s := by
    rw [doRetire, toChildren_childless s 6 s.dom.gen hc]
    refine sendJoins_childless ?_
    rw [hr]
    dsimp only
    rw [hd, hc]
    rfl
  intro u
  have hu' : u = retireOld s := hu
  clear_value u
  rw [hr] at hu'
  generalize invalidateSlot s 4 = t at hu' hd h4 h3
  rw [hu']
  have par : ∀ k, oldPar t k = oldPar s k := fun k => by rw [oldPar, oldPar, hd]
  refine ⟨rfl, h4, fun e he => ?_, fun e he => ?_, fun x hx => ?_, by show t.dom.gen = _; rw [hd], h3⟩
  · have := (List.mem_filter.mp he).2
    rw [Bool.not_eq_true', par] at this
    exact this
  · have := (List.mem_filter.mp he).2
    rw [Bool.not_eq_true', par] at this
    exact this
  · have := (List.mem_filter.mp hx).2
    rw [Bool.not_eq_true'] at this
    exact this

end Sys2Proof.Machine
end

section
/-! SUPPORT. The timers of a domain rekey and the drain (05 R174 to R176). -/

namespace Sys2Proof.Machine

/- Proofs are elaborated in their order, for the reason given in the first section of this kind. -/
set_option deprecated.oldSectionVars true

theorem modRekey_none (s : State) (f : Rekey → Rekey) (h : s.dom.rekey = none) : modRekey s f = s := by
  have hd : { s.dom with rekey := s.dom.rekey.map f } = s.dom := by
    rw [h]
    show { s.dom with rekey := none } = s.dom
    rw [← h]
  rw [modRekey, hd]

theorem modRekey_some (s : State) (f : Rekey → Rekey) {r : Rekey} (h : s.dom.rekey = some r) :
    modRekey s f = { s with dom := { s.dom with rekey := some (f r) } } := by
  rw [modRekey, h]
  rfl

theorem toParent_some (s : State) (c g : Nat) (b : Bytes) {l : Link} (h : s.dom.parent = some l) : toParent s c g b = pushCtl s l.peer c g b := by
  rw [toParent, h]

/-- A member whose subtree has drained tells its parent. -/
theorem checkDrain_member (s : State) {r : Rekey} {l : Link} (h : s.dom.rekey = some r) (hp : r.phase = .draining) (ho : r.ownDrained = true)
    (hd : r.drainSent = false) (hc : s.dom.children = []) (hn : r.src = none) (hl : s.dom.parent = some l) :
    checkDrain s = pushCtl { s with dom := { s.dom with rekey := some { r with drainSent := true } } } l.peer 5 s.dom.gen (leBytes 4 (b2n s.dom.member)) := by
  unfold checkDrain
  split
  · next hx => nomatch h.symm.trans hx
  · next q hq =>
    cases hq.symm.trans h
    refine (if_neg (by simp [hp, ho, hd, childrenAll, hc])).trans ?_
    split
    · next n hx => nomatch hn.symm.trans hx
    · have hsum : countUp s (·.drained) = leBytes 4 (b2n s.dom.member) := by
        rw [countUp, childSum, hc]
        rfl
      rw [modRekey_some s _ h, hsum]
      exact toParent_some _ 5 s.dom.gen _ hl

/-! A child that did not answer. -/

theorem leaveOut_idle (s : State) (v : Nat) (h : s.dom.rekey = none) : leaveOut s v = s := by
  unfold leaveOut
  rw [h]

theorem leaveOut_draining (s : State) (v : Nat) {r : Rekey} (h : s.dom.rekey = some r) (hp : r.phase = .draining) : leaveOut s v = s := by
  unfold leaveOut
  split
  · next q c hq hc =>
    cases hq.symm.trans h
    rw [hp]
    exact if_pos (by simp)
  · rfl

/-- The one child that has not switched is left out; the switch then goes on. -/
theorem leaveOut_switching (s : State) {v : Nat} {r : Rekey} {c : Child} (h : s.dom.rekey = some r) (hp : r.phase = .switching)
    (hc : s.dom.children = [(v, c)]) (ht : takesPart c = true) (hs : c.switched = none) :
    leaveOut s v = checkSwitch (checkDist { pushOld s v 9 (r.target - 1) (commitBody v 1) with dom := { s.dom with children := [] } }) := by
  unfold leaveOut
  split
  · next q d hq hd =>
    cases hq.symm.trans h
    rw [hc, tget_single] at hd
    cases hd
    rw [hp, ht, hs]
    refine (if_neg (by simp)).trans ?_
    dsimp only
    rw [show tdel (pushOld s v 9 (r.target - 1) (commitBody v 1)).dom.children v = [] by
      show tdel s.dom.children v = []
      rw [hc]
      simp [tdel]]
    rfl
  · next hx =>
    exact absurd (by rw [hc, tget_single]) (hx r c h)

theorem leaveWithChildren_leaves (s : State) : (leaveWithChildren s).dom.leaving = true := rfl

/-- The member left over with no child goes on by itself. -/
theorem leftOut_kept (s : State) (v : Nat) {r : Rekey} (h : s.dom.rekey = some r) (hp : r.phase = .switching) (hn : r.src = none) :
    let t := { pushOld s v 9 (r.target - 1) (commitBody v 1) with dom := { s.dom with children := [] } }
    (checkSwitch (checkDist t)).dom.children = [] ∧ (checkSwitch (checkDist t)).dom.member = s.dom.member ∧
      ∃ x ∈ (checkSwitch (checkDist t)).fab.txq, x.dst = v ∧ x.under = some (r.target - 1) := by
  intro t
  have ht : t.dom.rekey = some r := h
  rw [checkDist_other t ht (by rw [hp]; exact fun e => nomatch e), checkSwitch_member t ht hp hn rfl]
  have hx : ∃ x ∈ t.fab.txq, x.dst = v ∧ x.under = some (r.target - 1) := ⟨_, List.mem_append_right _ (.head _), rfl, rfl⟩
  unfold toParent
  split
  · obtain ⟨x, hm, h1, h2⟩ := hx
    exact ⟨rfl, rfl, x, List.mem_append_left _ hm, h1, h2⟩
  · exact ⟨rfl, rfl, hx⟩

/-- The rows of the timers. -/
theorem rekeyTimers_rows (s : State) (v : Nat) (h : engUp s = true) (ha : fwActs s = true) :
      (ownDrained s = false → exec .rekeyDrainDone s = .next (finish s (quiet s))) ∧
      (ownDrained s = true → s.dom.rekey = none → exec .rekeyDrainDone s = .next (finish s (quiet s))) ∧
      (∀ r l, ownDrained s = true → s.dom.rekey = some r → r.phase = .draining → r.drainSent = false → s.dom.children = [] → r.src = none → s.dom.parent = some l →
        exec .rekeyDrainDone s = .next (finish s (pushCtl { quiet s with dom := { s.dom with rekey := some { r with ownDrained := true, drainSent := true } } }
          l.peer 5 s.dom.gen (leBytes 4 (b2n s.dom.member))))) ∧
      (∀ r n, s.dom.rekey = some r → r.phase = .draining → r.src = some n → exec .rekeyRetireTimeout s = .next (finish s (doRetire (quiet s)))) ∧
      ((∀ r, s.dom.rekey = some r → r.phase ≠ .draining ∨ r.src = none) → exec .rekeyRetireTimeout s = .next (finish s (quiet s))) ∧
      (∀ r, s.dom.rekey = some r → r.phase = .distribute → r.distSent = true →
        exec .rekeySwitchTimeout s = .next (finish s (leaveWithChildren (quiet s))) ∧ (leaveWithChildren (quiet s)).dom.leaving = true) ∧
      (s.dom.rekey = none → exec .rekeySwitchTimeout s = .next (finish s (quiet s)) ∧ exec (.rekeyChildTimeout v) s = .next (finish s (quiet s))) ∧
      (∀ r c, s.dom.rekey = some r → r.phase = .switching → s.dom.children = [(v, c)] → takesPart c = true → c.switched = none → r.src = none → s.dom.held = [] →
        ∃ u x, exec (.rekeyChildTimeout v) s = .next (finish s u) ∧ u.dom.children = [] ∧ u.dom.member = s.dom.member ∧
          x ∈ u.fab.txq ∧ x.dst = v ∧ x.under = some (r.target - 1)) ∧
      (∀ r c, s.dom.rekey = some r → s.dom.children = [(v, c)] → r.phase = .draining → exec (.rekeyChildTimeout v) s = .next (finish s (quiet s))) := by
  have drain : ∀ {u}, (if ownDrained s then checkDrain (modRekey (quiet s) (fun r => { r with ownDrained := true })) else quiet s) = u →
      exec .rekeyDrainDone s = .next (finish s u) := fun hu => (runFw_acts h ha hu : execRekeyDrainDone s = _)
  have retire : ∀ {u}, (if s.dom.rekey.any (fun r => r.phase == .draining && r.src.isSome) then doRetire (quiet s) else quiet s) = u →
      exec .rekeyRetireTimeout s = .next (finish s u) := fun hu => (runFw_acts h ha hu : execRekeyRetireTimeout s = _)
  have leave : ∀ {u}, (if s.dom.rekey.any (fun r => r.phase == .distribute && r.distSent) then leaveWithChildren (quiet s) else quiet s) = u →
      exec .rekeySwitchTimeout s = .next (finish s u) := fun hu => (runFw_acts h ha hu : execRekeySwitchTimeout s = _)
  have out : ∀ {u}, leaveOut (quiet s) v = u → exec (.rekeyChildTimeout v) s = .next (finish s u) :=
    fun hu => (runFw_acts h ha hu : execRekeyChildTimeout v s = _)
  refine ⟨fun hd => drain (if_neg (by rw [hd]; exact Bool.false_ne_true)), fun hd hn => drain ((if_pos hd).trans ?_),
    fun r l hd hr hp hs hc hn hl => drain ((if_pos hd).trans ?_), fun r n hr hp hn => retire (if_pos (by simp [hr, hp, hn])),
    fun hn => retire (if_neg ?_), fun r hr hp hd => ⟨leave (if_pos (by simp [hr, hp, hd])), rfl⟩,
    fun hn => ⟨leave (if_neg (by rw [hn]; exact Bool.false_ne_true)), out (leaveOut_idle _ _ hn)⟩,
    fun r c hr hp hc ht hs hn _ => ?_, fun r c hr hc hp => out (leaveOut_draining (quiet s) v hr hp)⟩
  · rw [modRekey_none (quiet s) _ hn, checkDrain_idle (quiet s) hn]
  · rw [modRekey_some (quiet s) _ hr]
    exact checkDrain_member { quiet s with dom := { s.dom with rekey := some { r with ownDrained := true } } } rfl hp rfl hs hc hn hl
  · intro hx
    cases hr : s.dom.rekey with
    | none => rw [hr] at hx; nomatch hx
    | some r =>
      rw [hr] at hx
      have hx' : (r.phase == .draining && r.src.isSome) = true := hx
      rw [Bool.and_eq_true, beq_iff_eq] at hx'
      rcases hn r hr with h1 | h1
      · exact h1 hx'.1
      · rw [h1] at hx'
        nomatch hx'.2
  · obtain ⟨h1, h2, x, h3, h4, h5⟩ := leftOut_kept (quiet s) v (r := r) hr hp hn
    exact ⟨_, x, out (leaveOut_switching (quiet s) hr hp hc ht hs), h1, h2, h3, h4, h5⟩

theorem retireTaken_retires (s : State) (v : Nat) (b : Bytes) (hp : fromParent s v = true) (hr : ∃ r, s.dom.rekey = some r ∧ r.phase ≠ .distribute) :
    retireTaken s v b = doRetire s := by
  obtain ⟨r, hr, hd⟩ := hr
  exact if_pos ⟨hp, by simp [hr, hd]⟩

theorem retireTaken_ignored (s : State) (v : Nat) (b : Bytes) (h : fromParent s v = false ∨ s.dom.rekey = none) : retireTaken s v b = s := by
  refine if_neg fun ⟨hp, hr⟩ => ?_
  rcases h with h | h
  · nomatch h.symm.trans hp
  · rw [h] at hr
    nomatch hr

/-- The rows of DRAINED_RX and RETIRE_RX. -/
theorem drainMessages_rows (s : State) (f : InFrame) :
    (ctlIn s f 5 s.dom.gen 4 = true → s.dom.rekey.isSome = true → exec .drainedRx s = .next (finish s (checkDrain (modChild (ctlOut s) f.hdr.src
      (fun c => { c with drained := some (leAt (f.payload.drop 16) 0 4) }))))) ∧
    (ctlIn s f 5 s.dom.gen 4 = true → s.dom.rekey = none → exec .drainedRx s = .next (finish s (ctlOut s))) ∧
    (ctlIn s f 6 s.dom.gen 0 = true →
      (fromParent s f.hdr.src = true → (∃ r, s.dom.rekey = some r ∧ r.phase ≠ .distribute) → exec .retireRx s = .next (finish s (doRetire (ctlOut s)))) ∧
      (fromParent s f.hdr.src = false ∨ s.dom.rekey = none → exec .retireRx s = .next (finish s (ctlOut s)))) := by
  have run : ∀ {u}, ctlIn s f 5 s.dom.gen 4 = true → checkDrain (childReport (ctlOut s) f.hdr.src (fun c => { c with drained := some (leAt (f.payload.drop 16) 0 4) })) = u →
      exec .drainedRx s = .next (finish s u) := fun h hu => ctl_runs h (g := fun s => s.dom.gen) (drainedRx_form s) rfl hu
  refine ⟨fun h hn => run h (by rw [childReport_runs (ctlOut s) _ _ hn]),
    fun h hn => run h (by rw [childReport_idle (ctlOut s) _ _ hn]; exact checkDrain_idle (ctlOut s) hn), fun h => ⟨fun hp hr => ?_, fun hn => ?_⟩⟩
  · exact ctl_runs h (g := fun s => s.dom.gen) (retireRx_form s) rfl (retireTaken_retires (ctlOut s) _ _ hp hr)
  · exact ctl_runs h (g := fun s => s.dom.gen) (retireRx_form s) rfl (retireTaken_ignored (ctlOut s) _ _ hn)

/-- Settles O43: the switch and the retirement change tables of their own; the messages and the timers lead to them. -/
theorem rekeys : Obligations.Rekeys := by
  refine ⟨⟨doSwitch_rows, fun s src k f => ⟨domainRekey_rows s src k, rekeyMessages_rows s f⟩⟩,
    fun s f v => ⟨doRetire_rows s, fun h ha c hc => ?_, rekeyTimers_rows s v, drainMessages_rows s f⟩⟩
  simp only [List.mem_cons, List.not_mem_nil, or_false] at hc
  obtain rfl | rfl | rfl | rfl := hc
  · exact (runFw_rests h ha : execRekeyDrainDone s = _)
  · exact (runFw_rests h ha : execRekeyRetireTimeout s = _)
  · exact (runFw_rests h ha : execRekeySwitchTimeout s = _)
  · exact (runFw_rests h ha : execRekeyChildTimeout v s = _)

end Sys2Proof.Machine
end

section
/-! SUPPORT. Chords that advance (05 R172, R173). -/

namespace Sys2Proof.Machine

/- Proofs are elaborated in their order, for the reason given in the first section of this kind. -/
set_option deprecated.oldSectionVars true

theorem egressGen_cached {s : State} {k : Nat} {c : Chord} (h : tget s.links.chord k = some c) : egressGen s k = c.gen := by
  rw [egressGen, h]

theorem egressGen_saved {s : State} {k : Nat} (h : tget s.links.chord k = none) : egressGen s k = (tgetD s.links.saved k (1, 0)).1 := by
  rw [egressGen, h]

theorem egressGen_congr {s t : State} {k : Nat} (hc : tget t.links.chord k = tget s.links.chord k)
    (hs : tgetD t.links.saved k (1, 0) = tgetD s.links.saved k (1, 0)) : egressGen t k = egressGen s k := by
  unfold egressGen
  rw [hc]
  split
  · rfl
  · rw [hs]

/-- A rolled Chord counts anew under its next generation; no other Chord changes. -/
theorem chordRoll_form (s : State) (k : Nat) (c : Chord) (g : Nat) :
    (∃ key, tget (chordRoll s k c g).links.chord k = some { c with gen := g, count := 0, key := key }) ∧
      (∀ i, i ≠ k → tget (chordRoll s k c g).links.chord i = tget s.links.chord i) ∧
      (chordRoll s k c g).links.saved = s.links.saved ∧ (chordRoll s k c g).dom = s.dom ∧ (chordRoll s k c g).hub = s.hub := by
  obtain ⟨ks, cn, n, w, f, e⟩ : Keyed s (deriveChord s (k / 4) (k / 2 % 2 == 1) c.slot g).2 := keyed_derive s _ _ _
  unfold chordRoll
  dsimp only
  generalize deriveChord s (k / 4) (k / 2 % 2 == 1) c.slot g = r at e ⊢
  obtain ⟨key, t⟩ := r
  dsimp only at e ⊢
  subst e
  exact ⟨⟨key, tget_tset_same _ _ _⟩, fun i hi => tget_tset_other _ _ _ _ hi, rfl, rfl, rfl⟩

theorem advanceChord_last (s : State) (v : Nat) (h : 0xFFFFFFFF ≤ egressGen s (chordKey v 0 (s.dom.gen % 2 == 1))) : advanceChord s v = none := if_pos h

/-- One generation further, for the Chord of the peer alone. -/
theorem advanceChord_next (s : State) (v : Nat) (h : egressGen s (chordKey v 0 (s.dom.gen % 2 == 1)) < 0xFFFFFFFF) : ∃ t, advanceChord s v = some t ∧
    egressGen t (chordKey v 0 (s.dom.gen % 2 == 1)) = egressGen s (chordKey v 0 (s.dom.gen % 2 == 1)) + 1 ∧
    (∀ i, i ≠ chordKey v 0 (s.dom.gen % 2 == 1) → egressGen t i = egressGen s i) ∧ t.dom = s.dom := by
  unfold advanceChord
  dsimp only
  generalize chordKey v 0 (s.dom.gen % 2 == 1) = k at h ⊢
  rw [if_neg (by unfold genMax; omega)]
  refine ⟨_, rfl, ?_⟩
  split
  · next c hc =>
    obtain ⟨⟨key, h1⟩, h2, h3, h4, -⟩ := chordRoll_form s k c (egressGen s k + 1)
    exact ⟨egressGen_cached h1, fun i hi => egressGen_congr (h2 i hi) (by rw [h3]), h4⟩
  · next hc =>
    refine ⟨(egressGen_saved ?_).trans ?_, fun i hi => egressGen_congr rfl (tgetD_tset_other _ _ _ _ _ hi), rfl⟩
    · exact hc
    show (tgetD (tset s.links.saved k (egressGen s k + 1, 0)) k (1, 0)).1 = _
    rw [tgetD_tset_same]

theorem chordKey_inj {v w : Nat} {b : Bool} (h : chordKey v 0 b = chordKey w 0 b) : v = w := by
  unfold chordKey at h
  omega

/-- One peer's turn of BCP_CHORD_REKEY. -/
def advanceStep (a : State × Nat) (v : Nat) : State × Nat :=
  match advanceChord a.1 v with
  | some t => (t, a.2 + 1)
  | none => a

theorem advanceStep_form (a : State × Nat) (v : Nat) : let k := chordKey v 0 (a.1.dom.gen % 2 == 1)
    (egressGen a.1 k < 0xFFFFFFFF → egressGen (advanceStep a v).1 k = egressGen a.1 k + 1) ∧
      (0xFFFFFFFF ≤ egressGen a.1 k → egressGen (advanceStep a v).1 k = egressGen a.1 k) ∧
      (∀ i, i ≠ k → egressGen (advanceStep a v).1 i = egressGen a.1 i) ∧ (advanceStep a v).1.dom = a.1.dom := by
  intro k
  by_cases h : egressGen a.1 k < 0xFFFFFFFF
  · obtain ⟨t, h1, h2, h3, h4⟩ := advanceChord_next a.1 v h
    have e : advanceStep a v = (t, a.2 + 1) := by rw [advanceStep, h1]
    rw [e]
    exact ⟨fun _ => h2, fun h' => absurd h (Nat.not_lt.mpr h'), h3, h4⟩
  · have e : advanceStep a v = a := by rw [advanceStep, advanceChord_last a.1 v (Nat.not_lt.mp h)]
    rw [e]
    exact ⟨fun h' => absurd h' h, fun _ => rfl, fun _ _ => rfl, rfl⟩

/-- Every peer of a list without repetition has its turn once. -/
theorem advanceAll_form (l : List Nat) (hl : l.Nodup) (a : State × Nat) : let b := a.1.dom.gen % 2 == 1; let u := (l.foldl advanceStep a).1
    u.dom = a.1.dom ∧ (∀ v ∈ l, (egressGen a.1 (chordKey v 0 b) < 0xFFFFFFFF → egressGen u (chordKey v 0 b) = egressGen a.1 (chordKey v 0 b) + 1) ∧
      (0xFFFFFFFF ≤ egressGen a.1 (chordKey v 0 b) → egressGen u (chordKey v 0 b) = egressGen a.1 (chordKey v 0 b))) ∧
      ∀ v, v ∉ l → egressGen u (chordKey v 0 b) = egressGen a.1 (chordKey v 0 b) := by
  induction l generalizing a with
  | nil => exact ⟨rfl, fun v hv => absurd hv List.not_mem_nil, fun _ _ => rfl⟩
  | cons w l ih =>
    obtain ⟨hw, hl⟩ := List.nodup_cons.mp hl
    obtain ⟨s1, s2, s3, s4⟩ := advanceStep_form a w
    obtain ⟨i1, i2, i3⟩ := ih hl (advanceStep a w)
    rw [s4] at i1 i2 i3
    refine ⟨i1, fun v hv => ?_, fun v hv => ?_⟩
    · rcases List.mem_cons.mp hv with rfl | hv
      · exact ⟨fun h => (i3 v hw).trans (s1 h), fun h => (i3 v hw).trans (s2 h)⟩
      · have hs := s3 (chordKey v 0 (a.1.dom.gen % 2 == 1)) (fun e => hw (chordKey_inj e ▸ hv))
        have hi := i2 v hv
        rw [hs] at hi
        exact hi
    · obtain ⟨h1, h2⟩ := not_or.mp (fun e => hv (List.mem_cons.mpr e))
      exact (i3 v h2).trans (s3 _ (fun e => h1 (chordKey_inj e)))

/-! BCP_CHORD_REKEY. -/

section
variable (s : State) (src : Nat) (k : Packet)

theorem chordRekey_outsider (h : s.dom.member = false ∨ (wbit (pw k.params 0) 18 = false ∧ otherMember s (fld (pw k.params 0) 15 0) = false)) :
    chordRekey s src k = reply s src .chordRekey k.tag stNotPermitted [] :=
  if_pos (by simpa using h)

variable (hm : s.dom.member = true)
include hm

/-- The command's own part, once it is permitted. -/
theorem chordRekey_permitted (h : wbit (pw k.params 0) 18 = true ∨ otherMember s (fld (pw k.params 0) 15 0) = true) : chordRekey s src k =
    let peers := if wbit (pw k.params 0) 18 then chordPeers s else [fld (pw k.params 0) 15 0]
    let a := if wbit (pw k.params 0) 16 then peers.foldl advanceStep (s, 0) else (s, 0)
    if !wbit (pw k.params 0) 17 then reply a.1 src .chordRekey k.tag stOk [toW (a.2 % 2 ^ 17)]
    else
      let s := peers.foldl (fun s v => pushCtl s v 7 s.dom.gen (leBytes 4 0)) a.1
      startBg { s with dom := { s.dom with chordWin := some (src, a.2, 0) } } src .chordRekey [] :=
  if_neg (by rcases h with h | h <;> simp [hm, h])

theorem chordRekey_one (ho : otherMember s (fld (pw k.params 0) 15 0) = true) (h18 : wbit (pw k.params 0) 18 = false)
    (h17 : wbit (pw k.params 0) 17 = false) (h16 : wbit (pw k.params 0) 16 = true) : chordRekey s src k =
      reply (advanceStep (s, 0) (fld (pw k.params 0) 15 0)).1 src .chordRekey k.tag stOk [toW ((advanceStep (s, 0) (fld (pw k.params 0) 15 0)).2 % 2 ^ 17)] := by
  rw [chordRekey_permitted s src k hm (.inr ho), h18, h17, h16]
  rfl

theorem chordRekey_all (h18 : wbit (pw k.params 0) 18 = true) (h17 : wbit (pw k.params 0) 17 = false) (h16 : wbit (pw k.params 0) 16 = true) :
    chordRekey s src k = reply ((chordPeers s).foldl advanceStep (s, 0)).1 src .chordRekey k.tag stOk
      [toW (((chordPeers s).foldl advanceStep (s, 0)).2 % 2 ^ 17)] := by
  rw [chordRekey_permitted s src k hm (.inl h18), h18, h17, h16]
  simp only [reduceIte, Bool.not_false]

theorem chordRekey_asks (ho : otherMember s (fld (pw k.params 0) 15 0) = true) (h18 : wbit (pw k.params 0) 18 = false)
    (h17 : wbit (pw k.params 0) 17 = true) (h16 : wbit (pw k.params 0) 16 = false) : chordRekey s src k =
      startBg { pushCtl s (fld (pw k.params 0) 15 0) 7 s.dom.gen (leBytes 4 0) with dom := { s.dom with chordWin := some (src, 0, 0) } } src .chordRekey [] := by
  rw [chordRekey_permitted s src k hm (.inr ho), h18, h17, h16]
  rfl
end

/-- The rows of BCP_CHORD_REKEY. -/
theorem chordRekey_rows (s : State) (src : Nat) (k : Packet) (h : takes s src .chordRekey k = true) : let w := pw k.params 0; let peer := fld w 15 0
    (s.dom.member = false ∨ (wbit w 18 = false ∧ otherMember s peer = false) →
        exec (.bcpChordRekey src) s = .next (finish s (reply (taken s src) src .chordRekey k.tag stNotPermitted []))) ∧
      (s.dom.member = true → wbit w 18 = false → otherMember s peer = true → wbit w 17 = false → wbit w 16 = true →
        (∀ t, advanceChord (taken s src) peer = some t → exec (.bcpChordRekey src) s = .next (finish s (reply t src .chordRekey k.tag stOk [1]))) ∧
        (advanceChord (taken s src) peer = none → exec (.bcpChordRekey src) s = .next (finish s (reply (taken s src) src .chordRekey k.tag stOk [0])))) ∧
      (s.dom.member = true → wbit w 18 = true → wbit w 17 = false → wbit w 16 = true → ∃ u, exec (.bcpChordRekey src) s = .next (finish s u) ∧
        ∀ v, v < 65536 → otherMember s v = true → let key := chordKey v 0 (s.dom.gen % 2 == 1)
          (egressGen s key < 0xFFFFFFFF → egressGen u key = egressGen s key + 1) ∧ (0xFFFFFFFF ≤ egressGen s key → egressGen u key = egressGen s key)) ∧
      (s.dom.member = true → wbit w 18 = false → otherMember s peer = true → wbit w 17 = true → wbit w 16 = false →
        ∃ u, exec (.bcpChordRekey src) s = .next (finish s u) ∧ u.dom.chordWin = some (src, 0, 0) ∧
          u.fab.txq = (pushCtl (quiet s) peer 7 s.dom.gen [0#8, 0#8, 0#8, 0#8]).fab.txq ∧ u.keys = s.keys) := by
  intro w peer
  have he : ∀ {u}, chordRekey (taken s src) src k = u → exec (.bcpChordRekey src) s = .next (finish s u) :=
    fun hu => (runCmd_takes h hu : execBcpChordRekey src s = _)
  refine ⟨fun hn => he (chordRekey_outsider _ src k hn), fun hm h18 ho h17 h16 => ?_, fun hm h18 h17 h16 => ?_, fun hm h18 ho h17 h16 => ?_⟩
  · have hx := he (chordRekey_one (taken s src) src k hm ho h18 h17 h16)
    refine ⟨fun t ht => ?_, fun hn => ?_⟩
    · rw [show advanceStep (taken s src, 0) (fld (pw k.params 0) 15 0) = (t, 1) by rw [advanceStep, ht]] at hx
      exact hx
    · rw [show advanceStep (taken s src, 0) (fld (pw k.params 0) 15 0) = (taken s src, 0) by rw [advanceStep, hn]] at hx
      exact hx
  · obtain ⟨-, h2, -⟩ := advanceAll_form (chordPeers (taken s src)) (List.nodup_range.filter _) (taken s src, 0)
    have hx := he (chordRekey_all (taken s src) src k hm h18 h17 h16)
    have hp : ∀ v, v < 65536 → otherMember s v = true → v ∈ chordPeers (taken s src) :=
      fun v hv ho => List.mem_filter.mpr ⟨List.mem_range.mpr hv, ho⟩
    generalize chordPeers (taken s src) = l at h2 hx hp
    generalize l.foldl advanceStep (taken s src, 0) = r at h2 hx
    exact ⟨_, hx, fun v hv ho => h2 v (hp v hv ho)⟩
  · exact ⟨_, he (chordRekey_asks (taken s src) src k hm ho h18 h17 h16), rfl, rfl, rfl⟩

/-! CHORD_ADVANCE and the end of the window. -/

theorem advanceTaken_counts (s : State) (v : Nat) (b : Bytes) (h : leAt b 0 4 % 2 = 1) :
    advanceTaken s v b = { s with dom := { s.dom with chordWin := s.dom.chordWin.map (fun x => (x.1, x.2.1, x.2.2 + 1)) } } := if_pos h

theorem advanceTaken_advances (s : State) (v : Nat) (b : Bytes) (h : leAt b 0 4 % 2 = 0) {t : State} (ht : advanceChord s v = some t) :
    advanceTaken s v b = pushCtl t v 7 t.dom.gen (leBytes 4 1) := by
  unfold advanceTaken
  rw [if_neg (by omega), ht]

theorem advanceTaken_last (s : State) (v : Nat) (b : Bytes) (h : leAt b 0 4 % 2 = 0) (ht : advanceChord s v = none) :
    advanceTaken s v b = pushCtl s v 7 s.dom.gen (leBytes 4 0) := by
  unfold advanceTaken
  rw [if_neg (by omega), ht]

/-- Settles O44: a Chord advances for its peer alone, so that ALL reaches each peer once. -/
theorem chordRekey_settled : Obligations.ChordRekey := by
  intro s src k f w peer
  refine ⟨fun v t c hc ht => ?_, fun v c hc hg => advanceChord_last s v (by rw [egressGen_cached hc]; exact hg), chordRekey_rows s src k, fun h => ?_,
    fun h ha => (runFw_rests h ha : execChordRekeyWindowEnd s = _), fun h ha => ⟨fun hn => ?_, fun n a hw hk => ?_⟩⟩
  · unfold advanceChord at ht
    dsimp only at ht
    rw [hc] at ht
    split at ht
    · nomatch ht
    · cases ht
      obtain ⟨⟨key, h1⟩, -⟩ := chordRoll_form s (chordKey v 0 (s.dom.gen % 2 == 1)) c (egressGen s (chordKey v 0 (s.dom.gen % 2 == 1)) + 1)
      rw [egressGen_cached hc] at h1 ⊢
      exact ⟨_, h1, rfl, rfl, rfl⟩
  · have run : ∀ {u}, advanceTaken (ctlOut s) f.hdr.src (f.payload.drop 16) = u → exec .chordAdvanceRx s = .next (finish s u) :=
      fun hu => ctl_runs h (g := fun s => s.dom.gen) (chordAdvanceRx_form s) rfl hu
    exact ⟨fun ho => ⟨_, run (advanceTaken_counts _ _ _ ho), rfl, rfl, rfl⟩,
      fun he => ⟨fun t ht => run (advanceTaken_advances _ _ _ he ht), fun hn => run (advanceTaken_last _ _ _ he hn)⟩⟩
  · refine (runFw_acts h ha ?_ : execChordRekeyWindowEnd s = _)
    rw [show (quiet s).dom.chordWin = none from hn]
  · refine (runFw_acts h ha ?_ : execChordRekeyWindowEnd s = _)
    rw [show (quiet s).dom.chordWin = some (src, n, a) from hw]
    dsimp only
    rw [show packetOf { quiet s with dom := { (quiet s).dom with chordWin := none } } src .chordRekey = some k from hk]
    rfl

end Sys2Proof.Machine
end

section
/-! SUPPORT. What the end of work leaves of the partitions and contexts (11 R353, R368). -/

namespace Sys2Proof.Machine

/- Proofs are elaborated in their order, for the reason given in the first section of this kind. -/
set_option deprecated.oldSectionVars true

/-- The partitions, the contexts, and the status of each slot's last command. -/
def cxView (s : State) : Tbl PartRec × Tbl Ctx × Tbl Nat := (s.parts.part, s.parts.ctx, s.parts.cmdStatus)

theorem ctxAt_of_cxView {s t : State} (h : cxView t = cxView s) (c : Nat) : ctxAt t c = ctxAt s c :=
  congrArg (fun v : Tbl PartRec × Tbl Ctx × Tbl Nat => tget v.2.1 c) h

theorem partAt_of_cxView {s t : State} (h : cxView t = cxView s) (p : Nat) : partAt t p = partAt s p :=
  congrArg (fun v : Tbl PartRec × Tbl Ctx × Tbl Nat => tgetD v.1 p PartRec.none) h

theorem cmdStatus_of_cxView {s t : State} (h : cxView t = cxView s) : t.parts.cmdStatus = s.parts.cmdStatus :=
  congrArg (fun v : Tbl PartRec × Tbl Ctx × Tbl Nat => v.2.2) h

theorem cxView_ite (c : Prop) [Decidable c] (s t : State) : cxView (if c then s else t) = if c then cxView s else cxView t := apply_ite _ _ _ _

theorem cxView_foldl {α : Type} (l : List α) (f : State → α → State) (h : ∀ t x, cxView (f t x) = cxView t) (s : State) :
    cxView (l.foldl f s) = cxView s :=
  List.foldlRecOn (motive := fun t => cxView t = cxView s) l f rfl fun t ht x _ => (h t x).trans ht

theorem cxView_countEv (s : State) (ev : Nat) (p : Option Nat) (n : Nat) : cxView (countEv s ev p n) = cxView s := by
  obtain ⟨c, d, w, f, e⟩ := countEv_counts s ev p n
  rw [e]
  rfl

theorem cxView_completeDesc (s : State) (d st r : Nat) : cxView (completeDesc s d st r) = cxView s := by
  unfold completeDesc
  split
  · rfl
  · next x hx =>
    split
    · rfl
    · have h : ∀ w : Nat × State, cxView w.2 = cxView s → cxView (countEv (setDesc w.2 d { x with phase := .done, status := st, result := w.1 }) 0x091
          (ctxPart (setDesc w.2 d { x with phase := .done, status := st, result := w.1 }) x.ctx) 1) = cxView s :=
        fun w hw => (cxView_countEv _ _ _ _).trans hw
      have hr : cxView (if resultStated x.opcode st then (r, s) else ((freeN s).1 % 2 ^ 64, (freeN s).2)).2 = cxView s := by split <;> rfl
      dsimp only
      split
      · exact h _ hr
      · exact h _ hr

theorem cxView_sendAborts (s : State) (g : Stage) (st v : Nat) (e : Option (Nat × Bool)) : cxView (sendAborts s g st v e) = cxView s := by
  have hf : cxView (g.inputs.foldl (fun s i =>
      if e = some (i.vertex, true) then s else pushReduce s i.vertex g.part (g.inSub + 0x80) (abortRec g.xfer st v) .own) s) = cxView s :=
    cxView_foldl _ _ (fun t i => by split <;> rfl) s
  unfold sendAborts
  dsimp only
  split
  · exact hf
  · exact hf

theorem cxView_of_parts {s t : State} (h : t.parts = s.parts) : cxView t = cxView s := by
  rw [cxView, cxView, h]

theorem parts_queueCadence (s : State) (b : Bytes) : (queueCadence s b).parts = s.parts := by
  unfold queueCadence
  dsimp only
  split
  · split <;> rfl
  · split <;> rfl

theorem parts_pushCadence (s : State) (p g st fl n v : Nat) : (pushCadence s p g st fl n v).parts = s.parts := parts_queueCadence _ _

theorem parts_pmDrop (s : State) (f : PmUse → Bool) : (pmDrop s f).parts = s.parts := rfl

theorem parts_unfuseUpd (s : State) (d : Nat) : (unfuseUpd s d).parts = s.parts := rfl

theorem parts_setBits (s : State) (o : Nat) (w : Word) : (setBits s o w).parts = s.parts := rfl

theorem parts_setPgd (s : State) (p g : Nat) (b : Bytes) : (setPgd s p g b).parts = s.parts := rfl

theorem parts_tearUpdate (s : State) (d st : Nat) : (tearUpdate s d st).parts = s.parts := by
  unfold tearUpdate
  split
  · rfl
  · dsimp only
    rw [parts_unfuseUpd, parts_pmDrop, parts_pushCadence]
    split
    · rw [parts_setBits, parts_setPgd]
    · rfl

theorem cxView_tearUpdate (s : State) (d st : Nat) : cxView (tearUpdate s d st) = cxView s := cxView_of_parts (parts_tearUpdate s d st)

theorem cxView_failUpdate (s : State) (d st : Nat) : cxView (failUpdate s d st) = cxView s :=
  (cxView_completeDesc _ _ _ _).trans (cxView_tearUpdate _ _ _)

theorem cxView_endFused (s : State) (d st : Nat) : cxView (endFused s d st) = cxView s := by
  unfold endFused
  split
  · rfl
  · split
    · exact cxView_failUpdate _ _ _
    · rfl

theorem cxView_abortStage (s : State) (d st v o : Nat) (e : Option (Nat × Bool)) : cxView (abortStage s d st v o e) = cxView s := by
  unfold abortStage
  split
  · rfl
  · exact (cxView_endFused _ _ _).trans (cxView_sendAborts _ _ _ _ _)

theorem parts_squashCopies (s : State) (d : Nat) : (squashCopies s d).parts = s.parts := rfl

theorem parts_dropTx (s : State) (d : Nat) : (dropTx s d).parts = s.parts := rfl

theorem cxView_squashUnits (s : State) (d st : Nat) : cxView (squashUnits s d st) = cxView s := by
  have h : (squashUnits s d st).parts = (tearUpdate (abortStage s d st (s.dom.vertex.getD 0) st none) d st).parts := by
    unfold squashUnits
    dsimp only
    rw [parts_squashCopies, parts_dropTx, parts_pmDrop]
  exact (cxView_of_parts h).trans ((cxView_tearUpdate _ _ _).trans (cxView_abortStage _ _ _ _ _ _))

theorem cxView_squashDesc (s : State) (d st : Nat) : cxView (squashDesc s d st) = cxView s := by
  unfold squashDesc
  split
  · exact (cxView_completeDesc _ _ _ _).trans (cxView_squashUnits _ _ _)
  · rfl

theorem cxView_setDesc (s : State) (d : Nat) (x : Desc) : cxView (setDesc s d x) = cxView s := rfl

theorem cxView_squashRunning (s : State) (c : Nat) : cxView (squashRunning s c) = cxView s :=
  cxView_foldl _ _ (fun t p => by
    split
    · rw [cxView_setDesc, cxView_squashUnits]
    · rfl) s

/-! A halt keeps them too. -/

theorem cxView_keepRec (s : State) (r : AlarmRec) : cxView (keepRec s r) = cxView s := by
  unfold keepRec
  split
  · rfl
  · split <;> rfl

theorem cxView_endLevels (s : State) : cxView (endLevels s) = cxView s := by
  unfold endLevels
  dsimp only
  exact cxView_foldl _ _ (fun t q => cxView_keepRec t _) _

theorem cxView_loseDomain (s : State) : cxView (loseDomain s) = cxView s := rfl

theorem cxView_haltBlock (s : State) (n : Nat) : cxView (haltBlock s n) = cxView s := by
  have h1 : cxView (handOver s (haltHand n)) = cxView s := by
    unfold handOver
    split <;> rfl
  have h2 : cxView (endLevels (clearChords (clearKeys (stopLanes (handOver s (haltHand n)))))) = cxView s :=
    (cxView_endLevels _).trans (Eq.trans rfl h1)
  have h3 : ∀ t, cxView t = cxView s → ∀ a, cxView (loseDomain (clearMem (clearBuffers (clearStreams { t with aon := a })))) = cxView s :=
    fun t ht a => ht
  unfold haltBlock
  split
  · rfl
  · dsimp only
    refine h3 _ ?_ _
    generalize endLevels _ = t at h2
    split
    · exact h2
    · exact h2

theorem cxView_occur (s : State) (r : AlarmRec) (ch : Option Nat) : cxView (occur s r ch) = cxView s := by
  have hn : ∀ {s v : State}, Noted s v → cxView v = cxView s := by
    rintro s v ⟨c, w, al, q, g, st, e, rfl⟩
    rfl
  rcases occur_cases s r ch with h | ⟨v, n, h, e⟩
  · exact hn h
  · rw [e]
    exact (cxView_haltBlock v n).trans (hn h)

/-- A context that faults is FAULTED; every other is as it was. -/
theorem faultCtx_faults {s : State} {c : Nat} {x : Ctx} (st q i : Nat) (h : ctxAt s c = some x) :
    (∃ y, ctxAt (faultCtx s c st q i) c = some y ∧ y.faulted = true) ∧ (faultCtx s c st q i).parts.cmdStatus = s.parts.cmdStatus := by
  unfold faultCtx
  rw [h]
  dsimp only
  split
  · next hf => exact ⟨⟨x, h, hf⟩, rfl⟩
  · have hv : ∀ t : State, cxView t = cxView (setCtx s c { x with faulted := true, fStatus := st, fQueue := q, fIndex := i }) →
        (∃ y, ctxAt (squashRunning t c) c = some y ∧ y.faulted = true) ∧ (squashRunning t c).parts.cmdStatus = s.parts.cmdStatus := fun t ht => by
      have hs := (cxView_squashRunning t c).trans ht
      exact ⟨⟨_, (ctxAt_of_cxView hs c).trans (ctxAt_setCtx_same _ _ _), rfl⟩, (cmdStatus_of_cxView hs).trans rfl⟩
    refine hv _ ?_
    split <;> rfl

/-- The access of a context's record changes no partition and no context. -/
theorem cxView_ctxRecord (s : State) (w : Bool) (c : Nat) : cxView (ctxRecord s w c) = cxView s := by
  unfold ctxRecord
  dsimp only
  cases w <;> rfl

theorem recordAnswer_failed {s : State} {sl c : Nat} {acc : Access} {x : Ctx} (ha : acc ≠ .ok) (h : ctxAt s c = some x) :
    tget (recordAnswer s sl c acc).parts.cmdStatus sl = some stInternal ∧ ∃ y, ctxAt (recordAnswer s sl c acc) c = some y ∧ y.faulted = true := by
  cases acc with
  | ok => exact absurd rfl ha
  | err =>
    obtain ⟨hy, -⟩ := faultCtx_faults stInternal 0 0 ((ctxAt_of_cxView (cxView_occur s (mkRec 0x17 0xFF 0 0 stInternal 0 0 c ((ctxPart s c).getD 0)
      ((reg s 0x5F000).toNat + 2 ^ 32 * (reg s 0x5F004).toNat + 16384 * c)) none) c).trans h)
    exact ⟨tget_tset_same _ _ _, hy⟩
  | poison =>
    obtain ⟨hy, -⟩ := faultCtx_faults stInternal 0 0 h
    exact ⟨tget_tset_same _ _ _, hy⟩

end Sys2Proof.Machine
end

section
/-! SUPPORT. Slot commands, windows, doorbells and the registers of a queue (11 R351 to R359, R371). -/

namespace Sys2Proof.Machine

/- Proofs are elaborated in their order, for the reason given in the first section of this kind. -/
set_option deprecated.oldSectionVars true

/-- A register write that is taken. -/
theorem write_opens {s u : State} {who : Requester} {off : Nat} {f : State → State} (h : opens s who off = true) (hu : f (quiet s) = u) :
    runWrite who off f s = .next (finish s (emit u (.regRsp 0 false))) :=
  (runWrite_opens s who off f h).trans (by rw [hu])

/-! The slot commands. -/

section
variable {s u : State} {sl c : Nat} {who : Requester} {acc : Access} (h : opens s who (cxOff sl 4) = true) (hs : sl < 64)
include h hs

theorem cxCreate_runs (hu : (if cmdIgnored s sl who then quiet s else cxCreate (quiet s) sl acc) = u) :
    exec (.cxCreate sl who acc) s = .next (finish s (emit u (.regRsp 0 false))) := by
  have hm : sl % 64 = sl := Nat.mod_eq_of_lt hs
  refine (write_opens (by rw [hm]; exact h) ?_ : execCxCreate sl who acc s = _)
  rw [hm]
  exact hu

theorem cxLoad_runs (hc : c < 4096) (hu : (if cmdIgnored s sl who then quiet s else cxLoad (quiet s) sl c acc) = u) :
    exec (.cxLoad sl c who acc) s = .next (finish s (emit u (.regRsp 0 false))) := by
  have hm : sl % 64 = sl := Nat.mod_eq_of_lt hs
  refine (write_opens (by rw [hm]; exact h) ?_ : execCxLoad sl c who acc s = _)
  rw [hm, Nat.mod_eq_of_lt hc]
  exact hu

theorem cxUnload_runs (hu : (if cmdIgnored s sl who then quiet s else cxUnload (quiet s) sl acc) = u) :
    exec (.cxUnload sl who acc) s = .next (finish s (emit u (.regRsp 0 false))) := by
  have hm : sl % 64 = sl := Nat.mod_eq_of_lt hs
  refine (write_opens (by rw [hm]; exact h) ?_ : execCxUnload sl who acc s = _)
  rw [hm]
  exact hu
end

/-- The context that CREATE makes. -/
def newCtx (p pasid sl : Nat) : Ctx :=
  { part := p, pasid := pasid, slot := some sl, faulted := false, fStatus := 0, fQueue := 0, fIndex := 0, own := [], queues := [],
    stopped := false, tearing := false }

section
variable {s : State} {sl p : Nat} (acc : Access) (hp : slotPart s sl = some p)
include hp

theorem cxCreate_busy (h : (slotCtx s sl).isSome = true) : cxCreate s sl acc = setCmd s sl stBusy := by
  unfold cxCreate
  rw [hp]
  exact if_pos h

theorem cxCreate_foreign (h : slotCtx s sl = none) (hn : (partAt s p).pasids.contains ((reg s (cxOff sl 8)).toNat % 2 ^ 20) = false) :
    cxCreate s sl acc = setCmd s sl stNotPermitted := by
  unfold cxCreate
  rw [hp]
  refine (if_neg (by rw [h]; exact Bool.false_ne_true)).trans (if_pos ?_)
  rw [hn]
  rfl

theorem cxCreate_makes (h : slotCtx s sl = none) (hn : (partAt s p).pasids.contains ((reg s (cxOff sl 8)).toNat % 2 ^ 20) = true) {n : Nat}
    (hl : lowestFrom (fun c => (ctxAt s c).isNone) 4096 0 = some n) : cxCreate s sl acc =
      recordAnswer (ctxRecord (setCtx s n (newCtx p ((reg s (cxOff sl 8)).toNat % 2 ^ 20) sl)) true n) sl n acc := by
  unfold cxCreate
  rw [hp]
  refine (if_neg (by rw [h]; exact Bool.false_ne_true)).trans ((if_neg (by rw [hn]; exact Bool.false_ne_true)).trans ?_)
  rw [hl]
  rfl

theorem cxLoad_foreign {c : Nat} {x : Ctx} (h : slotCtx s sl = none) (hx : ctxAt s c = some x) (hn : x.part ≠ p) :
    cxLoad s sl c acc = setCmd s sl stNotPermitted := by
  unfold cxLoad
  refine (if_neg (by rw [h]; exact Bool.false_ne_true)).trans ?_
  rw [hx]
  refine if_pos ?_
  rw [hp]
  exact fun e => hn (Option.some.inj e)

/-- A context of the slot's own partition. -/
theorem cxLoad_own {c : Nat} {x : Ctx} (h : slotCtx s sl = none) (hx : ctxAt s c = some x) (hn : x.part = p) :
    cxLoad s sl c acc = if x.slot.isSome ∨ x.tearing then setCmd s sl stBusy
      else if acc = .ok then recordAnswer (setCtx (ctxRecord s false c) c { x with slot := some sl }) sl c .ok
      else recordAnswer (ctxRecord s false c) sl c acc := by
  unfold cxLoad
  refine (if_neg (by rw [h]; exact Bool.false_ne_true)).trans ?_
  rw [hx]
  refine if_neg ?_
  rw [hp, hn]
  exact fun e => e rfl
end

theorem cxLoad_busy {s : State} {sl : Nat} (c : Nat) (acc : Access) (h : (slotCtx s sl).isSome = true) : cxLoad s sl c acc = setCmd s sl stBusy := if_pos h

theorem cxLoad_stale {s : State} {sl c : Nat} (acc : Access) (h : slotCtx s sl = none) (hx : ctxAt s c = none) :
    cxLoad s sl c acc = setCmd s sl stStaleHandle := by
  unfold cxLoad
  refine (if_neg (by rw [h]; exact Bool.false_ne_true)).trans ?_
  rw [hx]

theorem cxUnload_stale {s : State} {sl : Nat} (acc : Access) (h : slotCtx s sl = none) : cxUnload s sl acc = setCmd s sl stStaleHandle := by
  rw [cxUnload, h]

theorem cxUnload_own {s : State} {sl n : Nat} {x : Ctx} (acc : Access) (h : slotCtx s sl = some n) (hx : ctxAt s n = some x) :
    cxUnload s sl acc =
      if !x.faulted && (ctxRuns s n none || x.queues.any (fun q => q.2.enabled && q.2.head != q.2.tail)) then setCmd s sl stBusy
      else if acc = .ok then recordAnswer (setCtx (ctxRecord s true n) n { x with slot := none }) sl n .ok
      else recordAnswer (ctxRecord s true n) sl n acc := by
  rw [cxUnload, h]
  dsimp only
  rw [hx]

/-- What an accepted write of a context's record sends. -/
theorem ctxRecord_out (s : State) (n : Nat) : ∃ b, (ctxRecord s true n).out =
    s.out ++ mreqOuts s true ((reg s 0x5F000).toNat + 2 ^ 32 * (reg s 0x5F004).toNat + 16384 * n) 16384 b [] none :=
  ⟨(freeBytes s 16384).1, rfl⟩

/-- The rows of the slot commands. -/
theorem slotCommands_rows (s : State) (sl c p : Nat) (who : Requester) (hs : sl < 64) (hc : c < 4096) (h : opens s who (cxOff sl 4) = true) :
    let rsp := fun (t : State) => finish s (emit t (.regRsp 0 false))
    let rec_ := fun (n : Nat) => (reg s 0x5F000).toNat + 2 ^ 32 * (reg s 0x5F004).toNat + 16384 * n
    (cmdIgnored s sl who = true → ∀ r ∈ ([.cxCreate sl who .ok, .cxLoad sl c who .ok, .cxUnload sl who .ok] : List Instr), exec r s = .next (rsp (quiet s))) ∧
      (cmdIgnored s sl who = false → slotPart s sl = some p → let pasid := (reg s (cxOff sl 8)).toNat % 2 ^ 20
        ((slotCtx s sl).isSome = true → exec (.cxCreate sl who .ok) s = .next (rsp (setCmd (quiet s) sl stBusy)) ∧
          exec (.cxLoad sl c who .ok) s = .next (rsp (setCmd (quiet s) sl stBusy))) ∧
        (slotCtx s sl = none → (partAt s p).pasids.contains pasid = false → exec (.cxCreate sl who .ok) s = .next (rsp (setCmd (quiet s) sl stNotPermitted))) ∧
        (slotCtx s sl = none → (partAt s p).pasids.contains pasid = true → ∀ n, lowestFrom (fun c => (ctxAt s c).isNone) 4096 0 = some n →
          ∃ u x, exec (.cxCreate sl who .ok) s = .next (finish s u) ∧ ctxAt u n = some x ∧ x.part = p ∧ x.pasid = pasid ∧ x.slot = some sl ∧ x.faulted = false ∧
            x.queues = [] ∧ x.own = [] ∧ tget u.parts.cmdStatus sl = some stOk ∧ (∀ i, i ≠ n → ctxAt u i = ctxAt s i) ∧
            ∃ b, u.out = mreqOuts s true (rec_ n) 16384 b [] none ++ [.regRsp 0 false]) ∧
        (slotCtx s sl = none → ctxAt s c = none → exec (.cxLoad sl c who .ok) s = .next (rsp (setCmd (quiet s) sl stStaleHandle))) ∧
        (slotCtx s sl = none → ∀ x, ctxAt s c = some x →
          (x.part ≠ p → exec (.cxLoad sl c who .ok) s = .next (rsp (setCmd (quiet s) sl stNotPermitted))) ∧
          (x.part = p → x.slot.isSome = true ∨ x.tearing = true → exec (.cxLoad sl c who .ok) s = .next (rsp (setCmd (quiet s) sl stBusy))) ∧
          (x.part = p → x.slot = none → x.tearing = false →
            exec (.cxLoad sl c who .ok) s = .next (rsp (setCmd (setCtx (ctxRecord (quiet s) false c) c { x with slot := some sl }) sl stOk)) ∧
            ∀ acc, acc ≠ .ok → exec (.cxLoad sl c who acc) s = .next (rsp (recordAnswer (ctxRecord (quiet s) false c) sl c acc)))) ∧
        (slotCtx s sl = none → exec (.cxUnload sl who .ok) s = .next (rsp (setCmd (quiet s) sl stStaleHandle))) ∧
        (∀ n x, slotCtx s sl = some n → ctxAt s n = some x →
          (x.faulted = false → ctxRuns s n none = true ∨ x.queues.any (fun q => q.2.enabled && q.2.head != q.2.tail) = true →
            exec (.cxUnload sl who .ok) s = .next (rsp (setCmd (quiet s) sl stBusy))) ∧
          (x.faulted = true ∨ (ctxRuns s n none = false ∧ x.queues.any (fun q => q.2.enabled && q.2.head != q.2.tail) = false) →
            exec (.cxUnload sl who .ok) s = .next (rsp (setCmd (setCtx (ctxRecord (quiet s) true n) n { x with slot := none }) sl stOk)) ∧
            ∀ acc, acc ≠ .ok → exec (.cxUnload sl who acc) s = .next (rsp (recordAnswer (ctxRecord (quiet s) true n) sl n acc))))) := by
  intro rsp rec_
  refine ⟨fun hi r hr => ?_, fun hi hp => ?_⟩
  · simp only [List.mem_cons, List.not_mem_nil, or_false] at hr
    obtain rfl | rfl | rfl := hr
    · exact cxCreate_runs h hs (if_pos hi)
    · exact cxLoad_runs h hs hc (if_pos hi)
    · exact cxUnload_runs h hs (if_pos hi)
  have hn : ¬ cmdIgnored s sl who = true := by rw [hi]; exact Bool.false_ne_true
  have create : ∀ {u}, cxCreate (quiet s) sl .ok = u → exec (.cxCreate sl who .ok) s = .next (rsp u) :=
    fun hu => cxCreate_runs h hs ((if_neg hn).trans hu)
  have load : ∀ {acc u}, cxLoad (quiet s) sl c acc = u → exec (.cxLoad sl c who acc) s = .next (rsp u) :=
    fun hu => cxLoad_runs h hs hc ((if_neg hn).trans hu)
  have unload : ∀ {acc u}, cxUnload (quiet s) sl acc = u → exec (.cxUnload sl who acc) s = .next (rsp u) :=
    fun hu => cxUnload_runs h hs ((if_neg hn).trans hu)
  have hq : slotPart (quiet s) sl = some p := hp
  refine ⟨fun hb => ⟨create (cxCreate_busy _ hq hb), load (cxLoad_busy (s := quiet s) _ _ hb)⟩, fun he hf => create (cxCreate_foreign _ hq he hf),
    fun he hf n hl => ?_, fun he hx => load (cxLoad_stale (s := quiet s) _ he hx), fun he x hx => ⟨fun hf => load (cxLoad_foreign _ hq he hx hf), fun hf hb => ?_, fun hf hf1 hf2 => ?_⟩,
    fun he => unload (cxUnload_stale (s := quiet s) _ he), fun n x he hx => ⟨fun hf hb => ?_, fun hb => ?_⟩⟩
  · have hx := create (cxCreate_makes .ok hq he hf hl)
    have hv := cxView_ctxRecord (setCtx (quiet s) n (newCtx p ((reg s (cxOff sl 8)).toNat % 2 ^ 20) sl)) true n
    obtain ⟨b, hb⟩ := ctxRecord_out (setCtx (quiet s) n (newCtx p ((reg s (cxOff sl 8)).toNat % 2 ^ 20) sl)) n
    have hx' : exec (.cxCreate sl who .ok) s = .next (finish s (emit (setCmd (ctxRecord (setCtx (quiet s) n (newCtx p ((reg s (cxOff sl 8)).toNat % 2 ^ 20) sl)) true n) sl stOk)
      (.regRsp 0 false))) := hx
    generalize ctxRecord (setCtx (quiet s) n (newCtx p ((reg s (cxOff sl 8)).toNat % 2 ^ 20) sl)) true n = t at hx' hv hb
    have hcx : ∀ i, ctxAt t i = _ := ctxAt_of_cxView hv
    refine ⟨_, newCtx p ((reg s (cxOff sl 8)).toNat % 2 ^ 20) sl, hx', (hcx n).trans (ctxAt_setCtx_same _ _ _), rfl, rfl, rfl, rfl, rfl, rfl, tget_tset_same _ _ _,
      fun i hi => (hcx i).trans (ctxAt_setCtx_other _ _ _ _ hi), b, ?_⟩
    show t.out ++ [.regRsp 0 false] = _
    rw [hb]
    rfl
  · exact load ((cxLoad_own _ hq he hx hf).trans (if_pos hb))
  · have hnb : ¬ (x.slot.isSome = true ∨ x.tearing = true) := by simp [hf1, hf2]
    exact ⟨load ((cxLoad_own _ hq he hx hf).trans ((if_neg hnb).trans (if_pos rfl))),
      fun acc ha => load ((cxLoad_own _ hq he hx hf).trans ((if_neg hnb).trans (if_neg ha)))⟩
  · exact unload ((cxUnload_own (s := quiet s) _ he hx).trans (if_pos (by
      show (!x.faulted && (ctxRuns s n none || _)) = true
      rcases hb with hb | hb <;> simp [hf, hb])))
  · have hnb : ¬ (!x.faulted && (ctxRuns (quiet s) n none || x.queues.any (fun q => q.2.enabled && q.2.head != q.2.tail))) = true := by
      show ¬ (!x.faulted && (ctxRuns s n none || _)) = true
      rcases hb with hb | ⟨hb, hb'⟩
      · simp [hb]
      · rw [hb, hb']
        simp
    exact ⟨unload ((cxUnload_own (s := quiet s) _ he hx).trans ((if_neg hnb).trans (if_pos rfl))),
      fun acc ha => unload ((cxUnload_own (s := quiet s) _ he hx).trans ((if_neg hnb).trans (if_neg ha)))⟩

end Sys2Proof.Machine
end

section
/-! SUPPORT. Doorbells, queue configuration, owned key IDs and windows (11 R351, R356, R358, R359). -/

namespace Sys2Proof.Machine

/- Proofs are elaborated in their order, for the reason given in the first section of this kind. -/
set_option deprecated.oldSectionVars true

/-! Windows. -/

theorem winCommit_runs {s u : State} {p : Nat} {who : Requester} (h : opens s who (ptOff p 0x34) = true) (hp : p < 16)
    (hu : winCommit (quiet s) p who = u) : exec (.ptWinCommit p who) s = .next (finish s (emit u (.regRsp 0 false))) := by
  have hm : p % 16 = p := Nat.mod_eq_of_lt hp
  refine (write_opens (by rw [hm]; exact h) ?_ : execPtWinCommit p who s = _)
  rw [hm]
  exact hu

/-- The rows of PT_WIN_COMMIT. -/
theorem winCommit_rows (s : State) (p : Nat) (who : Requester) (hp : p < 16) (h : opens s who (ptOff p 0x34) = true) :
    let rsp := fun (t : State) => finish s (emit t (.regRsp 0 false))
    let r := partAt s p
    let v := fun o => (reg s (ptOff p o)).toNat
    (r.live = false ∨ (who.priv = true ∧ r.tdisp ≠ 0) → exec (.ptWinCommit p who) s = .next (rsp (quiet s))) ∧
      (r.live = true → who.priv = false ∨ r.tdisp = 0 → v 0x30 ≠ 0 → v 0x28 < v 0x2C + v 0x30 →
        exec (.ptWinCommit p who) s = .next (rsp (setPart (quiet s) p { r with winErr := true }))) ∧
      (r.live = true → who.priv = false ∨ r.tdisp = 0 → v 0x30 = 0 ∨ v 0x2C + v 0x30 ≤ v 0x28 →
        exec (.ptWinCommit p who) s = .next (rsp (setPart (quiet s) p { r with
          fwinBase := v 0x20 + 2 ^ 32 * v 0x24, fwinPages := v 0x28, owinBase := v 0x2C, owinPages := v 0x30, winErr := false }))) := by
  intro rsp r v
  have hn : r.live = true → who.priv = false ∨ r.tdisp = 0 → ¬ ((!r.live) = true ∨ (who.priv = true ∧ r.tdisp ≠ 0)) := by
    rintro hl ho (hx | ⟨hx, hy⟩)
    · rw [hl] at hx
      nomatch hx
    · exact ho.elim (fun h => nomatch h.symm.trans hx) hy
  refine ⟨fun hx => winCommit_runs h hp (if_pos ?_), fun hl ho h1 h2 => winCommit_runs h hp ((if_neg (hn hl ho)).trans (if_pos ⟨h1, h2⟩)),
    fun hl ho hx => winCommit_runs h hp ((if_neg (hn hl ho)).trans (if_neg ?_))⟩
  · rcases hx with hx | hx
    · exact .inl (by show (!r.live) = true; rw [hx]; rfl)
    · exact .inr hx
  · rintro ⟨h1, h2⟩
    exact hx.elim h1 (fun h3 => Nat.not_lt.mpr h3 h2)

/-! The slot's registers. -/

section
variable {s u : State} {sl : Nat} {who : Requester} (hs : sl < 64)
include hs

theorem doorbell_runs {w : Word} (h : opens s who (cxOff sl 0) = true) (hu : doorbell (quiet s) sl w = u) :
    exec (.cxDoorbell sl w who) s = .next (finish s (emit u (.regRsp 0 false))) := by
  have hm : sl % 64 = sl := Nat.mod_eq_of_lt hs
  refine (write_opens (by rw [hm]; exact h) ?_ : execCxDoorbell sl w who s = _)
  rw [hm]
  exact hu

theorem qcfgWrite_runs {w : Word} (h : opens s who (cxOff sl 0x34) = true) (hu : qcfgWrite (quiet s) sl w = u) :
    exec (.cxQcfgWrite sl w who) s = .next (finish s (emit u (.regRsp 0 false))) := by
  have hm : sl % 64 = sl := Nat.mod_eq_of_lt hs
  refine (write_opens (by rw [hm]; exact h) ?_ : execCxQcfgWrite sl w who s = _)
  rw [hm]
  exact hu

theorem ownKidWrite_runs {i : Nat} {w : Word} (hi : i < 8) (h : opens s who (cxOff sl (0x40 + 4 * i)) = true) (hu : ownKidWrite (quiet s) sl i w = u) :
    exec (.cxOwnKidWrite sl i w who) s = .next (finish s (emit u (.regRsp 0 false))) := by
  have hm : sl % 64 = sl := Nat.mod_eq_of_lt hs
  have hi' : i % 8 = i := Nat.mod_eq_of_lt hi
  refine (write_opens (by rw [hm, hi']; exact h) ?_ : execCxOwnKidWrite sl i w who s = _)
  rw [hm, hi']
  exact hu
end

theorem setQueue_at {s : State} {c : Nat} {x : Ctx} (q : Nat) (f : Queue → Queue) (h : ctxAt s c = some x) :
    setQueue s c q f = setCtx s c { x with queues := tset x.queues q (f (queueAt x q)) } := by
  rw [setQueue, h]

theorem queueAt_same (x : Ctx) (q : Nat) (u : Queue) : queueAt { x with queues := tset x.queues q u } q = u := tgetD_tset_same _ _ _ _

theorem queueAt_other (x : Ctx) (q j : Nat) (u : Queue) (h : j ≠ q) : queueAt { x with queues := tset x.queues q u } j = queueAt x j :=
  tgetD_tset_other _ _ _ _ _ h

/-- A slot's partition is being reset. -/
def slotStill (s : State) (sl : Nat) : Bool := (slotPart s sl).any (fun p => (partAt s p).resetting)

theorem doorbell_still {s : State} {sl : Nat} (w : Word) (h : slotStill s sl = true) : doorbell s sl w = s := if_pos h

theorem doorbell_unheld {s : State} {sl : Nat} (w : Word) (h : slotStill s sl = false) (hc : slotCtx s sl = none) :
    doorbell s sl w = setBits s (cxOff sl 0x14) 4 := by
  unfold doorbell
  refine (if_neg (fun e => nomatch (show slotStill s sl = true from e).symm.trans h)).trans ?_
  rw [hc]

/-- A doorbell of a slot that holds a context. -/
theorem doorbell_held {s : State} {sl c : Nat} {x : Ctx} (w : Word) (h : slotStill s sl = false) (hc : slotCtx s sl = some c) (hx : ctxAt s c = some x) :
    doorbell s sl w = if x.faulted ∨ x.stopped ∨ !(queueAt x (fld w 7 0)).enabled ∨ 2 ^ (queueAt x (fld w 7 0)).log2 ≤ fld w 31 8 ∨ (partAt s x.part).tdisp = 1 then
        setBits s (cxOff sl 0x14) 4
      else countEv (setQueue s c (fld w 7 0) (fun u => { u with tail := fld w 31 8 })) 0x092 (some x.part) 1 := by
  unfold doorbell
  refine (if_neg (fun e => nomatch (show slotStill s sl = true from e).symm.trans h)).trans ?_
  rw [hc]
  dsimp only
  rw [hx]

/-- The rows of a doorbell. -/
theorem doorbell_rows (s : State) (sl c : Nat) (x : Ctx) (w : Word) (who : Requester) (hs : sl < 64) (hc : slotCtx s sl = some c) (hx : ctxAt s c = some x)
    (h : opens s who (cxOff sl 0) = true) : let rsp := fun (t : State) => finish s (emit t (.regRsp 0 false))
    let q := fld w 7 0
    let tail := fld w 31 8
    let still := (slotPart s sl).any (fun p => (partAt s p).resetting)
    (still = true → exec (.cxDoorbell sl w who) s = .next (rsp (quiet s))) ∧
      (still = false → x.faulted = true ∨ x.stopped = true ∨ (queueAt x q).enabled = false ∨ 2 ^ (queueAt x q).log2 ≤ tail ∨ (partAt s x.part).tdisp = 1 →
        exec (.cxDoorbell sl w who) s = .next (rsp (setBits (quiet s) (cxOff sl 0x14) 4))) ∧
      (still = false → x.faulted = false → x.stopped = false → (queueAt x q).enabled = true → tail < 2 ^ (queueAt x q).log2 → (partAt s x.part).tdisp ≠ 1 →
        ∃ u y, exec (.cxDoorbell sl w who) s = .next (finish s u) ∧ ctxAt u c = some y ∧ queueAt y q = { queueAt x q with tail := tail } ∧
          (∀ j, j ≠ q → queueAt y j = queueAt x j) ∧ u.out = [.regRsp 0 false]) := by
  intro rsp q tail still
  refine ⟨fun hb => doorbell_runs hs h (doorbell_still (s := quiet s) w hb), fun hb hd => ?_, fun hb h1 h2 h3 h4 h5 => ?_⟩
  · refine doorbell_runs hs h ((doorbell_held (s := quiet s) w hb hc hx).trans (if_pos ?_))
    rcases hd with hd | hd | hd | hd
    · exact .inl hd
    · exact .inr (.inl hd)
    · exact .inr (.inr (.inl (by rw [hd]; rfl)))
    · exact .inr (.inr (.inr hd))
  · have hn : ¬ (x.faulted = true ∨ x.stopped = true ∨ (!(queueAt x q).enabled) = true ∨ 2 ^ (queueAt x q).log2 ≤ tail ∨ (partAt (quiet s) x.part).tdisp = 1) := by
      rw [h1, h2, h3]
      rintro (e | e | e | e | e)
      · nomatch e
      · nomatch e
      · nomatch e
      · exact Nat.not_lt.mpr e h4
      · exact h5 e
    have hu := (doorbell_held (s := quiet s) w hb hc hx).trans (if_neg hn)
    rw [setQueue_at (s := quiet s) q _ hx] at hu
    have hr := doorbell_runs hs h hu
    obtain ⟨a, b, d, e, hcv⟩ := countEv_counts (setCtx (quiet s) c { x with queues := tset x.queues q { queueAt x q with tail := tail } }) 0x092 (some x.part) 1
    rw [hcv] at hr
    exact ⟨_, _, hr, ctxAt_setCtx_same _ _ _, queueAt_same _ _ _, fun j hj => queueAt_other _ _ _ _ hj, rfl⟩

/-! CX_QCFG. -/

theorem qcfgWrite_unheld {s : State} {sl : Nat} (w : Word) (hc : slotCtx s sl = none) : qcfgWrite s sl w = s := by
  rw [qcfgWrite, hc]

/-- A write of CX_QCFG at a slot that holds a context. -/
theorem qcfgWrite_held {s : State} {sl c : Nat} {x : Ctx} (w : Word) (hc : slotCtx s sl = some c) (hx : ctxAt s c = some x) :
    let q := slotQueue s sl
    let k := fld w 4 0
    let u := queueAt x q
    qcfgWrite s sl w = if k < 4 ∨ 20 < k then s
      else if u.enabled then
        if !wbit w 8 && u.head == u.tail && !ctxRuns s c (some q) then setQueue s c q (fun u => { u with enabled := false }) else s
      else
        let u := { u with log2 := k, prio := fld w 10 9 }
        let s := setQueue s c q (fun _ => if wbit w 8 then { u with enabled := true, head := 0, tail := 0 } else u)
        if wbit w 8 then { s with parts := { s.parts with
          desc := tkeep s.parts.desc (fun _ d => !(d.ctx == c && d.queue == q && d.phase == .recorded)) } } else s := by
  intro q k u
  rw [qcfgWrite, hc]
  dsimp only
  rw [hx]

/-- The rows of a write of CX_QCFG. -/
theorem qcfgWrite_rows (s : State) (sl c : Nat) (x : Ctx) (w : Word) (who : Requester) (hs : sl < 64) (hc : slotCtx s sl = some c) (hx : ctxAt s c = some x)
    (h : opens s who (cxOff sl 0x34) = true) : let rsp := fun (t : State) => finish s (emit t (.regRsp 0 false))
    let q := slotQueue s sl
    let k := fld w 4 0
    (k < 4 ∨ 20 < k → exec (.cxQcfgWrite sl w who) s = .next (rsp (quiet s))) ∧
      (4 ≤ k → k ≤ 20 → (queueAt x q).enabled = true →
        (wbit w 8 = false → (queueAt x q).head = (queueAt x q).tail → ctxRuns s c (some q) = false → ∃ u y, exec (.cxQcfgWrite sl w who) s = .next (finish s u) ∧
          ctxAt u c = some y ∧ queueAt y q = { queueAt x q with enabled := false }) ∧
        (wbit w 8 = true ∨ (queueAt x q).head ≠ (queueAt x q).tail ∨ ctxRuns s c (some q) = true → exec (.cxQcfgWrite sl w who) s = .next (rsp (quiet s)))) ∧
      (4 ≤ k → k ≤ 20 → (queueAt x q).enabled = false → wbit w 8 = true → ∃ u y, exec (.cxQcfgWrite sl w who) s = .next (finish s u) ∧ ctxAt u c = some y ∧
        queueAt y q = { queueAt x q with log2 := k, prio := fld w 10 9, enabled := true, head := 0, tail := 0 }) ∧
      (4 ≤ k → k ≤ 20 → (queueAt x q).enabled = false → wbit w 8 = false → exec (.cxQcfgWrite sl w who) s = .next (rsp (setCtx (quiet s) c
        { x with queues := tset x.queues q { queueAt x q with log2 := k, prio := fld w 10 9 } }))) := by
  intro rsp q k
  have hh := qcfgWrite_held (s := quiet s) w hc hx
  have hin : 4 ≤ k → k ≤ 20 → ¬ (k < 4 ∨ 20 < k) := fun h1 h2 => by omega
  refine ⟨fun hk => qcfgWrite_runs hs h (hh.trans (if_pos hk)), fun h1 h2 he => ⟨fun h8 ht hr => ?_, fun hb => qcfgWrite_runs hs h (hh.trans
    ((if_neg (hin h1 h2)).trans ((if_pos he).trans (if_neg ?_))))⟩, fun h1 h2 he h8 => ?_, fun h1 h2 he h8 => qcfgWrite_runs hs h (hh.trans
    ((if_neg (hin h1 h2)).trans ((if_neg (by rw [show (queueAt x (slotQueue (quiet s) sl)).enabled = false from he]; exact Bool.false_ne_true)).trans ?_)))⟩
  · have hu := hh.trans ((if_neg (hin h1 h2)).trans ((if_pos he).trans (if_pos (by
      show (!wbit w 8 && (queueAt x q).head == (queueAt x q).tail && !ctxRuns s c (some q)) = true
      simp [h8, ht, hr]))))
    rw [setQueue_at (s := quiet s) _ _ hx] at hu
    exact ⟨_, _, qcfgWrite_runs hs h hu, ctxAt_setCtx_same _ _ _, queueAt_same _ _ _⟩
  · show ¬ (!wbit w 8 && (queueAt x q).head == (queueAt x q).tail && !ctxRuns s c (some q)) = true
    rcases hb with hb | hb | hb <;> simp [hb]
  · have hu := hh.trans ((if_neg (hin h1 h2)).trans ((if_neg (by
      rw [show (queueAt x (slotQueue (quiet s) sl)).enabled = false from he]; exact Bool.false_ne_true)).trans (if_pos h8)))
    rw [setQueue_at (s := quiet s) _ _ hx] at hu
    refine ⟨_, _, qcfgWrite_runs hs h hu, ctxAt_setCtx_same _ _ _, (queueAt_same _ _ _).trans ?_⟩
    rw [h8]
    rfl
  · refine (if_neg (by rw [h8]; exact Bool.false_ne_true)).trans ?_
    rw [setQueue_at (s := quiet s) _ _ hx, h8]
    rfl

/-! Owned key IDs. -/

theorem ownKidWrite_unheld {s : State} {sl : Nat} (i : Nat) (w : Word) (hc : slotCtx s sl = none) : ownKidWrite s sl i w = s := by
  unfold ownKidWrite
  rw [hc]

theorem ownKidWrite_held {s : State} {sl c : Nat} {x : Ctx} (i : Nat) (w : Word) (hc : slotCtx s sl = some c) (hx : ctxAt s c = some x) :
    ownKidWrite s sl i w = if 8 ≤ i ∨ (wbit w 31 ∧ !((partAt s x.part).kidBase ≤ (w &&& 0x80000FFF#32).toNat % 4096 ∧
        (w &&& 0x80000FFF#32).toNat % 4096 < (partAt s x.part).kidBase + (partAt s x.part).kidCount)) then s
      else setCtx s c { x with own := tset x.own i (w &&& 0x80000FFF#32).toNat } := by
  unfold ownKidWrite
  rw [hc]
  dsimp only
  rw [hx]

/-- The rows of CX_OWN_KID_WRITE. -/
theorem ownKidWrite_rows (s : State) (sl c i : Nat) (x : Ctx) (w : Word) (who : Requester) (hs : sl < 64) (hi : i < 8) (hc : slotCtx s sl = some c)
    (hx : ctxAt s c = some x) (h : opens s who (cxOff sl (0x40 + 4 * i)) = true) : let rsp := fun (t : State) => finish s (emit t (.regRsp 0 false))
    let v := (w &&& 0x80000FFF).toNat
    let r := partAt s x.part
    (wbit w 31 = true → v % 4096 < r.kidBase ∨ r.kidBase + r.kidCount ≤ v % 4096 → exec (.cxOwnKidWrite sl i w who) s = .next (rsp (quiet s))) ∧
      (wbit w 31 = false ∨ (r.kidBase ≤ v % 4096 ∧ v % 4096 < r.kidBase + r.kidCount) →
        exec (.cxOwnKidWrite sl i w who) s = .next (rsp (setCtx (quiet s) c { x with own := tset x.own i v }))) := by
  intro rsp v r
  have hh := ownKidWrite_held (s := quiet s) i w hc hx
  refine ⟨fun h31 hv => ownKidWrite_runs hs hi h (hh.trans (if_pos (.inr ⟨h31, ?_⟩))), fun hv => ownKidWrite_runs hs hi h (hh.trans (if_neg ?_))⟩
  · rintro (e | ⟨e, e'⟩)
    · omega
    · rcases hv with hv | hv
      · exact absurd (hv.symm.trans e) Bool.false_ne_true
      · rw [Bool.not_eq_true', decide_eq_false_iff_not] at e'
        exact e' hv
  · rw [Bool.not_eq_true', decide_eq_false_iff_not]
    exact fun ⟨a, b⟩ => hv.elim (Nat.not_lt.mpr a) (Nat.not_le.mpr b)

/-- Settles O45: each command by what its slot holds; a context whose record fails is FAULTED, and nothing that ends then touches another. -/
theorem contextsAndQueues : Obligations.ContextsAndQueues :=
  ⟨fun s sl c p who hs hc hp => ⟨fun _ _ _ ha hx => recordAnswer_failed ha hx, slotCommands_rows s sl c p who hs hc, winCommit_rows s p who hp⟩,
    fun s sl c i x w who hs hi hc hx => ⟨doorbell_rows s sl c x w who hs hc hx, qcfgWrite_rows s sl c x w who hs hc hx, ownKidWrite_rows s sl c i x w who hs hi hc hx⟩,
    fun s _ i w _ hs hi hc => ⟨fun h hb => doorbell_runs hs h (doorbell_unheld (s := quiet s) w hb hc), fun h => qcfgWrite_runs hs h (qcfgWrite_unheld (s := quiet s) w hc),
      fun h => ownKidWrite_runs hs hi h (ownKidWrite_unheld (s := quiet s) i w hc)⟩⟩

end Sys2Proof.Machine
end

section
/-! SUPPORT. Fetch, turn, completion record and credit (11 R352, R357 to R361). -/

namespace Sys2Proof.Machine

/- Proofs are elaborated in their order, for the reason given in the first section of this kind. -/
set_option deprecated.oldSectionVars true

/-! Fetch. -/

/-- The state after the entry at HEAD has been read. -/
def entryRead (s : State) (x : Ctx) (q : Nat) : State :=
  emitMreq s false ((queueAt x q).ring + 64 * (queueAt x q).head) 64 [] [] (some x.pasid)

/-- The state after a fetched descriptor has been taken in, before HEAD moves. -/
def takenIn (s : State) (x : Ctx) (c q : Nat) (raw : Bytes) : State :=
  let t := entryRead s x q
  { t with parts := { s.parts with
    desc := tset (tkeep s.parts.desc (fun _ e => !(e.ctx == c && e.queue == q && e.index == (queueAt x q).head && e.phase == .recorded))) s.parts.nextDesc
      (descOf c q (queueAt x q).head (queueAt x q) x.pasid (padTo 64 (raw.take 64)))
    nextDesc := s.parts.nextDesc + 1 } }

theorem fetchDesc_ok {s : State} {c : Nat} {x : Ctx} (q : Nat) (raw : Bytes) (h : ctxAt s c = some x) : fetchDesc s c q raw .ok =
    setCtx (takenIn s x c q raw) c { x with queues := tset x.queues q { queueAt x q with head := ((queueAt x q).head + 1) % 2 ^ (queueAt x q).log2 } } := by
  unfold fetchDesc
  rw [h]
  exact setQueue_at (s := takenIn s x c q raw) q _ h

theorem fetchDesc_poison {s : State} {c : Nat} {x : Ctx} (q : Nat) (raw : Bytes) (h : ctxAt s c = some x) :
    fetchDesc s c q raw .poison = faultCtx (entryRead s x q) c stInternal q (queueAt x q).head := by
  rw [fetchDesc, h]
  rfl

theorem fetchDesc_err {s : State} {c : Nat} {x : Ctx} (q : Nat) (raw : Bytes) (h : ctxAt s c = some x) :
    fetchDesc s c q raw .err = faultCtx (ioEvent (entryRead s x q) 0xFF 0 stInternal 0 x.part c ((queueAt x q).ring + 64 * (queueAt x q).head))
      c stInternal q (queueAt x q).head := by
  rw [fetchDesc, h]
  rfl

/-- The rows of DESCRIPTOR_FETCH. -/
theorem fetch_rows (s : State) (c q : Nat) (raw : Bytes) (acc : Access) (h : engUp s = true) (hq : q < 256) :
    (fetchable s c q = false ∨ dispatchOpen s = false → exec (.descriptorFetch c q raw acc) s = .next (finish s (quiet s))) ∧
      ∀ x, fetchable s c q = true → dispatchOpen s = true → ctxAt s c = some x → let u := queueAt x q; let at_ := u.ring + 64 * u.head
        (∃ t y e, exec (.descriptorFetch c q raw .ok) s = .next (finish s t) ∧ t.out = mreqOuts s false at_ 64 [] [] (some x.pasid) ∧
          descAt t s.parts.nextDesc = some e ∧ e.raw = padTo 64 (raw.take 64) ∧ e.ctx = c ∧ e.queue = q ∧ e.index = u.head ∧ e.phase = .fetched ∧
          e.opcode = leAt e.raw 0 1 ∧ t.parts.nextDesc = s.parts.nextDesc + 1 ∧ ctxAt t c = some y ∧ (queueAt y q).head = (u.head + 1) % 2 ^ u.log2 ∧
          (queueAt y q).tail = u.tail) ∧
        exec (.descriptorFetch c q raw .poison) s = .next (finish s (faultCtx (emitMreq (quiet s) false at_ 64 [] [] (some x.pasid)) c stInternal q u.head)) ∧
        exec (.descriptorFetch c q raw .err) s = .next (finish s (faultCtx (ioEvent (emitMreq (quiet s) false at_ 64 [] [] (some x.pasid))
          0xFF 0 stInternal 0 x.part c at_) c stInternal q u.head)) := by
  have hm : q % 256 = q := Nat.mod_eq_of_lt hq
  refine ⟨fun hn => ?_, fun x hf ho hx => ?_⟩
  · refine (runEng_run h (when_neg ?_) : execDescriptorFetch c q raw acc s = _)
    show (fetchable s c (q % 256) && dispatchOpen s) = false
    rw [hm]
    rcases hn with hn | hn <;> simp [hn]
  · have run : ∀ {acc u}, fetchDesc (quiet s) c q raw acc = u → exec (.descriptorFetch c q raw acc) s = .next (finish s u) := fun {acc u} hu => by
      refine (runEng_run h ((when_pos ?_).trans ?_) : execDescriptorFetch c q raw acc s = _)
      · show (fetchable s c (q % 256) && dispatchOpen s) = true
        rw [hm, hf, ho]
        rfl
      · rw [hm]
        exact hu
    refine ⟨⟨_, _, descOf c q (queueAt x q).head (queueAt x q) x.pasid (padTo 64 (raw.take 64)), run (fetchDesc_ok q raw hx), rfl, tget_tset_same _ _ _, rfl, rfl, rfl, rfl, rfl, rfl, rfl,
      ctxAt_setCtx_same _ _ _, ?_, ?_⟩, run (fetchDesc_poison q raw hx), run (fetchDesc_err q raw hx)⟩
    · rw [queueAt_same]
    · rw [queueAt_same]

/-! Whose turn it is. -/

theorem firstStart_none {s : State} {acc : Access} {l : List Cand} (h : ∀ k ∈ l, tryStart s k.desc acc = none) : firstStart s acc l = none := by
  induction l with
  | nil => rfl
  | cons k l ih =>
    rw [firstStart, h k (.head l)]
    exact ih fun j hj => h j (.tail k hj)

theorem firstStart_first {s t : State} {acc : Access} {pre rest : List Cand} {k : Cand} (h : ∀ j ∈ pre, tryStart s j.desc acc = none)
    (hk : tryStart s k.desc acc = some t) : firstStart s acc (pre ++ k :: rest) = some (k.desc, tookTurn t k) := by
  induction pre with
  | nil => rw [List.nil_append, firstStart, hk]
  | cons j pre ih =>
    rw [List.cons_append, firstStart, h j (.head pre)]
    exact ih fun i hi => h i (.tail j hi)

/-- The rows of DESCRIPTOR_START. -/
theorem start_rows (s : State) (acc : Access) (h : engUp s = true) :
    (dispatchUp s = false ∨ candidates s = [] → exec (.descriptorStart acc) s = .next (finish s (quiet s))) ∧
    (dispatchUp s = true → (∀ k ∈ turns s, tryStart (quiet s) k.desc acc = none) → exec (.descriptorStart acc) s = .next (finish s (quiet s))) ∧
    (dispatchUp s = true → ∀ pre k rest t, turns s = pre ++ k :: rest → (∀ j ∈ pre, tryStart (quiet s) j.desc acc = none) →
      tryStart (quiet s) k.desc acc = some t → exec (.descriptorStart acc) s = .next (finish s { t with parts := { t.parts with
        rrPart := k.part, rrSlot := tset t.parts.rrSlot k.part k.slot, rrQueue := tset t.parts.rrQueue (4 * k.slot + k.prio % 4) k.queue } })) := by
  have turn : ∀ {o}, firstStart (quiet s) acc (turns s) = o → dispatchTurn (quiet s) acc = (o.map (·.2)).getD (quiet s) := fun ho => by
    rw [dispatchTurn, show theTurn (quiet s) acc = firstStart (quiet s) acc (turns s) from rfl, ho]
  have up : ∀ {u}, dispatchUp s = true → dispatchTurn (quiet s) acc = u → exec (.descriptorStart acc) s = .next (finish s u) := fun hd hu =>
    (runEng_run h ((when_pos (show dispatchUp (quiet s) = true from hd)).trans hu) : execDescriptorStart acc s = _)
  have none_ : dispatchUp s = true → (∀ k ∈ turns s, tryStart (quiet s) k.desc acc = none) → exec (.descriptorStart acc) s = .next (finish s (quiet s)) :=
    fun hd hn => up hd (turn (firstStart_none hn))
  refine ⟨fun hn => ?_, none_, fun hd pre k rest t ht hp hk => up hd (turn (o := some (k.desc, tookTurn t k)) ?_)⟩
  · cases hd : dispatchUp s with
    | false => exact (runEng_run h (when_neg (show dispatchUp (quiet s) = false from hd)) : execDescriptorStart acc s = _)
    | true =>
      have hc := hn.resolve_left (by rw [hd]; exact fun e => nomatch e)
      refine none_ hd fun k hk => ?_
      rw [turns, hc] at hk
      nomatch hk
  · rw [ht]
    exact firstStart_first hp hk

/-! The completion record. -/

/-- A Cadence record changes the queue of such records and the registers below the slots' own. -/
theorem queueCadence_form (s : State) (b : Bytes) :
    ∃ c w, queueCadence s b = { s with upd := { s.upd with cadence := c }, win := w } ∧ ∀ o, 0x40000 ≤ o → reg (queueCadence s b) o = reg s o := by
  unfold queueCadence
  dsimp only
  have hb : ∀ o, 0x40000 ≤ o → reg (bump (setBits s 0x31010 0x10) 0x31038) o = reg s o := fun o ho =>
    (reg_setReg_other _ _ _ _ (by omega)).trans (reg_setReg_other _ _ _ _ (by omega))
  split
  · split
    · exact ⟨_, _, rfl, fun _ _ => rfl⟩
    · exact ⟨_, _, rfl, hb⟩
  · split
    · exact ⟨_, _, rfl, fun _ _ => rfl⟩
    · exact ⟨_, _, rfl, hb⟩

/-- Once a descriptor's record is written no Cadence record of it is owed. -/
theorem cadenceLate_form (s : State) (d : Nat) : ∃ u w, cadenceLate s d = { s with upd := u, win := w } ∧ tget u.cadDue d = none ∧
    (∀ o, 0x40000 ≤ o → reg (cadenceLate s d) o = reg s o) ∧ (tget s.upd.cadDue d = none → w = s.win) := by
  unfold cadenceLate
  split
  · next h => exact ⟨s.upd, s.win, rfl, h, fun _ _ => rfl, fun _ => rfl⟩
  · next b h =>
    obtain ⟨c, w, e, hr⟩ := queueCadence_form { s with upd := { s.upd with cadDue := tdel s.upd.cadDue d } } b
    exact ⟨_, w, e, tget_tdel_same _ _, hr, fun hn => nomatch h.symm.trans hn⟩

/-- A page that is due changes its partition alone. -/
theorem noteDirty_part (s : State) (a x l : Nat) : ∃ p, noteDirty s a x l = { s with parts := { s.parts with part := p } } := by
  unfold noteDirty
  split
  · exact ⟨s.parts.part, rfl⟩
  · dsimp only
    split
    · exact ⟨_, rfl⟩
    · exact ⟨s.parts.part, rfl⟩

/-- The state after a record has been written. -/
def recorded (s : State) (d : Nat) (x : Desc) : State :=
  cadenceLate (noteDirty (setDesc (emitMreq s true x.recAddr 16 (recordBytes x) [] (some x.pasid)) d { x with phase := .recorded }) x.pasid x.recAddr 16) d

theorem recorded_form (s : State) (d : Nat) (x : Desc) : descAt (recorded s d x) d = some { x with phase := .recorded } ∧
    (recorded s d x).out = s.out ++ mreqOuts s true x.recAddr 16 (recordBytes x) [] (some x.pasid) ∧ tget (recorded s d x).upd.cadDue d = none ∧
    (tget s.upd.cadDue d = none → (recorded s d x).win = s.win) ∧ (recorded s d x).parts.ctx = s.parts.ctx ∧
    ∀ o, 0x40000 ≤ o → reg (recorded s d x) o = reg s o := by
  obtain ⟨p, hp⟩ := noteDirty_part (setDesc (emitMreq s true x.recAddr 16 (recordBytes x) [] (some x.pasid)) d { x with phase := .recorded }) x.pasid x.recAddr 16
  obtain ⟨u, w, e, h1, h2, h3⟩ := cadenceLate_form (noteDirty (setDesc (emitMreq s true x.recAddr 16 (recordBytes x) [] (some x.pasid)) d
    { x with phase := .recorded }) x.pasid x.recAddr 16) d
  have hr : recorded s d x = _ := e
  refine ⟨?_, ?_, ?_, fun hc => ?_, ?_, fun o ho => (h2 o ho).trans ?_⟩
  · rw [hr, hp]
    exact tget_tset_same _ _ _
  · rw [hr, hp]
    rfl
  · rw [hr]
    exact h1
  · rw [hr]
    exact (h3 (by rw [hp]; exact hc)).trans (by rw [hp]; rfl)
  · rw [hr, hp]
    rfl
  · rw [hp]
    rfl

theorem writeRecord_done {s : State} {d : Nat} {x : Desc} (h : descAt s d = some x) (hp : x.phase = .done) : writeRecord s d .ok =
    if x.irq then ((ctxAt (recorded s d x) x.ctx).bind (·.slot)).elim (recorded s d x) (fun sl => setBits (recorded s d x) (cxOff sl 0x14) 1)
    else recorded s d x := by
  unfold writeRecord
  rw [h]
  refine (if_neg (not_not.mpr hp)).trans ?_
  show (if x.irq then _ else _) = _
  split
  · rw [show (recorded s d x) = cadenceLate _ d from rfl]
    split
    · next sl hsl => rw [hsl]; rfl
    · next hn => rw [hn]; rfl
  · rfl

theorem writeRecord_other {s : State} {d : Nat} {x : Desc} (acc : Access) (h : descAt s d = some x) (hp : x.phase ≠ .done) : writeRecord s d acc = s := by
  unfold writeRecord
  rw [h]
  exact if_pos hp

/-- The rows of COMPLETION_RECORD. -/
theorem record_rows (s : State) (d : Nat) (acc : Access) (h : engUp s = true) (x : Desc) (hx : descAt s d = some x) :
      (x.phase ≠ .done → exec (.completionRecord d acc) s = .next (finish s (quiet s))) ∧
      (x.phase = .done → ∃ u, exec (.completionRecord d .ok) s = .next (finish s u) ∧ descAt u d = some { x with phase := .recorded } ∧
        u.out = mreqOuts s true x.recAddr 16 (leBytes 1 x.status ++ leBytes 1 x.opcode ++ [0#8, 0#8] ++ leBytes 4 x.user ++ leBytes 8 x.result) [] (some x.pasid) ∧
        (x.irq = false → tget s.upd.cadDue d = none → u.win = s.win) ∧ tget u.upd.cadDue d = none ∧
        (∀ y sl, x.irq = true → ctxAt s x.ctx = some y → y.slot = some sl → reg u (cxOff sl 0x14) = reg s (cxOff sl 0x14) ||| 1)) := by
  refine ⟨fun hp => (runEng_run h (writeRecord_other (s := quiet s) acc hx hp) : execCompletionRecord d acc s = _), fun hp => ?_⟩
  have hr : exec (.completionRecord d .ok) s = _ := (runEng_run h (writeRecord_done (s := quiet s) hx hp) : execCompletionRecord d .ok s = _)
  obtain ⟨h1, h2, h3, h4, h5, h6⟩ := recorded_form (quiet s) d x
  generalize recorded (quiet s) d x = t at hr h1 h2 h3 h4 h5 h6
  refine ⟨_, hr, ?_⟩
  have hout : t.out = mreqOuts s true x.recAddr 16 (leBytes 1 x.status ++ leBytes 1 x.opcode ++ [0#8, 0#8] ++ leBytes 4 x.user ++ leBytes 8 x.result) [] (some x.pasid) := h2
  have hwin : tget s.upd.cadDue d = none → t.win = s.win := h4
  by_cases hi : x.irq = true
  · have hc : ctxAt t x.ctx = ctxAt s x.ctx := congrArg (tget · x.ctx) h5
    rw [if_pos hi, hc]
    cases hs : (ctxAt s x.ctx).bind (·.slot) with
    | none =>
      refine ⟨h1, hout, fun e => absurd (e.symm.trans hi) Bool.false_ne_true, h3, fun y sl _ hy hsl => ?_⟩
      rw [hy] at hs
      exact nomatch hs.symm.trans hsl
    | some sl =>
      refine ⟨h1, hout, fun e => absurd (e.symm.trans hi) Bool.false_ne_true, h3, fun y sl' _ hy hsl => ?_⟩
      rw [hy] at hs
      cases hs.symm.trans hsl
      exact (reg_setReg_same _ _ _).trans (congrArg (· ||| 1) (h6 _ (by unfold cxOff; omega)))
  · rw [if_neg hi]
    exact ⟨h1, hout, fun _ hc => hwin hc, h3, fun _ _ e => absurd e hi⟩

end Sys2Proof.Machine
end

section
/-! SUPPORT. The credit of a partition's classes, and the dispatcher as a whole (11 R352). -/

namespace Sys2Proof.Machine

/- Proofs are elaborated in their order, for the reason given in the first section of this kind. -/
set_option deprecated.oldSectionVars true

/-- Ten nanoseconds of credit for one class of a partition. -/
def classTick (b : List Nat) (p : Nat) (s : State) (c : Nat) : State :=
  let v := tgetD s.fab.credit (p * 8 + c) 0
  { s with fab := { s.fab with credit := tset s.fab.credit (p * 8 + c) (min (v + 5 * ((b.getD c 0 : Nat) : Int)) (5000 * ((b.getD c 0 : Nat) : Int))) } }

/-- Every class of a list without repetition has its ten nanoseconds once, and nothing else changes. -/
theorem classTicks_form (b : List Nat) (p : Nat) (l : List Nat) (hl : l.Nodup) (s : State) :
    ∃ cr, l.foldl (classTick b p) s = { s with fab := { s.fab with credit := cr } } ∧
      (∀ c ∈ l, tgetD cr (p * 8 + c) 0 = min (tgetD s.fab.credit (p * 8 + c) 0 + 5 * ((b.getD c 0 : Nat) : Int)) (5000 * ((b.getD c 0 : Nat) : Int))) ∧
      ∀ k, (∀ c ∈ l, k ≠ p * 8 + c) → tget cr k = tget s.fab.credit k := by
  induction l generalizing s with
  | nil => exact ⟨s.fab.credit, rfl, fun c hc => absurd hc List.not_mem_nil, fun _ _ => rfl⟩
  | cons c l ih =>
    obtain ⟨hc, hl⟩ := List.nodup_cons.mp hl
    obtain ⟨cr, e, h1, h2⟩ := ih hl (classTick b p s c)
    have other : ∀ k, k ≠ p * 8 + c → tget (classTick b p s c).fab.credit k = tget s.fab.credit k := fun k hk => tget_tset_other _ _ _ _ hk
    refine ⟨cr, e, fun d hd => ?_, fun k hk => (h2 k fun d hd => hk d (.tail c hd)).trans (other k (hk c (.head l)))⟩
    rcases List.mem_cons.mp hd with rfl | hd
    · have hx : tget cr (p * 8 + d) = _ := h2 (p * 8 + d) (fun j hj => by
        have : j ≠ d := fun e => hc (e ▸ hj)
        omega)
      unfold tgetD
      rw [hx]
      exact tgetD_tset_same _ _ _ _
    · refine (h1 d hd).trans ?_
      have hne : p * 8 + d ≠ p * 8 + c := by
        have : d ≠ c := fun e => hc (e ▸ hd)
        omega
      rw [tgetD, other _ hne]
      rfl

/-- One partition's turn. -/
def partTick (s : State) (p : Nat × PartRec) : State :=
  if p.2.live then ([1, 2, 3, 4, 5, 6] : List Nat).foldl (classTick p.2.budgets p.1) s else s

theorem creditTick_eq (s : State) : creditTick s = s.parts.part.foldl partTick s := rfl

/-- The rows of CREDIT_TICK. -/
theorem credit_rows (s : State) (h : engUp s = true) :
    ((∀ p ∈ s.parts.part, p.2.live = false) → exec .creditTick s = .next (finish s (quiet s))) ∧
    (∀ p r, s.parts.part = [(p, r)] → r.live = true → ∃ u, exec .creditTick s = .next (finish s u) ∧ u.parts = s.parts ∧ u.keys = s.keys ∧
      (∀ k, 1 ≤ k → k ≤ 6 → tgetD u.fab.credit (p * 8 + k) 0 =
        min (tgetD s.fab.credit (p * 8 + k) 0 + 5 * ((r.budgets.getD k 0 : Nat) : Int)) (5000 * ((r.budgets.getD k 0 : Nat) : Int))) ∧
      (∀ k, k / 8 ≠ p → tget u.fab.credit k = tget s.fab.credit k)) := by
  have run : ∀ {u}, s.parts.part.foldl partTick (quiet s) = u → exec .creditTick s = .next (finish s u) := fun hu => (runEng_run h hu : execCreditTick s = _)
  refine ⟨fun hn => run (foldl_fixed _ _ _ fun p hp => if_neg (by rw [hn p hp]; exact Bool.false_ne_true)), fun p r hp hl => ?_⟩
  obtain ⟨cr, e, h1, h2⟩ := classTicks_form r.budgets p [1, 2, 3, 4, 5, 6] (by decide) (quiet s)
  have hx := run ((congrArg (List.foldl partTick (quiet s)) hp).trans ((if_pos hl).trans e))
  refine ⟨_, hx, rfl, rfl, fun k h3 h4 => h1 k ?_, fun k hk => h2 k fun c hc => ?_⟩
  · simp only [List.mem_cons, List.not_mem_nil, or_false]
    omega
  · simp only [List.mem_cons, List.not_mem_nil, or_false] at hc
    omega

/-- Settles O46: the fetch, the turn, the record and the credit, each by what it finds. -/
theorem dispatcherRuns : Obligations.DispatcherRuns := by
  intro s c q d raw acc h
  obtain ⟨a1, a2, a3⟩ := start_rows s acc h
  obtain ⟨b1, b2⟩ := credit_rows s h
  exact ⟨fetch_rows s c q raw acc h, a1, a2, a3, record_rows s d acc h, b1, b2⟩

end Sys2Proof.Machine
end

section
/-! SUPPORT. A reduction whose own descriptor has a signal under way: O48 refuted. -/

namespace Sys2Proof.Machine
/- Proofs are elaborated in their order, for the reason given in the first section of this kind. -/
set_option deprecated.oldSectionVars true

/-- A policy that admits the vertices 0 to 7. -/
def smallDomain : Policy :=
  { domainId := 0, serial := 0, flags := 0, leadSet := [], minIp := 0, minSvn := 0, fw := [], roots := [], opKey := [],
    manager := 0xFFFF, bitmap := [0xFF], digest := [] }

/-- The entry of a reduction of one element of the inputs 2 and 3 on port 0, with SUB 0, to memory. -/
def reduceEntry : Bytes :=
  [2, 0, 0, 0, 0, 0, 0, 0, 1, 0, 0, 0, 0, 0, 0, 0, 0, 0, 0, 0, 0x20, 0, 0, 2, 2, 0, 3, 0] ++ List.replicate 36 0

/-- Its descriptor, fetched and not yet started. -/
def reduceDesc : Desc :=
  { ctx := 0, queue := 0, index := 0, opcode := 2, user := 0, irq := false, ordered := false, shared := false, raw := reduceEntry,
    phase := .fetched, status := 0, result := 0, checked := false, mark := none, quiet := false, recAddr := 0, pasid := 0 }

/-- A reduction that holds 56 slots of port 0. -/
def wideStage : Stage :=
  { stageOf 0 1 reduceEntry with
    localEn := true
    inputs := (List.range 4).map (fun i => { vertex := 4 + i, binds := [], frames := [] }) }

/-- The frame of a signal of descriptor 0, toward vertex 2, on its way. -/
def ownSignal : TxFrame := { TxFrame.blank with dst := 2, owner := 1, origin := .signal 0 }

/-- A resident context of partition 0. -/
def plainCtx : Ctx :=
  { part := 0, pasid := 0, slot := some 0, faulted := false, fStatus := 0, fQueue := 0, fIndex := 0, own := [], queues := [],
    stopped := false, tearing := false }

/-- A block where descriptor 0, a reduction about to start, has a signal frame of its own under way, and port 0 no room. -/
def reduceState : State :=
  { engines with
    aon := { engines.aon with ready := true }
    dom := { Domain.reset with member := true, vertex := some 1, policy := some smallDomain }
    parts := { engines.parts with
      part := [(0, { PartRec.none with live := true, ports := 1 })]
      ctx := [(0, plainCtx)]
      desc := [(0, reduceDesc)] }
    red := { engines.red with stages := [(1, wideStage)] }
    fab := { engines.fab with txq := [ownSignal] } }

/-- Whether descriptor 0 has ended. -/
def firstEnded (o : Host.Outcome State Fault Refusal) : Bool :=
  match o with
  | .next t => (descAt t 0).any (fun x => x.phase == .done)
  | _ => false

theorem reduceState_starts : starts reduceState 0 reduceDesc 2 = true := by decide

theorem reduceState_passes : reduceCheck reduceState reduceEntry (stageOf 0 0 reduceEntry) = none := by decide

theorem reduceState_ends : firstEnded (exec (.wdReduce 0) reduceState) = true := by decide

theorem reduceState_claimed : firstEnded (.next (finish reduceState (quiet reduceState))) = false := by decide

/-- Refutes O48: a reduction that finds no room waits in its queue unless an earlier check ends it, and one of those checks is whether a
running signal of its partition uses its SUB. A descriptor that starts counts as running, so a signal frame which names the reduction's
own descriptor, as no premise excludes, ends it with BUSY where the statement has it wait. -/
theorem not_reductionStarts : ¬ Obligations.ReductionStarts := by
  unfold Obligations.ReductionStarts
  intro h
  obtain ⟨hstart, -⟩ := h reduceState 0 reduceDesc { hdr := Hdr.zero, payload := [], port := 0, seqN := 0, comb := none }
  obtain ⟨-, hwait, -⟩ := hstart reduceState_starts
  have hends := reduceState_ends
  rw [hwait reduceState_passes (by decide) (by decide)] at hends
  exact Bool.false_ne_true (reduceState_claimed.symm.trans hends)

end Sys2Proof.Machine
end

section
/-! SUPPORT. Updates that start, and their bindings to reductions (O50). -/

namespace Sys2Proof.Machine
/- Proofs are elaborated in their order, for the reason given in the first section of this kind. -/
set_option deprecated.oldSectionVars true

/-! The state in which a started descriptor is checked keeps the Hub and the registers below the counters' own. -/

theorem hub_begun (s : State) (d : Nat) (x : Desc) : (begun s d x).hub = s.hub := by
  obtain ⟨_, _, _, _, _, _, h⟩ := begun_begins s d x
  rw [h]

theorem reg_begun (s : State) (d : Nat) (x : Desc) {o : Nat} (h : o < 0x60010) : reg (begun s d x) o = reg s o := by
  have hs : ∀ p, reg (startSnap s p) o = reg s o := fun p => by
    unfold startSnap
    split <;> rfl
  have hm : ∀ t, reg (takeMark t d x) o = reg t o := fun t => by
    unfold takeMark
    split
    · rfl
    · dsimp only
      split
      · split <;> rfl
      · rfl
  exact (hm _).trans ((countEv_reg _ _ _ _ _ h).trans (hs _))

/-- The checks of an update read the regions, the parameter groups, the updates that hold them, and the Hub's commands. -/
theorem updCheck_begun (s : State) (d : Nat) (x : Desc) (p : Nat) (b : Bytes) (acc : Access) :
    updCheck (begun s d x) p b acc = updCheck s p b acc := by
  have h : Spared s (begun s d x) := spared_begun s d x
  have hr : pgdRegions (begun s d x) p = pgdRegions s p := by
    funext b
    unfold pgdRegions regionAt
    rw [h.mem]
  have hg : pgdGroups (begun s d x) = pgdGroups s := congrArg (fun w => fld w 12 0) (reg_begun s d x (by decide))
  have hp : pgdAt (begun s d x) p = pgdAt s p := by
    funext g
    unfold pgdAt
    rw [h.upd]
  have hh : ∀ k, isHeld (begun s d x) k = isHeld s k := fun k => by
    unfold isHeld
    rw [hub_begun]
  unfold updCheck groupHeld
  simp only [hr, hg, hp, hh, h.upd]

/-- An update that starts runs as `startUpdate` says of the state in which it is checked. -/
theorem wdUpdate_runs {s t : State} {d : Nat} {x : Desc} (h : starts s d x 3 = true)
    (ht : startUpdate (begun (quiet s) d x) d x.ctx ((ctxPart s x.ctx).getD 0) x.raw .ok = some t) :
    ∃ c, exec (.wdUpdate d .ok) s = .next (finish s (tookTurn t c)) := by
  have hp : ctxPart (begun (quiet s) d x) x.ctx = ctxPart s x.ctx := (begun_begins (quiet s) d x).ctxPart x.ctx
  rw [← hp] at ht
  obtain ⟨c, e⟩ := startOne_some h ((tryStart_starts h).trans ht)
  exact ⟨c, (e : execWdUpdate d .ok s = _)⟩

theorem updRunning_begun (s : State) (d : Nat) (x : Desc) : updRunning (begun s d x) = updRunning s := by
  unfold updRunning
  rw [(begun_begins s d x).upd]

/-! What `startUpdate` does, clause by clause. -/

section
variable {t : State} {d c p : Nat} {b : Bytes}

theorem startUpdate_refused {st : Nat} (hn : tget t.upd.runs d = none) (h : updCheck t p b .ok = some st) :
    startUpdate t d c p b .ok = some (completeDesc t d st 0) := by
  unfold startUpdate
  rw [hn]
  dsimp only
  rw [h]
  dsimp only
  rw [if_neg (by simp)]

/-- The state in which a step skew has been counted and named. -/
def skewed (t : State) (p : Nat) (b : Bytes) : State :=
  let s := countEv (bump (setBits t 0x31010 1) 0x31024) 0x082 (some p) 1
  { s with upd := { s.upd with skewGroup := leAt b 16 2, skewPart := p } }

theorem startUpdate_skew (hn : tget t.upd.runs d = none) (h : updCheck t p b .ok = none)
    (hs : pgdStep (pgdAt t p (leAt b 16 2)) + 1 ≠ leAt b 8 8) (htag : leAt b 28 4 = 0) :
    startUpdate t d c p b .ok = some (refuseUpdate (skewed t p b) d p b stStepSkew) := by
  unfold startUpdate
  rw [hn]
  dsimp only
  rw [h]
  dsimp only
  rw [if_neg fun e => e.1 htag, if_pos hs]
  rfl

theorem startUpdate_frozen (hn : tget t.upd.runs d = none) (h : updCheck t p b .ok = none)
    (hs : pgdStep (pgdAt t p (leAt b 16 2)) + 1 = leAt b 8 8) (hf : pgdFrozen (pgdAt t p (leAt b 16 2)) = true) (htag : leAt b 28 4 = 0)
    (hp : leAt b 18 1 = 1) : ∃ fl n k, startUpdate t d c p b .ok =
      some (pushCadence (completeDesc (bump t 0x31028) d stOkFrozen 0) p (leAt b 16 2) stOkFrozen fl n k) := by
  unfold startUpdate
  rw [hn]
  dsimp only
  rw [h]
  dsimp only
  rw [if_neg fun e => e.1 htag, if_neg (not_not.2 hs), if_pos hf, if_pos hp, htag]
  exact ⟨_, _, _, rfl⟩

section
variable (hn : tget t.upd.runs d = none) (h : updCheck t p b .ok = none)
    (hs : pgdStep (pgdAt t p (leAt b 16 2)) + 1 = leAt b 8 8) (hf : pgdFrozen (pgdAt t p (leAt b 16 2)) = false)
    (hb : leAt b 28 4 = 0 ∨ fuseBusy t p (leAt b 28 4) = false)
include hn h hs hf hb

/-- An update of a group that is not frozen whose step is the next, at a free tag, runs where there is room. -/
theorem startUpdate_runs (hr : canRun t p (leAt b 28 4) = true) :
    startUpdate t d c p b .ok = some (runUpdate (updOf t c p b).2 d (updOf t c p b).1) := by
  unfold startUpdate
  rw [hn]
  dsimp only
  rw [h]
  dsimp only
  rw [if_neg fun e => e.2.1.elim (fun k => k hs) (fun k => Bool.false_ne_true (hf.symm.trans k)), if_neg (not_not.2 hs),
    if_neg (fun k => Bool.false_ne_true (hf.symm.trans k)),
    if_neg fun e => hb.elim e.1 (fun k => Bool.false_ne_true (k.symm.trans e.2))]
  exact if_pos hr

/-- Without room it waits at its queue's head. -/
theorem startUpdate_waits {x : Desc} (hr : ¬ canRun t p (leAt b 28 4) = true) (hx : descAt t d = some x) : startUpdate t d c p b .ok =
    some (setDesc (setUpd (updOf t c p b).2 d (updOf t c p b).1) d { x with checked := true, phase := .fetched }) := by
  unfold startUpdate
  rw [hn]
  dsimp only
  rw [h]
  dsimp only
  rw [if_neg fun e => e.2.1.elim (fun k => k hs) (fun k => Bool.false_ne_true (hf.symm.trans k)), if_neg (not_not.2 hs),
    if_neg (fun k => Bool.false_ne_true (hf.symm.trans k)),
    if_neg fun e => hb.elim e.1 (fun k => Bool.false_ne_true (k.symm.trans e.2)), hx]
  exact if_neg hr

end

end

/-- A Cadence record changes the queue of records or the registers. -/
theorem pushCadence_keeps (s : State) (p g st fl n k : Nat) :
    (pushCadence s p g st fl n k).parts = s.parts ∧ (pushCadence s p g st fl n k).mem = s.mem ∧
    ∃ l, (pushCadence s p g st fl n k).upd = { s.upd with cadence := l } := by
  obtain ⟨l, w, e, -⟩ := queueCadence_form s (cadenceRec s p g st fl n k)
  unfold pushCadence
  rw [e]
  exact ⟨rfl, rfl, l, rfl⟩

/-- An update whose gradient comes from a reduction and that waits for no norms takes its place, and reads nothing ahead. -/
theorem runUpdate_fed {s : State} {d : Nat} {u : Upd} (hp : u.phase ≠ 2) (hs : pgdSrc u.pgd = 1) :
    (runUpdate s d u).upd.runs = tset s.upd.runs d { u with running := true } ∧ (runUpdate s d u).parts = s.parts := by
  have pump : ∀ t : State, tget t.upd.runs d = some { u with running := true } → pumpTiles 4 t d = t := fun t h => by
    unfold pumpTiles
    rw [h]
    dsimp only
    exact if_pos (.inr (.inr (.inl hs)))
  have same : ∀ l, pumpTiles 4 { setUpd s d { u with running := true } with
      upd := { (setUpd s d { u with running := true }).upd with fuses := l } } d = { setUpd s d { u with running := true } with
        upd := { (setUpd s d { u with running := true }).upd with fuses := l } } := fun l => pump _ (tget_tset_same _ _ _)
  unfold runUpdate
  dsimp only
  rw [if_neg hp]
  split
  · rw [pump _ (tget_tset_same _ _ _)]
    exact ⟨rfl, rfl⟩
  · split
    · rw [fusePut, same]
      exact ⟨rfl, rfl⟩
    · rw [fusePut, same]
      exact ⟨rfl, rfl⟩

/-- The first half of O50: an update that starts. -/
theorem wdUpdate_clauses (s : State) (d : Nat) (x : Desc) (h : starts s d x 3 = true) (hn : tget s.upd.runs d = none) :
    let p := (ctxPart s x.ctx).getD 0; let b := x.raw; let pgd := pgdAt s p (leAt b 16 2)
    (∀ st, updCheck s p b .ok = some st → ∃ u y, exec (.wdUpdate d .ok) s = .next (finish s u) ∧ descAt u d = some y ∧ y.phase = .done ∧
      y.status = st ∧ u.upd = s.upd) ∧
    (updCheck s p b .ok = none → pgdStep pgd + 1 ≠ leAt b 8 8 → leAt b 28 4 = 0 → ∃ u y, exec (.wdUpdate d .ok) s = .next (finish s u) ∧
      descAt u d = some y ∧ y.status = stStepSkew ∧ u.upd.skewGroup = leAt b 16 2 ∧ u.upd.skewPart = p ∧ u.upd.runs = s.upd.runs ∧
      u.upd.pgd = s.upd.pgd) ∧
    (updCheck s p b .ok = none → pgdStep pgd + 1 = leAt b 8 8 → pgdFrozen pgd = true → leAt b 28 4 = 0 → leAt b 18 1 = 1 →
      ∃ u y, exec (.wdUpdate d .ok) s = .next (finish s u) ∧ descAt u d = some y ∧ y.status = stOkFrozen ∧ u.upd.runs = s.upd.runs ∧
        u.upd.pgd = s.upd.pgd ∧ u.mem = s.mem) ∧
    (updCheck s p b .ok = none → pgdStep pgd + 1 = leAt b 8 8 → pgdFrozen pgd = false → leAt b 28 4 ≠ 0 → fuseAt s p (leAt b 28 4) = none →
      s.upd.fuses.length < 16 → updRunning s < 4 → pgdSrc pgd = 1 → leAt b 18 1 ≠ 2 → ∃ u r y, exec (.wdUpdate d .ok) s = .next (finish s u) ∧
        tget u.upd.runs d = some r ∧ r.running = true ∧ r.step = leAt b 8 8 ∧ r.group = leAt b 16 2 ∧ r.part = p ∧ r.pgd = pgd ∧ r.doneT = 0 ∧
        descAt u d = some y ∧ y.phase = .running) ∧
    (updCheck s p b .ok = none → pgdStep pgd + 1 = leAt b 8 8 → pgdFrozen pgd = false → leAt b 28 4 = 0 → 4 ≤ updRunning s →
      ∃ u r y, exec (.wdUpdate d .ok) s = .next (finish s u) ∧ tget u.upd.runs d = some r ∧ r.running = false ∧ descAt u d = some y ∧
        y.phase = .fetched ∧ y.checked = true) := by
  intro p b pgd
  have hsp : Spared (quiet s) (begun (quiet s) d x) := spared_begun (quiet s) d x
  obtain ⟨m, hm⟩ : ∃ m, descAt (begun (quiet s) d x) d = some { x with phase := .running, checked := true, mark := m } :=
    descAt_begun (quiet s) d x
  have hcheck : updCheck (begun (quiet s) d x) p b .ok = updCheck s p b .ok := updCheck_begun (quiet s) d x p b .ok
  have hrun : updRunning (begun (quiet s) d x) = updRunning s := updRunning_begun (quiet s) d x
  have hru : ∀ {t}, startUpdate (begun (quiet s) d x) d x.ctx p b .ok = some t → ∃ c, exec (.wdUpdate d .ok) s = .next (finish s (tookTurn t c)) :=
    fun ht => wdUpdate_runs h ht
  generalize begun (quiet s) d x = t at hsp hm hcheck hrun hru
  have hu : t.upd = s.upd := hsp.upd
  have hnt : tget t.upd.runs d = none := by rw [hu]; exact hn
  have hpgd : pgdAt t p (leAt b 16 2) = pgd := by
    show pgdAt t p (leAt b 16 2) = pgdAt s p (leAt b 16 2)
    unfold pgdAt
    rw [hu]
  refine ⟨fun st hst => ?_, fun hok hskew htag => ?_, fun hok hstep hf htag hph => ?_, fun hok hstep hf htag hfuse hlen hfew hsrc hph => ?_,
    fun hok hstep hf htag hmany => ?_⟩
  · obtain ⟨c, e⟩ := hru (startUpdate_refused hnt (hcheck.trans hst))
    obtain ⟨hs2, z, h1, h2, h3, -⟩ := completeDesc_done st 0 hm rfl
    exact ⟨_, z, e, h1, h2, h3, hs2.upd.trans hu⟩
  · obtain ⟨c, e⟩ := hru (startUpdate_skew hnt (hcheck.trans hok) (by rw [hpgd]; exact hskew) htag)
    have hsk : descAt (skewed t p b) d = some { x with phase := .running, checked := true, mark := m } :=
      (desc_countEv (bump (setBits t 0x31010 1) 0x31024) 0x082 (some p) 1 d).trans hm
    have hsu : (skewed t p b).upd = { t.upd with skewGroup := leAt b 16 2, skewPart := p } :=
      congrArg (fun u : Update => { u with skewGroup := leAt b 16 2, skewPart := p }) (spared_countEv (bump (setBits t 0x31010 1) 0x31024) 0x082 (some p) 1).upd
    generalize skewed t p b = w at hsk hsu e
    have hfr : refuseUpdate w d p b stStepSkew = pushCadence (completeDesc w d stStepSkew 0) p (leAt b 16 2) stStepSkew
        (cadenceFlags (pgdAt w p (leAt b 16 2)) (leAt b 18 1) false) (leAt b 8 8) (pgdStep (pgdAt w p (leAt b 16 2))) := by
      unfold refuseUpdate fuseRefused
      dsimp only
      rw [if_pos htag]
    obtain ⟨hs2, z, h1, h2, h3, -⟩ := completeDesc_done stStepSkew 0 hsk rfl
    rw [hfr] at e
    obtain ⟨hp2, -, l, hl⟩ := pushCadence_keeps (completeDesc w d stStepSkew 0) p (leAt b 16 2) stStepSkew
        (cadenceFlags (pgdAt w p (leAt b 16 2)) (leAt b 18 1) false) (leAt b 8 8) (pgdStep (pgdAt w p (leAt b 16 2)))
    generalize pushCadence (completeDesc w d stStepSkew 0) p _ _ _ _ _ = v at e hp2 hl
    have hvu : v.upd = { s.upd with skewGroup := leAt b 16 2, skewPart := p, cadence := l } := by
      rw [hl, hs2.upd, hsu, hu]
    refine ⟨_, z, e, (congrArg (fun v : Parts => tget v.desc d) hp2).trans h1, h3, ?_⟩
    exact ⟨congrArg Update.skewGroup hvu, congrArg Update.skewPart hvu, (congrArg Update.runs hvu :), (congrArg Update.pgd hvu :)⟩
  · obtain ⟨fl, n, k, hst⟩ := startUpdate_frozen (c := x.ctx) hnt (hcheck.trans hok) (by rw [hpgd]; exact hstep) (by rw [hpgd]; exact hf) htag hph
    obtain ⟨c, e⟩ := hru hst
    obtain ⟨hs2, z, h1, h2, h3, -⟩ := completeDesc_done (s := bump t 0x31028) stOkFrozen 0 hm rfl
    obtain ⟨hp2, hmem, l, hl⟩ := pushCadence_keeps (completeDesc (bump t 0x31028) d stOkFrozen 0) p (leAt b 16 2) stOkFrozen fl n k
    generalize pushCadence (completeDesc (bump t 0x31028) d stOkFrozen 0) p _ _ _ _ _ = v at e hp2 hmem hl
    have hvu : v.upd = { s.upd with cadence := l } := by
      rw [hl, hs2.upd]
      exact congrArg (fun u : Update => { u with cadence := l }) hu
    exact ⟨_, z, e, (congrArg (fun v : Parts => tget v.desc d) hp2).trans h1, h3, (congrArg Update.runs hvu :), (congrArg Update.pgd hvu :),
      hmem.trans (hs2.mem.trans hsp.mem)⟩
  · have hfa : fuseAt t p (leAt b 28 4) = none := by
      unfold fuseAt
      rw [hu]
      exact hfuse
    have hcan : canRun t p (leAt b 28 4) = true := by
      unfold canRun fuseFree
      rw [hrun, hfa, hu]
      simp [hfew, hlen]
    have hbusy : fuseBusy t p (leAt b 28 4) = false := by
      unfold fuseBusy
      rw [hfa]
    obtain ⟨c, e⟩ := hru (startUpdate_runs hnt (hcheck.trans hok) (by rw [hpgd]; exact hstep) (by rw [hpgd]; exact hf) (.inr hbusy) hcan)
    obtain ⟨hr, hp2⟩ := runUpdate_fed (s := (updOf t x.ctx p b).2) (d := d) (u := (updOf t x.ctx p b).1) hph (by
      show pgdSrc (pgdAt t p (leAt b 16 2)) = 1
      rw [hpgd]
      exact hsrc)
    exact ⟨_, _, _, e, (congrArg (tget · d) hr).trans (tget_tset_same _ _ _), rfl, rfl, rfl, rfl, hpgd, rfl,
      (congrArg (fun v : Parts => tget v.desc d) hp2).trans hm, rfl⟩
  · have hcan : ¬ canRun t p (leAt b 28 4) = true := by
      unfold canRun
      rw [hrun]
      simp [hmany]
    obtain ⟨c, e⟩ := hru (startUpdate_waits hnt (hcheck.trans hok) (by rw [hpgd]; exact hstep) (by rw [hpgd]; exact hf) (.inl htag) hcan hm)
    exact ⟨_, _, _, e, tget_tset_same _ _ _, rfl, tget_tset_same _ _ _, rfl, rfl⟩

/-! The bindings. -/

theorem fuseBind_runs {s u : State} {d : Nat} (he : engUp s = true) (h : fuseBind (quiet s) d = u) :
    exec (.fuseBind d) s = .next (finish s u) :=
  (runEng_run he h : execFuseBind d s = _)

theorem fuseTimeout_runs {s u : State} {d : Nat} (he : engUp s = true) (h : fuseTimeout (quiet s) d = u) :
    exec (.fuseBindTimeout d) s = .next (finish s u) :=
  (runEng_run he h : execFuseBindTimeout d s = _)

theorem fuseBind_pair {s : State} {d e r : Nat} {f : Fuse} {g : Stage} {u : Upd} (hf : fuseOf s d = some f) (he : f.red = some e)
    (hr : f.upd = some r) (hg : tget s.red.stages e = some g) (hu : tget s.upd.runs r = some u) (hd : f.discard = false) (hb : u.bound = false) :
    fuseBind s d = if g.elements ≠ pgdN u.pgd then failStage s e stBadParam else setUpd s r { u with bound := true } := by
  unfold fuseBind
  rw [hf]
  dsimp only
  rw [he, hr]
  dsimp only [Option.bind]
  rw [hg, hu]
  dsimp only
  rw [if_neg (by simp [hd, hb])]
  rfl

theorem fuseTimeout_none {s : State} {d : Nat} (h : fuseOf s d = none) : fuseTimeout s d = s := by
  unfold fuseTimeout
  rw [h]

theorem fuseTimeout_off {s : State} {d : Nat} {f : Fuse} (h : fuseOf s d = some f) (hz : fld (reg s 0x30000) 23 0 = 0) : fuseTimeout s d = s := by
  unfold fuseTimeout
  rw [h]
  exact if_pos hz

theorem fuseTimeout_stage {s : State} {d : Nat} {f : Fuse} (h : fuseOf s d = some f) (hz : fld (reg s 0x30000) 23 0 ≠ 0) (hr : f.red = some d)
    (hu : f.upd = none) (hd : f.discard = false) : fuseTimeout s d = failStage (setBits s 0x30004 0x20) d stTimeout := by
  unfold fuseTimeout
  rw [h]
  exact (if_neg hz).trans (if_pos ⟨hr, by rw [hu]; rfl, by rw [hd]; rfl⟩)

theorem fuseTimeout_update {s : State} {d : Nat} {f : Fuse} {u : Upd} (h : fuseOf s d = some f) (hz : fld (reg s 0x30000) 23 0 ≠ 0)
    (hu : f.upd = some d) (hr : f.red = none) (hd : f.discard = false) (hg : tget s.upd.runs d = some u) (hb : u.bound = false) :
    fuseTimeout s d = failUpdate s d stTimeout := by
  unfold fuseTimeout
  rw [h]
  refine (if_neg hz).trans ((if_neg fun e => ?_).trans ((if_pos ⟨hu, by rw [hr]; rfl⟩).trans ((if_neg ?_).trans (if_neg ?_))))
  · exact nomatch hr.symm.trans e.1
  · rw [hd]
    exact Bool.false_ne_true
  · rw [hg]
    simp [hb]

/-- Settles O50: an update is checked in order, is refused, ends frozen, runs or waits; a binding joins its two parts or ends them. -/
theorem updateStarts : Obligations.UpdateStarts := by
  unfold Obligations.UpdateStarts
  intro s d x p b pgd
  refine ⟨wdUpdate_clauses s d x, fun he => ⟨fun hn => ?_, fun f e g r u hf hr hu hg hw hd hb => ⟨fun hne => ?_, fun heq => ?_⟩, fun f hf hz => ?_,
    fun f hf hz hr hu hd => ?_, fun f u hf hz hu hr hd hg hb => ?_⟩⟩
  · refine ⟨fuseBind_runs he ?_, fuseTimeout_runs he (fuseTimeout_none hn)⟩
    unfold fuseBind
    rw [show fuseOf (quiet s) d = none from hn]
  · exact fuseBind_runs he ((fuseBind_pair (s := quiet s) hf hr hu hg hw hd hb).trans (if_pos hne))
  · exact fuseBind_runs he ((fuseBind_pair (s := quiet s) hf hr hu hg hw hd hb).trans (if_neg (not_not.2 heq)))
  · exact fuseTimeout_runs he (fuseTimeout_off (s := quiet s) hf hz)
  · exact fuseTimeout_runs he (fuseTimeout_stage (s := quiet s) hf hz hr hu hd)
  · exact fuseTimeout_runs he (fuseTimeout_update (s := quiet s) hf hz hu hr hd hg hb)

end Sys2Proof.Machine
end

section
/-! SUPPORT. Reductions that run: chunks, data frames, aborts and ends (O49). -/

namespace Sys2Proof.Machine
/- Proofs are elaborated in their order, for the reason given in the first section of this kind. -/
set_option deprecated.oldSectionVars true

/-! A stage that fails. -/

/-- ABORTs to the neighbours are frames that wait to be sent. -/
theorem sendAborts_form (s : State) (g : Stage) (st v : Nat) (e : Option (Nat × Bool)) :
    ∃ l, sendAborts s g st v e = { s with fab := { s.fab with txq := l } } := by
  have hf : ∀ (is : List StageIn) (t : State), ∃ l, is.foldl (fun s i =>
      if e = some (i.vertex, true) then s else pushReduce s i.vertex g.part (g.inSub + 0x80) (abortRec g.xfer st v) .own) t =
        { t with fab := { t.fab with txq := l } } := by
    intro is
    induction is with
    | nil => exact fun t => ⟨t.fab.txq, rfl⟩
    | cons i is ih =>
      intro t
      rw [List.foldl_cons]
      split
      · exact ih t
      · obtain ⟨l, hl⟩ := ih (pushReduce t i.vertex g.part (g.inSub + 0x80) (abortRec g.xfer st v) .own)
        exact ⟨l, hl⟩
  unfold sendAborts
  dsimp only
  obtain ⟨l, hl⟩ := hf g.inputs s
  rw [hl]
  split
  · exact ⟨_, rfl⟩
  · exact ⟨l, rfl⟩

/-- A stage that no update is fused to leaves its unit, and nothing of the contexts and descriptors changes. -/
theorem abortStage_unfused {s : State} {d : Nat} {g : Stage} (st v o : Nat) (e : Option (Nat × Bool)) (hg : tget s.red.stages d = some g)
    (hf : s.upd.fuses = []) :
    (abortStage s d st v o e).parts = s.parts ∧ (abortStage s d st v o e).red.stages = tdel s.red.stages d := by
  obtain ⟨l, hl⟩ := sendAborts_form s g o v e
  unfold abortStage
  rw [hg]
  dsimp only
  rw [hl]
  unfold endFused
  rw [show (dropStage { s with fab := { s.fab with txq := l } } d g).upd.fuses = [] from hf]
  exact ⟨rfl, rfl⟩

/-- A stage that fails ends its descriptor with the status, and frees its slots. -/
theorem failStage_ends {s : State} {d : Nat} {g : Stage} {x : Desc} (st : Nat) (hg : tget s.red.stages d = some g) (hx : descAt s d = some x)
    (hp : x.phase = .running) (hf : s.upd.fuses = []) :
    ∃ y, descAt (failStage s d st) d = some y ∧ y.phase = .done ∧ y.status = st ∧ tget (failStage s d st).red.stages d = none ∧
      ∀ i, i ≠ d → tget (failStage s d st).red.stages i = tget s.red.stages i := by
  obtain ⟨hparts, hred⟩ := abortStage_unfused st (s.dom.vertex.getD 0) st none hg hf
  have hd : descAt (abortStage s d st (s.dom.vertex.getD 0) st none) d = some x :=
    (congrArg (fun p : Parts => tget p.desc d) hparts).trans hx
  obtain ⟨hs, y, h1, h2, h3, -⟩ := completeDesc_done st 0 hd hp
  have hst : (failStage s d st).red.stages = tdel s.red.stages d := (congrArg (·.stages) hs.red).trans hred
  refine ⟨y, h1, h2, h3, ?_, fun i hi => ?_⟩
  · rw [hst]
    exact tget_tdel_same _ _
  · rw [hst]
    exact tget_tdel_other _ _ _ hi

/-! Data frames. -/

/-- The state in which the one waiting frame has left the inbox. -/
def inboxTaken (s : State) : State := { quiet s with fab := { s.fab with inbox := [] } }

section
variable {s u : State} {f : InFrame}

theorem onFrame_one {p : InFrame → Bool} {F : State → InFrame → State} (hi : s.fab.inbox = [f]) (hp : p f = true) :
    onFrame p F s = F { s with fab := { s.fab with inbox := [] } } f := by
  unfold onFrame
  rw [popInbox_one s f p hi hp]

theorem onFrame_stays {p : InFrame → Bool} {F : State → InFrame → State} (hi : s.fab.inbox = [f]) (hp : p f = false) : onFrame p F s = s := by
  have hnone : popInbox s p = none := by simp [popInbox, hi, List.findIdx?_cons, hp]
  unfold onFrame
  rw [hnone]

theorem reduceDataRx_runs (he : engUp s = true) (hi : s.fab.inbox = [f]) (hd : dataFrame f = true) (hf : inputFull s f.hdr = false)
    (hu : dataRx (inboxTaken s) f = u) : exec .reduceDataRx s = .next (finish s u) := by
  have hp : (dataFrame f && !inputFull (quiet s) f.hdr) = true := by
    rw [hd, show inputFull (quiet s) f.hdr = false from hf]
    rfl
  refine (runEng_run he ?_ : execReduceDataRx s = _)
  exact (onFrame_one (s := quiet s) hi hp).trans hu

theorem inputFull_none (h : stageFor s f.hdr = none) : inputFull s f.hdr = false := by
  unfold inputFull
  rw [h]

theorem inputFull_some {e : Nat} {h : Stage} {i : StageIn} {b : Bind} (hs : stageFor s f.hdr = some (e, h, i, b)) :
    inputFull s f.hdr = decide (8 ≤ i.frames.length) := by
  unfold inputFull
  rw [hs]

theorem dataRx_unbound (h : stageFor s f.hdr = none) : dataRx (inboxTaken s) f = unboundRx (inboxTaken s) f := by
  unfold dataRx
  rw [show stageFor (inboxTaken s) f.hdr = none from h]

theorem unboundRx_aborted (h : s.red.aborted.contains (f.hdr.src, f.hdr.stream) = true) : unboundRx s f = s := by
  unfold unboundRx
  exact if_pos h

/-- A data frame without a binding is counted. -/
theorem unboundRx_counts (h : s.red.aborted.contains (f.hdr.src, f.hdr.stream) = false) :
    reg (unboundRx s f) 0x30028 = toW (min ((reg s 0x30028).toNat + 1) 0xFFFFFFFF) := by
  have hb : reg (bump (setBits s 0x30004 8) 0x30028) 0x30028 = toW (min ((reg s 0x30028).toNat + 1) 0xFFFFFFFF) := by
    refine (reg_setReg_same _ _ _).trans ?_
    rw [show reg (setBits s 0x30004 8) 0x30028 = reg s 0x30028 from reg_setReg_other _ _ _ _ (by decide)]
  unfold unboundRx
  dsimp only
  rw [if_neg (by rw [h]; exact Bool.false_ne_true)]
  split
  · exact hb
  · exact hb

section
variable {e : Nat} {h : Stage} {i : StageIn} {b : Bind}

/-- A frame that comes again, or lies outside the transfer, is dropped. -/
theorem dataRx_drops (hs : stageFor s f.hdr = some (e, h, i, b))
    (hd : f.seqN < b.baseSeq ∨ stageFrames h h.inFmt ≤ f.seqN - b.baseSeq + b.first ∨
      (tget i.frames (f.seqN - b.baseSeq + b.first)).isSome = true ∨
      f.seqN - b.baseSeq + b.first < (chunkFrames h h.inFmt h.next).1) : dataRx s f = s := by
  unfold dataRx
  rw [hs]
  refine if_pos (hd.imp id (Or.imp id fun k => ?_))
  simpa using k

/-- A frame that is due takes a slot of its input. -/
theorem dataRx_takes (hs : stageFor s f.hdr = some (e, h, i, b)) (h1 : b.baseSeq ≤ f.seqN)
    (h2 : f.seqN - b.baseSeq + b.first < stageFrames h h.inFmt) (h3 : tget i.frames (f.seqN - b.baseSeq + b.first) = none)
    (h4 : (chunkFrames h h.inFmt h.next).1 ≤ f.seqN - b.baseSeq + b.first)
    (h5 : frameBytes h h.inFmt (f.seqN - b.baseSeq + b.first) ≤ f.payload.length) :
    let n := f.seqN - b.baseSeq + b.first
    ∃ o, dataRx s f = setStage s e { h with
      inputs := h.inputs.map (fun j => if j.vertex = f.hdr.src then
        { j with frames := tset i.frames n (f.payload.take (frameBytes h h.inFmt n)) } else j)
      order := o } := by
  intro n
  refine ⟨h.order ++ newChunks h (h.inputs.findIdx (fun k => k.vertex == f.hdr.src))
    (tset i.frames n (f.payload.take (frameBytes h h.inFmt n) ++ [])) n, ?_⟩
  unfold dataRx
  rw [hs]
  refine (if_neg ?_).trans ?_
  · rw [not_or, not_or]
    refine ⟨by omega, by omega, ?_⟩
    rw [h3]
    simpa using h4
  · dsimp only
    rw [if_neg (by omega)]
    dsimp only
    rw [List.append_nil]

end

/-! ABORT. -/

theorem reduceAbortRx_runs (he : engUp s = true) (hi : s.fab.inbox = [f]) (hc : ctlFrame f 3 = true) (hu : abortRx (inboxTaken s) f = u) :
    exec .reduceAbortRx s = .next (finish s u) :=
  (runEng_run he ((onFrame_one (s := quiet s) hi hc).trans hu) : execReduceAbortRx s = _)

end

/-! The chunk. -/

section
variable {s : State} {d : Nat} {h : Stage} {u1 u2 : Option (Nat × Nat)}

theorem chunkRun_runs {u : State} (he : engUp s = true) (hc : clkRuns s = true) (hu : runChunk (quiet s) d u1 u2 = u) :
    exec (.chunkRun d u1 u2) s = .next (finish s u) :=
  (runEng_run he ((when_pos (show clkRuns (quiet s) = true from hc)).trans hu) : execChunkRun d u1 u2 s = _)

theorem chunkRun_stopped (he : engUp s = true) (hc : clkRuns s = false) : exec (.chunkRun d u1 u2) s = .next (finish s (quiet s)) :=
  (runEng_run he (when_neg (show clkRuns (quiet s) = false from hc)) : execChunkRun d u1 u2 s = _)

theorem runChunk_none (hg : tget s.red.stages d = none) : runChunk s d u1 u2 = s := by
  unfold runChunk
  rw [hg]

theorem runChunk_waits (hg : tget s.red.stages d = some h) (hr : chunkReady h = false) : runChunk s d u1 u2 = s := by
  unfold runChunk
  rw [hg]
  exact if_pos (.inl (by rw [hr]; rfl))

section
variable (hg : tget s.red.stages d = some h) (hn : h.update = false) (hr : chunkReady h = true)
include hg hn hr

theorem runChunk_poisoned (hp : (h.localEn && localPoison h h.next) = true) : runChunk s d u1 u2 = failStage s d stPoisoned := by
  unfold runChunk
  rw [hg]
  exact (if_neg (by rw [hr, hn]; simp)).trans (if_pos hp)

variable (hp : (h.localEn && localPoison h h.next) = false)
include hp

theorem runChunk_passes (hc : chunkCheck h h.next (chunkOperands h h.next) (upset ((chunkOperands h h.next).map (elemResult h)) u1) = 0) :
    runChunk s d u1 u2 = releaseChunk s d h (upset ((chunkOperands h h.next).map (elemResult h)) u1) := by
  unfold runChunk
  rw [hg]
  exact (if_neg (by rw [hr, hn]; simp)).trans ((if_neg (by rw [hp]; exact Bool.false_ne_true)).trans (if_pos hc))

/-- The state in which a replay has been counted. -/
def replayed (s : State) (h : Stage) : State := countEv (bump s 0x30020) (0x078 + h.port) (some h.part) 1

omit hg hn hr hp in
theorem red_replayed (s : State) (h : Stage) : (replayed s h).red = s.red := (spared_countEv _ _ _ _).red

omit hg hn hr hp in
theorem stages_logged (s : State) (h : Stage) (w : Word) (c : Nat) (a f : Bool) :
    (logChunk (setBits (replayed s h) 0x30004 w) h c a f).red.stages = s.red.stages :=
  (congrArg Reduce.stages (red_replayed s h) : (replayed s h).red.stages = _)

omit hg hn hr hp in
theorem stages_failed (s : State) (h : Stage) (w : Word) (c : Nat) (a f : Bool) :
    (logChunk (setBits (bump (replayed s h) 0x30024) 0x30004 w) h c a f).red.stages = s.red.stages :=
  (congrArg Reduce.stages (red_replayed s h) : (replayed s h).red.stages = _)

variable (hc : chunkCheck h h.next (chunkOperands h h.next) (upset ((chunkOperands h h.next).map (elemResult h)) u1) ≠ 0)
include hc

theorem runChunk_replays (hc2 : chunkCheck h h.next (chunkOperands h h.next) (upset ((chunkOperands h h.next).map (elemResult h)) u2) = 0) :
    let ops := chunkOperands h h.next; let r0 := ops.map (elemResult h)
    runChunk s d u1 u2 = releaseChunk (logChunk (setBits (replayed s h) 0x30004 1) h (chunkCheck h h.next ops (upset r0 u1))
      (upset r0 u1 == upset r0 u2) false) d h (upset r0 u2) := by
  intro ops r0
  unfold runChunk
  rw [hg]
  exact (if_neg (by rw [hr, hn]; simp)).trans ((if_neg (by rw [hp]; exact Bool.false_ne_true)).trans ((if_neg hc).trans (if_pos hc2)))

theorem runChunk_fails (hc2 : chunkCheck h h.next (chunkOperands h h.next) (upset ((chunkOperands h h.next).map (elemResult h)) u2) ≠ 0) :
    let ops := chunkOperands h h.next; let r0 := ops.map (elemResult h)
    runChunk s d u1 u2 = arithFault (failStage (logChunk (setBits (bump (replayed s h) 0x30024) 0x30004 2) h (chunkCheck h h.next ops (upset r0 u2))
      (upset r0 u1 == upset r0 u2) true) d stPlausibility) (upset r0 u1 == upset r0 u2) h.port h.port (chunkCheck h h.next ops (upset r0 u2))
      h.ctx h.part := by
  intro ops r0
  unfold runChunk
  rw [hg]
  exact (if_neg (by rw [hr, hn]; simp)).trans ((if_neg (by rw [hp]; exact Bool.false_ne_true)).trans ((if_neg hc).trans (if_neg hc2)))

end

/-! The ends of a stage. -/

theorem stageComplete_runs {u : State} (he : engUp s = true) (hu : endStage (quiet s) d = u) :
    exec (.reduceStageComplete d) s = .next (finish s u) :=
  (runEng_run he hu : execReduceStageComplete d s = _)

theorem idleTimeout_runs {u : State} (he : engUp s = true) (hu : idleStage (quiet s) d = u) :
    exec (.reduceIdleTimeout d) s = .next (finish s u) :=
  (runEng_run he hu : execReduceIdleTimeout d s = _)

theorem endStage_none (hg : tget s.red.stages d = none) : endStage s d = s := by
  unfold endStage
  rw [hg]

theorem endStage_early (hg : tget s.red.stages d = some h) (ho : stageOver s d h = false) : endStage s d = s := by
  unfold endStage
  rw [hg]
  exact if_neg (by rw [ho]; exact Bool.false_ne_true)

/-- A stage whose results have all been handed on ends its descriptor with ST_OK. -/
theorem endStage_ends {x : Desc} (hg : tget s.red.stages d = some h) (ho : stageOver s d h = true) (hx : descAt s d = some x)
    (hp : x.phase = .running) :
    ∃ y, tget (endStage s d).red.stages d = none ∧ descAt (endStage s d) d = some y ∧ y.phase = .done ∧ y.status = stOk := by
  obtain ⟨t, ht, hd, hr⟩ : ∃ t, endStage s d = completeDesc t d stOk 0 ∧ descAt t d = some x ∧ t.red.stages = tdel s.red.stages d := by
    unfold endStage
    rw [hg]
    exact ⟨_, if_pos ho, hx, rfl⟩
  obtain ⟨hs, y, h1, h2, h3, -⟩ := completeDesc_done stOk 0 hd hp
  rw [ht]
  exact ⟨y, by rw [hs.red, hr]; exact tget_tdel_same _ _, h1, h2, h3⟩

theorem idleStage_none (hg : tget s.red.stages d = none) : idleStage s d = s := by
  unfold idleStage
  exact if_pos (.inl (by rw [hg]; rfl))

theorem idleStage_off (hz : fld (reg s 0x30000) 23 0 = 0) : idleStage s d = s := by
  unfold idleStage
  exact if_pos (.inr hz)

theorem idleStage_ends (hg : tget s.red.stages d = some h) (hz : fld (reg s 0x30000) 23 0 ≠ 0) :
    idleStage s d = failStage (setBits s 0x30004 0x20) d stTimeout := by
  unfold idleStage
  refine if_neg fun e => e.elim (fun e => ?_) hz
  rw [hg] at e
  nomatch e

end

/-! The arithmetic of an element. -/

theorem elemResult_folds (g : Stage) (a : Nat) (t : List Nat) :
    ((g.op = 0 ∨ g.op = 1) → elemResult g (a :: t) = t.foldl f32.add a) ∧ (g.op = 2 → elemResult g (a :: t) = t.foldl f32.minOf a) ∧
    (g.op = 3 → elemResult g (a :: t) = t.foldl f32.maxOf a) ∧ (g.op < 4 → elemResult g [a] = a) ∧
    (g.op = 4 → g.localEn = true → elemResult g (a :: t) = t.foldl f32.add a) := by
  refine ⟨fun h => ?_, fun h => ?_, fun h => ?_, fun h => ?_, fun h hl => ?_⟩
  · obtain h | h := h <;> simp [elemResult, isTopk, h]
  · simp [elemResult, isTopk, h]
  · simp [elemResult, isTopk, h]
  · have hne : ¬ g.op = 4 := by omega
    simp [elemResult, isTopk, hne]
  · simp [elemResult, isTopk, h, hl]

/-- The clauses of a frame of an input. -/
theorem reduceDataRx_clauses (s : State) (f : InFrame) (he : engUp s = true) (hi : s.fab.inbox = [f]) (hd : dataFrame f = true) :
    let q := inboxTaken s
    (stageFor s f.hdr = none → s.red.aborted.contains (f.hdr.src, f.hdr.stream) = true → exec .reduceDataRx s = .next (finish s q)) ∧
    (stageFor s f.hdr = none → s.red.aborted.contains (f.hdr.src, f.hdr.stream) = false → exec .reduceDataRx s = .next (finish s (unboundRx q f)) ∧
      reg (unboundRx q f) 0x30028 = toW (min ((reg s 0x30028).toNat + 1) 0xFFFFFFFF)) ∧
    (∀ e h i b, stageFor s f.hdr = some (e, h, i, b) → 8 ≤ i.frames.length → exec .reduceDataRx s = .next (finish s (quiet s))) ∧
    (∀ e h i b, stageFor s f.hdr = some (e, h, i, b) → i.frames.length < 8 → let n := f.seqN - b.baseSeq + b.first
      (f.seqN < b.baseSeq ∨ stageFrames h h.inFmt ≤ n ∨ (tget i.frames n).isSome = true ∨ n < (chunkFrames h h.inFmt h.next).1 →
        exec .reduceDataRx s = .next (finish s q)) ∧
      (b.baseSeq ≤ f.seqN → n < stageFrames h h.inFmt → tget i.frames n = none → (chunkFrames h h.inFmt h.next).1 ≤ n →
        frameBytes h h.inFmt n ≤ f.payload.length → ∃ u k, exec .reduceDataRx s = .next (finish s u) ∧ tget u.red.stages e = some k ∧
          k.inputs = h.inputs.map (fun j => if j.vertex = f.hdr.src then
            { j with frames := tset i.frames n (f.payload.take (frameBytes h h.inFmt n)) } else j) ∧
          k.next = h.next ∧ u.parts = s.parts)) := by
  intro q
  refine ⟨fun hs ha => ?_, fun hs ha => ⟨?_, unboundRx_counts (s := q) ha⟩, fun e h i b hs h8 => ?_, fun e h i b hs h8 => ⟨fun hx => ?_, fun h1 h2 h3 h4 h5 => ?_⟩⟩
  · exact reduceDataRx_runs he hi hd (inputFull_none hs) ((dataRx_unbound hs).trans (unboundRx_aborted (s := q) ha))
  · exact reduceDataRx_runs he hi hd (inputFull_none hs) (dataRx_unbound hs)
  · have hf : (dataFrame f && !inputFull (quiet s) f.hdr) = false := by
      rw [show inputFull (quiet s) f.hdr = true from (inputFull_some hs).trans (decide_eq_true h8), hd]
      rfl
    exact (runEng_run he (onFrame_stays (s := quiet s) hi hf) : execReduceDataRx s = _)
  · have hf : inputFull s f.hdr = false := (inputFull_some hs).trans (decide_eq_false (by omega))
    exact reduceDataRx_runs he hi hd hf (dataRx_drops (s := q) hs hx)
  · have hf : inputFull s f.hdr = false := (inputFull_some hs).trans (decide_eq_false (by omega))
    obtain ⟨o, ho⟩ := dataRx_takes (s := q) hs h1 h2 h3 h4 h5
    exact ⟨_, _, reduceDataRx_runs he hi hd hf ho, tget_tset_same _ _ _, rfl, rfl, rfl⟩

/-- The clauses of an ABORT. -/
theorem reduceAbortRx_clauses (s : State) (f : InFrame) (he : engUp s = true) (hi : s.fab.inbox = [f]) (hk : ctlFrame f 3 = true) :
    let c := leAt f.payload 24 8
    (stageBelow s f.hdr.src f.hdr.stream = none → stageAbove s f.hdr.src f.hdr.stream = none →
      exec .reduceAbortRx s = .next (finish s (inboxTaken s))) ∧
    (∀ e h, stageBelow s f.hdr.src f.hdr.stream = some (e, h) → ∃ t, exec .reduceAbortRx s = .next (finish s (completeDesc
        (abortStage t e stAborted (c / 65536 % 65536) (c % 256) none) e stAborted 0)) ∧
      t.red.lastV = c / 65536 % 65536 ∧ t.red.lastS = c % 256 ∧ t.red.stages = s.red.stages ∧ reg t 0x30004 = reg s 0x30004 ||| 4) := by
  intro c
  refine ⟨fun hb ha => reduceAbortRx_runs he hi hk ?_, fun e h hb => ?_⟩
  · unfold abortRx
    rw [show stageBelow (inboxTaken s) f.hdr.src f.hdr.stream = none from hb, show stageAbove (inboxTaken s) f.hdr.src f.hdr.stream = none from ha]
  · refine ⟨setBits { inboxTaken s with red := { s.red with lastV := c / 65536 % 65536, lastS := c % 256 } } 0x30004 4,
      reduceAbortRx_runs he hi hk ?_, rfl, rfl, rfl, reg_setReg_same _ _ _⟩
    unfold abortRx
    rw [show stageBelow (inboxTaken s) f.hdr.src f.hdr.stream = some (e, h) from hb]
    rfl

/-- Settles O49: elements fold, a data frame takes its slot, an ABORT ends its stage, a chunk is released at once or after one replay, and a
stage ends once everything is handed on. -/
theorem reductionRuns : Obligations.ReductionRuns := by
  unfold Obligations.ReductionRuns
  refine ⟨elemResult_folds, fun s d f u1 u2 he => ?_⟩
  intro q
  refine ⟨fun e h x hg hx hp hf st => failStage_ends st hg hx hp hf, fun hi hd => reduceDataRx_clauses s f he hi hd,
    fun hi hk => reduceAbortRx_clauses s f he hi hk, fun hg => ⟨?_, stageComplete_runs he (endStage_none (s := quiet s) hg),
    idleTimeout_runs he (idleStage_none (s := quiet s) hg)⟩, fun h hg hn => ?_⟩
  · by_cases hc : clkRuns s = true
    · exact chunkRun_runs he hc (runChunk_none (s := quiet s) hg)
    · exact chunkRun_stopped he (Bool.not_eq_true _ ▸ hc)
  · intro ops r0 poisoned
    refine ⟨fun hw => ?_, fun hc hr hp => chunkRun_runs he hc (runChunk_poisoned (s := quiet s) hg hn hr hp),
      fun hc hr hp h1 => chunkRun_runs he hc (runChunk_passes (s := quiet s) hg hn hr hp h1), fun hc hr hp h1 h2 => ?_, fun hc hr hp h1 h2 => ?_,
      fun ho => stageComplete_runs he (endStage_early (s := quiet s) hg ho), fun x ho hx hp => ?_,
      fun hz => idleTimeout_runs he (idleStage_off (s := quiet s) hz), fun hz => idleTimeout_runs he (idleStage_ends (s := quiet s) hg hz)⟩
    · by_cases hc : clkRuns s = true
      · exact chunkRun_runs he hc (runChunk_waits (s := quiet s) hg (hw.resolve_right fun k => Bool.false_ne_true (k.symm.trans hc)))
      · exact chunkRun_stopped he (Bool.not_eq_true _ ▸ hc)
    · exact ⟨_, chunkRun_runs he hc (runChunk_replays (s := quiet s) hg hn hr hp h1 h2), rfl, rfl, rfl, rfl,
        stages_logged (quiet s) h _ _ _ _⟩
    · have hx := chunkRun_runs he hc (runChunk_fails (s := quiet s) hg hn hr hp h1 h2)
      have hst := stages_failed (quiet s) h 2 (chunkCheck h h.next ops (upset r0 u2)) (upset r0 u1 == upset r0 u2) true
      have hfin : (logChunk (setBits (bump (replayed (quiet s) h) 0x30024) 0x30004 2) h (chunkCheck h h.next ops (upset r0 u2))
        (upset r0 u1 == upset r0 u2) true).red.fFinal = true := rfl
      exact ⟨_, hst, hfin, hx⟩
    · obtain ⟨y, h1, h2, h3, h4⟩ := endStage_ends (s := quiet s) hg ho hx hp
      exact ⟨_, y, stageComplete_runs he rfl, h1, h2, h3, h4⟩

end Sys2Proof.Machine
end

section
/-! SUPPORT. The repair map's entries, and the rotations (O52). -/

namespace Sys2Proof.Machine
/- Proofs are elaborated in their order, for the reason given in the first section of this kind. -/
set_option deprecated.oldSectionVars true

/-! An entry names its part: KIND above bit 28, LOCATION above bit 8, and bit 0 makes the number of ones odd. -/

/-- The entry of a kind and a location. -/
def codeWord (k l : Nat) : Word :=
  toW (if popcount 32 (k * 2 ^ 28 + l * 2 ^ 8) % 2 = 1 then k * 2 ^ 28 + l * 2 ^ 8 else k * 2 ^ 28 + l * 2 ^ 8 + 1)

theorem partWord_code (p : Part) : partWord p = codeWord (partCode p).1 (partCode p).2 := rfl

/-- Bit 0 of an even number changes its number of ones by one. -/
theorem popcount_succ {n v : Nat} (h : v % 2 = 0) : popcount (n + 1) (v + 1) = popcount (n + 1) v + 1 := by
  have h1 : (v + 1) / 2 = v / 2 := by omega
  have h2 : (v + 1) % 2 = 1 := by omega
  rw [popcount, popcount, h1, h2, h]
  omega

/-- A number of 32 bits is read back from its word. -/
theorem toNat_toW {n : Nat} (h : n < 2 ^ 32) : (toW n).toNat = n := (BitVec.toNat_ofNat n 32).trans (Nat.mod_eq_of_lt h)

theorem codeWord_reads {k l : Nat} (hk : k < 16) (hl : l < 2 ^ 20) :
    popcount 32 (codeWord k l).toNat % 2 = 1 ∧ fld (codeWord k l) 31 28 = k ∧ fld (codeWord k l) 27 8 = l := by
  have hv : (k * 2 ^ 28 + l * 2 ^ 8) % 2 = 0 := by omega
  have hs : popcount 32 (k * 2 ^ 28 + l * 2 ^ 8 + 1) = popcount 32 (k * 2 ^ 28 + l * 2 ^ 8) + 1 := popcount_succ (n := 31) hv
  obtain ⟨e, he, hn, hp⟩ : ∃ e, e < 2 ∧ (codeWord k l).toNat = k * 2 ^ 28 + l * 2 ^ 8 + e ∧ popcount 32 (codeWord k l).toNat % 2 = 1 := by
    unfold codeWord
    generalize popcount 32 = f at hs ⊢
    by_cases hp : f (k * 2 ^ 28 + l * 2 ^ 8) % 2 = 1
    · rw [if_pos hp, toNat_toW (by omega)]
      exact ⟨0, Nat.zero_lt_two, (Nat.add_zero _).symm, hp⟩
    · rw [if_neg hp, toNat_toW (by omega)]
      exact ⟨1, Nat.one_lt_two, rfl, by rw [hs]; omega⟩
  refine ⟨hp, ?_⟩
  rw [fld, fld, hn]
  exact ⟨by omega, by omega⟩

/-- The part of a readable entry is that of its kind. -/
theorem wordPart_code {k l : Nat} (hk : k < 16) (hl : l < 2 ^ 20) :
    (k = 1 → wordPart (codeWord k l) = some (.aes (l / 2 ^ 17 % 8) (l / 2 ^ 16 % 2 == 1) (l / 2 ^ 10 % 64))) ∧
    (k = 2 → wordPart (codeWord k l) = some (.adder (l / 2 ^ 17 % 8) (l / 2 ^ 7 % 1024))) ∧
    (k = 3 → wordPart (codeWord k l) = some (.msPipe (l / 2 ^ 12 % 256))) ∧
    (k = 4 → wordPart (codeWord k l) = some (.sramRow (l / 2 ^ 10 % 1024) (l % 1024))) ∧
    (k = 5 → wordPart (codeWord k l) = some (.sramCol (l / 2 ^ 10 % 1024) (l % 1024))) ∧
    (k = 6 → wordPart (codeWord k l) = some (.core (l / 2 ^ 18 % 4))) := by
  obtain ⟨hp, h1, h2⟩ := codeWord_reads hk hl
  have hn : ¬ popcount 32 (codeWord k l).toNat % 2 = 0 := by omega
  unfold wordPart
  dsimp only
  rw [if_neg hn, h1, h2]
  refine ⟨?_, ?_, ?_, ?_, ?_, ?_⟩ <;>
  · intro h
    subst h
    rfl

theorem wordPart_aes {port n : Nat} (rx : Bool) (hp : port < 8) (hn : n < 64) : wordPart (partWord (.aes port rx n)) = some (.aes port rx n) := by
  have hb : b2n rx < 2 ∧ ((b2n rx == 1) = rx) := by cases rx <;> decide
  obtain ⟨hb, hr⟩ := hb
  refine ((wordPart_code (k := 1) (l := port * 2 ^ 17 + b2n rx * 2 ^ 16 + n * 2 ^ 10) (by omega) (by omega)).1 rfl).trans ?_
  rw [show (port * 2 ^ 17 + b2n rx * 2 ^ 16 + n * 2 ^ 10) / 2 ^ 17 % 8 = port by omega,
    show (port * 2 ^ 17 + b2n rx * 2 ^ 16 + n * 2 ^ 10) / 2 ^ 16 % 2 = b2n rx by omega,
    show (port * 2 ^ 17 + b2n rx * 2 ^ 16 + n * 2 ^ 10) / 2 ^ 10 % 64 = n by omega, hr]

theorem wordPart_adder {port lane : Nat} (hp : port < 8) (hn : lane < 1024) : wordPart (partWord (.adder port lane)) = some (.adder port lane) := by
  refine ((wordPart_code (k := 2) (l := port * 2 ^ 17 + lane * 2 ^ 7) (by omega) (by omega)).2.1 rfl).trans ?_
  rw [show (port * 2 ^ 17 + lane * 2 ^ 7) / 2 ^ 17 % 8 = port by omega, show (port * 2 ^ 17 + lane * 2 ^ 7) / 2 ^ 7 % 1024 = lane by omega]

theorem wordPart_msPipe {n : Nat} (hn : n < 256) : wordPart (partWord (.msPipe n)) = some (.msPipe n) := by
  refine ((wordPart_code (k := 3) (l := n * 2 ^ 12) (by omega) (by omega)).2.2.1 rfl).trans ?_
  rw [show n * 2 ^ 12 / 2 ^ 12 % 256 = n by omega]

theorem wordPart_sramRow {m r : Nat} (hm : m < 1024) (hr : r < 1024) : wordPart (partWord (.sramRow m r)) = some (.sramRow m r) := by
  refine ((wordPart_code (k := 4) (l := m * 2 ^ 10 + r) (by omega) (by omega)).2.2.2.1 rfl).trans ?_
  rw [show (m * 2 ^ 10 + r) / 2 ^ 10 % 1024 = m by omega, show (m * 2 ^ 10 + r) % 1024 = r by omega]

theorem wordPart_sramCol {m c : Nat} (hm : m < 1024) (hc : c < 1024) : wordPart (partWord (.sramCol m c)) = some (.sramCol m c) := by
  refine ((wordPart_code (k := 5) (l := m * 2 ^ 10 + c) (by omega) (by omega)).2.2.2.2.1 rfl).trans ?_
  rw [show (m * 2 ^ 10 + c) / 2 ^ 10 % 1024 = m by omega, show (m * 2 ^ 10 + c) % 1024 = c by omega]

theorem wordPart_core {c : Nat} (hc : c < 4) : wordPart (partWord (.core c)) = some (.core c) := by
  refine ((wordPart_code (k := 6) (l := c * 2 ^ 18) (by omega) (by omega)).2.2.2.2.2 rfl).trans ?_
  rw [show c * 2 ^ 18 / 2 ^ 18 % 4 = c by omega]

/-! A part that is mapped out. -/

/-- With room in the queue an event that is no SECURITY alarm changes one register, the alarms' overflow bits. -/
theorem occur_room_reg (s : State) (r : AlarmRec) {o : Nat} (hc : r.cls ≠ 1) (hl : s.aon.alarms.length < 256) (ho : o ≠ 0x60020) :
    reg (occur s r none) o = reg s o := by
  have hb : (r.cls == 0x01) = false := by simp [hc]
  have hn : reg (countAon s 6 1) o = reg s o := by
    unfold countAon
    split
    · rfl
    · dsimp only
      split
      · exact reg_setReg_other _ _ _ _ ho
      · rfl
  have ha : (countAon s 6 1).aon.alarms = s.aon.alarms := by
    unfold countAon
    split
    · rfl
    · dsimp only
      split <;> rfl
  have key : ∀ f : Bool, reg (if f then foldRec (countAon s 6 1)
      else if (countAon s 6 1).aon.alarms.length < 256 then placeRec (countAon s 6 1) r else haltBlock (countAon s 6 1) 2) o = reg s o := by
    intro f
    cases f
    · rw [if_neg Bool.false_ne_true, ha, if_pos hl]
      exact hn
    · rw [if_pos rfl]
      exact hn
  unfold occur
  simp only [hb, Bool.false_eq_true, if_false, Bool.false_and]
  exact key _

/-- A record pushed to the store changes the Hub, the STORE slot and what is presented. -/
theorem storePush_keeps (s : State) (a : Nat) (b : Bytes) (c : Option Nat) :
    (storePush s a b c).win = s.win ∧ (storePush s a b c).aon = s.aon ∧ (storePush s a b c).ladder = s.ladder ∧
      ∀ i, i ≠ 1 → slotAt (storePush s a b c) i = slotAt s i := by
  have hu : ∀ n, (useKey s 1 n).2.win = s.win ∧ (useKey s 1 n).2.aon = s.aon ∧ (useKey s 1 n).2.ladder = s.ladder ∧
      ∀ i, i ≠ 1 → slotAt (useKey s 1 n).2 i = slotAt s i := by
    intro n
    have same : s.win = s.win ∧ s.aon = s.aon ∧ s.ladder = s.ladder ∧ ∀ i, i ≠ 1 → slotAt s i = slotAt s i := ⟨rfl, rfl, rfl, fun _ _ => rfl⟩
    unfold useKey
    dsimp only
    split
    · exact same
    split
    · exact same
    split
    · exact same
    split
    · exact same
    · dsimp only
      split
      · exact same
      · exact ⟨rfl, rfl, rfl, fun i hi => slotAt_setSlot_other _ _ _ _ hi⟩
  have hq : ∀ u : Nat × State, (u.2.win = s.win ∧ u.2.aon = s.aon ∧ u.2.ladder = s.ladder ∧ ∀ i, i ≠ 1 → slotAt u.2 i = slotAt s i) →
      (storeFail u.2 c).win = s.win ∧ (storeFail u.2 c).aon = s.aon ∧ (storeFail u.2 c).ladder = s.ladder ∧
        ∀ i, i ≠ 1 → slotAt (storeFail u.2 c) i = slotAt s i := by
    intro u h
    unfold storeFail
    split <;> exact h
  have hw : (if (slotAt s 1).state = 1 then useKey s 1 4 else (stOk, s)).2.win = s.win ∧
      (if (slotAt s 1).state = 1 then useKey s 1 4 else (stOk, s)).2.aon = s.aon ∧
      (if (slotAt s 1).state = 1 then useKey s 1 4 else (stOk, s)).2.ladder = s.ladder ∧
      ∀ i, i ≠ 1 → slotAt (if (slotAt s 1).state = 1 then useKey s 1 4 else (stOk, s)).2 i = slotAt s i := by
    split
    · exact hu 4
    · exact ⟨rfl, rfl, rfl, fun _ _ => rfl⟩
  unfold storePush
  dsimp only
  generalize (if (slotAt s 1).state = 1 then useKey s 1 4 else (stOk, s)) = u at hw ⊢
  split
  · exact hq u hw
  · split <;> exact hw

/-- An entry of the field map keeps the registers, the alarms, the other parts of the ladder and the slots but the STORE slot. -/
theorem fieldAppend_keeps (s : State) (p : Part) :
    (fieldAppend s p).win = s.win ∧ (fieldAppend s p).aon = s.aon ∧ (fieldAppend s p).ladder.mapped = s.ladder.mapped ∧
    (fieldAppend s p).ladder.rotAes = s.ladder.rotAes ∧ (fieldAppend s p).ladder.rotAdder = s.ladder.rotAdder ∧
      ∀ i, i ≠ 1 → slotAt (fieldAppend s p) i = slotAt s i := by
  unfold fieldAppend
  dsimp only
  split
  · exact ⟨rfl, rfl, rfl, rfl, rfl, fun _ _ => rfl⟩
  · obtain ⟨h1, h2, h3, h4⟩ := storePush_keeps
      { s with ladder := { s.ladder with field := s.ladder.field ++ [partWord p], fieldFull := decide (s.ladder.field.length + 1 = fieldCap) } }
      (0xC800 + s.ladder.field.length / 12) (wordBytes ((s.ladder.field ++ [partWord p]).drop (s.ladder.field.length / 12 * 12))) none
    exact ⟨h1, h2, by rw [h3], by rw [h3], by rw [h3], h4⟩

/-- What a part that is mapped out leaves, from the state in which its port has noted it. -/
structure MappedOut (s t : State) (p : Part) : Prop where
  mapped : t.ladder.mapped = s.ladder.mapped ++ [p]
  rotAes : t.ladder.rotAes = s.ladder.rotAes
  rotAdder : t.ladder.rotAdder = s.ladder.rotAdder
  slot : ∀ i, i ≠ 1 → slotAt t i = slotAt s i

theorem repairEvent_room {s : State} (p : Part) (hl : s.aon.alarms.length < 256) :
    (repairEvent s p).ladder = s.ladder ∧ (repairEvent s p).keys = s.keys ∧ ∀ o, o ≠ 0x60020 → reg (repairEvent s p) o = reg s o := by
  obtain ⟨c, w, al, q, g, h, -⟩ := occur_room s (mkRec 0x14 (partUnit p).1 (partUnit p).2 0 0 0 0 0 0 0) none (by simp [mkRec]) hl
  have hreg : ∀ o, o ≠ 0x60020 → reg (repairEvent s p) o = reg s o := fun o ho => occur_room_reg s _ (by simp [mkRec]) hl ho
  unfold repairEvent at hreg ⊢
  refine ⟨?_, ?_, hreg⟩
  · rw [h]
  · rw [h]

theorem repairEvent_mapped {s t : State} {p : Part} (hl : s.aon.alarms.length < 256) (ha : t.aon = s.aon)
    (hm : t.ladder.mapped = s.ladder.mapped ++ [p]) (hr : t.ladder.rotAes = s.ladder.rotAes) (hg : t.ladder.rotAdder = s.ladder.rotAdder)
    (hk : ∀ i, slotAt t i = slotAt s i) : MappedOut s (repairEvent (fieldAppend t p) p) p := by
  obtain ⟨-, h2, h3, h4, h5, h6⟩ := fieldAppend_keeps t p
  obtain ⟨h7, h8, -⟩ := repairEvent_room (s := fieldAppend t p) p (by rw [h2, ha]; exact hl)
  exact ⟨by rw [h7, h3, hm], by rw [h7, h4, hr], by rw [h7, h5, hg], fun i hi => by rw [slotAt_congr (congrArg KeyStore.slots h8), h6 i hi, hk]⟩

/-- With room in the alarm queue a part that is not mapped out yet is mapped out. -/
theorem mapOut_room {s : State} {p : Part} (hm : isMapped s p = false) (hl : s.aon.alarms.length < 256) : MappedOut s (mapOut s p) p := by
  have hn : ¬ isMapped s p = true := by rw [hm]; exact Bool.false_ne_true
  unfold mapOut
  rw [if_neg hn]
  cases p with
  | aes port rx n => exact repairEvent_mapped hl rfl rfl rfl rfl fun _ => rfl
  | adder port lane => exact repairEvent_mapped hl rfl rfl rfl rfl fun _ => rfl
  | msPipe n => exact repairEvent_mapped hl rfl rfl rfl rfl fun _ => rfl
  | sramRow m r => exact repairEvent_mapped hl rfl rfl rfl rfl fun _ => rfl
  | sramCol m c => exact repairEvent_mapped hl rfl rfl rfl rfl fun _ => rfl
  | core c => exact repairEvent_mapped hl rfl rfl rfl rfl fun _ => rfl

/-- The port of a pipeline that is mapped out says so in LP_INT_STATUS. -/
theorem mapOut_noted {s : State} {port n : Nat} {rx : Bool} (hm : isMapped s (.aes port rx n) = false) (hl : s.aon.alarms.length < 256) :
    wbit (reg (mapOut s (.aes port rx n)) (lpOff port 0x10)) 3 = true := by
  have hn : ¬ isMapped s (.aes port rx n) = true := by rw [hm]; exact Bool.false_ne_true
  have ho : lpOff port 0x10 ≠ 0x60020 := by unfold lpOff; omega
  unfold mapOut
  rw [if_neg hn]
  dsimp only
  generalize ht : setBits { s with ladder := { s.ladder with mapped := s.ladder.mapped ++ [.aes port rx n] } } (lpOff port 0x10) 8 = t
  have hb : reg t (lpOff port 0x10) = reg s (lpOff port 0x10) ||| 8 := by
    rw [← ht]
    exact reg_setReg_same _ _ _
  have hta : t.aon = s.aon := by rw [← ht]; rfl
  obtain ⟨h1, h2, -⟩ := fieldAppend_keeps t (.aes port rx n)
  obtain ⟨-, -, h3⟩ := repairEvent_room (s := fieldAppend t (.aes port rx n)) (.aes port rx n) (by rw [h2, hta]; exact hl)
  rw [h3 _ ho, show reg (fieldAppend t (.aes port rx n)) (lpOff port 0x10) = reg t (lpOff port 0x10) by unfold reg; rw [h1], hb]
  simp [wbit]

/-! The rotations. -/

theorem nextGood_good {n i p : Nat} {out : Nat → Bool} (h : nextGood n i out = some p) : out p = false := by
  have := List.find?_some h
  simpa using this

section
variable {s : State} {port : Nat}

theorem pipelineRotation_runs {u : State} {rx pass : Bool} (he : engUp s = true) (hu : rotateAes (quiet s) port rx pass = u) :
    exec (.pipelineRotation port rx pass) s = .next (finish s u) :=
  (runEng_run he hu : execPipelineRotation port rx pass s = _)

theorem adderRotation_runs {u : State} {l : List Nat} (he : engUp s = true) (hu : rotateAdder (quiet s) port l = u) :
    exec (.adderRotation port l) s = .next (finish s u) :=
  (runEng_run he hu : execAdderRotation port l s = _)

theorem memsealPipeRotation_runs {u : State} {pass : Bool} (he : engUp s = true) (hu : rotateMs (quiet s) pass = u) :
    exec (.memsealPipeRotation pass) s = .next (finish s u) :=
  (runEng_run he hu : execMemsealPipeRotation pass s = _)

theorem rotateAes_absent (rx pass : Bool) (h : portOk s port = false) : rotateAes s port rx pass = s := by
  unfold rotateAes
  exact if_pos (by rw [h]; rfl)

theorem rotateAdder_absent (l : List Nat) (h : portOk s port = false) : rotateAdder s port l = s := by
  unfold rotateAdder
  exact if_pos (by rw [h]; rfl)

/-- The pipeline in turn is tested, and mapped out where it fails. -/
theorem rotateAes_tests {rx : Bool} {p : Nat} (pass : Bool) (h : portOk s port = true)
    (hp : nextGood 36 (tgetD s.ladder.rotAes (port * 2 + b2n rx) 0) (fun p => isMapped s (.aes port rx p)) = some p) :
    let t := { s with ladder := { s.ladder with rotAes := tset s.ladder.rotAes (port * 2 + b2n rx) ((p + 1) % 36) } }
    rotateAes s port rx pass = if pass then t else mapOut t (.aes port rx p) := by
  intro t
  unfold rotateAes
  refine (if_neg (by rw [h]; exact Bool.false_ne_true)).trans ?_
  dsimp only
  rw [hp]

/-- The group of adder lanes in turn is tested. -/
theorem rotateAdder_tests (l : List Nat) (h : portOk s port = true) :
    let g := tgetD s.ladder.rotAdder port 0
    rotateAdder s port l = (l.filter (fun l => l / 64 == g)).foldl (fun s l => mapOut s (.adder port l))
      { s with ladder := { s.ladder with rotAdder := tset s.ladder.rotAdder port ((g + 1) % 9) } } := by
  intro g
  unfold rotateAdder
  exact if_neg (by rw [h]; exact Bool.false_ne_true)

theorem rotateMs_tests {p : Nat} (pass : Bool) (hp : nextGood 160 s.ladder.rotMs (fun p => isMapped s (.msPipe p)) = some p) :
    let t := { s with ladder := { s.ladder with rotMs := (p + 1) % 160 } }
    rotateMs s pass = if pass then t else mapOut t (.msPipe p) := by
  intro t
  unfold rotateMs
  rw [hp]

theorem rotateMs_none (pass : Bool) (hp : nextGood 160 s.ladder.rotMs (fun p => isMapped s (.msPipe p)) = none) : rotateMs s pass = s := by
  unfold rotateMs
  rw [hp]

end

/-- Settles O52: an entry of the repair map reads back as its part, and a rotation tests the next part in turn. -/
theorem partsRotate : Obligations.PartsRotate := by
  unfold Obligations.PartsRotate
  refine ⟨fun p => ?_, fun s port rx pass he => ⟨fun hk => ?_, fun hk => ?_, fun p hp => ?_, fun hp => ?_⟩⟩
  · cases p with
    | aes port rx n => exact fun h => wordPart_aes rx h.1 h.2
    | adder port lane => exact fun h => wordPart_adder h.1 h.2
    | msPipe n => exact wordPart_msPipe
    | sramRow m r => exact fun h => wordPart_sramRow h.1 h.2
    | sramCol m c => exact fun h => wordPart_sramCol h.1 h.2
    | core c => exact wordPart_core
  · exact ⟨fun l => adderRotation_runs he (rotateAdder_absent (s := quiet s) l hk), pipelineRotation_runs he (rotateAes_absent (s := quiet s) rx pass hk)⟩
  · intro k g
    refine ⟨fun p hp => ⟨pipelineRotation_runs he (rotateAes_tests (s := quiet s) true hk hp), fun hl => ?_⟩,
      adderRotation_runs he (rotateAdder_tests (s := quiet s) [] hk), fun l hg hm hl => ?_⟩
    · have hm : isMapped s (.aes port rx p) = false := nextGood_good hp
      have hx := pipelineRotation_runs he (rotateAes_tests (s := quiet s) false hk hp)
      have hr := mapOut_room (s := { quiet s with ladder := { s.ladder with rotAes := tset s.ladder.rotAes k ((p + 1) % 36) } }) hm hl
      have hw := mapOut_noted (s := { quiet s with ladder := { s.ladder with rotAes := tset s.ladder.rotAes k ((p + 1) % 36) } }) hm hl
      exact ⟨_, hx, hr.mapped, hr.rotAes, hw⟩
    · have hx := adderRotation_runs he (rotateAdder_tests (s := quiet s) [l] hk)
      rw [show [l].filter (fun l => l / 64 == tgetD (quiet s).ladder.rotAdder port 0) = [l] by
        rw [List.filter_cons_of_pos (by simpa using hg), List.filter_nil]] at hx
      have hr := mapOut_room (s := { quiet s with ladder := { s.ladder with rotAdder := tset s.ladder.rotAdder port ((g + 1) % 9) } }) hm hl
      exact ⟨_, hx, hr.mapped, hr.rotAdder⟩
  · refine ⟨memsealPipeRotation_runs he (rotateMs_tests (s := quiet s) true hp), fun hl => ?_⟩
    have hm : isMapped s (.msPipe p) = false := nextGood_good hp
    have hx := memsealPipeRotation_runs he (rotateMs_tests (s := quiet s) false hp)
    have hr := mapOut_room (s := { quiet s with ladder := { s.ladder with rotMs := (p + 1) % 160 } }) hm hl
    exact ⟨_, hx, hr.mapped, hr.slot⟩
  · exact memsealPipeRotation_runs he (rotateMs_none (s := quiet s) pass hp)

end Sys2Proof.Machine
end

section
/-! SUPPORT. The Tandem: synchronisation, mirror records, and silence (O53). -/

namespace Sys2Proof.Machine
/- Proofs are elaborated in their order, for the reason given in the first section of this kind. -/
set_option deprecated.oldSectionVars true

/-! What a standby applies. -/

theorem td_mirrorRetire (s : State) (t : Nat) : (mirrorRetire s t).td = s.td := by
  unfold mirrorRetire
  split
  · rfl
  · dsimp only
    split <;> rfl

/-- Applying a record leaves the state of the Tandem itself. -/
theorem td_applyMirror (s : State) (r : Mirror) : (applyMirror s r).td = s.td := by
  have hret : ∀ (ts : List Nat) (s : State), (ts.foldl mirrorRetire s).td = s.td := fun ts => by
    induction ts with
    | nil => exact fun _ => rfl
    | cons t ts ih => exact fun s => (ih _).trans (td_mirrorRetire s t)
  cases r with
  | key n k =>
    dsimp only [applyMirror]
    split <;> rfl
  | chord k c => cases c <;> rfl
  | tag t e =>
    dsimp only [applyMirror, mirrorTag]
    split <;> rfl
  | retired ts => exact hret ts s
  | root kid v =>
    dsimp only [applyMirror]
    split <;> rfl
  | hot kid line b =>
    dsimp only [applyMirror]
    split <;> rfl
  | _ => rfl

theorem applyMirror_key (s : State) {n : Nat} (k : Slot) (h : 3 ≤ n) : slotAt (applyMirror s (.key n k)) n = k := by
  rw [applyMirror, if_pos h]
  exact tgetD_tset_same _ _ _ _

theorem applyMirror_tag (s : State) (t : Nat) (e : TagEnt) : tget (applyMirror s (.tag t e)).fab.tags t = some e := by
  have h : (applyMirror s (.tag t e)).fab.tags = tset s.fab.tags t e := by
    unfold applyMirror mirrorTag
    dsimp only
    split <;> rfl
  rw [h]
  exact tget_tset_same _ _ _

/-- An entry that is written, or taken away, is found so. -/
theorem tget_tput {α : Type} (t : Tbl α) (k : Nat) (v : Option α) : tget (tput t k v) k = v := by
  cases v with
  | none => exact tget_tdel_same _ _
  | some x => exact tget_tset_same _ _ _

/-! A record arrives. -/

/-- The state in which a record has shown that the partner lives. -/
def partnerLives (s : State) : State := { s with td := { s.td with alive := true, silent := false } }

section
variable {s u : State}

theorem mirrorRecordRx_runs {r : Mirror} (he : engUp s = true) (hm : mirrorMode s = true) (hu : mirrorRx (quiet s) r = u) :
    exec (.mirrorRecordRx r) s = .next (finish s u) :=
  (runEng_run he ((when_pos (show mirrorMode (quiet s) = true from hm)).trans hu) : execMirrorRecordRx r s = _)

theorem mirrorRx_heartbeat : mirrorRx s .heartbeat = partnerLives s := by
  unfold mirrorRx
  dsimp only
  split <;> rfl

theorem mirrorRx_unfit : mirrorRx s (.sync false) = { partnerLives s with td := { (partnerLives s).td with syncing := false, syncErr := true } } := by
  unfold mirrorRx
  dsimp only
  split <;> rfl

theorem mirrorRx_owner (h : s.td.owner = true) (n : Nat) :
    mirrorRx s (.confirm n) = releaseAfterHold { partnerLives s with td := { (partnerLives s).td with confirmed := max s.td.confirmed n } } n ∧
    mirrorRx s (.sync true) = sendCopy (partnerLives s) ∧ mirrorRx s .ask = handOver (partnerLives s) 1 := by
  unfold mirrorRx
  exact ⟨if_pos h, if_pos h, if_pos h⟩

theorem mirrorRx_standby (h : s.td.owner = false) : mirrorRx s (.sync true) = partnerLives s := by
  unfold mirrorRx
  exact if_neg (by rw [h]; exact Bool.false_ne_true)

/-- A standby that synchronises, or has, applies a record that carries state, and confirms it by its number. -/
theorem mirrorRx_carries {r : Mirror} (h : s.td.owner = false) (hc : carries r = true) :
    mirrorRx s r = if s.td.syncing || s.td.synced then
      emit (applyMirror { partnerLives s with td := { (partnerLives s).td with got := s.td.got + 1 } } r) (.mirror (.confirm (s.td.got + 1)))
      else partnerLives s := by
  have hgot := td_applyMirror { partnerLives s with td := { (partnerLives s).td with got := s.td.got + 1 } } r
  unfold mirrorRx
  refine (if_neg (by rw [h]; exact Bool.false_ne_true)).trans ?_
  split
  · exact absurd hc Bool.false_ne_true
  · rw [hc, Bool.true_and]
    exact congrArg (fun n => if s.td.syncing || s.td.synced then
      emit (applyMirror { partnerLives s with td := { (partnerLives s).td with got := s.td.got + 1 } } r) (.mirror (.confirm n))
      else partnerLives s) (congrArg Tandem.got hgot)

/-! Silence. -/

/-- A MIRROR alarm, with room in the queue. -/
theorem mirrorAlarm_room (hl : s.aon.alarms.length < 256) : ∃ a, (mirrorAlarm s).aon.alarms.getLast? = some a ∧ a.cls = 7 ∧ a.unit = 0x1D ∧
    (mirrorAlarm s).td = s.td ∧ (mirrorAlarm s).keys = s.keys ∧ (mirrorAlarm s).fab = s.fab := by
  obtain ⟨c, w, al, q, g, h, x, h1, h2, h3, -⟩ := occur_room s (mkRec 0x07 0x1D 0 0 0 0 0 0 0 0) none (by simp [mkRec]) hl
  rw [show mirrorAlarm s = _ from h]
  exact ⟨x, h1, h2, h3, rfl, rfl, rfl⟩

theorem isStandby_pair (hm : mirrorMode s = true) (ho : s.td.owner = false) : isStandby s = true := by
  rw [isStandby, hm, ho]
  rfl

end

/-! The clauses. -/

section
variable {s : State}

theorem tandemSynced_runs {u : State} (he : engUp s = true) (hu : when_ ((quiet s).td.syncing && mirrorMode (quiet s)) (fun s =>
    { s with td := { s.td with syncing := false, synced := true, syncKib := 11728 } }) (quiet s) = u) :
    exec .tandemSynced s = .next (finish s u) :=
  (runEng_run he hu : execTandemSynced s = _)

theorem mirrorHeartbeat_runs {u : State} (he : engUp s = true) (hu : when_ (mirrorMode (quiet s) && (quiet s).aon.stage == 6)
    (fun s => emit s (.mirror .heartbeat)) (quiet s) = u) : exec .mirrorHeartbeat s = .next (finish s u) :=
  (runEng_run he hu : execMirrorHeartbeat s = _)

theorem standbyMirrorSilence_runs {u : State} (he : engUp s = true) (hu : when_ (isStandby (quiet s)) (fun s => { s with td := { s.td with
    alive := false, silent := s.td.synced && wbit (reg s 0xF0000) 1 } }) (quiet s) = u) : exec .standbyMirrorSilence s = .next (finish s u) :=
  (runEng_run he hu : execStandbyMirrorSilence s = _)

theorem standbyTakeoverGiveup_runs {u : State} (he : engUp s = true) (hu : when_ (isStandby (quiet s) && (quiet s).td.synced && !(quiet s).td.fenceOut)
    (fun s => mirrorAlarm { s with td := { s.td with silent := false, synced := false } }) (quiet s) = u) :
    exec .standbyTakeoverGiveup s = .next (finish s u) :=
  (runEng_run he hu : execStandbyTakeoverGiveup s = _)

theorem ownerMirrorSilence_runs {u : State} (he : engUp s = true) (hu : when_ (mirrorMode (quiet s) && (quiet s).td.owner &&
    ((quiet s).td.alive || (quiet s).td.synced)) (fun s => dropPartner (mirrorAlarm s)) (quiet s) = u) :
    exec .ownerMirrorSilence s = .next (finish s u) :=
  (runEng_run he hu : execOwnerMirrorSilence s = _)

theorem takeover_runs {u : State} (he : engUp s = true) (hu : when_ (isStandby (quiet s) && (quiet s).td.synced && (quiet s).td.silent)
    (fun s => takeOver s 5) (quiet s) = u) : exec .takeover s = .next (finish s u) :=
  (runEng_run he hu : execTakeover s = _)

/-- Outside a pair in mirror mode none of the pair's commands does anything. -/
theorem mirror_unpaired (he : engUp s = true) (hm : mirrorMode s = false) (r : Mirror) : ∀ c ∈ ([.tandemSynced, .mirrorHeartbeat,
    .mirrorRecordRx r, .standbyMirrorSilence, .standbyTakeoverGiveup, .ownerMirrorSilence, .takeover] : List Instr),
    exec c s = .next (finish s (quiet s)) := by
  have hq : mirrorMode (quiet s) = false := hm
  have hs : isStandby (quiet s) = false := by
    rw [isStandby, hq]
    rfl
  simp only [List.forall_mem_cons]
  refine ⟨tandemSynced_runs he (when_neg ?_), mirrorHeartbeat_runs he (when_neg ?_), ?_, standbyMirrorSilence_runs he (when_neg hs),
    standbyTakeoverGiveup_runs he (when_neg ?_), ownerMirrorSilence_runs he (when_neg ?_), takeover_runs he (when_neg ?_), fun _ h => nomatch h⟩
  · rw [hq, Bool.and_false]
  · rw [hq, Bool.false_and]
  · exact (runEng_run he (when_neg hq) : execMirrorRecordRx r s = _)
  · rw [hs, Bool.false_and, Bool.false_and]
  · rw [hq, Bool.false_and, Bool.false_and]
  · rw [hs, Bool.false_and, Bool.false_and]

/-- A write of TD_SYNC asks the partner once. -/
theorem tdSyncStart_clauses {who : Requester} (h : opens s who 0xF000C = true) :
    (mirrorMode s = true → s.td.synced = false → s.td.syncing = false → exec (.tdSyncStart who) s = .next (finish s (emit (emit
      { quiet s with td := { s.td with syncing := true, syncErr := false, syncKib := 0, got := 0 } } (.mirror (.sync true))) (.regRsp 0 false)))) ∧
    (mirrorMode s = false ∨ s.td.synced = true ∨ s.td.syncing = true →
      exec (.tdSyncStart who) s = .next (finish s (emit (quiet s) (.regRsp 0 false)))) := by
  have run : ∀ {u}, startSync (quiet s) = u → exec (.tdSyncStart who) s = .next (finish s (emit u (.regRsp 0 false))) := fun hu =>
    (write_opens h hu : execTdSyncStart who s = _)
  refine ⟨fun hm h1 h2 => run (if_pos ?_), fun hn => run (if_neg ?_)⟩
  · rw [show mirrorMode (quiet s) = true from hm, show (quiet s).td.synced = false from h1, show (quiet s).td.syncing = false from h2]
    rfl
  · rw [show mirrorMode (quiet s) = mirrorMode s from rfl, show (quiet s).td = s.td from rfl]
    rcases hn with hn | hn | hn <;> simp [hn]

/-- The clauses of a pair in mirror mode. -/
theorem mirror_paired (he : engUp s = true) (hm : mirrorMode s = true) (r : Mirror) :
    let live := partnerLives (quiet s)
    (s.td.syncing = true → exec .tandemSynced s = .next (finish s { quiet s with td := { s.td with syncing := false, synced := true, syncKib := 11728 } })) ∧
    (s.td.syncing = false → exec .tandemSynced s = .next (finish s (quiet s))) ∧
    (s.aon.stage = 6 → exec .mirrorHeartbeat s = .next (finish s (emit (quiet s) (.mirror .heartbeat)))) ∧
    exec (.mirrorRecordRx .heartbeat) s = .next (finish s live) ∧
    (s.td.owner = true → ∀ n, exec (.mirrorRecordRx (.confirm n)) s =
      .next (finish s (releaseAfterHold { live with td := { live.td with confirmed := max s.td.confirmed n } } n))) ∧
    (s.td.owner = true → exec (.mirrorRecordRx (.sync true)) s = .next (finish s (sendCopy live)) ∧
      exec (.mirrorRecordRx .ask) s = .next (finish s (handOver live 1))) ∧
    (s.td.owner = false → exec (.mirrorRecordRx (.sync true)) s = .next (finish s live)) ∧
    exec (.mirrorRecordRx (.sync false)) s = .next (finish s { live with td := { live.td with syncing := false, syncErr := true } }) ∧
    (s.td.owner = false → carries r = true →
      (s.td.syncing = false → s.td.synced = false → exec (.mirrorRecordRx r) s = .next (finish s live)) ∧
      (s.td.syncing = true ∨ s.td.synced = true → exec (.mirrorRecordRx r) s = .next (finish s (emit (applyMirror { live with
        td := { live.td with got := s.td.got + 1 } } r) (.mirror (.confirm (s.td.got + 1))))))) ∧
    (s.td.owner = false →
      exec .standbyMirrorSilence s = .next (finish s { quiet s with td := { s.td with alive := false, silent := s.td.synced && wbit (reg s 0xF0000) 1 } }) ∧
      (s.td.synced = true → s.td.fenceOut = false → s.aon.alarms.length < 256 → ∃ u a, exec .standbyTakeoverGiveup s = .next (finish s u) ∧
        u.td.silent = false ∧ u.td.synced = false ∧ u.td.owner = false ∧ u.aon.alarms.getLast? = some a ∧ a.cls = 7 ∧ a.unit = 0x1D ∧ u.keys = s.keys)) ∧
    (s.td.owner = true → s.td.alive = true ∨ s.td.synced = true →
      exec .ownerMirrorSilence s = .next (finish s (dropPartner (mirrorAlarm (quiet s))))) := by
  intro live
  have hq : mirrorMode (quiet s) = true := hm
  refine ⟨fun h => tandemSynced_runs he (when_pos ?_), fun h => tandemSynced_runs he (when_neg ?_), fun h => mirrorHeartbeat_runs he (when_pos ?_),
    mirrorRecordRx_runs he hm mirrorRx_heartbeat, fun ho n => mirrorRecordRx_runs he hm (mirrorRx_owner (s := quiet s) ho n).1,
    fun ho => ⟨mirrorRecordRx_runs he hm (mirrorRx_owner (s := quiet s) ho 0).2.1, mirrorRecordRx_runs he hm (mirrorRx_owner (s := quiet s) ho 0).2.2⟩,
    fun ho => mirrorRecordRx_runs he hm (mirrorRx_standby (s := quiet s) ho), mirrorRecordRx_runs he hm mirrorRx_unfit,
    fun ho hc => ⟨fun h1 h2 => ?_, fun h => ?_⟩, fun ho => ⟨?_, fun h1 h2 hl => ?_⟩, fun ho h => ?_⟩
  · rw [hq, show (quiet s).td.syncing = true from h]
    rfl
  · rw [show (quiet s).td.syncing = false from h]
    rfl
  · rw [hq, show (quiet s).aon.stage = 6 from h]
    rfl
  · refine mirrorRecordRx_runs he hm ((mirrorRx_carries (s := quiet s) ho hc).trans (if_neg ?_))
    rw [show (quiet s).td.syncing = false from h1, show (quiet s).td.synced = false from h2]
    exact Bool.false_ne_true
  · refine mirrorRecordRx_runs he hm ((mirrorRx_carries (s := quiet s) ho hc).trans (if_pos ?_))
    exact Bool.or_eq_true_iff.2 h
  · exact standbyMirrorSilence_runs he (when_pos (isStandby_pair (s := quiet s) hm ho))
  · have hx := standbyTakeoverGiveup_runs he (u := mirrorAlarm { quiet s with td := { s.td with silent := false, synced := false } }) (when_pos (by
      rw [isStandby_pair (s := quiet s) hm ho, show (quiet s).td.synced = true from h1, show (quiet s).td.fenceOut = false from h2]
      rfl))
    obtain ⟨a, h3, h4, h5, h6, h7, -⟩ := mirrorAlarm_room (s := { quiet s with td := { s.td with silent := false, synced := false } }) hl
    generalize mirrorAlarm { quiet s with td := { s.td with silent := false, synced := false } } = t at h3 h6 h7 hx
    exact ⟨t, a, hx, by rw [h6], by rw [h6], by rw [h6]; exact ho, h3, h4, h5, h7⟩
  · refine ownerMirrorSilence_runs he (when_pos ?_)
    rw [hq, show (quiet s).td = s.td from rfl, ho]
    rcases h with h | h <;> simp [h]

end

/-- Settles O53: a pair synchronises, a standby applies and confirms each record, an owner answers and hands over, and silence ends the pair. -/
theorem tandemMirror : Obligations.TandemMirror := by
  unfold Obligations.TandemMirror
  intro s who r level
  refine ⟨tdSyncStart_clauses, fun hp => ?_, fun he hm => mirror_unpaired he hm r, fun he hm => mirror_paired he hm r,
    fun n k h => applyMirror_key s k h, fun k c => tget_tset_same _ _ _, fun k e => tget_tset_same _ _ _, applyMirror_tag s, fun p v => rfl,
    fun kid v => tget_tput _ _ _, fun c v => tget_tput _ _ _, fun d v => tget_tput _ _ _, fun p g b => tgetD_tset_same _ _ _ _⟩
  exact (if_pos hp).trans (runAon_run hp rfl : runAon (fun s => { s with td := { s.td with fenceIn := level } }) s = _)

end Sys2Proof.Machine
end

section
/-! SUPPORT. A standby that takes over, failover, and lockstep-compare (O54). -/

namespace Sys2Proof.Machine
/- Proofs are elaborated in their order, for the reason given in the first section of this kind. -/
set_option deprecated.oldSectionVars true

/-! What each part of a takeover leaves as it is. -/

/-- The pair's own state, the egress streams, the waits, fences and copies, the keys, and the alarms stand as they stood. -/
structure Carried (s t : State) : Prop where
  td : t.td = s.td
  egress : t.links.egress = s.links.egress
  waits : t.fab.waits = s.fab.waits
  fences : t.fab.fences = s.fab.fences
  copies : t.fab.copies = s.fab.copies
  keys : t.keys = s.keys
  alarms : t.aon.alarms = s.aon.alarms

theorem Carried.refl (s : State) : Carried s s := ⟨rfl, rfl, rfl, rfl, rfl, rfl, rfl⟩

theorem Carried.trans {s t u : State} (a : Carried s t) (b : Carried t u) : Carried s u :=
  ⟨b.td.trans a.td, b.egress.trans a.egress, b.waits.trans a.waits, b.fences.trans a.fences, b.copies.trans a.copies, b.keys.trans a.keys,
    b.alarms.trans a.alarms⟩

/-- The lanes that come up change the lanes and what is presented. -/
theorem raiseLanes_form (s : State) : ∃ l o, raiseLanes s = { s with links := { s.links with lane := l }, out := o } := by
  have h : ∀ (ps : List (Nat × Lane)) (t : State), ∃ l o, ps.foldl (fun s p =>
      if p.2.up && p.2.cause == 0 && laneAllow s p.1 then
        sendCtl (setLane s p.1 { Lane.down with up := true, started := true, inService := true, startAt := s.aon.ts }) p.1 1 false 0
      else s) t = { t with links := { t.links with lane := l }, out := o } := by
    intro ps
    induction ps with
    | nil => exact fun t => ⟨t.links.lane, t.out, rfl⟩
    | cons p ps ih =>
      intro t
      rw [List.foldl_cons]
      split
      · obtain ⟨l, o, e⟩ := ih (sendCtl (setLane t p.1 { Lane.down with up := true, started := true, inService := true, startAt := t.aon.ts }) p.1 1 false 0)
        exact ⟨l, o, e⟩
      · exact ih t
  exact h s.links.lane s

/-- The end of a descriptor leaves the others. -/
theorem descAt_completeDesc_other (s : State) {d e : Nat} (st r : Nat) (h : d ≠ e) : descAt (completeDesc s e st r) d = descAt s d := by
  have hset : ∀ (t : State) y, descAt (setDesc t e y) d = descAt t d := fun t y => tget_tset_other _ _ _ _ h
  unfold completeDesc
  split
  · rfl
  · split
    · rfl
    · dsimp only
      split <;> split <;>
      · exact (desc_countEv _ _ _ _ _).trans (hset _ _)

/-- A descriptor that is done stays so. -/
theorem completeDesc_again {s : State} {d : Nat} {z : Desc} (st r : Nat) (h : descAt s d = some z) (hz : z.phase = .done) : completeDesc s d st r = s := by
  unfold completeDesc
  rw [h]
  exact if_pos (.inl hz)

theorem carried_completeDesc (s : State) (d st r : Nat) : Carried s (completeDesc s d st r) := by
  obtain ⟨c, n, w, f, x, e, h⟩ := completeDesc_changes s d st r
  rw [h]
  exact ⟨rfl, rfl, rfl, rfl, rfl, rfl, rfl⟩

/-- What a running descriptor's end leaves before the descriptor itself ends. -/
structure Untouched (s t : State) : Prop where
  carried : Carried s t
  parts : t.parts = s.parts
  ident : t.ident = s.ident

theorem untouched_setPgd (s : State) (p g : Nat) (b : Bytes) (o : Nat) (w : Word) : Untouched s (setBits (setPgd s p g b) o w) :=
  ⟨⟨rfl, rfl, rfl, rfl, rfl, rfl, rfl⟩, rfl, rfl⟩

theorem untouched_pushCadence (s : State) (p g st fl n k : Nat) : Untouched s (pushCadence s p g st fl n k) := by
  obtain ⟨l, w, e, -⟩ := queueCadence_form s (cadenceRec s p g st fl n k)
  unfold pushCadence
  rw [e]
  exact ⟨⟨rfl, rfl, rfl, rfl, rfl, rfl, rfl⟩, rfl, rfl⟩

theorem untouched_sendAborts (s : State) (g : Stage) (st v : Nat) (e : Option (Nat × Bool)) : Untouched s (sendAborts s g st v e) := by
  obtain ⟨l, h⟩ := sendAborts_form s g st v e
  rw [h]
  exact ⟨⟨rfl, rfl, rfl, rfl, rfl, rfl, rfl⟩, rfl, rfl⟩

theorem Untouched.trans {s t u : State} (a : Untouched s t) (b : Untouched t u) : Untouched s u :=
  ⟨a.carried.trans b.carried, b.parts.trans a.parts, b.ident.trans a.ident⟩

/-- A descriptor that a takeover ends. -/
theorem takeDesc_form (s : State) (d : Nat) (x : Desc) : ∃ t, takeDesc s d x = completeDesc t d stContextReset 0 ∧ Untouched s t := by
  unfold takeDesc
  dsimp only
  split
  · exact ⟨_, rfl, untouched_sendAborts _ _ _ _ _⟩
  · split
    · exact ⟨_, rfl, (untouched_setPgd _ _ _ _ _ _).trans (untouched_pushCadence _ _ _ _ _ _ _)⟩
    · exact ⟨s, rfl, .refl s, rfl, rfl⟩

/-- One step of the end of the running descriptors. -/
def takeStep (s : State) (p : Nat × Desc) : State := if p.2.phase = .running then takeDesc s p.1 p.2 else s

theorem takeDescs_fold (s : State) : takeDescs s = s.parts.desc.foldl takeStep s := rfl

theorem takeStep_keeps (s : State) (p : Nat × Desc) : Carried s (takeStep s p) ∧ (takeStep s p).ident = s.ident := by
  unfold takeStep
  split
  · obtain ⟨t, h, hu⟩ := takeDesc_form s p.1 p.2
    rw [h]
    obtain ⟨c, n, w, f, x, e, hc⟩ := completeDesc_changes t p.1 stContextReset 0
    exact ⟨hu.carried.trans (carried_completeDesc _ _ _ _), by rw [hc]; exact hu.ident⟩
  · exact ⟨.refl s, rfl⟩

theorem takeDescs_keeps (s : State) : Carried s (takeDescs s) ∧ (takeDescs s).ident = s.ident := by
  rw [takeDescs_fold]
  exact List.foldlRecOn (motive := fun t : State => Carried s t ∧ t.ident = s.ident) _ _ ⟨.refl s, rfl⟩ fun t ht p _ =>
    ⟨ht.1.trans (takeStep_keeps t p).1, (takeStep_keeps t p).2.trans ht.2⟩

/-- A descriptor has ended with ST_CONTEXT_RESET. -/
def endedByReset (t : State) (d : Nat) : Prop := ∃ z, descAt t d = some z ∧ z.phase = .done ∧ z.status = stContextReset

theorem takeStep_other {s : State} {p : Nat × Desc} {d : Nat} (h : d ≠ p.1) : descAt (takeStep s p) d = descAt s d := by
  unfold takeStep
  split
  · obtain ⟨t, ht, hu⟩ := takeDesc_form s p.1 p.2
    rw [ht, descAt_completeDesc_other _ _ _ h]
    exact congrArg (fun q : Parts => tget q.desc d) hu.parts
  · rfl

theorem takeStep_stays {s : State} {d : Nat} (p : Nat × Desc) (h : endedByReset s d) : endedByReset (takeStep s p) d := by
  obtain ⟨z, hz, hd, hs⟩ := h
  refine ⟨z, ?_, hd, hs⟩
  by_cases hp : d = p.1
  · unfold takeStep
    split
    · obtain ⟨t, ht, hu⟩ := takeDesc_form s p.1 p.2
      have hx : descAt t d = some z := (congrArg (fun q : Parts => tget q.desc d) hu.parts).trans hz
      rw [ht, ← hp, completeDesc_again _ _ hx hd]
      exact hx
    · exact hz
  · rw [takeStep_other hp]
    exact hz

theorem takeStep_ends {s : State} {d : Nat} {y x : Desc} (h : descAt s d = some y) (hp : y.phase = .running) (hx : x.phase = .running) :
    endedByReset (takeStep s (d, x)) d := by
  unfold takeStep
  rw [if_pos hx]
  obtain ⟨t, ht, hu⟩ := takeDesc_form s d x
  obtain ⟨-, z, h1, h2, h3, -⟩ := completeDesc_done stContextReset 0 ((congrArg (fun q : Parts => tget q.desc d) hu.parts).trans h) hp
  rw [ht]
  exact ⟨z, h1, h2, h3⟩

/-- Every running descriptor of the list ends, whatever comes before and after it. -/
theorem foldl_takeStep (d : Nat) (y : Desc) (hp : y.phase = .running) (l : List (Nat × Desc)) :
    ∀ t, endedByReset t d ∨ (descAt t d = some y ∧ (d, y) ∈ l) → endedByReset (l.foldl takeStep t) d := by
  induction l with
  | nil => exact fun t h => h.elim id fun e => nomatch e.2
  | cons p l ih =>
    intro t h
    rw [List.foldl_cons]
    refine ih _ (h.elim (fun hr => .inl (takeStep_stays p hr)) fun ⟨hd, hm⟩ => ?_)
    by_cases hk : d = p.1
    · by_cases hx : p.2.phase = .running
      · exact .inl (by
          have := takeStep_ends (x := p.2) hd hp hx
          rwa [show (d, p.2) = p from Prod.ext hk rfl] at this)
      · refine .inr ⟨?_, ((List.mem_cons.1 hm).resolve_left fun e => hx ?_)⟩
        · rw [takeStep, if_neg hx]
          exact hd
        · rw [← e]
          exact hp
    · exact .inr ⟨(takeStep_other hk).trans hd, (List.mem_cons.1 hm).resolve_left fun e => hk (congrArg Prod.fst e)⟩

theorem takeDescs_ends {s : State} {d : Nat} {y : Desc} (h : descAt s d = some y) (hp : y.phase = .running) : endedByReset (takeDescs s) d := by
  rw [takeDescs_fold]
  exact foldl_takeStep d y hp _ s (.inr ⟨h, mem_of_tget h⟩)

/-- The end of a failover's command changes the Hub. -/
theorem failoverDone_form (s : State) (src : Nat) : ∃ h, failoverDone s src = { s with hub := h } := by
  unfold failoverDone
  split
  · exact ⟨_, rfl⟩
  · exact ⟨s.hub, rfl⟩

/-- Of the Hub and the sessions, a takeover leaves the mailbox of a failover that is over. -/
theorem takeHub_form (s : State) : ∃ h, takeHub s = { s with hub := h, ident := { s.ident with sessions := [] } } := by
  have hf : ∀ (l : List Nat) (t : State), ∃ h, l.foldl failoverDone t = { t with hub := h } := by
    intro l
    induction l with
    | nil => exact fun t => ⟨t.hub, rfl⟩
    | cons n l ih =>
      intro t
      obtain ⟨h, e⟩ := failoverDone_form t n
      obtain ⟨k, e2⟩ := ih (failoverDone t n)
      rw [List.foldl_cons, e2, e]
      exact ⟨k, rfl⟩
  unfold takeHub
  dsimp only
  obtain ⟨h, e⟩ := hf ((s.hub.bg.filter (fun b => b.op == .tandemFailover)).map (·.src)) { s with
    hub := { s.hub with
      mbox := tkeep s.hub.mbox (fun k _ => ((s.hub.bg.filter (fun b => b.op == .tandemFailover)).map (·.src)).contains k)
      bg := s.hub.bg.filter (fun b => b.op == .tandemFailover), storeFailed := [] }
    ident := { s.ident with sessions := [] } }
  rw [e]
  exact ⟨h, rfl⟩

/-- A reset notice is a frame that waits to be sent, or is counted as lost. -/
theorem untouched_resetNotice (s : State) (a b c d e f : Nat) : Untouched s (resetNotice s a b c d e f) := by
  have h : ∀ m : Nat, Untouched s (if isMember s && m != 0xFFFF then
      pushMgmt s m (mgmtHeader s 0x11 s.dom.gen ++ leBytes 1 a ++ leBytes 1 b ++ leBytes 1 c ++
        leBytes 1 d ++ leBytes 1 e ++ [0, 0, 0] ++ leBytes 8 f) .notice
      else bump s 0x505C) := fun m => by
    split
    · exact ⟨⟨rfl, rfl, rfl, rfl, rfl, rfl, rfl⟩, rfl, rfl⟩
    · exact ⟨⟨rfl, rfl, rfl, rfl, rfl, rfl, rfl⟩, rfl, rfl⟩
  exact h _

/-! The takeover. -/

/-- The state in which a standby has taken the lanes, before what was running ends. -/
def lanesTaken (s : State) (cause : Nat) : State :=
  { s with
    td := { s.td with fenceOut := true, owner := true, synced := false, syncing := false, silent := false, lastCause := cause
                      failovers := min (s.td.failovers + 1) 0xFFFFFFFF }
    links := { s.links with egress := tmapV s.links.egress (fun _ c => { c with jump := true, closing := true, gap := none }) }
    fab := { s.fab with waits := [], fences := [], copies := [] } }

theorem takeTags_none {s : State} (h : s.fab.tags = []) : takeTags s = s := by
  unfold takeTags
  rw [h]
  rfl

/-- A takeover with no tag out and room for its alarm. -/
theorem takeOver_ends {s : State} (cause : Nat) (ht : s.fab.tags = []) (hl : s.aon.alarms.length < 256) :
    (takeOver s cause).td = (lanesTaken s cause).td ∧ (takeOver s cause).links.egress = (lanesTaken s cause).links.egress ∧
    (takeOver s cause).fab.waits = [] ∧ (takeOver s cause).fab.fences = [] ∧ (takeOver s cause).fab.copies = [] ∧
    (takeOver s cause).ident.sessions = [] ∧ (takeOver s cause).keys = s.keys ∧
    ∀ d y, descAt s d = some y → y.phase = .running → endedByReset (takeOver s cause) d := by
  obtain ⟨l, o, hr⟩ := raiseLanes_form (lanesTaken s cause)
  have hraise : Untouched (lanesTaken s cause) (raiseLanes (lanesTaken s cause)) := by
    rw [hr]
    exact ⟨⟨rfl, rfl, rfl, rfl, rfl, rfl, rfl⟩, rfl, rfl⟩
  have htags : takeTags (raiseLanes (lanesTaken s cause)) = raiseLanes (lanesTaken s cause) := takeTags_none (by rw [hr]; exact ht)
  have hdesc := takeDescs_keeps (raiseLanes (lanesTaken s cause))
  have hends : ∀ d y, descAt s d = some y → y.phase = .running → endedByReset (takeDescs (raiseLanes (lanesTaken s cause))) d := fun d y hd hp =>
    takeDescs_ends ((congrArg (fun q : Parts => tget q.desc d) hraise.parts).trans hd) hp
  unfold takeOver
  dsimp only
  rw [show takeTags (raiseLanes { s with
    td := { s.td with fenceOut := true, owner := true, synced := false, syncing := false, silent := false, lastCause := cause
                      failovers := min (s.td.failovers + 1) 0xFFFFFFFF }
    links := { s.links with egress := tmapV s.links.egress (fun _ c => { c with jump := true, closing := true, gap := none }) }
    fab := { s.fab with waits := [], fences := [], copies := [] } }) = raiseLanes (lanesTaken s cause) from htags]
  generalize takeDescs (raiseLanes (lanesTaken s cause)) = t at hdesc hends ⊢
  obtain ⟨h, hh⟩ := takeHub_form t
  have hhub : Carried t (takeHub t) ∧ (takeHub t).parts = t.parts ∧ (takeHub t).ident.sessions = [] := by
    rw [hh]
    exact ⟨⟨rfl, rfl, rfl, rfl, rfl, rfl, rfl⟩, rfl, rfl⟩
  generalize takeHub t = v at hhub ⊢
  have hnote : ∀ p : Prop, [Decidable p] → Untouched v (resetNotice (if p then resetNotice v 4 0xFF 0xFF 0x08 stContextReset v.aon.ts else v) 5 0xFF 0xFF 0x1A
      stContextReset (if p then resetNotice v 4 0xFF 0xFF 0x08 stContextReset v.aon.ts else v).aon.ts) := fun p _ => by
    split
    · exact (untouched_resetNotice _ _ _ _ _ _ _).trans (untouched_resetNotice _ _ _ _ _ _ _)
    · exact untouched_resetNotice _ _ _ _ _ _ _
  have hn := hnote (cause = 3 ∨ cause = 4)
  generalize resetNotice (if cause = 3 ∨ cause = 4 then _ else v) 5 0xFF 0xFF 0x1A stContextReset _ = w at hn ⊢
  have hc : Carried (lanesTaken s cause) w := hraise.carried.trans (hdesc.1.trans (hhub.1.trans hn.carried))
  obtain ⟨c, wn, al, q, g, hocc, -⟩ := occur_room w (mkRec 0x1A 0x1D 0 0 0 cause 0 0 0 0) none (by simp [mkRec]) (by rw [hc.alarms]; exact hl)
  rw [hocc]
  refine ⟨hc.td, hc.egress, hc.waits, hc.fences, hc.copies, (congrArg (·.sessions) hn.ident).trans hhub.2.2, hc.keys, fun d y hd hp => ?_⟩
  obtain ⟨z, h1, h2, h3⟩ := hends d y hd hp
  exact ⟨z, ((congrArg (fun q : Parts => tget q.desc d) (hn.parts.trans hhub.2.1)) : tget w.parts.desc d = tget t.parts.desc d).trans h1, h2, h3⟩

end Sys2Proof.Machine
end

section
/-! SUPPORT. Failover and lockstep-compare, and the takeover's clauses (O54). -/

namespace Sys2Proof.Machine
/- Proofs are elaborated in their order, for the reason given in the first section of this kind. -/
set_option deprecated.oldSectionVars true

section
variable {s : State}

theorem handoverRx_runs {u : State} {cause : Nat} (he : engUp s = true) (hu : when_ (isStandby (quiet s) && (quiet s).td.synced)
    (fun s => takeOver s (cause % 16)) (quiet s) = u) : exec (.handoverRx cause) s = .next (finish s u) :=
  (runEng_run he hu : execHandoverRx cause s = _)

/-- A takeover and a handover are without effect on any but a synchronised standby. -/
theorem takeover_idle (he : engUp s = true) (h : isStandby s = false ∨ s.td.synced = false) (cause : Nat) :
    exec .takeover s = .next (finish s (quiet s)) ∧ exec (.handoverRx cause) s = .next (finish s (quiet s)) := by
  have hn : (isStandby (quiet s) && (quiet s).td.synced) = false := by
    rcases h with h | h
    · rw [show isStandby (quiet s) = false from h, Bool.false_and]
    · rw [show (quiet s).td.synced = false from h, Bool.and_false]
  exact ⟨takeover_runs he (when_neg (by rw [hn, Bool.false_and])), handoverRx_runs he (when_neg hn)⟩

theorem takeover_awake (he : engUp s = true) (h : s.td.silent = false) : exec .takeover s = .next (finish s (quiet s)) :=
  takeover_runs he (when_neg (by rw [show (quiet s).td.silent = false from h, Bool.and_false]))

/-- What a takeover leaves. -/
theorem takeOver_clauses (cause : Nat) (ht : s.fab.tags = []) (hl : s.aon.alarms.length < 256) :
    let u := takeOver (quiet s) cause
    u.td.owner = true ∧ u.td.fenceOut = true ∧ u.td.synced = false ∧ u.td.lastCause = cause ∧
      u.td.failovers = min (s.td.failovers + 1) 0xFFFFFFFF ∧ u.fab.waits = [] ∧ u.fab.fences = [] ∧ u.fab.copies = [] ∧ u.ident.sessions = [] ∧
      u.keys = s.keys ∧ (∀ e ∈ u.links.egress, e.2.jump = true ∧ e.2.closing = true) ∧
      (∀ d y, descAt s d = some y → y.phase = .running → ∃ z, descAt u d = some z ∧ z.phase = .done ∧ z.status = stContextReset) := by
  intro u
  obtain ⟨h1, h2, h3, h4, h5, h6, h7, h8⟩ := takeOver_ends (s := quiet s) cause ht hl
  refine ⟨congrArg Tandem.owner h1, congrArg Tandem.fenceOut h1, congrArg Tandem.synced h1, congrArg Tandem.lastCause h1, congrArg Tandem.failovers h1,
    h3, h4, h5, h6, h7, fun e he => ?_, h8⟩
  have he' : e ∈ tmapV s.links.egress (fun _ c => { c with jump := true, closing := true, gap := none }) := by
    have : u.links.egress = _ := h2
    rwa [this] at he
  obtain ⟨p, -, rfl⟩ := List.mem_map.1 he'
  exact ⟨rfl, rfl⟩

theorem takeover_taken (he : engUp s = true) (hs : isStandby s = true) (hy : s.td.synced = true) (ht : s.fab.tags = [])
    (hl : s.aon.alarms.length < 256) (cause : Nat) : ∀ x ∈ ([(.takeover, 5), (.handoverRx cause, cause % 16)] : List (Instr × Nat)),
    (x.1 = .takeover → s.td.silent = true) → ∃ u, exec x.1 s = .next (finish s u) ∧ u = takeOver (quiet s) x.2 ∧ u.td.owner = true ∧
      u.td.fenceOut = true ∧ u.td.synced = false ∧ u.td.lastCause = x.2 ∧ u.td.failovers = min (s.td.failovers + 1) 0xFFFFFFFF ∧
      u.fab.waits = [] ∧ u.fab.fences = [] ∧ u.fab.copies = [] ∧ u.ident.sessions = [] ∧ u.keys = s.keys ∧
      (∀ e ∈ u.links.egress, e.2.jump = true ∧ e.2.closing = true) ∧
      (∀ d y, descAt s d = some y → y.phase = .running → ∃ z, descAt u d = some z ∧ z.phase = .done ∧ z.status = stContextReset) := by
  have hq : (isStandby (quiet s) && (quiet s).td.synced) = true := by
    rw [show isStandby (quiet s) = true from hs, show (quiet s).td.synced = true from hy]
    rfl
  simp only [List.forall_mem_cons]
  refine ⟨fun hx => ⟨_, takeover_runs he (when_pos ?_), rfl, takeOver_clauses 5 ht hl⟩,
    fun _ => ⟨_, handoverRx_runs he (when_pos hq), rfl, takeOver_clauses (cause % 16) ht hl⟩, fun _ h => nomatch h⟩
  rw [hq, show (quiet s).td.silent = true from hx trivial]
  rfl

/-! The command. -/

/-- What BCP_TANDEM_FAILOVER answers, or starts. -/
theorem bcpTandemFailover_clauses {src : Nat} {k : Packet} (h : takes s src .tandemFailover k = true) :
    (s.td.syncing = true → exec (.bcpTandemFailover src) s = .next (finish s (reply (taken s src) src .tandemFailover k.tag stBusy []))) ∧
    (s.td.syncing = false → mirrorMode s = false ∨ s.td.synced = false →
      exec (.bcpTandemFailover src) s = .next (finish s (reply (taken s src) src .tandemFailover k.tag stNotPermitted []))) ∧
    (s.td.syncing = false → mirrorMode s = true → s.td.synced = true →
      (s.td.owner = true → exec (.bcpTandemFailover src) s = .next (finish s (startBg (taken s src) src .tandemFailover []))) ∧
      (s.td.owner = false → exec (.bcpTandemFailover src) s = .next (finish s (emit (startBg (taken s src) src .tandemFailover []) (.mirror .ask))))) := by
  have run : ∀ {u}, tandemFailover (taken s src) src k = u → exec (.bcpTandemFailover src) s = .next (finish s u) := fun hu =>
    (runCmd_takes h hu : execBcpTandemFailover src s = _)
  have htd : (taken s src).td = s.td := rfl
  have hmm : mirrorMode (taken s src) = mirrorMode s := rfl
  have htd2 : (startBg (taken s src) src .tandemFailover []).td = s.td := rfl
  unfold tandemFailover at run
  rw [htd, hmm] at run
  dsimp only at run
  rw [htd2] at run
  generalize reply (taken s src) src .tandemFailover k.tag stBusy [] = a at run ⊢
  generalize reply (taken s src) src .tandemFailover k.tag stNotPermitted [] = b at run ⊢
  generalize startBg (taken s src) src .tandemFailover [] = c at run ⊢
  refine ⟨fun h1 => run (if_pos h1), fun h1 h2 => run ((if_neg (ne_true_of_eq_false h1)).trans (if_pos ?_)), fun h1 h2 h3 => ⟨fun ho => ?_, fun ho => ?_⟩⟩
  · rcases h2 with h2 | h2 <;> simp [h2]
  all_goals
    refine run ((if_neg (ne_true_of_eq_false h1)).trans ((if_neg ?_).trans ?_))
    · simp [h2, h3]
  · exact if_pos ho
  · exact if_neg (ne_true_of_eq_false ho)

/-- The owner of a synchronised pair hands its lanes over. -/
theorem handOver_gives (cause : Nat) (h : mirrored s = true) : (handOver (quiet s) cause).td.owner = false ∧ (handOver (quiet s) cause).td.synced = false ∧
    (handOver (quiet s) cause).out = [.mirror (.handover cause)] := by
  unfold handOver
  rw [if_pos (show mirrored (quiet s) = true from h)]
  exact ⟨rfl, rfl, rfl⟩

theorem backgroundDone_failover {src : Nat} (he : engUp s = true) (ha : fwActs s = true)
    (hb : s.hub.bg = [{ src := src, op := .tandemFailover, holds := [] }]) (hm : mirrored s = true) :
    exec (.backgroundCommandDone src) s = .next (finish s (failoverDone (handOver (quiet s) 1) src)) := by
  refine (runFw_acts he ha ?_ : execBackgroundCommandDone src s = _)
  rw [show (quiet s).hub.bg = [{ src := src, op := .tandemFailover, holds := [] }] from hb]
  simp only [List.find?_cons, beq_self_eq_true]
  exact if_pos (show mirrored (quiet s) = true from hm)

/-! Lockstep-compare. -/

theorem compareMismatch_runs {u : State} (he : engUp s = true) (hu : when_ ((quiet s).tandemEn && (quiet s).td.modeActive == 1) compareMismatch (quiet s) = u) :
    exec .compareMismatch s = .next (finish s u) :=
  (runEng_run he hu : execCompareMismatch s = _)

theorem compareMismatch_clauses (he : engUp s = true) :
    (s.tandemEn = false ∨ s.td.modeActive ≠ 1 → exec .compareMismatch s = .next (finish s (quiet s))) ∧
    (s.tandemEn = true → s.td.modeActive = 1 → s.aon.alarms.length < 256 → ∃ u r, exec .compareMismatch s = .next (finish s u) ∧ u.td.outHeld = true ∧
      u.aon.alarms.getLast? = some r ∧ r.cls = 7 ∧ u.keys = s.keys ∧ u.fab = s.fab) := by
  refine ⟨fun h => compareMismatch_runs he (when_neg ?_), fun h1 h2 hl => ?_⟩
  · rcases h with h | h
    · rw [show (quiet s).tandemEn = false from h, Bool.false_and]
    · rw [show ((quiet s).td.modeActive == 1) = false from beq_eq_false_iff_ne.2 h, Bool.and_false]
  · have hx := compareMismatch_runs he (u := compareMismatch (quiet s)) (when_pos (by
      rw [show (quiet s).tandemEn = true from h1, show (quiet s).td.modeActive = 1 from h2]
      rfl))
    obtain ⟨a, h3, h4, -, h6, h7, h8⟩ := mirrorAlarm_room (s := { bump (quiet s) 0xF0018 with td := { s.td with outHeld := true } }) hl
    have hc : compareMismatch (quiet s) = mirrorAlarm { bump (quiet s) 0xF0018 with td := { s.td with outHeld := true } } := rfl
    rw [hc] at hx
    generalize mirrorAlarm { bump (quiet s) 0xF0018 with td := { s.td with outHeld := true } } = t at h3 h6 h7 h8 hx
    exact ⟨t, a, hx, by rw [h6], h3, h4, h7, h8⟩

theorem compareKatDone_runs {u : State} {a b : Bool} (hp : s.aon.porN = true) (hu : when_ ((quiet s).td.outHeld && !(quiet s).aon.haltReq)
    (fun s => compareEnd s a b) (quiet s) = u) : exec (.compareKatDone a b) s = .next (finish s u) :=
  (runAon_run hp hu : execCompareKatDone a b s = _)

theorem compareEnd_one {a b : Bool} (h : a = false ∨ b = false) : compareEnd s a b =
    if s.tandemId == (b || !a) then { s with td := { s.td with owner := false, fenceIn := true } }
    else { s with td := { s.td with outHeld := false, owner := true, fenceOut := true, modeActive := 2 } } := by
  unfold compareEnd
  refine if_neg ?_
  rcases h with h | h <;> simp [h]

/-- The ends of the tests that a mismatch starts. -/
theorem compareKatDone_clauses (hp : s.aon.porN = true) (a b : Bool) :
    (s.td.outHeld = false ∨ s.aon.haltReq = true → exec (.compareKatDone a b) s = .next (finish s (quiet s))) ∧
    (s.td.outHeld = true → s.aon.haltReq = false →
      (∃ u, exec (.compareKatDone true true) s = .next (finish s u) ∧ u.aon.haltReq = true ∧ u.aon.haltCause = 7) ∧
      (a = false ∨ b = false → s.tandemId = (b || !a) → exec (.compareKatDone a b) s = .next (finish s
        { quiet s with td := { s.td with owner := false, fenceIn := true } })) ∧
      (a = false ∨ b = false → s.tandemId ≠ (b || !a) → exec (.compareKatDone a b) s = .next (finish s
        { quiet s with td := { s.td with outHeld := false, owner := true, fenceOut := true, modeActive := 2 } }))) := by
  refine ⟨fun h => compareKatDone_runs hp (when_neg ?_), fun h1 h2 => ?_⟩
  · rcases h with h | h
    · rw [show (quiet s).td.outHeld = false from h, Bool.false_and]
    · rw [show (quiet s).aon.haltReq = true from h]
      exact Bool.and_false _
  · have hc : ((quiet s).td.outHeld && !(quiet s).aon.haltReq) = true := by
      rw [show (quiet s).td.outHeld = true from h1, show (quiet s).aon.haltReq = false from h2]
      rfl
    refine ⟨?_, fun hab hi => ?_, fun hab hi => ?_⟩
    · have hx := compareKatDone_runs (a := true) (b := true) hp (when_pos hc)
      obtain ⟨_, _, _, _, _, _, _, _, _, hh⟩ := haltBlock_halted { quiet s with td := { s.td with outHeld := false } } 7 h2
      refine ⟨_, hx, ?_⟩
      rw [show compareEnd (quiet s) true true = haltBlock { quiet s with td := { s.td with outHeld := false } } 7 from rfl, hh]
      exact ⟨rfl, rfl⟩
    · exact compareKatDone_runs hp ((when_pos hc).trans ((compareEnd_one (s := quiet s) hab).trans (if_pos (beq_iff_eq.2 hi))))
    · exact compareKatDone_runs hp ((when_pos hc).trans ((compareEnd_one (s := quiet s) hab).trans (if_neg fun e => hi (beq_iff_eq.1 e))))

end

/-- Settles O54: a synchronised standby takes the lanes and ends what ran, a failover drains and hands over, and of a compared pair one side
goes on or the block halts. -/
theorem takeover_settled : Obligations.Takeover := by
  unfold Obligations.Takeover
  intro s src cause k a b
  refine ⟨fun he h => takeover_idle he h cause, fun he _ _ h => takeover_awake he h, fun he hs hy ht hl => takeover_taken he hs hy ht hl cause,
    bcpTandemFailover_clauses, fun he ha => (runFw_rests he ha : execBackgroundCommandDone src s = _), fun he ha hb hm => ?_,
    compareMismatch_clauses, fun hp => compareKatDone_clauses hp a b⟩
  exact ⟨backgroundDone_failover he ha hb hm, handOver_gives 1 hm⟩

end Sys2Proof.Machine
end

section
/-! SUPPORT. Alarm registers, watchdogs and uncorrectable errors (O55). -/

namespace Sys2Proof.Machine
/- Proofs are elaborated in their order, for the reason given in the first section of this kind. -/
set_option deprecated.oldSectionVars true

section
variable {s : State}

theorem almPop_runs {who : Requester} (h : opens s who 0x5008 = true) : exec (.almPop who) s =
    .next (finish s (emit { quiet s with aon := { s.aon with alarms := s.aon.alarms.drop 1 } } (.regRsp 0 false))) :=
  (write_opens h rfl : execAlmPop who s = _)

/-- ALM_CTRL.HALT halts the block with cause 6. -/
theorem almHalt_halts {who : Requester} (h : opens s who 0x5004 = true) (hh : s.aon.haltReq = false) : ∃ u, exec (.almHalt who) s = .next (finish s u) ∧
    u.aon.haltReq = true ∧ u.aon.haltCause = 6 ∧ u.keys = KeyStore.reset ∧ u.dom = Domain.reset ∧ u.otp = s.otp := by
  have hx : exec (.almHalt who) s = .next (finish s (emit (haltBlock (quiet s) 6) (.regRsp 0 false))) := (write_opens h rfl : execAlmHalt who s = _)
  obtain ⟨_, _, _, _, _, _, _, _, _, e⟩ := haltBlock_halted (quiet s) 6 hh
  rw [e] at hx
  exact ⟨_, hx, rfl, rfl, rfl, rfl, rfl⟩

/-! The watchdogs. -/

/-- Where a frame can be placed does not depend on what the last command presented. -/
theorem placeFrame_quiet (s : State) (d st : Nat) (r : Bool) (n k : Nat) : (placeFrame (quiet s) d st r n k).isSome = (placeFrame s d st r n k).isSome := by
  have hsome : ∀ (l : Option Nat) (f g : Nat → Nat × State), (l.map f).isSome = (l.map g).isSome := fun l f g => by
    cases l <;> rfl
  unfold placeFrame
  dsimp only
  rw [show drlEntry (quiet s) d = drlEntry s d from rfl]
  split
  · exact hsome _ _ _
  · rw [show stickyPort (quiet s) d st (effective (quiet s) (fld (drlEntry s d) 7 0)) = stickyPort s d st (effective s (fld (drlEntry s d) 7 0)) from rfl]
    split
    · rfl
    · exact hsome _ _ _

theorem txReady_quiet (s : State) (f : TxFrame) : txReady (quiet s) f = txReady s f := by
  unfold txReady
  dsimp only
  rw [placeFrame_quiet]
  rfl

theorem unitPending_quiet (s : State) (u : Nat) : unitPending (quiet s) u = unitPending s u := by
  have hq : frameQueued (quiet s) (u % 8) = frameQueued s (u % 8) := by
    unfold frameQueued
    rw [show txReady (quiet s) = txReady s from funext (txReady_quiet s)]
    rfl
  unfold unitPending
  rw [hq]
  rfl

theorem watchdogExpiry_runs {u : State} {unit : Nat} (he : engUp s = true) (hu : when_ ((quiet s).aon.stage == 6 && unitOk (quiet s) unit &&
    unitPending (quiet s) unit && (quiet s).hub.run == .running) (fun s =>
    askReset (occur s (mkRec 0x13 unit (unitPort unit) 0 0 0x13 0 0 0 0) none) 1 unit 0xFF 0x13 false) (quiet s) = u) :
    exec (.watchdogExpiry unit) s = .next (finish s u) :=
  (runEng_run he hu : execWatchdogExpiry unit s = _)

theorem watchdogExpiry_clauses (he : engUp s = true) (unit : Nat) :
    (s.aon.stage ≠ 6 ∨ unitOk s unit = false ∨ unitPending s unit = false ∨ s.hub.run ≠ .running →
      exec (.watchdogExpiry unit) s = .next (finish s (quiet s))) ∧
    (s.aon.stage = 6 → unitOk s unit = true → unitPending s unit = true → s.hub.run = .running → s.aon.alarms.length < 256 →
      ∃ u q r, exec (.watchdogExpiry unit) s = .next (finish s u) ∧ u.ladder.queue = s.ladder.queue ++ [q] ∧ q.level = 1 ∧ q.unit = unit ∧
        q.cause = 0x13 ∧ u.aon.alarms.getLast? = some r ∧ r.cls = 0x13 ∧ r.unit = unit ∧ u.keys = s.keys) := by
  have hst : (quiet s).aon.stage = s.aon.stage := rfl
  have hun : unitOk (quiet s) unit = unitOk s unit := rfl
  have hpe : unitPending (quiet s) unit = unitPending s unit := unitPending_quiet s unit
  have hru : (quiet s).hub.run = s.hub.run := rfl
  refine ⟨fun h => watchdogExpiry_runs he (when_neg ?_), fun h1 h2 h3 h4 hl => ?_⟩
  · rw [hst, hun, hpe, hru]
    rcases h with h | h | h | h
    · rw [beq_eq_false_iff_ne.2 h]
      rfl
    · rw [h, Bool.and_false]
      rfl
    · rw [h, Bool.and_false]
      rfl
    · rw [beq_eq_false_iff_ne.2 h, Bool.and_false]
  · have hx := watchdogExpiry_runs (s := s) (unit := unit) he (when_pos (by
      rw [hst, hun, hpe, hru, h1, h2, h3, h4]
      rfl))
    obtain ⟨c, w, al, q, g, ho, x, hla, hc, hu, -⟩ := occur_room (quiet s) (mkRec 0x13 unit (unitPort unit) 0 0 0x13 0 0 0 0) none (by simp [mkRec]) hl
    rw [ho] at hx
    exact ⟨_, _, x, hx, rfl, rfl, rfl, rfl, hla, hc, hu, rfl⟩

/-! Uncorrectable errors. -/

theorem sramRec_cls (s : State) (m : Sram) : (sramRec s m).cls = 0x18 := by
  unfold sramRec
  cases m with
  | hold d =>
    dsimp only
    split <;> rfl
  | _ => rfl

/-- The state in which an uncorrectable error has been recorded and counted. -/
def sramNoted (s : State) (m : Sram) : State := bump (occur s (sramRec s m) none) 0x80014

theorem sramUncorrectable_runs {u : State} {m : Sram} (he : engUp s = true) (hu : sramFault (sramNoted (quiet s) m) m = u) :
    exec (.sramUncorrectable m) s = .next (finish s u) :=
  (runEng_run he hu : execSramUncorrectable m s = _)

/-- With room in the queue an uncorrectable error changes alarms, counters and registers before it costs anything. -/
theorem sramNoted_room (m : Sram) (hl : s.aon.alarms.length < 256) :
    (∃ a w, sramNoted s m = { s with aon := a, win := w }) ∧
    reg (sramNoted s m) 0x80014 = toW (min ((reg s 0x80014).toNat + 1) 0xFFFFFFFF) := by
  have hc : (sramRec s m).cls ≠ 1 := by rw [sramRec_cls]; decide
  obtain ⟨c, w, al, q, g, ho, -⟩ := occur_room s (sramRec s m) none hc hl
  have hr := occur_room_reg s (sramRec s m) (o := 0x80014) hc hl (by decide)
  refine ⟨⟨{ s.aon with cnt := c, alarms := al, seq := q, gapAlarm := g }, (sramNoted s m).win, ?_⟩, ?_⟩
  · unfold sramNoted
    rw [ho]
    rfl
  · unfold sramNoted
    rw [← hr]
    exact reg_setReg_same _ _ _

theorem sramUncorrectable_clauses (he : engUp s = true) (hl : s.aon.alarms.length < 256) (n d : Nat) :
    (∃ u, exec (.sramUncorrectable .cached) s = .next (finish s u) ∧ reg u 0x80014 = toW (min ((reg s 0x80014).toNat + 1) 0xFFFFFFFF) ∧
      u.ladder = s.ladder ∧ u.keys = s.keys ∧ u.mem = s.mem ∧ u.fab = s.fab ∧ u.links = s.links) ∧
    (∃ u q, exec (.sramUncorrectable .vital) s = .next (finish s u) ∧ u.ladder.queue = s.ladder.queue ++ [q] ∧ q.level = 3 ∧ q.cause = 0x18) ∧
    (n < 16 → ∃ u q, exec (.sramUncorrectable (.keySlot n)) s = .next (finish s u) ∧ u.ladder.queue = s.ladder.queue ++ [q] ∧ q.level = 3 ∧
      u.keys = s.keys) ∧
    (16 ≤ n → (slotAt s n).gen < 0xFFFFFFFF → ∃ u, exec (.sramUncorrectable (.keySlot n)) s = .next (finish s u) ∧ u.ladder = s.ladder ∧
      slotAt u n = { slotAt s n with key := 0, gen := (slotAt s n).gen + 1, state := 0 }) ∧
    (∀ g x, tget s.red.stages d = some g → descAt s d = some x → x.phase = .running → s.upd.fuses = [] →
      ∃ u y, exec (.sramUncorrectable (.hold d)) s = .next (finish s u) ∧ tget u.red.stages d = none ∧ descAt u d = some y ∧ y.status = stPoisoned) := by
  have hq : ∀ m, (∃ a w, sramNoted (quiet s) m = { quiet s with aon := a, win := w }) ∧
    reg (sramNoted (quiet s) m) 0x80014 = toW (min ((reg s 0x80014).toNat + 1) 0xFFFFFFFF) := fun m => sramNoted_room (s := quiet s) m hl
  have run : ∀ m, exec (.sramUncorrectable m) s = .next (finish s (sramFault (sramNoted (quiet s) m) m)) := fun m => sramUncorrectable_runs he rfl
  generalize sramNoted (quiet s) = t at hq run
  have hcached := run .cached
  have hvital := run .vital
  have hkey := run (.keySlot n)
  have hhold := run (.hold d)
  refine ⟨?_, ?_, fun hn => ?_, fun hn hg => ?_, fun g x hg hx hp hf => ?_⟩
  · obtain ⟨⟨a, w, e⟩, hr⟩ := hq .cached
    generalize t .cached = v at e hr hcached
    refine ⟨v, hcached, hr, ?_⟩
    rw [e]
    exact ⟨rfl, rfl, rfl, rfl, rfl⟩
  · obtain ⟨⟨a, w, e⟩, -⟩ := hq .vital
    rw [e] at hvital
    exact ⟨_, _, hvital, rfl, rfl, rfl⟩
  · obtain ⟨⟨a, w, e⟩, -⟩ := hq (.keySlot n)
    rw [e, show sramFault { quiet s with aon := a, win := w } (.keySlot n) = askReset { quiet s with aon := a, win := w } 3 0xFF 0 0x18 false
      from if_pos hn] at hkey
    exact ⟨_, _, hkey, rfl, rfl, rfl⟩
  · obtain ⟨⟨a, w, e⟩, -⟩ := hq (.keySlot n)
    rw [e, show sramFault { quiet s with aon := a, win := w } (.keySlot n) = invalidateSlot { quiet s with aon := a, win := w } n
      from if_neg (by omega)] at hkey
    obtain ⟨hs, -⟩ := invalidateSlot_slot { quiet s with aon := a, win := w } n hn
    have hlad : (invalidateSlot { quiet s with aon := a, win := w } n).ladder = s.ladder := by
      unfold invalidateSlot
      dsimp only
      split <;> rfl
    refine ⟨_, hkey, hlad, hs.trans ?_⟩
    have hgen : (slotAt { quiet s with aon := a, win := w } n).gen ≠ genMax := Nat.ne_of_lt hg
    exact (if_neg hgen).trans rfl
  · obtain ⟨⟨a, w, e⟩, -⟩ := hq (.hold d)
    have hst : tget { quiet s with aon := a, win := w }.red.stages d = some g := hg
    rw [e, show sramFault { quiet s with aon := a, win := w } (.hold d) = failStage { quiet s with aon := a, win := w } d stPoisoned
      from if_pos (by rw [hst]; rfl)] at hhold
    obtain ⟨y, h1, -, h3, h4, -⟩ := failStage_ends (s := { quiet s with aon := a, win := w }) stPoisoned hst hx hp hf
    exact ⟨_, y, hhold, h4, h1, h3⟩

end

/-- Settles O55: a pop drops the oldest record, ALM_CTRL.HALT halts, a watchdog asks for an L1, and an uncorrectable error is counted and
costs what its array held. -/
theorem alarmActions : Obligations.AlarmActions := by
  unfold Obligations.AlarmActions
  intro s who unit n d
  refine ⟨almPop_runs, almHalt_halts, fun he => ?_⟩
  obtain ⟨h1, h2⟩ := watchdogExpiry_clauses he unit
  exact ⟨h1, h2, fun hl => sramUncorrectable_clauses he hl n d⟩

end Sys2Proof.Machine
end

section
/-! SUPPORT. Register accesses: refused, plain, and those that act (O59). -/

namespace Sys2Proof.Machine
/- Proofs are elaborated in their order, for the reason given in the first section of this kind. -/
set_option deprecated.oldSectionVars true

section
variable {s : State} {who : Requester}

/-! Accesses that are refused, and accesses that are not taken (02 R45; 14 R450 to R452). -/

/-- An access answers its requester with an error where it is closed, and is not taken where the window does not open. -/
def Guarded (off : Nat) (e : State → Host.Outcome State Fault Refusal) (s : State) (who : Requester) : Prop :=
  (closed s who off = true → e s = .next (finish s (emit (quiet s) (.regRsp 0 true)))) ∧
    (regOpen s = false → off < 0x100000 → e s = .next (quiet s))

theorem guarded_reg (off : Nat) (f : State → State) (s : State) (who : Requester) : Guarded off (runReg who off f) s who := by
  refine ⟨fun h => ?_, fun h _ => ?_⟩
  · obtain ⟨ho, hr⟩ := (Bool.and_eq_true _ _).mp h
    have hr : regOk (quiet s) who off = false := by simpa using hr
    simp only [runReg, ho, if_true, present, hr, Bool.false_eq_true, if_false]
    rfl
  · simp only [runReg, h, Bool.false_and, Bool.false_eq_true, if_false]

theorem guarded_write (off : Nat) (f : State → State) (s : State) (who : Requester) : Guarded off (runWrite who off f) s who :=
  guarded_reg off _ s who

/-- A closed access lies in the window. -/
theorem closed_inside {off : Nat} (h : closed s who off = true) : off < 0x100000 := by
  obtain ⟨h, _⟩ := (Bool.and_eq_true _ _).mp h
  simpa using ((Bool.and_eq_true _ _).mp h).2

/-- What is done from 0x10_0000 up is no access of the window. -/
theorem guarded_ite {off : Nat} {e : State → Host.Outcome State Fault Refusal} (e' : State → Host.Outcome State Fault Refusal) (h : Guarded off e s who) :
    Guarded off (fun s => if 0x100000 ≤ off then e' s else e s) s who :=
  ⟨fun hc => (if_neg (by have := closed_inside hc; omega)).trans (h.1 hc), fun ho hl => (if_neg (by omega)).trans (h.2 ho hl)⟩

theorem word_aligned (b : Nat) : 4 * b / 4 * 4 = 4 * b := by omega

theorem guarded_read (b : Nat) (s : State) (who : Requester) : Guarded (4 * b) (runRead (4 * b) who) s who := by
  unfold runRead
  rw [word_aligned]
  exact guarded_ite _ (guarded_reg _ _ s who)

theorem guarded_registerWrite (b : Nat) (w : Word) (s : State) (who : Requester) : Guarded (4 * b) (execRegisterWrite (4 * b) w who) s who := by
  unfold execRegisterWrite
  rw [word_aligned]
  exact guarded_ite _ (guarded_reg _ _ s who)

/-! Plain registers (14 R454). -/

theorem wbit_putBits (s : State) (off : Nat) (m w : Word) (i : Nat) (hi : i < 32) :
    wbit (reg (putBits s off m w) off) i = if wbit m i then wbit w i else wbit (reg s off) i := by
  rw [putBits, reg_setReg_same]
  simp only [wbit, BitVec.getLsbD_or, BitVec.getLsbD_and, BitVec.getLsbD_not, hi, decide_true, Bool.true_and]
  by_cases h : m.getLsbD i = true
  · simp [h]
  · simp [h]

theorem reg_putBits_other (s : State) (off o : Nat) (m w : Word) (h : o ≠ off) : reg (putBits s off m w) o = reg s o :=
  reg_setReg_other _ _ _ _ h

theorem plainWrite_rw (s : State) (off : Nat) (w : Word) (h : rwMask off ≠ 0) : plainWrite s off w = putBits s off (rwMask off) w := if_pos h

theorem plainWrite_w1c (s : State) (off : Nat) (w : Word) (h : rwMask off = 0) (hw : w1cMask off ≠ 0) :
    plainWrite s off w = putBits s off (w1cMask off &&& w) 0 := (if_neg (not_not.mpr h)).trans (if_pos hw)

theorem plainWrite_none (s : State) (off : Nat) (w : Word) (h : rwMask off = 0) (hw : w1cMask off = 0) : plainWrite s off w = s :=
  (if_neg (not_not.mpr h)).trans (if_neg (not_not.mpr hw))

theorem wbit_zero (i : Nat) : wbit 0 i = false := BitVec.getLsbD_zero

theorem ne_zero_of_wbit {m : Word} {i : Nat} (h : wbit m i = true) : m ≠ 0 := fun e => by
  rw [e, wbit_zero] at h
  exact absurd h Bool.false_ne_true

theorem wbit_and (m w : Word) (i : Nat) : wbit (m &&& w) i = (wbit m i && wbit w i) := BitVec.getLsbD_and ..

/-- The bits of a register after a plain write. -/
theorem plainWrite_bits (s : State) (off : Nat) (w : Word) (i : Nat) (hi : i < 32) :
    (wbit (rwMask off) i = true → wbit (reg (plainWrite s off w) off) i = wbit w i) ∧
    (rwMask off = 0 → wbit (w1cMask off) i = true → wbit (reg (plainWrite s off w) off) i = (wbit (reg s off) i && !wbit w i)) ∧
    (wbit (rwMask off) i = false → (rwMask off ≠ 0 ∨ wbit (w1cMask off) i = false) → wbit (reg (plainWrite s off w) off) i = wbit (reg s off) i) := by
  refine ⟨fun h => ?_, fun hr h => ?_, fun h hm => ?_⟩
  · rw [plainWrite_rw _ _ _ (ne_zero_of_wbit h), wbit_putBits _ _ _ _ _ hi, if_pos h]
  · rw [plainWrite_w1c _ _ _ hr (ne_zero_of_wbit h), wbit_putBits _ _ _ _ _ hi, wbit_and, h, wbit_zero]
    cases wbit w i <;> simp
  · by_cases hr : rwMask off = 0
    · have hc : wbit (w1cMask off) i = false := hm.resolve_left (not_not.mpr hr)
      by_cases hw : w1cMask off = 0
      · rw [plainWrite_none _ _ _ hr hw]
      · rw [plainWrite_w1c _ _ _ hr hw, wbit_putBits _ _ _ _ _ hi, wbit_and, hc]
        rfl
    · rw [plainWrite_rw _ _ _ hr, wbit_putBits _ _ _ _ _ hi, if_neg (ne_true_of_eq_false h)]

theorem reg_plainWrite_other (s : State) (off o : Nat) (w : Word) (h : o ≠ off) : reg (plainWrite s off w) o = reg s o := by
  unfold plainWrite
  split
  · exact reg_putBits_other _ _ _ _ _ h
  · split
    · exact reg_putBits_other _ _ _ _ _ h
    · rfl

/-! Reads that act (14 R455, R456). -/

theorem aligned_eq {off : Nat} (h : off % 4 = 0) : off / 4 * 4 = off := by omega

/-- An open access lies in the window. -/
theorem opens_inside {off : Nat} (h : opens s who off = true) : off < 0x100000 := by
  obtain ⟨h, _⟩ := (Bool.and_eq_true _ _).mp h
  simpa using ((Bool.and_eq_true _ _).mp h).2

/-- A read of a register that is no mailbox's gives its word and acts as `regRead` says. -/
theorem runRead_reads {off : Nat} (h4 : off % 4 = 0) (h : opens s who off = true) (hb : ∀ m, regBlk off ≠ .mbox m) {v : Word} {t : State}
    (hr : regRead (quiet s) who off = (v, t)) : runRead off who s = .next (finish s (emit t (.regRsp v false))) := by
  unfold runRead
  dsimp only
  rw [aligned_eq h4, if_neg (by have := opens_inside h; omega)]
  refine runReg_opens h ?_
  cases hk : regBlk off with
  | mbox m => exact absurd hk (hb m)
  | _ => simp only [hr]

theorem regRead_free {off : Nat} (h : off = 0x80010) : regRead s who off = (toW (freeN s).1, (freeN s).2) := if_pos h

/-- The captures of a read. -/
def caught (s : State) (who : Requester) (off : Nat) : State :=
  { s with cap := (captures off).foldl (fun c o => tset c (capKey s who o) (regLive s who o)) s.cap }

theorem regRead_captured {off : Nat} (h0 : off ≠ 0x80010) (hc : isCaptured off = true) : (regRead s who off).1 = tgetD s.cap (capKey s who off) 0 := by
  unfold regRead
  rw [if_neg h0]
  exact if_pos hc

theorem regRead_counter {off : Nat} (h0 : off ≠ 0x80010) (hr : isRc off = true) (hc : isCaptured off = false) :
    regRead s who off = (regLive s who off, caught (setReg s off 0) who off) := by
  unfold regRead
  rw [if_neg h0, if_neg (ne_true_of_eq_false hc), if_pos hr]
  rfl

theorem regRead_live {off : Nat} (h0 : off ≠ 0x80010) (hr : isRc off = false) (hc : isCaptured off = false) :
    regRead s who off = (regLive s who off, caught s who off) := by
  unfold regRead
  rw [if_neg h0, if_neg (ne_true_of_eq_false hc), if_neg (ne_true_of_eq_false hr)]
  rfl

theorem regBlk_of_isRc {off : Nat} (h : isRc off = true) (m : Nat) : regBlk off ≠ .mbox m := fun hb => by
  simp [isRc, hb] at h

theorem rcCounterRead_clears {off : Nat} (h4 : off % 4 = 0) (h : opens s who off = true) (hr : isRc off = true) (hc : isCaptured off = false)
    (h0 : off ≠ 0x80010) :
    ∃ u, exec (.rcCounterRead off who) s = .next (finish s u) ∧ u.out = [.regRsp (regLive (quiet s) who off) false] ∧ reg u off = 0 ∧
      (∀ o, o ≠ off → reg u o = reg s o) ∧ u.keys = s.keys ∧ u.mem = s.mem ∧ u.fab = s.fab ∧ u.parts = s.parts :=
  ⟨_, (runRead_reads h4 h (regBlk_of_isRc hr) (regRead_counter h0 hr hc) : execRcCounterRead off who s = _), rfl, reg_setReg_same (quiet s) off 0,
    fun o ho => reg_setReg_other (quiet s) off o 0 ho, rfl, rfl, rfl, rfl⟩

theorem rcCounterRead_free {off : Nat} (h : opens s who off = true) (h0 : off = 0x80010) :
    exec (.rcCounterRead off who) s = .next (finish s (emit (freeN (quiet s)).2 (.regRsp (toW (freeN (quiet s)).1) false))) := by
  subst h0
  exact (runRead_reads rfl h (fun m => nofun) (regRead_free rfl) : execRcCounterRead _ who s = _)

/-- What a fold that writes a value of each key's own leaves at a key of its list. -/
theorem tgetD_foldl_tset {α : Type} (l : List Nat) (k : Nat) (g : Nat → α) (d : α) {o : Nat} (ho : o ∈ l) :
    ∀ c : Tbl α, tgetD (l.foldl (fun c x => tset c (k + x) (g x)) c) (k + o) d = g o := by
  induction l using List.reverseRecOn with
  | nil => exact absurd ho List.not_mem_nil
  | append_singleton l x ih =>
    intro c
    rw [List.foldl_append, List.foldl_cons, List.foldl_nil]
    by_cases hx : o = x
    · rw [hx, tgetD_tset_same]
    · rw [tgetD_tset_other _ _ _ _ _ (by omega)]
      exact ih (by simpa [hx] using ho) c

/-- From 0x8_0000 up no register captures another. -/
theorem captures_high {off : Nat} (h : 0x80000 ≤ off) : captures off = [] := by
  have hb : regBlk off = .repair ∨ regBlk off = .tandem ∨ regBlk off = .unmapped := by
    unfold regBlk
    rw [if_neg (by omega), if_neg (by omega), if_neg (by omega), if_neg (by omega), if_neg (by omega), if_neg (by omega), if_neg (by omega),
      if_neg (by omega), if_neg (by omega), if_neg (by omega), if_neg (by omega), if_neg (by omega), if_neg (by omega), if_neg (by omega),
      if_neg (by omega), if_neg (by omega), if_neg (by omega), if_neg (by omega), if_neg (by omega)]
    split
    · exact .inl rfl
    · split
      · exact .inr (.inl rfl)
      · exact .inr (.inr rfl)
  obtain hb | hb | hb := hb <;> simp only [captures, hb]

/-- What is captured lies up to 16 bytes above its LO register. -/
theorem captures_near {off o : Nat} (h : o ∈ captures off) : o = off + 4 ∨ o = off + 8 ∨ o = off + 12 ∨ o = off + 16 := by
  have hn : ∀ p : Prop, [Decidable p] → o ∈ (if p then [off + 4] else []) → o = off + 4 := fun p _ h => by
    split at h
    · exact List.mem_singleton.mp h
    · exact absurd h List.not_mem_nil
  unfold captures at h
  dsimp only at h
  split at h
  · exact .inl (hn _ h)
  · exact .inl (hn _ h)
  · split at h
    · exact .inl (List.mem_singleton.mp h)
    · exact .inl (hn _ h)
  · exact .inl (hn _ h)
  · split at h
    · simpa using h
    · exact absurd h List.not_mem_nil
  · exact absurd h List.not_mem_nil

/-- What is captured never is REP_SRAM_CE. -/
theorem captures_above {off o : Nat} (h : o ∈ captures off) : o ≠ 0x80010 ∧ (o = off + 4 ∨ o = off + 8 ∨ o = off + 12 ∨ o = off + 16) := by
  have hl : off < 0x80000 := by
    refine Nat.lt_of_not_le fun hl => ?_
    rw [captures_high hl] at h
    exact absurd h List.not_mem_nil
  have hn := captures_near h
  exact ⟨by omega, hn⟩

theorem isCaptured_of_captures {off o : Nat} (h : o ∈ captures off) : isCaptured o = true := by
  obtain ⟨_, hd⟩ := captures_above h
  have hs : ∀ d, o = off + d → decide (d ≤ o) && (captures (o - d)).contains o := fun d e => by
    rw [show o - d = off by omega]
    simp only [Bool.and_eq_true, decide_eq_true_eq, List.contains_iff_mem]
    exact ⟨by omega, h⟩
  refine List.any_eq_true.mpr ?_
  obtain hd | hd | hd | hd := hd
  · exact ⟨4, by simp, hs 4 hd⟩
  · exact ⟨8, by simp, hs 8 hd⟩
  · exact ⟨12, by simp, hs 12 hd⟩
  · exact ⟨16, by simp, hs 16 hd⟩

theorem loCaptureRead_captures {off o : Nat} (h4 : off % 4 = 0) (h : opens s who off = true) (ho : o ∈ captures off) (hc : isCaptured off = false)
    (hr : isRc off = false) (hb : ∀ m, regBlk off ≠ .mbox m) :
    ∃ u, exec (.loCaptureRead off who) s = .next (finish s u) ∧ u.out = [.regRsp (regLive (quiet s) who off) false] ∧
      (regRead u who o).1 = regLive (quiet s) who o ∧ u.win = s.win := by
  have h0 : off ≠ 0x80010 := fun e => by
    rw [captures_high (by omega)] at ho
    exact absurd ho List.not_mem_nil
  refine ⟨_, (runRead_reads h4 h hb (regRead_live h0 hr hc) : execLoCaptureRead off who s = _), rfl, ?_, rfl⟩
  exact (regRead_captured (captures_above ho).1 (isCaptured_of_captures ho)).trans
    (tgetD_foldl_tset (captures off) _ (regLive (quiet s) who) 0 ho _)

end

end Sys2Proof.Machine
end

section
/-! SUPPORT. Writes of registers that act, and the lanes of a port (O59). -/

namespace Sys2Proof.Machine
/- Proofs are elaborated in their order, for the reason given in the first section of this kind. -/
set_option deprecated.oldSectionVars true

section
variable {s : State} {who : Requester}

/-! Writes of a register by its offset (14 R454). -/

/-- A write that its block takes has its effect, then its response leaves. -/
theorem registerWrite_writes {off : Nat} {w : Word} {t : State} (h4 : off % 4 = 0) (h : opens s who off = true)
    (hw : regWrite (quiet s) who off w = some t) : exec (.registerWrite off w who) s = .next (finish s (emit t (.regRsp 0 false))) := by
  have hx : execRegisterWrite off w who s = runReg who off (fun s => orRefuse s (regWrite s who off w)) s := by
    unfold execRegisterWrite
    dsimp only
    rw [aligned_eq h4]
    exact if_neg (by have := opens_inside h; omega)
  refine (hx.trans (runReg_opens h ?_) : execRegisterWrite off w who s = _)
  rw [hw]
  rfl

/-- The low bits of a word, as the mask of the field keeps them. -/
theorem toNat_and_0xF (w : Word) : (w &&& 0xF#32).toNat = fld w 3 0 := by
  rw [BitVec.toNat_and]
  simpa [fld] using Nat.and_two_pow_sub_one_eq_mod w.toNat 4

/-- FT_E2E_RETRIES takes 1 to 15 and ignores 0 (07 R255). -/
theorem rangeWrite_retries (s : State) (w : Word) : (1 ≤ fld w 3 0 → rangeWrite s 0x1A010 0xF#32 1 15 w = setReg s 0x1A010 (w &&& 0xF#32)) ∧
    (fld w 3 0 = 0 → rangeWrite s 0x1A010 0xF#32 1 15 w = s) := by
  have hlt : fld w 3 0 < 16 := Nat.mod_lt _ (by decide)
  unfold rangeWrite
  rw [toNat_and_0xF]
  exact ⟨fun h => if_pos ⟨h, by omega⟩, fun h => if_neg (by omega)⟩

/-- The block of the identification takes no write. -/
theorem plainWrite_ident (s : State) {off : Nat} (w : Word) (h : regBlk off = .ident) : plainWrite s off w = s :=
  plainWrite_none s off w (by simp only [rwMask, h]) (by simp only [w1cMask, h])

theorem regWrite_ident (s : State) (who : Requester) {off : Nat} (w : Word) (h : regBlk off = .ident) : regWrite s who off w = some s := by
  simp only [regWrite, h, plainWrite_ident s w h]

/-- What a write of three registers does, by its block (07 R255; 09 R324; 14 R450). -/
theorem registerWrite_clauses {off : Nat} (w : Word) (h4 : off % 4 = 0) (h : opens s who off = true) :
    (off = 0x1A010 →
      (1 ≤ fld w 3 0 → exec (.registerWrite off w who) s = .next (finish s (emit (setReg (quiet s) off (w &&& 0xF#32)) (.regRsp 0 false)))) ∧
      (fld w 3 0 = 0 → exec (.registerWrite off w who) s = .next (finish s (emit (quiet s) (.regRsp 0 false))))) ∧
    (off = 0x30008 → exec (.registerWrite off w who) s = .next (finish s (emit (plainWrite (quiet s) off w) (.regRsp 0 false)))) ∧
    (regBlk off = .ident → exec (.registerWrite off w who) s = .next (finish s (emit (quiet s) (.regRsp 0 false)))) := by
  refine ⟨fun e => ?_, fun e => ?_, fun e => registerWrite_writes h4 h (regWrite_ident _ _ _ e)⟩
  · subst e
    have hw : regWrite (quiet s) who 0x1A010 w = some (rangeWrite (quiet s) 0x1A010 0xF#32 1 15 w) := rfl
    exact ⟨fun h1 => registerWrite_writes h4 h (hw.trans (congrArg some ((rangeWrite_retries _ w).1 h1))),
      fun h1 => registerWrite_writes h4 h (hw.trans (congrArg some ((rangeWrite_retries _ w).2 h1)))⟩
  · subst e
    exact registerWrite_writes h4 h rfl

theorem msWearSelWrite_selects (w : Word) (h : opens s who 0x20100 = true) : exec (.msWearSelWrite w who) s =
    .next (finish s (emit { setReg (quiet s) 0x20100 (w &&& 0x3F#32) with
      mem := { s.mem with wearCap := tget s.mem.wear (fld w 5 0) } } (.regRsp 0 false))) :=
  (write_opens h rfl : execMsWearSelWrite w who s = _)

/-! The lanes of a port (06 R197, R215). -/

theorem writePort_absent {n o : Nat} {w : Word} (h : portOk s n = false) : writePort s n o w = s := if_pos (by rw [h]; rfl)

theorem writePort_ctrl {n : Nat} {w : Word} (h : portOk s n = true) : writePort s n 0 w = lpCtrl s n w :=
  if_neg (by rw [h]; exact Bool.false_ne_true)

theorem writePort_unfence {n : Nat} {w : Word} (h : portOk s n = true) : writePort s n 0xC w = unfence s n w :=
  if_neg (by rw [h]; exact Bool.false_ne_true)

/-- LANE_ALLOW written as it is stored fences and returns no lane. -/
theorem lpCtrl_same (s : State) (n : Nat) (w : Word) (h : ∀ j, j < 8 → wbit w j = wbit (reg s (lpOff n 0)) j) :
    lpCtrl s n w = setReg s (lpOff n 0) (w &&& 0xFF#32) := by
  unfold lpCtrl
  refine foldl_fixed _ _ _ fun k hk => ?_
  dsimp only
  rw [h k (List.mem_range.mp hk)]
  cases wbit (reg s (lpOff n 0)) k <;> rfl

theorem lpCtrlWrite_clauses {port : Nat} (w : Word) (hp : port < 8) (h : opens s who (lpOff port 0) = true) :
    (portOk s port = false → exec (.lpCtrlWrite port w who) s = .next (finish s (emit (quiet s) (.regRsp 0 false)))) ∧
    (portOk s port = true → exec (.lpCtrlWrite port w who) s = .next (finish s (emit (lpCtrl (quiet s) port w) (.regRsp 0 false)))) := by
  have hx : ∀ t, writePort (quiet s) port 0 w = t → exec (.lpCtrlWrite port w who) s = .next (finish s (emit t (.regRsp 0 false))) := fun t ht => by
    refine (?_ : execLpCtrlWrite port w who s = _)
    unfold execLpCtrlWrite
    rw [Nat.mod_eq_of_lt hp]
    exact write_opens h ht
  exact ⟨fun ho => hx _ (writePort_absent ho), fun ho => hx _ (writePort_ctrl ho)⟩

/-- A fold in which one element alone acts. -/
theorem foldl_range_one (f : State → Nat → State) {n k : Nat} (hk : k < n) (s : State) (h : ∀ t j, j ≠ k → f t j = t) :
    (List.range n).foldl f s = f s k := by
  induction n with
  | zero => exact absurd hk (Nat.not_lt_zero k)
  | succ n ih =>
    rw [List.range_succ, List.foldl_append, List.foldl_cons, List.foldl_nil]
    by_cases hn : k = n
    · subst hn
      rw [foldl_fixed _ _ _ fun j hj => h s j (Nat.ne_of_lt (List.mem_range.mp hj))]
    · rw [ih (by omega), h _ _ (Ne.symm hn)]

/-- Whether LP_UNFENCE returns a lane that it names. -/
def mayUnfence (s : State) (n k : Nat) : Bool :=
  let x := laneNo n k
  let c := (laneAt s x).cause
  (c == 2 || c == 3 || c == 6) && (laneAt s x).up && laneAllow s x && !heldIsolated s n

theorem wbit_single_same {k : Nat} (hk : k < 8) : wbit (BitVec.ofNat 32 (2 ^ k)) k = true := by
  rw [wbit, BitVec.getLsbD_ofNat, Nat.testBit_two_pow_self, Bool.and_true]
  exact decide_eq_true (by omega)

theorem wbit_single_other {k j : Nat} (h : j ≠ k) : wbit (BitVec.ofNat 32 (2 ^ k)) j = false := by
  rw [wbit, BitVec.getLsbD_ofNat, Nat.testBit_two_pow_of_ne (Ne.symm h), Bool.and_false]

/-- LP_UNFENCE with one lane's bit. -/
theorem unfence_single (s : State) (n : Nat) {k : Nat} (hk : k < 8) :
    unfence s n (BitVec.ofNat 32 (2 ^ k)) = if mayUnfence s n k = true then returnLane s (laneNo n k) else s := by
  unfold unfence
  refine (foldl_range_one _ hk s fun t j hj => ?_).trans ?_
  · dsimp only
    rw [wbit_single_other hj]
    rfl
  · dsimp only
    rw [wbit_single_same hk, Bool.true_and]
    rfl

theorem lpUnfence_clauses {port k : Nat} {w : Word} (hp : port < 8) (hk : k < 8) (h : opens s who (lpOff port 0xC) = true) :
    (portOk s port = false → exec (.lpUnfence port w who) s = .next (finish s (emit (quiet s) (.regRsp 0 false)))) ∧
    (portOk s port = true → w = BitVec.ofNat 32 (2 ^ k) →
      (mayUnfence s port k = true → exec (.lpUnfence port w who) s = .next (finish s (emit (returnLane (quiet s) (laneNo port k)) (.regRsp 0 false)))) ∧
      (mayUnfence s port k = false → exec (.lpUnfence port w who) s = .next (finish s (emit (quiet s) (.regRsp 0 false))))) := by
  have hx : ∀ t, writePort (quiet s) port 0xC w = t → exec (.lpUnfence port w who) s = .next (finish s (emit t (.regRsp 0 false))) := fun t ht => by
    refine (?_ : execLpUnfence port w who s = _)
    unfold execLpUnfence
    rw [Nat.mod_eq_of_lt hp]
    exact write_opens h ht
  refine ⟨fun ho => hx _ (writePort_absent ho), fun ho hw => ?_⟩
  subst hw
  have hu : writePort (quiet s) port 0xC (BitVec.ofNat 32 (2 ^ k)) = _ :=
    (writePort_unfence (s := quiet s) ho).trans (unfence_single (quiet s) port hk)
  exact ⟨fun hm => hx _ (hu.trans (if_pos hm)), fun hm => hx _ (hu.trans (if_neg (ne_true_of_eq_false hm)))⟩

theorem mayUnfence_of {n k : Nat} (hc : (laneAt s (laneNo n k)).cause = 2 ∨ (laneAt s (laneNo n k)).cause = 3 ∨ (laneAt s (laneNo n k)).cause = 6)
    (hu : (laneAt s (laneNo n k)).up = true) (ha : laneAllow s (laneNo n k) = true) (hh : heldIsolated s n = false) : mayUnfence s n k = true := by
  simp only [mayUnfence, Bool.and_eq_true, Bool.or_eq_true, beq_iff_eq, hu, ha, hh, Bool.not_false, and_true]
  exact or_assoc.mpr hc

theorem mayUnfence_other {n k : Nat} (h2 : (laneAt s (laneNo n k)).cause ≠ 2) (h3 : (laneAt s (laneNo n k)).cause ≠ 3)
    (h6 : (laneAt s (laneNo n k)).cause ≠ 6) : mayUnfence s n k = false := by
  simp only [mayUnfence, beq_eq_false_iff_ne.mpr h2, beq_eq_false_iff_ne.mpr h3, beq_eq_false_iff_ne.mpr h6, Bool.false_or, Bool.false_and]

end

/-- Every command of a register is guarded by its register. -/
theorem commands_guarded (s : State) (who : Requester) (w : Word) (a b : Nat) (acc : Access) (fa : Option Nat) (l : List Part) :
    ∀ r ∈ ([(.mbxInData a w who, mbxReg a 0), (.mbxClear a who, mbxReg a 4), (.mbxGo a who, mbxReg a 4), (.mbxOutDataRead a who, mbxReg a 0xC), (.mbxDone a who, mbxReg a 0x14),
        (.lcTransitionGo w fa who, 0x4004), (.otpRead who, 0x4028), (.otpProgram who, 0x4028), (.almHalt who, 0x5004), (.almPop who, 0x5008), (.rstPortReturn a who l, 0x5044),
        (.lpCtrlWrite a w who, lpOff (a % 8) 0), (.lpUnfence a w who, lpOff (a % 8) 0xC), (.msWearSelWrite w who, 0x20100), (.dbgRingEnable w who, 0x70018), (.tsAdjGo who, 0x60040),
        (.tdSyncStart who, 0xF000C), (.ptReset a who, ptOff (a % 16) 8), (.ptWinCommit a who, ptOff (a % 16) 0x34), (.cxDoorbell a w who, cxOff (a % 64) 0),
        (.cxCreate a who acc, cxOff (a % 64) 4), (.cxLoad a b who acc, cxOff (a % 64) 4), (.cxUnload a who acc, cxOff (a % 64) 4), (.cxQcfgWrite a w who, cxOff (a % 64) 0x34),
        (.cxOwnKidWrite a b w who, cxOff (a % 64) (0x40 + 4 * (b % 8))), (.rcCounterRead (4 * b) who, 4 * b), (.loCaptureRead (4 * b) who, 4 * b), (.registerWrite (4 * b) w who, 4 * b)] : List (Instr × Nat)),
      Guarded r.2 (exec r.1) s who := by
  simp only [List.forall_mem_cons]
  exact ⟨guarded_reg _ _ s who, guarded_reg _ _ s who, guarded_reg _ _ s who, guarded_reg _ _ s who, guarded_reg _ _ s who,
    guarded_write _ _ s who, guarded_write _ _ s who, guarded_write _ _ s who, guarded_write _ _ s who, guarded_write _ _ s who, guarded_write _ _ s who,
    guarded_write _ _ s who, guarded_write _ _ s who, guarded_write _ _ s who, guarded_write _ _ s who, guarded_write _ _ s who,
    guarded_write _ _ s who, guarded_write _ _ s who, guarded_write _ _ s who, guarded_write _ _ s who,
    guarded_write _ _ s who, guarded_write _ _ s who, guarded_write _ _ s who, guarded_write _ _ s who,
    guarded_write _ _ s who, guarded_read b s who, guarded_read b s who, guarded_registerWrite b w s who, fun _ h => nomatch h⟩

/-- Settles O59: every command of a register is an access of its offset, a plain write is bitwise, and the registers that act do so by their blocks. -/
theorem registers : Obligations.Registers := by
  unfold Obligations.Registers
  refine ⟨⟨fun s who w a b acc fa l => commands_guarded s who w a b acc fa l, plainWrite_bits, reg_plainWrite_other⟩, fun s who off port k w h4 => ⟨fun h => ?_,
    msWearSelWrite_selects w, fun hp h => ?_, fun hp hk h => ?_⟩⟩
  · exact ⟨fun hr hc h0 => rcCounterRead_clears h4 h hr hc h0, rcCounterRead_free h, fun o ho hc hr hb => loCaptureRead_captures h4 h ho hc hr hb,
      registerWrite_clauses w h4 h⟩
  · obtain ⟨hn, hy⟩ := lpCtrlWrite_clauses w hp h
    exact ⟨hn, fun ho => ⟨hy ho, lpCtrl_same s port w⟩⟩
  · obtain ⟨hn, hy⟩ := lpUnfence_clauses (w := w) hp hk h
    exact ⟨hn, fun ho hw => ⟨fun hc hu ha hh => (hy ho hw).1 (mayUnfence_of hc hu ha hh), fun h2 h3 h6 => (hy ho hw).2 (mayUnfence_other h2 h3 h6)⟩⟩

end Sys2Proof.Machine
end

section
/-! SUPPORT. What completes of itself after a command leaves the ladder of resets and the key slots, but for a halt and the end of a membership
(12 R394, R400, R468; 05 R167), and a register that counter overflows alone could set: the memory seal engine. -/

namespace Sys2Proof.Machine
/- Proofs are elaborated in their order, for the reason given in the first section of this kind. -/
set_option deprecated.oldSectionVars true

/-- DBG_RING_RECORDS where every counter counts derivations, whose overflows are then the only ones (13 R423, R425). -/
def ringOf (cnt : Tbl Counter) (win : Tbl Word) : Option Word :=
  if cnt.all (fun p => p.2.event == 0x0A1) then some (tgetD win 0x70018 (regReset 0x70018)) else none

/-- What is compared: the halt request, the resets that are asked for, the key slots, and that register. -/
abbrev RungView := Bool × List ResetReq × Tbl Slot × Option Word

/-- The view of a state. -/
def rungView (s : State) : RungView := (s.aon.haltReq, s.ladder.queue, s.keys.slots, ringOf s.dbg.cnt s.win)

/-- The resets that a halt leaves: neither over nor under way (12 R468). -/
def unended (l : List ResetReq) : List ResetReq := l.filter (fun q => !(q.done || q.step != 0))

/-- A slot of a view. -/
def RungView.slot (v : RungView) (n : Nat) : Slot := tgetD v.2.2.1 n Slot.zero

/-- A slot of a view holds a region key. -/
def RungView.keyed (v : RungView) : Prop := ∃ n, (v.slot n).state = 1 ∧ (v.slot n).typ = 6

/-- What may follow a view while a command settles: the resets stay, unless the block halts; no slot comes to life, and the types stay; without
a region key no epoch key is derived. -/
structure RungView.Leads (v w : RungView) : Prop where
  rungs : (w.2.1 = v.2.1 ∧ (v.1 = true → w.1 = true)) ∨ (v.1 = false ∧ w.1 = true ∧ w.2.1 = unended v.2.1)
  slots : ∀ n, (w.slot n).state = 1 → w.slot n = v.slot n
  types : w.1 = true ∨ ∀ n, (w.slot n).typ = (v.slot n).typ
  ring : ¬v.keyed → w.2.2.2 = v.2.2.2

@[simp] theorem RungView.Leads.refl (v : RungView) : RungView.Leads v v := ⟨.inl ⟨rfl, id⟩, fun _ _ => rfl, .inr fun _ => rfl, fun _ => rfl⟩

/-- A region key that is held now was held before. -/
theorem RungView.Leads.keyed {v w : RungView} (h : RungView.Leads v w) (hw : w.keyed) : v.keyed := by
  obtain ⟨n, hs, ht⟩ := hw
  have e := h.slots n hs
  exact ⟨n, e ▸ hs, e ▸ ht⟩

/-- A condition chooses between two states. -/
@[simp] theorem rungView_ite (c : Prop) [Decidable c] (s t : State) :
    rungView (if c then s else t) = if c then rungView s else rungView t := apply_ite _ _ _ _

theorem RungView.Leads.ite {v : RungView} {s t : State} (h : RungView.Leads v (rungView s)) (c : Prop) [Decidable c]
    (g : RungView.Leads v (rungView t)) : RungView.Leads v (rungView (if c then s else t)) := by
  split
  · exact h
  · exact g

/-- A fold of steps that keep the view keeps it. -/
theorem rungView_foldl {α : Type} (l : List α) (f : State → α → State) (h : ∀ t x, rungView (f t x) = rungView t) (s : State) :
    rungView (l.foldl f s) = rungView s :=
  List.foldlRecOn (motive := fun t => rungView t = rungView s) l f rfl fun t ht x _ => (h t x).trans ht

/-- The same of a fold that carries more than the state. -/
theorem RungView.Leads.foldl {α β : Type} {v : RungView} (p : β → State) (l : List α) (f : β → α → β)
    (h : ∀ b x, RungView.Leads v (rungView (p b)) → RungView.Leads v (rungView (p (f b x)))) (b : β)
    (hb : RungView.Leads v (rungView (p b))) : RungView.Leads v (rungView (p (l.foldl f b))) :=
  List.foldlRecOn (motive := fun b => RungView.Leads v (rungView (p b))) l f hb fun b hb x _ => h b x hb

/-! Registers, and updates of other parts of the state. -/

theorem ringOf_tset (c : Tbl Counter) (l : Tbl Word) (o : Nat) (w : Word) (h : o ≠ 0x70018) : ringOf c (tset l o w) = ringOf c l := by
  unfold ringOf
  rw [tgetD_tset_other _ _ _ _ _ (Ne.symm h)]

@[simp] theorem rungView_setReg (s : State) (o : Nat) (w : Word) (h : o ≠ 0x70018) : rungView (setReg s o w) = rungView s :=
  congrArg (fun r : Option Word => (s.aon.haltReq, s.ladder.queue, s.keys.slots, r)) (ringOf_tset _ _ _ _ h)

@[simp] theorem rungView_setBits (s : State) (o : Nat) (w : Word) (h : o ≠ 0x70018) : rungView (setBits s o w) = rungView s := rungView_setReg _ _ _ h
@[simp] theorem rungView_bumpBy (s : State) (o n : Nat) (h : o ≠ 0x70018) : rungView (bumpBy s o n) = rungView s := rungView_setReg _ _ _ h
@[simp] theorem rungView_bump (s : State) (o : Nat) (h : o ≠ 0x70018) : rungView (bump s o) = rungView s := rungView_setReg _ _ _ h

@[simp] theorem rungView_emit (s : State) (o : Output) : rungView (emit s o) = rungView s := rfl
@[simp] theorem rungView_freeN (s : State) : rungView (freeN s).2 = rungView s := rfl
@[simp] theorem rungView_reply (s : State) (src : Nat) (op : Op) (tag : Word) (st : Nat) (ps : List Word) :
    rungView (reply s src op tag st ps) = rungView s := rfl
@[simp] theorem rungView_holdAct (s : State) (h : Held) : rungView (holdAct s h) = rungView s := rfl
@[simp] theorem rungView_stopLanes (s : State) : rungView (stopLanes s) = rungView s := rfl
@[simp] theorem rungView_clearChords (s : State) : rungView (clearChords s) = rungView s := rfl
@[simp] theorem rungView_clearStreams (s : State) : rungView (clearStreams s) = rungView s := rfl
@[simp] theorem rungView_clearMem (s : State) : rungView (clearMem s) = rungView s := rfl
@[simp] theorem rungView_clearBuffers (s : State) : rungView (clearBuffers s) = rungView s := rfl
@[simp] theorem rungView_flushChords (s : State) : rungView (flushChords s) = rungView s := rfl
@[simp] theorem rungView_loseRegions (s : State) : rungView (loseRegions s) = rungView s := rfl
@[simp] theorem rungView_placeRec (s : State) (r : AlarmRec) : rungView (placeRec s r) = rungView s := rfl
@[simp] theorem rungView_foldRec (s : State) : rungView (foldRec s) = rungView s := rfl
@[simp] theorem rungView_pushTx (s : State) (f : TxFrame) : rungView (pushTx s f) = rungView s := rfl
@[simp] theorem rungView_hotMod (s : State) (k l : Nat) (f : HotLine → HotLine) : rungView (hotMod s k l f) = rungView s := rfl
@[simp] theorem rungView_pushEack (s : State) (p tc r st : Nat) (d : Bool) : rungView (pushEack s p tc r st d) = rungView s := rfl
@[simp] theorem rungView_noteFailed (s : State) (c e o d v tc st : Nat) : rungView (noteFailed s c e o d v tc st) = rungView s := rfl
@[simp] theorem rungView_emitMreq (s : State) (w : Bool) (a l : Nat) (d : Bytes) (m : List Bool) (p : Option Nat) :
    rungView (emitMreq s w a l d m p) = rungView s := rfl
@[simp] theorem rungView_setPart (s : State) (p : Nat) (r : PartRec) : rungView (setPart s p r) = rungView s := rfl
@[simp] theorem rungView_setDesc (s : State) (d : Nat) (x : Desc) : rungView (setDesc s d x) = rungView s := rfl
@[simp] theorem rungView_setRegion (s : State) (k : Nat) (r : Region) : rungView (setRegion s k r) = rungView s := rfl
@[simp] theorem rungView_useRegionKey (s : State) (n : Nat) : rungView (useRegionKey s n).2 = rungView s := rfl
@[simp] theorem rungView_setOp (s : State) (i : Nat) (o : MemOp) : rungView (setOp s i o) = rungView s := rfl
@[simp] theorem rungView_pushOp (s : State) (o : MemOp) : rungView (pushOp s o) = rungView s := rfl
@[simp] theorem rungView_setJob (s : State) (i : Nat) (j : PageJob) : rungView (setJob s i j) = rungView s := rfl
@[simp] theorem rungView_pushJob (s : State) (k p : Nat) (r : Bool) (o : Option Nat) : rungView (pushJob s k p r o) = rungView s := rfl
@[simp] theorem rungView_ccPut (s : State) (k l i : Nat) (b : Bytes) (d : Bool) : rungView (ccPut s k l i b d) = rungView s := rfl
@[simp] theorem rungView_writeBack (s : State) (k a : Nat) (b : Bytes) : rungView (writeBack s k a b) = rungView s := rfl
@[simp] theorem rungView_noteFault (s : State) (k : Nat) (r : Region) (kind a : Nat) : rungView (noteFault s k r kind a) = rungView s := rfl
@[simp] theorem rungView_wearMod (s : State) (i : Nat) (f : Wear → Wear) : rungView (wearMod s i f) = rungView s := rfl
@[simp] theorem rungView_wearLines (s : State) (r : Region) (n : Nat) : rungView (wearLines s r n) = rungView s := rfl

/-- Any other part of the state may be replaced. -/
@[simp] theorem rungView_mk (pending : List Instr) (out : List Output) (fresh draws : Nat) (size : Size) (tandemEn tandemId : Bool)
    (win cap : Tbl Word) (aon : Aon) (otp : Otp) (hub : Hub) (keys : KeyStore) (ident : Identity) (dom : Domain) (links : Links)
    (fab : Fabric) (mem : Mem) (red : Reduce) (upd : Update) (parts : Parts) (ladder : Ladder) (td : Tandem) (dbg : Debug) :
    rungView ⟨pending, out, fresh, draws, size, tandemEn, tandemId, win, cap, aon, otp, hub, keys, ident, dom, links, fab, mem, red, upd,
      parts, ladder, td, dbg⟩ = (aon.haltReq, ladder.queue, keys.slots, ringOf dbg.cnt win) := rfl

@[simp] theorem rungView_fold (s : State) : (s.aon.haltReq, s.ladder.queue, s.keys.slots, ringOf s.dbg.cnt s.win) = rungView s := rfl

/-! Counters, derivations and the mirror. -/

/-- A choice of two values that a function does not tell apart. -/
theorem apply_ite_const {α β : Type} (c : Prop) [Decidable c] (a b : α) (f : α → β) (h : f a = f b) : f (if c then a else b) = f b := by
  split
  · exact h
  · rfl

/-- A change of counters that keeps what they count keeps the register. -/
theorem ringOf_tmapV (t : Tbl Counter) (win : Tbl Word) (f : Nat → Counter → Counter) (h : ∀ n c, (f n c).event = c.event) :
    ringOf (tmapV t f) win = ringOf t win := by
  unfold ringOf tmapV
  rw [List.all_map]
  exact congrArg (fun b : Bool => if b = true then some (tgetD win 0x70018 (regReset 0x70018)) else none)
    (List.all_congr rfl fun p => by simp [h])

@[simp] theorem rungView_freeOwned (s : State) (n : Nat) : rungView (freeOwned s n) = rungView s :=
  congrArg (fun r : Option Word => (s.aon.haltReq, s.ladder.queue, s.keys.slots, r))
    (ringOf_tmapV s.dbg.cnt s.win (fun _ c => if c.owner = n then { c with owner := 31, enable := false } else c) fun _ c =>
      apply_ite_const (c.owner = n) _ _ Counter.event rfl)

/-- An overflow that sets a bit only where another event is counted. -/
theorem ringOf_overflow (s t : State) (ht : t.dbg.cnt.all (fun p => p.2.event == 0x0A1) = s.dbg.cnt.all (fun p => p.2.event == 0x0A1))
    (hw : s.dbg.cnt.all (fun p => p.2.event == 0x0A1) = true → t.win = s.win) : ringOf t.dbg.cnt t.win = ringOf s.dbg.cnt s.win := by
  unfold ringOf
  rw [ht]
  split
  next h => rw [hw h]
  next => rfl

/-- Counting another event leaves a block whose counters all count derivations as it is. -/
theorem countEv_unheard (s : State) (ev : Nat) (p : Option Nat) (n : Nat) (h : ev ≠ 0x0A1)
    (hs : s.dbg.cnt.all (fun p => p.2.event == 0x0A1) = true) : (countEv s ev p n).win = s.win := by
  have hit : ∀ x ∈ s.dbg.cnt, (x.2.enable && x.2.event == ev && (!x.2.filter || p == some x.2.part)) = false := fun x hx => by
    have he : x.2.event = 0x0A1 := by simpa using List.all_eq_true.mp hs x hx
    rw [he, beq_eq_false_iff_ne.mpr (Ne.symm h), Bool.and_false, Bool.false_and]
  unfold countEv
  split
  · rfl
  · dsimp only
    rw [foldl_fixed _ _ _ fun x hx => if_neg (ne_true_of_eq_false ((congrArg (· && _) (hit x hx)).trans (Bool.false_and _)))]

/-- Counting changes no counter's event. -/
theorem countEv_selects (s : State) (ev : Nat) (p : Option Nat) (n : Nat) :
    (countEv s ev p n).dbg.cnt.all (fun p => p.2.event == 0x0A1) = s.dbg.cnt.all (fun p => p.2.event == 0x0A1) := by
  unfold countEv
  split
  · rfl
  · extract_lets hit d t
    have ht : t.dbg.cnt.all (fun p => p.2.event == 0x0A1) = s.dbg.cnt.all (fun p => p.2.event == 0x0A1) := by
      refine List.all_map.trans (List.all_congr rfl fun x => congrArg (· == 0x0A1) ?_)
      exact apply_ite_const (hit x.2 = true) _ _ Counter.event rfl
    refine List.foldlRecOn (motive := fun u : State => u.dbg.cnt.all _ = s.dbg.cnt.all _) _ _ ht fun u hu x _ => ?_
    split
    · exact hu
    · exact hu

theorem countEv_rest (s : State) (ev : Nat) (p : Option Nat) (n : Nat) : (countEv s ev p n).aon.haltReq = s.aon.haltReq ∧
    (countEv s ev p n).ladder = s.ladder ∧ (countEv s ev p n).keys = s.keys := by
  obtain ⟨c, m, w, f, e⟩ := countEv_counts s ev p n
  rw [e]
  exact ⟨rfl, rfl, rfl⟩

@[simp] theorem rungView_countEv (s : State) (ev : Nat) (p : Option Nat) (n : Nat) (h : ev ≠ 0x0A1) : rungView (countEv s ev p n) = rungView s := by
  refine Eq.trans ?_ (congrArg (fun r : Option Word => (s.aon.haltReq, s.ladder.queue, s.keys.slots, r))
    (ringOf_overflow s (countEv s ev p n) ?_ (countEv_unheard s ev p n h)))
  · obtain ⟨ha, hl, hk⟩ := countEv_rest s ev p n
    rw [rungView, ha, hl, hk]
  · exact countEv_selects s ev p n

@[simp] theorem rungView_countAon (s : State) (j n : Nat) : rungView (countAon s j n) = rungView s := by
  unfold countAon
  split
  · rfl
  · dsimp only
    split
    · simp
    · simp

@[simp] theorem rungView_poisonEaten (s : State) (m : Nat) : rungView (poisonEaten s m) = rungView s := by simp [poisonEaten]

/-- A derivation counts; where a region key is held, nothing is said of that. -/
theorem RungView.Leads.derive {v : RungView} {s : State} (h : RungView.Leads v (rungView s)) (hv : v.keyed) (k : BitVec 256) (l : String) (c : Bytes) :
    RungView.Leads v (rungView (Machine.derive s k l c).2) := by
  obtain ⟨ha, hl, hk⟩ := countEv_rest s 0x0A1 none 1
  have hr : (Machine.derive s k l c).2.aon.haltReq = s.aon.haltReq ∧ (Machine.derive s k l c).2.ladder = s.ladder ∧ (Machine.derive s k l c).2.keys.slots = s.keys.slots := by
    unfold Machine.derive deriveFrom absorb
    obtain ⟨ha', hl', hk'⟩ := countEv_rest { countEv s 0x0A1 none 1 with keys := { (countEv s 0x0A1 none 1).keys with
      mac := (keyBytes k :: (countEv s 0x0A1 none 1).keys.mac.filter (· != keyBytes k)).take 8 } } 0x0A0 none
      (ceilDiv ((kmacX l c).length + 4) 136 + if (countEv s 0x0A1 none 1).keys.mac.contains (keyBytes k) then 0 else 2)
    exact ⟨ha'.trans ha, hl'.trans hl, (congrArg KeyStore.slots hk').trans
      (congrArg KeyStore.slots hk : (countEv s 0x0A1 none 1).keys.slots = s.keys.slots)⟩
  obtain ⟨ha, hl, hk⟩ := hr
  generalize (Machine.derive s k l c).2 = t at ha hl hk ⊢
  have e : Machine.rungView t = (s.aon.haltReq, s.ladder.queue, s.keys.slots, (Machine.rungView t).2.2.2) := by rw [Machine.rungView, ha, hl, hk]
  rw [e]
  exact ⟨h.rungs, h.slots, h.types, fun hn => absurd hv hn⟩

@[simp] theorem rungView_mirrorRec (s : State) (r : Mirror) : rungView (mirrorRec s r) = rungView s := by simp [mirrorRec]

/-! Answers of the memory seal engine. -/

@[simp] theorem rungView_keyMiss (s : State) (k g : Nat) : rungView (keyMiss s k g) = rungView s := by simp [keyMiss]

@[simp] theorem rungView_noteDirty (s : State) (p a l : Nat) : rungView (noteDirty s p a l) = rungView s := by
  unfold noteDirty
  split <;> simp

@[simp] theorem rungView_pmReq (s : State) (u : PmUse) (w : Bool) (a l : Nat) (d : Bytes) (m : List Bool) (p : Option Nat) :
    rungView (pmReq s u w a l d m p) = rungView s := by
  unfold pmReq
  cases p <;> simp

@[simp] theorem rungView_pumpCopy (n : Nat) (s : State) (e : Nat) : rungView (pumpCopy n s e) = rungView s := by
  induction n generalizing s with
  | zero => rfl
  | succ n ih =>
    unfold pumpCopy
    split <;> simp [ih]

@[simp] theorem rungView_completeDesc (s : State) (d st r : Nat) : rungView (completeDesc s d st r) = rungView s := by
  unfold completeDesc
  split
  · rfl
  · simp [apply_ite Prod.snd]

@[simp] theorem rungView_finishCopy (s : State) (e : Nat) : rungView (finishCopy s e) = rungView s := by
  unfold finishCopy
  split <;> simp

@[simp] theorem rungView_chunkDone (s : State) (e c st : Nat) : rungView (chunkDone s e c st) = rungView s := by
  unfold chunkDone
  split <;> simp

@[simp] theorem rungView_signalDone (s : State) (d st old : Nat) : rungView (signalDone s d st old) = rungView s := by
  unfold signalDone
  split
  · rfl
  · split <;> simp

@[simp] theorem rungView_setSeg (s : State) (p t i st : Nat) (d : Bytes) (po : Nat) : rungView (setSeg s p t i st d po) = rungView s := by
  unfold setSeg
  split <;> rfl

@[simp] theorem rungView_tileDone (s : State) (d t p : Nat) (w : Bool) (st : Nat) (b : Bytes) (po : Bool) :
    rungView (tileDone s d t p w st b po) = rungView s := by
  unfold tileDone
  split <;> rfl

@[simp] theorem rungView_pushRsp (s : State) (src tc str rt k b st po : Nat) (d : Bytes) (o : Option (Nat × Nat))
    (c : Option (Nat × Nat × Nat)) : rungView (pushRsp s src tc str rt k b st po d o c) = rungView s := by
  unfold pushRsp
  cases o <;> rfl

@[simp] theorem rungView_answer (s : State) (who : Who) (w : Bool) (st : Nat) (d : Bytes) (po : Nat) :
    rungView (answer s who w st d po) = rungView s := by
  cases who <;> simp [answer]

@[simp] theorem rungView_startWriteback (s : State) (k l : Nat) : rungView (startWriteback s k l) = rungView s := by
  unfold startWriteback
  split <;> simp

@[simp] theorem rungView_hotPressure (s : State) : rungView (hotPressure s) = rungView s := by
  unfold hotPressure
  simp [rungView_foldl]

@[simp] theorem rungView_hotDone (s : State) (o : MemOp) (st : Nat) (d : Bytes) (po : Nat) :
    rungView (hotDone s o st d po) = rungView s := by
  unfold hotDone
  split
  · split <;> simp
  · simp

@[simp] theorem rungView_memFinish (s : State) (i : Nat) (o : MemOp) (st : Nat) (d : Bytes) (po : Nat) :
    rungView (memFinish s i o st d po) = rungView s := by
  unfold memFinish
  split
  · simp
  · simp only [rungView_ite, rungView_holdAct, rungView_answer, rungView_noteFailed, ite_self, rungView_mk, rungView_fold]
    split <;> simp

/-! The counter cache and the lines. -/

@[simp] theorem rungView_notePoison (s : State) (r : Region) (n : Nat) : rungView (notePoison s r n) = rungView s := by
  simp [notePoison]

@[simp] theorem rungView_wearSee (s : State) (r : Region) (n : Nat) : rungView (wearSee s r n) = rungView s := by
  unfold wearSee
  extract_lets grow new t
  split
  · exact rungView_setBits _ _ _ (by decide)
  · exact rungView_wearMod _ _ _

@[simp] theorem rungView_hotWrite (s : State) (k l : Nat) (d : Bytes) : rungView (hotWrite s k l d) = rungView s := by
  simp [hotWrite]

@[simp] theorem rungView_cbPut (s : State) (k p : Nat) (b : Bytes) : rungView (cbPut s k p b) = rungView s := by simp [cbPut]

@[simp] theorem rungView_setParentCtr (s : State) (k : Nat) (r : Region) (l i v : Nat) :
    rungView (setParentCtr s k r l i v) = rungView s := by
  unfold setParentCtr
  split
  · simp
  · split <;> simp

@[simp] theorem rungView_ctagSet (s : State) (k p : Nat) (t : Bytes) : rungView (ctagSet s k p t) = rungView s := by
  unfold ctagSet
  dsimp only
  split <;> simp

@[simp] theorem rungView_doubt (s : State) (k p : Nat) (h : Bool) : rungView (fillInstall.doubt s k p h) = rungView s := by
  simp [fillInstall.doubt]

@[simp] theorem rungView_privWrite (s : State) (i : Nat) (o : MemOp) (r : Region) (cb : Bytes) (k : BitVec 256)
    (ls : List (Nat × Bytes)) (st : Nat) (old : Bytes) : rungView (privWrite s i o r cb k ls st old) = rungView s := by
  simp [privWrite]

@[simp] theorem rungView_withoutLines (s : State) (n : Nat) (o : MemOp) (bad : List Nat) (st : Nat) :
    rungView (withoutLines s n o bad st) = rungView s := by
  simp [withoutLines]

theorem RungView.Leads.staleEpoch {v : RungView} {s : State} (h : RungView.Leads v (rungView s)) (hv : v.keyed) (k : Nat) (r : Region)
    (km : BitVec 256) (e n : Nat) (ps : List ModReq) : RungView.Leads v (rungView (staleEpoch s k r km e n ps).2) := by
  unfold Machine.staleEpoch
  refine List.foldlRecOn (motive := fun a : Bool × State => RungView.Leads v (rungView a.2)) _ _ h fun a ha x _ => ?_
  split
  · exact ha
  · dsimp only
    split
    · exact ha.derive hv _ _ _
    · exact ha.derive hv _ _ _

@[simp] theorem rungView_sendParts (s : State) (i v k e : Nat) (sh : Bool) (ms : List ModReq) :
    rungView (sendParts s i v k e sh ms).1 = rungView s := by
  unfold sendParts
  refine List.foldlRecOn (motive := fun a : State × List ModReq => rungView a.1 = rungView s) _ _ rfl fun a ha x _ => ?_
  dsimp only
  split <;> simpa using ha

@[simp] theorem rungView_pumpMods (s : State) : rungView (pumpMods s) = rungView s := by
  unfold pumpMods
  dsimp only
  repeat rw [rungView_foldl]
  all_goals
    intro t x
    split <;> simp

/-! What may halt the block. -/

theorem rungView_handOver (s : State) (c : Nat) : rungView (handOver s c) = rungView s := by simp [handOver]

/-- Only the resets that are neither over nor under way stay (12 R468). -/
theorem rungView_endLevels (s : State) : rungView (endLevels s) =
    (s.aon.haltReq, unended s.ladder.queue, s.keys.slots, ringOf s.dbg.cnt s.win) := by
  unfold endLevels
  dsimp only
  rw [rungView_foldl]
  · rfl
  · intro t q
    simp [keepRec]

@[simp] theorem rungView_loseDomain (s : State) : rungView (loseDomain s) = rungView s := rfl

/-- A halt ends the resets that are over or under way, and clears the key slots (12 R400, R468). -/
theorem rungView_haltBlock (s : State) (c : Nat) (h : s.aon.haltReq = false) :
    rungView (haltBlock s c) = (true, unended s.ladder.queue, [], ringOf s.dbg.cnt s.win) := by
  have hl : rungView (endLevels (clearChords (clearKeys (stopLanes (handOver s (haltHand c)))))) =
      (s.aon.haltReq, unended s.ladder.queue, [], ringOf s.dbg.cnt s.win) :=
    (rungView_endLevels _).trans (congrArg (fun v : RungView => (v.1, unended v.2.1, ([] : Tbl Slot), v.2.2.2)) (rungView_handOver s (haltHand c)))
  simp only [haltBlock, h, Bool.false_eq_true, if_false, rungView_loseDomain, rungView_clearMem, rungView_clearBuffers,
    rungView_clearStreams]
  generalize endLevels _ = t at hl
  have hv : ∀ u : State, rungView u = rungView t → rungView { u with aon := { u.aon with haltReq := true, haltCause := c, dataStopped := true } } =
      (true, unended s.ladder.queue, [], ringOf s.dbg.cnt s.win) := fun u hu => congrArg (fun v : RungView => (true, v.2)) (hu.trans hl)
  split
  · exact hv _ rfl
  · exact hv _ rfl

@[simp] theorem RungView.Leads.haltBlock {v : RungView} {s : State} (h : RungView.Leads v (rungView s)) (c : Nat) :
    RungView.Leads v (rungView (haltBlock s c)) := by
  cases hh : s.aon.haltReq with
  | true => simpa [Machine.haltBlock, hh] using h
  | false =>
    rw [rungView_haltBlock s c hh]
    obtain ⟨⟨hq, hv⟩ | ⟨-, hw, -⟩, -, -, hr⟩ := h
    · exact ⟨.inr ⟨eq_false_of_ne_true fun e => absurd ((hv e).symm.trans hh) (by decide), rfl, congrArg unended hq⟩,
        fun n hn => absurd (show (0 : Nat) = 1 from hn) Nat.zero_ne_one, .inl rfl, hr⟩
    · exact absurd (hw.symm.trans hh) (by decide)

variable {v : RungView} {s : State}

@[simp] theorem RungView.Leads.occur (h : RungView.Leads v (rungView s)) (r : AlarmRec) (ch : Option Nat) :
    RungView.Leads v (rungView (occur s r ch)) := by
  unfold Machine.occur
  extract_lets sec old a b c ps d fold excess x y
  have hd : RungView.Leads v (rungView d) := by
    have hc : rungView c = rungView s := by simp [c, b, a, old]
    unfold d
    split
    · simpa [hc] using h
    · simpa [hc] using h
  have hx : RungView.Leads v (rungView x) := by simpa [x] using hd
  have hy : RungView.Leads v (rungView y) := by simpa [y] using hd
  split
  · exact (hx.haltBlock 1).ite _ hx
  · split
    · exact (hy.haltBlock 1).ite _ hy
    · exact hd.haltBlock 2

@[simp] theorem RungView.Leads.sealFault (h : RungView.Leads v (rungView s)) (k : Nat) (r : Region) (kind a st : Nat) :
    RungView.Leads v (rungView (sealFault s k r kind a st)) := by
  simp [Machine.sealFault, h]

@[simp] theorem RungView.Leads.exhaustRegion (h : RungView.Leads v (rungView s)) (k : Nat) (r : Region) (t : Bool) (a : Nat) :
    RungView.Leads v (rungView (exhaustRegion s k r t a)) := by
  unfold Machine.exhaustRegion
  exact RungView.Leads.occur (by simpa using h) _ _

/-! Fills of the counter cache (08 R273, R274). -/

theorem RungView.Leads.ccEvict (h : RungView.Leads v (rungView s)) (k : Nat) : RungView.Leads v (rungView (ccEvict s k)) := by
  unfold Machine.ccEvict
  extract_lets kid l i gone
  split
  · have hg : ∀ t, rungView (gone t) = rungView t := fun _ => rfl
    split
    · simp [hg, h]
    · split
      · simp [hg, h]
      · split
        · extract_lets km a tag b
          have ha : rungView a = rungView s := by simp [a, km]
          have hb : rungView b = rungView s := by
            unfold b
            split <;> simp [ha]
          split
          · exact h.exhaustRegion _ _ _ _
          · split <;> simp [hg, ha, hb, h]
        · simp [h]
        · exact h
  · exact h

theorem RungView.Leads.ccRoom (n : Nat) (h : RungView.Leads v (rungView s)) (p m vic : Nat) :
    RungView.Leads v (rungView (ccRoom n s p m vic)) := by
  induction n generalizing s with
  | zero => exact h
  | succ n ih =>
    unfold Machine.ccRoom
    dsimp only
    split
    · exact h
    · split
      · exact h
      · exact ih (h.ccEvict _)

theorem RungView.Leads.verifyChain (k : Nat) (f : Fill) (km : BitVec 256) (l : List (Nat × Nat)) (h : RungView.Leads v (rungView s)) :
    RungView.Leads v (rungView (verifyChain k f km l s).1) := by
  induction l generalizing s with
  | nil => exact h
  | cons x t ih =>
    unfold Machine.verifyChain
    split
    · exact h
    · split
      · exact ih h
      · split
        · exact h
        · exact ih (by simpa using h)
        · extract_lets d want good u
          split
          · exact h
          · split
            · exact h.sealFault _ _ _ _ _
            · exact ih (by simpa [u] using h)

theorem RungView.Leads.fillInstall (h : RungView.Leads v (rungView s)) (i : Nat) (f : Fill) (r : Region) (km : BitVec 256) (vic : Nat) :
    RungView.Leads v (rungView (fillInstall s i f r km vic).1) := by
  unfold Machine.fillInstall
  extract_lets n t m u j tags had w x bad y z
  have ht : RungView.Leads v (rungView t) := h.ccRoom 32 r.part n vic
  have hx : RungView.Leads v (rungView x) := by simpa [x, w, u] using ht
  have hz : RungView.Leads v (rungView z.1) := by
    unfold z y
    split
    · exact hx
    · exact hx.verifyChain f.kid f km f.items.reverse
  split
  · exact ht
  · split
    · exact hz
    · simpa using hz

theorem RungView.Leads.ensureFill (h : RungView.Leads v (rungView s)) (k : Nat) (r : Region) (p : Nat) :
    RungView.Leads v (rungView (ensureFill s k r p)) := by
  unfold Machine.ensureFill
  split
  · exact h
  · extract_lets items j dark reads held reads' n f old new t
    have ht : RungView.Leads v (rungView t) := h
    split
    · exact ht.fillInstall _ _ _ _ _
    · split
      · simpa using ht
      · exact ht

/-! Operations and page jobs (08 R269 to R286). -/

theorem RungView.Leads.applyOp (h : RungView.Leads v (rungView s)) (o : MemOp) (r : Region) (cb : Bytes) (g : Nat → Opened) :
    RungView.Leads v (rungView (applyOp s o r cb g).1) := by
  unfold Machine.applyOp
  refine RungView.Leads.foldl Prod.fst _ _ (fun a i ha => ?_) _ h
  dsimp only
  split
  · simp [ha]
  · split
    · exact ha
    · split
      · exact ha
      · exact ha
      · split <;> simp [ha]

theorem RungView.Leads.privAdvance (h : RungView.Leads v (rungView s)) (i : Nat) (o : MemOp) (r : Region) (cb : Bytes) (k : BitVec 256) :
    RungView.Leads v (rungView (privAdvance s i o r cb k)) := by
  unfold Machine.privAdvance
  split
  · simpa using h
  · split
    · extract_lets a
      have ha : RungView.Leads v (rungView a.1) := h.applyOp _ _ _ _
      simpa using ha
    · extract_lets a
      have ha : RungView.Leads v (rungView a.1) := by
        refine RungView.Leads.foldl Prod.fst _ _ (fun a i ha => ?_) _ h
        dsimp only
        split
        · exact ha
        · split
          · exact ha
          · exact ha
          · split
            · simpa using ha
            · exact ha
            · exact ha.sealFault _ _ _ _ _
      simpa using ha

/-- A slot found for a region's generation holds a region key. -/
theorem keyed_of_regionSlot {k g n : Nat} {r : Region} (h : regionSlot s k g r = some n) : (rungView s).keyed := by
  unfold regionSlot at h
  split at h
  · exact nomatch h
  next m g' _ =>
    dsimp only at h
    split at h
    next hc => exact ⟨m, hc.1, hc.2.1⟩
    next => exact nomatch h

theorem RungView.Leads.sharedAdvance (h : RungView.Leads v (rungView s)) (hv : v.keyed) (i : Nat) (o : MemOp) (r : Region) (k : BitVec 256) :
    RungView.Leads v (rungView (sharedAdvance s i o r k)) := by
  have hk := h.derive hv k "epoch" (leBytes 4 o.epoch)
  unfold Machine.sharedAdvance
  split
  · simpa using h
  · extract_lets d bank lines t a
    split
    · simpa [t, d] using hk
    · have ha : RungView.Leads v (rungView a.1) := by
        refine RungView.Leads.foldl Prod.fst _ _ (fun a i ha => ?_) _ hk
        dsimp only
        split
        · simpa using ha
        · exact ha
        · have hs := ha.staleEpoch hv o.kid r k o.epoch (o.line + i) o.parts
          split
          · simpa using hs
          · exact hs.sealFault _ _ _ _ _
      simpa using ha

theorem RungView.Leads.sharedStart (h : RungView.Leads v (rungView s)) (i : Nat) (o : MemOp) (r : Region) :
    RungView.Leads v (rungView (sharedStart s i o r)) := by
  unfold Machine.sharedStart
  split
  · simpa using h
  next n hn =>
    extract_lets k bank ns groups tags ps o'
    have hk : RungView.Leads v (rungView k.2) := h
    exact (hk.sharedAdvance (h.keyed (keyed_of_regionSlot hn)) _ _ _ _).ite _ hk

theorem RungView.Leads.privStart (h : RungView.Leads v (rungView s)) (i : Nat) (o : MemOp) (r : Region) :
    RungView.Leads v (rungView (privStart s i o r)) := by
  unfold Machine.privStart
  extract_lets page need
  refine RungView.Leads.ite (h.privAdvance _ _ _ _ _) _ (RungView.Leads.ite ?_ _ (RungView.Leads.ite ?_ _ (RungView.Leads.ite h _ ?_)))
  · simpa using h
  · simpa using h.applyOp _ _ _ _
  · split
    · exact h.ensureFill _ _ _
    · refine RungView.Leads.ite ?_ _ ?_
      · simpa using h
      · split
        · simpa using h
        · extract_lets k t st minor part spill u fetch outs whole tags ps o'
          have ht : RungView.Leads v (rungView t) := h
          have hu : rungView u = rungView t :=
            (rungView_foldl _ _ (fun t x => rungView_hotWrite t _ _ _) _).trans (rungView_bump _ _ (by decide))
          refine RungView.Leads.ite ?_ _ (RungView.Leads.ite ?_ _ (RungView.Leads.ite ?_ _ (RungView.Leads.ite ?_ _ ?_)))
          · simpa using ht.exhaustRegion _ _ _ _
          · simpa [hu] using ht
          · simpa using ht
          · exact ht.privAdvance _ _ _ _ _
          · simpa using ht

theorem RungView.Leads.jobAdvance (h : RungView.Leads v (rungView s)) (i : Nat) (j : PageJob) (r : Region) (a b : BitVec 256) :
    RungView.Leads v (rungView (jobAdvance s i j r a b)) := by
  unfold Machine.jobAdvance
  extract_lets op mem t ns sick c bad old' get d lines cb' e f g w
  clear_value op
  have ht : RungView.Leads v (rungView t) := h
  split
  · split
    · simpa using ht
    · rw [rungView_foldl _ _ (fun t x => rungView_memFinish t _ _ _ _ _)]
      exact ht
  · split
    · simpa using h
    · have hc : RungView.Leads v (rungView c.1) := by
        refine RungView.Leads.foldl Prod.fst _ _ (fun a n ha => ?_) _ h
        split
        · exact ha
        · exact ha
        · split
          · exact ha
          · exact ha
          · exact ha.sealFault _ _ _ _ _
      have hd : RungView.Leads v (rungView d.1) := by
        unfold d
        split
        · exact hc.applyOp _ _ _ _
        · exact hc
      have hg : RungView.Leads v (rungView g) := by simpa [g, f, e] using hd
      rw [rungView_setJob]
      unfold w
      split
      · simpa using hg
      · exact hg

theorem RungView.Leads.jobTry (h : RungView.Leads v (rungView s)) (i : Nat) (j : PageJob) : RungView.Leads v (rungView (jobTry s i j)) := by
  unfold Machine.jobTry
  split
  · extract_lets gNew go at_ mem ns ps j' t
    split
    · split
      · split
        · exact h.jobAdvance _ _ _ _ _
        · simpa using h
      · exact h
    · split
      · exact h
      · split
        · exact h
        · split
          · simpa using h
          · have ht : RungView.Leads v (rungView t) := h
            exact (ht.jobAdvance _ _ _ _ _).ite _ ht
  · exact h.ensureFill _ _ _
  · exact h

theorem RungView.Leads.memTry (h : RungView.Leads v (rungView s)) (i : Nat) : RungView.Leads v (rungView (memTry s i)) := by
  have ended : ∀ o st, RungView.Leads v (rungView (memFinish s i o st [] 0)) := fun o st => by simpa using h
  have miss : ∀ k g, RungView.Leads v (rungView (keyMiss s k g)) := fun k g => by simpa using h
  unfold Machine.memTry
  split
  · exact h
  · split
    · exact ended _ _
    · split
      · exact (ended _ _).ite _ ((ended _ _).ite _ ((ended _ _).ite _ (h.ite _ ((h.sharedStart _ _ _).ite _ (h.privStart _ _ _)))))
      · refine h.ite _ ((ended _ _).ite _ ((ended _ _).ite _ ((ended _ _).ite _ (RungView.Leads.ite ?_ _ ?_))))
        · split
          next n hn => exact h.sharedAdvance (h.keyed (keyed_of_regionSlot hn)) _ _ _ _
          next => exact miss _ _
        · split
          · exact h.ensureFill _ _ _
          · split
            · exact h.privAdvance _ _ _ _ _
            · exact miss _ _
      · exact h

theorem RungView.Leads.loseHot (h : RungView.Leads v (rungView s)) : RungView.Leads v (rungView (loseHot s)) := by
  unfold Machine.loseHot
  refine RungView.Leads.foldl id _ _ (fun t x ht => ?_) _ h
  dsimp only [id]
  split
  · exact ht
  · split
    · exact RungView.Leads.ensureFill ht _ _ _
    · simpa using ht

theorem RungView.Leads.memPass (h : RungView.Leads v (rungView s)) : RungView.Leads v (rungView (memPass s)) := by
  unfold Machine.memPass
  extract_lets t u
  have ht : RungView.Leads v (rungView t) := h.loseHot
  have hu : RungView.Leads v (rungView u) := RungView.Leads.foldl id _ _ (fun _ _ h => RungView.Leads.memTry h _) _ ht
  refine RungView.Leads.foldl id _ _ (fun t x ht => ?_) _ hu
  dsimp only [id]
  split
  · exact RungView.Leads.jobTry ht _ _
  · exact ht

/-- The memory seal engine leaves the resets, unless a fault that it finds halts the block, and brings no slot to life. -/
theorem RungView.Leads.pumpMem (h : RungView.Leads v (rungView s)) : RungView.Leads v (rungView (pumpMem s)) := by
  rw [Machine.pumpMem, rungView_pumpMods]
  exact h.memPass.memPass

end Sys2Proof.Machine
end

section
/-! SUPPORT. What completes of itself after a command leaves the ladder of resets and the key slots, but for a halt and the end of a membership:
the units, the frames and the rest of what settles. -/

namespace Sys2Proof.Machine
/- Proofs are elaborated in their order, for the reason given in the first section of this kind. -/
set_option deprecated.oldSectionVars true

/-! Units that stop their work. -/

@[simp] theorem rungView_pmDrop (s : State) (f : PmUse → Bool) : rungView (pmDrop s f) = rungView s := rfl
@[simp] theorem rungView_dropStage (s : State) (d : Nat) (g : Stage) : rungView (dropStage s d g) = rungView s := rfl
@[simp] theorem rungView_setPgd (s : State) (p g : Nat) (b : Bytes) : rungView (setPgd s p g b) = rungView s := rfl
@[simp] theorem rungView_unfuseUpd (s : State) (d : Nat) : rungView (unfuseUpd s d) = rungView s := rfl
@[simp] theorem rungView_dropTx (s : State) (d : Nat) : rungView (dropTx s d) = rungView s := rfl
@[simp] theorem rungView_squashCopies (s : State) (d : Nat) : rungView (squashCopies s d) = rungView s := rfl
@[simp] theorem rungView_setCtx (s : State) (c : Nat) (x : Ctx) : rungView (setCtx s c x) = rungView s := rfl
@[simp] theorem rungView_setTag (s : State) (t : Nat) (e : TagEnt) : rungView (setTag s t e) = rungView s := rfl
@[simp] theorem rungView_egMod (s : State) (k : Nat) (f : Egress → Egress) : rungView (egMod s k f) = rungView s := rfl
@[simp] theorem rungView_setMb (s : State) (n : Nat) (m : Mbox) : rungView (setMb s n m) = rungView s := rfl
@[simp] theorem rungView_homeSet (s : State) (i : Nat) (o : HomeOp) : rungView (homeSet s i o) = rungView s := rfl

@[simp] theorem rungView_pushReduce (s : State) (d p k : Nat) (b : Bytes) (o : Origin) : rungView (pushReduce s d p k b o) = rungView s := rfl

@[simp] theorem rungView_sendAborts (s : State) (g : Stage) (st v : Nat) (e : Option (Nat × Bool)) : rungView (sendAborts s g st v e) = rungView s := by
  have hf := rungView_foldl g.inputs (fun s i => if e = some (i.vertex, true) then s else
    pushReduce s i.vertex g.part (g.inSub + 0x80) (abortRec g.xfer st v) .own) (fun t i => by split <;> simp) s
  unfold sendAborts
  dsimp only
  split
  · exact hf
  · exact hf

@[simp] theorem rungView_queueCadence (s : State) (b : Bytes) : rungView (queueCadence s b) = rungView s := by
  simp [queueCadence]

@[simp] theorem rungView_pushCadence (s : State) (p g st f n m : Nat) : rungView (pushCadence s p g st f n m) = rungView s := rungView_queueCadence _ _

@[simp] theorem rungView_tearUpdate (s : State) (d st : Nat) : rungView (tearUpdate s d st) = rungView s := by
  unfold tearUpdate
  split
  · rfl
  · extract_lets b c t e f g
    have ht : rungView t = rungView s := by
      unfold t
      split
      · exact (rungView_setBits _ _ _ (by decide)).trans rfl
      · rfl
    simp only [rungView_mk, g, f, e]
    exact (rungView_pushCadence _ _ _ _ _ _ _).trans ht

@[simp] theorem rungView_failUpdate (s : State) (d st : Nat) : rungView (failUpdate s d st) = rungView s := by simp [failUpdate]

@[simp] theorem rungView_endFused (s : State) (d st : Nat) : rungView (endFused s d st) = rungView s := by
  unfold endFused
  split
  · rfl
  · split
    · exact rungView_failUpdate _ _ _
    · rfl

@[simp] theorem rungView_abortStage (s : State) (d st v o : Nat) (e : Option (Nat × Bool)) : rungView (abortStage s d st v o e) = rungView s := by
  unfold abortStage
  split
  · rfl
  · simp

@[simp] theorem rungView_failStage (s : State) (d st : Nat) : rungView (failStage s d st) = rungView s := by simp [failStage]

@[simp] theorem rungView_squashUnits (s : State) (d st : Nat) : rungView (squashUnits s d st) = rungView s := by
  simp [squashUnits]

@[simp] theorem rungView_squashRunning (s : State) (c : Nat) : rungView (squashRunning s c) = rungView s := by
  refine rungView_foldl _ _ (fun t x => ?_) s
  split
  · simp
  · rfl

theorem cxOff_ne_ring (n : Nat) : cxOff n 0x14 ≠ 0x70018 := by
  unfold cxOff
  omega

theorem ptOff_ne_ring (p : Nat) : ptOff p 0x40 ≠ 0x70018 := by
  unfold ptOff
  omega

@[simp] theorem rungView_faultCtx (s : State) (c st q i : Nat) : rungView (faultCtx s c st q i) = rungView s := by
  unfold faultCtx
  split
  · rfl
  · split
    · rfl
    · extract_lets a b e
      have hb : rungView b = rungView s := by
        unfold b
        split
        · exact rungView_setBits _ _ _ (cxOff_ne_ring _)
        · rfl
      exact (rungView_squashRunning _ _).trans ((rungView_setBits _ _ _ (ptOff_ne_ring _)).trans hb)

@[simp] theorem rungView_settleFaults (s : State) : rungView (settleFaults s) = rungView s := by
  refine rungView_foldl _ _ (fun t d => ?_) _
  split
  · simp
  · rfl

/-! Homes, fences, publishes, updates and replies. -/

@[simp] theorem rungView_issueHome (s : State) (i : Nat) (o : HomeOp) : rungView (issueHome s i o) = rungView s := by
  simp [issueHome, readArrival]

@[simp] theorem rungView_pumpHomes (s : State) : rungView (pumpHomes s) = rungView s := by
  unfold pumpHomes
  refine List.foldlRecOn (motive := fun a : State × List HomeOp => rungView a.1 = rungView s) _ _ rfl fun a ha x _ => ?_
  split
  · exact (rungView_issueHome _ _ _).trans ha
  · exact ha

@[simp] theorem rungView_endHome (s : State) (i : Nat) (o : HomeOp) (st : Nat) (b : Bytes) (p : Nat) : rungView (endHome s i o st b p) = rungView s := by
  unfold endHome
  extract_lets a b own c
  have hc : rungView c = rungView s := by
    unfold c
    split
    · rfl
    · rfl
  simp [hc]

@[simp] theorem rungView_settleHomes (s : State) : rungView (settleHomes s) = rungView s := by
  refine rungView_foldl _ _ (fun t x => ?_) s
  dsimp only
  split
  · simp
  · simp

@[simp] theorem rungView_endDrain (s : State) (x : Drain) : rungView (endDrain s x) = rungView s := by
  unfold endDrain
  dsimp only
  split
  · simp
  · simp

@[simp] theorem rungView_settleDrains (s : State) : rungView (settleDrains s) = rungView s :=
  rungView_foldl _ _ (fun t x => rungView_endDrain t x) s

@[simp] theorem rungView_endFence (s : State) (d : Nat) : rungView (endFence s d) = rungView s := by
  simp [endFence]

@[simp] theorem rungView_settleFences (s : State) : rungView (settleFences s) = rungView s := by
  refine rungView_foldl _ _ (fun t d => ?_) s
  split
  · rfl
  · simp

@[simp] theorem rungView_settleUpdates (s : State) : rungView (settleUpdates s) = rungView s := by
  refine rungView_foldl _ _ (fun t p => ?_) s
  split
  · simp
  · rfl

@[simp] theorem rungView_noteSaved (s : State) (n : Nat) : rungView (noteSaved s n) = rungView s := by
  unfold noteSaved
  dsimp only
  split
  · split
    · rfl
    · rfl
  · rfl

@[simp] theorem rungView_settleStream (s : State) : rungView (settleStream s) = rungView s := by
  unfold settleStream
  dsimp only
  split
  · rfl
  · split
    · exact (rungView_foldl _ _ (fun t x => rungView_pushTx t _) _).trans rfl
    · split
      · rfl
      · simp

/-! Frames that move: what gives up may end an operation of the memory seal engine, whose failures may halt the block. -/

section
variable {v : RungView} {s : State}

@[simp] theorem RungView.Leads.writeLost (h : RungView.Leads v (rungView s)) (k : Nat) (r : Region) (a st : Nat) :
    RungView.Leads v (rungView (writeLost s k r a st)) := h.occur _ _

theorem RungView.Leads.losses (l : List ModReq) (k : Nat) (r : Region) (h : RungView.Leads v (rungView s)) :
    RungView.Leads v (rungView (l.foldl (fun s m => Machine.writeLost s k r m.addr m.status) s)) :=
  RungView.Leads.foldl id _ _ (fun _ _ h => h.writeLost _ _ _ _) _ h

theorem RungView.Leads.loseLines (h : RungView.Leads v (rungView s)) (k : Nat) (r : Region) (p : Nat) (ps : List ModReq) (l : List Nat) :
    RungView.Leads v (rungView (loseLines s k r p ps l)) := by
  unfold Machine.loseLines
  extract_lets fails hit lost t
  have ht : RungView.Leads v (rungView t) := h.losses _ _ _
  split
  · exact ht
  · split
    · exact ht
    · simpa using ht

theorem RungView.Leads.opWritten (h : RungView.Leads v (rungView s)) (i : Nat) (o : MemOp) : RungView.Leads v (rungView (opWritten s i o)) := by
  unfold Machine.opWritten
  split
  · simpa using h
  · dsimp only
    rw [rungView_memFinish]
    split
    · exact h.losses _ _ _
    · exact h.loseLines _ _ _ _ _

theorem RungView.Leads.moduleDone (h : RungView.Leads v (rungView s)) (i p st po : Nat) (b : Bytes) :
    RungView.Leads v (rungView (moduleDone s i p st po b)) := by
  unfold Machine.moduleDone
  split
  · extract_lets o t
    have ht : RungView.Leads v (rungView t) := h
    split
    · exact (ht.opWritten _ _).pumpMem
    · exact ht.pumpMem
  · split
    · simpa using h
    · split
      · exact RungView.Leads.pumpMem h
      · split
        · extract_lets m t
          have ht : RungView.Leads v (rungView t) := h
          clear_value t
          refine RungView.Leads.pumpMem (ht.ite _ ?_)
          split
          · exact ht.writeLost _ _ _ _
          · exact ht
        · exact h

theorem RungView.Leads.frameEnd (h : RungView.Leads v (rungView s)) (o : Origin) (st : Nat) (b : Bytes) (po : Nat) :
    RungView.Leads v (rungView (frameEnd s o st b po)) := by
  unfold Machine.frameEnd
  split
  · simpa using h
  · simpa using h
  · simpa using h
  · split
    · exact h
    · dsimp only
      split
      · exact h
      · simpa using h
  · exact h.moduleDone _ _ _ _ _
  · dsimp only
    split
    · simpa using h
    · split
      · simpa using h
      · exact h
  all_goals exact h

theorem RungView.Leads.retire (h : RungView.Leads v (rungView s)) (t st : Nat) (b : Bytes) (po : Nat) :
    RungView.Leads v (rungView (retire s t st b po)) := by
  unfold Machine.retire
  split
  · exact h
  · extract_lets a b c d e f
    have hc : rungView c = rungView s := rungView_mirrorRec _ _
    have hd : rungView d = rungView s := by simp [d, hc]
    have hf : rungView f = rungView s := by
      unfold f
      split
      · exact hd
      · exact hd
    exact RungView.Leads.frameEnd (hf.symm ▸ h) _ _ _ _

theorem RungView.Leads.giveUp (h : RungView.Leads v (rungView s)) (t : Nat) : RungView.Leads v (rungView (giveUp s t)) := by
  unfold Machine.giveUp
  split
  · exact h
  · extract_lets a b
    have hb : RungView.Leads v (rungView b) := RungView.Leads.retire (by simpa [a] using h) _ _ _ _
    split
    · exact hb
    · exact hb

theorem RungView.Leads.askResend (h : RungView.Leads v (rungView s)) (t : Nat) : RungView.Leads v (rungView (askResend s t)) := by
  unfold Machine.askResend
  split
  · exact h
  · split
    · exact h.giveUp t
    · split
      · exact h
      · dsimp only
        split
        · exact h
        · simpa using h

theorem RungView.Leads.settleMoves (h : RungView.Leads v (rungView s)) : RungView.Leads v (rungView (settleMoves s)) := by
  refine RungView.Leads.foldl id _ _ (fun t x ht => ?_) _ h
  dsimp only [id]
  split
  · exact ht
  · split
    · exact RungView.Leads.askResend ht _
    · split
      · exact ht
      · exact ht

/-! The end of a membership. -/

theorem raiseGen_dead (k : Slot) : (raiseGen k 0).state ≠ 1 ∧ (raiseGen k 0).typ = k.typ := by
  unfold raiseGen
  split
  · exact ⟨(by decide : (3 : Nat) ≠ 1), rfl⟩
  · exact ⟨(by decide : (0 : Nat) ≠ 1), rfl⟩

theorem orphanOf_dead (k : Slot) : (orphanOf k).state ≠ 1 ∧ (orphanOf k).typ = k.typ := by
  unfold orphanOf
  split
  · exact ⟨(by decide : (3 : Nat) ≠ 1), rfl⟩
  · exact ⟨(by decide : (2 : Nat) ≠ 1), rfl⟩

/-- Marking a depth leaves a slot as it is, or dead of its type. -/
theorem markDepth_slot (t : Tbl Slot) (d n : Nat) : tgetD (markDepth t d) n Slot.zero = tgetD t n Slot.zero ∨
    ((tgetD (markDepth t d) n Slot.zero).state ≠ 1 ∧ (tgetD (markDepth t d) n Slot.zero).typ = (tgetD t n Slot.zero).typ) := by
  unfold markDepth tgetD
  rw [tget_tmapV]
  cases tget t n with
  | none => exact .inl rfl
  | some k =>
    rw [Option.map_some, Option.getD_some, Option.getD_some]
    split
    · exact .inr (orphanOf_dead k)
    · exact .inl rfl

theorem markFrom_slot (n : Nat) : ∀ (fuel d : Nat) (t : Tbl Slot), tgetD (markFrom fuel d t) n Slot.zero = tgetD t n Slot.zero ∨
    ((tgetD (markFrom fuel d t) n Slot.zero).state ≠ 1 ∧ (tgetD (markFrom fuel d t) n Slot.zero).typ = (tgetD t n Slot.zero).typ)
  | 0, _, _ => .inl rfl
  | fuel + 1, d, t => by
    obtain h | ⟨hs, ht⟩ := markDepth_slot t d n
    · obtain g | ⟨gs, gt⟩ := markFrom_slot n fuel (d + 1) (markDepth t d)
      · exact .inl (g.trans h)
      · exact .inr ⟨gs, gt.trans (congrArg Slot.typ h)⟩
    · obtain g | ⟨gs, gt⟩ := markFrom_slot n fuel (d + 1) (markDepth t d)
      · exact .inr ⟨fun e => hs ((congrArg Slot.state g).symm.trans e), (congrArg Slot.typ g).trans ht⟩
      · exact .inr ⟨gs, gt.trans ht⟩

/-- An invalidation leaves a slot as it is, or dead of its type. -/
theorem invalidateSlot_same_or_dead (s : State) (n m : Nat) : slotAt (invalidateSlot s n) m = slotAt s m ∨
    ((slotAt (invalidateSlot s n) m).state ≠ 1 ∧ (slotAt (invalidateSlot s n) m).typ = (slotAt s m).typ) := by
  unfold invalidateSlot
  dsimp only
  split
  · exact .inl rfl
  · have hset : tgetD (tset s.keys.slots n (raiseGen (slotAt s n) 0)) m Slot.zero = slotAt s m ∨
        ((tgetD (tset s.keys.slots n (raiseGen (slotAt s n) 0)) m Slot.zero).state ≠ 1 ∧
          (tgetD (tset s.keys.slots n (raiseGen (slotAt s n) 0)) m Slot.zero).typ = (slotAt s m).typ) := by
      by_cases e : m = n
      · subst e
        rw [tgetD_tset_same]
        exact .inr (raiseGen_dead _)
      · exact .inl (tgetD_tset_other _ _ _ _ _ e)
    obtain g | ⟨gs, gt⟩ := markFrom_slot m (7 - (slotAt s n).depth) ((slotAt s n).depth + 1) (tset s.keys.slots n (raiseGen (slotAt s n) 0))
    · obtain h | ⟨hs, ht⟩ := hset
      · exact .inl (g.trans h)
      · exact .inr ⟨fun e => hs ((congrArg Slot.state g).symm.trans e), (congrArg Slot.typ g).trans ht⟩
    · obtain h | ⟨hs, ht⟩ := hset
      · exact .inr ⟨gs, gt.trans (congrArg Slot.typ h)⟩
      · exact .inr ⟨gs, gt.trans ht⟩

theorem rungView_invalidateSlot (s : State) (n : Nat) : rungView (invalidateSlot s n) =
    (s.aon.haltReq, s.ladder.queue, (invalidateSlot s n).keys.slots, ringOf s.dbg.cnt s.win) := by
  unfold invalidateSlot
  dsimp only
  split
  · rfl
  · rfl

theorem RungView.Leads.invalidateSlot (h : RungView.Leads v (rungView s)) (n : Nat) : RungView.Leads v (rungView (invalidateSlot s n)) := by
  have hs := invalidateSlot_same_or_dead s n
  rw [rungView_invalidateSlot]
  generalize Machine.invalidateSlot s n = t at hs ⊢
  refine ⟨h.rungs, fun m hm => ?_, h.types.imp_right fun ht m => ?_, h.ring⟩
  · obtain e | ⟨hd, -⟩ := hs m
    · exact (show slotAt t m = slotAt s m from e).trans (h.slots m ((congrArg Slot.state e).symm.trans hm))
    · exact absurd hm hd
  · obtain e | ⟨-, e⟩ := hs m
    · exact (congrArg Slot.typ e).trans (ht m)
    · exact e.trans (ht m)

theorem rungView_failDomainCmds (s : State) : rungView (failDomainCmds s) = rungView s := by
  refine rungView_foldl _ _ (fun t b => ?_) s
  unfold failWaiting
  split
  · exact rungView_reply _ _ _ _ _ _
  · rfl

theorem RungView.Leads.endMembership (h : RungView.Leads v (rungView s)) : RungView.Leads v (rungView (endMembership s)) := by
  unfold Machine.endMembership
  split
  · exact h
  · have h0 : RungView.Leads v (rungView (failDomainCmds s)) := (rungView_failDomainCmds s).symm ▸ h
    refine RungView.Leads.pumpMem ?_
    rw [rungView_loseRegions, rungView_freeOwned, rungView_loseDomain, rungView_clearStreams, rungView_clearChords]
    exact (((h0.invalidateSlot 3).invalidateSlot 4).invalidateSlot 5).invalidateSlot 6

theorem RungView.Leads.settleLeave (h : RungView.Leads v (rungView s)) : RungView.Leads v (rungView (settleLeave s)) :=
  RungView.Leads.ite h.endMembership _ h

/-! What follows a command. -/

theorem RungView.Leads.settle (h : RungView.Leads v (rungView s)) : RungView.Leads v (rungView (settle s)) := by
  have hf : RungView.Leads v (rungView (settleFaults s)) := by
    rw [rungView_settleFaults]
    exact h
  refine RungView.Leads.settleLeave ?_
  rw [rungView_settleStream, rungView_settleFaults, rungView_settleUpdates, rungView_settleFences, rungView_settleDrains, rungView_settleHomes]
  exact hf.settleMoves

theorem rungView_mirrorSetup (s t : State) : rungView (mirrorSetup s t) = rungView t := by
  unfold mirrorSetup
  split
  · exact rungView_foldl _ _ (fun u x => rungView_mirrorRec u x) _
  · rfl

theorem RungView.Leads.latch (h : RungView.Leads v (rungView s)) (a : State) : RungView.Leads v (rungView (latch a s)) := by
  refine ⟨h.rungs.imp (fun hq => ⟨hq.1, fun e => Bool.or_eq_true_iff.mpr (.inl (hq.2 e))⟩) fun hq =>
    ⟨hq.1, Bool.or_eq_true_iff.mpr (.inl hq.2.1), hq.2.2⟩, h.slots, h.types.imp_left fun e => Bool.or_eq_true_iff.mpr (.inl e), h.ring⟩

theorem RungView.Leads.haltClamp (h : RungView.Leads v (rungView s)) : RungView.Leads v (rungView (haltClamp s)) := by
  unfold Machine.haltClamp
  split
  next hh => exact ⟨h.rungs, fun n hn => absurd (show (0 : Nat) = 1 from hn) Nat.zero_ne_one, .inl hh, h.ring⟩
  next => exact h

end

/-- What follows a command's effect leaves its resets, unless the block halts of it, and brings no key slot to life. -/
theorem finish_leads (s t : State) : RungView.Leads (rungView t) (rungView (finish s t)) := by
  have h : RungView.Leads (rungView t) (rungView (settle t)) := (RungView.Leads.refl (rungView t)).settle
  rw [← rungView_mirrorSetup s (settle t)] at h
  exact (h.latch s).haltClamp

end Sys2Proof.Machine
end

section
/-! SUPPORT. An L1 whose known-answer tests halt the block (O56). -/

namespace Sys2Proof.Machine
/- Proofs are elaborated in their order, for the reason given in the first section of this kind. -/
set_option deprecated.oldSectionVars true

/-- An L1 of a reduce unit. -/
def askedL1 (unit : Nat) : ResetReq := { level := 1, unit := unit, port := 0, cause := 0, start := 0, byLast := false, step := 0, done := false }

/-- The L1 of unit 1 that is over and waits for its end. -/
def overL1 : ResetReq := { askedL1 1 with done := true }

/-- A block whose alarm queue is full: the L1 of unit 1 is over, that of unit 0 comes next. -/
def fullState : State :=
  { engines with
    aon := { engines.aon with alarms := List.replicate 256 (mkRec 0x02 0 0 0 0 0 0 0 0 0) }
    ladder := { engines.ladder with queue := [overL1, askedL1 0] } }

/-- How many resets are asked for. -/
def rungCount (o : Host.Outcome State Fault Refusal) : Option Nat :=
  match o with
  | .next t => some t.ladder.queue.length
  | _ => none

set_option maxRecDepth 4000 in
/-- Adder 0 of port 0 fails: the REPAIR event finds no room and halts the block, and the halt ends the L1 of unit 1. -/
theorem fullState_halts : rungCount (exec (.rstL1 0 [.adder 0 0]) fullState) = some 1 := by decide

/-- The resets stay while a command settles, or a halt leaves those that are neither over nor under way. -/
theorem finish_rungs (s t : State) : (finish s t).ladder.queue = t.ladder.queue ∨ (finish s t).ladder.queue = unended t.ladder.queue := by
  have h := (finish_leads s t).rungs
  generalize finish s t = w at h ⊢
  exact h.imp And.left fun h => h.2.2

/-- A state with both L1s over keeps both while it settles, or, where it halts, neither. -/
theorem overState_settles (s u : State) (h : u.ladder.queue = [overL1, { askedL1 0 with done := true }]) :
    (finish s u).ladder.queue.length = 2 ∨ (finish s u).ladder.queue.length = 0 := by
  obtain hq | hq := finish_rungs s u
  · exact .inl (by rw [hq, h]; rfl)
  · exact .inr (by rw [hq, h]; rfl)

/-- Refutes O56: an L1 that maps out a part of its unit places a REPAIR event, and with a full alarm queue this halts the block. A halt ends
every level that is over, so the L1 of another unit that waits for its end leaves the queue, where the statement has it stay. -/
theorem not_resetLadder : ¬ Obligations.ResetLadder := by
  unfold Obligations.ResetLadder
  intro h
  obtain ⟨hl1, -⟩ := h fullState 0 0 { priv := true, pasid := 0 } { flash := [], failAt := none } (askedL1 0) [] [.adder 0 0] { port := 0, fails := [] }
  obtain ⟨-, -, hends, -⟩ := hl1 (by decide) (by decide)
  obtain ⟨u, hx, hq, -⟩ := hends rfl rfl (by decide) (by decide)
  have hc := fullState_halts
  rw [hx] at hc
  have hone : (finish fullState u).ladder.queue.length = 1 := Option.some.inj hc
  obtain h2 | h0 := overState_settles fullState u (hq.trans (by decide))
  · omega
  · omega

end Sys2Proof.Machine
end

section
/-! SUPPORT. A KEY_EXCHANGE that finds more sessions than are resident (O38). -/

namespace Sys2Proof.Machine
/- Proofs are elaborated in their order, for the reason given in the first section of this kind. -/
set_option deprecated.oldSectionVars true

/-! A response of a mailbox leaves a settled block settled. -/

theorem mb_replyFrags_other {s : State} {src : Nat} (op : Op) (tag : Word) (l : List (List Word)) {n : Nat} (h : n ≠ src) :
    mb (replyFrags s src op tag l) n = mb s n := by
  unfold replyFrags
  split
  · exact mb_setMb_other _ _ _ _ h
  · exact mb_setMb_other _ _ _ _ h
  · exact mb_setMb_other _ _ _ _ h

theorem mb_spdmSay_other {s : State} {src : Nat} (r : SpdmRsp) {n : Nat} (h : n ≠ src) : mb (spdmSay s (.mbox src) r) n = mb s n := by
  unfold spdmSay
  dsimp only
  split
  · exact mb_replyFrags_other _ _ _ h
  · rfl

theorem calm_spdmSay {s : State} {src : Nat} (r : SpdmRsp) (h : 17 ≠ src) (hr : (mb s 17).replies = []) (hc : calm s = true) :
    calm (spdmSay s (.mbox src) r) = true := by
  have hm : (mb (spdmSay s (.mbox src) r) 17).replies = [] := (congrArg Mbox.replies (mb_spdmSay_other r h)).trans hr
  obtain ⟨hub, f, e⟩ := spdmSay_form s src r
  rw [e] at hm ⊢
  simp only [calm, hr, Bool.and_eq_true] at hc
  simp only [calm, hm, Bool.and_eq_true]
  exact hc

/-! The block. -/

/-- A session that was opened by mailbox 0. -/
def boxSession : Session := Session.open (.mbox 0) false

/-- A KEY_EXCHANGE at hand. -/
def exchangePacket : Packet := { op := .spdm, tag := 0, params := [0, 0], more := false, blob := [] }

/-- A block whose next session number names nine entries of its session table already, behind a record that keeps them all out of hub RAM. -/
def crowdedState : State :=
  { engines with
    hub := { engines.hub with mbox := [(0, { Mbox.empty with packet := some exchangePacket })] }
    keys := { KeyStore.reset with slots := [(2, { Slot.zero with state := 1, uses := 0x101#16 })] }
    ident := { engines.ident with
      avail := true
      sessions := List.replicate 9 (0, boxSession) ++ [(1, boxSession)]
      records := [(0, [])] } }

/-- What the exchange leaves before its response. -/
def crowdedLeft : State := (keyExchange (taken crowdedState 0) (.mbox 0) false none).1

theorem crowdedState_asks : asks crowdedState 0 none = true := by decide

theorem crowdedState_few : (residents crowdedState).length < 8 := by decide

theorem crowdedLeft_calm : calm crowdedLeft = true := by decide

theorem crowdedLeft_spills : (slotAt crowdedLeft 9).state = 1 := by decide

theorem crowdedLeft_answer : (keyExchange (taken crowdedState 0) (.mbox 0) false none).2 = some (.session 0) := by decide

theorem crowdedLeft_left : keyExchange (taken crowdedState 0) (.mbox 0) false none = (crowdedLeft, some (.session 0)) :=
  Prod.ext rfl crowdedLeft_answer

theorem spdmKeyExchange_opens {s t u : State} {src : Nat} {x : SpdmRsp} (hh : heard s src false = true) (ht : taken s src = t)
    (hk : keyExchange t (.mbox src) false none = (u, some x)) :
    exec (.spdmKeyExchange (.mbox src) false none) s = .next (finish s (spdmSay u (.mbox src) x)) := by
  obtain ⟨he, hs, -⟩ := spdmTake_heard hh
  exact (runEng_run he (spdmRun_outside (hs.trans (congrArg some ht)) hk) : execSpdmKeyExchange (.mbox src) false none s = _)

theorem crowdedState_runs : exec (.spdmKeyExchange (.mbox 0) false none) crowdedState =
    .next (finish crowdedState (spdmSay crowdedLeft (.mbox 0) (.session 0))) :=
  spdmKeyExchange_opens (by decide) rfl crowdedLeft_left

/-- Nothing follows the exchange's effect. -/
theorem crowdedState_settles : finish crowdedState (spdmSay crowdedLeft (.mbox 0) (.session 0)) = spdmSay crowdedLeft (.mbox 0) (.session 0) := by
  have hc := calm_spdmSay (s := crowdedLeft) (src := 0) (.session 0) (by decide) (by decide) crowdedLeft_calm
  obtain ⟨hub, f, e⟩ := spdmSay_form crowdedLeft 0 (.session 0)
  rw [e] at hc ⊢
  exact finishCalm _ _ hc (by decide) (show single crowdedLeft = true by decide) rfl rfl

theorem spdmSay_slot (s : State) (src : Nat) (r : SpdmRsp) (n : Nat) : slotAt (spdmSay s (.mbox src) r) n = slotAt s n := by
  obtain ⟨hub, f, e⟩ := spdmSay_form s src r
  rw [e]
  rfl

/-- A free slot stays free while a command settles. -/
theorem finish_slot (s t : State) (n : Nat) (h : (slotAt t n).state ≠ 1) : (slotAt (finish s t) n).state ≠ 1 := by
  have hl := (finish_leads s t).slots n
  generalize finish s t = w at hl ⊢
  exact fun e => h ((congrArg Slot.state (hl e)).symm.trans e)

/-- Refutes O38: a session table that names the next session number nine times, as no premise excludes, has one session resident before the
exchange; the exchange brings all nine into hub RAM, so that another session goes to its record, whose sealing fills the SESSION slot. The
statement has the keys stay where fewer than 8 sessions were resident. -/
theorem not_spdmSessions : ¬ Obligations.SpdmSessions := by
  unfold Obligations.SpdmSessions
  intro h
  obtain ⟨hopen, -⟩ := h crowdedState 0 0 [] [] []
    { prod := false, testRoot := false, invasive := false, ipVersion := 0, svn := 0, digest := [], root := [], member := false } true
    { ok := true, mutualAuth := false, leaf := [], rooted := false, th2 := [], ems := [] }
  obtain ⟨-, -, hnew, -⟩ := hopen crowdedState_asks
  obtain ⟨u, x, hx, -, -, -, -, -, -, -, hkeys⟩ := hnew (by decide) (by decide) (by decide)
  have hu : (slotAt u 9).state ≠ 1 := by
    rw [slotAt, hkeys crowdedState_few]
    decide
  have he : finish crowdedState u = spdmSay crowdedLeft (.mbox 0) (.session 0) :=
    (Host.Outcome.next.inj (hx.symm.trans crowdedState_runs)).trans crowdedState_settles
  have hs := finish_slot crowdedState u 9 hu
  rw [he, spdmSay_slot] at hs
  exact hs crowdedLeft_spills

end Sys2Proof.Machine
end

section
/-! SUPPORT. A ring whose enable meets the overflow of a counter beyond the 128 (O35). -/

namespace Sys2Proof.Machine
/- Proofs are elaborated in their order, for the reason given in the first section of this kind. -/
set_option deprecated.oldSectionVars true

/-- A counter of derivations, about to overflow, under a number whose overflow bit is bit 3 of DBG_RING_RECORDS. -/
def strayCounter : Nat × Counter := (0x80043, { Counter.free with event := 0x0A1, enable := true, val := 2 ^ 48 - 1 })

/-- A block with a grant of level 0, its session and DOMAIN_STORE, whose ring is disabled. -/
def strayState : State :=
  { engines with
    otp := { engines.otp with lc := .prod }
    keys := { KeyStore.reset with slots := [(5, { Slot.zero with typ := 4, state := 1, uses := 1#16 })] }
    ident := { engines.ident with sessions := [(1, boxSession)] }
    dbg := { engines.dbg with
      cnt := [strayCounter]
      grants := [(0, { made := [(1, (1#5, 0))], nonce := none })] } }

/-- The driver. -/
def strayDriver : Requester := { priv := true, pasid := 0 }

/-- What the enable leaves. -/
def strayLeft : State := emit (ringRecords (quiet strayState) 2#32) (.regRsp 0 false)

theorem strayState_opens : opens strayState strayDriver 0x70018 = true := by decide

theorem strayState_runs : exec (.dbgRingEnable 2#32 strayDriver) strayState = .next (finish strayState strayLeft) :=
  (write_opens strayState_opens rfl : execDbgRingEnable 2#32 strayDriver strayState = _)

theorem strayState_settles : finish strayState strayLeft = strayLeft :=
  finishCalm _ _ (by decide) (by decide) (by decide) (by decide) (by decide)

/-- The derivation of the key of the ring sets bit 3 of the count. -/
theorem strayLeft_ring : ringOf strayLeft.dbg.cnt strayLeft.win = some 10#32 := by decide

theorem strayLeft_types : strayLeft.keys.slots.all (fun p => p.2.typ != 6) = true := by decide

theorem strayLeft_up : strayLeft.aon.haltReq = false := by decide

/-- A table of slots none of which is of a region key's type. -/
theorem typ_ne_of_all {t : Tbl Slot} (h : t.all (fun p => p.2.typ != 6) = true) (n : Nat) : (tgetD t n Slot.zero).typ ≠ 6 := by
  unfold tgetD
  cases e : tget t n with
  | none => exact (by decide : (0 : Nat) ≠ 6)
  | some k =>
    obtain ⟨p, hp, rfl⟩ := tget_mem _ _ _ e
    simpa using List.all_eq_true.mp h p hp

/-- Where a command leaves the block up and without a region key, no overflow of what followed its effect set a bit of DBG_RING_RECORDS. -/
theorem finish_ring {s t w : State} (hw : finish s t = w) (hh : w.aon.haltReq = false) (hk : w.keys.slots.all (fun p => p.2.typ != 6) = true) :
    ringOf t.dbg.cnt t.win = ringOf w.dbg.cnt w.win := by
  have h := finish_leads s t
  rw [hw] at h
  refine (h.ring fun hkey => ?_).symm
  obtain ⟨n, -, ht⟩ := hkey
  obtain he | he := h.types
  · exact Bool.false_ne_true (hh.symm.trans he)
  · exact typ_ne_of_all hk n ((he n).trans ht)

/-- The register that is compared. -/
theorem reg_of_ringOf {s : State} {w : Word} (h : ringOf s.dbg.cnt s.win = some w) : reg s 0x70018 = w := by
  unfold ringOf at h
  split at h
  · exact Option.some.inj h
  · exact nomatch h

/-- Refutes O35: an enabled counter of derivations numbered 524,355, as no premise excludes, overflows as the key of the ring is derived, and its
overflow bit lies in DBG_RING_RECORDS: the count then reads 10 where 2 was written, and nothing that follows the enable changes it back. -/
theorem not_debugSettingsAndRing : ¬ Obligations.DebugSettingsAndRing := by
  unfold Obligations.DebugSettingsAndRing
  intro h
  obtain ⟨-, hring⟩ := h
  obtain ⟨hwrite, -⟩ := hring strayState 2#32 strayDriver { hdr := Hdr.zero, payload := [], port := 0, seqN := 0, comb := none }
  obtain ⟨-, -, henable⟩ := hwrite strayState_opens
  obtain ⟨u, hx, hcount, -⟩ := henable (by decide) (by decide)
  have he : finish strayState u = strayLeft := (Host.Outcome.next.inj (hx.symm.trans strayState_runs)).trans strayState_settles
  have hr : reg u 0x70018 = 10#32 := reg_of_ringOf ((finish_ring he strayLeft_up strayLeft_types).trans strayLeft_ring)
  rw [ringCount, hr] at hcount
  exact absurd hcount (by decide)

end Sys2Proof.Machine
end
